-- ==== Sys2Proof/Word.lean ====
section
/-! DEFINITION. The word and byte types (R8, R9). -/

namespace Sys2Proof

/-- A register, 64 bits wide (R9). -/
abbrev Word := BitVec 64

/-- One byte of memory or of a link (R8). -/
abbrev Byte := BitVec 8

end Sys2Proof
end

