-- ==== Sys2Proof/Syntax.lean ====
section
/-! DEFINITION. The commands of the block: one constructor of Instr per row of the operation table, with the row's operands, and the plain types those operands need. -/

namespace Sys2Proof

/-- Who makes a register or memory access, as far as the spec tells requesters apart (R12, R647, R648). -/
inductive Req where
  | host
  | bar2
  | mgt
  | core (n : Fin 16)
  | chord (p : Fin 4)
  | other
  deriving DecidableEq, Repr

/-- Which half of a 64-bit register a naturally aligned access covers (R9). A write gives its bytes in the lanes they cover. -/
inductive Half where
  | full
  | low
  | high
  deriving DecidableEq, Repr

/-- The four units of a core that keep an engine queue (R193). -/
inductive Engine where
  | matA
  | matB
  | vec
  | xfer
  deriving DecidableEq, Repr

/-- The two matrix engines of a core (R18). -/
inductive MatEng where
  | a
  | b
  deriving DecidableEq, Repr

/-- A hardware fault of a column that happens while a MATMUL streams (R207, R208): none, a residue mismatch or a duplicated adder mismatch in a column. -/
inductive MatFault where
  | none
  | residue (col : Fin 128)
  | accDup (col : Fin 128)
  deriving DecidableEq, Repr

/-- A hardware fault of an edge-layer engine during a command (R300, R304): none, a residue mismatch of a MAC lane, or an uncorrectable error of its weight or line buffer. -/
inductive EdgeFault where
  | none
  | residue
  | ecc
  deriving DecidableEq, Repr

/-- Rounding mode of an operation, the RND field (R184). The value 3 is refused at load. -/
inductive Rnd where
  | rne
  | rtz
  | sr
  deriving DecidableEq, Repr

/-- The integer operations that both S0 (opcodes 0x01 to 0x0D) and S1 (0x21 to 0x2D) perform (R217, R218). -/
inductive IntOp where
  | add | sub | and | or | xor | shl | shr | sar | mul | min | max | slt | sltu
  deriving DecidableEq, Repr

/-- What the header ECC of a CSI-2 packet found (R143). -/
inductive HdrEcc where
  | good
  | corrected
  | uncorrectable
  deriving DecidableEq, Repr

/-- What a finished acquisition of a sensor port delivers (R398 to R400): the raw frame with the BiSS-C line delay measured, or a fault that only the line shows (1 LINE_LOW, 3 CRC) with the raw frame received. -/
inductive SensorResult where
  | good (raw : Word) (delay : BitVec 8)
  | fault (code : BitVec 3) (raw : Word)
  deriving DecidableEq, Repr

/-- A CAN frame on the bus (R411, R427): an 11-bit identifier stands in the upper 11 of the 29 bits. -/
structure CanFrame where
  ide : Bool
  fdf : Bool
  brs : Bool
  esi : Bool
  rtr : Bool
  dlc : BitVec 4
  id : BitVec 29
  data : List Byte
  deriving DecidableEq, Repr

/-- A CAN error as CAN_STAT.LAST_ERR names it (R426), or a lost arbitration, which is no error. -/
inductive CanErr where
  | arbLost
  | stuff
  | form
  | ack
  | bit1
  | bit0
  | crc
  deriving DecidableEq, Repr

/-- The units that take commands from queues, in the order of their UNIT codes (R430). -/
inductive CmdUnit where
  | core
  | tok
  | edge
  | kv
  | sol
  | ctl
  | eth
  deriving DecidableEq, Repr

/-- A word of a scratchpad line in which the ECC finds an error (R267): the word, whether two bits are wrong, and the bit column of the line that the syndrome locates (R538). -/
structure EccErr where
  word : Fin 32
  double : Bool
  col : BitVec 12
  deriving DecidableEq, Repr

/-- An HBM access as it completes at the controller (R465): a read of len bytes with the 32-byte codewords in which the code finds an error, each uncorrectable or not, or a write of bytes. -/
inductive HbmAccess where
  | read (addr : BitVec 48) (len : BitVec 9) (errs : List (BitVec 48 × Bool))
  | write (addr : BitVec 48) (bytes : List Byte)
  deriving DecidableEq, Repr

/-- An access at the head of a port of a scratchpad bank (R253, R254): its port and age in steps, who issued it, the byte address in the bank, and its data if it writes. A wide access covers its 256-byte line, a narrow one an 8-byte word; ecc lists the words of the line whose stored bits went bad before it. -/
structure BankAccess where
  port : Fin 8
  age : BitVec 16
  req : Req
  off : BitVec 19
  wide : Bool
  wdata : Option (List Byte)
  ecc : List EccErr
  deriving DecidableEq, Repr

/-- A frame on a chord link, its header fields and payload (R481). -/
structure ChordFrame where
  kind : BitVec 4
  vc : BitVec 2
  dst : BitVec 6
  src : BitVec 6
  lseq : BitVec 12
  tseq : BitVec 16
  len : BitVec 6
  poison : Bool
  addr : BitVec 41
  payload : List Byte
  deriving DecidableEq, Repr

/-- A halyard message, its header fields and payload (R597). -/
structure HalMsg where
  type : BitVec 8
  position : BitVec 8
  toDevice : Bool
  session : BitVec 32
  seq : BitVec 32
  ack : BitVec 32
  stamp : Word
  payload : List Byte
  deriving DecidableEq, Repr

/-- The straps sampled when a reset ends (R610). -/
structure Straps where
  manager : Bool
  bootSrc : BitVec 2
  deriving DecidableEq, Repr

/-- The causes of a warm reset that come from pins (R608); SEC_CTL is a command of its own. -/
inductive WarmCause where
  | resetN
  | brownout
  | warmCmd
  deriving DecidableEq, Repr

/-- A configuration write of the endpoint (R587, R594): the power state, Bus Master Enable, or the MSI-X enable and function mask. -/
inductive CfgWrite where
  | power (d3hot : Bool)
  | busMaster (on : Bool)
  | msix (enable functionMask : Bool)
  deriving DecidableEq, Repr

/-- The engines a pennant runs on, as PLB_COVERAGE.ENGINE numbers them (R532, R536). -/
inductive PenEngine where
  | matA
  | matB
  | vec
  deriving DecidableEq, Repr

/-- What Plumb's tripwire detects (R508); the watchdog is a command of its own. -/
inductive PlumbFaultSrc where
  | comparator
  | sram
  | supply
  | oscillator
  deriving DecidableEq, Repr

/-- A hardware detection line into Plumb (R520): a core, an edge engine, a control slot, a scratchpad bank, a lock-step divergence. -/
inductive HwDetect where
  | core (n : Fin 16) (injected : Bool)
  | edge (e : Fin 2)
  | slot (s : Fin 512)
  | diverge
  deriving DecidableEq, Repr

/-- One reading of the power manager (R563): the raw readings of the 64 thermal sensors in 0.25 °C, the current in 0.1 A, the package power of this sample in 0.1 W, the package energy of the sample in µJ, the energy that each running queue drew in µJ, and what no command drew. -/
structure PowerSample where
  temps : List (BitVec 16)
  icc : BitVec 16
  power : BitVec 16
  energy : BitVec 32
  shares : List (BitVec 16 × BitVec 32)
  idle : BitVec 32
  deriving DecidableEq, Repr


/-- The commands of the block, one constructor per row of the operation table, in its order. -/
inductive Instr where
  /-- GENERIC_REGISTER_WRITE, R10. -/
  | genericRegisterWrite (r : Req) (off : BitVec 26) (h : Half) (v : Word)
  /-- BAR0_BAD_ACCESS, R589. -/
  | bar0BadAccess (write : Bool)
  /-- STEP_RATE_WINDOW, R44. -/
  | stepRateWindow (rate : BitVec 16)
  /-- STEP_RATE_READ, R59. -/
  | stepRateRead (r : Req) (h : Half)
  /-- DEADLINE_EXPIRY, R53. -/
  | deadlineExpiry (q : BitVec 16)
  /-- STEP_BUDGET_EXHAUSTED, R53. -/
  | stepBudgetExhausted (q : BitVec 16)
  /-- SUSPENDED_DEADLINE_PASS, R55. -/
  | suspendedDeadlinePass (q : BitVec 16)
  /-- FAB_STAGE, R78. -/
  | fabStage (r : Req) (tag : BitVec 16)
  /-- FAB_STAGE_DONE, R73. -/
  | fabStageDone
  /-- FAB_COMMIT, R83. -/
  | fabCommit (r : Req) (tag : BitVec 16)
  /-- FAB_DISCARD, R78. -/
  | fabDiscard (r : Req) (tag : BitVec 16)
  /-- COMMIT_UNIT_DRAIN_TIMEOUT, R83. -/
  | commitUnitDrainTimeout
  /-- COMMIT_DRAIN_DONE, R83. -/
  | commitDrainDone
  /-- COMMIT_SAVE_DONE, R83. -/
  | commitSaveDone
  /-- COMMIT_VERIFY_DONE, R83. -/
  | commitVerifyDone
  /-- COMMIT_REBIND_DONE, R84. -/
  | commitRebindDone
  /-- COMMIT_RESUME_DONE, R83. -/
  | commitResumeDone
  /-- TIME_TICK, R100. -/
  | timeTick
  /-- TIME_NOW_READ, R102. -/
  | timeNowRead (r : Req) (h : Half)
  /-- TIME_STEP_WRITE, R108. -/
  | timeStepWrite (r : Req) (h : Half) (v : Word)
  /-- TIME_RATE_WRITE, R109. -/
  | timeRateWrite (r : Req) (h : Half) (v : Word)
  /-- TIME_CTL_NEW_SESSION, R108. -/
  | timeCtlNewSession (r : Req)
  /-- TIME_CTL_DECLARE_VALID, R108. -/
  | timeCtlDeclareValid (r : Req)
  /-- TIME_CTL_END_HOLDOVER, R112. -/
  | timeCtlEndHoldover (r : Req)
  /-- TIME_CTL_SWITCH_ALT, R115. -/
  | timeCtlSwitchAlt (r : Req)
  /-- TIME_ALT_CTL_WRITE, R114. -/
  | timeAltCtlWrite (r : Req) (h : Half) (v : Word)
  /-- TIME_ALT_RATE_WRITE, R109. -/
  | timeAltRateWrite (r : Req) (h : Half) (v : Word)
  /-- TIME_ALT_OFFSET_WRITE, R114. -/
  | timeAltOffsetWrite (r : Req) (h : Half) (v : Word)
  /-- SYNC_LOSS_TIMEOUT, R112. -/
  | syncLossTimeout
  /-- REF_LOSS, R113. -/
  | refLoss
  /-- REF_RETURN, R113. -/
  | refReturn
  /-- PPS_OUT_RISE, R116. -/
  | ppsOutRise
  /-- PPS_OUT_FALL, R116. -/
  | ppsOutFall
  /-- TIME_COMPARE_FIRE, R118. -/
  | timeCompareFire (n : Fin 64)
  /-- CONV_START_PULSE_END, R403. -/
  | convStartPulseEnd (q : Fin 16)
  /-- TIME_CMP_ARM_WRITE, R118. -/
  | timeCmpArmWrite (n : Fin 64) (r : Req) (h : Half) (v : Word)
  /-- EVENT_CAPTURE, R122. -/
  | eventCapture (k : Fin 17) (rising : Bool) (sampled : Word)
  /-- TIME_EVT_STAMP_READ, R132. -/
  | timeEvtStampRead (k : Fin 17) (r : Req) (h : Half)
  /-- CSI2_FRAME_START, R144. -/
  | csi2FrameStart (p : Fin 16) (vc : Fin 4)
  /-- CSI2_LINE_PACKET, R143. -/
  | csi2LinePacket (p : Fin 16) (vc : Fin 4) (dt : BitVec 6) (hdr : HdrEcc) (crcOk : Bool) (overrun : Bool) (payload : List Byte)
  /-- CSI2_FRAME_END, R144. -/
  | csi2FrameEnd (p : Fin 16) (vc : Fin 4) (ecc : Bool)
  /-- CSI2_FRAME_END_TIMEOUT, R144. -/
  | csi2FrameEndTimeout (p : Fin 16) (vc : Fin 4)
  /-- SAMPLE_RECORD_WRITE, R141. -/
  | sampleRecordWrite (src : Fin 128)
  /-- IMG_SRC_RELEASE, R134. -/
  | imgSrcRelease (src : Fin 128) (r : Req) (h : Half) (v : Word)
  /-- IMG_PORT_DISABLE, R146. -/
  | imgPortDisable (p : Fin 16) (r : Req) (abandon : Bool)
  /-- IMG_PORT_ENABLE, R146. -/
  | imgPortEnable (p : Fin 16) (r : Req)
  /-- PORT_DISABLE_DRAIN_TIMEOUT, R146. -/
  | portDisableDrainTimeout (p : Fin 16)
  /-- CARRIER_DATAGRAM, R148. -/
  | carrierDatagram (e : Fin 4) (stamp : Word) (bytes : List Byte)
  /-- REASSEMBLY_TIMEOUT, R149. -/
  | reassemblyTimeout (src : Fin 128) (slot : Fin 2)
  /-- DECODER_START, R155. -/
  | decoderStart (d : Fin 8)
  /-- DECODE_COMPLETE, R150. -/
  | decodeComplete (d : Fin 8) (ecc : Bool)
  /-- DECODE_BUDGET_EXPIRY, R156. -/
  | decodeBudgetExpiry (d : Fin 8)
  /-- TOKENIZE, R162. -/
  | tokenize (q : BitVec 16) (done : Nat) (ecc : List (BitVec 17))
  /-- CORE_RUN, R198. -/
  | coreRun (q : BitVec 16)
  /-- CORE_COPY, R198. -/
  | coreCopy (q : BitVec 16) (done : Nat)
  /-- CORE_FILL, R198. -/
  | coreFill (q : BitVec 16) (done : Nat)
  /-- BUNDLE_ISSUE, R192. -/
  | bundleIssue (n : Fin 16) (ecc : Bool)
  /-- YIELD_POINT, R194. -/
  | yieldPoint (n : Fin 16)
  /-- PROGRAM_END, R192. -/
  | programEnd (n : Fin 16)
  /-- ENGINE_OPERATION_COMPLETE, R193. -/
  | engineOperationComplete (n : Fin 16) (e : Engine)
  /-- MAT_WLOAD, R203. -/
  | matWload (n : Fin 16) (e : MatEng) (x : BitVec 8)
  /-- MAT_MATMUL, R203. -/
  | matMatmul (n : Fin 16) (e : MatEng) (x : BitVec 8) (set : Bool) (row : BitVec 10) (count : BitVec 11) (init : Bool) (swap : Bool) (fault : MatFault)
  /-- MAT_DRAIN, R203. -/
  | matDrain (n : Fin 16) (e : MatEng) (x q : BitVec 8) (set : Bool) (row : BitVec 10) (count : BitVec 11) (rnd : Rnd)
  /-- MAT_CLEAR, R203. -/
  | matClear (n : Fin 16) (e : MatEng) (set : Bool) (row : BitVec 10) (count : BitVec 11)
  /-- VEC_ADD, R210. -/
  | vecAdd (n : Fin 16) (dst src1 src2 : BitVec 8) (imm : BitVec 6) (rnd : Rnd)
  /-- VEC_MUL, R210. -/
  | vecMul (n : Fin 16) (dst src1 src2 : BitVec 8) (imm : BitVec 6) (rnd : Rnd)
  /-- VEC_FMA, R210. -/
  | vecFma (n : Fin 16) (dst src1 src2 : BitVec 8) (imm : BitVec 6) (rnd : Rnd)
  /-- VEC_MAX, R210. -/
  | vecMax (n : Fin 16) (dst src1 src2 : BitVec 8) (imm : BitVec 6) (rnd : Rnd)
  /-- VEC_MIN, R210. -/
  | vecMin (n : Fin 16) (dst src1 src2 : BitVec 8) (imm : BitVec 6) (rnd : Rnd)
  /-- VEC_CVT, R210. -/
  | vecCvt (n : Fin 16) (dst src1 src2 : BitVec 8) (imm : BitVec 6) (rnd : Rnd)
  /-- VEC_BQUANT, R189. -/
  | vecBquant (n : Fin 16) (dst src1 src2 : BitVec 8) (imm : BitVec 6) (rnd : Rnd)
  /-- VEC_EXP, R212. -/
  | vecExp (n : Fin 16) (dst src1 src2 : BitVec 8) (imm : BitVec 6) (rnd : Rnd)
  /-- VEC_LOG, R212. -/
  | vecLog (n : Fin 16) (dst src1 src2 : BitVec 8) (imm : BitVec 6) (rnd : Rnd)
  /-- VEC_RECIP, R212. -/
  | vecRecip (n : Fin 16) (dst src1 src2 : BitVec 8) (imm : BitVec 6) (rnd : Rnd)
  /-- VEC_RSQRT, R212. -/
  | vecRsqrt (n : Fin 16) (dst src1 src2 : BitVec 8) (imm : BitVec 6) (rnd : Rnd)
  /-- VEC_TANH, R212. -/
  | vecTanh (n : Fin 16) (dst src1 src2 : BitVec 8) (imm : BitVec 6) (rnd : Rnd)
  /-- VEC_SIGMOID, R212. -/
  | vecSigmoid (n : Fin 16) (dst src1 src2 : BitVec 8) (imm : BitVec 6) (rnd : Rnd)
  /-- VEC_GELU, R212. -/
  | vecGelu (n : Fin 16) (dst src1 src2 : BitVec 8) (imm : BitVec 6) (rnd : Rnd)
  /-- VEC_RSUM, R213. -/
  | vecRsum (n : Fin 16) (dst src1 src2 : BitVec 8) (imm : BitVec 6) (rnd : Rnd)
  /-- VEC_RMAX, R210. -/
  | vecRmax (n : Fin 16) (dst src1 src2 : BitVec 8) (imm : BitVec 6) (rnd : Rnd)
  /-- VEC_SMSTAT, R214. -/
  | vecSmstat (n : Fin 16) (dst src1 src2 : BitVec 8) (imm : BitVec 6) (rnd : Rnd)
  /-- VEC_SMLSE, R214. -/
  | vecSmlse (n : Fin 16) (dst src1 src2 : BitVec 8) (imm : BitVec 6) (rnd : Rnd)
  /-- VEC_NSTAT, R210. -/
  | vecNstat (n : Fin 16) (dst src1 src2 : BitVec 8) (imm : BitVec 6) (rnd : Rnd)
  /-- S0_ADD, R217. -/
  | s0Add (n : Fin 16) (rd ra rb : BitVec 6)
  /-- S0_SUB, R217. -/
  | s0Sub (n : Fin 16) (rd ra rb : BitVec 6)
  /-- S0_AND, R217. -/
  | s0And (n : Fin 16) (rd ra rb : BitVec 6)
  /-- S0_OR, R217. -/
  | s0Or (n : Fin 16) (rd ra rb : BitVec 6)
  /-- S0_XOR, R217. -/
  | s0Xor (n : Fin 16) (rd ra rb : BitVec 6)
  /-- S0_SHL, R217. -/
  | s0Shl (n : Fin 16) (rd ra rb : BitVec 6)
  /-- S0_SHR, R217. -/
  | s0Shr (n : Fin 16) (rd ra rb : BitVec 6)
  /-- S0_SAR, R217. -/
  | s0Sar (n : Fin 16) (rd ra rb : BitVec 6)
  /-- S0_MUL, R217. -/
  | s0Mul (n : Fin 16) (rd ra rb : BitVec 6)
  /-- S0_MIN, R217. -/
  | s0Min (n : Fin 16) (rd ra rb : BitVec 6)
  /-- S0_MAX, R217. -/
  | s0Max (n : Fin 16) (rd ra rb : BitVec 6)
  /-- S0_SLT, R217. -/
  | s0Slt (n : Fin 16) (rd ra rb : BitVec 6)
  /-- S0_SLTU, R217. -/
  | s0Sltu (n : Fin 16) (rd ra rb : BitVec 6)
  /-- S0_ADDI, R217. -/
  | s0Addi (n : Fin 16) (rd ra : BitVec 6) (imm : BitVec 18)
  /-- S0_ANDI, R217. -/
  | s0Andi (n : Fin 16) (rd ra : BitVec 6) (imm : BitVec 18)
  /-- S0_ORI, R217. -/
  | s0Ori (n : Fin 16) (rd ra : BitVec 6) (imm : BitVec 18)
  /-- S0_XORI, R217. -/
  | s0Xori (n : Fin 16) (rd ra : BitVec 6) (imm : BitVec 18)
  /-- S0_SHLI, R217. -/
  | s0Shli (n : Fin 16) (rd ra : BitVec 6) (imm : BitVec 18)
  /-- S0_SHRI, R217. -/
  | s0Shri (n : Fin 16) (rd ra : BitVec 6) (imm : BitVec 18)
  /-- S0_SARI, R217. -/
  | s0Sari (n : Fin 16) (rd ra : BitVec 6) (imm : BitVec 18)
  /-- S0_LIH, R217. -/
  | s0Lih (n : Fin 16) (rd ra : BitVec 6) (imm : BitVec 18)
  /-- S0_EXTS, R217. -/
  | s0Exts (n : Fin 16) (rd ra : BitVec 6) (imm : BitVec 18)
  /-- S0_EXTU, R217. -/
  | s0Extu (n : Fin 16) (rd ra : BitVec 6) (imm : BitVec 18)
  /-- S0_LD, R217. -/
  | s0Ld (n : Fin 16) (rd ra : BitVec 6) (imm : BitVec 18)
  /-- S0_ST, R217. -/
  | s0St (n : Fin 16) (rs ra : BitVec 6) (imm : BitVec 18)
  /-- S0_LDF, R217. -/
  | s0Ldf (n : Fin 16) (rd ra : BitVec 6) (imm : BitVec 18)
  /-- S0_STF, R217. -/
  | s0Stf (n : Fin 16) (rs ra : BitVec 6) (imm : BitVec 18)
  /-- LOAD_DATA_RETURN, R217. -/
  | loadDataReturn (n : Fin 16) (k : Nat)
  /-- S0_BEQ, R217. -/
  | s0Beq (n : Fin 16) (ra rb : BitVec 6) (off : BitVec 18)
  /-- S0_BNE, R217. -/
  | s0Bne (n : Fin 16) (ra rb : BitVec 6) (off : BitVec 18)
  /-- S0_BLT, R217. -/
  | s0Blt (n : Fin 16) (ra rb : BitVec 6) (off : BitVec 18)
  /-- S0_BGE, R217. -/
  | s0Bge (n : Fin 16) (ra rb : BitVec 6) (off : BitVec 18)
  /-- S0_JMP, R217. -/
  | s0Jmp (n : Fin 16) (off : BitVec 18)
  /-- S0_LOOP, R217. -/
  | s0Loop (n : Fin 16) (ra : BitVec 6) (imm : BitVec 18)
  /-- S0_DSET, R217. -/
  | s0Dset (n : Fin 16) (g : BitVec 6) (desc : BitVec 8) (word : BitVec 2)
  /-- S0_DADD, R217. -/
  | s0Dadd (n : Fin 16) (g : BitVec 6) (desc : BitVec 8)
  /-- S0_DGET, R217. -/
  | s0Dget (n : Fin 16) (g : BitVec 6) (desc : BitVec 8) (word : BitVec 2)
  /-- S0_SRSTREAM, R217. -/
  | s0Srstream (n : Fin 16) (ra : BitVec 6)
  /-- S1_INTEGER_OP, R218. -/
  | s1IntegerOp (n : Fin 16) (op : IntOp) (rd ra rb : BitVec 6)
  /-- S1_FADD, R218. -/
  | s1Fadd (n : Fin 16) (fd fa fb : BitVec 5)
  /-- S1_FSUB, R218. -/
  | s1Fsub (n : Fin 16) (fd fa fb : BitVec 5)
  /-- S1_FMUL, R218. -/
  | s1Fmul (n : Fin 16) (fd fa fb : BitVec 5)
  /-- S1_FMA, R218. -/
  | s1Fma (n : Fin 16) (fd fa fb fc : BitVec 5)
  /-- S1_FDIV, R218. -/
  | s1Fdiv (n : Fin 16) (fd fa fb : BitVec 5)
  /-- S1_FSQRT, R218. -/
  | s1Fsqrt (n : Fin 16) (fd fa : BitVec 5)
  /-- S1_FMIN, R218. -/
  | s1Fmin (n : Fin 16) (fd fa fb : BitVec 5)
  /-- S1_FMAX, R218. -/
  | s1Fmax (n : Fin 16) (fd fa fb : BitVec 5)
  /-- S1_FCVT_FI, R218. -/
  | s1FcvtFi (n : Fin 16) (fd : BitVec 5) (gr : BitVec 6)
  /-- S1_FCVT_IF, R218. -/
  | s1FcvtIf (n : Fin 16) (gr : BitVec 6) (fa : BitVec 5)
  /-- S1_FCVT_FS, R218. -/
  | s1FcvtFs (n : Fin 16) (fd : BitVec 5) (gr : BitVec 6)
  /-- S1_FCVT_SF, R218. -/
  | s1FcvtSf (n : Fin 16) (gr : BitVec 6) (fa : BitVec 5)
  /-- S1_FMOVFG, R218. -/
  | s1Fmovfg (n : Fin 16) (fd : BitVec 5) (gr : BitVec 6)
  /-- S1_FMOVGF, R218. -/
  | s1Fmovgf (n : Fin 16) (gr : BitVec 6) (fa : BitVec 5)
  /-- S1_FCMPLT, R218. -/
  | s1Fcmplt (n : Fin 16) (gr : BitVec 6) (fa fb : BitVec 5)
  /-- FP64_RESULT_WRITE, R218. -/
  | fp64ResultWrite (n : Fin 16) (slow : Bool)
  /-- XFER_COPY, R650. -/
  | xferCopy (n : Fin 16) (dst src : BitVec 8)
  /-- XFER_FILL, R219. -/
  | xferFill (n : Fin 16) (dst src : BitVec 8)
  /-- XFER_IM2COL, R282. -/
  | xferIm2col (n : Fin 16) (dst src : BitVec 8) (aux : BitVec 18)
  /-- XFER_ZCOMP, R288. -/
  | xferZcomp (n : Fin 16) (dst src : BitVec 8) (aux : BitVec 18)
  /-- XFER_ZDECOMP, R291. -/
  | xferZdecomp (n : Fin 16) (dst src : BitVec 8) (aux : BitVec 18)
  /-- XFER_SCALE_BIND, R235. -/
  | xferScaleBind (n : Fin 16) (dst src : BitVec 8) (aux : BitVec 18)
  /-- CORE_INJECT_WRITE, R209. -/
  | coreInjectWrite (n : Fin 16) (r : Req) (h : Half) (v : Word)
  /-- BANK_ACCESS_SERVE, R254. -/
  | bankAccessServe (b : Fin 1280) (heads : List BankAccess)
  /-- ECC_WRITEBACK, R267. -/
  | eccWriteback (b : Fin 1280) (line : Fin 2048)
  /-- SPD_BANK_OWNER_WRITE, R258. -/
  | spdBankOwnerWrite (b : Fin 1280) (r : Req) (h : Half) (v : Word)
  /-- HANDOVER_COMPLETE, R259. -/
  | handoverComplete (b : Fin 1280)
  /-- SPD_BANK_PWR_WRITE, R264. -/
  | spdBankPwrWrite (b : Fin 1280) (r : Req) (h : Half) (v : Word)
  /-- BANK_POWER_TRANSITION_DONE, R266. -/
  | bankPowerTransitionDone (b : Fin 1280)
  /-- PATROL_SCRUB_LINE, R268. -/
  | patrolScrubLine (line : Fin 2048)
  /-- COLUMN_REPAIR_LINE, R269. -/
  | columnRepairLine
  /-- COLUMN_REPAIR_DONE, R269. -/
  | columnRepairDone
  /-- EDGE_CONV, R297. -/
  | edgeConv (q : BitVec 16) (done : Nat) (fault : EdgeFault)
  /-- EDGE_POOL, R301. -/
  | edgePool (q : BitVec 16) (done : Nat)
  /-- EDGE_RESIZE, R302. -/
  | edgeResize (q : BitVec 16) (done : Nat)
  /-- KV_OPEN, R313. -/
  | kvOpen (q : BitVec 16)
  /-- KV_CLOSE, R322. -/
  | kvClose (q : BitVec 16) (done refetch : Nat)
  /-- KV_APPEND, R319. -/
  | kvAppend (q : BitVec 16) (done refetch : Nat)
  /-- KV_FORK, R321. -/
  | kvFork (q : BitVec 16) (done refetch : Nat)
  /-- KV_TRUNCATE, R322. -/
  | kvTruncate (q : BitVec 16) (done refetch : Nat)
  /-- KV_SCORE, R324. -/
  | kvScore (q : BitVec 16) (done refetch : Nat)
  /-- KV_PIN, R327. -/
  | kvPin (q : BitVec 16) (done refetch : Nat)
  /-- KV_EVICT, R327. -/
  | kvEvict (q : BitVec 16) (done refetch : Nat)
  /-- KV_VERIFY_COMMIT, R330. -/
  | kvVerifyCommit (q : BitVec 16) (done refetch : Nat)
  /-- SOLVE_DENSE, R348. -/
  | solveDense (q : BitVec 16)
  /-- SOLVE_BA, R356. -/
  | solveBa (q : BitVec 16)
  /-- SOLVER_EVAL_RETURN, R347. -/
  | solverEvalReturn (ecc : List (BitVec 13))
  /-- CTL_SNAPSHOT, R383. -/
  | ctlSnapshot (g : Fin 8)
  /-- CTL_EVALUATE, R374. -/
  | ctlEvaluate (g : Fin 8) (bad : List (Fin 512))
  /-- CTL_HANDOFF, R369. -/
  | ctlHandoff (g : Fin 8)
  /-- CTL_LATCH, R369. -/
  | ctlLatch (g : Fin 8)
  /-- CTL_WRITE_INPUTS, R383. -/
  | ctlWriteInputs (q : BitVec 16)
  /-- CTL_SET_COEF, R383. -/
  | ctlSetCoef (q : BitVec 16)
  /-- CTL_RESET_STATE, R383. -/
  | ctlResetState (q : BitVec 16)
  /-- CTL_TRACE_READ, R389. -/
  | ctlTraceRead (q : BitVec 16)
  /-- CTL_SLOT_IN_WRITE, R383. -/
  | ctlSlotInWrite (sl : Fin 512) (r : Req) (h : Half) (v : Word)
  /-- CTL_GROUP_DISABLE, R381. -/
  | ctlGroupDisable (g : Fin 8) (r : Req) (abandon : Bool)
  /-- CTL_GROUP_ENABLE, R381. -/
  | ctlGroupEnable (g : Fin 8) (r : Req)
  /-- CTL_TRACE_ARM, R387. -/
  | ctlTraceArm (t : Fin 4) (r : Req)
  /-- CTL_TRACE_FORCE, R388. -/
  | ctlTraceForce (t : Fin 4) (r : Req)
  /-- TRACE_CONFIG_WRITE, R389. -/
  | traceConfigWrite (r : Req) (off : BitVec 26) (h : Half) (v : Word)
  /-- SENSOR_FRAME_COMPLETE, R400. -/
  | sensorFrameComplete (p : Fin 24) (res : SensorResult)
  /-- SENSOR_NO_START_TIMEOUT, R400. -/
  | sensorNoStartTimeout (p : Fin 24)
  /-- PWM_VALLEY, R405. -/
  | pwmValley (a : Fin 48)
  /-- STEP_PULSE_CARRY, R407. -/
  | stepPulseCarry (a : Fin 48)
  /-- CAN_FRAME_RECEIVED, R411. -/
  | canFrameReceived (k : Fin 8) (f : CanFrame) (sof : BitVec 32)
  /-- CAN_TX_REQUEST, R413. -/
  | canTxRequest (k : Fin 8) (m : Fin 64) (r : Req)
  /-- CAN_TX_ABORT, R413. -/
  | canTxAbort (k : Fin 8) (m : Fin 64) (r : Req) (onBus : Bool)
  /-- CAN_TX_COMPLETE, R413. -/
  | canTxComplete (k : Fin 8) (sof : BitVec 32)
  /-- CAN_TX_ERROR, R413. -/
  | canTxError (k : Fin 8) (e : CanErr)
  /-- CAN_RECOVER, R414. -/
  | canRecover (k : Fin 8) (r : Req)
  /-- CAN_RECOVERY_DONE, R414. -/
  | canRecoveryDone (k : Fin 8)
  /-- CAN_DISABLE, R416. -/
  | canDisable (k : Fin 8) (r : Req) (abandon : Bool) (busy : Bool)
  /-- CAN_ENABLE, R416. -/
  | canEnable (k : Fin 8) (r : Req)
  /-- CAN_BUS_INTEGRATION_DONE, R416. -/
  | canBusIntegrationDone (k : Fin 8)
  /-- ETH_FRAME_RECEIVED, R418. -/
  | ethFrameReceived (e : Fin 4) (fcsOk : Bool) (stamp : Word) (bytes : List Byte)
  /-- ETH_TX_FRAME, R421. -/
  | ethTxFrame (q : BitVec 16)
  /-- ETH_TX_DONE, R421. -/
  | ethTxDone (e : Fin 4) (stamp : Word)
  /-- ETH_LINK_UP, R428. -/
  | ethLinkUp (e : Fin 4)
  /-- ETH_LINK_DOWN, R421. -/
  | ethLinkDown (e : Fin 4)
  /-- QUE_DOORBELL_WRITE, R433. -/
  | queDoorbellWrite (q : BitVec 16) (r : Req) (h : Half) (v : Word)
  /-- DESCRIPTOR_FETCH, R440. -/
  | descriptorFetch (q : BitVec 16)
  /-- COMMAND_DISPATCH, R448. -/
  | commandDispatch (c : Fin 8) (u : CmdUnit) (inst : Fin 4)
  /-- YIELD_REMOTE_TIMEOUT, R451. -/
  | yieldRemoteTimeout (n : Fin 16)
  /-- CONTEXT_SAVE_DONE, R450. -/
  | contextSaveDone (n : Fin 16)
  /-- CONTEXT_RESTORE_DONE, R450. -/
  | contextRestoreDone (n : Fin 16)
  /-- QUANTUM_EXPIRY, R453. -/
  | quantumExpiry (n : Fin 16)
  /-- COMMAND_COMPLETE, R442. -/
  | commandComplete (q : BitVec 16)
  /-- QUEUE_DISABLE, R455. -/
  | queueDisable (q : BitVec 16) (r : Req) (abandon : Bool)
  /-- QUEUE_ENABLE, R455. -/
  | queueEnable (q : BitVec 16) (r : Req)
  /-- QUEUE_DRAIN_TIMEOUT, R455. -/
  | queueDrainTimeout (q : BitVec 16)
  /-- QUE_SEQ_READ, R443. -/
  | queSeqRead (q : BitVec 16) (r : Req) (h : Half)
  /-- REGULATOR_ADMIT, R454. -/
  | regulatorAdmit (c : Fin 8) (k : Fin 7) (size : BitVec 32) (idle : Bool)
  /-- HBM_ACCESS, R465. -/
  | hbmAccess (acc : HbmAccess)
  /-- HBM_PATROL_SCRUB, R467. -/
  | hbmPatrolScrub (pc : Fin 128)
  /-- HBM_RETIRE_REQ_WRITE, R468. -/
  | hbmRetireReqWrite (r : Req) (h : Half) (v : Word)
  /-- HBM_ROW_RETIRE_DONE, R469. -/
  | hbmRowRetireDone
  /-- HBM_RETRAIN_REQ, R472. -/
  | hbmRetrainReq (r : Req) (h : Half) (v : Word)
  /-- HBM_LINK_ERROR, R472. -/
  | hbmLinkError (ch : Fin 64)
  /-- HBM_TEMP_READ, R473. -/
  | hbmTempRead (temps : List (BitVec 8))
  /-- HBM_RETRAIN_DONE, R472. -/
  | hbmRetrainDone
  /-- CHD_ENUMERATE, R480. -/
  | chdEnumerate (r : Req)
  /-- CHORD_ENUM, R479. -/
  | chordEnum (p : Fin 4) (f : ChordFrame)
  /-- CHORD_ACK, R484. -/
  | chordAck (p : Fin 4) (f : ChordFrame)
  /-- CHORD_NAK, R484. -/
  | chordNak (p : Fin 4) (f : ChordFrame)
  /-- CHORD_CREDIT, R485. -/
  | chordCredit (p : Fin 4) (f : ChordFrame)
  /-- CHORD_TIME, R489. -/
  | chordTime (p : Fin 4) (f : ChordFrame) (rx : Word)
  /-- CHORD_TIME_SEND, R489. -/
  | chordTimeSend
  /-- CHORD_READ, R487. -/
  | chordRead (p : Fin 4) (f : ChordFrame)
  /-- CHORD_READ_RESP, R486. -/
  | chordReadResp (p : Fin 4) (f : ChordFrame) (refused : Bool)
  /-- CHORD_WRITE, R487. -/
  | chordWrite (p : Fin 4) (f : ChordFrame)
  /-- CHORD_HALYARD, R602. -/
  | chordHalyard (p : Fin 4) (f : ChordFrame)
  /-- CHORD_DET, R491. -/
  | chordDet (p : Fin 4) (f : ChordFrame)
  /-- CHORD_SIG, R494. -/
  | chordSig (p : Fin 4) (f : ChordFrame)
  /-- CHORD_FRAME_CORRUPT, R484. -/
  | chordFrameCorrupt (p : Fin 4) (fec : Bool)
  /-- CHORD_BAD_KIND, R482. -/
  | chordBadKind (p : Fin 4) (f : ChordFrame)
  /-- CHORD_ACK_TIMEOUT, R484. -/
  | chordAckTimeout (p : Fin 4)
  /-- CHORD_LINK_DOWN, R484. -/
  | chordLinkDown (p : Fin 4)
  /-- CHORD_LINK_UP, R484. -/
  | chordLinkUp (p : Fin 4)
  /-- REMOTE_TIMEOUT, R488. -/
  | remoteTimeout (tseq : BitVec 16)
  /-- DET_LAUNCH_ARM, R491. -/
  | detLaunchArm (r : Req)
  /-- DET_LAUNCH_ABORT, R492. -/
  | detLaunchAbort (r : Req)
  /-- DET_LAUNCH_RELEASE, R492. -/
  | detLaunchRelease (r : Req)
  /-- LAUNCH_FIRE, R491. -/
  | launchFire
  /-- LAUNCH_MARGIN_EXPIRY, R492. -/
  | launchMarginExpiry
  /-- LAUNCH_ARMED_EXPIRY, R492. -/
  | launchArmedExpiry
  /-- DET_LS_CFG_WRITE, R493. -/
  | detLsCfgWrite (r : Req) (h : Half) (v : Word)
  /-- DET_LS_FEED, R493. -/
  | detLsFeed (f : Fin 8) (r : Req) (h : Half) (v : Word)
  /-- LOCKSTEP_LAG_TIMEOUT, R495. -/
  | lockstepLagTimeout (src : Fin 80)
  /-- RECORD_GAP_ENTRY, R497. -/
  | recordGapEntry
  /-- REPLAY_INJECT, R498. -/
  | replayInject
  /-- SETTINGS_DIGEST_RECOMPUTE, R500. -/
  | settingsDigestRecompute
  /-- PLB_INBOX_WRITE, R515. -/
  | plbInboxWrite (n : Fin 17) (r : Req) (h : Half) (v : Word)
  /-- PLUMB_FRAME_START, R513. -/
  | plumbFrameStart (f : Fin 64)
  /-- PLUMB_FRAME_DEADLINE, R513. -/
  | plumbFrameDeadline (f : Fin 64)
  /-- PLUMB_JUDGEMENT_END, R514. -/
  | plumbJudgementEnd (f : Fin 64)
  /-- PLUMB_HW_DETECT, R520. -/
  | plumbHwDetect (d : HwDetect)
  /-- PLUMB_TIME_CHECK, R510. -/
  | plumbTimeCheck
  /-- PLUMB_FAULT, R508. -/
  | plumbFault (src : PlumbFaultSrc)
  /-- PLUMB_WATCHDOG_TIMEOUT, R508. -/
  | plumbWatchdogTimeout
  /-- PLUMB_SAFETY_MESSAGE, R525. -/
  | plumbSafetyMessage
  /-- PLUMB_SAFETY_REPEAT, R525. -/
  | plumbSafetyRepeat
  /-- PLB_ACK, R526. -/
  | plbAck (r : Req) (h : Half) (v : Word)
  /-- PLB_FORCE_SAFE, R528. -/
  | plbForceSafe (r : Req) (on : Bool)
  /-- PLB_CLEAR_FIRST, R536. -/
  | plbClearFirst (r : Req)
  /-- PENNANT_FRAME_BOUNDARY, R532. -/
  | pennantFrameBoundary
  /-- PENNANT_RUN_START, R530. -/
  | pennantRunStart (phys : Fin 18) (e : PenEngine)
  /-- PENNANT_REPORT_JUDGE, R531. -/
  | pennantReportJudge
  /-- FUSE_BURN_DONE, R538. -/
  | fuseBurnDone (good : Bool)
  /-- FLT_CMD_FURL, R544. -/
  | fltCmdFurl (r : Req) (core : Fin 16)
  /-- PLANNED_SWAP_START, R543. -/
  | plannedSwapStart (n : Fin 16)
  /-- SWAP_COPY_DONE, R542. -/
  | swapCopyDone
  /-- ROLLING_TEST_NEXT, R548. -/
  | rollingTestNext
  /-- ROLLING_INTERVAL_EXPIRY, R548. -/
  | rollingIntervalExpiry
  /-- CORE_TEST_DONE, R550. -/
  | coreTestDone (fail : BitVec 4) (bank : BitVec 11) (cols : List (BitVec 11 × BitVec 12))
  /-- FLT_TEST_REQ, R551. -/
  | fltTestReq (r : Req) (h : Half) (v : Word)
  /-- TEST_REQUEST_START, R552. -/
  | testRequestStart
  /-- TEST_REQUEST_NO_SLACK, R552. -/
  | testRequestNoSlack
  /-- THERMAL_CAL_SEGMENT_DONE, R551. -/
  | thermalCalSegmentDone
  /-- FLT_PEN_INSTALL, R555. -/
  | fltPenInstall (r : Req) (allowOlder : Bool)
  /-- PENNANT_INSTALL_DONE, R555. -/
  | pennantInstallDone
  /-- POWER_SAMPLE, R563. -/
  | powerSample (x : PowerSample)
  /-- PWR_CFG_WRITE, R575. -/
  | pwrCfgWrite (r : Req) (h : Half) (v : Word)
  /-- PWR_VDD_WRITE, R571. -/
  | pwrVddWrite (r : Req) (h : Half) (v : Word)
  /-- PWR_THERM_CFG_WRITE, R575. -/
  | pwrThermCfgWrite (r : Req) (h : Half) (v : Word)
  /-- PWR_DOMAIN_BMAX_WRITE, R575. -/
  | pwrDomainBmaxWrite (k : Fin 3) (r : Req) (h : Half) (v : Word)
  /-- VR_TRANSFER_RETRY, R634. -/
  | vrTransferRetry
  /-- BROWNOUT, R573. -/
  | brownout
  /-- BAR2_READ, R590. -/
  | bar2Read (x : BitVec 32) (len : BitVec 13)
  /-- BAR2_WRITE, R590. -/
  | bar2Write (x : BitVec 32) (bytes : List Byte)
  /-- HOST_READ_COMPLETION, R593. -/
  | hostReadCompletion (data : List Byte) (ok : Bool)
  /-- MSIX_UNMASK, R594. -/
  | msixUnmask (vec : Option (Fin 2048))
  /-- GLB_IRQ_MASK_WRITE, R595. -/
  | glbIrqMaskWrite (r : Req) (h : Half) (v : Word)
  /-- PCIE_LINK_UP, R604. -/
  | pcieLinkUp
  /-- PCIE_LINK_DOWN, R593. -/
  | pcieLinkDown
  /-- PERST_ASSERT, R587. -/
  | perstAssert
  /-- HALYARD_HELLO, R600. -/
  | halyardHello (m : HalMsg)
  /-- HALYARD_ACK, R599. -/
  | halyardAck (m : HalMsg)
  /-- HALYARD_LIB_CHUNK, R601. -/
  | halyardLibChunk (m : HalMsg)
  /-- HALYARD_LIB_INSTALL, R601. -/
  | halyardLibInstall (m : HalMsg)
  /-- HALYARD_BAD_RX, R597. -/
  | halyardBadRx (bytes : List Byte)
  /-- HALYARD_ERROR_REPORT, R599. -/
  | halyardErrorReport
  /-- HALYARD_TELEMETRY, R598. -/
  | halyardTelemetry (shed : Bool)
  /-- HALYARD_RETRANSMIT, R599. -/
  | halyardRetransmit
  /-- HALYARD_ACK_SEND, R599. -/
  | halyardAckSend
  /-- MBOX_ECHO, R603. -/
  | mboxEcho
  /-- MBOX_SEND, R603. -/
  | mboxSend
  /-- MBOX_TELEM, R603. -/
  | mboxTelem
  /-- MBOX_STATE, R603. -/
  | mboxState
  /-- MBOX_RELEASE, R603. -/
  | mboxRelease (r : Req)
  /-- POWER_ON_RESET, R608. -/
  | powerOnReset (straps : Straps)
  /-- WARM_RESET, R608. -/
  | warmReset (cause : WarmCause) (straps : Straps)
  /-- SEC_WARM_RESET, R624. -/
  | secWarmReset (r : Req) (confirm : BitVec 8)
  /-- BOOT_FUSES_DONE, R540. -/
  | bootFusesDone (ok : Bool)
  /-- HBM_TRAINING_DONE, R474. -/
  | hbmTrainingDone (ok : BitVec 4) (ppr : BitVec 128)
  /-- XSPI_FETCH_DONE, R611. -/
  | xspiFetchDone (bytes : List Byte)
  /-- BOOT_APPLY_DONE, R613. -/
  | bootApplyDone
  /-- SEC_PROVISION, R619. -/
  | secProvision (r : Req) (tag : BitVec 16)
  /-- SEC_REVOKE, R619. -/
  | secRevoke (r : Req) (tag : BitVec 16)
  /-- SEC_FLEET_SEED, R619. -/
  | secFleetSeed (r : Req) (tag : BitVec 16)
  /-- SEC_ATTEST, R621. -/
  | secAttest (r : Req) (tag : BitVec 16)
  /-- SEC_COMMAND_DONE, R622. -/
  | secCommandDone (burnOk : Bool)
  /-- GENERIC_REGISTER_READ, R10. -/
  | genericRegisterRead (r : Req) (off : BitVec 26) (h : Half)
  /-- MGT_HAL_STATE_READ, R606. -/
  | mgtHalStateRead (r : Req) (h : Half)
  /-- CAN_RX_ERROR, R414. -/
  | canRxError (k : Fin 8) (e : CanErr)
  /-- MGT_LINK_UP, R606. -/
  | mgtLinkUp
  /-- MGT_LINK_DOWN, R606. -/
  | mgtLinkDown
  /-- PCIE_CONFIG_WRITE, R587. -/
  | pcieConfigWrite (w : CfgWrite)
  /-- COMPLETION_TIMEOUT, R593. -/
  | completionTimeout
  /-- CHORD_ACK_SEND, R484. -/
  | chordAckSend (p : Fin 4)
  /-- PENNANT_RUN_DONE, R531. -/
  | pennantRunDone (phys : Fin 18) (e : PenEngine) (crc : BitVec 32)
  /-- MBOX_UNKNOWN_OPCODE, R603. -/
  | mboxUnknownOpcode
  deriving DecidableEq, Repr

end Sys2Proof
end

