-- ==== Sys2Proof/Decode.lean ====
section
/-! DEFINITION. Reading a command from a word. The operation table gives no row any bits, so no word spells a command. -/

namespace Sys2Proof

/-- The command that the low nbits of w spell: none, because no row of the operation table gives bits. -/
def decodeTableWord (_nbits _w : Nat) : Option Instr := none

end Sys2Proof
end

