-- ==== Sys2Proof/Config.lean ====
section
/-! DEFINITION. What the spec leaves to a text outside it, or leaves open: constants without a body, so that no proof can lean on a value of them. -/

namespace Sys2Proof

/-- A value the spec does not state. The step applies it to the counter `freeCtr` of the state and advances the counter, so each use is a value of its own (log 1). -/
opaque Config.freeValue : Nat → BitVec 64

/-- The elementary functions of the vector engine on FP32 codes: "Their algorithms are the ones that Nimveter publishes with Grisuale" (R212; log 2). -/
opaque Config.expF32 : BitVec 32 → BitVec 32
opaque Config.logF32 : BitVec 32 → BitVec 32
opaque Config.recipF32 : BitVec 32 → BitVec 32
opaque Config.rsqrtF32 : BitVec 32 → BitVec 32
opaque Config.tanhF32 : BitVec 32 → BitVec 32
opaque Config.sigmoidF32 : BitVec 32 → BitVec 32
opaque Config.geluF32 : BitVec 32 → BitVec 32

/-- The natural logarithm of an FP64 code, correctly rounded (R350). The model has no table of it (log 2). -/
opaque Config.lnF64 : BitVec 64 → BitVec 64
/-- The same of an FP32 code. -/
opaque Config.lnF32 : BitVec 32 → BitVec 32

/-- ML-DSA of FIPS 204, a text outside the spec (R616, R621): verification of a signature over a message under a public key, the signature of a message under the key of a seed, and the public key of a seed (log 2). -/
opaque Config.mldsaVerify : List Byte → List Byte → List Byte → Bool
opaque Config.mldsaSign : List Byte → List Byte → List Byte
opaque Config.mldsaPublic : List Byte → List Byte

/-- The vendor's ML-DSA-87 public key, held in device ROM and not printed in the spec (R72, R616; log 2). -/
opaque Config.vendorKey : List Byte

/-- The vendor's baseline pennant library, held in device ROM and not printed in the spec (R554): the expected CRC of pattern × 3 + engine, and the step count of a pattern (log 2). -/
opaque Config.romPennantCrc : Nat → BitVec 32
opaque Config.romPennantSteps : Nat → BitVec 32

/-- The 64 samples of a block of a JPEG component from its quantised coefficients in natural order and its quantisation table: dequantisation, inverse DCT, level shift and clamping by "the integer algorithm that Nimveter publishes with Grisuale" (R153; log 2). -/
opaque Config.jpegBlock : List Int → List Nat → List (BitVec 8)

/-- The FP32 code of an input channel that a pixel does not have, from the pixel's channels and the number of the channel (R157 states none; log 43). -/
opaque Config.missingChannel : List Nat → Nat → BitVec 32

/-- What the factory's fuses say of the device (R1, R40): its grade less 1 (0 F, 1 E, 2 C), and the stepping code (log 3). -/
opaque Config.fuseGrade : Fin 3
opaque Config.fuseStepping : BitVec 8

end Sys2Proof
end

