-- ==== Sys2Proof/Machine/RegMap.lean ====
section
/-! DEFINITION. The register map of BAR0 (R39): for every register of the spec its offset, its fields, and its access masks and reset value, written from the register tables of the chapters. -/

namespace Sys2Proof.Machine

/-- A bit field of a register: its lowest bit and its width. -/
structure Fld where
  lo : Nat
  w : Nat
  deriving DecidableEq, Repr

/-- A register of BAR0: where it sits, how it repeats, and what the access column of its table says (R10): which bits a write sets, which a write of 1 clears, which a read clears to their reset value, which are write-only, and its reset value. Bits in no mask are RO or reserved. A field whose reset the table gives as "fuse" or "strap" is 0 here and is loaded at boot (R40, R540). -/
structure RegDesc where
  base : Nat
  dims : List (Nat × Nat)
  rw : BitVec 64
  w1c : BitVec 64
  rc : BitVec 64
  wo : BitVec 64
  reset : BitVec 64
  deriving DecidableEq, Repr

/-- R40. -/
def R.GLB_CAPS : Nat := 0x0
def F.GLB_CAPS_STEPPING : Fld := ⟨48, 8⟩
def F.GLB_CAPS_HBM_STACKS : Fld := ⟨40, 4⟩
def F.GLB_CAPS_CAM_PORTS : Fld := ⟨32, 8⟩
def F.GLB_CAPS_CHORD_PORTS : Fld := ⟨28, 4⟩
def F.GLB_CAPS_CORES_ACTIVE : Fld := ⟨16, 8⟩
def F.GLB_CAPS_SOLVER : Fld := ⟨10, 1⟩
def F.GLB_CAPS_CHORD : Fld := ⟨9, 1⟩
def F.GLB_CAPS_SPARES_LEFT : Fld := ⟨4, 4⟩
def F.GLB_CAPS_GRADE : Fld := ⟨0, 4⟩
def D.GLB_CAPS : RegDesc := ⟨0x0, [], 0x0, 0x0, 0x0, 0x0, 0x0⟩

/-- R59. -/
def R.GLB_STEP_RATE : Nat := 0x100
def F.GLB_STEP_RATE_MIN_RATE : Fld := ⟨32, 16⟩
def F.GLB_STEP_RATE_BELOW_FLOOR : Fld := ⟨29, 1⟩
def F.GLB_STEP_RATE_ALARM : Fld := ⟨28, 1⟩
def F.GLB_STEP_RATE_SEQ : Fld := ⟨16, 12⟩
def F.GLB_STEP_RATE_RATE : Fld := ⟨0, 16⟩
def D.GLB_STEP_RATE : RegDesc := ⟨0x100, [], 0x0, 0x30000000, 0xffff00000000, 0x0, 0xffff00000000⟩

/-- R60. -/
def R.GLB_STEP_ALARM : Nat := 0x108
def F.GLB_STEP_ALARM_THRESHOLD : Fld := ⟨0, 16⟩
def D.GLB_STEP_ALARM : RegDesc := ⟨0x108, [], 0xffff, 0x0, 0x0, 0x0, 0x41a⟩

/-- R61. -/
def R.GLB_BUDGET_MODE : Nat := 0x110
def F.GLB_BUDGET_MODE_LOCKED : Fld := ⟨8, 1⟩
def F.GLB_BUDGET_MODE_MODE : Fld := ⟨0, 1⟩
def D.GLB_BUDGET_MODE : RegDesc := ⟨0x110, [], 0x0, 0x0, 0x0, 0x0, 0x0⟩

/-- R94. -/
def R.FAB_CMD : Nat := 0x100000
def F.FAB_CMD_TAG : Fld := ⟨48, 16⟩
def F.FAB_CMD_OP : Fld := ⟨0, 3⟩
def D.FAB_CMD : RegDesc := ⟨0x100000, [], 0x0, 0x0, 0x0, 0xffff000000000007, 0x0⟩

/-- R95. -/
def R.FAB_STAGE_BASE : Nat := 0x100008
def F.FAB_STAGE_BASE_ADDR : Fld := ⟨12, 36⟩
def D.FAB_STAGE_BASE : RegDesc := ⟨0x100008, [], 0xfffffffff000, 0x0, 0x0, 0x0, 0x0⟩

/-- R95. -/
def R.FAB_STAGE_LEN : Nat := 0x100010
def F.FAB_STAGE_LEN_LEN : Fld := ⟨0, 33⟩
def D.FAB_STAGE_LEN : RegDesc := ⟨0x100010, [], 0x1ffffffff, 0x0, 0x0, 0x0, 0x0⟩

/-- R96. -/
def R.FAB_STATUS : Nat := 0x100018
def F.FAB_STATUS_TAG : Fld := ⟨48, 16⟩
def F.FAB_STATUS_LAST_STATUS : Fld := ⟨40, 8⟩
def F.FAB_STATUS_CHECK : Fld := ⟨32, 8⟩
def F.FAB_STATUS_SECTION : Fld := ⟨16, 16⟩
def F.FAB_STATUS_DONE_EVT : Fld := ⟨8, 1⟩
def F.FAB_STATUS_STATE : Fld := ⟨0, 4⟩
def D.FAB_STATUS : RegDesc := ⟨0x100018, [], 0x0, 0x100, 0x0, 0x0, 0x0⟩

/-- R97. -/
def R.FAB_RESTREAM_CTL : Nat := 0x100020
def F.FAB_RESTREAM_CTL_UNIT_DRAIN_US : Fld := ⟨16, 16⟩
def D.FAB_RESTREAM_CTL : RegDesc := ⟨0x100020, [], 0xffff0000, 0x0, 0x0, 0x0, 0x7d00000⟩

/-- R97. -/
def R.FAB_LAST_OUTAGE : Nat := 0x100028
def F.FAB_LAST_OUTAGE_NS : Fld := ⟨0, 40⟩
def D.FAB_LAST_OUTAGE : RegDesc := ⟨0x100028, [], 0x0, 0x0, 0x0, 0x0, 0x0⟩

/-- R98. -/
def R.FAB_CONFIG_DIGEST (i : Nat) : Nat := 0x100040 + i * 0x8
def F.FAB_CONFIG_DIGEST_BYTES : Fld := ⟨0, 64⟩
def D.FAB_CONFIG_DIGEST : RegDesc := ⟨0x100040, [(8, 0x8)], 0x0, 0x0, 0x0, 0x0, 0x0⟩

/-- R98. -/
def R.FAB_STAGED_DIGEST (i : Nat) : Nat := 0x100080 + i * 0x8
def F.FAB_STAGED_DIGEST_BYTES : Fld := ⟨0, 64⟩
def D.FAB_STAGED_DIGEST : RegDesc := ⟨0x100080, [(8, 0x8)], 0x0, 0x0, 0x0, 0x0, 0x0⟩

/-- R99. -/
def R.FAB_CANTON (i : Nat) : Nat := 0x100100 + i * 0x8
def F.FAB_CANTON_ACTIVE : Fld := ⟨63, 1⟩
def F.FAB_CANTON_RESTREAMS : Fld := ⟨48, 8⟩
def F.FAB_CANTON_SHARED_BANKS : Fld := ⟨32, 9⟩
def F.FAB_CANTON_CORE_MASK : Fld := ⟨0, 16⟩
def D.FAB_CANTON : RegDesc := ⟨0x100100, [(8, 0x8)], 0x0, 0x0, 0x0, 0x0, 0x0⟩

/-- R124. -/
def R.TIME_NOW : Nat := 0x200000
def F.TIME_NOW_STAMP : Fld := ⟨0, 64⟩
def D.TIME_NOW : RegDesc := ⟨0x200000, [], 0x0, 0x0, 0x0, 0x0, 0x0⟩

/-- R124. -/
def R.TIME_LATCH : Nat := 0x200008
def F.TIME_LATCH_SEC : Fld := ⟨0, 48⟩
def D.TIME_LATCH : RegDesc := ⟨0x200008, [], 0x0, 0x0, 0x0, 0x0, 0x0⟩

/-- R125. -/
def R.TIME_STEP : Nat := 0x200010
def F.TIME_STEP_DELTA_NS : Fld := ⟨0, 64⟩
def D.TIME_STEP : RegDesc := ⟨0x200010, [], 0x0, 0x0, 0x0, 0xffffffffffffffff, 0x0⟩

/-- R125. -/
def R.TIME_RATE : Nat := 0x200018
def F.TIME_RATE_RATE : Fld := ⟨0, 32⟩
def D.TIME_RATE : RegDesc := ⟨0x200018, [], 0xffffffff, 0x0, 0x0, 0x0, 0x0⟩

/-- R126. -/
def R.TIME_CTL : Nat := 0x200020
def F.TIME_CTL_SWITCH_ALT : Fld := ⟨3, 1⟩
def F.TIME_CTL_END_HOLDOVER : Fld := ⟨2, 1⟩
def F.TIME_CTL_DECLARE_VALID : Fld := ⟨1, 1⟩
def F.TIME_CTL_NEW_SESSION : Fld := ⟨0, 1⟩
def D.TIME_CTL : RegDesc := ⟨0x200020, [], 0x0, 0x0, 0x0, 0xf, 0x0⟩

/-- R127. -/
def R.TIME_STAT : Nat := 0x200028
def F.TIME_STAT_SESSION : Fld := ⟨48, 16⟩
def F.TIME_STAT_HOLD_CAUSE : Fld := ⟨32, 2⟩
def F.TIME_STAT_SWITCH_REFUSED : Fld := ⟨10, 1⟩
def F.TIME_STAT_RATE_IGNORED : Fld := ⟨9, 1⟩
def F.TIME_STAT_RATE_CLAMP : Fld := ⟨8, 1⟩
def F.TIME_STAT_STEP_REFUSED : Fld := ⟨7, 1⟩
def F.TIME_STAT_ALT_TRACKING : Fld := ⟨6, 1⟩
def F.TIME_STAT_REF_LOSS : Fld := ⟨5, 1⟩
def F.TIME_STAT_STEP_USED : Fld := ⟨3, 1⟩
def F.TIME_STAT_HOLDOVER : Fld := ⟨2, 1⟩
def F.TIME_STAT_VALID : Fld := ⟨1, 1⟩
def F.TIME_STAT_PLL_LOCK : Fld := ⟨0, 1⟩
def D.TIME_STAT : RegDesc := ⟨0x200028, [], 0x0, 0x780, 0x0, 0x0, 0x1000000000000⟩

/-- R128. -/
def R.TIME_PTP_CFG : Nat := 0x200030
def F.TIME_PTP_CFG_LOSS_TIMEOUT_MS : Fld := ⟨32, 16⟩
def F.TIME_PTP_CFG_ALT_DOMAIN : Fld := ⟨24, 8⟩
def F.TIME_PTP_CFG_DOMAIN : Fld := ⟨16, 8⟩
def F.TIME_PTP_CFG_ALT_PORT : Fld := ⟨10, 2⟩
def F.TIME_PTP_CFG_PORT : Fld := ⟨8, 2⟩
def F.TIME_PTP_CFG_SOURCE : Fld := ⟨6, 2⟩
def F.TIME_PTP_CFG_PROFILE : Fld := ⟨4, 2⟩
def F.TIME_PTP_CFG_ALT_PRESENT : Fld := ⟨3, 1⟩
def F.TIME_PTP_CFG_SERVO : Fld := ⟨1, 1⟩
def F.TIME_PTP_CFG_PTP_ENABLE : Fld := ⟨0, 1⟩
def D.TIME_PTP_CFG : RegDesc := ⟨0x200030, [], 0x0, 0x0, 0x0, 0x0, 0x0⟩

/-- R129. -/
def R.TIME_ALT_CTL : Nat := 0x200038
def F.TIME_ALT_CTL_ENABLE : Fld := ⟨0, 1⟩
def D.TIME_ALT_CTL : RegDesc := ⟨0x200038, [], 0x1, 0x0, 0x0, 0x0, 0x0⟩

/-- R129. -/
def R.TIME_ALT_RATE : Nat := 0x200040
def F.TIME_ALT_RATE_RATE : Fld := ⟨0, 32⟩
def D.TIME_ALT_RATE : RegDesc := ⟨0x200040, [], 0xffffffff, 0x0, 0x0, 0x0, 0x0⟩

/-- R129. -/
def R.TIME_ALT_OFFSET : Nat := 0x200048
def F.TIME_ALT_OFFSET_OFFSET_NS : Fld := ⟨0, 64⟩
def D.TIME_ALT_OFFSET : RegDesc := ⟨0x200048, [], 0xffffffffffffffff, 0x0, 0x0, 0x0, 0x0⟩

/-- R130. -/
def R.TIME_PPS_CTL : Nat := 0x200050
def F.TIME_PPS_CTL_OFFSET_NS : Fld := ⟨32, 30⟩
def F.TIME_PPS_CTL_WIDTH_MS : Fld := ⟨12, 10⟩
def F.TIME_PPS_CTL_OUT_EN : Fld := ⟨0, 1⟩
def D.TIME_PPS_CTL : RegDesc := ⟨0x200050, [], 0x3fffffff003ff001, 0x0, 0x0, 0x0, 0x64000⟩

/-- R131. -/
def R.TIME_CMP_CFG (i : Nat) : Nat := 0x201000 + i * 0x20
def F.TIME_CMP_CFG_ACTIVE : Fld := ⟨63, 1⟩
def F.TIME_CMP_CFG_CANTON : Fld := ⟨56, 3⟩
def F.TIME_CMP_CFG_MODE : Fld := ⟨48, 2⟩
def F.TIME_CMP_CFG_KIND : Fld := ⟨44, 4⟩
def F.TIME_CMP_CFG_INDEX : Fld := ⟨36, 5⟩
def F.TIME_CMP_CFG_LATE_FIRE : Fld := ⟨32, 1⟩
def F.TIME_CMP_CFG_MISSED : Fld := ⟨16, 16⟩
def F.TIME_CMP_CFG_FIRES : Fld := ⟨0, 16⟩
def D.TIME_CMP_CFG : RegDesc := ⟨0x201000, [(64, 0x20)], 0x0, 0x100000000, 0xffff0000, 0x0, 0x0⟩

/-- R131. -/
def R.TIME_CMP_TIMING (i : Nat) : Nat := 0x201008 + i * 0x20
def F.TIME_CMP_TIMING_PHASE_NS : Fld := ⟨32, 32⟩
def F.TIME_CMP_TIMING_PERIOD_NS : Fld := ⟨0, 32⟩
def D.TIME_CMP_TIMING : RegDesc := ⟨0x201008, [(64, 0x20)], 0x0, 0x0, 0x0, 0x0, 0x0⟩

/-- R131. -/
def R.TIME_CMP_NEXT (i : Nat) : Nat := 0x201010 + i * 0x20
def F.TIME_CMP_NEXT_STAMP : Fld := ⟨0, 64⟩
def D.TIME_CMP_NEXT : RegDesc := ⟨0x201010, [(64, 0x20)], 0x0, 0x0, 0x0, 0x0, 0x0⟩

/-- R131. -/
def R.TIME_CMP_ARM (i : Nat) : Nat := 0x201018 + i * 0x20
def F.TIME_CMP_ARM_STAMP : Fld := ⟨0, 64⟩
def D.TIME_CMP_ARM : RegDesc := ⟨0x201018, [(64, 0x20)], 0x0, 0x0, 0x0, 0xffffffffffffffff, 0x0⟩

/-- R132. -/
def R.TIME_EVT_CTL (i : Nat) : Nat := 0x202000 + i * 0x10
def F.TIME_EVT_CTL_OVERRUN : Fld := ⟨48, 16⟩
def F.TIME_EVT_CTL_COUNT : Fld := ⟨32, 6⟩
def F.TIME_EVT_CTL_HEAD_EDGE : Fld := ⟨16, 1⟩
def F.TIME_EVT_CTL_FILTER : Fld := ⟨8, 8⟩
def F.TIME_EVT_CTL_EDGE : Fld := ⟨0, 2⟩
def D.TIME_EVT_CTL : RegDesc := ⟨0x202000, [(17, 0x10)], 0xff03, 0x0, 0xffff000000000000, 0x0, 0x0⟩

/-- R132. -/
def R.TIME_EVT_STAMP (i : Nat) : Nat := 0x202008 + i * 0x10
def F.TIME_EVT_STAMP_STAMP : Fld := ⟨0, 64⟩
def D.TIME_EVT_STAMP : RegDesc := ⟨0x202008, [(17, 0x10)], 0x0, 0x0, 0xffffffffffffffff, 0x0, 0x0⟩

/-- R166. -/
def R.IMG_GLB_STAT : Nat := 0x300000
def F.IMG_GLB_STAT_ABANDONED : Fld := ⟨48, 16⟩
def F.IMG_GLB_STAT_SAT_SAMPLES : Fld := ⟨32, 16⟩
def F.IMG_GLB_STAT_QUEUED : Fld := ⟨16, 16⟩
def F.IMG_GLB_STAT_DEC_BUSY : Fld := ⟨0, 8⟩
def D.IMG_GLB_STAT : RegDesc := ⟨0x300000, [], 0x0, 0x0, 0xffffffff00000000, 0x0, 0x0⟩

/-- R167. -/
def R.IMG_PORT_CFG (i : Nat) : Nat := 0x301000 + i * 0x40
def F.IMG_PORT_CFG_ACTIVE : Fld := ⟨63, 1⟩
def F.IMG_PORT_CFG_CANTON : Fld := ⟨56, 3⟩
def F.IMG_PORT_CFG_VC_MASK : Fld := ⟨48, 4⟩
def F.IMG_PORT_CFG_DEMOSAIC : Fld := ⟨44, 1⟩
def F.IMG_PORT_CFG_CFA : Fld := ⟨42, 2⟩
def F.IMG_PORT_CFG_GATED : Fld := ⟨41, 1⟩
def F.IMG_PORT_CFG_PHY : Fld := ⟨40, 1⟩
def F.IMG_PORT_CFG_RATE : Fld := ⟨32, 8⟩
def F.IMG_PORT_CFG_LANES : Fld := ⟨0, 3⟩
def D.IMG_PORT_CFG : RegDesc := ⟨0x301000, [(16, 0x40)], 0x0, 0x0, 0x0, 0x0, 0x0⟩

/-- R167. -/
def R.IMG_PORT_CTL (i : Nat) : Nat := 0x301008 + i * 0x40
def F.IMG_PORT_CTL_DISABLE_MODE : Fld := ⟨8, 1⟩
def F.IMG_PORT_CTL_DISABLE : Fld := ⟨0, 1⟩
def D.IMG_PORT_CTL : RegDesc := ⟨0x301008, [(16, 0x40)], 0x101, 0x0, 0x0, 0x0, 0x0⟩

/-- R167. -/
def R.IMG_PORT_ERR (i : Nat) : Nat := 0x301010 + i * 0x40
def F.IMG_PORT_ERR_HDR_CORR : Fld := ⟨52, 12⟩
def F.IMG_PORT_ERR_HDR_UNCORR : Fld := ⟨40, 12⟩
def F.IMG_PORT_ERR_CRC_ERR : Fld := ⟨28, 12⟩
def F.IMG_PORT_ERR_UNKNOWN_DT : Fld := ⟨16, 12⟩
def F.IMG_PORT_ERR_TRIG_SLIP : Fld := ⟨4, 12⟩
def D.IMG_PORT_ERR : RegDesc := ⟨0x301010, [(16, 0x40)], 0x0, 0x0, 0xfffffffffffffff0, 0x0, 0x0⟩

/-- R168. -/
def R.IMG_ETH_CFG (i : Nat) : Nat := 0x302000 + i * 0x10
def F.IMG_ETH_CFG_UDP_PORT : Fld := ⟨32, 16⟩
def D.IMG_ETH_CFG : RegDesc := ⟨0x302000, [(4, 0x10)], 0x0, 0x0, 0x0, 0x0, 0x0⟩

/-- R168. -/
def R.IMG_ETH_STAT (i : Nat) : Nat := 0x302008 + i * 0x10
def F.IMG_ETH_STAT_BAD_HEADER : Fld := ⟨48, 16⟩
def F.IMG_ETH_STAT_STALE : Fld := ⟨32, 16⟩
def F.IMG_ETH_STAT_DUPLICATE : Fld := ⟨16, 16⟩
def F.IMG_ETH_STAT_UNKNOWN_STREAM : Fld := ⟨0, 16⟩
def D.IMG_ETH_STAT : RegDesc := ⟨0x302008, [(4, 0x10)], 0x0, 0x0, 0xffffffffffffffff, 0x0, 0x0⟩

/-- R169. -/
def R.IMG_SRC_CFG (i : Nat) : Nat := 0x304000 + i * 0x40
def F.IMG_SRC_CFG_ACTIVE : Fld := ⟨63, 1⟩
def F.IMG_SRC_CFG_CANTON : Fld := ⟨56, 3⟩
def F.IMG_SRC_CFG_LAYOUT : Fld := ⟨53, 1⟩
def F.IMG_SRC_CFG_FMT : Fld := ⟨48, 5⟩
def F.IMG_SRC_CFG_CHANNELS : Fld := ⟨40, 2⟩
def F.IMG_SRC_CFG_NBUF : Fld := ⟨32, 8⟩
def D.IMG_SRC_CFG : RegDesc := ⟨0x304000, [(128, 0x40)], 0x0, 0x0, 0x0, 0x0, 0x0⟩

/-- R169. -/
def R.IMG_SRC_LIMIT (i : Nat) : Nat := 0x304008 + i * 0x40
def F.IMG_SRC_LIMIT_MAX_WIDTH : Fld := ⟨50, 14⟩
def F.IMG_SRC_LIMIT_MAX_HEIGHT : Fld := ⟨36, 14⟩
def F.IMG_SRC_LIMIT_MAX_PIXELS : Fld := ⟨0, 27⟩
def D.IMG_SRC_LIMIT : RegDesc := ⟨0x304008, [(128, 0x40)], 0x0, 0x0, 0x0, 0x0, 0x0⟩

/-- R169. -/
def R.IMG_SRC_JPEG (i : Nat) : Nat := 0x304010 + i * 0x40
def F.IMG_SRC_JPEG_DECODE_BUDGET : Fld := ⟨32, 32⟩
def F.IMG_SRC_JPEG_REASM_MS : Fld := ⟨16, 10⟩
def F.IMG_SRC_JPEG_MAX_KIB : Fld := ⟨0, 16⟩
def D.IMG_SRC_JPEG : RegDesc := ⟨0x304010, [(128, 0x40)], 0x0, 0x0, 0x0, 0x0, 0x0⟩

/-- R169. -/
def R.IMG_SRC_STAT (i : Nat) : Nat := 0x304018 + i * 0x40
def F.IMG_SRC_STAT_LAST_SEQ : Fld := ⟨32, 32⟩
def F.IMG_SRC_STAT_REC_PROD : Fld := ⟨16, 16⟩
def F.IMG_SRC_STAT_READY_BUFS : Fld := ⟨8, 8⟩
def F.IMG_SRC_STAT_FREE_BUFS : Fld := ⟨0, 8⟩
def D.IMG_SRC_STAT : RegDesc := ⟨0x304018, [(128, 0x40)], 0x0, 0x0, 0x0, 0x0, 0x0⟩

/-- R169. -/
def R.IMG_SRC_DROP (i : Nat) : Nat := 0x304020 + i * 0x40
def F.IMG_SRC_DROP_NOBUF : Fld := ⟨48, 16⟩
def F.IMG_SRC_DROP_LATE : Fld := ⟨32, 16⟩
def F.IMG_SRC_DROP_REJECTED : Fld := ⟨16, 16⟩
def F.IMG_SRC_DROP_OUTAGE : Fld := ⟨0, 16⟩
def D.IMG_SRC_DROP : RegDesc := ⟨0x304020, [(128, 0x40)], 0x0, 0x0, 0xffffffffffffffff, 0x0, 0x0⟩

/-- R169. -/
def R.IMG_SRC_RELEASE (i : Nat) : Nat := 0x304028 + i * 0x40
def F.IMG_SRC_RELEASE_BUFFER : Fld := ⟨0, 6⟩
def D.IMG_SRC_RELEASE : RegDesc := ⟨0x304028, [(128, 0x40)], 0x0, 0x0, 0x0, 0x3f, 0x0⟩

/-- R170. -/
def R.IMG_DEC_STAT (i : Nat) : Nat := 0x306000 + i * 0x8
def F.IMG_DEC_STAT_BUSY : Fld := ⟨63, 1⟩
def F.IMG_DEC_STAT_SOURCE : Fld := ⟨32, 8⟩
def F.IMG_DEC_STAT_STEPS : Fld := ⟨0, 32⟩
def D.IMG_DEC_STAT : RegDesc := ⟨0x306000, [(8, 0x8)], 0x0, 0x0, 0x0, 0x0, 0x0⟩

/-- R171. -/
def R.TOK_CFG : Nat := 0x380000
def F.TOK_CFG_LOADED : Fld := ⟨63, 1⟩
def F.TOK_CFG_ENTRIES : Fld := ⟨32, 18⟩
def F.TOK_CFG_BYTE_BASE : Fld := ⟨0, 32⟩
def D.TOK_CFG : RegDesc := ⟨0x380000, [], 0x0, 0x0, 0x0, 0x0, 0x0⟩

/-- R171. -/
def R.TOK_DICT_BASE : Nat := 0x380008
def F.TOK_DICT_BASE_ADDR : Fld := ⟨12, 36⟩
def D.TOK_DICT_BASE : RegDesc := ⟨0x380008, [], 0x0, 0x0, 0x0, 0x0, 0x0⟩

/-- R171. -/
def R.TOK_STAT : Nat := 0x380010
def F.TOK_STAT_REFETCH : Fld := ⟨48, 16⟩
def F.TOK_STAT_CORRECTED : Fld := ⟨32, 16⟩
def F.TOK_STAT_COMMANDS : Fld := ⟨0, 32⟩
def D.TOK_STAT : RegDesc := ⟨0x380010, [], 0x0, 0x0, 0xffffffff00000000, 0x0, 0x0⟩

/-- R225. -/
def R.CORE_STATUS (i : Nat) : Nat := 0x400000 + i * 0x10000
def F.CORE_STATUS_ACTIVE : Fld := ⟨63, 1⟩
def F.CORE_STATUS_CANTON : Fld := ⟨56, 3⟩
def F.CORE_STATUS_PHYS : Fld := ⟨48, 5⟩
def F.CORE_STATUS_CONTEXT : Fld := ⟨32, 12⟩
def F.CORE_STATUS_STATE : Fld := ⟨16, 3⟩
def F.CORE_STATUS_IMEM_BUNDLES : Fld := ⟨0, 16⟩
def D.CORE_STATUS : RegDesc := ⟨0x400000, [(16, 0x10000)], 0x0, 0x0, 0x0, 0x0, 0x0⟩

/-- R226. -/
def R.CORE_STEPS (i : Nat) : Nat := 0x400008 + i * 0x10000
def F.CORE_STEPS_STEPS : Fld := ⟨0, 64⟩
def D.CORE_STEPS : RegDesc := ⟨0x400008, [(16, 0x10000)], 0x0, 0x0, 0x0, 0x0, 0x0⟩

/-- R226. -/
def R.CORE_ERR (i : Nat) : Nat := 0x400010 + i * 0x10000
def F.CORE_ERR_INJECTED : Fld := ⟨9, 1⟩
def F.CORE_ERR_STEP_BOUND : Fld := ⟨8, 1⟩
def F.CORE_ERR_COLLISION_LOST : Fld := ⟨7, 1⟩
def F.CORE_ERR_ADDR_UNMAPPED : Fld := ⟨6, 1⟩
def F.CORE_ERR_ACCESS_DENIED : Fld := ⟨5, 1⟩
def F.CORE_ERR_FMT_ILLEGAL : Fld := ⟨4, 1⟩
def F.CORE_ERR_IMEM_ECC : Fld := ⟨3, 1⟩
def F.CORE_ERR_SPD_ECC_UNCORR : Fld := ⟨2, 1⟩
def F.CORE_ERR_ACC_DUP : Fld := ⟨1, 1⟩
def F.CORE_ERR_RESIDUE : Fld := ⟨0, 1⟩
def D.CORE_ERR : RegDesc := ⟨0x400010, [(16, 0x10000)], 0x0, 0x3ff, 0x0, 0x0, 0x0⟩

/-- R226. -/
def R.CORE_ERR_ADDR (i : Nat) : Nat := 0x400020 + i * 0x10000
def F.CORE_ERR_ADDR_ADDR : Fld := ⟨0, 48⟩
def D.CORE_ERR_ADDR : RegDesc := ⟨0x400020, [(16, 0x10000)], 0x0, 0x0, 0x0, 0x0, 0x0⟩

/-- R227. -/
def R.CORE_ERR_INFO (i : Nat) : Nat := 0x400018 + i * 0x10000
def F.CORE_ERR_INFO_VALID : Fld := ⟨63, 1⟩
def F.CORE_ERR_INFO_BUNDLE : Fld := ⟨48, 15⟩
def F.CORE_ERR_INFO_CONTEXT : Fld := ⟨36, 12⟩
def F.CORE_ERR_INFO_SOURCE : Fld := ⟨32, 4⟩
def F.CORE_ERR_INFO_CAUSE : Fld := ⟨16, 8⟩
def F.CORE_ERR_INFO_COLUMN : Fld := ⟨0, 7⟩
def D.CORE_ERR_INFO : RegDesc := ⟨0x400018, [(16, 0x10000)], 0x0, 0x0, 0x0, 0x0, 0x0⟩

/-- R228. -/
def R.CORE_CNT (i : Nat) : Nat := 0x400028 + i * 0x10000
def F.CORE_CNT_RESIDUE_CNT : Fld := ⟨48, 16⟩
def F.CORE_CNT_ECC_CORR : Fld := ⟨32, 16⟩
def F.CORE_CNT_COLLISIONS : Fld := ⟨16, 16⟩
def F.CORE_CNT_IMEM_REFETCH : Fld := ⟨0, 16⟩
def D.CORE_CNT : RegDesc := ⟨0x400028, [(16, 0x10000)], 0x0, 0x0, 0xffffffffffffffff, 0x0, 0x0⟩

/-- R228. -/
def R.CORE_PERF_MAT (i : Nat) : Nat := 0x400030 + i * 0x10000
def F.CORE_PERF_MAT_A_BUSY : Fld := ⟨32, 32⟩
def F.CORE_PERF_MAT_B_BUSY : Fld := ⟨0, 32⟩
def D.CORE_PERF_MAT : RegDesc := ⟨0x400030, [(16, 0x10000)], 0x0, 0x0, 0xffffffffffffffff, 0x0, 0x0⟩

/-- R228. -/
def R.CORE_PERF_VX (i : Nat) : Nat := 0x400038 + i * 0x10000
def F.CORE_PERF_VX_VEC_BUSY : Fld := ⟨32, 32⟩
def F.CORE_PERF_VX_XFER_BEATS : Fld := ⟨0, 32⟩
def D.CORE_PERF_VX : RegDesc := ⟨0x400038, [(16, 0x10000)], 0x0, 0x0, 0xffffffffffffffff, 0x0, 0x0⟩

/-- R229. -/
def R.CORE_INJECT (i : Nat) : Nat := 0x400040 + i * 0x10000
def F.CORE_INJECT_ARM : Fld := ⟨8, 1⟩
def F.CORE_INJECT_ENGINE : Fld := ⟨7, 1⟩
def F.CORE_INJECT_COLUMN : Fld := ⟨0, 7⟩
def D.CORE_INJECT : RegDesc := ⟨0x400040, [(16, 0x10000)], 0x0, 0x0, 0x0, 0x1ff, 0x0⟩

/-- R271. -/
def R.SPD_STAT : Nat := 0x600000
def F.SPD_STAT_LAST_UNCORR_BANK : Fld := ⟨48, 11⟩
def F.SPD_STAT_PWR_REJECT : Fld := ⟨3, 1⟩
def F.SPD_STAT_OWNER_BUSY : Fld := ⟨2, 1⟩
def F.SPD_STAT_OWNER_REJECT : Fld := ⟨1, 1⟩
def F.SPD_STAT_UNCORR : Fld := ⟨0, 1⟩
def D.SPD_STAT : RegDesc := ⟨0x600000, [], 0x0, 0xf, 0x0, 0x0, 0x0⟩

/-- R272. -/
def R.SPD_SCRUB : Nat := 0x600008
def F.SPD_SCRUB_PASSES : Fld := ⟨32, 32⟩
def D.SPD_SCRUB : RegDesc := ⟨0x600008, [], 0x0, 0x0, 0x0, 0x0, 0x0⟩

/-- R272. -/
def R.SPD_REPAIR : Nat := 0x600010
def F.SPD_REPAIR_ACTIVE : Fld := ⟨63, 1⟩
def F.SPD_REPAIR_BANK : Fld := ⟨48, 11⟩
def F.SPD_REPAIR_LINES : Fld := ⟨0, 12⟩
def D.SPD_REPAIR : RegDesc := ⟨0x600010, [], 0x0, 0x0, 0x0, 0x0, 0x0⟩

/-- R273. -/
def R.SPD_BANK_OWNER (i : Nat) : Nat := 0x610000 + i * 0x20
def F.SPD_BANK_OWNER_PENDING : Fld := ⟨63, 1⟩
def F.SPD_BANK_OWNER_PREV_OWNER : Fld := ⟨48, 8⟩
def F.SPD_BANK_OWNER_SHARED_WRITE : Fld := ⟨32, 1⟩
def F.SPD_BANK_OWNER_OWNER : Fld := ⟨0, 8⟩
def D.SPD_BANK_OWNER : RegDesc := ⟨0x610000, [(1280, 0x20)], 0x1000000ff, 0x0, 0x0, 0x0, 0xff0000000000ff⟩

/-- R274. -/
def R.SPD_BANK_CFG (i : Nat) : Nat := 0x610008 + i * 0x20
def F.SPD_BANK_CFG_ASSIGNED : Fld := ⟨63, 1⟩
def F.SPD_BANK_CFG_CANTON : Fld := ⟨56, 3⟩
def F.SPD_BANK_CFG_VIEW : Fld := ⟨48, 2⟩
def F.SPD_BANK_CFG_LOG2_BANKS : Fld := ⟨40, 4⟩
def F.SPD_BANK_CFG_REGION_FIRST : Fld := ⟨16, 11⟩
def D.SPD_BANK_CFG : RegDesc := ⟨0x610008, [(1280, 0x20)], 0x0, 0x0, 0x0, 0x0, 0x0⟩

/-- R275. -/
def R.SPD_BANK_PWR (i : Nat) : Nat := 0x610010 + i * 0x20
def F.SPD_BANK_PWR_TRANSITION : Fld := ⟨63, 1⟩
def F.SPD_BANK_PWR_STATE : Fld := ⟨48, 2⟩
def F.SPD_BANK_PWR_TARGET : Fld := ⟨0, 2⟩
def D.SPD_BANK_PWR : RegDesc := ⟨0x610010, [(1280, 0x20)], 0x3, 0x0, 0x0, 0x0, 0x0⟩

/-- R276. -/
def R.SPD_BANK_STAT (i : Nat) : Nat := 0x610018 + i * 0x20
def F.SPD_BANK_STAT_COLLISIONS : Fld := ⟨48, 16⟩
def F.SPD_BANK_STAT_ECC_CORR : Fld := ⟨32, 16⟩
def F.SPD_BANK_STAT_ECC_UNCORR : Fld := ⟨24, 8⟩
def F.SPD_BANK_STAT_SPARE_COLS : Fld := ⟨16, 3⟩
def D.SPD_BANK_STAT : RegDesc := ⟨0x610018, [(1280, 0x20)], 0x0, 0x0, 0xffffffffff000000, 0x0, 0x0⟩

/-- R304. -/
def R.EDGE_STAT (i : Nat) : Nat := 0x308000 + i * 0x10
def F.EDGE_STAT_BUSY : Fld := ⟨63, 1⟩
def F.EDGE_STAT_CANTON : Fld := ⟨56, 3⟩
def F.EDGE_STAT_LAST_ROWS : Fld := ⟨32, 16⟩
def F.EDGE_STAT_LAST_STATUS : Fld := ⟨8, 8⟩
def F.EDGE_STAT_RESIDUE : Fld := ⟨1, 1⟩
def F.EDGE_STAT_ECC_UNCORR : Fld := ⟨0, 1⟩
def D.EDGE_STAT : RegDesc := ⟨0x308000, [(2, 0x10)], 0x0, 0x3, 0x0, 0x0, 0x0⟩

/-- R305. -/
def R.EDGE_CNT (i : Nat) : Nat := 0x308008 + i * 0x10
def F.EDGE_CNT_STEPS : Fld := ⟨32, 32⟩
def F.EDGE_CNT_COMMANDS : Fld := ⟨16, 16⟩
def F.EDGE_CNT_RESIDUE_CNT : Fld := ⟨0, 16⟩
def D.EDGE_CNT : RegDesc := ⟨0x308008, [(2, 0x10)], 0x0, 0x0, 0xffff, 0x0, 0x0⟩

/-- R337. -/
def R.KV_STAT : Nat := 0x700000
def F.KV_STAT_BUSY : Fld := ⟨63, 1⟩
def F.KV_STAT_CONTEXT : Fld := ⟨48, 12⟩
def F.KV_STAT_LAST_STATUS : Fld := ⟨40, 8⟩
def F.KV_STAT_LAST_OP : Fld := ⟨32, 8⟩
def F.KV_STAT_DESC_UNCORR : Fld := ⟨2, 1⟩
def F.KV_STAT_CACHE_REFETCH : Fld := ⟨1, 1⟩
def F.KV_STAT_KV_FULL : Fld := ⟨0, 1⟩
def D.KV_STAT : RegDesc := ⟨0x700000, [], 0x0, 0x7, 0x0, 0x0, 0x0⟩

/-- R338. -/
def R.KV_CNT : Nat := 0x700008
def F.KV_CNT_EVICTIONS : Fld := ⟨48, 16⟩
def F.KV_CNT_COW_COPIES : Fld := ⟨32, 16⟩
def F.KV_CNT_CACHE_REFETCH : Fld := ⟨16, 16⟩
def F.KV_CNT_WITHDRAWN : Fld := ⟨0, 16⟩
def D.KV_CNT : RegDesc := ⟨0x700008, [], 0x0, 0x0, 0xffffffffffff0000, 0x0, 0x0⟩

/-- R338. -/
def R.KV_ERR : Nat := 0x700010
def F.KV_ERR_VALID : Fld := ⟨63, 1⟩
def F.KV_ERR_INDEX : Fld := ⟨0, 20⟩
def D.KV_ERR : RegDesc := ⟨0x700010, [], 0x0, 0x0, 0x0, 0x0, 0x0⟩

/-- R339. -/
def R.KV_POOL_CFG (i : Nat) : Nat := 0x700100 + i * 0x20
def F.KV_POOL_CFG_ACTIVE : Fld := ⟨63, 1⟩
def F.KV_POOL_CFG_BASE : Fld := ⟨21, 27⟩
def D.KV_POOL_CFG : RegDesc := ⟨0x700100, [(8, 0x20)], 0x0, 0x0, 0x0, 0x0, 0x0⟩

/-- R339. -/
def R.KV_POOL_USE (i : Nat) : Nat := 0x700108 + i * 0x20
def F.KV_POOL_USE_FREE_4K : Fld := ⟨32, 32⟩
def F.KV_POOL_USE_LEN_4K : Fld := ⟨0, 32⟩
def D.KV_POOL_USE : RegDesc := ⟨0x700108, [(8, 0x20)], 0x0, 0x0, 0x0, 0x0, 0x0⟩

/-- R339. -/
def R.KV_IDX_CFG (i : Nat) : Nat := 0x700110 + i * 0x20
def F.KV_IDX_CFG_COUNT : Fld := ⟨32, 32⟩
def F.KV_IDX_CFG_BASE : Fld := ⟨0, 32⟩
def D.KV_IDX_CFG : RegDesc := ⟨0x700110, [(8, 0x20)], 0x0, 0x0, 0x0, 0x0, 0x0⟩

/-- R339. -/
def R.KV_IDX_USE (i : Nat) : Nat := 0x700118 + i * 0x20
def F.KV_IDX_USE_IN_USE : Fld := ⟨0, 21⟩
def D.KV_IDX_USE : RegDesc := ⟨0x700118, [(8, 0x20)], 0x0, 0x0, 0x0, 0x0, 0x0⟩

/-- R340. -/
def R.KV_CTX_STAT (i : Nat) : Nat := 0x708000 + i * 0x20
def F.KV_CTX_STAT_OPEN : Fld := ⟨63, 1⟩
def F.KV_CTX_STAT_SPEC : Fld := ⟨62, 1⟩
def F.KV_CTX_STAT_CANTON : Fld := ⟨58, 3⟩
def F.KV_CTX_STAT_CLASS : Fld := ⟨55, 3⟩
def F.KV_CTX_STAT_SPEC_N : Fld := ⟨47, 5⟩
def F.KV_CTX_STAT_LAYERS : Fld := ⟨35, 9⟩
def F.KV_CTX_STAT_LIST_LEN : Fld := ⟨16, 16⟩
def D.KV_CTX_STAT : RegDesc := ⟨0x708000, [(4096, 0x20)], 0x0, 0x0, 0x0, 0x0, 0x0⟩

/-- R340. -/
def R.KV_CTX_MAP (i : Nat) : Nat := 0x708008 + i * 0x20
def F.KV_CTX_MAP_ADDR : Fld := ⟨12, 36⟩
def D.KV_CTX_MAP : RegDesc := ⟨0x708008, [(4096, 0x20)], 0x0, 0x0, 0x0, 0x0, 0x0⟩

/-- R340. -/
def R.KV_CTX_CHARGE (i : Nat) : Nat := 0x708010 + i * 0x20
def F.KV_CTX_CHARGE_BUDGET_4K : Fld := ⟨32, 32⟩
def F.KV_CTX_CHARGE_CHARGE_4K : Fld := ⟨0, 32⟩
def D.KV_CTX_CHARGE : RegDesc := ⟨0x708010, [(4096, 0x20)], 0x0, 0x0, 0x0, 0x0, 0x0⟩

/-- R340. -/
def R.KV_CTX_PARAM (i : Nat) : Nat := 0x708018 + i * 0x20
def F.KV_CTX_PARAM_DECAY : Fld := ⟨32, 32⟩
def F.KV_CTX_PARAM_EVICTED : Fld := ⟨0, 32⟩
def D.KV_CTX_PARAM : RegDesc := ⟨0x708018, [(4096, 0x20)], 0x0, 0x0, 0x0, 0x0, 0x0⟩

/-- R365. -/
def R.SOL_STAT : Nat := 0x780000
def F.SOL_STAT_BUSY : Fld := ⟨63, 1⟩
def F.SOL_STAT_EVAL_WAIT : Fld := ⟨62, 1⟩
def F.SOL_STAT_CANTON : Fld := ⟨58, 3⟩
def F.SOL_STAT_CONTEXT : Fld := ⟨44, 12⟩
def F.SOL_STAT_LAST_STATUS : Fld := ⟨32, 8⟩
def F.SOL_STAT_LAST_OP : Fld := ⟨24, 8⟩
def F.SOL_STAT_ACTIVE : Fld := ⟨10, 14⟩
def F.SOL_STAT_OVERFLOW : Fld := ⟨1, 1⟩
def F.SOL_STAT_ECC_UNCORR : Fld := ⟨0, 1⟩
def D.SOL_STAT : RegDesc := ⟨0x780000, [], 0x0, 0x3, 0x0, 0x0, 0x0⟩

/-- R366. -/
def R.SOL_PROGRESS : Nat := 0x780008
def F.SOL_PROGRESS_EVALS : Fld := ⟨48, 16⟩
def F.SOL_PROGRESS_STEPS : Fld := ⟨0, 48⟩
def D.SOL_PROGRESS : RegDesc := ⟨0x780008, [], 0x0, 0x0, 0x0, 0x0, 0x0⟩

/-- R366. -/
def R.SOL_CNT : Nat := 0x780010
def F.SOL_CNT_PIVOT_CLAMPS : Fld := ⟨48, 16⟩
def F.SOL_CNT_WARM_MISMATCHES : Fld := ⟨32, 16⟩
def F.SOL_CNT_LATE_PROBLEMS : Fld := ⟨16, 16⟩
def F.SOL_CNT_OVERFLOWS : Fld := ⟨0, 16⟩
def D.SOL_CNT : RegDesc := ⟨0x780010, [], 0x0, 0x0, 0xffffffffffffffff, 0x0, 0x0⟩

/-- R366. -/
def R.SOL_STEPS : Nat := 0x780018
def F.SOL_STEPS_STEPS : Fld := ⟨0, 64⟩
def D.SOL_STEPS : RegDesc := ⟨0x780018, [], 0x0, 0x0, 0x0, 0x0, 0x0⟩

/-- R390. -/
def R.CTL_STAT : Nat := 0x800000
def F.CTL_STAT_CMD_BUSY : Fld := ⟨63, 1⟩
def F.CTL_STAT_LAST_STATUS : Fld := ⟨40, 8⟩
def F.CTL_STAT_LAST_OP : Fld := ⟨32, 8⟩
def F.CTL_STAT_MEM_CORR : Fld := ⟨16, 16⟩
def F.CTL_STAT_CFG_REJECT : Fld := ⟨2, 1⟩
def F.CTL_STAT_MEM_UNCORR : Fld := ⟨1, 1⟩
def F.CTL_STAT_OVERRUN : Fld := ⟨0, 1⟩
def D.CTL_STAT : RegDesc := ⟨0x800000, [], 0x0, 0x7, 0xffff0000, 0x0, 0x0⟩

/-- R391. -/
def R.CTL_GROUP_CFG (i : Nat) : Nat := 0x800100 + i * 0x20
def F.CTL_GROUP_CFG_ACTIVE : Fld := ⟨63, 1⟩
def F.CTL_GROUP_CFG_CANTON : Fld := ⟨56, 3⟩
def F.CTL_GROUP_CFG_COMPARE : Fld := ⟨48, 6⟩
def F.CTL_GROUP_CFG_SLOTS : Fld := ⟨32, 10⟩
def F.CTL_GROUP_CFG_PHI_OUT_4NS : Fld := ⟨0, 24⟩
def D.CTL_GROUP_CFG : RegDesc := ⟨0x800100, [(8, 0x20)], 0x0, 0x0, 0x0, 0x0, 0x0⟩

/-- R391. -/
def R.CTL_GROUP_CTL (i : Nat) : Nat := 0x800108 + i * 0x20
def F.CTL_GROUP_CTL_DISABLE_MODE : Fld := ⟨8, 1⟩
def F.CTL_GROUP_CTL_DISABLE : Fld := ⟨0, 1⟩
def D.CTL_GROUP_CTL : RegDesc := ⟨0x800108, [(8, 0x20)], 0x101, 0x0, 0x0, 0x0, 0x0⟩

/-- R391. -/
def R.CTL_GROUP_STAT (i : Nat) : Nat := 0x800110 + i * 0x20
def F.CTL_GROUP_STAT_SAMPLES : Fld := ⟨32, 32⟩
def F.CTL_GROUP_STAT_OVERRUNS : Fld := ⟨16, 16⟩
def F.CTL_GROUP_STAT_MISSED_STARTS : Fld := ⟨0, 16⟩
def D.CTL_GROUP_STAT : RegDesc := ⟨0x800110, [(8, 0x20)], 0x0, 0x0, 0xffffffff, 0x0, 0x0⟩

/-- R391. -/
def R.CTL_GROUP_LAST (i : Nat) : Nat := 0x800118 + i * 0x20
def F.CTL_GROUP_LAST_STAMP : Fld := ⟨0, 64⟩
def D.CTL_GROUP_LAST : RegDesc := ⟨0x800118, [(8, 0x20)], 0x0, 0x0, 0x0, 0x0, 0x0⟩

/-- R392. -/
def R.CTL_SLOT_CFG (i : Nat) : Nat := 0x810000 + i * 0x20
def F.CTL_SLOT_CFG_ACTIVE : Fld := ⟨63, 1⟩
def F.CTL_SLOT_CFG_CANTON : Fld := ⟨56, 3⟩
def F.CTL_SLOT_CFG_GROUP : Fld := ⟨48, 3⟩
def F.CTL_SLOT_CFG_Q : Fld := ⟨40, 5⟩
def F.CTL_SLOT_CFG_TRACK : Fld := ⟨39, 1⟩
def F.CTL_SLOT_CFG_OUT_BOUND : Fld := ⟨38, 1⟩
def F.CTL_SLOT_CFG_OUT_INDEX : Fld := ⟨32, 6⟩
def F.CTL_SLOT_CFG_OUT_SHIFT : Fld := ⟨28, 4⟩
def F.CTL_SLOT_CFG_SRC_A : Fld := ⟨19, 3⟩
def F.CTL_SLOT_CFG_SRC_B : Fld := ⟨16, 3⟩
def D.CTL_SLOT_CFG : RegDesc := ⟨0x810000, [(512, 0x20)], 0x0, 0x0, 0x0, 0x0, 0x0⟩

/-- R392. -/
def R.CTL_SLOT_FLAGS (i : Nat) : Nat := 0x810008 + i * 0x20
def F.CTL_SLOT_FLAGS_CURRENT : Fld := ⟨32, 9⟩
def F.CTL_SLOT_FLAGS_STICKY : Fld := ⟨0, 9⟩
def D.CTL_SLOT_FLAGS : RegDesc := ⟨0x810008, [(512, 0x20)], 0x0, 0x1ff, 0x0, 0x0, 0x0⟩

/-- R392. -/
def R.CTL_SLOT_IN (i : Nat) : Nat := 0x810010 + i * 0x20
def F.CTL_SLOT_IN_IN_A : Fld := ⟨32, 32⟩
def F.CTL_SLOT_IN_IN_B : Fld := ⟨0, 32⟩
def D.CTL_SLOT_IN : RegDesc := ⟨0x810010, [(512, 0x20)], 0xffffffffffffffff, 0x0, 0x0, 0x0, 0x0⟩

/-- R392. -/
def R.CTL_SLOT_OUT (i : Nat) : Nat := 0x810018 + i * 0x20
def F.CTL_SLOT_OUT_Y : Fld := ⟨32, 32⟩
def F.CTL_SLOT_OUT_CODE : Fld := ⟨0, 16⟩
def D.CTL_SLOT_OUT : RegDesc := ⟨0x810018, [(512, 0x20)], 0x0, 0x0, 0x0, 0x0, 0x0⟩

/-- R393. -/
def R.CTL_SEL_STAT (i : Nat) : Nat := 0x820000 + i * 0x8
def F.CTL_SEL_STAT_ACTIVE : Fld := ⟨63, 1⟩
def F.CTL_SEL_STAT_GROUP : Fld := ⟨56, 3⟩
def F.CTL_SEL_STAT_WINNER : Fld := ⟨32, 9⟩
def F.CTL_SEL_STAT_CHANGES : Fld := ⟨0, 32⟩
def D.CTL_SEL_STAT : RegDesc := ⟨0x820000, [(64, 0x8)], 0x0, 0x0, 0x0, 0x0, 0x0⟩

/-- R394. -/
def R.CTL_TRACE_CFG (i : Nat) : Nat := 0x830000 + i * 0x20
def F.CTL_TRACE_CFG_GROUP : Fld := ⟨48, 3⟩
def F.CTL_TRACE_CFG_DECIM : Fld := ⟨40, 8⟩
def F.CTL_TRACE_CFG_PRE : Fld := ⟨32, 3⟩
def F.CTL_TRACE_CFG_FORCE : Fld := ⟨2, 1⟩
def F.CTL_TRACE_CFG_ARM : Fld := ⟨0, 1⟩
def D.CTL_TRACE_CFG : RegDesc := ⟨0x830000, [(4, 0x20)], 0x7ff0700000000, 0x0, 0x0, 0x5, 0x10000000000⟩

/-- R394. -/
def R.CTL_TRACE_TRIG (i : Nat) : Nat := 0x830008 + i * 0x20
def F.CTL_TRACE_TRIG_TRIG_MODE : Fld := ⟨61, 3⟩
def F.CTL_TRACE_TRIG_TRIG_SLOT : Fld := ⟨48, 9⟩
def F.CTL_TRACE_TRIG_TRIG_CHANNEL : Fld := ⟨40, 5⟩
def F.CTL_TRACE_TRIG_FLAG_MASK : Fld := ⟨16, 9⟩
def F.CTL_TRACE_TRIG_THRESHOLD : Fld := ⟨0, 16⟩
def D.CTL_TRACE_TRIG : RegDesc := ⟨0x830008, [(4, 0x20)], 0xe1ff1f0001ffffff, 0x0, 0x0, 0x0, 0x0⟩

/-- R394. -/
def R.CTL_TRACE_STAT (i : Nat) : Nat := 0x830010 + i * 0x20
def F.CTL_TRACE_STAT_STATE : Fld := ⟨62, 2⟩
def F.CTL_TRACE_STAT_RECORDED : Fld := ⟨0, 14⟩
def D.CTL_TRACE_STAT : RegDesc := ⟨0x830010, [(4, 0x20)], 0x0, 0x0, 0x0, 0x0, 0x0⟩

/-- R394. -/
def R.CTL_TRACE_STAMP (i : Nat) : Nat := 0x830018 + i * 0x20
def F.CTL_TRACE_STAMP_TRIG_STAMP : Fld := ⟨0, 64⟩
def D.CTL_TRACE_STAMP : RegDesc := ⟨0x830018, [(4, 0x20)], 0x0, 0x0, 0x0, 0x0, 0x0⟩

/-- R394. -/
def R.CTL_PROBE (i : Nat) : Nat := 0x831000 + i * 0x8
def F.CTL_PROBE_ENABLE : Fld := ⟨63, 1⟩
def F.CTL_PROBE_SET : Fld := ⟨56, 2⟩
def F.CTL_PROBE_SLOT : Fld := ⟨32, 9⟩
def F.CTL_PROBE_NODE : Fld := ⟨8, 3⟩
def F.CTL_PROBE_SHIFT : Fld := ⟨0, 5⟩
def D.CTL_PROBE : RegDesc := ⟨0x831000, [(32, 0x8)], 0x830001ff0000071f, 0x0, 0x0, 0x0, 0x0⟩

/-- R424. -/
def R.SIO_SP_CFG (i : Nat) : Nat := 0x881000 + i * 0x40
def F.SIO_SP_CFG_ACTIVE : Fld := ⟨63, 1⟩
def F.SIO_SP_CFG_CANTON : Fld := ⟨56, 3⟩
def F.SIO_SP_CFG_BOUND : Fld := ⟨51, 1⟩
def F.SIO_SP_CFG_GROUP : Fld := ⟨48, 3⟩
def F.SIO_SP_CFG_MODE : Fld := ⟨46, 2⟩
def F.SIO_SP_CFG_SPI_MODE : Fld := ⟨44, 2⟩
def F.SIO_SP_CFG_GRAY : Fld := ⟨43, 1⟩
def F.SIO_SP_CFG_CHECK : Fld := ⟨42, 1⟩
def F.SIO_SP_CFG_BITS : Fld := ⟨36, 6⟩
def F.SIO_SP_CFG_DIV : Fld := ⟨24, 12⟩
def F.SIO_SP_CFG_ACK_MAX : Fld := ⟨16, 8⟩
def F.SIO_SP_CFG_LINE_DELAY : Fld := ⟨8, 8⟩
def F.SIO_SP_CFG_CONV_DELAY : Fld := ⟨0, 8⟩
def D.SIO_SP_CFG : RegDesc := ⟨0x881000, [(24, 0x40)], 0x0, 0x0, 0x0, 0x0, 0x0⟩

/-- R424. -/
def R.SIO_SP_WORDA (i : Nat) : Nat := 0x881008 + i * 0x40
def F.SIO_SP_WORDA_WORD_SPEC : Fld := ⟨0, 64⟩
def D.SIO_SP_WORDA : RegDesc := ⟨0x881008, [(24, 0x40)], 0x0, 0x0, 0x0, 0x0, 0x0⟩

/-- R424. -/
def R.SIO_SP_WORDB (i : Nat) : Nat := 0x881010 + i * 0x40
def F.SIO_SP_WORDB_WORD_SPEC : Fld := ⟨0, 64⟩
def D.SIO_SP_WORDB : RegDesc := ⟨0x881010, [(24, 0x40)], 0x0, 0x0, 0x0, 0x0, 0x0⟩

/-- R424. -/
def R.SIO_SP_STAT (i : Nat) : Nat := 0x881018 + i * 0x40
def F.SIO_SP_STAT_FAULTS : Fld := ⟨48, 16⟩
def F.SIO_SP_STAT_DELAY_MEAS : Fld := ⟨40, 8⟩
def F.SIO_SP_STAT_WARN : Fld := ⟨8, 1⟩
def F.SIO_SP_STAT_LAST_FAULT : Fld := ⟨0, 3⟩
def D.SIO_SP_STAT : RegDesc := ⟨0x881018, [(24, 0x40)], 0x0, 0x100, 0xffff000000000000, 0x0, 0x0⟩

/-- R424. -/
def R.SIO_SP_RAW (i : Nat) : Nat := 0x881020 + i * 0x40
def F.SIO_SP_RAW_RAW : Fld := ⟨0, 64⟩
def D.SIO_SP_RAW : RegDesc := ⟨0x881020, [(24, 0x40)], 0x0, 0x0, 0x0, 0x0, 0x0⟩

/-- R424. -/
def R.SIO_SP_STAMP (i : Nat) : Nat := 0x881028 + i * 0x40
def F.SIO_SP_STAMP_STAMP : Fld := ⟨0, 64⟩
def D.SIO_SP_STAMP : RegDesc := ⟨0x881028, [(24, 0x40)], 0x0, 0x0, 0x0, 0x0, 0x0⟩

/-- R424. -/
def R.SIO_SP_VAL0 (i : Nat) : Nat := 0x881030 + i * 0x40
def F.SIO_SP_VAL0_WORD : Fld := ⟨0, 64⟩
def D.SIO_SP_VAL0 : RegDesc := ⟨0x881030, [(24, 0x40)], 0x0, 0x0, 0x0, 0x0, 0x0⟩

/-- R424. -/
def R.SIO_SP_VAL1 (i : Nat) : Nat := 0x881038 + i * 0x40
def F.SIO_SP_VAL1_WORD : Fld := ⟨0, 64⟩
def D.SIO_SP_VAL1 : RegDesc := ⟨0x881038, [(24, 0x40)], 0x0, 0x0, 0x0, 0x0, 0x0⟩

/-- R425. -/
def R.SIO_CONV_CFG (i : Nat) : Nat := 0x882000 + i * 0x8
def F.SIO_CONV_CFG_ACTIVE : Fld := ⟨63, 1⟩
def F.SIO_CONV_CFG_CANTON : Fld := ⟨56, 3⟩
def F.SIO_CONV_CFG_WIDTH : Fld := ⟨8, 8⟩
def F.SIO_CONV_CFG_POL : Fld := ⟨0, 1⟩
def D.SIO_CONV_CFG : RegDesc := ⟨0x882000, [(16, 0x8)], 0x0, 0x0, 0x0, 0x0, 0x0⟩

/-- R425. -/
def R.SIO_ACT_CFG (i : Nat) : Nat := 0x883000 + i * 0x20
def F.SIO_ACT_CFG_ACTIVE : Fld := ⟨63, 1⟩
def F.SIO_ACT_CFG_CANTON : Fld := ⟨56, 3⟩
def F.SIO_ACT_CFG_MODE : Fld := ⟨48, 3⟩
def F.SIO_ACT_CFG_POL : Fld := ⟨40, 1⟩
def F.SIO_ACT_CFG_FULL_SCALE : Fld := ⟨16, 15⟩
def F.SIO_ACT_CFG_RATE : Fld := ⟨0, 16⟩
def D.SIO_ACT_CFG : RegDesc := ⟨0x883000, [(48, 0x20)], 0x0, 0x0, 0x0, 0x0, 0x0⟩

/-- R425. -/
def R.SIO_ACT_TIMING (i : Nat) : Nat := 0x883008 + i * 0x20
def F.SIO_ACT_TIMING_PERIOD : Fld := ⟨40, 24⟩
def F.SIO_ACT_TIMING_PHASE : Fld := ⟨16, 24⟩
def F.SIO_ACT_TIMING_DEAD : Fld := ⟨8, 8⟩
def F.SIO_ACT_TIMING_MIN_ON : Fld := ⟨0, 8⟩
def D.SIO_ACT_TIMING : RegDesc := ⟨0x883008, [(48, 0x20)], 0x0, 0x0, 0x0, 0x0, 0x0⟩

/-- R425. -/
def R.SIO_ACT_STAT (i : Nat) : Nat := 0x883010 + i * 0x20
def F.SIO_ACT_STAT_DRIVEN : Fld := ⟨63, 1⟩
def F.SIO_ACT_STAT_VALID : Fld := ⟨62, 1⟩
def F.SIO_ACT_STAT_CODE : Fld := ⟨32, 16⟩
def F.SIO_ACT_STAT_CLIPPED : Fld := ⟨16, 16⟩
def F.SIO_ACT_STAT_LATE_APPLY : Fld := ⟨0, 16⟩
def D.SIO_ACT_STAT : RegDesc := ⟨0x883010, [(48, 0x20)], 0x0, 0x0, 0xffffffff, 0x0, 0x0⟩

/-- R425. -/
def R.SIO_ACT_POS (i : Nat) : Nat := 0x883018 + i * 0x20
def F.SIO_ACT_POS_POS : Fld := ⟨0, 32⟩
def D.SIO_ACT_POS : RegDesc := ⟨0x883018, [(48, 0x20)], 0x0, 0x0, 0x0, 0x0, 0x0⟩

/-- R426. -/
def R.CAN_CFG (i : Nat) : Nat := 0x900000 + i * 0x10000
def F.CAN_CFG_ACTIVE : Fld := ⟨63, 1⟩
def F.CAN_CFG_CANTON : Fld := ⟨56, 3⟩
def F.CAN_CFG_PLUMB : Fld := ⟨48, 1⟩
def F.CAN_CFG_FD_EN : Fld := ⟨40, 1⟩
def F.CAN_CFG_LISTEN : Fld := ⟨39, 1⟩
def F.CAN_CFG_AUTO_RECOVER : Fld := ⟨38, 1⟩
def F.CAN_CFG_TDC_EN : Fld := ⟨37, 1⟩
def F.CAN_CFG_TDC_OFFSET : Fld := ⟨24, 8⟩
def D.CAN_CFG : RegDesc := ⟨0x900000, [(8, 0x10000)], 0x0, 0x0, 0x0, 0x0, 0x0⟩

/-- R426. -/
def R.CAN_NBT (i : Nat) : Nat := 0x900008 + i * 0x10000
def F.CAN_NBT_BRP : Fld := ⟨24, 8⟩
def F.CAN_NBT_TSEG1 : Fld := ⟨16, 8⟩
def F.CAN_NBT_TSEG2 : Fld := ⟨8, 7⟩
def F.CAN_NBT_SJW : Fld := ⟨0, 7⟩
def D.CAN_NBT : RegDesc := ⟨0x900008, [(8, 0x10000)], 0x0, 0x0, 0x0, 0x0, 0x0⟩

/-- R426. -/
def R.CAN_DBT (i : Nat) : Nat := 0x900010 + i * 0x10000
def F.CAN_DBT_BRP : Fld := ⟨24, 8⟩
def F.CAN_DBT_TSEG1 : Fld := ⟨16, 8⟩
def F.CAN_DBT_TSEG2 : Fld := ⟨8, 7⟩
def F.CAN_DBT_SJW : Fld := ⟨0, 7⟩
def D.CAN_DBT : RegDesc := ⟨0x900010, [(8, 0x10000)], 0x0, 0x0, 0x0, 0x0, 0x0⟩

/-- R426. -/
def R.CAN_STAT (i : Nat) : Nat := 0x900018 + i * 0x10000
def F.CAN_STAT_TEC : Fld := ⟨56, 8⟩
def F.CAN_STAT_REC : Fld := ⟨48, 8⟩
def F.CAN_STAT_STATE : Fld := ⟨40, 2⟩
def F.CAN_STAT_LAST_ERR : Fld := ⟨32, 3⟩
def F.CAN_STAT_BUSOFF_CNT : Fld := ⟨16, 16⟩
def F.CAN_STAT_NOMATCH : Fld := ⟨0, 16⟩
def D.CAN_STAT : RegDesc := ⟨0x900018, [(8, 0x10000)], 0x0, 0x0, 0xffffffff, 0x0, 0x0⟩

/-- R426. -/
def R.CAN_CTL (i : Nat) : Nat := 0x900020 + i * 0x10000
def F.CAN_CTL_DISABLE_MODE : Fld := ⟨8, 1⟩
def F.CAN_CTL_RECOVER : Fld := ⟨1, 1⟩
def F.CAN_CTL_DISABLE : Fld := ⟨0, 1⟩
def D.CAN_CTL : RegDesc := ⟨0x900020, [(8, 0x10000)], 0x101, 0x0, 0x0, 0x2, 0x0⟩

/-- R427. -/
def R.CAN_MB_CTRL (i j : Nat) : Nat := 0x901000 + i * 0x10000 + j * 0x80
def F.CAN_MB_CTRL_UPDATE : Fld := ⟨48, 16⟩
def F.CAN_MB_CTRL_ENABLE : Fld := ⟨47, 1⟩
def F.CAN_MB_CTRL_DIR : Fld := ⟨46, 1⟩
def F.CAN_MB_CTRL_ONESHOT : Fld := ⟨45, 1⟩
def F.CAN_MB_CTRL_REQ : Fld := ⟨44, 1⟩
def F.CAN_MB_CTRL_ABORT : Fld := ⟨43, 1⟩
def F.CAN_MB_CTRL_NEW : Fld := ⟨42, 1⟩
def F.CAN_MB_CTRL_OVERWRITE : Fld := ⟨41, 1⟩
def F.CAN_MB_CTRL_TX_FAIL : Fld := ⟨40, 1⟩
def F.CAN_MB_CTRL_IDE : Fld := ⟨39, 1⟩
def F.CAN_MB_CTRL_FDF : Fld := ⟨38, 1⟩
def F.CAN_MB_CTRL_BRS : Fld := ⟨37, 1⟩
def F.CAN_MB_CTRL_ESI : Fld := ⟨36, 1⟩
def F.CAN_MB_CTRL_RTR : Fld := ⟨35, 1⟩
def F.CAN_MB_CTRL_DLC : Fld := ⟨0, 4⟩
def D.CAN_MB_CTRL : RegDesc := ⟨0x901000, [(8, 0x10000), (64, 0x80)], 0xf0e80000000f, 0x70000000000, 0x0, 0x80000000000, 0x0⟩

/-- R427. -/
def R.CAN_MB_ID (i j : Nat) : Nat := 0x901008 + i * 0x10000 + j * 0x80
def F.CAN_MB_ID_ID : Fld := ⟨32, 29⟩
def F.CAN_MB_ID_MASK : Fld := ⟨0, 29⟩
def D.CAN_MB_ID : RegDesc := ⟨0x901008, [(8, 0x10000), (64, 0x80)], 0x1fffffff1fffffff, 0x0, 0x0, 0x0, 0x0⟩

/-- R427. -/
def R.CAN_MB_STAMP (i j : Nat) : Nat := 0x901010 + i * 0x10000 + j * 0x80
def F.CAN_MB_STAMP_SOF : Fld := ⟨0, 32⟩
def D.CAN_MB_STAMP : RegDesc := ⟨0x901010, [(8, 0x10000), (64, 0x80)], 0x0, 0x0, 0x0, 0x0, 0x0⟩

/-- R427. -/
def R.CAN_MB_DATA (i j k : Nat) : Nat := 0x901040 + i * 0x10000 + j * 0x80 + k * 0x8
def F.CAN_MB_DATA_DATA : Fld := ⟨0, 64⟩
def D.CAN_MB_DATA : RegDesc := ⟨0x901040, [(8, 0x10000), (64, 0x80), (8, 0x8)], 0xffffffffffffffff, 0x0, 0x0, 0x0, 0x0⟩

/-- R428. -/
def R.ETH_CFG (i : Nat) : Nat := 0x980000 + i * 0x100
def F.ETH_CFG_ACTIVE : Fld := ⟨63, 1⟩
def F.ETH_CFG_LINK : Fld := ⟨62, 1⟩
def F.ETH_CFG_CANTON : Fld := ⟨56, 3⟩
def F.ETH_CFG_SPEED : Fld := ⟨48, 2⟩
def F.ETH_CFG_RS_FEC : Fld := ⟨47, 1⟩
def F.ETH_CFG_MTU : Fld := ⟨32, 14⟩
def D.ETH_CFG : RegDesc := ⟨0x980000, [(4, 0x100)], 0x0, 0x0, 0x0, 0x0, 0x0⟩

/-- R428. -/
def R.ETH_MAC (i : Nat) : Nat := 0x980008 + i * 0x100
def F.ETH_MAC_MAC : Fld := ⟨0, 48⟩
def D.ETH_MAC : RegDesc := ⟨0x980008, [(4, 0x100)], 0x0, 0x0, 0x0, 0x0, 0x0⟩

/-- R428. -/
def R.ETH_IP4 (i : Nat) : Nat := 0x980010 + i * 0x100
def F.ETH_IP4_IP4 : Fld := ⟨0, 32⟩
def D.ETH_IP4 : RegDesc := ⟨0x980010, [(4, 0x100)], 0x0, 0x0, 0x0, 0x0, 0x0⟩

/-- R428. -/
def R.ETH_IP6_HI (i : Nat) : Nat := 0x980018 + i * 0x100
def F.ETH_IP6_HI_IP6 : Fld := ⟨0, 64⟩
def D.ETH_IP6_HI : RegDesc := ⟨0x980018, [(4, 0x100)], 0x0, 0x0, 0x0, 0x0, 0x0⟩

/-- R428. -/
def R.ETH_IP6_LO (i : Nat) : Nat := 0x980020 + i * 0x100
def F.ETH_IP6_LO_IP6 : Fld := ⟨0, 64⟩
def D.ETH_IP6_LO : RegDesc := ⟨0x980020, [(4, 0x100)], 0x0, 0x0, 0x0, 0x0, 0x0⟩

/-- R428. -/
def R.ETH_RX (i : Nat) : Nat := 0x980028 + i * 0x100
def F.ETH_RX_BASE : Fld := ⟨12, 36⟩
def F.ETH_RX_LOG2_SLOT : Fld := ⟨8, 4⟩
def F.ETH_RX_LOG2_SLOTS : Fld := ⟨0, 4⟩
def D.ETH_RX : RegDesc := ⟨0x980028, [(4, 0x100)], 0x0, 0x0, 0x0, 0x0, 0x0⟩

/-- R428. -/
def R.ETH_STAT (i : Nat) : Nat := 0x980030 + i * 0x100
def F.ETH_STAT_RX_PROD : Fld := ⟨48, 16⟩
def F.ETH_STAT_RX_DROP : Fld := ⟨32, 16⟩
def F.ETH_STAT_CRC_ERR : Fld := ⟨16, 16⟩
def F.ETH_STAT_LINK_DOWN : Fld := ⟨0, 16⟩
def D.ETH_STAT : RegDesc := ⟨0x980030, [(4, 0x100)], 0x0, 0x0, 0xffffffffffff, 0x0, 0x0⟩

/-- R458. -/
def R.SCH_STAT : Nat := 0xa00000
def F.SCH_STAT_UNATTR_MJ : Fld := ⟨32, 32⟩
def F.SCH_STAT_SLICING : Fld := ⟨8, 8⟩
def F.SCH_STAT_LC_WAITING : Fld := ⟨0, 8⟩
def D.SCH_STAT : RegDesc := ⟨0xa00000, [], 0x0, 0x0, 0x0, 0x0, 0x0⟩

/-- R458. -/
def R.SCH_CFG : Nat := 0xa00008
def F.SCH_CFG_DRAIN_US : Fld := ⟨32, 16⟩
def F.SCH_CFG_QUANTUM_US : Fld := ⟨16, 16⟩
def F.SCH_CFG_YIELD_REMOTE_US : Fld := ⟨0, 16⟩
def D.SCH_CFG : RegDesc := ⟨0xa00008, [], 0xffffffffffff, 0x0, 0x0, 0x0, 0x7d000640032⟩

/-- R459. -/
def R.SCH_CANTON_CFG (i : Nat) : Nat := 0xa00100 + i * 0x20
def F.SCH_CANTON_CFG_ACTIVE : Fld := ⟨63, 1⟩
def F.SCH_CANTON_CFG_QUEUES : Fld := ⟨32, 17⟩
def F.SCH_CANTON_CFG_CTX_COUNT : Fld := ⟨16, 13⟩
def F.SCH_CANTON_CFG_CTX_BASE : Fld := ⟨0, 12⟩
def D.SCH_CANTON_CFG : RegDesc := ⟨0xa00100, [(8, 0x20)], 0x0, 0x0, 0x0, 0x0, 0x0⟩

/-- R459. -/
def R.SCH_CANTON_ENERGY (i : Nat) : Nat := 0xa00108 + i * 0x20
def F.SCH_CANTON_ENERGY_UJ : Fld := ⟨0, 64⟩
def D.SCH_CANTON_ENERGY : RegDesc := ⟨0xa00108, [(8, 0x20)], 0x0, 0x0, 0x0, 0x0, 0x0⟩

/-- R459. -/
def R.SCH_CANTON_LOAD (i : Nat) : Nat := 0xa00110 + i * 0x20
def F.SCH_CANTON_LOAD_RUNNABLE_LC : Fld := ⟨48, 16⟩
def F.SCH_CANTON_LOAD_RUNNABLE_BE : Fld := ⟨32, 16⟩
def F.SCH_CANTON_LOAD_SWITCHES : Fld := ⟨16, 16⟩
def F.SCH_CANTON_LOAD_SLICES : Fld := ⟨0, 16⟩
def D.SCH_CANTON_LOAD : RegDesc := ⟨0xa00110, [(8, 0x20)], 0x0, 0x0, 0xffffffff, 0x0, 0x0⟩

/-- R459. -/
def R.SCH_CANTON_THROTTLE (i : Nat) : Nat := 0xa00118 + i * 0x20
def F.SCH_CANTON_THROTTLE_HBM_RD : Fld := ⟨48, 16⟩
def F.SCH_CANTON_THROTTLE_HBM_WR : Fld := ⟨32, 16⟩
def F.SCH_CANTON_THROTTLE_NOC : Fld := ⟨16, 16⟩
def F.SCH_CANTON_THROTTLE_CHORD : Fld := ⟨0, 16⟩
def D.SCH_CANTON_THROTTLE : RegDesc := ⟨0xa00118, [(8, 0x20)], 0x0, 0x0, 0xffffffffffffffff, 0x0, 0x0⟩

/-- R460. -/
def R.SCH_REG (i j : Nat) : Nat := 0xa00400 + i * 0x40 + j * 0x8
def F.SCH_REG_SOAK : Fld := ⟨63, 1⟩
def F.SCH_REG_BURST : Fld := ⟨32, 25⟩
def F.SCH_REG_RATE : Fld := ⟨0, 32⟩
def D.SCH_REG : RegDesc := ⟨0xa00400, [(8, 0x40), (7, 0x8)], 0x0, 0x0, 0x0, 0x0, 0x0⟩

/-- R461. -/
def R.SCH_CTX_STAT (i : Nat) : Nat := 0xa10000 + i * 0x20
def F.SCH_CTX_STAT_VALID : Fld := ⟨63, 1⟩
def F.SCH_CTX_STAT_CANTON : Fld := ⟨56, 3⟩
def F.SCH_CTX_STAT_CORE : Fld := ⟨48, 4⟩
def F.SCH_CTX_STAT_STATE : Fld := ⟨32, 3⟩
def F.SCH_CTX_STAT_QUEUE : Fld := ⟨16, 16⟩
def D.SCH_CTX_STAT : RegDesc := ⟨0xa10000, [(4096, 0x20)], 0x0, 0x0, 0x0, 0x0, 0x0⟩

/-- R461. -/
def R.SCH_CTX_SEED (i : Nat) : Nat := 0xa10008 + i * 0x20
def F.SCH_CTX_SEED_SR_SEED : Fld := ⟨0, 64⟩
def D.SCH_CTX_SEED : RegDesc := ⟨0xa10008, [(4096, 0x20)], 0xffffffffffffffff, 0x0, 0x0, 0x0, 0x0⟩

/-- R461. -/
def R.SCH_CTX_SAVE (i : Nat) : Nat := 0xa10010 + i * 0x20
def F.SCH_CTX_SAVE_ADDR : Fld := ⟨0, 48⟩
def D.SCH_CTX_SAVE : RegDesc := ⟨0xa10010, [(4096, 0x20)], 0x0, 0x0, 0x0, 0x0, 0x0⟩

/-- R461. -/
def R.SCH_CTX_CNT (i : Nat) : Nat := 0xa10018 + i * 0x20
def F.SCH_CTX_CNT_SWITCHES : Fld := ⟨32, 32⟩
def F.SCH_CTX_CNT_LAST_S_LIVE : Fld := ⟨0, 32⟩
def D.SCH_CTX_CNT : RegDesc := ⟨0xa10018, [(4096, 0x20)], 0x0, 0x0, 0x0, 0x0, 0x0⟩

/-- R462. -/
def R.QUE_DOORBELL (i : Nat) : Nat := 0xc00000 + i * 0x40
def F.QUE_DOORBELL_CMD_PROD : Fld := ⟨32, 32⟩
def F.QUE_DOORBELL_CPL_CONS : Fld := ⟨0, 32⟩
def D.QUE_DOORBELL : RegDesc := ⟨0xc00000, [(65536, 0x40)], 0x0, 0x0, 0x0, 0xffffffffffffffff, 0x0⟩

/-- R462. -/
def R.QUE_CFG (i : Nat) : Nat := 0xc00008 + i * 0x40
def F.QUE_CFG_ACTIVE : Fld := ⟨63, 1⟩
def F.QUE_CFG_CANTON : Fld := ⟨56, 3⟩
def F.QUE_CFG_UNIT : Fld := ⟨48, 4⟩
def F.QUE_CFG_INSTANCE : Fld := ⟨44, 2⟩
def F.QUE_CFG_LC : Fld := ⟨43, 1⟩
def F.QUE_CFG_PRIO : Fld := ⟨40, 3⟩
def F.QUE_CFG_SOLVER_FED : Fld := ⟨39, 1⟩
def F.QUE_CFG_VECTOR : Fld := ⟨16, 11⟩
def D.QUE_CFG : RegDesc := ⟨0xc00008, [(65536, 0x40)], 0x0, 0x0, 0x0, 0x0, 0x0⟩

/-- R462. -/
def R.QUE_CMD_RING (i : Nat) : Nat := 0xc00010 + i * 0x40
def F.QUE_CMD_RING_BASE : Fld := ⟨12, 36⟩
def F.QUE_CMD_RING_LOG2 : Fld := ⟨0, 4⟩
def D.QUE_CMD_RING : RegDesc := ⟨0xc00010, [(65536, 0x40)], 0xfffffffff00f, 0x0, 0x0, 0x0, 0x0⟩

/-- R462. -/
def R.QUE_CPL_RING (i : Nat) : Nat := 0xc00018 + i * 0x40
def F.QUE_CPL_RING_BASE : Fld := ⟨12, 36⟩
def F.QUE_CPL_RING_LOG2 : Fld := ⟨0, 4⟩
def D.QUE_CPL_RING : RegDesc := ⟨0xc00018, [(65536, 0x40)], 0xfffffffff00f, 0x0, 0x0, 0x0, 0x0⟩

/-- R462. -/
def R.QUE_SEQ (i : Nat) : Nat := 0xc00020 + i * 0x40
def F.QUE_SEQ_LAST_ACCEPTED_SEQ : Fld := ⟨32, 32⟩
def F.QUE_SEQ_LAST_RETIRED_SEQ : Fld := ⟨0, 32⟩
def D.QUE_SEQ : RegDesc := ⟨0xc00020, [(65536, 0x40)], 0x0, 0x0, 0x0, 0x0, 0xffffffffffffffff⟩

/-- R462. -/
def R.QUE_RING (i : Nat) : Nat := 0xc00028 + i * 0x40
def F.QUE_RING_RING_PROD : Fld := ⟨32, 32⟩
def F.QUE_RING_CMD_CONS : Fld := ⟨0, 32⟩
def D.QUE_RING : RegDesc := ⟨0xc00028, [(65536, 0x40)], 0xffffffff, 0x0, 0x0, 0x0, 0x0⟩

/-- R462. -/
def R.QUE_CTL (i : Nat) : Nat := 0xc00030 + i * 0x40
def F.QUE_CTL_SEQ_GAPS : Fld := ⟨48, 16⟩
def F.QUE_CTL_LATE_DROPS : Fld := ⟨32, 16⟩
def F.QUE_CTL_DB_ERR : Fld := ⟨3, 1⟩
def F.QUE_CTL_IDLE : Fld := ⟨2, 1⟩
def F.QUE_CTL_DISABLE_MODE : Fld := ⟨1, 1⟩
def F.QUE_CTL_DISABLE : Fld := ⟨0, 1⟩
def D.QUE_CTL : RegDesc := ⟨0xc00030, [(65536, 0x40)], 0x3, 0x8, 0xffffffff00000000, 0x0, 0x5⟩

/-- R462. -/
def R.QUE_ENERGY (i : Nat) : Nat := 0xc00038 + i * 0x40
def F.QUE_ENERGY_UJ : Fld := ⟨0, 64⟩
def D.QUE_ENERGY : RegDesc := ⟨0xc00038, [(65536, 0x40)], 0x0, 0x0, 0x0, 0x0, 0x0⟩

/-- R475. -/
def R.HBM_STAT : Nat := 0x1000000
def F.HBM_STAT_FAILED : Fld := ⟨16, 4⟩
def F.HBM_STAT_TRAINED : Fld := ⟨12, 4⟩
def F.HBM_STAT_RETRAINING : Fld := ⟨11, 1⟩
def F.HBM_STAT_CHANNEL : Fld := ⟨5, 6⟩
def F.HBM_STAT_HOT : Fld := ⟨4, 1⟩
def F.HBM_STAT_SPARES_OUT : Fld := ⟨3, 1⟩
def F.HBM_STAT_RETIRED : Fld := ⟨2, 1⟩
def F.HBM_STAT_UNCORR : Fld := ⟨1, 1⟩
def D.HBM_STAT : RegDesc := ⟨0x1000000, [], 0x0, 0xe, 0x0, 0x0, 0x0⟩

/-- R475. -/
def R.HBM_ERR_ADDR : Nat := 0x1000008
def F.HBM_ERR_ADDR_ADDR : Fld := ⟨0, 48⟩
def D.HBM_ERR_ADDR : RegDesc := ⟨0x1000008, [], 0x0, 0x0, 0x0, 0x0, 0x0⟩

/-- R475. -/
def R.HBM_RETIRE_REQ : Nat := 0x1000010
def F.HBM_RETIRE_REQ_ADDR : Fld := ⟨0, 48⟩
def D.HBM_RETIRE_REQ : RegDesc := ⟨0x1000010, [], 0x0, 0x0, 0x0, 0xffffffffffff, 0x0⟩

/-- R476. -/
def R.HBM_RETRAIN_CTL : Nat := 0x1000018
def F.HBM_RETRAIN_CTL_RETIRE_THRESH : Fld := ⟨40, 8⟩
def F.HBM_RETRAIN_CTL_TEMP_DELTA : Fld := ⟨32, 8⟩
def F.HBM_RETRAIN_CTL_LINK_THRESH : Fld := ⟨16, 16⟩
def F.HBM_RETRAIN_CTL_REQ : Fld := ⟨7, 1⟩
def F.HBM_RETRAIN_CTL_CH : Fld := ⟨1, 6⟩
def F.HBM_RETRAIN_CTL_AUTO : Fld := ⟨0, 1⟩
def D.HBM_RETRAIN_CTL : RegDesc := ⟨0x1000018, [], 0xffffffff007f, 0x0, 0x0, 0x80, 0x81400100001⟩

/-- R476. -/
def R.HBM_SCRUB : Nat := 0x1000020
def F.HBM_SCRUB_PASSES : Fld := ⟨32, 32⟩
def D.HBM_SCRUB : RegDesc := ⟨0x1000020, [], 0x0, 0x0, 0x0, 0x0, 0x0⟩

/-- R477. -/
def R.HBM_STACK_ECC (i : Nat) : Nat := 0x1000100 + i * 0x20
def F.HBM_STACK_ECC_CORR : Fld := ⟨32, 32⟩
def F.HBM_STACK_ECC_UNCORR : Fld := ⟨16, 16⟩
def F.HBM_STACK_ECC_LINK_ERR : Fld := ⟨0, 16⟩
def D.HBM_STACK_ECC : RegDesc := ⟨0x1000100, [(4, 0x20)], 0x0, 0x0, 0xffffffffffffffff, 0x0, 0x0⟩

/-- R477. -/
def R.HBM_STACK_STAT (i : Nat) : Nat := 0x1000108 + i * 0x20
def F.HBM_STACK_STAT_TEMP : Fld := ⟨56, 8⟩
def F.HBM_STACK_STAT_REFRESH : Fld := ⟨48, 2⟩
def F.HBM_STACK_STAT_RETRAINS : Fld := ⟨32, 16⟩
def F.HBM_STACK_STAT_RETIRED : Fld := ⟨0, 13⟩
def D.HBM_STACK_STAT : RegDesc := ⟨0x1000108, [(4, 0x20)], 0x0, 0x0, 0x0, 0x0, 0x0⟩

/-- R502. -/
def R.CHD_CFG : Nat := 0x1100000
def F.CHD_CFG_MANAGER : Fld := ⟨63, 1⟩
def F.CHD_CFG_ENUMERATED : Fld := ⟨62, 1⟩
def F.CHD_CFG_POSITION : Fld := ⟨56, 6⟩
def F.CHD_CFG_DEPTH : Fld := ⟨50, 3⟩
def F.CHD_CFG_UP_PORT : Fld := ⟨48, 2⟩
def F.CHD_CFG_TIMEOUT_US : Fld := ⟨0, 16⟩
def D.CHD_CFG : RegDesc := ⟨0x1100000, [], 0xffff, 0x0, 0x0, 0x0, 0x32⟩

/-- R502. -/
def R.CHD_CTL : Nat := 0x1100008
def F.CHD_CTL_ENUMERATE : Fld := ⟨0, 1⟩
def D.CHD_CTL : RegDesc := ⟨0x1100008, [], 0x0, 0x0, 0x0, 0x1, 0x0⟩

/-- R502. -/
def R.CHD_ENUM : Nat := 0x1100010
def F.CHD_ENUM_UNREACHED : Fld := ⟨40, 8⟩
def F.CHD_ENUM_WORKERS : Fld := ⟨0, 7⟩
def D.CHD_ENUM : RegDesc := ⟨0x1100010, [], 0x0, 0x0, 0x0, 0x0, 0x0⟩

/-- R502. -/
def R.CHD_TSYNC : Nat := 0x1100018
def F.CHD_TSYNC_LOCKED : Fld := ⟨63, 1⟩
def F.CHD_TSYNC_OFFSET_PS : Fld := ⟨0, 32⟩
def D.CHD_TSYNC : RegDesc := ⟨0x1100018, [], 0x0, 0x0, 0x0, 0x0, 0x0⟩

/-- R502. -/
def R.CHD_PRESENT : Nat := 0x1100020
def F.CHD_PRESENT_POSITIONS : Fld := ⟨0, 64⟩
def D.CHD_PRESENT : RegDesc := ⟨0x1100020, [], 0x0, 0x0, 0x0, 0x0, 0x0⟩

/-- R503. -/
def R.CHD_PORT_CFG (i : Nat) : Nat := 0x1100100 + i * 0x40
def F.CHD_PORT_CFG_IN_CANTON : Fld := ⟨56, 3⟩
def F.CHD_PORT_CFG_ROLE : Fld := ⟨48, 2⟩
def F.CHD_PORT_CFG_SUB_LO : Fld := ⟨42, 6⟩
def F.CHD_PORT_CFG_SUB_HI : Fld := ⟨36, 6⟩
def D.CHD_PORT_CFG : RegDesc := ⟨0x1100100, [(4, 0x40)], 0x700000000000000, 0x0, 0x0, 0x0, 0x0⟩

/-- R503. -/
def R.CHD_PORT_STAT (i : Nat) : Nat := 0x1100108 + i * 0x40
def F.CHD_PORT_STAT_STATE : Fld := ⟨62, 2⟩
def F.CHD_PORT_STAT_REPLAYS : Fld := ⟨32, 16⟩
def F.CHD_PORT_STAT_LINK_DOWNS : Fld := ⟨16, 16⟩
def F.CHD_PORT_STAT_FEC_UNCORR : Fld := ⟨0, 16⟩
def D.CHD_PORT_STAT : RegDesc := ⟨0x1100108, [(4, 0x40)], 0x0, 0x0, 0xffffffffffff, 0x0, 0x0⟩

/-- R503. -/
def R.CHD_PORT_CNT (i : Nat) : Nat := 0x1100110 + i * 0x40
def F.CHD_PORT_CNT_STALE_RESP : Fld := ⟨48, 16⟩
def F.CHD_PORT_CNT_LOST : Fld := ⟨32, 16⟩
def F.CHD_PORT_CNT_DENIED : Fld := ⟨16, 16⟩
def F.CHD_PORT_CNT_BAD_KIND : Fld := ⟨0, 16⟩
def D.CHD_PORT_CNT : RegDesc := ⟨0x1100110, [(4, 0x40)], 0x0, 0x0, 0xffffffffffffffff, 0x0, 0x0⟩

/-- R504. -/
def R.DET_LAUNCH_AT : Nat := 0x1180000
def F.DET_LAUNCH_AT_STAMP : Fld := ⟨0, 64⟩
def D.DET_LAUNCH_AT : RegDesc := ⟨0x1180000, [], 0xffffffffffffffff, 0x0, 0x0, 0x0, 0x0⟩

/-- R504. -/
def R.DET_LAUNCH_CTL : Nat := 0x1180008
def F.DET_LAUNCH_CTL_MARGIN_US : Fld := ⟨32, 16⟩
def F.DET_LAUNCH_CTL_ID : Fld := ⟨8, 8⟩
def F.DET_LAUNCH_CTL_RELEASE : Fld := ⟨2, 1⟩
def F.DET_LAUNCH_CTL_ABORT : Fld := ⟨1, 1⟩
def F.DET_LAUNCH_CTL_ARM : Fld := ⟨0, 1⟩
def D.DET_LAUNCH_CTL : RegDesc := ⟨0x1180008, [], 0xffff0000ff00, 0x0, 0x0, 0x7, 0x1400000000⟩

/-- R504. -/
def R.DET_LAUNCH_MASK : Nat := 0x1180010
def F.DET_LAUNCH_MASK_PARTICIPANTS : Fld := ⟨0, 64⟩
def D.DET_LAUNCH_MASK : RegDesc := ⟨0x1180010, [], 0xffffffffffffffff, 0x0, 0x0, 0x0, 0x1⟩

/-- R504. -/
def R.DET_LAUNCH_STAT : Nat := 0x1180018
def F.DET_LAUNCH_STAT_STATE : Fld := ⟨61, 3⟩
def F.DET_LAUNCH_STAT_CAUSE : Fld := ⟨53, 3⟩
def F.DET_LAUNCH_STAT_ID : Fld := ⟨40, 8⟩
def F.DET_LAUNCH_STAT_POSITION : Fld := ⟨32, 6⟩
def F.DET_LAUNCH_STAT_BUSY_REJECT : Fld := ⟨0, 1⟩
def D.DET_LAUNCH_STAT : RegDesc := ⟨0x1180018, [], 0x0, 0x1, 0x0, 0x0, 0x0⟩

/-- R504. -/
def R.DET_LAUNCH_FIRED : Nat := 0x1180020
def F.DET_LAUNCH_FIRED_STAMP : Fld := ⟨0, 64⟩
def D.DET_LAUNCH_FIRED : RegDesc := ⟨0x1180020, [], 0x0, 0x0, 0x0, 0x0, 0x0⟩

/-- R504. -/
def R.DET_GATE (i : Nat) : Nat := 0x1181000 + i * 0x8
def F.DET_GATE_ENABLE : Fld := ⟨63, 1⟩
def F.DET_GATE_CLOSED : Fld := ⟨62, 1⟩
def F.DET_GATE_QUEUE : Fld := ⟨0, 16⟩
def D.DET_GATE : RegDesc := ⟨0x1181000, [(64, 0x8)], 0x800000000000ffff, 0x0, 0x0, 0x0, 0x0⟩

/-- R505. -/
def R.DET_LS_CFG : Nat := 0x1180040
def F.DET_LS_CFG_ENABLE : Fld := ⟨63, 1⟩
def F.DET_LS_CFG_TO_PLUMB : Fld := ⟨62, 1⟩
def F.DET_LS_CFG_PARTNER : Fld := ⟨48, 6⟩
def F.DET_LS_CFG_GROUP_MASK : Fld := ⟨40, 8⟩
def F.DET_LS_CFG_LAG_US : Fld := ⟨16, 16⟩
def F.DET_LS_CFG_ITEMS : Fld := ⟨0, 16⟩
def D.DET_LS_CFG : RegDesc := ⟨0x1180040, [], 0xc03fff00ffffffff, 0x0, 0x0, 0x0, 0x3e80040⟩

/-- R505. -/
def R.DET_LS_STAT : Nat := 0x1180048
def F.DET_LS_STAT_DIVERGE : Fld := ⟨63, 1⟩
def F.DET_LS_STAT_CAUSE : Fld := ⟨61, 2⟩
def F.DET_LS_STAT_SOURCE : Fld := ⟨49, 7⟩
def F.DET_LS_STAT_COUNT : Fld := ⟨32, 16⟩
def F.DET_LS_STAT_INTERVAL : Fld := ⟨0, 32⟩
def D.DET_LS_STAT : RegDesc := ⟨0x1180048, [], 0x0, 0x8000000000000000, 0xffff00000000, 0x0, 0x0⟩

/-- R505. -/
def R.DET_LS_MATCHES : Nat := 0x1180050
def F.DET_LS_MATCHES_COUNT : Fld := ⟨0, 64⟩
def D.DET_LS_MATCHES : RegDesc := ⟨0x1180050, [], 0x0, 0x0, 0x0, 0x0, 0x0⟩

/-- R505. -/
def R.DET_SETTINGS_SEQ : Nat := 0x11800b8
def F.DET_SETTINGS_SEQ_SEQ : Fld := ⟨0, 32⟩
def D.DET_SETTINGS_SEQ : RegDesc := ⟨0x11800b8, [], 0x0, 0x0, 0x0, 0x0, 0x0⟩

/-- R505. -/
def R.DET_SETTINGS_DIGEST (i : Nat) : Nat := 0x11800c0 + i * 0x8
def F.DET_SETTINGS_DIGEST_BYTES : Fld := ⟨0, 64⟩
def D.DET_SETTINGS_DIGEST : RegDesc := ⟨0x11800c0, [(8, 0x8)], 0x0, 0x0, 0x0, 0x0, 0x0⟩

/-- R505. -/
def R.DET_LS_QUEUE (i : Nat) : Nat := 0x1181200 + i * 0x8
def F.DET_LS_QUEUE_ENABLE : Fld := ⟨63, 1⟩
def F.DET_LS_QUEUE_QUEUE : Fld := ⟨0, 16⟩
def D.DET_LS_QUEUE : RegDesc := ⟨0x1181200, [(64, 0x8)], 0x800000000000ffff, 0x0, 0x0, 0x0, 0x0⟩

/-- R505. -/
def R.DET_LS_FEED (i : Nat) : Nat := 0x1181400 + i * 0x8
def F.DET_LS_FEED_ITEM : Fld := ⟨0, 64⟩
def D.DET_LS_FEED : RegDesc := ⟨0x1181400, [(8, 0x8)], 0x0, 0x0, 0x0, 0xffffffffffffffff, 0x0⟩

/-- R506. -/
def R.DET_REC_BASE : Nat := 0x1180060
def F.DET_REC_BASE_ADDR : Fld := ⟨12, 36⟩
def D.DET_REC_BASE : RegDesc := ⟨0x1180060, [], 0xfffffffff000, 0x0, 0x0, 0x0, 0x0⟩

/-- R506. -/
def R.DET_REPLAY_BASE : Nat := 0x1180088
def F.DET_REPLAY_BASE_ADDR : Fld := ⟨12, 36⟩
def D.DET_REPLAY_BASE : RegDesc := ⟨0x1180088, [], 0xfffffffff000, 0x0, 0x0, 0x0, 0x0⟩

/-- R506. -/
def R.DET_REC_LEN : Nat := 0x1180068
def F.DET_REC_LEN_LEN : Fld := ⟨0, 40⟩
def D.DET_REC_LEN : RegDesc := ⟨0x1180068, [], 0xffffffffff, 0x0, 0x0, 0x0, 0x0⟩

/-- R506. -/
def R.DET_REPLAY_LEN : Nat := 0x1180090
def F.DET_REPLAY_LEN_LEN : Fld := ⟨0, 40⟩
def D.DET_REPLAY_LEN : RegDesc := ⟨0x1180090, [], 0xffffffffff, 0x0, 0x0, 0x0, 0x0⟩

/-- R506. -/
def R.DET_REC_CTL : Nat := 0x1180070
def F.DET_REC_CTL_ENABLE : Fld := ⟨63, 1⟩
def F.DET_REC_CTL_STOP_ON_FULL : Fld := ⟨62, 1⟩
def F.DET_REC_CTL_CANTON : Fld := ⟨56, 3⟩
def F.DET_REC_CTL_CLASS_MASK : Fld := ⟨0, 5⟩
def D.DET_REC_CTL : RegDesc := ⟨0x1180070, [], 0xc70000000000001f, 0x0, 0x0, 0x0, 0x0⟩

/-- R506. -/
def R.DET_REC_STAT : Nat := 0x1180078
def F.DET_REC_STAT_DROPPED : Fld := ⟨32, 32⟩
def F.DET_REC_STAT_FULL : Fld := ⟨0, 1⟩
def D.DET_REC_STAT : RegDesc := ⟨0x1180078, [], 0x0, 0x1, 0xffffffff00000000, 0x0, 0x0⟩

/-- R506. -/
def R.DET_REC_PROD : Nat := 0x1180080
def F.DET_REC_PROD_BYTES : Fld := ⟨0, 64⟩
def D.DET_REC_PROD : RegDesc := ⟨0x1180080, [], 0x0, 0x0, 0x0, 0x0, 0x0⟩

/-- R506. -/
def R.DET_REPLAY_CTL : Nat := 0x1180098
def F.DET_REPLAY_CTL_ENABLE : Fld := ⟨63, 1⟩
def F.DET_REPLAY_CTL_CLASS_MASK : Fld := ⟨0, 5⟩
def D.DET_REPLAY_CTL : RegDesc := ⟨0x1180098, [], 0x800000000000001f, 0x0, 0x0, 0x0, 0x0⟩

/-- R506. -/
def R.DET_REPLAY_OFFSET : Nat := 0x11800a0
def F.DET_REPLAY_OFFSET_OFFSET_NS : Fld := ⟨0, 64⟩
def D.DET_REPLAY_OFFSET : RegDesc := ⟨0x11800a0, [], 0xffffffffffffffff, 0x0, 0x0, 0x0, 0x0⟩

/-- R506. -/
def R.DET_REPLAY_STAT : Nat := 0x11800a8
def F.DET_REPLAY_STAT_DONE : Fld := ⟨63, 1⟩
def F.DET_REPLAY_STAT_LATE_INJECT : Fld := ⟨32, 16⟩
def F.DET_REPLAY_STAT_MISSING : Fld := ⟨16, 16⟩
def F.DET_REPLAY_STAT_LIVE_IGNORED : Fld := ⟨0, 16⟩
def D.DET_REPLAY_STAT : RegDesc := ⟨0x11800a8, [], 0x0, 0x0, 0xffffffffffff, 0x0, 0x0⟩

/-- R506. -/
def R.DET_REPLAY_CONS : Nat := 0x11800b0
def F.DET_REPLAY_CONS_BYTES : Fld := ⟨0, 64⟩
def D.DET_REPLAY_CONS : RegDesc := ⟨0x11800b0, [], 0x0, 0x0, 0x0, 0x0, 0x0⟩

/-- R535. -/
def R.PLB_STAT : Nat := 0x1200000
def F.PLB_STAT_PLUMB_FAULT : Fld := ⟨63, 1⟩
def F.PLB_STAT_FAULT_SRC : Fld := ⟨59, 4⟩
def F.PLB_STAT_OUT_VALID : Fld := ⟨58, 1⟩
def F.PLB_STAT_TIME_FAULT : Fld := ⟨57, 1⟩
def F.PLB_STAT_COVERAGE_LATE : Fld := ⟨56, 1⟩
def F.PLB_STAT_ACK_REFUSED : Fld := ⟨55, 1⟩
def F.PLB_STAT_FORCED : Fld := ⟨54, 1⟩
def F.PLB_STAT_FIRST_REG : Fld := ⟨40, 6⟩
def F.PLB_STAT_FIRST_CAUSE : Fld := ⟨36, 4⟩
def F.PLB_STAT_SAFE_MSG_LATE : Fld := ⟨16, 16⟩
def F.PLB_STAT_INBOX_DROP : Fld := ⟨0, 16⟩
def D.PLB_STAT : RegDesc := ⟨0x1200000, [], 0x0, 0x280000000000000, 0xffffffff, 0x0, 0x0⟩

/-- R536. -/
def R.PLB_FIRST_STAMP : Nat := 0x1200008
def F.PLB_FIRST_STAMP_STAMP : Fld := ⟨0, 64⟩
def D.PLB_FIRST_STAMP : RegDesc := ⟨0x1200008, [], 0x0, 0x0, 0x0, 0x0, 0x0⟩

/-- R536. -/
def R.PLB_VALID : Nat := 0x1200010
def F.PLB_VALID_MASK : Fld := ⟨0, 64⟩
def D.PLB_VALID : RegDesc := ⟨0x1200010, [], 0x0, 0x0, 0x0, 0x0, 0x0⟩

/-- R536. -/
def R.PLB_LATCHED : Nat := 0x1200018
def F.PLB_LATCHED_MASK : Fld := ⟨0, 64⟩
def D.PLB_LATCHED : RegDesc := ⟨0x1200018, [], 0x0, 0x0, 0x0, 0x0, 0x0⟩

/-- R536. -/
def R.PLB_ACK : Nat := 0x1200020
def F.PLB_ACK_MASK : Fld := ⟨0, 64⟩
def D.PLB_ACK : RegDesc := ⟨0x1200020, [], 0x0, 0x0, 0x0, 0xffffffffffffffff, 0x0⟩

/-- R536. -/
def R.PLB_CTL : Nat := 0x1200028
def F.PLB_CTL_CLEAR_FIRST : Fld := ⟨1, 1⟩
def F.PLB_CTL_FORCE_SAFE : Fld := ⟨0, 1⟩
def D.PLB_CTL : RegDesc := ⟨0x1200028, [], 0x1, 0x0, 0x0, 0x2, 0x0⟩

/-- R536. -/
def R.PLB_CFG : Nat := 0x1200030
def F.PLB_CFG_PENNANT_PERIOD_US : Fld := ⟨32, 32⟩
def F.PLB_CFG_GUARD_US : Fld := ⟨16, 16⟩
def F.PLB_CFG_CAN_CTRL : Fld := ⟨8, 8⟩
def F.PLB_CFG_CAN_IDE : Fld := ⟨1, 1⟩
def F.PLB_CFG_COV_INVALIDATES : Fld := ⟨0, 1⟩
def D.PLB_CFG : RegDesc := ⟨0x1200030, [], 0x0, 0x0, 0x0, 0x0, 0xff00⟩

/-- R536. -/
def R.PLB_CAN : Nat := 0x1200038
def F.PLB_CAN_REPEAT_MS : Fld := ⟨48, 16⟩
def F.PLB_CAN_CAN_ID : Fld := ⟨0, 29⟩
def D.PLB_CAN : RegDesc := ⟨0x1200038, [], 0x0, 0x0, 0x0, 0x0, 0x0⟩

/-- R536. -/
def R.PLB_COVERAGE : Nat := 0x1200040
def F.PLB_COVERAGE_WINDOWS_MISSED : Fld := ⟨48, 16⟩
def F.PLB_COVERAGE_WINDOW : Fld := ⟨32, 16⟩
def F.PLB_COVERAGE_WORST_MISSING : Fld := ⟨16, 8⟩
def F.PLB_COVERAGE_PHYS_CORE : Fld := ⟨8, 5⟩
def F.PLB_COVERAGE_ENGINE : Fld := ⟨0, 2⟩
def D.PLB_COVERAGE : RegDesc := ⟨0x1200040, [], 0x0, 0x0, 0xffff000000000000, 0x0, 0x0⟩

/-- R536. -/
def R.PLB_PENNANT : Nat := 0x1200048
def F.PLB_PENNANT_MISMATCHES : Fld := ⟨48, 16⟩
def F.PLB_PENNANT_DEFERRED : Fld := ⟨32, 16⟩
def F.PLB_PENNANT_RUNS : Fld := ⟨0, 32⟩
def D.PLB_PENNANT : RegDesc := ⟨0x1200048, [], 0x0, 0x0, 0xffffffff00000000, 0x0, 0x0⟩

/-- R536. -/
def R.PLB_ACT_VALID : Nat := 0x1200050
def F.PLB_ACT_VALID_LINES : Fld := ⟨0, 48⟩
def D.PLB_ACT_VALID : RegDesc := ⟨0x1200050, [], 0x0, 0x0, 0x0, 0x0, 0x0⟩

/-- R536. -/
def R.PLB_INBOX (i : Nat) : Nat := 0x1200100 + i * 0x8
def F.PLB_INBOX_WORD : Fld := ⟨0, 64⟩
def D.PLB_INBOX : RegDesc := ⟨0x1200100, [(17, 0x8)], 0x0, 0x0, 0x0, 0xffffffffffffffff, 0x0⟩

/-- R537. -/
def R.PLB_REG_CFG (i : Nat) : Nat := 0x1201000 + i * 0x20
def F.PLB_REG_CFG_ACTIVE : Fld := ⟨63, 1⟩
def F.PLB_REG_CFG_CANTON : Fld := ⟨60, 3⟩
def F.PLB_REG_CFG_KIND : Fld := ⟨59, 1⟩
def F.PLB_REG_CFG_GROUP : Fld := ⟨56, 3⟩
def F.PLB_REG_CFG_N : Fld := ⟨52, 4⟩
def F.PLB_REG_CFG_M : Fld := ⟨48, 4⟩
def F.PLB_REG_CFG_W : Fld := ⟨41, 7⟩
def F.PLB_REG_CFG_FLAGS : Fld := ⟨32, 4⟩
def F.PLB_REG_CFG_DEP_CANTONS : Fld := ⟨24, 8⟩
def F.PLB_REG_CFG_ITEMS_MAX : Fld := ⟨0, 11⟩
def D.PLB_REG_CFG : RegDesc := ⟨0x1201000, [(64, 0x20)], 0x0, 0x0, 0x0, 0x0, 0x0⟩

/-- R537. -/
def R.PLB_REG_STAT (i : Nat) : Nat := 0x1201008 + i * 0x20
def F.PLB_REG_STAT_STATE : Fld := ⟨62, 2⟩
def F.PLB_REG_STAT_COUNT : Fld := ⟨56, 4⟩
def F.PLB_REG_STAT_IN_WINDOW : Fld := ⟨48, 8⟩
def F.PLB_REG_STAT_LAST_CAUSE : Fld := ⟨44, 4⟩
def F.PLB_REG_STAT_LAST_INDEX : Fld := ⟨0, 16⟩
def D.PLB_REG_STAT : RegDesc := ⟨0x1201008, [(64, 0x20)], 0x0, 0x0, 0x0, 0x0, 0x0⟩

/-- R537. -/
def R.PLB_VERDICT (i : Nat) : Nat := 0x1201010 + i * 0x20
def F.PLB_VERDICT_VALID : Fld := ⟨63, 1⟩
def F.PLB_VERDICT_INDEX : Fld := ⟨0, 48⟩
def D.PLB_VERDICT : RegDesc := ⟨0x1201010, [(64, 0x20)], 0x0, 0x0, 0x0, 0x0, 0x0⟩

/-- R537. -/
def R.PLB_REG_CNT (i : Nat) : Nat := 0x1201018 + i * 0x20
def F.PLB_REG_CNT_DISAGREE : Fld := ⟨32, 32⟩
def F.PLB_REG_CNT_LATCHES : Fld := ⟨16, 16⟩
def F.PLB_REG_CNT_DEADLINE : Fld := ⟨0, 16⟩
def D.PLB_REG_CNT : RegDesc := ⟨0x1201018, [(64, 0x20)], 0x0, 0x0, 0xffffffffffffffff, 0x0, 0x0⟩

/-- R558. -/
def R.FLT_STAT : Nat := 0x1280000
def F.FLT_STAT_MGT_SATURATED : Fld := ⟨63, 1⟩
def F.FLT_STAT_FUSE_FULL : Fld := ⟨62, 1⟩
def F.FLT_STAT_FUSES_USED : Fld := ⟨32, 8⟩
def F.FLT_STAT_FURLS : Fld := ⟨16, 16⟩
def F.FLT_STAT_CORE_LOST : Fld := ⟨2, 1⟩
def F.FLT_STAT_SWAP : Fld := ⟨1, 1⟩
def F.FLT_STAT_EVENT : Fld := ⟨0, 1⟩
def D.FLT_STAT : RegDesc := ⟨0x1280000, [], 0x0, 0x7, 0xffff0000, 0x0, 0x0⟩

/-- R558. -/
def R.FLT_MAP : Nat := 0x1280008
def F.FLT_MAP_RETIRED_PHYS : Fld := ⟨36, 18⟩
def F.FLT_MAP_SPARE_PHYS : Fld := ⟨18, 18⟩
def F.FLT_MAP_ACTIVE : Fld := ⟨0, 16⟩
def D.FLT_MAP : RegDesc := ⟨0x1280008, [], 0x0, 0x0, 0x0, 0x0, 0x0⟩

/-- R558. -/
def R.FLT_CMD : Nat := 0x1280010
def F.FLT_CMD_FURL : Fld := ⟨8, 1⟩
def F.FLT_CMD_CORE : Fld := ⟨0, 4⟩
def D.FLT_CMD : RegDesc := ⟨0x1280010, [], 0x0, 0x0, 0x0, 0x10f, 0x0⟩

/-- R558. -/
def R.FLT_POLICY : Nat := 0x1280018
def F.FLT_POLICY_WINDOW_MS : Fld := ⟨48, 16⟩
def F.FLT_POLICY_COLUMN_THRESH : Fld := ⟨32, 8⟩
def F.FLT_POLICY_PENNANT_THRESH : Fld := ⟨16, 8⟩
def F.FLT_POLICY_RESIDUE_THRESH : Fld := ⟨8, 8⟩
def F.FLT_POLICY_AUTO_FURL : Fld := ⟨0, 1⟩
def D.FLT_POLICY : RegDesc := ⟨0x1280018, [], 0xffff00ff00ffff01, 0x0, 0x0, 0x0, 0x3e8001000020201⟩

/-- R558. -/
def R.FLT_ROLL_CTL : Nat := 0x1280020
def F.FLT_ROLL_CTL_INTERVAL_S : Fld := ⟨32, 32⟩
def F.FLT_ROLL_CTL_ENABLE : Fld := ⟨0, 1⟩
def D.FLT_ROLL_CTL : RegDesc := ⟨0x1280020, [], 0xffffffff00000001, 0x0, 0x0, 0x0, 0x25800000001⟩

/-- R558. -/
def R.FLT_ROLL_STAT : Nat := 0x1280028
def F.FLT_ROLL_STAT_STATE : Fld := ⟨61, 3⟩
def F.FLT_ROLL_STAT_PHYS : Fld := ⟨56, 5⟩
def F.FLT_ROLL_STAT_WAS_ACTIVE : Fld := ⟨55, 1⟩
def F.FLT_ROLL_STAT_LOGICAL : Fld := ⟨51, 4⟩
def F.FLT_ROLL_STAT_CYCLES : Fld := ⟨16, 16⟩
def F.FLT_ROLL_STAT_FAILS : Fld := ⟨0, 16⟩
def D.FLT_ROLL_STAT : RegDesc := ⟨0x1280028, [], 0x0, 0x0, 0xffff, 0x0, 0x0⟩

/-- R559. -/
def R.FLT_TEST_REQ : Nat := 0x1280030
def F.FLT_TEST_REQ_SEQ : Fld := ⟨32, 32⟩
def F.FLT_TEST_REQ_TARGET : Fld := ⟨8, 8⟩
def F.FLT_TEST_REQ_KIND : Fld := ⟨0, 2⟩
def D.FLT_TEST_REQ : RegDesc := ⟨0x1280030, [], 0x0, 0x0, 0x0, 0xffffffff0000ff03, 0x0⟩

/-- R559. -/
def R.FLT_TEST_DEADLINE : Nat := 0x1280038
def F.FLT_TEST_DEADLINE_STAMP : Fld := ⟨0, 64⟩
def D.FLT_TEST_DEADLINE : RegDesc := ⟨0x1280038, [], 0xffffffffffffffff, 0x0, 0x0, 0x0, 0x0⟩

/-- R559. -/
def R.FLT_TEST_ADDR : Nat := 0x1280040
def F.FLT_TEST_ADDR_ADDR : Fld := ⟨5, 43⟩
def D.FLT_TEST_ADDR : RegDesc := ⟨0x1280040, [], 0xffffffffffe0, 0x0, 0x0, 0x0, 0x0⟩

/-- R559. -/
def R.FLT_TEST_STAT : Nat := 0x1280048
def F.FLT_TEST_STAT_PENDING : Fld := ⟨60, 4⟩
def F.FLT_TEST_STAT_LAST_STATUS : Fld := ⟨48, 8⟩
def F.FLT_TEST_STAT_LAST_SEQ : Fld := ⟨16, 32⟩
def F.FLT_TEST_STAT_FAIL_UNIT : Fld := ⟨12, 4⟩
def F.FLT_TEST_STAT_FAIL_BANK : Fld := ⟨0, 11⟩
def D.FLT_TEST_STAT : RegDesc := ⟨0x1280048, [], 0x0, 0x0, 0x0, 0x0, 0xffffffff0000⟩

/-- R559. -/
def R.FLT_PEN_STAGE : Nat := 0x1280050
def F.FLT_PEN_STAGE_ADDR : Fld := ⟨12, 36⟩
def D.FLT_PEN_STAGE : RegDesc := ⟨0x1280050, [], 0xfffffffff000, 0x0, 0x0, 0x0, 0x0⟩

/-- R559. -/
def R.FLT_PEN_CMD : Nat := 0x1280058
def F.FLT_PEN_CMD_ALLOW_OLDER : Fld := ⟨1, 1⟩
def F.FLT_PEN_CMD_INSTALL : Fld := ⟨0, 1⟩
def D.FLT_PEN_CMD : RegDesc := ⟨0x1280058, [], 0x0, 0x0, 0x0, 0x3, 0x0⟩

/-- R559. -/
def R.FLT_PEN_STAT : Nat := 0x1280060
def F.FLT_PEN_STAT_VERSION : Fld := ⟨32, 32⟩
def F.FLT_PEN_STAT_SIGNER : Fld := ⟨24, 8⟩
def F.FLT_PEN_STAT_LAST_STATUS : Fld := ⟨16, 8⟩
def F.FLT_PEN_STAT_BUSY : Fld := ⟨0, 1⟩
def D.FLT_PEN_STAT : RegDesc := ⟨0x1280060, [], 0x0, 0x0, 0x0, 0x0, 0xff000000⟩

/-- R559. -/
def R.FLT_EVT_PROD : Nat := 0x1280068
def F.FLT_EVT_PROD_PROD : Fld := ⟨0, 32⟩
def D.FLT_EVT_PROD : RegDesc := ⟨0x1280068, [], 0x0, 0x0, 0x0, 0x0, 0x0⟩

/-- R559. -/
def R.FLT_FUSE_REC (i : Nat) : Nat := 0x1280800 + i * 0x8
def F.FLT_FUSE_REC_RECORD : Fld := ⟨0, 32⟩
def D.FLT_FUSE_REC : RegDesc := ⟨0x1280800, [(128, 0x8)], 0x0, 0x0, 0x0, 0x0, 0x0⟩

/-- R559. -/
def R.FLT_EVT (i j : Nat) : Nat := 0x1281000 + i * 0x20 + j * 0x8
def F.FLT_EVT_WORD : Fld := ⟨0, 64⟩
def D.FLT_EVT : RegDesc := ⟨0x1281000, [(256, 0x20), (4, 0x8)], 0x0, 0x0, 0x0, 0x0, 0x0⟩

/-- R579. -/
def R.PWR_STAT : Nat := 0x1300000
def F.PWR_STAT_BROWNOUT : Fld := ⟨63, 1⟩
def F.PWR_STAT_TRIP : Fld := ⟨62, 1⟩
def F.PWR_STAT_ALERT : Fld := ⟨61, 1⟩
def F.PWR_STAT_HBM_HOT : Fld := ⟨60, 1⟩
def F.PWR_STAT_FAILED_SENSORS : Fld := ⟨48, 8⟩
def F.PWR_STAT_SENSOR_FAIL : Fld := ⟨7, 1⟩
def F.PWR_STAT_CFG_REJECT : Fld := ⟨6, 1⟩
def F.PWR_STAT_CAP_UNMET : Fld := ⟨5, 1⟩
def F.PWR_STAT_DEMAND_SRC : Fld := ⟨2, 2⟩
def D.PWR_STAT : RegDesc := ⟨0x1300000, [], 0x8000000000000000, 0xe0, 0x0, 0x0, 0x0⟩

/-- R580. -/
def R.PWR_CFG : Nat := 0x1300008
def F.PWR_CFG_CAP_W : Fld := ⟨32, 9⟩
def F.PWR_CFG_ICC_MAX_A : Fld := ⟨12, 10⟩
def F.PWR_CFG_ORDER : Fld := ⟨8, 3⟩
def F.PWR_CFG_GAIN : Fld := ⟨0, 7⟩
def D.PWR_CFG : RegDesc := ⟨0x1300008, [], 0x1ff003ff77f, 0x0, 0x0, 0x0, 0x1c200208004⟩

/-- R581. -/
def R.PWR_VDD : Nat := 0x1300010
def F.PWR_VDD_TARGET_MV : Fld := ⟨0, 10⟩
def D.PWR_VDD : RegDesc := ⟨0x1300010, [], 0x3ff, 0x0, 0x0, 0x0, 0x2ee⟩

/-- R581. -/
def R.PWR_THERM_CFG : Nat := 0x1300018
def F.PWR_THERM_CFG_THROTTLE_C : Fld := ⟨16, 8⟩
def F.PWR_THERM_CFG_HYST_C : Fld := ⟨8, 8⟩
def F.PWR_THERM_CFG_ALERT_C : Fld := ⟨0, 8⟩
def D.PWR_THERM_CFG : RegDesc := ⟨0x1300018, [], 0xffffff, 0x0, 0x0, 0x0, 0x6e0569⟩

/-- R582. -/
def R.PWR_MEAS : Nat := 0x1300020
def F.PWR_MEAS_P_DW : Fld := ⟨48, 16⟩
def F.PWR_MEAS_ICC_DA : Fld := ⟨32, 16⟩
def F.PWR_MEAS_TJ_MAX : Fld := ⟨16, 16⟩
def F.PWR_MEAS_TJ_SENSOR : Fld := ⟨8, 6⟩
def F.PWR_MEAS_SEQ : Fld := ⟨0, 8⟩
def D.PWR_MEAS : RegDesc := ⟨0x1300020, [], 0x0, 0x0, 0x0, 0x0, 0x0⟩

/-- R583. -/
def R.PWR_DOMAIN (i : Nat) : Nat := 0x1300040 + i * 0x8
def F.PWR_DOMAIN_THROTTLED_US : Fld := ⟨32, 32⟩
def F.PWR_DOMAIN_RATIO : Fld := ⟨16, 7⟩
def F.PWR_DOMAIN_B_MAX : Fld := ⟨0, 7⟩
def D.PWR_DOMAIN : RegDesc := ⟨0x1300040, [(3, 0x8)], 0x7f, 0x0, 0xffffffff00000000, 0x0, 0x38⟩

/-- R584. -/
def R.PWR_ENERGY : Nat := 0x1300060
def F.PWR_ENERGY_UJ : Fld := ⟨0, 64⟩
def D.PWR_ENERGY : RegDesc := ⟨0x1300060, [], 0x0, 0x0, 0x0, 0x0, 0x0⟩

/-- R585. -/
def R.PWR_TEMP (i : Nat) : Nat := 0x1300100 + i * 0x8
def F.PWR_TEMP_VALID : Fld := ⟨63, 1⟩
def F.PWR_TEMP_HELD : Fld := ⟨62, 1⟩
def F.PWR_TEMP_TEMP : Fld := ⟨0, 16⟩
def D.PWR_TEMP : RegDesc := ⟨0x1300100, [(64, 0x8)], 0x0, 0x0, 0x0, 0x0, 0x0⟩

/-- R604. -/
def R.GLB_BAR2_BASE : Nat := 0x200
def F.GLB_BAR2_BASE_ADDR : Fld := ⟨32, 16⟩
def D.GLB_BAR2_BASE : RegDesc := ⟨0x200, [], 0xffff00000000, 0x0, 0x0, 0x0, 0x0⟩

/-- R604. -/
def R.GLB_HOST_WIN : Nat := 0x208
def F.GLB_HOST_WIN_BASE : Fld := ⟨44, 20⟩
def D.GLB_HOST_WIN : RegDesc := ⟨0x208, [], 0xfffff00000000000, 0x0, 0x0, 0x0, 0x0⟩

/-- R604. -/
def R.GLB_HOST_STAT : Nat := 0x210
def F.GLB_HOST_STAT_HOST_DROPS : Fld := ⟨48, 16⟩
def F.GLB_HOST_STAT_PARTIAL_DROP : Fld := ⟨32, 16⟩
def F.GLB_HOST_STAT_BAD_BAR0 : Fld := ⟨1, 1⟩
def F.GLB_HOST_STAT_LINK_UP : Fld := ⟨0, 1⟩
def D.GLB_HOST_STAT : RegDesc := ⟨0x210, [], 0x0, 0x2, 0xffffffff00000000, 0x0, 0x0⟩

/-- R605. -/
def R.GLB_IRQ_STAT : Nat := 0x300
def F.GLB_IRQ_STAT_TCMP : Fld := ⟨32, 32⟩
def F.GLB_IRQ_STAT_CAUSE : Fld := ⟨0, 32⟩
def D.GLB_IRQ_STAT : RegDesc := ⟨0x300, [], 0x0, 0xffffffff00000000, 0x0, 0x0, 0x0⟩

/-- R605. -/
def R.GLB_IRQ_MASK : Nat := 0x308
def F.GLB_IRQ_MASK_MASK : Fld := ⟨0, 64⟩
def D.GLB_IRQ_MASK : RegDesc := ⟨0x308, [], 0xffffffffffffffff, 0x0, 0x0, 0x0, 0xffffffffffffffff⟩

/-- R605. -/
def R.GLB_IRQ_CFG : Nat := 0x310
def F.GLB_IRQ_CFG_BASE : Fld := ⟨0, 11⟩
def D.GLB_IRQ_CFG : RegDesc := ⟨0x310, [], 0x7ff, 0x0, 0x0, 0x0, 0x0⟩

/-- R606. -/
def R.MGT_STAT : Nat := 0x1400000
def F.MGT_STAT_RUNNING : Fld := ⟨63, 1⟩
def F.MGT_STAT_LINK : Fld := ⟨62, 1⟩
def F.MGT_STAT_SATURATED : Fld := ⟨61, 1⟩
def F.MGT_STAT_SESSION_OPEN : Fld := ⟨60, 1⟩
def F.MGT_STAT_BAD_RX : Fld := ⟨0, 16⟩
def D.MGT_STAT : RegDesc := ⟨0x1400000, [], 0x0, 0x0, 0xffff, 0x0, 0x0⟩

/-- R606. -/
def R.MGT_CFG : Nat := 0x1400008
def F.MGT_CFG_RETX_MS : Fld := ⟨0, 16⟩
def D.MGT_CFG : RegDesc := ⟨0x1400008, [], 0xffff, 0x0, 0x0, 0x0, 0xc8⟩

/-- R606. -/
def R.MGT_HAL_STATE : Nat := 0x1400010
def F.MGT_HAL_STATE_TX_SEQ : Fld := ⟨32, 32⟩
def F.MGT_HAL_STATE_TX_ACKED : Fld := ⟨0, 32⟩
def D.MGT_HAL_STATE : RegDesc := ⟨0x1400010, [], 0x0, 0x0, 0x0, 0x0, 0xffffffffffffffff⟩

/-- R607. -/
def R.MGT_MBOX_IN (i : Nat) : Nat := 0x1400100 + i * 0x8
def F.MGT_MBOX_IN_WORD : Fld := ⟨0, 64⟩
def D.MGT_MBOX_IN : RegDesc := ⟨0x1400100, [(8, 0x8)], 0xffffffffffffffff, 0x0, 0x0, 0x0, 0x0⟩

/-- R607. -/
def R.MGT_MBOX_OUT (i : Nat) : Nat := 0x1400140 + i * 0x8
def F.MGT_MBOX_OUT_WORD : Fld := ⟨0, 64⟩
def D.MGT_MBOX_OUT : RegDesc := ⟨0x1400140, [(8, 0x8)], 0x0, 0x0, 0x0, 0x0, 0x0⟩

/-- R607. -/
def R.MGT_MBOX_IN_CTL : Nat := 0x1400180
def F.MGT_MBOX_IN_CTL_LAST_SEQ : Fld := ⟨32, 32⟩
def F.MGT_MBOX_IN_CTL_POST_REJECT : Fld := ⟨2, 1⟩
def F.MGT_MBOX_IN_CTL_BUSY : Fld := ⟨1, 1⟩
def F.MGT_MBOX_IN_CTL_POST : Fld := ⟨0, 1⟩
def D.MGT_MBOX_IN_CTL : RegDesc := ⟨0x1400180, [], 0x0, 0x4, 0x0, 0x1, 0xffffffff00000000⟩

/-- R607. -/
def R.MGT_MBOX_OUT_CTL : Nat := 0x1400188
def F.MGT_MBOX_OUT_CTL_RELEASE : Fld := ⟨1, 1⟩
def F.MGT_MBOX_OUT_CTL_FULL : Fld := ⟨0, 1⟩
def D.MGT_MBOX_OUT_CTL : RegDesc := ⟨0x1400188, [], 0x0, 0x0, 0x0, 0x2, 0x0⟩

/-- R623. -/
def R.SEC_BOOT_STAT : Nat := 0x1380000
def F.SEC_BOOT_STAT_STAGE : Fld := ⟨60, 4⟩
def F.SEC_BOOT_STAT_BOOT_SRC : Fld := ⟨56, 2⟩
def F.SEC_BOOT_STAT_ROLE : Fld := ⟨55, 1⟩
def F.SEC_BOOT_STAT_FALLBACK : Fld := ⟨54, 1⟩
def F.SEC_BOOT_STAT_ATTEMPTS : Fld := ⟨40, 8⟩
def F.SEC_BOOT_STAT_RESET_CAUSE : Fld := ⟨32, 4⟩
def F.SEC_BOOT_STAT_BOOT_MS : Fld := ⟨0, 32⟩
def D.SEC_BOOT_STAT : RegDesc := ⟨0x1380000, [], 0x0, 0x0, 0x0, 0x0, 0x0⟩

/-- R624. -/
def R.SEC_CTL : Nat := 0x1380008
def F.SEC_CTL_CONFIRM : Fld := ⟨8, 8⟩
def F.SEC_CTL_WARM_RESET : Fld := ⟨0, 1⟩
def D.SEC_CTL : RegDesc := ⟨0x1380008, [], 0x0, 0x0, 0x0, 0xff01, 0x0⟩

/-- R624. -/
def R.SEC_CMD : Nat := 0x1380010
def F.SEC_CMD_TAG : Fld := ⟨48, 16⟩
def F.SEC_CMD_OP : Fld := ⟨0, 3⟩
def D.SEC_CMD : RegDesc := ⟨0x1380010, [], 0x0, 0x0, 0x0, 0xffff000000000007, 0x0⟩

/-- R624. -/
def R.SEC_ARG_ADDR : Nat := 0x1380018
def F.SEC_ARG_ADDR_ADDR : Fld := ⟨3, 45⟩
def D.SEC_ARG_ADDR : RegDesc := ⟨0x1380018, [], 0xfffffffffff8, 0x0, 0x0, 0x0, 0x0⟩

/-- R624. -/
def R.SEC_RESULT : Nat := 0x1380020
def F.SEC_RESULT_TAG : Fld := ⟨48, 16⟩
def F.SEC_RESULT_LAST_STATUS : Fld := ⟨40, 8⟩
def F.SEC_RESULT_LAST_OP : Fld := ⟨37, 3⟩
def F.SEC_RESULT_FLEET_PRESENT : Fld := ⟨3, 1⟩
def F.SEC_RESULT_BURN_FAIL : Fld := ⟨2, 1⟩
def F.SEC_RESULT_CMD_REJECT : Fld := ⟨1, 1⟩
def F.SEC_RESULT_BUSY : Fld := ⟨0, 1⟩
def D.SEC_RESULT : RegDesc := ⟨0x1380020, [], 0x0, 0x2, 0x0, 0x0, 0x0⟩

/-- R625. -/
def R.SEC_KEY_SLOT (i : Nat) : Nat := 0x1380100 + i * 0x8
def F.SEC_KEY_SLOT_STATE : Fld := ⟨0, 2⟩
def D.SEC_KEY_SLOT : RegDesc := ⟨0x1380100, [(4, 0x8)], 0x0, 0x0, 0x0, 0x0, 0x0⟩

/-- R625. -/
def R.SEC_KEY_HASH (i j : Nat) : Nat := 0x1380200 + i * 0x40 + j * 0x8
def F.SEC_KEY_HASH_BYTES : Fld := ⟨0, 64⟩
def D.SEC_KEY_HASH : RegDesc := ⟨0x1380200, [(4, 0x40), (8, 0x8)], 0x0, 0x0, 0x0, 0x0, 0x0⟩

/-- R625. -/
def R.SEC_KEY_STATE (i : Nat) : Nat := 0x1380300 + i * 0x8
def F.SEC_KEY_STATE_BYTES : Fld := ⟨0, 64⟩
def D.SEC_KEY_STATE : RegDesc := ⟨0x1380300, [(8, 0x8)], 0x0, 0x0, 0x0, 0x0, 0x0⟩

/-- The registers of block GLB. -/
def regDescs_glb : List RegDesc :=
  [D.GLB_CAPS, D.GLB_STEP_RATE, D.GLB_STEP_ALARM, D.GLB_BUDGET_MODE, D.GLB_BAR2_BASE, D.GLB_HOST_WIN, D.GLB_HOST_STAT, D.GLB_IRQ_STAT, D.GLB_IRQ_MASK, D.GLB_IRQ_CFG]

/-- The registers of block FAB. -/
def regDescs_fab : List RegDesc :=
  [D.FAB_CMD, D.FAB_STAGE_BASE, D.FAB_STAGE_LEN, D.FAB_STATUS, D.FAB_RESTREAM_CTL, D.FAB_LAST_OUTAGE, D.FAB_CONFIG_DIGEST, D.FAB_STAGED_DIGEST, D.FAB_CANTON]

/-- The registers of block TIME. -/
def regDescs_time : List RegDesc :=
  [D.TIME_NOW, D.TIME_LATCH, D.TIME_STEP, D.TIME_RATE, D.TIME_CTL, D.TIME_STAT, D.TIME_PTP_CFG, D.TIME_ALT_CTL, D.TIME_ALT_RATE, D.TIME_ALT_OFFSET, D.TIME_PPS_CTL, D.TIME_CMP_CFG, D.TIME_CMP_TIMING, D.TIME_CMP_NEXT, D.TIME_CMP_ARM, D.TIME_EVT_CTL, D.TIME_EVT_STAMP]

/-- The registers of block IMG. -/
def regDescs_img : List RegDesc :=
  [D.IMG_GLB_STAT, D.IMG_PORT_CFG, D.IMG_PORT_CTL, D.IMG_PORT_ERR, D.IMG_ETH_CFG, D.IMG_ETH_STAT, D.IMG_SRC_CFG, D.IMG_SRC_LIMIT, D.IMG_SRC_JPEG, D.IMG_SRC_STAT, D.IMG_SRC_DROP, D.IMG_SRC_RELEASE, D.IMG_DEC_STAT, D.EDGE_STAT, D.EDGE_CNT]

/-- The registers of block TOK. -/
def regDescs_tok : List RegDesc :=
  [D.TOK_CFG, D.TOK_DICT_BASE, D.TOK_STAT]

/-- The registers of block CORE. -/
def regDescs_core : List RegDesc :=
  [D.CORE_STATUS, D.CORE_STEPS, D.CORE_ERR, D.CORE_ERR_ADDR, D.CORE_ERR_INFO, D.CORE_CNT, D.CORE_PERF_MAT, D.CORE_PERF_VX, D.CORE_INJECT]

/-- The registers of block SPD. -/
def regDescs_spd : List RegDesc :=
  [D.SPD_STAT, D.SPD_SCRUB, D.SPD_REPAIR, D.SPD_BANK_OWNER, D.SPD_BANK_CFG, D.SPD_BANK_PWR, D.SPD_BANK_STAT]

/-- The registers of block KV. -/
def regDescs_kv : List RegDesc :=
  [D.KV_STAT, D.KV_CNT, D.KV_ERR, D.KV_POOL_CFG, D.KV_POOL_USE, D.KV_IDX_CFG, D.KV_IDX_USE, D.KV_CTX_STAT, D.KV_CTX_MAP, D.KV_CTX_CHARGE, D.KV_CTX_PARAM]

/-- The registers of block SOL. -/
def regDescs_sol : List RegDesc :=
  [D.SOL_STAT, D.SOL_PROGRESS, D.SOL_CNT, D.SOL_STEPS]

/-- The registers of block CTL. -/
def regDescs_ctl : List RegDesc :=
  [D.CTL_STAT, D.CTL_GROUP_CFG, D.CTL_GROUP_CTL, D.CTL_GROUP_STAT, D.CTL_GROUP_LAST, D.CTL_SLOT_CFG, D.CTL_SLOT_FLAGS, D.CTL_SLOT_IN, D.CTL_SLOT_OUT, D.CTL_SEL_STAT, D.CTL_TRACE_CFG, D.CTL_TRACE_TRIG, D.CTL_TRACE_STAT, D.CTL_TRACE_STAMP, D.CTL_PROBE]

/-- The registers of block SIO. -/
def regDescs_sio : List RegDesc :=
  [D.SIO_SP_CFG, D.SIO_SP_WORDA, D.SIO_SP_WORDB, D.SIO_SP_STAT, D.SIO_SP_RAW, D.SIO_SP_STAMP, D.SIO_SP_VAL0, D.SIO_SP_VAL1, D.SIO_CONV_CFG, D.SIO_ACT_CFG, D.SIO_ACT_TIMING, D.SIO_ACT_STAT, D.SIO_ACT_POS]

/-- The registers of block CAN. -/
def regDescs_can : List RegDesc :=
  [D.CAN_CFG, D.CAN_NBT, D.CAN_DBT, D.CAN_STAT, D.CAN_CTL, D.CAN_MB_CTRL, D.CAN_MB_ID, D.CAN_MB_STAMP, D.CAN_MB_DATA]

/-- The registers of block ETH. -/
def regDescs_eth : List RegDesc :=
  [D.ETH_CFG, D.ETH_MAC, D.ETH_IP4, D.ETH_IP6_HI, D.ETH_IP6_LO, D.ETH_RX, D.ETH_STAT]

/-- The registers of block SCH. -/
def regDescs_sch : List RegDesc :=
  [D.SCH_STAT, D.SCH_CFG, D.SCH_CANTON_CFG, D.SCH_CANTON_ENERGY, D.SCH_CANTON_LOAD, D.SCH_CANTON_THROTTLE, D.SCH_REG, D.SCH_CTX_STAT, D.SCH_CTX_SEED, D.SCH_CTX_SAVE, D.SCH_CTX_CNT]

/-- The registers of block QUE. -/
def regDescs_que : List RegDesc :=
  [D.QUE_DOORBELL, D.QUE_CFG, D.QUE_CMD_RING, D.QUE_CPL_RING, D.QUE_SEQ, D.QUE_RING, D.QUE_CTL, D.QUE_ENERGY]

/-- The registers of block HBM. -/
def regDescs_hbm : List RegDesc :=
  [D.HBM_STAT, D.HBM_ERR_ADDR, D.HBM_RETIRE_REQ, D.HBM_RETRAIN_CTL, D.HBM_SCRUB, D.HBM_STACK_ECC, D.HBM_STACK_STAT]

/-- The registers of block CHD. -/
def regDescs_chd : List RegDesc :=
  [D.CHD_CFG, D.CHD_CTL, D.CHD_ENUM, D.CHD_TSYNC, D.CHD_PRESENT, D.CHD_PORT_CFG, D.CHD_PORT_STAT, D.CHD_PORT_CNT]

/-- The registers of block DET. -/
def regDescs_det : List RegDesc :=
  [D.DET_LAUNCH_AT, D.DET_LAUNCH_CTL, D.DET_LAUNCH_MASK, D.DET_LAUNCH_STAT, D.DET_LAUNCH_FIRED, D.DET_GATE, D.DET_LS_CFG, D.DET_LS_STAT, D.DET_LS_MATCHES, D.DET_SETTINGS_SEQ, D.DET_SETTINGS_DIGEST, D.DET_LS_QUEUE, D.DET_LS_FEED, D.DET_REC_BASE, D.DET_REPLAY_BASE, D.DET_REC_LEN, D.DET_REPLAY_LEN, D.DET_REC_CTL, D.DET_REC_STAT, D.DET_REC_PROD, D.DET_REPLAY_CTL, D.DET_REPLAY_OFFSET, D.DET_REPLAY_STAT, D.DET_REPLAY_CONS]

/-- The registers of block PLB. -/
def regDescs_plb : List RegDesc :=
  [D.PLB_STAT, D.PLB_FIRST_STAMP, D.PLB_VALID, D.PLB_LATCHED, D.PLB_ACK, D.PLB_CTL, D.PLB_CFG, D.PLB_CAN, D.PLB_COVERAGE, D.PLB_PENNANT, D.PLB_ACT_VALID, D.PLB_INBOX, D.PLB_REG_CFG, D.PLB_REG_STAT, D.PLB_VERDICT, D.PLB_REG_CNT]

/-- The registers of block FLT. -/
def regDescs_flt : List RegDesc :=
  [D.FLT_STAT, D.FLT_MAP, D.FLT_CMD, D.FLT_POLICY, D.FLT_ROLL_CTL, D.FLT_ROLL_STAT, D.FLT_TEST_REQ, D.FLT_TEST_DEADLINE, D.FLT_TEST_ADDR, D.FLT_TEST_STAT, D.FLT_PEN_STAGE, D.FLT_PEN_CMD, D.FLT_PEN_STAT, D.FLT_EVT_PROD, D.FLT_FUSE_REC, D.FLT_EVT]

/-- The registers of block PWR. -/
def regDescs_pwr : List RegDesc :=
  [D.PWR_STAT, D.PWR_CFG, D.PWR_VDD, D.PWR_THERM_CFG, D.PWR_MEAS, D.PWR_DOMAIN, D.PWR_ENERGY, D.PWR_TEMP]

/-- The registers of block MGT. -/
def regDescs_mgt : List RegDesc :=
  [D.MGT_STAT, D.MGT_CFG, D.MGT_HAL_STATE, D.MGT_MBOX_IN, D.MGT_MBOX_OUT, D.MGT_MBOX_IN_CTL, D.MGT_MBOX_OUT_CTL]

/-- The registers of block SEC. -/
def regDescs_sec : List RegDesc :=
  [D.SEC_BOOT_STAT, D.SEC_CTL, D.SEC_CMD, D.SEC_ARG_ADDR, D.SEC_RESULT, D.SEC_KEY_SLOT, D.SEC_KEY_HASH, D.SEC_KEY_STATE]

/-- The block of BAR0 that holds an offset (R39). -/
def regDescsOf (off : Nat) : List RegDesc :=
  if off < 0x100000 then regDescs_glb else
  if off < 0x200000 then regDescs_fab else
  if off < 0x300000 then regDescs_time else
  if off < 0x380000 then regDescs_img else
  if off < 0x400000 then regDescs_tok else
  if off < 0x600000 then regDescs_core else
  if off < 0x700000 then regDescs_spd else
  if off < 0x780000 then regDescs_kv else
  if off < 0x800000 then regDescs_sol else
  if off < 0x880000 then regDescs_ctl else
  if off < 0x900000 then regDescs_sio else
  if off < 0x980000 then regDescs_can else
  if off < 0xa00000 then regDescs_eth else
  if off < 0xc00000 then regDescs_sch else
  if off < 0x1000000 then regDescs_que else
  if off < 0x1100000 then regDescs_hbm else
  if off < 0x1180000 then regDescs_chd else
  if off < 0x1200000 then regDescs_det else
  if off < 0x1280000 then regDescs_plb else
  if off < 0x1300000 then regDescs_flt else
  if off < 0x1380000 then regDescs_pwr else
  if off < 0x1400000 then regDescs_sec else
  if off < 0x1440000 then regDescs_mgt else
  []

/-- Whether a distance from a register's base is one of its repeats: each dimension is a count and a stride, the largest stride first. -/
def dimsHit : List (Nat × Nat) → Nat → Bool
  | [], d => d == 0
  | (c, s) :: r, d => decide (d / s < c) && dimsHit r (d % s)

/-- Whether a register sits at an offset. -/
def RegDesc.hit (d : RegDesc) (off : Nat) : Bool := decide (d.base ≤ off) && dimsHit d.dims (off - d.base)

/-- The register at an offset, none where the offset is unassigned (R39). -/
def regAt (off : Nat) : Option RegDesc := (regDescsOf off).find? (fun d => d.hit off)

/-- The reset value of the register at an offset; an unassigned offset reads as zero (R39). -/
def resetVal (off : Nat) : BitVec 64 :=
  match regAt off with
  | some d => d.reset
  | none => 0

end Sys2Proof.Machine
end

