-- ==== Sys2Proof/Machine/Num.lean ====
section
/-! DEFINITION. Number formats: the 18 formats of R172, exact values, rounding (R184, R185), conversions and their flags (R186, R187), and the arithmetic built on them. -/

namespace Sys2Proof.Machine

/-- The 18 number formats, in the order of their FMT codes (R172). -/
inductive Fmt where
  | fp64 | fp32 | fp16 | bf16 | e4m3 | e5m2 | e3m2 | e2m3 | e2m1 | e8m0
  | int32 | int16 | int8 | uint8 | int4 | uint4 | tern2 | qfix32
  deriving DecidableEq, Repr

/-- The format a 5-bit FMT code names; 0x12 to 0x1F are reserved (R172, R173). -/
def Fmt.ofCode : Nat → Option Fmt
  | 0 => some .fp64 | 1 => some .fp32 | 2 => some .fp16 | 3 => some .bf16 | 4 => some .e4m3
  | 5 => some .e5m2 | 6 => some .e3m2 | 7 => some .e2m3 | 8 => some .e2m1 | 9 => some .e8m0
  | 10 => some .int32 | 11 => some .int16 | 12 => some .int8 | 13 => some .uint8
  | 14 => some .int4 | 15 => some .uint4 | 16 => some .tern2 | 17 => some .qfix32
  | _ => none

/-- The width of a format's codes (R172). -/
def Fmt.bits : Fmt → Nat
  | .fp64 => 64 | .fp32 => 32 | .fp16 => 16 | .bf16 => 16 | .e4m3 => 8 | .e5m2 => 8
  | .e3m2 => 6 | .e2m3 => 6 | .e2m1 => 4 | .e8m0 => 8 | .int32 => 32 | .int16 => 16
  | .int8 => 8 | .uint8 => 8 | .int4 => 4 | .uint4 => 4 | .tern2 => 2 | .qfix32 => 32

/-- What a floating-point format does with an exponent field of all ones (R172): infinities and NaN codes, the single NaN code of FP8E4M3, or finite values only. -/
inductive TopCodes where
  | ieee
  | nanOnly
  | finite
  deriving DecidableEq, Repr

/-- The layout of a floating-point format: exponent bits, mantissa bits, bias and top codes (R172). -/
structure FloatFmt where
  eb : Nat
  mb : Nat
  bias : Nat
  top : TopCodes
  deriving DecidableEq, Repr

/-- The floating-point layout of a format, none for E8M0 and the integer formats (R172). -/
def Fmt.float? : Fmt → Option FloatFmt
  | .fp64 => some ⟨11, 52, 1023, .ieee⟩
  | .fp32 => some ⟨8, 23, 127, .ieee⟩
  | .fp16 => some ⟨5, 10, 15, .ieee⟩
  | .bf16 => some ⟨8, 7, 127, .ieee⟩
  | .e4m3 => some ⟨4, 3, 7, .nanOnly⟩
  | .e5m2 => some ⟨5, 2, 15, .ieee⟩
  | .e3m2 => some ⟨3, 2, 3, .finite⟩
  | .e2m3 => some ⟨2, 3, 1, .finite⟩
  | .e2m1 => some ⟨2, 1, 1, .finite⟩
  | _ => none

/-- The range of an integer format, low and high (R174). -/
def Fmt.int? : Fmt → Option (Int × Int)
  | .int32 => some (-2147483648, 2147483647)
  | .int16 => some (-32768, 32767)
  | .int8 => some (-128, 127)
  | .uint8 => some (0, 255)
  | .int4 => some (-8, 7)
  | .uint4 => some (0, 15)
  | _ => none

/-- An exact value: a NaN, an infinity, or (−1)^neg × m × 2^e, where m = 0 is a signed zero. -/
inductive Val where
  | nan
  | inf (neg : Bool)
  | fin (neg : Bool) (m : Nat) (e : Int)
  deriving DecidableEq, Repr

/-- The format flags of R186, FMT_FLAGS, as one 5-bit set. -/
abbrev FmtFlags := BitVec 5

def flagSat : FmtFlags := 0x01
def flagOvfInf : FmtFlags := 0x02
def flagNanIn : FmtFlags := 0x04
def flagTernIllegal : FmtFlags := 0x08
def flagFmtIllegal : FmtFlags := 0x10

/-- The exact value of an integer. -/
def Val.ofInt (i : Int) : Val := .fin (decide (i < 0)) i.natAbs 0

/-- The value of a code of a floating-point layout (R172). -/
def FloatFmt.decode (f : FloatFmt) (c : Nat) : Val :=
  let s := decide (c / 2 ^ (f.eb + f.mb) % 2 = 1)
  let e := c / 2 ^ f.mb % 2 ^ f.eb
  let m := c % 2 ^ f.mb
  let ones := 2 ^ f.eb - 1
  if f.top = .ieee ∧ e = ones then (if m = 0 then .inf s else .nan)
  else if f.top = .nanOnly ∧ e = ones ∧ m = 2 ^ f.mb - 1 then .nan
  else if e = 0 then .fin s m (1 - (f.bias : Int) - (f.mb : Int))
  else .fin s (2 ^ f.mb + m) ((e : Int) - (f.bias : Int) - (f.mb : Int))

/-- A two's complement code of w bits as an integer. -/
def signExt (w c : Nat) : Int :=
  let v := c % 2 ^ w
  if v < 2 ^ (w - 1) then (v : Int) else (v : Int) - (2 ^ w : Nat)

/-- The value of a code of a format and the flags its reading sets: NAN_IN for a NaN, TERN_ILLEGAL for the TERN2 code 10 (R177, R178, R186). QFIX32 is read with the binary point q (R179). -/
def Fmt.decode (f : Fmt) (c : Nat) (q : Nat := 0) : Val × FmtFlags :=
  match f.float? with
  | some l =>
    let v := l.decode c
    (v, if v = .nan then flagNanIn else 0)
  | none =>
    match f with
    | .e8m0 => if c % 256 = 255 then (.nan, flagNanIn) else (.fin false 1 (((c % 256 : Nat) : Int) - 127), 0)
    | .int32 => (.ofInt (signExt 32 c), 0)
    | .int16 => (.ofInt (signExt 16 c), 0)
    | .int8 => (.ofInt (signExt 8 c), 0)
    | .uint8 => (.ofInt ((c % 256 : Nat) : Int), 0)
    | .int4 => (.ofInt (signExt 4 c), 0)
    | .uint4 => (.ofInt ((c % 16 : Nat) : Int), 0)
    | .tern2 =>
      if c % 4 = 1 then (.ofInt 1, 0)
      else if c % 4 = 3 then (.ofInt (-1), 0)
      else if c % 4 = 2 then (.ofInt 0, flagTernIllegal)
      else (.ofInt 0, 0)
    | _ =>
      let n := signExt 32 c
      (.fin (decide (n < 0)) n.natAbs (-(q : Int)), 0)

/-- The canonical NaN of a floating-point layout with NaN codes (R183). -/
def FloatFmt.nan (f : FloatFmt) : Nat :=
  match f.top with
  | .ieee => (2 ^ f.eb - 1) * 2 ^ f.mb + 2 ^ (f.mb - 1)
  | .nanOnly => 2 ^ (f.eb + f.mb) - 1
  | .finite => 0

/-- The code of the largest finite magnitude of a layout (R174). -/
def FloatFmt.maxCode (f : FloatFmt) : Nat :=
  match f.top with
  | .ieee => (2 ^ f.eb - 1) * 2 ^ f.mb - 1
  | .nanOnly => 2 ^ (f.eb + f.mb) - 2
  | .finite => 2 ^ (f.eb + f.mb) - 1

/-- Puts a sign on the magnitude code of a layout. -/
def FloatFmt.withSign (f : FloatFmt) (neg : Bool) (mag : Nat) : Nat :=
  (if neg then 2 ^ (f.eb + f.mb) else 0) + mag

/-- The 16-bit draw of stochastic rounding (R185). -/
def srDraw (seed stream index : BitVec 64) : Nat :=
  let z := seed + stream * 0x9E3779B97F4A7C15#64 + index * 0xD1B54A32D192ED03#64
  let z := (z ^^^ (z >>> 30)) * 0xBF58476D1CE4E5B9#64
  let z := (z ^^^ (z >>> 27)) * 0x94D049BB133111EB#64
  let z := z ^^^ (z >>> 31)
  (z >>> 48).toNat

/-- Rounds the non-negative number n / 2^k to an integer (R184, R185); draw is the number drawn for stochastic rounding. -/
def roundShift (rnd : Rnd) (draw n k : Nat) : Nat :=
  let lo := n / 2 ^ k
  let r := n % 2 ^ k
  if r = 0 then lo
  else match rnd with
    | .rtz => lo
    | .rne => if 2 * r > 2 ^ k ∨ (2 * r = 2 ^ k ∧ lo % 2 = 1) then lo + 1 else lo
    | .sr => if draw < 65536 * r / 2 ^ k then lo + 1 else lo

/-- Scales m × 2^e to units of 2^q and rounds to an integer. -/
def roundTo (rnd : Rnd) (draw m : Nat) (e q : Int) : Nat :=
  if q ≤ e then m * 2 ^ (e - q).toNat else roundShift rnd draw m (q - e).toNat

/-- Rounds a value to a floating-point layout: the magnitude code before any overflow rule, unbounded above (R184, R185). A result below the smallest subnormal is zero (R187). -/
def FloatFmt.roundMag (f : FloatFmt) (rnd : Rnd) (draw m : Nat) (e : Int) : Nat :=
  if m = 0 then 0
  else
    let emin : Int := 1 - (f.bias : Int)
    let ex : Int := max ((Nat.log2 m : Int) + e) emin
    let n := roundTo rnd draw m e (ex - (f.mb : Int))
    if n < 2 ^ f.mb then n
    else (ex + (f.bias : Int) - 1).toNat * 2 ^ f.mb + n

/-- Does the magnitude m × 2^e exceed the layout's largest finite value, compared exactly. -/
def FloatFmt.exceeds (f : FloatFmt) (m : Nat) (e : Int) : Bool :=
  let big := 2 ^ f.mb + f.maxCode % 2 ^ f.mb
  let ex : Int := (f.maxCode / 2 ^ f.mb : Nat) - (f.bias : Int) - (f.mb : Int)
  if ex ≤ e then decide (big < m * 2 ^ (e - ex).toNat) else decide (big * 2 ^ (ex - e).toNat < m)

/-- Converts a value to a floating-point layout with the flags of R186, by the table of R187. Where too large a value takes the largest finite code (the layouts without infinities, and RTZ), SAT is set as soon as the exact value exceeds the largest finite one, as R189's sentence and example have it; where it takes an infinity, overflow is judged on the rounded magnitude (DEDUCED, log 9). -/
def FloatFmt.encode (f : FloatFmt) (rnd : Rnd) (draw : Nat) (v : Val) : Nat × FmtFlags :=
  match v with
  | .nan => (f.nan, flagNanIn)
  | .inf s =>
    match f.top with
    | .ieee => (f.withSign s ((2 ^ f.eb - 1) * 2 ^ f.mb), 0)
    | _ => (f.withSign s f.maxCode, flagSat)
  | .fin s m e =>
    if f.exceeds m e && (f.top != .ieee || rnd == .rtz) then (f.withSign s f.maxCode, flagSat)
    else
      let mag := f.roundMag rnd draw m e
      if mag ≤ f.maxCode then (f.withSign s mag, 0)
      else (f.withSign s ((2 ^ f.eb - 1) * 2 ^ f.mb), flagOvfInf)

/-- Rounds a finite value to an integer. -/
def roundInt (rnd : Rnd) (draw : Nat) (s : Bool) (m : Nat) (e : Int) : Int :=
  let n := roundTo rnd draw m e 0
  if s then -(n : Int) else (n : Int)

/-- Clamps an integer to a range and says whether it had to. -/
def clampInt (lo hi i : Int) : Int × Bool :=
  if i < lo then (lo, true) else if hi < i then (hi, true) else (i, false)

/-- The two's complement code of an integer in w bits. -/
def toTwos (w : Nat) (i : Int) : Nat := (i % ((2 ^ w : Nat) : Int)).toNat

/-- Converts a value to an integer format by R187: the limit with SAT beyond the range or for an infinity, 0 with NAN_IN for a NaN. -/
def encodeInt (lo hi : Int) (w : Nat) (rnd : Rnd) (draw : Nat) (v : Val) : Nat × FmtFlags :=
  match v with
  | .nan => (0, flagNanIn)
  | .inf s => (toTwos w (if s then lo else hi), flagSat)
  | .fin s m e =>
    let r := clampInt lo hi (roundInt rnd draw s m e)
    (toTwos w r.1, if r.2 then flagSat else 0)

/-- Converts a value to E8M0 by R187: the floor of log2 of the magnitude, clamped with SAT; zero gives 0x00; an infinity or a NaN gives 0xFF with NAN_IN. -/
def encodeE8M0 (v : Val) : Nat × FmtFlags :=
  match v with
  | .fin _ m e =>
    if m = 0 then (0, 0)
    else
      let r := clampInt (-127) 127 ((Nat.log2 m : Int) + e)
      ((r.1 + 127).toNat, if r.2 then flagSat else 0)
  | _ => (255, flagNanIn)

/-- Converts a value to a format (R187). Into TERN2 there is no conversion (R177): the code 0. Into QFIX32 the value is scaled by 2^q and rounded to nearest even, saturating without SAT (R188). -/
def Fmt.encode (f : Fmt) (rnd : Rnd) (draw : Nat) (v : Val) (q : Nat := 0) : Nat × FmtFlags :=
  match f.float? with
  | some l => l.encode rnd draw v
  | none =>
    match f.int? with
    | some (lo, hi) => encodeInt lo hi f.bits rnd draw v
    | none =>
      match f with
      | .e8m0 => encodeE8M0 v
      | .qfix32 =>
        match v with
        | .fin s m e => ((encodeInt (-2147483648) 2147483647 32 .rne 0 (.fin s m (e + (q : Int)))).1, 0)
        | .inf s => (toTwos 32 (if s then -2147483648 else 2147483647), 0)
        | .nan => (0, flagNanIn)
      | _ => (0, 0)

/-- Negation; a NaN stays a NaN (R183). -/
def Val.neg : Val → Val
  | .nan => .nan
  | .inf s => .inf (!s)
  | .fin s m e => .fin (!s) m e

/-- The magnitude. -/
def Val.abs : Val → Val
  | .nan => .nan
  | .inf _ => .inf false
  | .fin _ m e => .fin false m e

/-- The signed integer of a mantissa at a common exponent. -/
def alignTo (s : Bool) (m : Nat) (e q : Int) : Int :=
  let n : Int := ((m * 2 ^ (e - q).toNat : Nat) : Int)
  if s then -n else n

/-- The exact sum (IEEE 754-2019): opposite infinities give a NaN; an exact zero of operands of unlike sign is +0. -/
def Val.add : Val → Val → Val
  | .nan, _ => .nan
  | _, .nan => .nan
  | .inf a, .inf b => if a = b then .inf a else .nan
  | .inf a, .fin _ _ _ => .inf a
  | .fin _ _ _, .inf b => .inf b
  | .fin a m e, .fin b n f =>
    let q := min e f
    let t := alignTo a m e q + alignTo b n f q
    if t = 0 then .fin (a && b) 0 q else .fin (decide (t < 0)) t.natAbs q

/-- The exact difference. -/
def Val.sub (x y : Val) : Val := x.add y.neg

/-- The exact product (IEEE 754-2019): an infinity times zero gives a NaN. -/
def Val.mul : Val → Val → Val
  | .nan, _ => .nan
  | _, .nan => .nan
  | .inf a, .inf b => .inf (a != b)
  | .inf a, .fin b n _ => if n = 0 then .nan else .inf (a != b)
  | .fin a m _, .inf b => if m = 0 then .nan else .inf (a != b)
  | .fin a m e, .fin b n f => .fin (a != b) (m * n) (e + f)

/-- The quotient with enough bits and a sticky bit, so that one rounding of it to any format of at most 64 bits is the correctly rounded quotient; a finite number by zero is an infinity and 0/0 a NaN. -/
def Val.div : Val → Val → Val
  | .nan, _ => .nan
  | _, .nan => .nan
  | .inf _, .inf _ => .nan
  | .inf a, .fin b _ _ => .inf (a != b)
  | .fin a _ _, .inf b => .fin (a != b) 0 0
  | .fin a m e, .fin b n f =>
    if n = 0 then (if m = 0 then .nan else .inf (a != b))
    else if m = 0 then .fin (a != b) 0 0
    else
      let k := 130 + Nat.log2 n
      let num := m * 2 ^ k
      .fin (a != b) (2 * (num / n) + (if num % n = 0 then 0 else 1)) (e - f - (k : Int) - 1)

/-- The integer square root, one bit at a time from bit `fuel - 1` down. -/
def isqrtFrom (n : Nat) : Nat → Nat → Nat
  | 0, r => r
  | i + 1, r => if (r + 2 ^ i) * (r + 2 ^ i) ≤ n then isqrtFrom n i (r + 2 ^ i) else isqrtFrom n i r

/-- The floor of the square root. -/
def isqrt (n : Nat) : Nat := isqrtFrom n (Nat.log2 n / 2 + 1) 0

/-- The square root with enough bits and a sticky bit; a negative number other than −0 gives a NaN. -/
def Val.sqrt : Val → Val
  | .nan => .nan
  | .inf s => if s then .nan else .inf false
  | .fin s m e =>
    if m = 0 then .fin s 0 0
    else if s then .nan
    else
      let k : Nat := 256 + (e % 2).toNat
      let num := m * 2 ^ k
      let r := isqrt num
      .fin false (2 * r + (if r * r = num then 0 else 1)) ((e - (k : Int)) / 2 - 1)

/-- The order of two values, where a NaN is below nothing and nothing below it. -/
def Val.lt : Val → Val → Bool
  | .nan, _ => false
  | _, .nan => false
  | .inf a, .inf b => a && !b
  | .inf a, .fin _ _ _ => a
  | .fin _ _ _, .inf b => !b
  | .fin a m e, .fin b n f =>
    let q := min e f
    decide (alignTo a m e q < alignTo b n f q)

/-- The minimum; a NaN operand gives a NaN (R218). Of two equal values, as of the two zeros, the first is taken, but −0 is below +0. -/
def Val.min (x y : Val) : Val :=
  match x, y with
  | .nan, _ => .nan
  | _, .nan => .nan
  | .fin a 0 _, .fin b 0 _ => .fin (a || b) 0 0
  | _, _ => if y.lt x then y else x

/-- The maximum; a NaN operand gives a NaN (R218). −0 is below +0. -/
def Val.max (x y : Val) : Val :=
  match x, y with
  | .nan, _ => .nan
  | _, .nan => .nan
  | .fin a 0 _, .fin b 0 _ => .fin (a && b) 0 0
  | _, _ => if x.lt y then y else x

/-- An FP32 code: the pattern of the 32 bits of a value rounded once to nearest even. -/
def toF32 (v : Val) : Nat := ((Fmt.encode .fp32 .rne 0 v).1)

/-- The value of an FP32 code. -/
def ofF32 (c : Nat) : Val := (Fmt.decode .fp32 c).1

/-- A value rounded once to FP32. -/
def roundF32 (v : Val) : Val := ofF32 (toF32 v)

/-- An FP64 code of a value rounded once to nearest even. -/
def toF64 (v : Val) : BitVec 64 := BitVec.ofNat 64 (Fmt.encode .fp64 .rne 0 v).1

/-- The value of an FP64 code. -/
def ofF64 (c : BitVec 64) : Val := (Fmt.decode .fp64 c.toNat).1

/-- FP64 operations with one rounding (R218, R183). -/
def f64Add (a b : BitVec 64) : BitVec 64 := toF64 ((ofF64 a).add (ofF64 b))
def f64Sub (a b : BitVec 64) : BitVec 64 := toF64 ((ofF64 a).sub (ofF64 b))
def f64Mul (a b : BitVec 64) : BitVec 64 := toF64 ((ofF64 a).mul (ofF64 b))
def f64Fma (a b c : BitVec 64) : BitVec 64 := toF64 (((ofF64 a).mul (ofF64 b)).add (ofF64 c))
def f64Div (a b : BitVec 64) : BitVec 64 := toF64 ((ofF64 a).div (ofF64 b))
def f64Sqrt (a : BitVec 64) : BitVec 64 := toF64 (ofF64 a).sqrt
def f64Min (a b : BitVec 64) : BitVec 64 := toF64 ((ofF64 a).min (ofF64 b))
def f64Max (a b : BitVec 64) : BitVec 64 := toF64 ((ofF64 a).max (ofF64 b))
def f64Lt (a b : BitVec 64) : Bool := (ofF64 a).lt (ofF64 b)

/-- The FP64 of a signed 64-bit integer, rounded to nearest even (FCVT_FI, R218). -/
def f64OfInt (g : BitVec 64) : BitVec 64 := toF64 (.ofInt g.toInt)

/-- A signed 64-bit integer of an FP64, rounded to nearest even and saturating; a NaN gives 0 (FCVT_IF, R218). -/
def f64ToInt (a : BitVec 64) : BitVec 64 :=
  BitVec.ofNat 64 (encodeInt (-9223372036854775808) 9223372036854775807 64 .rne 0 (ofF64 a)).1

/-- The clamp of the exponent of a block scale: floor of log2 of the largest magnitude minus the exponent of the destination's largest finite value (R189). -/
def blockEmax : Fmt → Int
  | .e4m3 => 8 | .e5m2 => 15 | .e3m2 => 4 | .e2m3 => 2 | _ => 2

end Sys2Proof.Machine
end

