-- ==== Sys2Proof/Machine/Store.lean ====
section
/-! DEFINITION. The canonical store: a table from numbers to values held as a list of the entries that differ from the table's default, in strictly rising order of key. Registers, memory and every table of the state are stores, so equal tables are equal data. -/

namespace Sys2Proof.Machine

/-- Reads a key; a key not listed reads as the default d gives it. -/
def Store.get {α : Type} (d : Nat → α) : List (Nat × α) → Nat → α
  | [], k => d k
  | (k', v) :: r, k => if k' = k then v else Store.get d r k

/-- Takes a key out. -/
def Store.erase {α : Type} (m : List (Nat × α)) (k : Nat) : List (Nat × α) :=
  m.filter (fun p => !(p.1 == k))

/-- Puts an entry before the first entry of a greater key. -/
def Store.insert {α : Type} (k : Nat) (v : α) : List (Nat × α) → List (Nat × α)
  | [] => [(k, v)]
  | (k', v') :: r => if k < k' then (k, v) :: (k', v') :: r else (k', v') :: Store.insert k v r

/-- Writes a key: writing the default takes the entry out, so the form stays canonical. -/
def Store.set {α : Type} [DecidableEq α] (d : Nat → α) (m : List (Nat × α)) (k : Nat) (v : α) : List (Nat × α) :=
  if v = d k then Store.erase m k else Store.insert k v (Store.erase m k)

/-- The canonical form: keys strictly rising and no entry equal to the default. -/
def Store.wf {α : Type} [DecidableEq α] (d : Nat → α) : List (Nat × α) → Bool
  | [] => true
  | [(k, v)] => !(decide (v = d k))
  | (k, v) :: (k', v') :: r => !(decide (v = d k)) && decide (k < k') && Store.wf d ((k', v') :: r)

end Sys2Proof.Machine
end

