-- ==== Sys2Proof/Machine/State.lean ====
section
/-! DEFINITION. The state of the block: every register, table, queue, pin and mode the spec gives it, as plain data, and the state after reset. -/

namespace Sys2Proof.Machine

/-- Where a compare stands between the tick that reaches its next fire stamp and its fire (R118, R649): the fire stamp, and whether it is late. -/
structure CmpDue where
  stamp : Word
  late : Bool
  deriving DecidableEq, Repr

/-- The timekeeping unit (R100 to R123), beyond its registers: device time with its fraction of 2⁻⁴⁰ ns; the periods of the 250 MHz clock since power-on (R544); the time of the tick before; what takes effect at the next tick; the identity of the grandmaster accepted, of the current one and of the alternate one; whether the PLL has locked, so that time counts; when the last Sync came, on the primary and the alternate port; whether holdover ended since the last tick; the compares whose fire point time has reached; the targets that already fired in this tick; the PPS pin; the capture FIFOs; the TIME_LATCH of each requester. -/
structure TimeSt where
  sec : BitVec 48 := 0
  ns : Nat := 0
  frac : Nat := 0
  ticks : Nat := 0
  prev : Nat := 0
  stepPend : Option Int := none
  ratePend : Option (BitVec 32) := none
  switchPend : Bool := false
  acceptedGm : Option Word := none
  currentGm : Option Word := none
  altGm : Option Word := none
  running : Bool := false
  lastSync : Nat := 0
  altLastSync : Option Nat := none
  holdEnded : Bool := false
  armed : BitVec 64 := 0
  due : List (Nat × Option CmpDue) := []
  fired : List (Nat × Nat) := []
  ppsHigh : Bool := false
  ppsFallAt : Nat := 0
  evtFifo : List (Nat × List (Bool × Word)) := []
  evtLast : List (Nat × Option Word) := []
  latch : List (Nat × BitVec 48) := []
  deriving DecidableEq, Repr

/-- Where an accepted command stands (R435, R440, R449): waiting, running, stopping at its next yield point, suspended at a yield point, or ended with its record not yet written. -/
inductive Phase where
  | waiting
  | running
  | stopping
  | suspended
  | ended
  deriving DecidableEq, Repr

/-- A fetched command of a queue (R436, R440): its 64 descriptor bytes, its sequence number, its acceptance stamp, its deadline or step budget, as it runs, its status, flags, count word and stamps, and the seed its context had when it started. -/
structure Cmd where
  desc : List Byte
  seq : BitVec 32
  accepted : Bool
  acc : Word
  order : Nat
  deadline : Option Word
  budget : Option Nat
  phase : Phase
  status : BitVec 8
  flags : BitVec 24
  aux : BitVec 32
  start : Word
  stop : Word
  steps : Nat
  energy : Nat
  core : Option Nat
  done : Nat
  irqForced : Bool
  seed : Word
  deriving DecidableEq, Repr

/-- A queue beyond its registers: the commands fetched and not yet retired, oldest first (R435), and the two counts of its doorbell (R433). -/
structure Queue where
  cmds : List Cmd := []
  cmdProd : BitVec 32 := 0
  cplCons : BitVec 32 := 0
  deriving DecidableEq, Repr

/-- One level of a core's loop stack (R217): the first and last bundle of the body and the iterations left. -/
structure Loop where
  first : Nat
  last : Nat
  left : Nat
  deriving DecidableEq, Repr

/-- The architectural part of a context (R194): G and F registers, the descriptor table as 1,024 words, the loop stack, the program position and SR_STREAM. -/
structure CoreCtx where
  g : List (Nat × Word) := []
  f : List (Nat × Word) := []
  desc : List (Nat × Word) := []
  loops : List Loop := []
  pc : Nat := 0
  srStream : BitVec 32 := 0
  deriving DecidableEq, Repr

/-- A program image loaded on a core (R195): its number, the first bundle of it in instruction memory, its bundle count, entry points with S_MAX, yield table, initial descriptor words, core mask, and the canton it belongs to. -/
structure Image where
  id : Nat
  first : Nat
  bundles : Nat
  entries : List (Nat × Nat)
  yields : List (Nat × Nat × Nat)
  descs : List Word
  mask : BitVec 16
  canton : Nat
  deriving DecidableEq, Repr

/-- The class of an operand pair (R202): its accumulators are INT32 or FP32. -/
inductive PairClass where
  | int1 | int2 | int4 | blk1 | blk2 | half | single
  deriving DecidableEq, Repr

/-- A weight tile: whether it is valid, its pair of format and depth, and its elements as exact values by depth × 128 + column, zero point and scale applied. -/
structure Tile where
  valid : Bool := false
  fmt : Fmt := .int8
  depth : Nat := 0
  elems : List Val := []
  deriving DecidableEq, Repr

/-- An accumulator set of 1,024 rows × 128 columns (R202): its codes by row × 128 + column, and the pair class of the INIT MATMUL that last wrote it. -/
structure AccSet where
  acc : List (Nat × BitVec 32) := []
  cls : Option PairClass := none
  deriving DecidableEq, Repr

/-- A matrix engine: active and shadow tile, two accumulator sets, and the side-tensor descriptors bound to its next MATMUL, WLOAD and DRAIN (R202, R235). -/
structure MatSt where
  active : Tile := {}
  shadow : Tile := {}
  set0 : AccSet := {}
  set1 : AccSet := {}
  bindMul : Option (List Word) := none
  bindLoad : Option (List Word) := none
  bindDrain : Option (List Word) := none
  deriving DecidableEq, Repr

/-- An engine operation that a bundle issued and that has not finished (R193, R217): the slot bits of a matrix, vector or transfer operation, the descriptors it took when it issued (three of its own, then the side tensors these name), the pattern register of a FILL, SR_STREAM, its bundle, whether a transfer has issued its far reads, and the source elements that far reads brought, by their first element. -/
structure EngOp where
  slot : Nat
  descs : List (List Word)
  pattern : Word
  stream : BitVec 32
  bundle : Nat
  issued : Bool := false
  got : List (Nat × List Nat) := []
  deriving DecidableEq, Repr

/-- A scalar load that its bank has not served: the destination register (an F register or a G register) and the address (R217). -/
structure PendLoad where
  isF : Bool
  rd : Nat
  addr : Nat
  deriving DecidableEq, Repr

/-- An FP64 operation in the pipeline: its destination and its result (R218). -/
structure PendFp where
  isF : Bool
  rd : Nat
  val : Word
  slow : Bool
  deriving DecidableEq, Repr

/-- What a read that leaves the device is for: a COPY command of a queue to a destination, a transfer operation of a core (destination descriptor, or none where its elements wait for the rest; first element and element count), the descriptor of a queue, a BAR2 request of the host. -/
inductive ReadFor where
  | copyCmd (q dst : Nat)
  | copyOp (core : Nat) (dst : List Word) (first count : Nat)
  | desc (q : Nat)
  | bar2 (x : Nat)
  deriving DecidableEq, Repr

/-- A read of the host window or of a remote window that is outstanding (R486, R593): its purpose, its device address and length, the TSEQ of a remote read (from 65,536 on one that no response matches any more, R480), and the tick of its issue. -/
structure OutRead where
  what : ReadFor
  addr : Nat
  len : Nat
  tseq : Nat
  at' : Nat := 0
  deriving DecidableEq, Repr

/-- A logical core (R18, R190 to R229), beyond its registers: its context, the images and bundles in instruction memory, its two matrix engines, its engine queues, pending scalar loads and FP64 results, an armed fault injection, the queue whose command it runs, the context that command has, the draws of that command's stochastic rounding, and whether a yield was offered, a save or a restore is under way, a suspension at the next yield point is asked for, the quantum has passed, or a bundle with END has issued; and the remote reads that a yield cancelled (R451). -/
structure Core where
  ctx : CoreCtx := {}
  images : List Image := []
  imem : List (Nat × BitVec 256) := []
  matA : MatSt := {}
  matB : MatSt := {}
  qMatA : List EngOp := []
  qMatB : List EngOp := []
  qVec : List EngOp := []
  qXfer : List EngOp := []
  loads : List PendLoad := []
  fps : List PendFp := []
  inject : Option (MatEng × Nat) := none
  running : Option Nat := none
  context : Nat := 0
  seed : Word := 0
  image : Option Image := none
  bound : Nat := 0
  boundIsMax : Bool := false
  yieldOffered : Bool := false
  saving : Bool := false
  restoring : Bool := false
  quantumPassed : Bool := false
  suspendReq : Bool := false
  endPending : Bool := false
  cancelled : List OutRead := []
  deriving DecidableEq, Repr

/-- A saved context of a suspended command (R194, R450): what was live, and transfers in progress with their remote reads that a yield cancelled, to be issued again (R451). -/
structure Saved where
  ctx : CoreCtx
  image : Option Image
  seed : Word
  xfer : List EngOp := []
  reads : List OutRead := []
  deriving DecidableEq, Repr

/-- The scheduler (R445 to R456), beyond its registers: the order number of the next acceptance, saved contexts, the tokens of each canton's buckets (canton × 8 + kind), and the QUE_RING latch of each requester and queue. -/
structure SchedSt where
  order : Nat := 0
  saved : List (Nat × Option Saved) := []
  tokens : List (Nat × Int) := []
  ringLatch : List (Nat × Option Word) := []
  deriving DecidableEq, Repr

/-- The PCIe endpoint (R586 to R596), beyond its registers: the MSI-X table (two words per vector), the pending bits, the function's enable and mask, Bus Master Enable, the D3hot state, vectors raised while no message can leave, and the outstanding host-window reads, oldest first. -/
structure HostSt where
  msixTable : List (Nat × Word) := []
  pba : List (Nat × Bool) := []
  msixEnable : Bool := false
  msixFnMask : Bool := false
  busMaster : Bool := false
  d3hot : Bool := false
  waiting : List Nat := []
  reads : List OutRead := []
  deriving DecidableEq, Repr

/-- A window that a canton's section grants its programs onto another canton's cores or banks (R33, R429). -/
structure Window where
  base : Nat
  len : Nat
  canRead : Bool
  canWrite : Bool
  deriving DecidableEq, Repr
/-- The scratchpad (R244 to R276), beyond its contents and registers: the words that hold a bit error (0 none, 2 c + 1 a single error located in column c of the line, 2 c + 2 a double one), and the corrected words that wait for their write-back (R267). -/
structure SpdSt where
  ecc : List (Nat × Nat) := []
  wb : List Nat := []
  deriving DecidableEq, Repr

/-- The source of a control slot's operand (R372). -/
structure SlotSrc where
  src : Nat := 0
  shift : Nat := 0
  index : Nat := 0
  deriving DecidableEq, Repr

/-- A control slot (R368, R374, R383), beyond its registers: coefficients b0 to b3 and a1 to a3, limits, operand sources, histories, what is staged for the next snapshot, what sources in other groups had published at the last snapshot, whether a preset saturated, the nodes of the last evaluation, and whether the slot is faulted. -/
structure Slot where
  coef : List Int := []
  limLo : Int := 0
  limHi : Int := 0
  opA : SlotSrc := {}
  opB : SlotSrc := {}
  x1 : Int := 0
  x2 : Int := 0
  x3 : Int := 0
  y1 : Int := 0
  y2 : Int := 0
  y3 : Int := 0
  stA : Option (BitVec 32) := none
  stB : Option (BitVec 32) := none
  stCoef : Option (List Int) := none
  stY : Option (BitVec 32) := none
  capA : Int := 0
  capB : Int := 0
  presetSat : Bool := false
  a : Int := 0
  b : Int := 0
  x : Int := 0
  yraw : Int := 0
  y : Int := 0
  code : Int := 0
  faulted : Bool := false
  deriving DecidableEq, Repr

/-- Where a rate group's sample stands (R369), until its hand-off. -/
inductive GrpPhase where
  | idle
  | fired
  | snapped
  | evaluated
  deriving DecidableEq, Repr

/-- What an evaluation gives (R369, R379): the fire stamp of its sample; codes by actuator output; y and code by slot; the values of the min-select groups; the current flags by slot. -/
structure Sample where
  stamp : Word := 0
  codes : List (Nat × Int) := []
  slots : List (Nat × Int × Int) := []
  sels : List (Nat × Int) := []
  flags : List (Nat × Nat) := []
  deriving DecidableEq, Repr

/-- A rate group (R367 to R371), beyond its registers: the phase, fire stamp and snapshot stamp of its sample, whether that sample overran, its evaluation, samples handed off that wait for their latch; and whether the group has latched since the full load, is in a restream outage, or still finishes a sample after a disable. -/
structure Grp where
  phase : GrpPhase := .idle
  t0 : Word := 0
  snap : Word := 0
  overran : Bool := false
  res : Sample := {}
  ready : List Sample := []
  latched : Bool := false
  outage : Bool := false
  finishing : Bool := false
  deriving DecidableEq, Repr

/-- A min-select group (R377, R378): members, output binding, whether a winner has been recorded, and the value and code of the last sample with the value last published. -/
structure Sel where
  members : List Nat := []
  outBound : Bool := false
  outIndex : Nat := 0
  outShift : Nat := 0
  seen : Bool := false
  y : Int := 0
  code : Int := 0
  pubY : Int := 0
  deriving DecidableEq, Repr

/-- A trace set (R387, R388): the samples recorded, oldest first, each with one value per channel; evaluations since the last sample; whether triggered and the samples before the trigger; the trigger channel's previous sample and the trigger slot's previous flags. -/
structure Trace where
  buf : List (List Int) := []
  skip : Nat := 0
  trig : Option Nat := none
  prev : Option Int := none
  prevFlags : Nat := 0
  force : Bool := false
  deriving DecidableEq, Repr

/-- The control engine. -/
structure CtlSt where
  slots : List (Nat × Slot) := []
  groups : List (Nat × Grp) := []
  sels : List (Nat × Sel) := []
  traces : List (Nat × Trace) := []
  deriving DecidableEq, Repr

/-- A sensor port (R398, R400): the fire stamp of the acquisition in progress, and whether the last frame was faulty. -/
structure SPort where
  acq : Option Word := none
  faulty : Bool := false
  deriving DecidableEq, Repr

/-- An actuator output (R404 to R408), beyond its registers: the code that waits for its valley, the code in effect and the active ticks of this and the last carrier period, the valley that started the period, whether a time step ended it, whether the complementary interval across that valley is driven; and of STEP_DIR the accumulator with the tick it was brought up to, the last pulse, the tick before which no pulse starts, and the direction. -/
structure Act where
  pend : Option Int := none
  code : Int := 0
  c : Nat := 0
  prevC : Nat := 0
  valley : Option Nat := none
  stopped : Bool := false
  complOn : Bool := false
  acc : Nat := 0
  accTick : Nat := 0
  lastPulse : Option Nat := none
  holdTo : Nat := 0
  neg : Bool := false
  deriving DecidableEq, Repr

/-- A CAN controller (R409 to R416), beyond its registers: buffers whose frame on the bus was told to stop retrying, whether it leaves the bus after the frame in progress, recovers from bus-off, or integrates into the bus. -/
structure CanSt where
  aborting : List Nat := []
  leaving : Bool := false
  recovering : Bool := false
  integrating : Bool := false
  deriving DecidableEq, Repr

/-- Sensor ports, converter starts (active until a time), actuators, CAN controllers, and of each Ethernet port the frame of a TX_FRAME with its queue (R421). -/
structure IoSt where
  sports : List (Nat × SPort) := []
  conv : List (Nat × Option Nat) := []
  acts : List (Nat × Act) := []
  cans : List (Nat × CanSt) := []
  ethTx : List (Nat × Option (Nat × List Byte)) := []
  deriving DecidableEq, Repr

/-- A rule of PLUMB_RULES (R517, R518). -/
structure PlRule where
  kind : Nat
  reg : Nat
  canton : Nat
  field : Nat
  source : Nat
  lo : Int
  hi : Int
  param : Nat
  deriving DecidableEq, Repr

/-- An item of a frame report (R515). -/
structure PlItem where
  cls : Nat
  vals : List Int
  deriving DecidableEq, Repr

/-- The input of a frame that Plumb judges (R513): a report's items, or a latch with its codes by actuator output, current flags by slot, and whether the sample overran. -/
inductive PlInput where
  | report (items : List PlItem)
  | latch (codes : List (Nat × Int)) (flags : List (Nat × Nat)) (overrun : Bool)
  deriving DecidableEq, Repr

/-- A frame registration (R511, R513, R514, R521), beyond its registers: its grid, deadline and actuator mask; the index and start of the open frame; whether its input has arrived, the input that waits for judgement, whether it was judged plausible, and the cause of its disagreement; the indexes of its disagreements in the window with whether each counts; and the codes of the previous latch. -/
structure PlReg where
  period : Nat := 0
  phase : Nat := 0
  deadline : Nat := 0
  actMask : BitVec 48 := 0
  frame : Option Nat := none
  start : Nat := 0
  arrived : Bool := false
  input : Option PlInput := none
  judged : Bool := false
  cause : Option Nat := none
  hist : List (Nat × Bool) := []
  prevCodes : List (Nat × Int) := []
  deriving DecidableEq, Repr

/-- A safety message (R525). -/
structure SafeMsg where
  reg : Nat
  restored : Bool
  cause : Nat
  index : Nat
  time : BitVec 32
  queued : Nat
  deriving DecidableEq, Repr

/-- An inbox (R515): its FIFO, each word with the number of words lost just before it, the words lost since the last one kept, and the words of the report being assembled, none for a lost one. -/
structure Inbox where
  fifo : List (Nat × Word) := []
  lost : Nat := 0
  part : List (Option Word) := []
  deriving DecidableEq, Repr

/-- The pennant coverage of an engine of a physical core in the window (R529, R532): the patterns run, and whether it takes part in this window. -/
structure PenCov where
  ran : BitVec 64 := 0
  inUse : Bool := false
  deriving DecidableEq, Repr

/-- A pennant in progress on an engine (R530, R531). -/
structure PenRun where
  core : Nat
  eng : Nat
  pattern : Nat
  frame : Nat
  deriving DecidableEq, Repr

/-- A pennant report that waits for judgement: pattern, physical core, engine, pennant frame, CRC (R515, R531). -/
structure PenReport where
  pattern : Nat
  phys : Nat
  eng : Nat
  frame : Nat
  crc : BitVec 32
  deriving DecidableEq, Repr

/-- Plumb (R507 to R537), beyond its registers: registrations, rules, inboxes, hardware lines asserted and not yet taken, each with the canton it concerns, sensor frames by port (fire time, raw frame or none for a fault), pending safety messages, whether the first detection is captured, whether the last time check failed, the last check's time and the steps since; whether tables are installed; the clock phase of its 200 MHz against 250 MHz; pennant runs, reports, coverage by physical core × 3 + engine, deferred runs, the last boundary; and the expected CRCs (pattern × 3 + engine) of the library in use and of the one that takes over. -/
structure PlumbSt where
  regs : List (Nat × PlReg) := []
  rules : List PlRule := []
  inboxes : List (Nat × Inbox) := []
  lines : List (HwDetect × Nat) := []

  sensors : List (Nat × List (Nat × Option Word)) := []
  msgs : List SafeMsg := []
  last : List (Nat × Option SafeMsg) := []
  captured : Bool := false
  timeBad : Bool := false
  checkNs : Option Nat := none
  stepSum : Int := 0
  tables : Bool := false
  clock : Nat := 0
  runs : List PenRun := []
  reports : List PenReport := []
  cov : List (Nat × PenCov) := []
  extra : List (Nat × Nat) := []
  boundary : Option Nat := none
  crcs : List (Nat × BitVec 32) := []
  nextCrcs : Option (List (Nat × BitVec 32)) := none
  repeatAt : List (Nat × Nat) := []
  deriving DecidableEq, Repr

/-- A swap of a logical core to another physical core (R541 to R544): planned or forced, the logical number, from and to. -/
structure Swap where
  planned : Bool
  n : Nat
  src : Nat
  dst : Nat
  cause : Nat
  copying : Bool
  back : Bool
  deriving DecidableEq, Repr

/-- A test request (R551). -/
structure TestReq where
  mgt : Bool
  kind : Nat
  target : Nat
  deadline : Word
  addr : Nat
  seq : BitVec 32
  deriving DecidableEq, Repr

/-- A core under test (R548, R550): the physical core, the logical number it served with the spare that holds it now, the request that asked for it, and how it ended. -/
structure CoreTest where
  phys : Nat
  logical : Option Nat
  req : Option TestReq
  status : BitVec 8 := 0
  deriving DecidableEq, Repr

/-- Of each requester of tests, its copies of the deadline and address registers, its last accepted number and its last status (R551). -/
structure TestCopy where
  deadline : Word := 0
  addr : Word := 0
  lastSeq : BitVec 32 := 0xFFFFFFFF
  lastStatus : BitVec 8 := 0
  deriving DecidableEq, Repr

/-- The repair controller (R538 to R559), beyond its registers: the factory map of failed cores; detections by physical core, kind (0 residue, 1 pennant) and tick; counts of corrected columns (bank × 4,096 + column); SPD_BANK_STAT by physical bank of the physical cores that serve no number; live column repairs, the first in progress; records to burn; the swap in progress and furls that wait; the rolling test: its next core, cores to test first, whether it pauses between cycles, and the core under test; test requests, and the thermal segment in progress (group, groups left); the requesters' copies; the pennant library being installed, and the active slot. -/
structure RepSt where
  failed : BitVec 18 := 0
  detects : List (Nat × Nat × Nat) := []
  cols : List (Nat × Nat) := []
  bankStat : List (Nat × Word) := []
  colq : List (Nat × Nat) := []
  burns : List Nat := []
  swap : Option Swap := none
  furls : List (Nat × Nat) := []
  rollPos : Nat := 0
  rollFirst : List Nat := []
  rollPause : Bool := false
  test : Option CoreTest := none
  tests : List TestReq := []
  thermal : Option (Nat × List Nat × TestReq) := none
  hostCopy : TestCopy := {}
  mgtCopy : TestCopy := {}
  install : Option (Nat × Nat × Nat) := none
  slot : Nat := 0
  deriving DecidableEq, Repr

/-- What the recorder holds beyond its registers (R496, R497): entries written since enable, entries staged with their stamps, entries dropped and not yet counted by a GAP. -/
structure RecSt where
  seq : Nat := 0
  staged : List (Nat × List Byte) := []
  gap : Nat := 0
  deriving DecidableEq, Repr

/-- The staged HBM range that the loader owns, base and length (R79). -/
structure FabOwn where
  base : Nat
  len : Nat
  deriving DecidableEq, Repr

/-- The memory controllers (R463 to R477), beyond the registers: rows in the remap tables and rows held for retirement, oldest first (pseudo-channel × 2,097,152 + row); corrected reads of a row in this scrub pass; the next unit of each pseudo-channel's scrub with those that finished the pass; per channel the ticks of its latest parity errors; the temperature of a channel at its last training; the retrain in progress and those that wait. -/
structure HbmSt where
  rows : List Nat := []
  held : List Nat := []
  corr : List (Nat × Nat) := []
  scrub : List (Nat × Nat) := []
  passed : List Nat := []
  link : List (Nat × List Nat) := []
  trainTemp : List (Nat × Option Int) := []
  retrain : Option Nat := none
  retrainq : List Nat := []
  deriving DecidableEq, Repr

/-- Where a COMMIT stands (R83). -/
inductive ComPhase where
  | drain
  | save
  | verify
  | rebind
  | resume
  deriving DecidableEq, Repr



/-- A KV class (R306, R307): its format code, KV heads (0: unused) and the log2 of the head dimension. -/
structure KvClass where
  fmt : Nat := 0
  heads : Nat := 0
  logD : Nat := 0
  deriving DecidableEq, Repr

/-- The KV page manager (R306 to R336), beyond its registers, the page table and the maps, which stand in HBM: the classes of each canton (canton × 8 + class), the blocks allocated or withdrawn in the pools (base to length), the descriptor indices in use (1) or withdrawn (2), and of each context the tree mask of its pending candidates and the node of a commit that expiry cut. -/
structure KvSt where
  classes : List (Nat × KvClass) := []
  blocks : List (Nat × Nat) := []
  idx : List (Nat × Nat) := []
  masks : List (Nat × List Nat) := []
  commit : List (Nat × Option Nat) := []
  deriving DecidableEq, Repr

/-- A row of the Jacobian with its residual: the residual, and the columns that the row has with their elements (R346, R356). -/
structure SolRow where
  r : Val
  j : List (Nat × Val)
  deriving DecidableEq, Repr

/-- A problem of the solver array (R348): the point and the step of the trial in progress, the rows and cost of the current point, the best iterate with its cost and residual norm, λ, trials completed, and once it stopped its STOP code, its status and its flags. -/
structure SolProb where
  x : List Val
  dx : List Val := []
  rows : List SolRow := []
  cost : Val := .inf false
  best : List Val
  bestCost : Val := .inf false
  bestNorm : Val := .inf false
  lam : Val
  trials : Nat := 0
  active : Bool := true
  stop : Nat := 0
  status : BitVec 8 := 0
  flags : BitVec 8 := 0
  deriving DecidableEq, Repr

/-- The solver array (R341 to R361), beyond its registers: the queue of the command in progress, its parameter block and observation list, the evaluation number, whether an evaluation RUN is outstanding, was posted again after a FENCED, and how it completed; whether the results are written; and the problems. -/
structure SolSt where
  run : Option Nat := none
  par : List Byte := []
  obs : List (Nat × Nat) := []
  evalNo : Nat := 0
  out : Bool := false
  again : Bool := false
  result : Option (BitVec 8) := none
  written : Bool := false
  probs : List SolProb := []
  deriving DecidableEq, Repr
/-- A chord port (R481 to R485), beyond its registers: the next LSEQ to send and the next one expected; the frames not acknowledged and those that wait for a credit, oldest first; the credits of the three virtual channels and the buffers freed since the last CREDIT frame; the frames received and the tick of the last acknowledgement sent, and the tick at which one last advanced; whether the port retrains; and of the time exchange (R489) the stamps t1 and t2 received, t3 sent, and t4 for the next frame. -/
structure ChdPort where
  txSeq : Nat := 0
  rxSeq : Nat := 0
  unacked : List ChordFrame := []
  waiting : List ChordFrame := []
  credits : List Nat := [64, 64, 64]
  freed : List Nat := [0, 0, 0]
  rxCount : Nat := 0
  ackTick : Nat := 0
  advTick : Nat := 0
  retraining : Bool := false
  t12 : Option (Word × Word) := none
  t3 : Word := 0
  t4 : Word := 0
  deriving DecidableEq, Repr

/-- A walk of the enumeration (R479): the port being visited, the position it was offered, the next free position, and the devices not reached. -/
structure ChdWalk where
  port : Nat
  lo : Nat
  next : Nat
  unreached : Nat
  deriving DecidableEq, Repr

/-- The chord controllers (R478 to R489), beyond their registers: the ports, the next TSEQ, the enumeration in progress, the tick of the last TIME frames, whether the chord servo has taken its first exchange, the run of exchanges within 0.5 ns, and the fragments of workers' halyard messages (R602) by origin. -/
structure ChdSt where
  ports : List (Nat × ChdPort) := []
  tseq : Nat := 0
  walk : Option ChdWalk := none
  timeTick : Option Nat := none
  synced : Bool := false
  lockRun : Nat := 0
  frags : List (Nat × List Byte) := []
  deriving DecidableEq, Repr

/-- A lock-step source (R494): the number of its interval, the items folded into it, and the CRC so far. -/
structure LsSrc where
  k : Nat := 0
  n : Nat := 0
  c : Word := 0
  deriving DecidableEq, Repr

/-- A signature that waits for its counterpart (R494): source, interval, signature, the tick it came. -/
structure LsSig where
  src : Nat
  k : Nat
  sig : Word
  tick : Nat
  deriving DecidableEq, Repr

/-- Launch, lock-step and the settings digest (R490 to R500), beyond their registers: the launch stamp, participants, acknowledgements of the launch in progress; lock-step sources, own and partner signatures; sensor entries of the replay log (port, stamp, FLAGS, raw frame); and the settings block last digested. -/
structure DetSt where
  launchAt : Word := 0
  parts : Nat := 0
  acks : Nat := 0
  ls : List (Nat × LsSrc) := []
  own : List LsSig := []
  theirs : List LsSig := []
  replaySens : List (Nat × Word × Nat × Word) := []
  block : List Byte := []
  deriving DecidableEq, Repr

/-- A CSI-2 frame in reception (R134, R143, R144): its buffer, sequence number and capture stamp; the width once a line fixed it, whether its lines are RAW, the lines received (none: one of zeros), each as pixels of channels; FLAGS; and the time of its last packet. -/
structure CamFrame where
  buf : Nat
  seq : Nat
  stamp : Word
  width : Option Nat := none
  raw : Bool := false
  lines : List (Option (List (List Nat))) := []
  flags : Nat := 0
  lastNs : Nat := 0
  deriving DecidableEq, Repr

/-- A reassembly slot in use (R149): FRAME_SEQ, TOTAL_LEN, the spans of bytes received with their number, the capture stamp, whether it is a receive stamp, when the first fragment came, and whether every byte has arrived. -/
structure Reasm where
  seq : Nat
  total : Nat
  spans : List (Nat × Nat)
  got : Nat
  stamp : Word
  rx : Bool
  firstNs : Nat
  complete : Bool
  deriving DecidableEq, Repr

/-- A sample that waits for its record (R137): sequence number, capture stamp, status, buffer if it holds data, size and FLAGS. -/
structure ImgDone where
  seq : Nat
  stamp : Word
  status : BitVec 8
  buf : Option Nat
  w : Nat
  h : Nat
  flags : Nat
  deriving DecidableEq, Repr

/-- A source of the input pipeline (R133 to R139, R149, R157), beyond its registers: where its buffers, record ring and reassembly slots lie, its Ethernet port, the FP32 codes of its matrix, offset, mean and scale; the states of its buffers (0 FREE, 1 FILLING, 2 READY); its sequence counter; the CSI-2 frame in reception; its reassembly slots; the FRAME_SEQs of closed frames; and the samples that wait for their records, oldest first. -/
structure ImgSrc where
  bufBase : Nat := 0
  recBase : Nat := 0
  recLog2 : Nat := 0
  reasmBase : Nat := 0
  ethPort : Nat := 0
  matrix : List (BitVec 32) := []
  offset : List (BitVec 32) := []
  mean : List (BitVec 32) := []
  scale : List (BitVec 32) := []
  bufs : List (Nat × Nat) := []
  nextSeq : Nat := 0
  cur : Option CamFrame := none
  slots : List (Nat × Option Reasm) := []
  closed : List Nat := []
  done : List ImgDone := []
  deriving DecidableEq, Repr

/-- A camera port (R145, R146): the fire stamp that arms it with the virtual channels that have yet to take it, and when it was disabled. -/
structure CamPort where
  armed : Option (Word × List Nat) := none
  disabledAt : Option Nat := none
  deriving DecidableEq, Repr

/-- A decode in progress (R155): source, reassembly slot, buffer. -/
structure DecRun where
  src : Nat
  slot : Nat
  buf : Nat
  deriving DecidableEq, Repr

/-- The input pipeline: sources, camera ports, the frames that wait for a decoder as source and slot, oldest first, and the eight decoders. -/
structure ImgSt where
  srcs : List (Nat × ImgSrc) := []
  ports : List (Nat × CamPort) := []
  queue : List (Nat × Nat) := []
  decs : List (Nat × Option DecRun) := []
  deriving DecidableEq, Repr

/-- A dictionary entry in the tokenizer's SRAM (R160): its string, 1 to 48 bytes or unused, and its token. -/
structure TokEntry where
  bytes : List Byte
  token : BitVec 32
  deriving DecidableEq, Repr

/-- The tokenizer (R160 to R165), beyond its registers: the entries in its SRAM, and those that a poisoned refetch left bad. -/
structure TokSt where
  entries : List TokEntry := []
  bad : List Nat := []
  deriving DecidableEq, Repr

/-- The power manager (R560 to R578), beyond its registers: the power of the three samples before in 0.1 W, newest first; the sensors whose last valid reading reached 125 °C; the unattributed energy in µJ; and the transfer to the regulator that may still be retried, with its target in mV and its failures (R634). -/
structure PwrSt where
  ring : List Nat := []
  hot : List Nat := []
  unattr : Nat := 0
  vr : Option (Nat × Nat) := none
  deriving DecidableEq, Repr

/-- The management processor (R597 to R603), beyond its registers: the station's session and the last SEQ accepted in it; the messages sent and not acknowledged, oldest first; the next FLT event to report; the telemetry interval in ms, the telemetry count, when the last interval ended and the lowest RATE seen since; whether an acknowledgement is due; when the last retransmission was; the staging area; the samples shed in this period; the tag of the next relayed message; the fragments of messages for this device; and the TX_ACKED latched for each requester. -/
structure MgtSt where
  session : Option (BitVec 32) := none
  rxSeq : BitVec 32 := 0xFFFFFFFF
  unacked : List HalMsg := []
  evtNext : Nat := 0
  interval : Nat := 0
  telemSeq : BitVec 32 := 0
  telemAt : Nat := 0
  minRate : Nat := 0xFFFF
  ackDue : Bool := false
  retxAt : Nat := 0
  staging : List (Nat × Byte) := []
  shed : Nat := 0
  tag : Nat := 0
  latch : List (Nat × Option Word) := []
  deriving DecidableEq, Repr

/-- What waits for a key operation to complete (R620): a STAGE with its tag, an INSTALL with ALLOW_OLDER, or the installation that a LIB_INSTALL of the station asks for, with its SEQ, length and ALLOW_OLDER. -/
inductive SecWait where
  | stage (tag : Nat)
  | install (older : Bool)
  | library (seq : BitVec 32) (len : Nat) (older : Bool)
  deriving DecidableEq, Repr

/-- A security command in progress (R619): its operation and tag, the status that its checks gave, and of a key operation the slot and the payload to burn. -/
structure SecOp where
  op : Nat
  tag : Nat
  status : BitVec 8
  slot : Nat := 0
  payload : List Byte := []
  deriving DecidableEq, Repr

/-- The security engine and the boot (R608 to R625), beyond their registers: the fleet seed, the command in progress, what waits for it, the straps last sampled, when the last reset ended, and, of a boot, whether a full load is being verified from the boot source or the host. -/
structure SecSt where
  seed : Option (List Byte) := none
  op : Option SecOp := none
  waiting : List SecWait := []
  straps : Straps := ⟨false, 0⟩
  resetAt : Nat := 0
  inReset : Bool := true
  warm : Bool := false
  deriving DecidableEq, Repr

/-- A queue entry of CANTON_MAP (R430). -/
structure QEnt where
  first : Nat
  count : Nat
  unit : Nat
  inst : Nat
  rank : Nat
  flags : Nat
  vector : Nat
  deriving DecidableEq, Repr

/-- A KV record of CANTON_MAP (R306). -/
structure KvRec where
  poolBase : Nat
  poolLen : Nat
  idxBase : Nat
  idxCount : Nat
  classes : List KvClass
  deriving DecidableEq, Repr

/-- A CANTON_MAP section (R429). -/
structure CMap where
  coreMask : Nat
  ctxBase : Nat
  ctxCount : Nat
  saveBase : Nat
  saveStride : Nat
  kv : Option KvRec
  queues : List QEnt
  windows : List Window
  deriving DecidableEq, Repr

/-- An entry of REGULATORS (R454). -/
structure RegEnt where
  kind : Nat
  port : Nat
  soak : Bool
  rate : Nat
  burst : Nat
  deriving DecidableEq, Repr

/-- A region entry of SPD_BANKS (R250). -/
structure BankEnt where
  first : Nat
  log2 : Nat
  view : Nat
  owner : Nat
  sharedWrite : Bool
  power : Nat
  deriving DecidableEq, Repr

/-- A PROGRAM_IMAGE section (R195): number, core mask, entry points with S_MAX, yield table with S_LIVE and S_RESTORE, initial descriptor words and bundles. -/
structure ImgEnt where
  id : Nat
  mask : Nat
  entries : List (Nat × Nat)
  yields : List (Nat × Nat × Nat)
  descs : List Word
  bundles : List (BitVec 256)
  deriving DecidableEq, Repr

/-- A compare entry of TIME_CONFIG (R119). -/
structure CmpEnt where
  num : Nat
  canton : Nat
  mode : Nat
  kind : Nat
  index : Nat
  period : Nat
  phase : Nat
  deriving DecidableEq, Repr

/-- An entry of PIN_MAP (R395). -/
structure PinEnt where
  cls : Nat
  index : Nat
  canton : Nat
  words : List Word
  deriving DecidableEq, Repr

/-- A port entry of INPUT_GRAPH (R135). -/
structure CamEnt where
  port : Nat
  canton : Nat
  cfg : Word
  deriving DecidableEq, Repr

/-- A source entry of INPUT_GRAPH (R135). -/
structure SrcEnt where
  src : Nat
  canton : Nat
  ethPort : Nat
  cfg : Word
  limit : Word
  jpeg : Word
  bufBase : Nat
  recBase : Nat
  recLog2 : Nat
  reasmBase : Nat
  matrix : List (BitVec 32)
  offset : List (BitVec 32)
  mean : List (BitVec 32)
  scale : List (BitVec 32)
  deriving DecidableEq, Repr

/-- A group entry of CONTROL_GRAPH (R368). -/
structure GrpEnt where
  group : Nat
  canton : Nat
  compare : Nat
  phi : Nat
  deriving DecidableEq, Repr

/-- A slot entry of CONTROL_GRAPH (R368). -/
structure SlotEnt where
  slot : Nat
  group : Nat
  q : Nat
  track : Bool
  bound : Bool
  outIndex : Nat
  outShift : Nat
  opA : SlotSrc
  opB : SlotSrc
  limLo : Int
  limHi : Int
  coef : List Int
  deriving DecidableEq, Repr

/-- A min-select entry of CONTROL_GRAPH (R368). -/
structure SelEnt where
  select : Nat
  group : Nat
  bound : Bool
  outIndex : Nat
  outShift : Nat
  members : List Nat
  deriving DecidableEq, Repr

/-- A registration of PLUMB_FRAMES (R511). -/
structure FrameEnt where
  reg : Nat
  latch : Bool
  canton : Nat
  group : Nat
  deps : Nat
  flags : Nat
  n : Nat
  m : Nat
  w : Nat
  itemsMax : Nat
  period : Nat
  phase : Nat
  deadline : Nat
  actMask : Nat
  deriving DecidableEq, Repr

/-- The configuration that sections give, entry by entry, as the loader judges relations between sections (R73): budget mode and canton count; of each canton its map, regulators, regions and images; TIME_CONFIG's PTP_CFG and compares; pins, with the Ethernet content of the full load (R397); the input graph's ports, Ethernet ports (port, UDP port), write reservations (canton, MB/s) and sources; the dictionary (BYTE_BASE, DICT_BASE, COUNT); the control graph; Plumb's global header, rules and registrations; and NOC_ROUTES and the firmware image as bytes. -/
structure LatCfg where
  mode : Nat := 0
  cantons : Nat := 0
  maps : List (Nat × CMap) := []
  regs : List (Nat × List RegEnt) := []
  banks : List (Nat × List BankEnt) := []
  images : List (Nat × List ImgEnt) := []
  ptp : Word := 0
  cmps : List CmpEnt := []
  pins : List PinEnt := []
  eths : List PinEnt := []
  cams : List CamEnt := []
  carriers : List (Nat × Nat) := []
  wimg : List (Nat × Nat) := []
  srcs : List SrcEnt := []
  dict : Option (Nat × Nat × Nat) := none
  groups : List GrpEnt := []
  slots : List SlotEnt := []
  sels : List SelEnt := []
  plHdr : List Byte := []
  rules : List PlRule := []
  frames : List FrameEnt := []
  routes : List Byte := []
  firmware : List Byte := []
  deriving DecidableEq, Repr

/-- The loader (R62 to R99), beyond its registers and the staged range: the running configuration; the canton of the staged restream (none for a full load); the phase of its COMMIT and when it began; and the check that the load-and-verify phase failed, with its section. -/
structure FabSt where
  cfg : LatCfg := {}
  canton : Option Nat := none
  phase : Option ComPhase := none
  since : Nat := 0
  fail : Option (Nat × Nat) := none
  deriving DecidableEq, Repr

/-- What leaves the device, in the order it leaves: read data, messages, frames, requests. -/
inductive Output where
  /-- the value a register or memory read returned to its requester -/
  | readData (r : Req) (addr : Nat) (data : Word)
  /-- a BAR0 read completed with Unsupported Request (R589) -/
  | unsupported
  /-- the bytes a BAR2 read returned, poisoned or not (R590) -/
  | bar2Data (addr : Nat) (bytes : List Byte) (poisoned : Bool)
  /-- the bytes that a bank or a memory controller returned to a reader, poisoned or not (R254, R465) -/
  | memData (r : Req) (addr : Nat) (bytes : List Byte) (poisoned : Bool)
  /-- an MSI-X message of a vector: its address and data (R594) -/
  | msix (vec : Nat) (addr data : Word)
  /-- a posted write of the host window (R592) -/
  | hostWrite (addr : Nat) (bytes : List Byte)
  /-- a read request of the host window (R592) -/
  | hostRead (addr : Nat) (len : Nat)
  /-- a chord frame put on a port (R481) -/
  | chord (p : Nat) (f : ChordFrame)
  /-- a CAN frame put on a bus (R413) -/
  | can (k : Nat) (f : CanFrame)
  /-- an Ethernet frame put on a port (R421) -/
  | eth (e : Nat) (bytes : List Byte)
  /-- a halyard message handed to the station (R597) -/
  | halyard (m : HalMsg)
  /-- a new VDD_CORE target sent to the regulator in mV (R571, R634) -/
  | vrTarget (mv : Nat)
  /-- a step pulse on an actuator output and its direction (R407) -/
  | stepPulse (a : Nat) (forward : Bool)
  deriving DecidableEq, Repr

/-- The machine right after reset and at every moment after it. -/
structure State where
  regs : List (Nat × Word) := []
  mem : List (Nat × Byte) := []
  poison : List Nat := []
  time : TimeSt := {}
  queues : List (Nat × Queue) := []
  sched : SchedSt := {}
  cores : List (Nat × Core) := []
  host : HostSt := {}
  windows : List (Nat × List Window) := []
  spd : SpdSt := {}
  ctl : CtlSt := {}
  io : IoSt := {}
  plumb : PlumbSt := {}
  rep : RepSt := {}
  recorder : RecSt := {}
  staged : Option FabOwn := none
  hbm : HbmSt := {}
  fab : FabSt := {}
  kv : KvSt := {}
  sol : SolSt := {}
  chd : ChdSt := {}
  det : DetSt := {}
  img : ImgSt := {}
  tok : TokSt := {}
  pwr : PwrSt := {}
  mgt : MgtSt := {}
  sec : SecSt := {}
  out : List Output := []
  freeCtr : Nat := 0
  pending : List Instr := []
  deriving DecidableEq, Repr

/-- Why a command stops for good. No command of this block has such a stop: where the spec gives no effect the state stays as it was. -/
inductive Fault where
  /-- never raised; kept so that the type has a name to list (safe) -/
  | none
  deriving DecidableEq, Repr

/-- Why a command has no meaning. -/
inductive Refusal where
  /-- a row of the table whose meaning is not written yet; raised by exec's arm of that row alone (safe) -/
  | notModelled (mnemonic : String)
  deriving DecidableEq, Repr

/-- The state right after power-on reset is asserted (R608): every register at the reset value of its table, memory listing nothing, no command waiting. What the spec gives no value for is named in the log (3, 4, 5). -/
def State.reset : State := {}

end Sys2Proof.Machine
end

