-- ==== Sys2Proof/Machine/Ops.lean ====
section
/-! DEFINITION. The named operations over registers, memory, stamps, interrupts and the outbox that every command's meaning is built from. -/

namespace Sys2Proof.Machine

/-- The outcome type of a command. -/
abbrev Out := Host.Outcome State Fault Refusal

/-! ### Registers -/

/-- Reads the field f of a register value. -/
def Fld.get (f : Fld) (v : Word) : Nat := v.toNat / 2 ^ f.lo % 2 ^ f.w

/-- The mask of a field. -/
def Fld.mask (f : Fld) : Word := (BitVec.ofNat 64 (2 ^ f.w - 1)) <<< f.lo

/-- Writes the low bits of x into the field f of a register value. -/
def Fld.set (f : Fld) (v : Word) (x : Nat) : Word :=
  (v &&& ~~~ f.mask) ||| (BitVec.ofNat 64 (x % 2 ^ f.w) <<< f.lo)

/-- The register at a BAR0 offset. -/
def State.reg (s : State) (off : Nat) : Word := Store.get resetVal s.regs off

/-- Sets the register at a BAR0 offset. -/
def State.setReg (s : State) (off : Nat) (v : Word) : State :=
  { s with regs := Store.set resetVal s.regs off v }

/-- A field of a register. -/
def State.fld (s : State) (off : Nat) (f : Fld) : Nat := f.get (s.reg off)

/-- Whether a one-bit field reads 1. -/
def State.bit (s : State) (off : Nat) (f : Fld) : Bool := s.fld off f == 1

/-- Sets a field of a register. -/
def State.setFld (s : State) (off : Nat) (f : Fld) (x : Nat) : State :=
  s.setReg off (f.set (s.reg off) x)

/-- Adds to a counter field that saturates. -/
def State.satAdd (s : State) (off : Nat) (f : Fld) (n : Nat) : State :=
  s.setFld off f (min (2 ^ f.w - 1) (s.fld off f + n))

/-- Adds to a counter field that wraps (R10). -/
def State.wrapAdd (s : State) (off : Nat) (f : Fld) (n : Nat) : State :=
  s.setFld off f ((s.fld off f + n) % 2 ^ f.w)

/-- Sets a one-bit field from a Bool. -/
def State.setBit (s : State) (off : Nat) (f : Fld) (b : Bool) : State :=
  s.setFld off f (if b then 1 else 0)

/-- The byte lanes that an access covers (R9). -/
def halfMask : Half → Word
  | .full => 0xFFFFFFFFFFFFFFFF
  | .low => 0x00000000FFFFFFFF
  | .high => 0xFFFFFFFF00000000

/-- Whether an access covers a field wholly or in part. -/
def halfCovers (h : Half) (f : Fld) : Bool := !(halfMask h &&& f.mask == 0)

/-! ### Memory -/

/-- A byte of HBM or scratchpad at a device address; what nothing has written reads 0 (R270, R474). -/
def State.rd (s : State) (a : Nat) : Byte := Store.get (fun _ => 0) s.mem a

/-- Writes a byte of HBM or scratchpad. -/
def State.wr (s : State) (a : Nat) (b : Byte) : State :=
  { s with mem := Store.set (fun _ => 0) s.mem a b }

/-- Reads n bytes from a device address upwards. -/
def State.rdBytes (s : State) (a : Nat) : Nat → List Byte
  | 0 => []
  | n + 1 => s.rd a :: s.rdBytes (a + 1) n

/-- Writes bytes from a device address upwards. -/
def State.wrBytes (s : State) (a : Nat) : List Byte → State
  | [] => s
  | b :: r => (s.wr a b).wrBytes (a + 1) r

/-- The number that bytes spell, least significant byte first (R8). -/
def leNat : List Byte → Nat
  | [] => 0
  | b :: r => b.toNat + 256 * leNat r

/-- A number as n bytes, least significant byte first (R8). -/
def leBytes (x : Nat) : Nat → List Byte
  | 0 => []
  | n + 1 => BitVec.ofNat 8 x :: leBytes (x / 256) n

/-- The bytes of a list from an offset, n of them, zero beyond its end. -/
def sliceN (l : List Byte) (off n : Nat) : Nat := leNat ((l.drop off).take n)

/-- An n-byte value of memory. -/
def State.rdN (s : State) (a n : Nat) : Nat := leNat (s.rdBytes a n)

/-- Writes an n-byte value to memory. -/
def State.wrN (s : State) (a n x : Nat) : State := s.wrBytes a (leBytes x n)

/-- Whether an access of n bytes at a touches a poisoned 32-byte HBM unit (R466). -/
def State.poisoned (s : State) (a n : Nat) : Bool :=
  s.poison.any (fun u => decide (u < a + n ∧ a < u + 32))

/-! ### Values the spec leaves open -/

/-- A free value and the state after it is drawn (log 1). -/
def State.free (s : State) : Word × State := (Config.freeValue s.freeCtr, { s with freeCtr := s.freeCtr + 1 })

/-! ### The outbox -/

/-- Appends what leaves the device. -/
def State.emit (s : State) (o : Output) : State := { s with out := s.out ++ [o] }

/-! ### Stamps (R103 to R106) -/

/-- Device time in whole nanoseconds. -/
def State.nowNs (s : State) : Nat := s.time.sec.toNat * 1000000000 + s.time.ns

/-- The short stamp of a time in nanoseconds (R103). -/
def stampOfNs (t : Nat) : Word :=
  BitVec.ofNat 64 (t / 1000000000 % 2 ^ 34 * 2 ^ 30 + t % 1000000000)

/-- The short stamp of the current tick (R102). -/
def State.now (s : State) : Word := stampOfNs s.nowNs

/-- The seconds of a short stamp. -/
def stampSec (w : Word) : Nat := w.toNat / 2 ^ 30

/-- The nanoseconds of a short stamp. -/
def stampNsec (w : Word) : Nat := w.toNat % 2 ^ 30

/-- Whether a stamp is malformed (R104). -/
def stampBad (w : Word) : Bool := decide (1000000000 ≤ stampNsec w)

/-- The signed stamp difference a − b in ns (R105). -/
def stampDiff (a b : Word) : Int :=
  let ds : Nat := (stampSec a + 2 ^ 34 - stampSec b) % 2 ^ 34
  let ds' : Int := if 2 ^ 33 ≤ ds then (ds : Int) - ((2 ^ 34 : Nat) : Int) else (ds : Int)
  ds' * 1000000000 + ((stampNsec a : Int) - (stampNsec b : Int))

/-- A short stamp moved by a signed number of ns; the seconds wrap at 2³⁴. -/
def stampAdd (w : Word) (d : Int) : Word :=
  let t : Int := (stampSec w : Int) * 1000000000 + (stampNsec w : Int) + d
  let m : Int := ((2 ^ 34 * 1000000000 : Nat) : Int)
  stampOfNs (t % m).toNat

/-- The 32-bit CAN stamp of a time (R106). -/
def canStampOfNs (t : Nat) : BitVec 32 := BitVec.ofNat 32 t

/-! ### Grade and optional units (R1 to R3) -/

/-- GLB_CAPS.GRADE: 1 F, 2 E, 3 C (R40). -/
def State.grade (s : State) : Nat := s.fld R.GLB_CAPS F.GLB_CAPS_GRADE

def State.hasSolver (s : State) : Bool := s.bit R.GLB_CAPS F.GLB_CAPS_SOLVER

def State.hasChords (s : State) : Bool := s.bit R.GLB_CAPS F.GLB_CAPS_CHORD

/-- Whether logical core n is active (R22, R558). -/
def State.coreActive (s : State) (n : Nat) : Bool :=
  (s.fld R.FLT_MAP F.FLT_MAP_ACTIVE).testBit n

/-- The bytes of HBM that the grade has (R35). -/
def State.hbmBytes (s : State) : Nat := s.fld R.GLB_CAPS F.GLB_CAPS_HBM_STACKS * 0x900000000

/-! ### Interrupts (R594 to R596) -/

/-- The reset value of a word of the MSI-X table: every vector masked, address and data 0 (log 4). -/
def msixReset (k : Nat) : Word := if k % 2 = 1 then 0x0000000100000000 else 0

/-- A word of the MSI-X table: word 2v holds the address of vector v, word 2v + 1 its data [31:0] and its mask bit [32]. -/
def State.msixWord (s : State) (k : Nat) : Word := Store.get msixReset s.host.msixTable k

/-- Whether a vector is masked, by itself or by the function (R594). -/
def State.vecMasked (s : State) (v : Nat) : Bool := s.host.msixFnMask || (s.msixWord (2 * v + 1)).getLsbD 32

/-- Whether the endpoint can put requests on the link: it is up and Bus Master Enable is set (R593). -/
def State.canMaster (s : State) : Bool := s.bit R.GLB_HOST_STAT F.GLB_HOST_STAT_LINK_UP && s.host.busMaster && !s.host.d3hot

/-- The pending bit of a vector. -/
def State.setPba (s : State) (v : Nat) (b : Bool) : State :=
  { s with host := { s.host with pba := Store.set (fun _ => false) s.host.pba v b } }

/-- Sends the message of a vector; while the endpoint cannot master the link the vector waits (log 16). -/
def State.sendVec (s : State) (v : Nat) : State :=
  if s.canMaster then s.emit (.msix v (s.msixWord (2 * v)) (BitVec.ofNat 64 ((s.msixWord (2 * v + 1)).toNat % 2 ^ 32)))
  else if s.host.waiting.contains v then s
  else { s with host := { s.host with waiting := s.host.waiting ++ [v] } }

/-- Raises a vector (R594, R595): nothing above 2,047 or while MSI-X is disabled; a masked one sets its pending bit. -/
def State.raiseVec (s : State) (v : Nat) : State :=
  if 2047 < v ∨ s.host.msixEnable = false then s
  else if s.vecMasked v then s.setPba v true
  else s.sendVec v

/-- The source flags of the cause bits 0 to 31 of GLB_IRQ_STAT (R596). -/
def State.causeOf (s : State) (i : Nat) : Bool :=
  match i with
  | 0 => s.bit R.GLB_STEP_RATE F.GLB_STEP_RATE_ALARM
  | 1 => s.bit R.FAB_STATUS F.FAB_STATUS_DONE_EVT
  | 2 => s.bit R.TIME_STAT F.TIME_STAT_HOLDOVER || s.bit R.TIME_STAT F.TIME_STAT_REF_LOSS
  | 3 => s.bit R.SPD_STAT F.SPD_STAT_UNCORR
  | 4 => s.bit R.KV_STAT F.KV_STAT_DESC_UNCORR
  | 5 => s.bit R.SOL_STAT F.SOL_STAT_ECC_UNCORR
  | 6 => s.bit R.CTL_STAT F.CTL_STAT_MEM_UNCORR || s.bit R.CTL_STAT F.CTL_STAT_OVERRUN
  | 7 => s.bit R.HBM_STAT F.HBM_STAT_UNCORR
  | 8 => s.bit R.DET_LS_STAT F.DET_LS_STAT_DIVERGE
  | 9 => s.bit R.FLT_STAT F.FLT_STAT_EVENT
  | 10 => s.bit R.PWR_STAT F.PWR_STAT_ALERT || s.bit R.PWR_STAT F.PWR_STAT_TRIP
  | 11 => !(s.reg R.PLB_LATCHED == 0) || s.bit R.PLB_STAT F.PLB_STAT_PLUMB_FAULT
  | 12 => s.bit R.MGT_MBOX_OUT_CTL F.MGT_MBOX_OUT_CTL_FULL
  | _ => if 16 ≤ i ∧ i < 32 then !(s.reg (R.CORE_ERR (i - 16)) == 0) else false

/-- Whether a cause bit of GLB_IRQ_STAT reads 1: a summary for bits 0 to 31, its own W1C bit for TCMP (R596). -/
def State.cause (s : State) (i : Nat) : Bool :=
  if i < 32 then s.causeOf i else (s.reg R.GLB_IRQ_STAT).getLsbD i

/-- Raises the vector of cause i where its bit went from 0 before to 1 now while its mask bit is 0 (R595). -/
def State.irqEdge (s : State) (i : Nat) (before : Bool) : State :=
  if !before && s.cause i && !(s.reg R.GLB_IRQ_MASK).getLsbD i then
    s.raiseVec (s.fld R.GLB_IRQ_CFG F.GLB_IRQ_CFG_BASE + i)
  else s

/-- Applies an effect that may set a source flag of cause i, and raises the cause's vector if it did. -/
def State.withCause (s : State) (i : Nat) (f : State → State) : State :=
  (f s).irqEdge i (s.cause i)

/-- The value GLB_IRQ_STAT reads: the summaries of bits 0 to 31 beside the stored TCMP bits (R596). -/
def State.irqStat (s : State) : Word :=
  (s.reg R.GLB_IRQ_STAT &&& 0xFFFFFFFF00000000) |||
    BitVec.ofNat 64 ((List.range 32).foldl (fun a i => if s.causeOf i then a + 2 ^ i else a) 0)

/-! ### Error events (R556) -/

/-- The hierarchy position an event names: 0 on the manager and without chords, 0xFF on a worker not enumerated (R556, R479). -/
def State.position (s : State) : Nat :=
  if !s.hasChords || s.bit R.CHD_CFG F.CHD_CFG_MANAGER then 0
  else if s.bit R.CHD_CFG F.CHD_CFG_ENUMERATED then s.fld R.CHD_CFG F.CHD_CFG_POSITION
  else 0xFF

/-- Writes a 32-byte event into the ring of 256 entries, advances FLT_EVT_PROD and sets FLT_STAT.EVENT (R556, R558). detail is the 16 bytes of DETAIL as two words. -/
def State.event (s : State) (kind source : Nat) (d0 d1 : Word) : State :=
  let p := s.fld R.FLT_EVT_PROD F.FLT_EVT_PROD_PROD
  let i := p % 256
  let w1 : Word := BitVec.ofNat 64 (p + kind * 2 ^ 32 + s.position * 2 ^ 40 + source % 65536 * 2 ^ 48)
  let s1 := (((s.setReg (R.FLT_EVT i 0) s.now).setReg (R.FLT_EVT i 1) w1).setReg (R.FLT_EVT i 2) d0).setReg (R.FLT_EVT i 3) d1
  let s2 := s1.wrapAdd R.FLT_EVT_PROD F.FLT_EVT_PROD_PROD 1
  s2.withCause 9 (fun t => t.setFld R.FLT_STAT F.FLT_STAT_EVENT 1)

end Sys2Proof.Machine
end

