-- ==== Sys2Proof/Machine/Flags.lean ====
section
/-! DEFINITION. Completion status and flags: the codes of R13, their order (R15), the flag bits of R439, and the running command of a queue that they are recorded on. -/

namespace Sys2Proof.Machine

/-! ### Status codes (R13) -/

def stDone : BitVec 8 := 0x00
def stFlagged : BitVec 8 := 0x01
def stLate : BitVec 8 := 0x02
def stRejected : BitVec 8 := 0x03
def stAborted : BitVec 8 := 0x04
def stCollision : BitVec 8 := 0x05
def stRemoteTimeout : BitVec 8 := 0x06
def stFenced : BitVec 8 := 0x07
def stSeqGap : BitVec 8 := 0x08
def stInvalidOutput : BitVec 8 := 0x09
def stIntegrity : BitVec 8 := 0x0A
def stNotPresent : BitVec 8 := 0x0B
def stAuthFail : BitVec 8 := 0x0C
def stBusyNoSlack : BitVec 8 := 0x0D
def stOverflow : BitVec 8 := 0x0E
def stWarmMismatch : BitVec 8 := 0x0F

/-- The place of a status in the order of R15: the smaller number is reported. A LATE before the start ranks fifth and is given its own code by the caller, which alone can produce it. -/
def statusRank (st : BitVec 8) : Nat :=
  match st.toNat with
  | 0x08 => 1 | 0x0B => 2 | 0x0C => 3 | 0x03 => 4 | 0x0D => 6 | 0x07 => 7 | 0x04 => 8
  | 0x0A => 9 | 0x09 => 10 | 0x0E => 11 | 0x06 => 12 | 0x02 => 13 | 0x05 => 14 | 0x0F => 15
  | 0x01 => 16 | _ => 17

/-- The status reported when two conditions apply (R15). -/
def worse (a b : BitVec 8) : BitVec 8 := if statusRank a ≤ statusRank b then a else b

/-! ### Flag bits (R439) -/

def fgBudgetCut : Nat := 5
def fgStartedLate : Nat := 6
def fgNotStarted : Nat := 7
def fgStepBound : Nat := 8
def fgAccessDenied : Nat := 9
def fgAddrUnmapped : Nat := 10
def fgBankDown : Nat := 11
def fgPreempted : Nat := 12

/-- A flag bit as a set of flags. -/
def flagBit (i : Nat) : BitVec 24 := BitVec.ofNat 24 (2 ^ i)

/-- The flags that alone make a command DONE_FLAGGED: the format flags, ACCESS_DENIED, ADDR_UNMAPPED, BANK_DOWN and the unit flags (R13, R186, R33, R36; log 17). -/
def flaggingMask : BitVec 24 := 0x3FEE1F

/-- The status a command of a unit reports, from the conditions recorded on it (R13, R15, R186). WARM_USED of the solver flags nothing (R359). -/
def finalStatus (c : Cmd) (unit : Nat := 0) : BitVec 8 :=
  let m := if unit = 5 then flaggingMask &&& ~~~ (BitVec.ofNat 24 (2 ^ 15)) else flaggingMask
  if c.status = stDone ∧ !(c.flags &&& m == 0) then stFlagged else c.status

/-! ### Queues and their commands -/

/-- The state of a queue beyond its registers. -/
def State.queue (s : State) (q : Nat) : Queue := Store.get (fun _ => ({} : Queue)) s.queues q

def State.setQueue (s : State) (q : Nat) (x : Queue) : State :=
  { s with queues := Store.set (fun _ => ({} : Queue)) s.queues q x }

/-- The oldest command of a queue not yet retired: the one it executes (R435). -/
def State.head (s : State) (q : Nat) : Option Cmd := (s.queue q).cmds.head?

/-- Changes the oldest command of a queue. -/
def State.updHead (s : State) (q : Nat) (f : Cmd → Cmd) : State :=
  match (s.queue q).cmds with
  | [] => s
  | c :: r => s.setQueue q { s.queue q with cmds := f c :: r }

/-- Sets flags on the command a queue executes. -/
def State.cmdFlags (s : State) (q : Nat) (fl : BitVec 24) : State :=
  s.updHead q (fun c => { c with flags := c.flags ||| fl })

/-- Records a condition on the command a queue executes (R15). -/
def State.cmdStatus (s : State) (q : Nat) (st : BitVec 8) : State :=
  s.updHead q (fun c => { c with status := worse st c.status })

/-- Whether the command a queue executes has started and not ended. -/
def State.executing (s : State) (q : Nat) : Bool :=
  match s.head q with
  | some c => c.phase == .running || c.phase == .stopping
  | none => false

/-- Ends the execution of a queue's command with a further condition: its end stamp is the current tick (R438). -/
def State.endCmd (s : State) (q : Nat) (st : BitVec 8) : State :=
  s.updHead q (fun c => { c with phase := .ended, status := worse st c.status, stop := s.now })

/-! ### Fields of a command descriptor (R436) -/

def Cmd.opcode (c : Cmd) : Nat := sliceN c.desc 0 1
def Cmd.ctl (c : Cmd) : Nat := sliceN c.desc 1 1
def Cmd.budgetKind (c : Cmd) : Nat := c.ctl % 4
def Cmd.dropIfLate (c : Cmd) : Bool := c.ctl / 4 % 2 == 1
def Cmd.irq (c : Cmd) : Bool := c.ctl / 8 % 2 == 1
def Cmd.context (c : Cmd) : Nat := sliceN c.desc 2 2 % 4096
def Cmd.timing (c : Cmd) : Nat := sliceN c.desc 8 8
def Cmd.fmtByte (c : Cmd) (i : Nat) : Nat := sliceN c.desc (16 + i) 1
def Cmd.rnd (c : Cmd) : Nat := sliceN c.desc 19 1 % 4

/-- n bytes of the payload from an offset within it. -/
def Cmd.pl (c : Cmd) (off n : Nat) : Nat := sliceN c.desc (24 + off) n

/-! ### Ownership (R30, R31) -/

/-- The canton that owns a logical core. -/
def State.cantonOfCore (s : State) (n : Nat) : Option Nat :=
  (List.range 8).find? (fun c => s.bit (R.FAB_CANTON c) F.FAB_CANTON_ACTIVE && (s.fld (R.FAB_CANTON c) F.FAB_CANTON_CORE_MASK).testBit n)

/-- The canton that owns a queue: none for a queue not bound. -/
def State.cantonOfQueue (s : State) (q : Nat) : Option Nat :=
  if s.bit (R.QUE_CFG q) F.QUE_CFG_ACTIVE then some (s.fld (R.QUE_CFG q) F.QUE_CFG_CANTON) else none

/-- The canton that owns a context. -/
def State.cantonOfCtx (s : State) (x : Nat) : Option Nat :=
  if s.bit (R.SCH_CTX_STAT x) F.SCH_CTX_STAT_VALID then some (s.fld (R.SCH_CTX_STAT x) F.SCH_CTX_STAT_CANTON) else none

/-! ### Cores -/

/-- The state of a logical core beyond its registers. -/
def State.core (s : State) (n : Nat) : Core := Store.get (fun _ => ({} : Core)) s.cores n

def State.setCore (s : State) (n : Nat) (x : Core) : State :=
  { s with cores := Store.set (fun _ => ({} : Core)) s.cores n x }

/-- Sets flags on the command that a core runs. -/
def State.coreFlags (s : State) (n : Nat) (fl : BitVec 24) : State :=
  match (s.core n).running with
  | some q => s.cmdFlags q fl
  | none => s

/-- Sets format flags on the command that a core runs (R186, R222). -/
def State.coreFmt (s : State) (n : Nat) (fl : FmtFlags) : State :=
  if fl = 0 then s else s.coreFlags n (fl.setWidth 24)

/-- The bits of CORE_ERR (R226). -/
def ceResidue : Nat := 0
def ceAccDup : Nat := 1
def ceSpdEcc : Nat := 2
def ceImemEcc : Nat := 3
def ceFmtIllegal : Nat := 4
def ceAccessDenied : Nat := 5
def ceAddrUnmapped : Nat := 6
def ceCollisionLost : Nat := 7
def ceStepBound : Nat := 8
def ceInjected : Nat := 9

/-- Sets a bit of CORE_ERR of core n. The first error after CORE_ERR was all zero is captured in CORE_ERR_INFO with its bundle, context, source, cause and column (R227), and the core's interrupt cause is raised (R223). -/
def State.coreErr (s : State) (n bitNo source column : Nat) : State :=
  s.withCause (16 + n) (fun s =>
    let first := s.reg (R.CORE_ERR n) == 0
    let s1 := s.setReg (R.CORE_ERR n) (s.reg (R.CORE_ERR n) ||| BitVec.ofNat 64 (2 ^ bitNo))
    if first then
      s1.setReg (R.CORE_ERR_INFO n)
        (BitVec.ofNat 64 (2 ^ 63 + (s.core n).ctx.pc % 2 ^ 15 * 2 ^ 48 + (s.core n).context % 2 ^ 12 * 2 ^ 36
          + source % 16 * 2 ^ 32 + bitNo * 2 ^ 16 + column % 128))
    else s1)

/-- Captures the address of the first ACCESS_DENIED or ADDR_UNMAPPED access since both bits were clear (R226). -/
def State.coreErrAddr (s : State) (n addr : Nat) : State :=
  if (s.reg (R.CORE_ERR n)).getLsbD ceAccessDenied || (s.reg (R.CORE_ERR n)).getLsbD ceAddrUnmapped then s
  else s.setReg (R.CORE_ERR_ADDR n) (BitVec.ofNat 64 (addr % 2 ^ 48))

/-- Records an access outside every granted window on the core and its command (R33, R201). -/
def State.coreDenied (s : State) (n source addr : Nat) : State :=
  ((s.coreErrAddr n addr).coreErr n ceAccessDenied source 0).coreFlags n (flagBit fgAccessDenied)

/-- Records an access to an unmapped device address on the core and its command (R36). -/
def State.coreUnmapped (s : State) (n source addr : Nat) : State :=
  ((s.coreErrAddr n addr).coreErr n ceAddrUnmapped source 0).coreFlags n (flagBit fgAddrUnmapped)

/-- Records an operation that names a format or shape its engine does not accept (R182). -/
def State.coreFmtIllegal (s : State) (n source : Nat) : State :=
  (s.coreErr n ceFmtIllegal source 0).coreFmt n flagFmtIllegal

end Sys2Proof.Machine
end

