-- ==== Sys2Proof/Machine/Access.lean ====
section
/-! DEFINITION. Who may reach a register: the owner of each register (R647), the canton check of a mirror access (R33), and the restrictions of R12. -/

namespace Sys2Proof.Machine

/-- Index of an entry of an array of registers at a base with a stride. -/
def idx (off base stride : Nat) : Nat := (off - base) / stride

/-- If a resource is configured, its canton. -/
def ownedIf (b : Bool) (c : Nat) : Option Nat := if b then some c else none

/-- The canton that owns the resource a register describes; none for chip-wide registers and resources that no canton owns (R647). -/
def State.regOwner (s : State) (off : Nat) : Option Nat :=
  let at2 (r : Nat) (a : Fld) (c : Fld) : Option Nat := ownedIf (s.bit r a) (s.fld r c)
  if 0x201000 ≤ off ∧ off < 0x201800 then
    at2 (R.TIME_CMP_CFG (idx off 0x201000 0x20)) F.TIME_CMP_CFG_ACTIVE F.TIME_CMP_CFG_CANTON
  else if 0x301000 ≤ off ∧ off < 0x301400 then
    at2 (R.IMG_PORT_CFG (idx off 0x301000 0x40)) F.IMG_PORT_CFG_ACTIVE F.IMG_PORT_CFG_CANTON
  else if 0x302000 ≤ off ∧ off < 0x302040 then
    at2 (R.ETH_CFG (idx off 0x302000 0x10)) F.ETH_CFG_ACTIVE F.ETH_CFG_CANTON
  else if 0x304000 ≤ off ∧ off < 0x306000 then
    at2 (R.IMG_SRC_CFG (idx off 0x304000 0x40)) F.IMG_SRC_CFG_ACTIVE F.IMG_SRC_CFG_CANTON
  else if 0x400000 ≤ off ∧ off < 0x500000 then s.cantonOfCore (idx off 0x400000 0x10000)
  else if 0x610000 ≤ off ∧ off < 0x61A000 then
    at2 (R.SPD_BANK_CFG (idx off 0x610000 0x20)) F.SPD_BANK_CFG_ASSIGNED F.SPD_BANK_CFG_CANTON
  else if 0x700100 ≤ off ∧ off < 0x700200 then
    ownedIf (s.bit (R.KV_POOL_CFG (idx off 0x700100 0x20)) F.KV_POOL_CFG_ACTIVE) (idx off 0x700100 0x20)
  else if 0x708000 ≤ off ∧ off < 0x728000 then s.cantonOfCtx (idx off 0x708000 0x20)
  else if 0x800100 ≤ off ∧ off < 0x800200 then
    at2 (R.CTL_GROUP_CFG (idx off 0x800100 0x20)) F.CTL_GROUP_CFG_ACTIVE F.CTL_GROUP_CFG_CANTON
  else if 0x810000 ≤ off ∧ off < 0x814000 then
    at2 (R.CTL_SLOT_CFG (idx off 0x810000 0x20)) F.CTL_SLOT_CFG_ACTIVE F.CTL_SLOT_CFG_CANTON
  else if 0x820000 ≤ off ∧ off < 0x820200 then
    let m := idx off 0x820000 8
    if s.bit (R.CTL_SEL_STAT m) F.CTL_SEL_STAT_ACTIVE then
      at2 (R.CTL_GROUP_CFG (s.fld (R.CTL_SEL_STAT m) F.CTL_SEL_STAT_GROUP)) F.CTL_GROUP_CFG_ACTIVE F.CTL_GROUP_CFG_CANTON
    else none
  else if 0x830000 ≤ off ∧ off < 0x830080 then
    at2 (R.CTL_GROUP_CFG (s.fld (R.CTL_TRACE_CFG (idx off 0x830000 0x20)) F.CTL_TRACE_CFG_GROUP)) F.CTL_GROUP_CFG_ACTIVE F.CTL_GROUP_CFG_CANTON
  else if 0x831000 ≤ off ∧ off < 0x831100 then
    let t := s.fld (R.CTL_PROBE (idx off 0x831000 8)) F.CTL_PROBE_SET
    at2 (R.CTL_GROUP_CFG (s.fld (R.CTL_TRACE_CFG t) F.CTL_TRACE_CFG_GROUP)) F.CTL_GROUP_CFG_ACTIVE F.CTL_GROUP_CFG_CANTON
  else if 0x881000 ≤ off ∧ off < 0x881600 then
    at2 (R.SIO_SP_CFG (idx off 0x881000 0x40)) F.SIO_SP_CFG_ACTIVE F.SIO_SP_CFG_CANTON
  else if 0x882000 ≤ off ∧ off < 0x882080 then
    at2 (R.SIO_CONV_CFG (idx off 0x882000 8)) F.SIO_CONV_CFG_ACTIVE F.SIO_CONV_CFG_CANTON
  else if 0x883000 ≤ off ∧ off < 0x883600 then
    at2 (R.SIO_ACT_CFG (idx off 0x883000 0x20)) F.SIO_ACT_CFG_ACTIVE F.SIO_ACT_CFG_CANTON
  else if 0x900000 ≤ off ∧ off < 0x980000 then
    at2 (R.CAN_CFG (idx off 0x900000 0x10000)) F.CAN_CFG_ACTIVE F.CAN_CFG_CANTON
  else if 0x980000 ≤ off ∧ off < 0x980400 then
    at2 (R.ETH_CFG (idx off 0x980000 0x100)) F.ETH_CFG_ACTIVE F.ETH_CFG_CANTON
  else if 0xA10000 ≤ off ∧ off < 0xA30000 then s.cantonOfCtx (idx off 0xA10000 0x20)
  else if 0xC00000 ≤ off ∧ off < 0x1000000 then s.cantonOfQueue (idx off 0xC00000 0x40)
  else if 0x1201000 ≤ off ∧ off < 0x1201800 then
    at2 (R.PLB_REG_CFG (idx off 0x1201000 0x20)) F.PLB_REG_CFG_ACTIVE F.PLB_REG_CFG_CANTON
  else none

/-- The windows that canton c's section grants its programs (R429). -/
def State.windowsOf (s : State) (c : Nat) : List Window := Store.get (fun _ => ([] : List Window)) s.windows c

/-- Whether a window of canton c covers n bytes at a device address for a read or a write (R33). -/
def State.windowed (s : State) (c : Nat) (write : Bool) (a n : Nat) : Bool :=
  (s.windowsOf c).any (fun w => decide (w.base ≤ a ∧ a + n ≤ w.base + w.len) && (if write then w.canWrite else w.canRead))

/-- The canton an access acts for: a core's own canton, the canton that CHD_PORT_CFG names for a chord port (R487). Host software and the management processor act for none. -/
def State.reqCanton (s : State) : Req → Option Nat
  | .core n => s.cantonOfCore n.val
  | .chord p => some (s.fld (R.CHD_PORT_CFG p.val) F.CHD_PORT_CFG_IN_CANTON)
  | _ => none

/-- Whether a requester is software of the host, over either BAR. -/
def isHost : Req → Bool
  | .host => true
  | .bar2 => true
  | _ => false

/-- The blocks that BAR0 serves before the boot reaches WAIT_STREAM: GLB, FAB, SEC and PWR (R612). -/
def earlyBlock (off : Nat) : Bool := decide (off < 0x200000) || decide (0x1300000 ≤ off ∧ off < 0x1400000)

/-- Whether the boot has gone so far that every block answers: STAGE from WAIT_STREAM to OPERATIONAL, or REJECTED (R612, R623). -/
def State.bootServes (s : State) : Bool :=
  let g := s.fld R.SEC_BOOT_STAT F.SEC_BOOT_STAT_STAGE
  decide (3 ≤ g ∧ g ≤ 7) || g == 11

/-- Whether step 2 of the boot has completed, so that the endpoint answers more than configuration requests (R612). -/
def State.bootAnswers (s : State) : Bool :=
  let g := s.fld R.SEC_BOOT_STAT F.SEC_BOOT_STAT_STAGE
  decide (2 ≤ g ∧ g ≠ 8)

/-- Whether a request of the host reaches the register at an offset: not in D3hot (R587), and the boot serves its block (R612). Every other requester reaches it. -/
def State.hears (s : State) (r : Req) (off : Nat) : Bool :=
  !isHost r || (!s.host.d3hot && s.bootAnswers && (s.bootServes || earlyBlock off))

/-- Whether a requester comes over the register mirror: everything but BAR0 and the management processor (R12). -/
def isMirror : Req → Bool
  | .host => false
  | .mgt => false
  | _ => true

/-- Whether a requester writes a register that the manual names it as a writer of: a program its own inbox or a lock-step feed (R647), the manager's firmware a worker's FLT_PEN registers through its remote window (R555). -/
def ownWriter (r : Req) (off : Nat) : Bool :=
  match r with
  | .core n => decide (off = R.PLB_INBOX n.val) || decide (0x1181400 ≤ off ∧ off < 0x1181440)
  | .chord _ => decide (off = R.FLT_PEN_STAGE ∨ off = R.FLT_PEN_CMD)
  | _ => false

/-- Blocks and registers that ignore mirror writes (R12): the PWR, SEC and MGT blocks, PLB_ACK and PLB_CTL. -/
def mirrorReadOnly (off : Nat) : Bool :=
  decide (0x1300000 ≤ off ∧ off < 0x1440000) || decide (off = R.PLB_ACK) || decide (off = R.PLB_CTL)

/-- Whether a requester may read a register (R33, R487, R647). -/
def State.mayRead (s : State) (r : Req) (off : Nat) : Bool :=
  match r with
  | .host | .bar2 | .mgt | .other => true
  | .core _ | .chord _ =>
    match s.regOwner off with
    | none => true
    | some c => s.reqCanton r == some c ||
      (match s.reqCanton r with
        | some c' => s.windowed c' false (0x200000000000 + off) 8
        | none => false)

/-- Whether a requester may write a register (R12, R33, R647). -/
def State.mayWrite (s : State) (r : Req) (off : Nat) : Bool :=
  !(isMirror r && mirrorReadOnly off) &&
  match r with
  | .host | .bar2 | .mgt | .other => true
  | .core _ | .chord _ =>
    match s.regOwner off with
    | none => ownWriter r off
    | some c => s.reqCanton r == some c ||
      (match s.reqCanton r with
        | some c' => s.windowed c' true (0x200000000000 + off) 8
        | none => false)

/-- Records a register access that the canton check refused: on the core that made it (R33), or on the chord port it arrived at (R487). -/
def State.refuseAccess (s : State) (r : Req) (off : Nat) : State :=
  match r with
  | .core n => s.coreDenied n.val 4 (0x200000000000 + off)
  | .chord p => s.satAdd (R.CHD_PORT_CNT p.val) F.CHD_PORT_CNT_DENIED 1
  | _ => s

/-- Whether a register is present: the registers of an absent unit read as zero and ignore writes (R3), as do the CORE block of an inactive core (R22), its banks, camera ports beyond the grade, control slots not configured (R392) and CAN controllers not configured (R395). A queue that is not bound ignores writes too, and reads as its reset values (R462). -/
def State.regPresent (s : State) (off : Nat) : Bool :=
  if 0x780000 ≤ off ∧ off < 0x800000 then s.hasSolver
  else if 0x1100000 ≤ off ∧ off < 0x1180000 then s.hasChords
  else if 0x400000 ≤ off ∧ off < 0x500000 then s.coreActive (idx off 0x400000 0x10000)
  else if 0x610000 ≤ off ∧ off < 0x618000 then s.coreActive (idx off 0x610000 0x20 / 64)
  else if 0x301000 ≤ off ∧ off < 0x301400 then decide (idx off 0x301000 0x40 < s.fld R.GLB_CAPS F.GLB_CAPS_CAM_PORTS)
  else if 0x810000 ≤ off ∧ off < 0x814000 then s.bit (R.CTL_SLOT_CFG (idx off 0x810000 0x20)) F.CTL_SLOT_CFG_ACTIVE
  else if 0x900000 ≤ off ∧ off < 0x980000 then s.bit (R.CAN_CFG (idx off 0x900000 0x10000)) F.CAN_CFG_ACTIVE
  else if 0xC00000 ≤ off ∧ off < 0x1000000 then s.bit (R.QUE_CFG (idx off 0xC00000 0x40)) F.QUE_CFG_ACTIVE
  else true

/-- What a register that is not present reads as: zero, or for a queue that is not bound its reset value. -/
def absentValue (off : Nat) : Word := if 0xC00000 ≤ off ∧ off < 0x1000000 then resetVal off else 0

/-- The place of a requester among the latches of R648. -/
def latchKey : Req → Nat
  | .host => 0
  | .bar2 => 0
  | .mgt => 1
  | .core n => 2 + n.val
  | .chord _ => 18
  | .other => 18

/-- Returns read data to its requester, the lanes the access covers. -/
def State.answer (s : State) (r : Req) (off : Nat) (h : Half) (v : Word) : State :=
  s.emit (.readData r off (v &&& halfMask h))

/-- Runs the effect of a write that its register's presence and the access checks let through (R3, R12, R33). -/
def State.guardW (s : State) (r : Req) (off : Nat) (f : State → State) : State :=
  if !s.hears r off || !s.regPresent off then s
  else if s.mayWrite r off then f s
  else if isMirror r && mirrorReadOnly off then s
  else s.refuseAccess r off

/-- Runs the effect of a read that its register's presence and the access checks let through; otherwise the read returns zero (R3, R33, R612). In D3hot the endpoint does not serve it (R587). -/
def State.guardR (s : State) (r : Req) (off : Nat) (h : Half) (f : State → State) : State :=
  if isHost r && (s.host.d3hot || !s.bootAnswers) then s.emit .unsupported
  else if !s.hears r off then s.answer r off h 0
  else if !s.regPresent off then s.answer r off h (absentValue off)
  else if s.mayRead r off then f s
  else (s.refuseAccess r off).answer r off h 0

/-- A write of fewer than 64 bits to a register that acts only on 64-bit writes: ignored, with BAD_BAR0 when it came through BAR0 (R9). -/
def State.partialWrite (s : State) (r : Req) : State :=
  if r = .host then s.setFld R.GLB_HOST_STAT F.GLB_HOST_STAT_BAD_BAR0 1 else s

/-- The plain effect of a write on a register (R9 to R11): the covered RW fields take the value, covered W1C bits written with 1 clear. -/
def State.writeFields (s : State) (off : Nat) (h : Half) (v : Word) : State :=
  match regAt off with
  | none => s
  | some d =>
    let m := halfMask h
    let old := s.reg off
    let v1 := (old &&& ~~~ (d.rw &&& m)) ||| (v &&& d.rw &&& m)
    s.setReg off (v1 &&& ~~~ (v &&& d.w1c &&& m))

/-- The value a read returns before its masking to the covered lanes: write-only bits read as zero (R10). -/
def State.readValue (s : State) (off : Nat) : Word :=
  match regAt off with
  | none => 0
  | some d => s.reg off &&& ~~~ d.wo

/-- The plain effect of a read on a register: covered RC fields return to their reset value (R9, R10). -/
def State.clearRC (s : State) (off : Nat) (h : Half) : State :=
  match regAt off with
  | none => s
  | some d =>
    let m := d.rc &&& halfMask h
    if m = 0 then s else s.setReg off ((s.reg off &&& ~~~ m) ||| (d.reset &&& m))

end Sys2Proof.Machine
end

