-- ==== Sys2Proof/Machine/Time.lean ====
section
/-! DEFINITION. The timekeeping unit: device time, step and rate, holdover, the alternate domain, PPS, compares and captures (R100 to R132, R649). The effects of a fire on other units stand in Machine/TimeFire.lean. -/

namespace Sys2Proof.Machine

/-- The whole of one nanosecond in units of the fraction (R100). -/
def fracOne : Nat := 2 ^ 40

/-- Sets device time to a number of 2⁻⁴⁰ ns; seconds count modulo 2⁴⁸ (R100, R108). -/
def State.setTime (s : State) (t : Nat) : State :=
  let ns := t / fracOne
  { s with time := { s.time with sec := BitVec.ofNat 48 (ns / 1000000000), ns := ns % 1000000000, frac := t % fracOne } }

/-- Device time in units of 2⁻⁴⁰ ns. -/
def State.fineTime (s : State) : Nat := s.nowNs * fracOne + s.time.frac

/-- What one period of the 250 MHz clock adds at a rate, in units of 2⁻⁴⁰ ns: 4 × (1 + RATE × 2⁻⁴⁰) ns (R100). -/
def tickIncr (rate : Int) : Nat := (4 * ((fracOne : Nat) : Int) + 4 * rate).toNat

/-- The rate in force (R109). -/
def State.rate (s : State) : Int := signExt 32 (s.fld R.TIME_RATE F.TIME_RATE_RATE)

/-- Whether a requester is the servo owner (R107). -/
def State.isServo (s : State) (r : Req) : Bool :=
  if s.bit R.TIME_PTP_CFG F.TIME_PTP_CFG_SERVO then r == .mgt else isHost r

/-- Whether chord time sync is the source: its servo is then the only writer of step and rate (R489). -/
def State.chordSource (s : State) : Bool := s.fld R.TIME_PTP_CFG F.TIME_PTP_CFG_SOURCE == 1

/-! ### Holdover (R112, R113) -/

/-- Enters holdover with a cause: the flag, the cause, the TIME interrupt and the error event; a rate write that waited for this tick is ignored (R110, R112). -/
def State.enterHold (s : State) (cause : Nat) : State :=
  if s.bit R.TIME_STAT F.TIME_STAT_HOLDOVER then s
  else
    let s1 := s.withCause 2 (fun t => (t.setFld R.TIME_STAT F.TIME_STAT_HOLDOVER 1).setFld R.TIME_STAT F.TIME_STAT_HOLD_CAUSE cause)
    let s2 := match s1.time.ratePend with
      | some _ => { s1 with time := { s1.time with ratePend := none } }.setFld R.TIME_STAT F.TIME_STAT_RATE_IGNORED 1
      | none => s1
    s2.event 14 0 (BitVec.ofNat 64 cause) 0

/-- Ends holdover; the current grandmaster becomes the accepted one (R112). -/
def State.endHold (s : State) : State :=
  if s.bit R.TIME_STAT F.TIME_STAT_HOLDOVER then
    let s1 := (s.setFld R.TIME_STAT F.TIME_STAT_HOLDOVER 0).setFld R.TIME_STAT F.TIME_STAT_HOLD_CAUSE 0
    { s1 with time := { s1.time with holdEnded := true, acceptedGm := s1.time.currentGm } }
  else s

/-- Whether the condition of cause 1 holds: no Sync, or no chord time sync, for LOSS_TIMEOUT_MS (R112). -/
def State.syncLost (s : State) : Bool :=
  (s.bit R.TIME_PTP_CFG F.TIME_PTP_CFG_PTP_ENABLE || s.chordSource) &&
  decide (s.time.lastSync + s.fld R.TIME_PTP_CFG F.TIME_PTP_CFG_LOSS_TIMEOUT_MS * 1000000 ≤ s.nowNs)

/-- Holdover is entered again in the tick after it ended while the condition of cause 1 or 3 still holds (R112). -/
def State.rehold (s : State) : State :=
  if s.time.holdEnded then
    let s1 := { s with time := { s.time with holdEnded := false } }
    if s1.syncLost then s1.enterHold 1
    else if s1.bit R.TIME_STAT F.TIME_STAT_REF_LOSS then s1.enterHold 3
    else s1
  else s

/-! ### Compares (R118 to R120, R649) -/

def State.cmpMode (s : State) (n : Nat) : Nat := s.fld (R.TIME_CMP_CFG n) F.TIME_CMP_CFG_MODE
def State.cmpPeriod (s : State) (n : Nat) : Nat := s.fld (R.TIME_CMP_TIMING n) F.TIME_CMP_TIMING_PERIOD_NS
def State.cmpPhase (s : State) (n : Nat) : Nat := s.fld (R.TIME_CMP_TIMING n) F.TIME_CMP_TIMING_PHASE_NS
def State.cmpDue (s : State) (n : Nat) : Option CmpDue := Store.get (fun _ => none) s.time.due n
def State.cmpArmed (s : State) (n : Nat) : Bool := s.time.armed.getLsbD n

def State.setDue (s : State) (n : Nat) (d : Option CmpDue) : State :=
  { s with time := { s.time with due := Store.set (fun _ => none) s.time.due n d } }

def State.setArmed (s : State) (n : Nat) (b : Bool) : State :=
  let m : BitVec 64 := BitVec.ofNat 64 (2 ^ n)
  { s with time := { s.time with armed := if b then s.time.armed ||| m else s.time.armed &&& ~~~ m } }

/-- Gives a compare a next fire stamp. -/
def State.cmpSetNext (s : State) (n : Nat) (w : Word) : State := (s.setReg (R.TIME_CMP_NEXT n) w).setArmed n true

/-- The first grid point after a time in ns, of period p > 0 and phase ph (R118). -/
def gridAfter (p ph t : Nat) : Nat := t + 1 + (ph + p * (t + 1) - (t + 1)) % p

/-- The first grid point at or after a time in ns (R118). -/
def gridFrom (p ph t : Nat) : Nat := t + (ph + p * t - t) % p

/-- Marks as due every armed compare whose next fire stamp device time has reached; a point that the tick before had passed already is late (R118, R649). prev is the stamp of the tick before. -/
def State.markDue (s : State) (prev : Word) : Nat → State
  | 0 => s
  | n + 1 =>
    let s1 := s.markDue prev n
    let nx := s1.reg (R.TIME_CMP_NEXT n)
    if s1.cmpArmed n && (s1.cmpDue n).isNone && decide (0 ≤ stampDiff s1.now nx) then
      let late := decide (0 ≤ stampDiff prev nx)
      s1.setDue n (some { stamp := if late then s1.now else nx, late := late })
    else s1

/-- What a step of d ns does to the compares, after device time has moved (R120). Those already due fire on the uncorrected time; of mode 1 they move on with the step. -/
def State.stepCompares (s : State) (d : Int) : Nat → State
  | 0 => s
  | n + 1 =>
    let s1 := s.stepCompares d n
    if !s1.cmpArmed n then s1
    else
      let nx := s1.reg (R.TIME_CMP_NEXT n)
      match s1.cmpMode n with
      | 1 => s1.setReg (R.TIME_CMP_NEXT n) (stampAdd nx d)
      | 2 =>
        if (s1.cmpDue n).isSome then s1
        else if d < 0 then
          let g := stampOfNs (gridAfter (s1.cmpPeriod n) (s1.cmpPhase n) s1.nowNs)
          if stampDiff g nx < 0 then s1.setReg (R.TIME_CMP_NEXT n) g else s1
        else if 0 ≤ stampDiff s1.now nx then s1.setDue n (some { stamp := s1.now, late := true })
        else s1
      | _ =>
        if (s1.cmpDue n).isNone && decide (0 < d) && decide (0 ≤ stampDiff s1.now nx) then
          s1.setDue n (some { stamp := s1.now, late := true })
        else s1

/-- The register side of a fire: FIRES, LATE_FIRE and MISSED, and the next fire stamp (R118, R120). -/
def State.cmpFired (s : State) (n : Nat) (d : CmpDue) : State :=
  let s1 := (s.wrapAdd (R.TIME_CMP_CFG n) F.TIME_CMP_CFG_FIRES 1).setDue n none
  let nx := s1.reg (R.TIME_CMP_NEXT n)
  match s1.cmpMode n with
  | 1 => s1.setReg (R.TIME_CMP_NEXT n) (stampAdd nx (s1.cmpPeriod n : Nat))
  | 2 =>
    let passed := (stampDiff s1.now nx).toNat / s1.cmpPeriod n
    (s1.satAdd (R.TIME_CMP_CFG n) F.TIME_CMP_CFG_MISSED passed).setReg (R.TIME_CMP_NEXT n)
      (stampOfNs (gridAfter (s1.cmpPeriod n) (s1.cmpPhase n) s1.nowNs))
  | _ =>
    let s2 := (s1.setReg (R.TIME_CMP_NEXT n) 0).setArmed n false
    if d.late then s2.setFld (R.TIME_CMP_CFG n) F.TIME_CMP_CFG_LATE_FIRE 1 else s2

/-- Starts a configured compare at the instant its entry takes effect (R118). -/
def State.cmpStart (s : State) (n : Nat) : State :=
  let s0 := s.setDue n none
  if s.cmpMode n = 0 ∨ s.cmpPeriod n = 0 then (s0.setReg (R.TIME_CMP_NEXT n) 0).setArmed n false
  else s0.cmpSetNext n (stampOfNs (gridFrom (s.cmpPeriod n) (s.cmpPhase n) s.nowNs))

/-! ### The tick (R100, R110) -/

/-- Applies the pending switch to the alternate domain (R115). -/
def State.applySwitch (s : State) : State :=
  if s.time.switchPend then
    let p := s.fld R.TIME_PTP_CFG F.TIME_PTP_CFG_PORT
    let ap := s.fld R.TIME_PTP_CFG F.TIME_PTP_CFG_ALT_PORT
    let dm := s.fld R.TIME_PTP_CFG F.TIME_PTP_CFG_DOMAIN
    let ad := s.fld R.TIME_PTP_CFG F.TIME_PTP_CFG_ALT_DOMAIN
    let s1 := s.setFld R.TIME_RATE F.TIME_RATE_RATE (s.fld R.TIME_ALT_RATE F.TIME_ALT_RATE_RATE)
    let s2 := (((s1.setFld R.TIME_PTP_CFG F.TIME_PTP_CFG_PORT ap).setFld R.TIME_PTP_CFG F.TIME_PTP_CFG_ALT_PORT p).setFld
      R.TIME_PTP_CFG F.TIME_PTP_CFG_DOMAIN ad).setFld R.TIME_PTP_CFG F.TIME_PTP_CFG_ALT_DOMAIN dm
    let s3 := { s2 with time := { s2.time with
      switchPend := false, currentGm := s2.time.altGm, acceptedGm := s2.time.altGm, altGm := s2.time.currentGm,
      lastSync := s2.time.altLastSync.getD s2.time.lastSync, altLastSync := none } }
    ((s3.endHold).setFld R.TIME_ALT_CTL F.TIME_ALT_CTL_ENABLE 0).setFld R.TIME_STAT F.TIME_STAT_ALT_TRACKING 0
  else s

/-- Applies the pending step to device time and to the compares (R108, R110, R120). -/
def State.applyStep (s : State) : State :=
  match s.time.stepPend with
  | none => s
  | some d =>
    let t := ((s.fineTime : Int) + d * (fracOne : Nat)).toNat
    let s1 := { s with time := { s.time with stepPend := none } }.setTime t
    s1.stepCompares d 64

/-- Applies the pending rate (R109, R110). -/
def State.applyRate (s : State) : State :=
  match s.time.ratePend with
  | none => s
  | some v => { s with time := { s.time with ratePend := none } }.setFld R.TIME_RATE F.TIME_RATE_RATE v.toNat

/-- ALT_TRACKING falls when no alternate Sync has come for LOSS_TIMEOUT_MS (R127; log 20). -/
def State.altLapse (s : State) : State :=
  match s.time.altLastSync with
  | some t =>
    if t + s.fld R.TIME_PTP_CFG F.TIME_PTP_CFG_LOSS_TIMEOUT_MS * 1000000 ≤ s.nowNs then
      s.setFld R.TIME_STAT F.TIME_STAT_ALT_TRACKING 0
    else s
  | none => s

/-- One period of the 250 MHz clock, but for what a step does to other units: time advances, compares are evaluated on the uncorrected time, then the step, holdover's re-entry, the rate and the switch act (R100, R110). -/
def State.tickTime (s : State) : State :=
  if s.time.running then
    let prev := s.now
    let s1 := { s with time := { s.time with prev := s.nowNs, fired := [] } }
    let s2 := s1.setTime (s1.fineTime + tickIncr s1.rate)
    let s3 := (s2.markDue prev 64).applyStep
    (s3.rehold.applyRate.applySwitch).altLapse
  else s

/-! ### Register writes of the servo owner (R107 to R109, R114, R115) -/

/-- TIME_STEP: one accepted step per session (R108). -/
def State.writeTimeStep (s : State) (r : Req) (h : Half) (v : Word) : State :=
  s.guardW r R.TIME_STEP (fun s =>
    if h ≠ .full then s.partialWrite r
    else if !s.isServo r || s.chordSource then s
    else
      let d : Int := v.toInt
      if s.bit R.TIME_STAT F.TIME_STAT_STEP_USED || decide ((s.nowNs : Int) + d < 0) then
        s.setFld R.TIME_STAT F.TIME_STAT_STEP_REFUSED 1
      else
        let s1 := (s.setFld R.TIME_STAT F.TIME_STAT_STEP_USED 1).setFld R.TIME_STAT F.TIME_STAT_VALID 1
        { s1 with time := { s1.time with stepPend := some d, acceptedGm := s1.time.currentGm } })

/-- The largest rate in units of 2⁻⁴⁰: 500 ppm (R109). -/
def rateMax : Int := 549755813

/-- A rate clamped to ±500 ppm, and whether it had to be (R109). -/
def clampRate (x : Int) : Int × Bool := clampInt (-rateMax) rateMax x

/-- TIME_RATE: takes effect at the next tick, clamped, ignored in holdover (R109, R112). -/
def State.writeTimeRate (s : State) (r : Req) (h : Half) (v : Word) : State :=
  s.guardW r R.TIME_RATE (fun s =>
    if h = .high then s
    else if !s.isServo r || s.chordSource then s
    else if s.bit R.TIME_STAT F.TIME_STAT_HOLDOVER then s.setFld R.TIME_STAT F.TIME_STAT_RATE_IGNORED 1
    else
      let c := clampRate (signExt 32 v.toNat)
      let s1 := if c.2 then s.setFld R.TIME_STAT F.TIME_STAT_RATE_CLAMP 1 else s
      { s1 with time := { s1.time with ratePend := some (BitVec.ofInt 32 c.1) } })

/-- TIME_ALT_RATE: clamped as TIME_RATE (R109). -/
def State.writeAltRate (s : State) (r : Req) (h : Half) (v : Word) : State :=
  s.guardW r R.TIME_ALT_RATE (fun s =>
    if h = .high ∨ s.isServo r = false then s
    else
      let c := clampRate (signExt 32 v.toNat)
      let s1 := if c.2 then s.setFld R.TIME_STAT F.TIME_STAT_RATE_CLAMP 1 else s
      s1.setFld R.TIME_ALT_RATE F.TIME_ALT_RATE_RATE (toTwos 32 c.1))

/-- TIME_ALT_OFFSET (R107, R114). -/
def State.writeAltOffset (s : State) (r : Req) (h : Half) (v : Word) : State :=
  s.guardW r R.TIME_ALT_OFFSET (fun s => if s.isServo r then s.writeFields R.TIME_ALT_OFFSET h v else s)

/-- TIME_ALT_CTL: ENABLE = 1 is ignored without an alternate instance (R114). -/
def State.writeAltCtl (s : State) (r : Req) (h : Half) (v : Word) : State :=
  s.guardW r R.TIME_ALT_CTL (fun s =>
    if h = .high then s
    else if v.getLsbD 0 then
      (if s.bit R.TIME_PTP_CFG F.TIME_PTP_CFG_ALT_PRESENT then s.setFld R.TIME_ALT_CTL F.TIME_ALT_CTL_ENABLE 1 else s)
    else
      let s1 := (s.setFld R.TIME_ALT_CTL F.TIME_ALT_CTL_ENABLE 0).setFld R.TIME_STAT F.TIME_STAT_ALT_TRACKING 0
      { s1 with time := { s1.time with altLastSync := none } })

/-- TIME_CTL.NEW_SESSION: a new session that accepts one step; holdover ends (R108, R112). SESSION wraps at 65,535 to 1 (R127). -/
def State.newSession (s : State) : State :=
  let n := s.fld R.TIME_STAT F.TIME_STAT_SESSION
  let s1 := (s.setFld R.TIME_STAT F.TIME_STAT_SESSION (n % 65535 + 1)).setFld R.TIME_STAT F.TIME_STAT_STEP_USED 0
  s1.endHold

/-- TIME_CTL.SWITCH_ALT: accepted when the alternate is enabled and the rates agree within 1 ppb (R115). -/
def State.switchAlt (s : State) : State :=
  let d := signExt 32 (s.fld R.TIME_ALT_RATE F.TIME_ALT_RATE_RATE) - s.rate
  if s.bit R.TIME_ALT_CTL F.TIME_ALT_CTL_ENABLE && decide (-1099 ≤ d ∧ d ≤ 1099) then
    { s with time := { s.time with switchPend := true } }
  else s.setFld R.TIME_STAT F.TIME_STAT_SWITCH_REFUSED 1

/-- An action of TIME_CTL, taken from the servo owner only (R107). -/
def State.timeCtl (s : State) (r : Req) (f : State → State) : State :=
  s.guardW r R.TIME_CTL (fun s => if s.isServo r then f s else s)

/-- A write of TIME_CTL: its bits act in the order NEW_SESSION, DECLARE_VALID, END_HOLDOVER, SWITCH_ALT (R110). -/
def State.writeTimeCtl (s : State) (r : Req) (h : Half) (v : Word) : State :=
  if h = .high then s
  else s.timeCtl r (fun s =>
    let s1 := if v.getLsbD 0 then s.newSession else s
    let s2 := if v.getLsbD 1 then s1.setFld R.TIME_STAT F.TIME_STAT_VALID 1 else s1
    let s3 := if v.getLsbD 2 then s2.endHold else s2
    if v.getLsbD 3 then s3.switchAlt else s3)

/-- TIME_CMP_ARM: arms a mode-0 compare with a well-formed stamp (R104, R118). -/
def State.writeCmpArm (s : State) (n : Nat) (r : Req) (h : Half) (v : Word) : State :=
  s.guardW r (R.TIME_CMP_ARM n) (fun s =>
    if h ≠ .full then s.partialWrite r
    else if s.bit (R.TIME_CMP_CFG n) F.TIME_CMP_CFG_ACTIVE && s.cmpMode n == 0 && !stampBad v then s.cmpSetNext n v
    else s)

/-! ### Reads that latch or remove (R102, R132) -/

/-- TIME_NOW: the stamp of this tick, with the seconds latched for the requester (R102, R648). -/
def State.readTimeNow (s : State) (r : Req) (h : Half) : State :=
  s.guardR r R.TIME_NOW h (fun s =>
    let s1 := { s with time := { s.time with latch := Store.set (fun _ => 0) s.time.latch (latchKey r) s.time.sec } }
    s1.answer r R.TIME_NOW h s.now)

/-- The seconds TIME_LATCH returns to a requester (R102, R648). -/
def State.timeLatch (s : State) (r : Req) : Word := (Store.get (fun _ => 0) s.time.latch (latchKey r)).setWidth 64

/-- The FIFO of a capture channel, oldest first (R123). -/
def State.evtFifo (s : State) (k : Nat) : List (Bool × Word) := Store.get (fun _ => []) s.time.evtFifo k

/-- Sets the FIFO of a channel and the COUNT and HEAD_EDGE that show it (R132). -/
def State.setEvtFifo (s : State) (k : Nat) (l : List (Bool × Word)) : State :=
  let s1 := { s with time := { s.time with evtFifo := Store.set (fun _ => []) s.time.evtFifo k l } }
  let edge : Nat := match l with
    | (e, _) :: _ => if e then 1 else 0
    | [] => 0
  (s1.setFld (R.TIME_EVT_CTL k) F.TIME_EVT_CTL_COUNT l.length).setFld (R.TIME_EVT_CTL k) F.TIME_EVT_CTL_HEAD_EDGE edge

/-- TIME_EVT_STAMP: returns the head entry's stamp and removes the entry; 0 when there is none (R132). -/
def State.readEvtStamp (s : State) (k : Nat) (r : Req) (h : Half) : State :=
  s.guardR r (R.TIME_EVT_STAMP k) h (fun s =>
    match s.evtFifo k with
    | [] => s.answer r (R.TIME_EVT_STAMP k) h 0
    | (_, w) :: l => (s.setEvtFifo k l).answer r (R.TIME_EVT_STAMP k) h w)

/-- Puts a capture into the FIFO of its channel, or counts OVERRUN when the FIFO holds 32 entries (R123). -/
def State.evtPush (s : State) (k : Nat) (rising : Bool) (w : Word) : State :=
  let l := s.evtFifo k
  if 32 ≤ l.length then s.satAdd (R.TIME_EVT_CTL k) F.TIME_EVT_CTL_OVERRUN 1
  else s.setEvtFifo k (l ++ [(rising, w)])

/-- The stamp of a capture: the first tick that samples the edge minus (2 + FILTER) × 4 ns (R122). -/
def State.captureStamp (s : State) (k : Nat) (sampled : Word) : Word :=
  stampAdd sampled (-(((2 + s.fld (R.TIME_EVT_CTL k) F.TIME_EVT_CTL_FILTER) * 4 : Nat) : Int))

/-- Whether the channel's EDGE selects the edge (R122, R132). -/
def State.edgeSelected (s : State) (k : Nat) (rising : Bool) : Bool :=
  match s.fld (R.TIME_EVT_CTL k) F.TIME_EVT_CTL_EDGE with
  | 1 => rising
  | 2 => !rising
  | 3 => true
  | _ => false

/-- Whether the last capture of the channel lies closer than (2 + FILTER) × 4 ns, so that both edges yield one capture (R122). -/
def State.edgeTooClose (s : State) (k : Nat) (w : Word) : Bool :=
  match Store.get (fun _ => none) s.time.evtLast k with
  | some l => decide (stampDiff w l < ((2 + s.fld (R.TIME_EVT_CTL k) F.TIME_EVT_CTL_FILTER) * 4 : Nat))
  | none => false

/-! ### The commands -/

/-- TIME_NOW_READ (R102). -/
def execTimeNowRead (r : Req) (h : Half) (s : State) : Out := .next (s.readTimeNow r h)

/-- TIME_STEP_WRITE (R108). -/
def execTimeStepWrite (r : Req) (h : Half) (v : Word) (s : State) : Out := .next (s.writeTimeStep r h v)

/-- TIME_RATE_WRITE (R109). -/
def execTimeRateWrite (r : Req) (h : Half) (v : Word) (s : State) : Out := .next (s.writeTimeRate r h v)

/-- TIME_CTL_NEW_SESSION (R108, R112). -/
def execTimeCtlNewSession (r : Req) (s : State) : Out := .next (s.timeCtl r State.newSession)

/-- TIME_CTL_DECLARE_VALID (R108). -/
def execTimeCtlDeclareValid (r : Req) (s : State) : Out :=
  .next (s.timeCtl r (fun t => t.setFld R.TIME_STAT F.TIME_STAT_VALID 1))

/-- TIME_CTL_END_HOLDOVER (R112). -/
def execTimeCtlEndHoldover (r : Req) (s : State) : Out := .next (s.timeCtl r State.endHold)

/-- TIME_CTL_SWITCH_ALT (R115). -/
def execTimeCtlSwitchAlt (r : Req) (s : State) : Out := .next (s.timeCtl r State.switchAlt)

/-- TIME_ALT_CTL_WRITE (R114). -/
def execTimeAltCtlWrite (r : Req) (h : Half) (v : Word) (s : State) : Out := .next (s.writeAltCtl r h v)

/-- TIME_ALT_RATE_WRITE (R109). -/
def execTimeAltRateWrite (r : Req) (h : Half) (v : Word) (s : State) : Out := .next (s.writeAltRate r h v)

/-- TIME_ALT_OFFSET_WRITE (R114). -/
def execTimeAltOffsetWrite (r : Req) (h : Half) (v : Word) (s : State) : Out := .next (s.writeAltOffset r h v)

/-- SYNC_LOSS_TIMEOUT (R112): holdover with cause 1 once the silence has lasted LOSS_TIMEOUT_MS. -/
def execSyncLossTimeout (s : State) : Out := .next (if s.syncLost then s.enterHold 1 else s)

/-- REF_LOSS (R113): REF_LOSS is set, which is a source of the TIME interrupt, and holdover starts with cause 3. -/
def execRefLoss (s : State) : Out :=
  .next ((s.withCause 2 (fun t => t.setFld R.TIME_STAT F.TIME_STAT_REF_LOSS 1)).enterHold 3)

/-- REF_RETURN (R113): REF_LOSS clears with no step; HOLDOVER stays. -/
def execRefReturn (s : State) : Out := .next (s.setFld R.TIME_STAT F.TIME_STAT_REF_LOSS 0)

/-- How many PPS points lie at or before a time: one each second, OFFSET_NS after it (R116). -/
def State.ppsCount (s : State) (t : Nat) : Nat :=
  (t + 1000000000 - s.fld R.TIME_PPS_CTL F.TIME_PPS_CTL_OFFSET_NS) / 1000000000

/-- PPS_OUT_RISE (R116): when device time has passed a whole second plus OFFSET_NS in this tick, PPS_OUT rises if it is enabled and time is valid; it falls WIDTH_MS later, 0 taken as 1. -/
def execPpsOutRise (s : State) : Out :=
  .next (
    if s.bit R.TIME_PPS_CTL F.TIME_PPS_CTL_OUT_EN && s.bit R.TIME_STAT F.TIME_STAT_VALID &&
        decide (s.ppsCount s.time.prev < s.ppsCount s.nowNs) then
      { s with time := { s.time with
          ppsHigh := true
          ppsFallAt := s.nowNs + max 1 (s.fld R.TIME_PPS_CTL F.TIME_PPS_CTL_WIDTH_MS) * 1000000 } }
    else s)

/-- PPS_OUT_FALL (R116): WIDTH_MS after the rise. -/
def execPpsOutFall (s : State) : Out :=
  .next (if s.time.ppsHigh && decide (s.time.ppsFallAt ≤ s.nowNs) then { s with time := { s.time with ppsHigh := false } } else s)

/-- TIME_CMP_ARM_WRITE (R118). -/
def execTimeCmpArmWrite (n : Fin 64) (r : Req) (h : Half) (v : Word) (s : State) : Out := .next (s.writeCmpArm n.val r h v)

/-- TIME_EVT_STAMP_READ (R132). -/
def execTimeEvtStampRead (k : Fin 17) (r : Req) (h : Half) (s : State) : Out := .next (s.readEvtStamp k.val r h)

end Sys2Proof.Machine
end

