-- ==== Sys2Proof/Machine/Queues.lean ====
section
/-! DEFINITION. Queues, contexts and the scheduler (R429 to R462): doorbells, descriptor fetch and its checks, dispatch, pre-emption, expiry, suspension and disabling. The completion record is written in Machine/Complete.lean. -/

namespace Sys2Proof.Machine

/-! ### Queue registers -/

def State.qUnit (s : State) (q : Nat) : Nat := s.fld (R.QUE_CFG q) F.QUE_CFG_UNIT
def State.qBound (s : State) (q : Nat) : Bool := s.bit (R.QUE_CFG q) F.QUE_CFG_ACTIVE
def State.qCanton (s : State) (q : Nat) : Nat := s.fld (R.QUE_CFG q) F.QUE_CFG_CANTON
def State.qDisabled (s : State) (q : Nat) : Bool := s.bit (R.QUE_CTL q) F.QUE_CTL_DISABLE
def State.qSolverFed (s : State) (q : Nat) : Bool := s.bit (R.QUE_CFG q) F.QUE_CFG_SOLVER_FED
def State.qLC (s : State) (q : Nat) : Bool := s.bit (R.QUE_CFG q) F.QUE_CFG_LC

/-- The rank of a queue's commands: smaller ranks higher; LC above BE, then the priority number (R448). -/
def State.qRank (s : State) (q : Nat) : Nat := (if s.qLC q then 0 else 8) + s.fld (R.QUE_CFG q) F.QUE_CFG_PRIO

/-- The slots of a ring, none when the ring is not set: a base of 0 or a LOG2 outside 4 to 15 (R432, R462). -/
def ringSlots (w : Word) : Option Nat :=
  let b := F.QUE_CMD_RING_BASE.get w
  let k := F.QUE_CMD_RING_LOG2.get w
  if b = 0 ∨ k < 4 then none else some (2 ^ k)

/-- The base address of a ring. -/
def ringBase (w : Word) : Nat := F.QUE_CMD_RING_BASE.get w * 4096

/-- IDLE reads 1 once the queue is disabled and has no accepted command outstanding (R455). -/
def State.updIdle (s : State) (q : Nat) : State :=
  s.setBit (R.QUE_CTL q) F.QUE_CTL_IDLE (s.qDisabled q && (s.queue q).cmds.isEmpty)

/-! ### Doorbell (R433) -/

/-- The part of a doorbell that sets CMD_PROD: taken when CMD_PROD − CMD_CONS does not exceed the ring; a ring that is not set takes only the held value without an error. -/
def State.ringCmd (s : State) (q : Nat) (p : BitVec 32) : State :=
  match ringSlots (s.reg (R.QUE_CMD_RING q)) with
  | none => if p = (s.queue q).cmdProd then s else s.setFld (R.QUE_CTL q) F.QUE_CTL_DB_ERR 1
  | some n =>
    let cons : BitVec 32 := BitVec.ofNat 32 (s.fld (R.QUE_RING q) F.QUE_RING_CMD_CONS)
    if (p - cons).toNat ≤ n then s.setQueue q { s.queue q with cmdProd := p }
    else s.setFld (R.QUE_CTL q) F.QUE_CTL_DB_ERR 1

/-- The part of a doorbell that sets CPL_CONS: taken when RING_PROD − CPL_CONS does not exceed the ring. -/
def State.ringCpl (s : State) (q : Nat) (c : BitVec 32) : State :=
  match ringSlots (s.reg (R.QUE_CPL_RING q)) with
  | none => if c = (s.queue q).cplCons then s else s.setFld (R.QUE_CTL q) F.QUE_CTL_DB_ERR 1
  | some n =>
    let prod : BitVec 32 := BitVec.ofNat 32 (s.fld (R.QUE_RING q) F.QUE_RING_RING_PROD)
    if (prod - c).toNat ≤ n then s.setQueue q { s.queue q with cplCons := c }
    else s.setFld (R.QUE_CTL q) F.QUE_CTL_DB_ERR 1

/-- QUE_DOORBELL: the counts of the covered halves, each by itself (R9, R433). A queue that is not bound ignores it (R31, R462). -/
def State.writeDoorbell (s : State) (q : Nat) (r : Req) (h : Half) (v : Word) : State :=
  s.guardW r (R.QUE_DOORBELL q) (fun s =>
    if !s.qBound q then s
    else
      let s1 := if h = .low then s else s.ringCmd q (BitVec.ofNat 32 (v.toNat / 2 ^ 32))
      if h = .high then s1 else s1.ringCpl q (BitVec.ofNat 32 v.toNat))

/-- QUE_DOORBELL_WRITE (R433). -/
def execQueDoorbellWrite (q : BitVec 16) (r : Req) (h : Half) (v : Word) (s : State) : Out :=
  .next (s.writeDoorbell q.toNat r h v)

/-! ### Acceptance (R436, R437, R440) -/

/-- Whether bytes of a descriptor hold only zeros. -/
def zeroBytes (d : List Byte) (off n : Nat) : Bool := sliceN d off n == 0

/-- Whether a descriptor holds a non-zero reserved bit or byte (R436), or the reserved RND value (R184). -/
def descReserved (d : List Byte) : Bool :=
  decide (16 ≤ sliceN d 1 1) || decide (4096 ≤ sliceN d 2 2) ||
  (List.range 3).any (fun i => decide (sliceN d (16 + i) 1 / 32 % 4 ≠ 0)) ||
  decide (4 ≤ sliceN d 19 1) || decide (sliceN d 19 1 = 3) || !zeroBytes d 20 4

/-- Whether a FMT field of a descriptor is VALID. -/
def fmtValid (d : List Byte) (i : Nat) : Bool := decide (128 ≤ sliceN d (16 + i) 1)

/-- Whether a FMT field with VALID set names a reserved code (R173, R437). -/
def fmtReserved (d : List Byte) : Bool :=
  (List.range 3).any (fun i => fmtValid d i && decide (0x12 ≤ sliceN d (16 + i) 1 % 32))

/-- Whether a unit uses FMT field i of a command (R437). -/
def fmtUsed (unit op i : Nat) : Bool :=
  match unit with
  | 3 => if op = 1 then decide (i < 3) else decide (i = 0 ∨ i = 2)
  | 4 => decide (i = 0) && (op == 1 || op == 3 || op == 9)
  | 5 => decide (i = 0)
  | 6 => decide (i = 0)
  | _ => false

/-- Whether a field that the unit does not use has VALID set (R437). -/
def fmtUnused (unit : Nat) (d : List Byte) : Bool :=
  (List.range 3).any (fun i => fmtValid d i && !fmtUsed unit (sliceN d 0 1) i)

/-- Whether the budget of a descriptor is refused: the reserved kind, a zero TIME or STEP budget, reserved bits of the timing word, a malformed deadline, or a kind that the budget mode does not accept (R47, R50, R104). -/
def State.budgetBad (s : State) (d : List Byte) : Bool :=
  let t := sliceN d 8 8
  match sliceN d 1 1 % 4 with
  | 0 => s.bit R.GLB_BUDGET_MODE F.GLB_BUDGET_MODE_MODE || stampBad (BitVec.ofNat 64 t)
  | 1 => s.bit R.GLB_BUDGET_MODE F.GLB_BUDGET_MODE_MODE || decide (t = 0 ∨ 2 ^ 40 ≤ t)
  | 2 => decide (t = 0 ∨ 2 ^ 48 ≤ t)
  | _ => true

/-- The active logical cores of a canton. -/
def State.cantonCores (s : State) (c : Nat) : List Nat :=
  (List.range 16).filter (fun n => (s.fld (R.FAB_CANTON c) F.FAB_CANTON_CORE_MASK).testBit n && s.coreActive n)

/-- The image of a canton with a number, as the cores hold it. -/
def State.findImage (s : State) (c id : Nat) : Option Image :=
  (List.range 16).findSome? (fun n => (s.core n).images.find? (fun im => im.id == id && im.canton == c))

/-- Whether a core command has no active core to run on: none in the canton, or none that the image's CORE_MASK names (R23, R447). -/
def State.noCore (s : State) (c : Nat) (d : List Byte) : Bool :=
  (s.cantonCores c).isEmpty ||
  (sliceN d 0 1 == 1 &&
    match s.findImage c (sliceN d 24 2) with
    | some im => (s.cantonCores c).all (fun n => !im.mask.getLsbD n)
    | none => false)

/-- Whether the unit of a queue is absent on this grade, has no core to run the command, or is a tokenizer without a dictionary, a KV manager without a record for the canton, a control engine of whose slots the canton owns none, or an Ethernet port not configured (R3, R23, R160, R306, R382). -/
def State.unitAbsent (s : State) (q : Nat) (d : List Byte) : Bool :=
  match s.qUnit q with
  | 1 => s.noCore (s.qCanton q) d
  | 2 => !s.bit R.TOK_CFG F.TOK_CFG_LOADED
  | 4 => !s.bit (R.KV_POOL_CFG (s.qCanton q)) F.KV_POOL_CFG_ACTIVE
  | 5 => !s.hasSolver
  | 6 => !(List.range 512).any (fun i => s.bit (R.CTL_SLOT_CFG i) F.CTL_SLOT_CFG_ACTIVE && s.fld (R.CTL_SLOT_CFG i) F.CTL_SLOT_CFG_CANTON == s.qCanton q)
  | 7 => !s.bit (R.ETH_CFG (s.fld (R.QUE_CFG q) F.QUE_CFG_INSTANCE)) F.ETH_CFG_ACTIVE
  | _ => false

/-- Whether a core command is refused: an unknown opcode, an image or entry that does not exist, an address or length of COPY or FILL that is not a multiple of 8, or unused payload bytes that are not zero (R198, R436). -/
def State.coreCmdBad (s : State) (c : Nat) (d : List Byte) : Bool :=
  match sliceN d 0 1 with
  | 1 =>
    !zeroBytes d 40 24 ||
    (match s.findImage c (sliceN d 24 2) with
      | some im => decide (im.entries.length ≤ sliceN d 26 2)
      | none => true)
  | 2 => decide (sliceN d 24 8 % 8 ≠ 0 ∨ sliceN d 32 8 % 8 ≠ 0 ∨ sliceN d 40 8 % 8 ≠ 0) || !zeroBytes d 48 16
  | 3 => decide (sliceN d 24 8 % 8 ≠ 0 ∨ sliceN d 32 8 % 8 ≠ 0) || !zeroBytes d 48 16
  | _ => true

/-- Whether a chip-level unit has no command of an opcode (R162, R295, R316, R343, R383, R421). -/
def unitOpBad (unit op : Nat) : Bool :=
  match unit with
  | 2 => op != 1
  | 3 => !(decide (1 ≤ op ∧ op ≤ 3))
  | 4 => !(decide (1 ≤ op ∧ op ≤ 9))
  | 5 => !(decide (1 ≤ op ∧ op ≤ 2))
  | 6 => !(decide (1 ≤ op ∧ op ≤ 4))
  | 7 => op != 1
  | _ => false

/-- Whether the command of a queue fails a check that ends it REJECTED at acceptance (R31, R436, R437, R47). What depends on the unit's own parameters is checked by the unit. -/
def State.descBad (s : State) (q : Nat) (d : List Byte) : Bool :=
  descReserved d || fmtReserved d || fmtUnused (s.qUnit q) d || s.budgetBad d || unitOpBad (s.qUnit q) (sliceN d 0 1) ||
  !(s.cantonOfCtx (sliceN d 2 2 % 4096) == some (s.qCanton q)) ||
  (s.qUnit q == 1 && s.coreCmdBad (s.qCanton q) d)

/-- A new command of a queue from its descriptor bytes. -/
def newCmd (d : List Byte) (seq : BitVec 32) (accepted : Bool) (acc : Word) (order : Nat) (phase : Phase) (st : BitVec 8) : Cmd :=
  { desc := d, seq := seq, accepted := accepted, acc := acc, order := order, deadline := none, budget := none,
    phase := phase, status := st, flags := 0, aux := 0, start := acc, stop := acc, steps := 0, energy := 0,
    core := none, done := 0, irqForced := false, seed := 0 }

/-- Puts a fetched command behind the others of its queue. -/
def State.pushCmd (s : State) (q : Nat) (c : Cmd) : State :=
  s.setQueue q { s.queue q with cmds := (s.queue q).cmds ++ [c] }

/-- The allowance of an accepted command: an absolute deadline, with a TIME budget counted from the acceptance stamp, or a step budget (R47 to R49). -/
def withBudget (c : Cmd) : Cmd :=
  match c.budgetKind with
  | 0 => { c with deadline := some (BitVec.ofNat 64 c.timing) }
  | 1 => { c with deadline := some (stampAdd c.acc (c.timing : Nat)) }
  | 2 => { c with budget := some c.timing }
  | _ => c

/-- Sets the STATE of a context record (R461). -/
def State.ctxState (s : State) (x st : Nat) : State := s.setFld (R.SCH_CTX_STAT x) F.SCH_CTX_STAT_STATE st

/-- Accepts the next expected command of a queue and runs its acceptance checks (R15, R440). -/
def State.acceptCmd (s : State) (q : Nat) (d : List Byte) (seq : BitVec 32) : State :=
  let s1 := s.setFld (R.QUE_SEQ q) F.QUE_SEQ_LAST_ACCEPTED_SEQ seq.toNat
  let s2 := { s1 with sched := { s1.sched with order := s1.sched.order + 1 } }
  let o := s1.sched.order
  if s.unitAbsent q d then s2.pushCmd q (newCmd d seq true s.now o .ended stNotPresent)
  else if s.descBad q d then s2.pushCmd q (newCmd d seq true s.now o .ended stRejected)
  else
    let c := withBudget (newCmd d seq true s.now o .waiting stDone)
    let s3 := s2.pushCmd q c
    if s.qUnit q = 1 ∧ s.fld (R.SCH_CTX_STAT c.context) F.SCH_CTX_STAT_STATE = 1 then
      (s3.ctxState c.context 4).setFld (R.SCH_CTX_STAT c.context) F.SCH_CTX_STAT_QUEUE q
    else s3

/-- Takes a fetched descriptor: an uncorrectable fetch gives an INTEGRITY record with the expected number (R441), a wrong number SEQ_GAP (R440), a descriptor of a solver-fed queue's ring REJECTED (R444), and the expected number is accepted. CMD_CONS advances (R433). -/
def State.takeDescriptor (s : State) (q : Nat) (d : List Byte) (poisoned : Bool) : State :=
  let s1 := s.wrapAdd (R.QUE_RING q) F.QUE_RING_CMD_CONS 1
  let expected : BitVec 32 := BitVec.ofNat 32 (s.fld (R.QUE_SEQ q) F.QUE_SEQ_LAST_ACCEPTED_SEQ) + 1
  let seq : BitVec 32 := BitVec.ofNat 32 (sliceN d 4 4)
  if poisoned then
    s1.pushCmd q { newCmd d expected false s.now 0 .ended stIntegrity with irqForced := true }
  else if s.qSolverFed q then s1.pushCmd q (newCmd d seq false s.now 0 .ended stRejected)
  else if seq = expected then s1.acceptCmd q d seq
  else (s1.satAdd (R.QUE_CTL q) F.QUE_CTL_SEQ_GAPS 1).pushCmd q (newCmd d seq false s.now 0 .ended stSeqGap)

/-- Whether a queue may fetch now: bound, enabled, the budget mode locked, a descriptor in the ring, room in the completion ring for every record not yet written, fewer than 8 commands held, and no fetch of its own outstanding (R31, R61, R432 to R435, R455). -/
def State.mayFetch (s : State) (q : Nat) : Bool :=
  s.qBound q && !s.qDisabled q && s.bit R.GLB_BUDGET_MODE F.GLB_BUDGET_MODE_LOCKED &&
  !(BitVec.ofNat 32 (s.fld (R.QUE_RING q) F.QUE_RING_CMD_CONS) == (s.queue q).cmdProd) &&
  decide ((s.queue q).cmds.length < 8) &&
  !(s.host.reads.any (fun o => o.what == .desc q)) &&
  (ringSlots (s.reg (R.QUE_CMD_RING q))).isSome &&
  (match ringSlots (s.reg (R.QUE_CPL_RING q)) with
    | none => false
    | some n =>
      decide ((BitVec.ofNat 32 (s.fld (R.QUE_RING q) F.QUE_RING_RING_PROD) - (s.queue q).cplCons).toNat + (s.queue q).cmds.length < n))

/-- The host window's device addresses (R35). -/
def inHostWindow (a : Nat) : Bool := decide (0x300000000000 ≤ a ∧ a < 0x400000000000)

/-- The address of the descriptor slot that a queue fetches next (R433). -/
def State.descAddr (s : State) (q : Nat) : Nat :=
  ringBase (s.reg (R.QUE_CMD_RING q)) +
    64 * (s.fld (R.QUE_RING q) F.QUE_RING_CMD_CONS % ((ringSlots (s.reg (R.QUE_CMD_RING q))).getD 1))

/-- Issues a read of the host window: a request on the link, or zeros when the link is down or Bus Master Enable is clear (R592, R593). -/
def State.hostRead (s : State) (what : ReadFor) (addr len : Nat) : State :=
  let s1 := s.emit (.hostRead (s.fld R.GLB_HOST_WIN F.GLB_HOST_WIN_BASE * 2 ^ 44 + (addr - 0x300000000000)) len)
  { s1 with host := { s1.host with reads := s1.host.reads ++ [{ what := what, addr := addr, len := len, tseq := 0, at' := s.time.ticks }] } }

/-- DESCRIPTOR_FETCH (R433, R434, R440, R441): the queue fetches its next descriptor from HBM at once, or asks the host for it. A ring in host memory that cannot be reached reads zeros (R593). -/
def execDescriptorFetch (q : BitVec 16) (s : State) : Out :=
  .next (
    let n := q.toNat
    if s.mayFetch n then
      let a := s.descAddr n
      if inHostWindow a then
        if s.canMaster then s.hostRead (.desc n) a 64
        else (s.satAdd R.GLB_HOST_STAT F.GLB_HOST_STAT_HOST_DROPS 1).takeDescriptor n (List.replicate 64 0) false
      else s.takeDescriptor n (s.rdBytes a 64) (s.poisoned a 64)
    else s)

/-- QUE_SEQ: a read latches QUE_RING for the same requester (R443, R648). -/
def State.readQueSeq (s : State) (q : Nat) (r : Req) (h : Half) : State :=
  s.guardR r (R.QUE_SEQ q) h (fun s =>
    let k := latchKey r * 65536 + q
    let s1 := { s with sched := { s.sched with ringLatch := Store.set (fun _ => none) s.sched.ringLatch k (some (s.reg (R.QUE_RING q))) } }
    s1.answer r (R.QUE_SEQ q) h (s.reg (R.QUE_SEQ q)))

/-- QUE_RING: the value latched for the requester by its last read of QUE_SEQ, once, or else the present value (R443). -/
def State.readQueRing (s : State) (q : Nat) (r : Req) (h : Half) : State :=
  s.guardR r (R.QUE_RING q) h (fun s =>
    let k := latchKey r * 65536 + q
    match Store.get (fun _ => none) s.sched.ringLatch k with
    | some w =>
      let s1 := { s with sched := { s.sched with ringLatch := Store.set (fun _ => none) s.sched.ringLatch k none } }
      s1.answer r (R.QUE_RING q) h w
    | none => s.answer r (R.QUE_RING q) h (s.reg (R.QUE_RING q)))

/-- QUE_SEQ_READ (R443). -/
def execQueSeqRead (q : BitVec 16) (r : Req) (h : Half) (s : State) : Out := .next (s.readQueSeq q.toNat r h)

/-! ### Dispatch (R445 to R449) -/

/-- The gate of a queue is closed: an enabled gate of the launch logic names it (R490). -/
def State.gated (s : State) (q : Nat) : Bool :=
  (List.range 64).any (fun i =>
    s.bit (R.DET_GATE i) F.DET_GATE_ENABLE && s.bit (R.DET_GATE i) F.DET_GATE_CLOSED && s.fld (R.DET_GATE i) F.DET_GATE_QUEUE == q)

/-- Whether the oldest command of a queue waits to start or to resume. -/
def State.headWaits (s : State) (q : Nat) : Bool :=
  match s.head q with
  | some c => c.phase == .waiting || c.phase == .suspended
  | none => false

/-- Whether a queue belongs to a unit instance, or to the core set of a canton (R448). -/
def State.servedBy (s : State) (q u inst c : Nat) : Bool :=
  s.qBound q && s.qUnit q == u &&
  (if u = 1 then s.qCanton q == c else s.fld (R.QUE_CFG q) F.QUE_CFG_INSTANCE == inst)

/-- The queues whose oldest command waits for a unit instance or core set, gates open. -/
def State.waitingQueues (s : State) (u inst c : Nat) : List Nat :=
  (s.queues.map (fun p => p.1)).filter (fun q => s.servedBy q u inst c && s.headWaits q && !s.gated q)

/-- The order of acceptance of a queue's oldest command. -/
def State.headOrder (s : State) (q : Nat) : Nat :=
  match s.head q with
  | some c => c.order
  | none => 0

/-- Whether queue a's command goes before queue b's: rank, then acceptance, then queue number (R448). -/
def State.before (s : State) (a b : Nat) : Bool :=
  decide (s.qRank a < s.qRank b) ||
  (s.qRank a == s.qRank b && (decide (s.headOrder a < s.headOrder b) || (s.headOrder a == s.headOrder b && decide (a < b))))

/-- The first of a list of queues in dispatch order. -/
def State.best (s : State) : List Nat → Option Nat
  | [] => none
  | q :: r =>
    match s.best r with
    | none => some q
    | some p => if s.before q p then some q else some p

/-- Whether a context executes a core command, or holds a suspended one, of a queue other than q (R445). -/
def State.ctxBusy (s : State) (x q : Nat) : Bool :=
  (s.queues.map (fun p => p.1)).any (fun p =>
    !(p == q) && s.qUnit p == 1 &&
    match s.head p with
    | some c => c.context == x && (c.phase == .running || c.phase == .stopping || c.phase == .suspended)
    | none => false)

/-- Whether the copy of a swap of logical core n is under way: no command is dispatched to n, and n's program stands still (R542). -/
def State.swapHolds (s : State) (n : Nat) : Bool :=
  match s.rep.swap with
  | some w => w.n == n && w.copying
  | none => false

/-- Whether a core is idle: active, running no command, saving or restoring none, and IDLE in CORE_STATUS, with no swap copying it. -/
def State.coreIdle (s : State) (n : Nat) : Bool :=
  s.coreActive n && !s.swapHolds n && (s.core n).running.isNone && s.fld (R.CORE_STATUS n) F.CORE_STATUS_STATE == 1

/-- The cores that a queue's oldest command may run on: the one it was suspended on, those its image names, or any of the canton (R447). -/
def State.allowedCores (s : State) (q : Nat) : List Nat :=
  match s.head q with
  | none => []
  | some c =>
    let cs := s.cantonCores (s.qCanton q)
    match c.phase, c.core with
    | .suspended, some n => cs.filter (· == n)
    | _, _ =>
      if c.opcode = 1 then
        match s.findImage (s.qCanton q) (c.pl 0 2) with
        | some im => cs.filter (fun n => im.mask.getLsbD n)
        | none => []
      else cs

/-- Whether the deadline of a command has passed (R51). -/
def State.deadlinePassed (s : State) (c : Cmd) : Bool :=
  match c.deadline with
  | some d => decide (0 ≤ stampDiff s.now d)
  | none => false

/-- Drops a command whose deadline passed before its start (R51): LATE with NOT_STARTED, stamps equal. -/
def State.dropLate (s : State) (q : Nat) : State :=
  (s.updHead q (fun c => { c with phase := .ended, status := stLate, flags := c.flags ||| flagBit fgNotStarted, start := c.acc, stop := c.acc })).satAdd
    (R.QUE_CTL q) F.QUE_CTL_LATE_DROPS 1

/-- Starts a queue's command on its unit: its start stamp is now; past its deadline without DROP_IF_LATE it runs with no time cut-off and STARTED_LATE (R51). -/
def State.startCmd (s : State) (q : Nat) (core : Option Nat) : State :=
  s.updHead q (fun c =>
    let late := s.deadlinePassed c
    { c with phase := .running, start := s.now, core := core, seed := s.reg (R.SCH_CTX_SEED c.context),
             deadline := if late then none else c.deadline,
             flags := if late then c.flags ||| flagBit fgStartedLate else c.flags })

/-- Gives a core to a queue's command: a new command takes the context's seed (R446), a suspended one its saved context, which CONTEXT_RESTORE_DONE brings in (R450). -/
def State.giveCore (s : State) (q n : Nat) : State :=
  match s.head q with
  | none => s
  | some c =>
    let resumed := c.phase == .suspended
    let s1 := if resumed then s.updHead q (fun c => { c with phase := .running }) else s.startCmd q (some n)
    let k := s1.core n
    let s2 := s1.setCore n { k with
      running := some q
      context := c.context
      seed := if resumed then k.seed else s.reg (R.SCH_CTX_SEED c.context)
      restoring := resumed
      saving := false
      yieldOffered := false
      quantumPassed := false
      suspendReq := false }
    let s3 := (s2.setFld (R.CORE_STATUS n) F.CORE_STATUS_STATE 2).setFld (R.CORE_STATUS n) F.CORE_STATUS_CONTEXT c.context
    let s4 := ((s3.ctxState c.context 2).setFld (R.SCH_CTX_STAT c.context) F.SCH_CTX_STAT_CORE n).setFld
      (R.SCH_CTX_STAT c.context) F.SCH_CTX_STAT_QUEUE q
    if resumed then s4.satAdd (R.SCH_CANTON_LOAD (s.qCanton q)) F.SCH_CANTON_LOAD_SWITCHES 1 else s4

/-- The rank of the command that a core runs, none when it runs none. -/
def State.coreRank (s : State) (n : Nat) : Option Nat :=
  match (s.core n).running with
  | some q => some (s.qRank q)
  | none => none

/-- Of the cores that run strictly lower-ranked work, the one with the lowest rank, and of those the lowest-numbered (R449). -/
def State.victim (s : State) (rank : Nat) : List Nat → Option Nat
  | [] => none
  | n :: r =>
    let rest := s.victim rank r
    match s.coreRank n with
    | none => rest
    | some k =>
      if k ≤ rank then rest
      else match rest with
        | none => some n
        | some m => if (s.coreRank m).getD 0 ≤ k then some n else some m

/-- Starts the command of queue q on a core of its canton: the lowest-numbered idle core it may use, or else it marks a running core of strictly lower rank for suspension at its next yield point (R447, R449). -/
def State.dispatchCore (s : State) (q : Nat) : State :=
  match s.head q with
  | none => s
  | some c =>
    let al := s.allowedCores q
    if c.phase = .suspended ∧ al = [] then s.endCmd q stFenced
    else if al = [] then s.updHead q (fun c => { c with phase := .ended, status := stNotPresent, start := c.acc, stop := c.acc })
    else if c.phase = .waiting ∧ s.deadlinePassed c ∧ c.dropIfLate then s.dropLate q
    else if s.ctxBusy c.context q then s
    else match al.find? (fun n => s.coreIdle n) with
      | some n => s.giveCore q n
      | none =>
        match s.victim (s.qRank q) al with
        | some n => s.setCore n { s.core n with suspendReq := true }
        | none => s

/-- Whether a chip-level unit instance executes a command of some queue. -/
def State.unitBusy (s : State) (u inst : Nat) : Bool :=
  (s.queues.map (fun p => p.1)).any (fun q => s.servedBy q u inst 0 && s.executing q)

/-- The BUSY bit of a chip-level unit that has one: the edge engines, the KV page manager, the solver, the control engine (R304, R332, R361, R391). -/
def State.setBusy (s : State) (u inst : Nat) (b : Bool) : State :=
  match u with
  | 3 => s.setBit (R.EDGE_STAT inst) F.EDGE_STAT_BUSY b
  | 4 => s.setBit R.KV_STAT F.KV_STAT_BUSY b
  | 5 => s.setBit R.SOL_STAT F.SOL_STAT_BUSY b
  | 6 => s.setBit R.CTL_STAT F.CTL_STAT_CMD_BUSY b
  | _ => s

/-- The instance of a queue's unit. -/
def State.qInst (s : State) (q : Nat) : Nat := s.fld (R.QUE_CFG q) F.QUE_CFG_INSTANCE

/-- Starts the command of queue q on its chip-level unit (R448, R51). -/
def State.dispatchUnit (s : State) (q : Nat) : State :=
  match s.head q with
  | none => s
  | some c => if s.deadlinePassed c && c.dropIfLate then s.dropLate q else (s.startCmd q none).setBusy (s.qUnit q) (s.qInst q) true

/-- The UNIT code of a unit (R430). -/
def unitCode : CmdUnit → Nat
  | .core => 1 | .tok => 2 | .edge => 3 | .kv => 4 | .sol => 5 | .ctl => 6 | .eth => 7

/-- COMMAND_DISPATCH (R448): the unit instance, or the core set of canton c, takes its next command: the highest-ranked one that waits. While the canton is in a COMMIT its commands are held (R83). A command whose context is busy waits; a BE command starts only when no LC command waits for the same core set. -/
def execCommandDispatch (c : Fin 8) (u : CmdUnit) (inst : Fin 4) (s : State) : Out :=
  .next (
    let k := unitCode u
    let ws := s.waitingQueues k inst.val c.val
    if s.fab.phase.isSome ∧ s.fab.canton = some c.val then s
    else if u = .core then
      let ready := ws.filter (fun q => match s.head q with
        | some d => !s.ctxBusy d.context q
        | none => false)
      match s.best ready with
      | none => s
      | some q => if !s.qLC q && ws.any (fun p => s.qLC p) then s else s.dispatchCore q
    else if s.unitBusy k inst.val then s
    else match s.best ws with
      | none => s
      | some q => s.dispatchUnit q)

/-! ### Expiry (R53 to R55) -/

/-- Takes the expiry action of a queue's running command (R53): BUDGET_CUT is set and the status becomes at least LATE. A core program stops at its next yield point, any other command as its own unit command states. -/
def State.expire (s : State) (q : Nat) (extra : BitVec 24) : State :=
  s.updHead q (fun c => { c with
    phase := .stopping
    status := worse stLate c.status
    flags := c.flags ||| flagBit fgBudgetCut ||| extra })

/-- Whether an outstanding read is for a transfer operation of a core, or for the COPY that it executes. -/
def State.forCore (s : State) (n : Nat) (o : OutRead) : Bool :=
  match o.what with
  | .copyOp m _ _ _ => m == n
  | .copyCmd q _ => (s.core n).running == some q
  | _ => false

/-- Frees the core that a queue's command used; reads still outstanding for it are dropped. -/
def State.freeCore (s : State) (n : Nat) : State :=
  let k := s.core n
  let x := k.context
  let s0 := { s with host := { s.host with reads := s.host.reads.filter (fun o => !(s.forCore n o)) } }
  let s1 := s0.setCore n { k with
    running := none, restoring := false, saving := false, yieldOffered := false, quantumPassed := false, suspendReq := false
    endPending := false, cancelled := [], qMatA := [], qMatB := [], qVec := [], qXfer := [], loads := [], fps := []
    matA := {}, matB := {}, image := none, ctx := {} }
  let s2 := if s.fld (R.CORE_STATUS n) F.CORE_STATUS_STATE = 4 then s1 else s1.setFld (R.CORE_STATUS n) F.CORE_STATUS_STATE 1
  let waits := (s.queues.map (fun p => p.1)).any (fun p => s.qUnit p == 1 &&
    match s.head p with
    | some c => c.context == x && c.phase == .waiting
    | none => false)
  s2.ctxState x (if waits then 4 else 1)

/-- Ends the command of a core's queue with a condition and frees the core. -/
def State.endOnCore (s : State) (n : Nat) (st : BitVec 8) : State :=
  match (s.core n).running with
  | none => s
  | some q => (s.endCmd q st).freeCore n

/-- DEADLINE_EXPIRY (R53): the deadline of the running command of a queue has passed. A started control-engine command and a frame on the wire are not cut (R384, R421). -/
def execDeadlineExpiry (q : BitVec 16) (s : State) : Out :=
  .next (
    match s.head q.toNat with
    | none => s
    | some c =>
      if c.phase = .running ∧ s.deadlinePassed c ∧ s.qUnit q.toNat ≠ 6 ∧ ¬(s.qUnit q.toNat = 7 ∧ c.done ≠ 0) then s.expire q.toNat 0 else s)

/-- STEP_BUDGET_EXHAUSTED (R53, R197): the counted steps of a running command have reached its step budget, or S_MAX of its program, which also sets STEP_BOUND; a program that ended in the step that reached it stands (R54). Steps of a core program are counted in the command; those of a chip-level unit are the unit's, which sends this command. -/
def execStepBudgetExhausted (q : BitVec 16) (s : State) : Out :=
  .next (
    match s.head q.toNat with
    | none => s
    | some c =>
      if c.phase = .running then
        if s.qUnit q.toNat = 1 ∧ c.opcode = 1 then
          let n := c.core.getD 0
          let k := s.core n
          if k.endPending ∧ c.steps = k.bound then s
          else if k.image.isSome ∧ k.bound ≤ c.steps then
            if k.boundIsMax then (s.coreErr n ceStepBound 3 0).expire q.toNat (flagBit fgStepBound) else s.expire q.toNat 0
          else s
        else if c.budget.isSome ∧ s.qUnit q.toNat ≠ 6 ∧ s.qUnit q.toNat ≠ 7 then s.expire q.toNat 0
        else s
      else s)

/-- The saved context of a queue's suspended command. -/
def State.savedOf (s : State) (q : Nat) : Option Saved := Store.get (fun _ => none) s.sched.saved q

def State.setSaved (s : State) (q : Nat) (x : Option Saved) : State :=
  { s with sched := { s.sched with saved := Store.set (fun _ => none) s.sched.saved q x } }

/-- Discards the saved context of a queue's suspended command and ends the command with a status (R55, R455). -/
def State.discardSuspended (s : State) (q : Nat) (st : BitVec 8) : State :=
  match s.head q with
  | some c => ((s.endCmd q st).setSaved q none).ctxState c.context 1
  | none => s

/-- SUSPENDED_DEADLINE_PASS (R55): the deadline of a suspended command passes; it completes LATE with BUDGET_CUT and its saved context is discarded. -/
def execSuspendedDeadlinePass (q : BitVec 16) (s : State) : Out :=
  .next (
    match s.head q.toNat with
    | none => s
    | some c =>
      if c.phase = .suspended ∧ s.deadlinePassed c then
        (s.cmdFlags q.toNat (flagBit fgBudgetCut)).discardSuspended q.toNat stLate
      else s)

/-! ### Suspension and resumption (R449 to R453) -/

/-- Whether a command of equal rank waits in the canton of queue q (R453). -/
def State.equalWaits (s : State) (q : Nat) : Bool :=
  (s.waitingQueues 1 0 (s.qCanton q)).any (fun p => s.qRank p == s.qRank q)

/-- QUANTUM_EXPIRY (R453): the running command's quantum has passed; the core gives way at its next yield point while a command of equal rank waits. -/
def execQuantumExpiry (n : Fin 16) (s : State) : Out :=
  .next (if (s.core n.val).running.isSome then s.setCore n.val { s.core n.val with quantumPassed := true } else s)

/-- Suspends the command of a core at a yield point (R449, R450): its state starts saving. After a quantum it goes behind the other waiting commands of its rank (R453). -/
def State.suspend (s : State) (n q : Nat) (sliced : Bool) : State :=
  let k := s.core n
  let s1 := s.updHead q (fun c => { c with
    flags := c.flags ||| flagBit fgPreempted
    order := if sliced then s.sched.order else c.order })
  let s2 := if sliced then
      ({ s1 with sched := { s1.sched with order := s1.sched.order + 1 } }).satAdd (R.SCH_CANTON_LOAD (s.qCanton q)) F.SCH_CANTON_LOAD_SLICES 1
    else s1
  (s2.setCore n { s2.core n with saving := true, yieldOffered := false, suspendReq := false, quantumPassed := false }).setFld
    (R.CORE_STATUS n) F.CORE_STATUS_STATE (if k.running.isSome then 3 else 1)

/-- The bytes a yield point declares live, S_LIVE of its yield table entry (R195, R450). -/
def State.sLive (s : State) (n : Nat) : Nat :=
  match (s.core n).image with
  | some im =>
    match im.yields.find? (fun y => im.first + y.1 + 1 == (s.core n).ctx.pc || im.first + y.1 == (s.core n).ctx.pc) with
    | some y => y.2.1
    | none => 9216
  | none => 9216

/-- Whether a core has a read outstanding. -/
def State.readsOut (s : State) (n : Nat) : Bool := s.host.reads.any (fun o => s.forCore n o)

/-- CONTEXT_SAVE_DONE (R450): once no remote read of the core is outstanding, the suspended context is in its save area and the core is free. -/
def execContextSaveDone (n : Fin 16) (s : State) : Out :=
  .next (
    let k := s.core n.val
    match k.running with
    | none => s
    | some q =>
      if k.saving ∧ !s.readsOut n.val then
        let sv : Saved := { ctx := k.ctx, image := k.image, seed := k.seed, xfer := k.qXfer, reads := k.cancelled }
        let s1 := (s.setSaved q (some sv)).updHead q (fun c => { c with phase := .suspended, core := some n.val })
        let s2 := (s1.wrapAdd (R.SCH_CTX_CNT k.context) F.SCH_CTX_CNT_SWITCHES 1).setFld
          (R.SCH_CTX_CNT k.context) F.SCH_CTX_CNT_LAST_S_LIVE (s.sLive n.val)
        let s3 := s2.satAdd (R.SCH_CANTON_LOAD (s.qCanton q)) F.SCH_CANTON_LOAD_SWITCHES 1
        (s3.freeCore n.val).ctxState k.context 3
      else s)

/-! ### Disabling (R455) -/

/-- Handles one accepted command of a disabled queue as ABANDON states; a started control-engine command and a frame already on the wire are exempt. -/
def abandonCmd (unit : Nat) (now : Word) (c : Cmd) : Cmd :=
  match c.phase with
  | .ended => c
  | .waiting => { c with phase := .ended, status := worse stAborted c.status, start := c.acc, stop := c.acc }
  | .suspended => { c with phase := .ended, status := worse stAborted c.status, stop := now }
  | .running | .stopping =>
    if unit = 6 ∨ (unit = 7 ∧ c.done ≠ 0) then c
    else if unit = 1 ∧ c.opcode = 1 then { c with phase := .stopping, status := worse stAborted c.status }
    else if unit = 1 ∨ unit = 7 then { c with phase := .ended, status := worse stAborted c.status, stop := now }
    else { c with phase := .stopping, status := worse stAborted c.status }

/-- Abandons every accepted command of a queue (R455). -/
def State.abandon (s : State) (q : Nat) : State :=
  let hd := s.head q
  let s1 := s.setQueue q { s.queue q with cmds := (s.queue q).cmds.map (abandonCmd (s.qUnit q) s.now) }
  match hd with
  | some c =>
    if c.phase = .suspended then (s1.setSaved q none).ctxState c.context 1
    else if (c.phase = .running ∨ c.phase = .stopping) ∧ s.qUnit q = 1 ∧ c.opcode ≠ 1 then s1.freeCore (c.core.getD 0)
    else if (c.phase = .running ∨ c.phase = .stopping) ∧ s.qUnit q = 7 ∧ c.done = 0 then s1.setBusy 7 (s.qInst q) false
    else s1
  | none => s1

/-- QUE_CTL.DISABLE = 1: fetching stops; ABANDON ends what was accepted (R455). -/
def State.queueDisable (s : State) (q : Nat) (r : Req) (abandon : Bool) : State :=
  s.guardW r (R.QUE_CTL q) (fun s =>
    if !s.qBound q then s
    else
      let s1 := (s.setFld (R.QUE_CTL q) F.QUE_CTL_DISABLE 1).setBit (R.QUE_CTL q) F.QUE_CTL_DISABLE_MODE abandon
      (if abandon then s1.abandon q else s1).updIdle q)

/-- QUE_CTL.DISABLE = 0: fetching resumes at CMD_CONS (R455). -/
def State.queueEnable (s : State) (q : Nat) (r : Req) : State :=
  s.guardW r (R.QUE_CTL q) (fun s =>
    if !s.qBound q then s else (s.setFld (R.QUE_CTL q) F.QUE_CTL_DISABLE 0).updIdle q)

/-- QUEUE_DISABLE (R455). -/
def execQueueDisable (q : BitVec 16) (r : Req) (abandon : Bool) (s : State) : Out := .next (s.queueDisable q.toNat r abandon)

/-- QUEUE_ENABLE (R455). -/
def execQueueEnable (q : BitVec 16) (r : Req) (s : State) : Out := .next (s.queueEnable q.toNat r)

/-- QUEUE_DRAIN_TIMEOUT (R455): what a DRAIN has not finished after DRAIN_US is handled as in ABANDON. -/
def execQueueDrainTimeout (q : BitVec 16) (s : State) : Out :=
  .next (
    if s.qDisabled q.toNat && !s.bit (R.QUE_CTL q.toNat) F.QUE_CTL_DISABLE_MODE then (s.abandon q.toNat).updIdle q.toNat else s)

/-! ### Bandwidth regulators (R454) -/

/-- The unit of a bucket's tokens: 1/250 byte, or 2⁻¹⁶/250 flit of the NoC bucket, so that every gain is whole. -/
def tokenUnit (k : Nat) : Nat := if k = 2 then 16384000 else 250

/-- The tokens of bucket k of canton c in its unit: 0 HBM read, 1 HBM write, 2 NoC, 3 to 6 chord ports. -/
def State.tokens (s : State) (c k : Nat) : Int := Store.get (fun _ => 0) s.sched.tokens (c * 8 + k)

def State.setTokens (s : State) (c k : Nat) (t : Int) : State :=
  { s with sched := { s.sched with tokens := Store.set (fun _ => 0) s.sched.tokens (c * 8 + k) t } }

/-- The counter of SCH_CANTON_THROTTLE that counts the waits on a bucket (R459). -/
def throttleFld : Nat → Fld
  | 0 => F.SCH_CANTON_THROTTLE_HBM_RD
  | 1 => F.SCH_CANTON_THROTTLE_HBM_WR
  | 2 => F.SCH_CANTON_THROTTLE_NOC
  | _ => F.SCH_CANTON_THROTTLE_CHORD

/-- REGULATOR_ADMIT (R454): a request of a size is admitted when the bucket is not negative, or by SOAK into an idle slot, and the bucket drains by its size; otherwise it waits, which is counted. A kind with no entry has rate zero and SOAK implied. -/
def execRegulatorAdmit (c : Fin 8) (k : Fin 7) (size : BitVec 32) (idle : Bool) (s : State) : Out :=
  .next (
    let soak := s.bit (R.SCH_REG c.val k.val) F.SCH_REG_SOAK
    if 0 ≤ s.tokens c.val k.val || (soak && idle) then s.setTokens c.val k.val (s.tokens c.val k.val - ((size.toNat * tokenUnit k.val : Nat) : Int))
    else s.satAdd (R.SCH_CANTON_THROTTLE c.val) (throttleFld k.val) 1)

/-- What each tick of the 250 MHz clock adds to the buckets of a canton, up to BURST: RATE MB/s × 4 ns; to the NoC bucket RATE × 12 × 2⁻¹⁶ flits for every step of those 4 ns, at the rate of the last step-rate window (R454; log 30). -/
def State.refill (s : State) (c : Nat) : Nat → State
  | 0 => s
  | k + 1 =>
    let s1 := s.refill c k
    let rate := s1.fld (R.SCH_REG c k) F.SCH_REG_RATE
    let burst : Int := ((s1.fld (R.SCH_REG c k) F.SCH_REG_BURST * tokenUnit k : Nat) : Int)
    let gain : Nat := if k = 2 then rate * 12 * s1.fld R.GLB_STEP_RATE F.GLB_STEP_RATE_RATE else rate
    if rate = 0 then s1 else s1.setTokens c k (min burst (s1.tokens c k + (gain : Int)))

end Sys2Proof.Machine
end

