-- ==== Sys2Proof/Machine/Memory.lean ====
section
/-! DEFINITION. Memory as units reach it: the device address map (R35 to R38), bank regions and views (R244 to R247), ownership (R256, R257, R262), power (R265), and reads and writes with what they flag (R33, R36, R79, R309, R466, R554). -/

namespace Sys2Proof.Machine

/-- Who issues an access: its owner code (R257; 0x100 has none), the canton it acts for, and whether it is host software or the management processor, which no canton check stops. -/
structure Agent where
  code : Nat
  canton : Option Nat
  host : Bool
  deriving DecidableEq, Repr

/-- A logical core as an agent. -/
def State.coreAgent (s : State) (n : Nat) : Agent := ⟨n, s.cantonOfCore n, false⟩

/-- A chip-level unit that acts for a canton's command. -/
def unitAgent (code canton : Nat) : Agent := ⟨code, some canton, false⟩

/-- Host software over BAR2. -/
def hostAgent : Agent := ⟨0x100, none, true⟩

/-- Where a device address leads (R35). -/
inductive Place where
  | hbm (a : Nat)
  | spd (b off : Nat)
  | mirror (off : Nat)
  | hostWin (x : Nat)
  | remote (p off : Nat)
  | unmapped
  deriving DecidableEq, Repr

/-- The device address of the first byte of a bank (R244). -/
def bankBase (b : Nat) : Nat :=
  if b < 1024 then 0x100000000000 + b / 64 * 0x4000000 + b % 64 * 0x80000
  else 0x100040000000 + (b - 1024) * 0x80000

/-- Where a local address leads: HBM, scratchpad, the register mirror, or nowhere (R35, R36). -/
def State.localPlace (s : State) (a : Nat) : Place :=
  if a < 0x100000000000 then (if a < s.hbmBytes then .hbm a else .unmapped)
  else if a < 0x100040000000 then
    let n := (a - 0x100000000000) / 0x4000000
    let o := (a - 0x100000000000) % 0x4000000
    if o < 0x2000000 ∧ s.coreActive n then .spd (n * 64 + o / 0x80000) (o % 0x80000) else .unmapped
  else if a < 0x100048000000 then .spd (1024 + (a - 0x100040000000) / 0x80000) ((a - 0x100040000000) % 0x80000)
  else if 0x200000000000 ≤ a ∧ a < 0x200004000000 then .mirror (a - 0x200000000000)
  else .unmapped

/-- Where an offset within a device's own remote window leads (R37, R38). -/
def State.windowPlace (s : State) (off : Nat) : Place :=
  if off < 0x10000000000 then s.localPlace off
  else if off < 0x10048000000 then s.localPlace (off + 0xF0000000000)
  else if 0x18000000000 ≤ off ∧ off < 0x18004000000 then .mirror (off - 0x18000000000)
  else .unmapped

/-- The device's own hierarchy position, none on a worker that is not enumerated (R479, R480). -/
def State.ownPosition (s : State) : Option Nat :=
  if s.position = 0xFF then none else some s.position

/-- Where a device address leads (R35 to R38). -/
def State.place (s : State) (a : Nat) : Place :=
  if a < 0x300000000000 then s.localPlace a
  else if a < 0x400000000000 then .hostWin (a - 0x300000000000)
  else if a < 0xC00000000000 then
    let p := (a - 0x400000000000) / 0x20000000000
    let o := (a - 0x400000000000) % 0x20000000000
    if !s.hasChords then .unmapped
    else if s.ownPosition = some p then s.windowPlace o
    else .remote p o
  else .unmapped

/-- Whether an address is in the HBM range or a scratchpad. -/
def State.isNear (s : State) (a : Nat) : Bool :=
  match s.place a with
  | .hbm _ => true
  | .spd _ _ => true
  | _ => false

/-! ### Banks -/

def State.bankCanton (s : State) (b : Nat) : Option Nat :=
  ownedIf (s.bit (R.SPD_BANK_CFG b) F.SPD_BANK_CFG_ASSIGNED) (s.fld (R.SPD_BANK_CFG b) F.SPD_BANK_CFG_CANTON)

/-- The region of a bank: its first bank and its bank count. A bank of no canton stands alone. -/
def State.region (s : State) (b : Nat) : Nat × Nat :=
  if s.bit (R.SPD_BANK_CFG b) F.SPD_BANK_CFG_ASSIGNED then
    (s.fld (R.SPD_BANK_CFG b) F.SPD_BANK_CFG_REGION_FIRST, 2 ^ s.fld (R.SPD_BANK_CFG b) F.SPD_BANK_CFG_LOG2_BANKS)
  else (b, 1)

/-- Whether a bank lies in a diagonal region. -/
def State.diagonal (s : State) (b : Nat) : Bool :=
  s.bit (R.SPD_BANK_CFG b) F.SPD_BANK_CFG_ASSIGNED && s.fld (R.SPD_BANK_CFG b) F.SPD_BANK_CFG_VIEW == 1

/-- The bank within a region of n banks and the line that a 256-byte unit u of the region lies in (R247). -/
def unitPlace (diag : Bool) (n u : Nat) : Nat × Nat :=
  if diag then
    let t := u / (n * n)
    let i := u / n % n
    let j := u % n
    ((i + j) % n, t * n + i)
  else (u % n, u / n)

/-- The bank and the byte in it that an offset of a nominal bank's address range reaches (R247). -/
def State.bankByte (s : State) (b off : Nat) : Nat × Nat :=
  let f := (s.region b).1
  let n := (s.region b).2
  let u := ((b - f) * 0x80000 + off) / 256
  let p := unitPlace (s.diagonal b) n u
  (f + p.1, p.2 * 256 + off % 256)

/-- Whether an agent owns a bank (R256, R257): a chip-level unit owns it only for the bank's canton. -/
def State.ownsBank (s : State) (g : Agent) (b : Nat) : Bool :=
  s.fld (R.SPD_BANK_OWNER b) F.SPD_BANK_OWNER_OWNER == g.code &&
    (decide (g.code < 16) || (g.canton.isSome && s.bankCanton b == g.canton))

/-- Whether the canton check lets an agent reach a bank as a non-owner (R33, R262). -/
def State.bankOpen (s : State) (g : Agent) (b : Nat) (write : Bool) (a : Nat) : Bool :=
  g.host ||
  match g.canton with
  | none => false
  | some c => s.bankCanton b == some c || s.windowed c write a 1

/-! ### What an access meets -/

/-- What an access to one byte meets: the byte's place in memory, or why it is not served; far is for targets outside HBM and scratchpad. -/
inductive Hit where
  | ok (key : Nat)
  | denied
  | unmapped
  | down
  | wait
  | far
  deriving DecidableEq, Repr

/-- The first byte of the page table (R309). -/
def State.tableBase (s : State) : Nat := s.hbmBytes - 0x1000000

/-- Whether an HBM address lies in the page table or a pennant slot, which units do not reach (R309, R554). -/
def State.reserved (s : State) (a : Nat) : Bool := decide (s.tableBase - 0x1000000 ≤ a ∧ a < s.hbmBytes)

/-- Whether an HBM address lies in the staged range that the loader owns (R79). -/
def State.inStaged (s : State) (a : Nat) : Bool :=
  match s.staged with
  | some o => decide (o.base ≤ a ∧ a < o.base + o.len)
  | none => false

/-- The canton whose KV pool holds an HBM address (R306, R315). -/
def State.poolOf (s : State) (x : Nat) : Option Nat :=
  (List.range 8).find? (fun c => s.bit (R.KV_POOL_CFG c) F.KV_POOL_CFG_ACTIVE &&
    decide (s.fld (R.KV_POOL_CFG c) F.KV_POOL_CFG_BASE * 2 ^ 21 ≤ x ∧
      x < s.fld (R.KV_POOL_CFG c) F.KV_POOL_CFG_BASE * 2 ^ 21 + s.fld (R.KV_POOL_USE c) F.KV_POOL_USE_LEN_4K * 4096))

/-- Whether an agent's access to a KV pool is refused: every write but the manager's, which does not pass here, and a read from another canton without a window (R315). -/
def State.poolDenies (s : State) (g : Agent) (write : Bool) (x : Nat) : Bool :=
  match s.poolOf x with
  | none => false
  | some k => write || !(g.host || g.canton == some k || (match g.canton with
      | some c => s.windowed c false x 1
      | none => false))

/-- What an agent's access to a byte meets. -/
def State.hit (s : State) (g : Agent) (write : Bool) (a : Nat) : Hit :=
  match s.place a with
  | .hbm x =>
    if s.reserved x then (if g.host && !write then .ok x else .denied)
    else if write && s.inStaged x then .unmapped
    else if s.poolDenies g write x then .denied
    else .ok x
  | .spd b off =>
    let p := s.bankByte b off
    let up := s.fld (R.SPD_BANK_PWR p.1) F.SPD_BANK_PWR_STATE == 0
    let key := bankBase p.1 + p.2
    if s.ownsBank g p.1 then
      if s.bit (R.SPD_BANK_OWNER p.1) F.SPD_BANK_OWNER_PENDING then .wait
      else if up then .ok key else .down
    else if !s.bankOpen g p.1 write a then .denied
    else if write && !s.bit (R.SPD_BANK_OWNER p.1) F.SPD_BANK_OWNER_SHARED_WRITE then .denied
    else if up then .ok key else .down
  | .unmapped => .unmapped
  | _ => .far

/-- The completion flags that an access sets (R33, R36, R265). -/
def Hit.flags : Hit → BitVec 24
  | .denied => flagBit fgAccessDenied
  | .unmapped => flagBit fgAddrUnmapped
  | .down => flagBit fgBankDown
  | .far => flagBit fgAccessDenied
  | _ => 0

/-- What a read returns: its bytes, the flags it sets, whether a byte is poisoned or in a word with a double-bit error, and whether it waits for a handover. -/
structure MemRead where
  bytes : List Byte := []
  flags : BitVec 24 := 0
  bad : Bool := false
  wait : Bool := false
  deriving DecidableEq, Repr

/-- The error of the scratchpad word that holds a byte: 0 none, odd a single-bit error, even a double one (R267). -/
def State.wordErr (s : State) (key : Nat) : Nat := Store.get (fun _ => 0) s.spd.ecc (key / 8 * 8)

/-- Whether a byte of memory reads as bad (R267, R466). -/
def State.badByte (s : State) (key : Nat) : Bool := s.poisoned key 1 || (s.wordErr key != 0 && s.wordErr key % 2 == 0)

/-- Reads one byte as an agent: zero where the access is not served. -/
def State.readByte (s : State) (g : Agent) (a : Nat) : MemRead :=
  match s.hit g false a with
  | .ok k => { bytes := [s.rd k], bad := s.badByte k }
  | .wait => { bytes := [0], wait := true }
  | h => { bytes := [0], flags := h.flags }

/-- Joins two reads. -/
def MemRead.append (x y : MemRead) : MemRead :=
  { bytes := x.bytes ++ y.bytes, flags := x.flags ||| y.flags, bad := x.bad || y.bad, wait := x.wait || y.wait }

/-- Reads n bytes as an agent. -/
def State.readMem (s : State) (g : Agent) (a : Nat) : Nat → MemRead
  | 0 => {}
  | n + 1 => (s.readByte g a).append (s.readMem g (a + 1) n)

/-- What a write changed and flagged. -/
structure MemWrite where
  state : State
  flags : BitVec 24
  wait : Bool
  deriving DecidableEq, Repr

/-- Stores a byte at its place; the word it lies in loses its error (R267). -/
def State.putByte (s : State) (key : Nat) (b : Byte) : State :=
  let s1 := s.wr key b
  if s1.wordErr key = 0 then s1
  else { s1 with spd := { s1.spd with ecc := Store.set (fun _ => 0) s1.spd.ecc (key / 8 * 8) 0, wb := s1.spd.wb.filter (fun w => w != key / 8 * 8) } }

/-- Writes one byte as an agent; a write that is not served is discarded. -/
def State.writeByte (s : State) (g : Agent) (a : Nat) (b : Byte) : MemWrite :=
  match s.hit g true a with
  | .ok k => ⟨s.putByte k b, 0, false⟩
  | .wait => ⟨s, 0, true⟩
  | h => ⟨s, h.flags, false⟩

/-- Writes bytes as an agent, byte by byte. -/
def State.writeBytes (s : State) (g : Agent) (a : Nat) : List Byte → MemWrite
  | [] => ⟨s, 0, false⟩
  | b :: r =>
    let x := s.writeByte g a b
    let y := x.state.writeBytes g (a + 1) r
    ⟨y.state, x.flags ||| y.flags, x.wait || y.wait⟩

/-- Takes the poison from the 32-byte units that lie wholly within n bytes at a (R466). -/
def State.unpoison (s : State) (a n : Nat) : State :=
  { s with poison := s.poison.filter (fun u => !(decide (a ≤ u ∧ u + 32 ≤ a + n))) }

/-- One write of bytes as an agent: units of HBM written whole lose their poison, where the write is served (R466). -/
def State.writeMem (s : State) (g : Agent) (a : Nat) (l : List Byte) : MemWrite :=
  let x := s.writeBytes g a l
  if x.flags = 0 ∧ x.wait = false then { x with state := x.state.unpoison a l.length } else x

/-- Marks the 32-byte units that n bytes at a touch as poisoned (R466). -/
def State.addPoison (s : State) (a n : Nat) : State :=
  let us := (List.range ((a % 32 + n + 31) / 32)).map (fun i => a / 32 * 32 + i * 32)
  { s with poison := (s.poison ++ us.filter (fun u => !s.poison.contains u)) }

end Sys2Proof.Machine
end

