-- ==== Sys2Proof/Machine/Record.lean ====
section
/-! DEFINITION. The recorder of external inputs (R496, R497). -/

namespace Sys2Proof.Machine

/-- Bytes padded with zeros to a multiple of n. -/
def padTo (n : Nat) (l : List Byte) : List Byte := l ++ List.replicate ((n - l.length % n) % n) 0

/-- The bytes of a record entry (R496). -/
def recEntry (stamp : Word) (seq kind source flags : Nat) (aux : Word) (payload : List Byte) : List Byte :=
  padTo 32 (leBytes stamp.toNat 8 ++ leBytes seq 8 ++ leBytes payload.length 4 ++ leBytes kind 1 ++ leBytes source 1
    ++ leBytes flags 2 ++ leBytes aux.toNat 8 ++ payload)

/-- Writes bytes into a ring of len bytes at base, from byte p on, continuing at base at the end of the ring. -/
def State.ringBytes (s : State) (base len p : Nat) : List Byte → State
  | [] => s
  | b :: r => (s.wr (base + p % len) b).ringBytes base len (p + 1) r

/-- Writes an entry into the record ring, and charges its bytes to the HBM write bucket of the canton (R497). With STOP_ON_FULL an entry that would wrap stops recording and sets FULL. -/
def State.recWrite (s : State) (l : List Byte) : State :=
  let p := (s.reg R.DET_REC_PROD).toNat
  let len := s.fld R.DET_REC_LEN F.DET_REC_LEN_LEN
  if len = 0 then s
  else if s.bit R.DET_REC_CTL F.DET_REC_CTL_STOP_ON_FULL ∧ len < p + l.length then
    (s.setFld R.DET_REC_STAT F.DET_REC_STAT_FULL 1).setFld R.DET_REC_CTL F.DET_REC_CTL_ENABLE 0
  else
    let c := s.fld R.DET_REC_CTL F.DET_REC_CTL_CANTON
    ((s.ringBytes (s.fld R.DET_REC_BASE F.DET_REC_BASE_ADDR * 4096) len p l).setReg R.DET_REC_PROD (BitVec.ofNat 64 (p + l.length))).setTokens c 1
      (s.tokens c 1 - ((l.length * tokenUnit 1 : Nat) : Int))

/-- Drops an entry: DROPPED counts it, and a GAP entry will (R497). -/
def State.recDrop (s : State) : State :=
  let s1 := s.satAdd R.DET_REC_STAT F.DET_REC_STAT_DROPPED 1
  { s1 with recorder := { s1.recorder with gap := s1.recorder.gap + 1 } }

/-- The bytes that wait in the staging buffer. -/
def stagedLen : List (Nat × List Byte) → Nat
  | [] => 0
  | x :: r => x.2.length + stagedLen r

/-- Whether the record ring's regulator admits a write now (R454, R497). -/
def State.recAdmits (s : State) : Bool := decide (0 ≤ s.tokens (s.fld R.DET_REC_CTL F.DET_REC_CTL_CANTON) 1)

/-- Records an input of a class, with the class bit cls: it is written when the regulator admits it, staged while it waits, and dropped when the 1 MiB staging buffer is full (R497). -/
def State.record (s : State) (cls kind source flags : Nat) (stamp aux : Word) (payload : List Byte) : State :=
  if s.bit R.DET_REC_CTL F.DET_REC_CTL_ENABLE && (s.fld R.DET_REC_CTL F.DET_REC_CTL_CLASS_MASK).testBit cls then
    let l := recEntry stamp s.recorder.seq kind source flags aux payload
    if 1048576 < stagedLen s.recorder.staged + l.length ∨ s.recorder.gap ≠ 0 then s.recDrop
    else
      let s1 := { s with recorder := { s.recorder with seq := s.recorder.seq + 1 } }
      if s.recorder.staged = [] ∧ s.recAdmits then s1.recWrite l
      else { s1 with recorder := { s1.recorder with staged := s1.recorder.staged ++ [(s.nowNs, l)] } }
  else s

/-- At each tick the oldest staged entry is written if the regulator admits it, or dropped 10 µs after it was staged (R497). -/
def State.recFlush (s : State) : State :=
  match s.recorder.staged with
  | [] => s
  | x :: r =>
    if x.1 + 10000 < s.nowNs then ({ s with recorder := { s.recorder with staged := r } }).recDrop
    else if s.recAdmits then ({ s with recorder := { s.recorder with staged := r } }).recWrite x.2
    else s

/-- RECORD_GAP_ENTRY (R497): space has returned in the staging buffer; a GAP entry counts the entries dropped. -/
def execRecordGapEntry (s : State) : Out :=
  .next (
    if s.recorder.gap = 0 ∨ !s.bit R.DET_REC_CTL F.DET_REC_CTL_ENABLE ∨ 1048576 < stagedLen s.recorder.staged + 32 then s
    else
      let l := recEntry s.now s.recorder.seq 0 0 0 (BitVec.ofNat 64 s.recorder.gap) []
      let s1 := { s with recorder := { s.recorder with seq := s.recorder.seq + 1, gap := 0 } }
      if s.recorder.staged = [] ∧ s.recAdmits then s1.recWrite l
      else { s1 with recorder := { s1.recorder with staged := s1.recorder.staged ++ [(s.nowNs, l)] } })

/-- Whether the replayer substitutes the inputs of a class (R498): its mask is ignored while it overlaps the recording mask. -/
def State.replays (s : State) (cls : Nat) : Bool :=
  s.bit R.DET_REPLAY_CTL F.DET_REPLAY_CTL_ENABLE &&
  (s.fld R.DET_REPLAY_CTL F.DET_REPLAY_CTL_CLASS_MASK).testBit cls &&
  !(s.bit R.DET_REC_CTL F.DET_REC_CTL_ENABLE &&
    !((s.reg R.DET_REPLAY_CTL &&& s.reg R.DET_REC_CTL &&& 0x1F) == 0))

/-- Takes a live input of a class: one that is being replayed is discarded and counted (R498), any other has its effect. -/
def State.liveInput (s : State) (cls : Nat) (f : State → State) : State :=
  if s.replays cls then s.satAdd R.DET_REPLAY_STAT F.DET_REPLAY_STAT_LIVE_IGNORED 1 else f s

end Sys2Proof.Machine
end

