-- ==== Sys2Proof/Machine/Actuators.lean ====
section
/-! DEFINITION. Actuator outputs: codes, carriers and valleys, step pulses, and when a pin is driven (R404 to R408), with the control-engine tables that they read. -/

namespace Sys2Proof.Machine

/-! ### The tables of the control engine -/

def State.slot (s : State) (i : Nat) : Slot := Store.get (fun _ => ({} : Slot)) s.ctl.slots i
def State.setSlot (s : State) (i : Nat) (x : Slot) : State :=
  { s with ctl := { s.ctl with slots := Store.set (fun _ => ({} : Slot)) s.ctl.slots i x } }

def State.grp (s : State) (g : Nat) : Grp := Store.get (fun _ => ({} : Grp)) s.ctl.groups g
def State.setGrp (s : State) (g : Nat) (x : Grp) : State :=
  { s with ctl := { s.ctl with groups := Store.set (fun _ => ({} : Grp)) s.ctl.groups g x } }

def State.sel (s : State) (m : Nat) : Sel := Store.get (fun _ => ({} : Sel)) s.ctl.sels m
def State.setSel (s : State) (m : Nat) (x : Sel) : State :=
  { s with ctl := { s.ctl with sels := Store.set (fun _ => ({} : Sel)) s.ctl.sels m x } }

def State.slotActive (s : State) (i : Nat) : Bool := s.bit (R.CTL_SLOT_CFG i) F.CTL_SLOT_CFG_ACTIVE
def State.slotGroup (s : State) (i : Nat) : Nat := s.fld (R.CTL_SLOT_CFG i) F.CTL_SLOT_CFG_GROUP
def State.slotQ (s : State) (i : Nat) : Nat := s.fld (R.CTL_SLOT_CFG i) F.CTL_SLOT_CFG_Q
def State.groupActive (s : State) (g : Nat) : Bool := s.bit (R.CTL_GROUP_CFG g) F.CTL_GROUP_CFG_ACTIVE
def State.selActive (s : State) (m : Nat) : Bool := s.bit (R.CTL_SEL_STAT m) F.CTL_SEL_STAT_ACTIVE
def State.selGroup (s : State) (m : Nat) : Nat := s.fld (R.CTL_SEL_STAT m) F.CTL_SEL_STAT_GROUP

/-- The slots of a group, ascending. -/
def State.groupSlots (s : State) (g : Nat) : List Nat :=
  (List.range 512).filter (fun i => s.slotActive i && s.slotGroup i == g)

/-- The min-select groups of a group. -/
def State.groupSels (s : State) (g : Nat) : List Nat :=
  (List.range 64).filter (fun m => s.selActive m && s.selGroup m == g)

/-- The rate group whose slot or min-select group is bound to actuator output a (R379). -/
def State.actGroup (s : State) (a : Nat) : Option Nat :=
  match (List.range 512).find? (fun i => s.slotActive i && s.bit (R.CTL_SLOT_CFG i) F.CTL_SLOT_CFG_OUT_BOUND
      && s.fld (R.CTL_SLOT_CFG i) F.CTL_SLOT_CFG_OUT_INDEX == a) with
  | some i => some (s.slotGroup i)
  | none =>
    match (List.range 64).find? (fun m => s.selActive m && (s.sel m).outBound && (s.sel m).outIndex == a) with
    | some m => some (s.selGroup m)
    | none => none

/-! ### Actuator outputs -/

def State.act (s : State) (a : Nat) : Act := Store.get (fun _ => ({} : Act)) s.io.acts a
def State.setAct (s : State) (a : Nat) (x : Act) : State :=
  { s with io := { s.io with acts := Store.set (fun _ => ({} : Act)) s.io.acts a x } }

def State.actMode (s : State) (a : Nat) : Nat := s.fld (R.SIO_ACT_CFG a) F.SIO_ACT_CFG_MODE
def State.actPeriod (s : State) (a : Nat) : Nat := s.fld (R.SIO_ACT_TIMING a) F.SIO_ACT_TIMING_PERIOD
def State.actPhase (s : State) (a : Nat) : Nat := s.fld (R.SIO_ACT_TIMING a) F.SIO_ACT_TIMING_PHASE
def State.actDead (s : State) (a : Nat) : Nat := s.fld (R.SIO_ACT_TIMING a) F.SIO_ACT_TIMING_DEAD
def State.actMinOn (s : State) (a : Nat) : Nat := s.fld (R.SIO_ACT_TIMING a) F.SIO_ACT_TIMING_MIN_ON
def State.actFS (s : State) (a : Nat) : Nat := s.fld (R.SIO_ACT_CFG a) F.SIO_ACT_CFG_FULL_SCALE

/-- Whether a mode drives outputs 2k and 2k + 1 (R404). -/
def pairedMode (m : Nat) : Bool := m == 2 || m == 3 || m == 4

/-- Whether a mode has a PWM carrier. -/
def pwmMode (m : Nat) : Bool := m == 1 || m == 2 || m == 3

/-- The output whose entry governs output a: itself, or the even one of its pair (R404, R425). -/
def State.actBase (s : State) (a : Nat) : Nat := if a % 2 = 1 ∧ pairedMode (s.actMode (a - 1)) then a - 1 else a

/-- Whether the valley of an output's group, entry and line let its pin be driven (R408). -/
def State.actMayDrive (s : State) (a : Nat) : Bool :=
  let b := s.actBase a
  s.bit (R.SIO_ACT_CFG b) F.SIO_ACT_CFG_ACTIVE && s.actMode b != 0 &&
  (match s.actGroup b with
    | some g =>
      let x := s.grp g
      s.groupActive g && x.latched && !x.outage && (!s.bit (R.CTL_GROUP_CTL g) F.CTL_GROUP_CTL_DISABLE || x.finishing)
    | none => false) &&
  (s.reg R.PLB_ACT_VALID).getLsbD a

/-- Stops driving the pins whose conditions no longer hold (R408), and shows Plumb's valid lines in SIO_ACT_STAT. -/
def State.actCheck (s : State) : Nat → State
  | 0 => s
  | a + 1 =>
    let s1 := s.actCheck a
    if s1.bit (R.SIO_ACT_CFG a) F.SIO_ACT_CFG_ACTIVE then
      let s2 := s1.setBit (R.SIO_ACT_STAT a) F.SIO_ACT_STAT_VALID ((s1.reg R.PLB_ACT_VALID).getLsbD a)
      if s2.actMayDrive a then s2 else s2.setFld (R.SIO_ACT_STAT a) F.SIO_ACT_STAT_DRIVEN 0
    else s1

/-- Stops driving every pin whose conditions no longer hold (R408). -/
def State.actStop (s : State) : State := s.actCheck 48

/-- Starts driving an output and its pair if their conditions hold (R408). -/
def State.actDrive (s : State) (a : Nat) : State :=
  let s1 := if s.actMayDrive a then s.setFld (R.SIO_ACT_STAT a) F.SIO_ACT_STAT_DRIVEN 1 else s
  if pairedMode (s.actMode a) && s1.actMayDrive (a + 1) then s1.setFld (R.SIO_ACT_STAT (a + 1)) F.SIO_ACT_STAT_DRIVEN 1 else s1

/-- Division by a positive number, rounded to nearest even. -/
def divRNE (n d : Nat) : Nat :=
  let q := n / d
  let r := n % d
  if 2 * r > d ∨ (2 * r = d ∧ q % 2 = 1) then q + 1 else q

/-- The active ticks of a code in a PWM mode, before the clamp to P (R404): of output 2k, or in PWM_BIDIR of the active output. -/
def actTicks (mode fs p : Nat) (code : Int) : Nat :=
  if fs = 0 then 0
  else if mode = 1 then divRNE (code.toNat * p) fs
  else if mode = 2 then divRNE ((code + (fs : Int)).toNat * p) (2 * fs)
  else divRNE (code.natAbs * p) fs

/-- Whether the clamp of the active ticks to 0 to P changes them (R404). -/
def actClips (mode fs p : Nat) (code : Int) : Bool :=
  decide (p < actTicks mode fs p code) || (mode == 2 && decide (code < -(fs : Int)))

/-- Mirrors the status registers of a paired output onto its partner (R425). -/
def State.actMirror (s : State) (a : Nat) : State :=
  if pairedMode (s.actMode a) then
    let s1 := (s.setFld (R.SIO_ACT_STAT (a + 1)) F.SIO_ACT_STAT_CODE (s.fld (R.SIO_ACT_STAT a) F.SIO_ACT_STAT_CODE)).setFld
      (R.SIO_ACT_STAT (a + 1)) F.SIO_ACT_STAT_CLIPPED (s.fld (R.SIO_ACT_STAT a) F.SIO_ACT_STAT_CLIPPED)
    (s1.setFld (R.SIO_ACT_STAT (a + 1)) F.SIO_ACT_STAT_LATE_APPLY (s.fld (R.SIO_ACT_STAT a) F.SIO_ACT_STAT_LATE_APPLY)).setReg
      (R.SIO_ACT_POS (a + 1)) (s.reg (R.SIO_ACT_POS a))
  else s

/-- The start of the carrier period that a time in ns lies in (R405); p and phase in ticks of 4 ns. -/
def valleyOf (p phase t : Nat) : Nat := t - (t + (4 * p - 4 * phase % (4 * p))) % (4 * p)

/-- The latest valley at or before now. -/
def State.actValley (s : State) (a : Nat) : Nat := valleyOf (s.actPeriod a) (s.actPhase a) s.nowNs

/-- Puts a code into effect at a valley (R404 to R406): CODE shows it, a clamp that changes the active ticks counts in CLIPPED, and the period's active ticks are fixed. -/
def State.applyPwm (s : State) (a : Nat) (code : Int) (valley : Nat) : State :=
  let m := s.actMode a
  let p := s.actPeriod a
  let fs := s.actFS a
  let x := s.act a
  let c := min p (actTicks m fs p code)
  let on := decide (c < p) && decide (s.actMinOn a ≤ p - c - s.actDead a) && decide (s.actDead a < p - c)
  let s1 := s.setAct a { x with pend := none, code := code, prevC := x.c, c := c, valley := some valley, stopped := false,
                                complOn := if x.c = p then on else x.complOn }
  let s2 := s1.setFld (R.SIO_ACT_STAT a) F.SIO_ACT_STAT_CODE (toTwos 16 code)
  if actClips m fs p code then s2.satAdd (R.SIO_ACT_STAT a) F.SIO_ACT_STAT_CLIPPED 1 else s2

/-- PWM_VALLEY (R405, R408): a valley of an output's carrier: a code that waits takes effect, the period starts, and a pin that may be driven is driven again. -/
def execPwmValley (a : Fin 48) (s : State) : Out :=
  .next (
    let n := a.val
    let x := s.act n
    let v := s.actValley n
    if s.bit (R.SIO_ACT_CFG n) F.SIO_ACT_CFG_ACTIVE && pwmMode (s.actMode n) && s.actBase n == n
        && decide (s.actPeriod n ≠ 0) && (match x.valley with
          | some w => decide (w < v)
          | none => true) then
      let s1 := match x.pend with
        | some code => s.applyPwm n code v
        | none =>
          let p := s.actPeriod n
          let on := decide (x.c < p) && decide (s.actMinOn n ≤ p - x.c - s.actDead n) && decide (s.actDead n < p - x.c)
          s.setAct n { x with prevC := x.c, valley := some v, stopped := false, complOn := on }
      (s1.actDrive n).actMirror n
    else s)

/-- A time step ends every carrier period in progress, the pins inactive until the next grid point (R405). -/
def State.actStepped (s : State) : Nat → State
  | 0 => s
  | a + 1 =>
    let s1 := s.actStepped a
    if s1.bit (R.SIO_ACT_CFG a) F.SIO_ACT_CFG_ACTIVE && pwmMode (s1.actMode a) then
      s1.setAct a { s1.act a with stopped := true, valley := some (s1.actValley a) }
    else s1

/-- What one tick adds to the accumulator of a STEP_DIR output (R407). -/
def State.stepIncr (s : State) (a : Nat) : Nat := (s.act a).code.natAbs * s.fld (R.SIO_ACT_CFG a) F.SIO_ACT_CFG_RATE

/-- The accumulator of a STEP_DIR output at the current tick, carries included. -/
def State.stepAcc (s : State) (a : Nat) : Nat := (s.act a).acc + s.stepIncr a * (s.time.ticks - (s.act a).accTick)

/-- STEP_PULSE_CARRY (R407): the accumulator of a STEP_DIR output carries. A pulse starts and POS counts it, unless the carry comes within 2 × MIN_ON ticks of the previous pulse, which counts in CLIPPED, or within DEAD ticks of a change of direction. -/
def execStepPulseCarry (a : Fin 48) (s : State) : Out :=
  .next (
    let n := a.val
    if s.bit (R.SIO_ACT_CFG n) F.SIO_ACT_CFG_ACTIVE && s.actMode n == 4 && decide (2 ^ 40 ≤ s.stepAcc n) then
      let x := s.act n
      let t := s.time.ticks
      let x1 := { x with acc := s.stepAcc n - 2 ^ 40, accTick := t }
      let close := match x.lastPulse with
        | some w => decide (t < w + 2 * s.actMinOn n)
        | none => false
      if close then ((s.setAct n x1).satAdd (R.SIO_ACT_STAT n) F.SIO_ACT_STAT_CLIPPED 1).actMirror n
      else if t < x.holdTo then s.setAct n x1
      else
        let pos := s.fld (R.SIO_ACT_POS n) F.SIO_ACT_POS_POS
        let s1 := (s.setAct n { x1 with lastPulse := some t }).setFld (R.SIO_ACT_POS n) F.SIO_ACT_POS_POS
          (if x.neg then pos + 2 ^ 32 - 1 else pos + 1)
        (if s1.bit (R.SIO_ACT_STAT n) F.SIO_ACT_STAT_DRIVEN then s1.emit (.stepPulse n (!x.neg)) else s1).actMirror n
    else s)

/-- The latch of a code on an actuator output (R404, R405, R407, R408): in a PWM mode it takes effect at this tick if it is a valley, or waits for the next valley, counted in LATE_APPLY; in the other modes it takes effect now, and a pin that may be driven is driven. -/
def State.latchCode (s : State) (a : Nat) (code : Int) : State :=
  let m := s.actMode a
  if pwmMode m then
    let v := s.actValley a
    if s.actPeriod a ≠ 0 ∧ v = s.nowNs then ((s.applyPwm a code v).actDrive a).actMirror a
    else ((s.setAct a { s.act a with pend := some code }).satAdd (R.SIO_ACT_STAT a) F.SIO_ACT_STAT_LATE_APPLY 1).actMirror a
  else
    let x := s.act a
    let x1 := { x with acc := s.stepAcc a % 2 ^ 40, accTick := s.time.ticks, code := code }
    let x2 := if m = 4 ∧ code ≠ 0 ∧ (decide (code < 0) != x.neg) then
        { x1 with neg := decide (code < 0), holdTo := s.time.ticks + s.actDead a }
      else x1
    (((s.setAct a x2).setFld (R.SIO_ACT_STAT a) F.SIO_ACT_STAT_CODE (toTwos 16 code)).actDrive a).actMirror a

/-- The level of an actuator pin at the current tick (R404 to R408): none for high-impedance, otherwise whether it is active. -/
def State.actPin (s : State) (a : Nat) : Option Bool :=
  if !s.bit (R.SIO_ACT_STAT a) F.SIO_ACT_STAT_DRIVEN then none
  else
    let b := s.actBase a
    let x := s.act b
    let m := s.actMode b
    let p := s.actPeriod b
    let r := (p - x.c) / 2
    let t := (s.nowNs - x.valley.getD 0) / 4
    let dead := s.actDead b
    let minOn := s.actMinOn b
    if pwmMode m && (x.stopped || x.valley.isNone) then some false
    else if m = 5 then some (decide (0 < x.code))
    else if m = 4 then
      some (if a = b then (match x.lastPulse with
        | some w => decide (s.time.ticks < w + minOn)
        | none => false) else x.neg)
    else if m = 2 then
      if a = b then
        if x.c = p then some (decide (x.prevC = p ∨ dead ≤ t))
        else some (decide (r + dead ≤ t ∧ t < r + x.c ∧ minOn ≤ x.c - dead))
      else if x.c = 0 then some (decide (x.prevC ≠ p ∨ dead ≤ t))
      else if t < r then some (x.complOn && (decide (x.prevC ≠ p) || decide (dead ≤ t)))
      else some (decide (r + x.c + dead ≤ t ∧ minOn ≤ p - x.c - dead))
    else
      let mine := if m = 3 ∧ (decide (x.code < 0) != decide (a ≠ b)) then false else true
      some (mine && decide (r ≤ t ∧ t < r + x.c ∧ (minOn ≤ x.c ∨ x.c = p)))

end Sys2Proof.Machine
end

