-- ==== Sys2Proof/Machine/Digest.lean ====
section
/-! DEFINITION. Checksums and digests: the CRC-32 of R515, the CRC-64 of R494, and SHA3-512 of FIPS 202 (R69, R500). -/

namespace Sys2Proof.Machine

/-- One bit of a reflected 32-bit CRC. -/
def crc32Bits (c : BitVec 32) : Nat → BitVec 32
  | 0 => c
  | n + 1 => crc32Bits (if c.getLsbD 0 then (c >>> 1) ^^^ 0xEDB88320#32 else c >>> 1) n

/-- The register of the IEEE 802.3 CRC after more bytes. -/
def crc32Run (c : BitVec 32) : List (BitVec 8) → BitVec 32
  | [] => c
  | b :: r => crc32Run (crc32Bits (c ^^^ b.setWidth 32) 8) r

/-- The IEEE 802.3 CRC-32, reflected, initial value and final XOR all ones (R515). -/
def crc32 (l : List (BitVec 8)) : BitVec 32 := crc32Run 0xFFFFFFFF#32 l ^^^ 0xFFFFFFFF#32

/-- One bit of a reflected 64-bit CRC. -/
def crc64Bits (c : BitVec 64) : Nat → BitVec 64
  | 0 => c
  | n + 1 => crc64Bits (if c.getLsbD 0 then (c >>> 1) ^^^ 0xC96C5795D7870F42#64 else c >>> 1) n

/-- The CRC-64 register of R494 after more bytes, fed least significant bit first. -/
def crc64 (c : BitVec 64) : List (BitVec 8) → BitVec 64
  | [] => c
  | b :: r => crc64 (crc64Bits (c ^^^ b.setWidth 64) 8) r

/-! ### SHA3-512 -/

/-- The round constants of Keccak-f. -/
def keccakRC : List (BitVec 64) :=
  [0x0000000000000001, 0x0000000000008082, 0x800000000000808A, 0x8000000080008000, 0x000000000000808B, 0x0000000080000001,
   0x8000000080008081, 0x8000000000008009, 0x000000000000008A, 0x0000000000000088, 0x0000000080008009, 0x000000008000000A]
  ++ [0x000000008000808B, 0x800000000000008B, 0x8000000000008089, 0x8000000000008003, 0x8000000000008002, 0x8000000000000080,
   0x000000000000800A, 0x800000008000000A, 0x8000000080008081, 0x8000000000008080, 0x0000000080000001, 0x8000000080008008]

/-- The rotation of lane x + 5y. -/
def keccakRot : List Nat :=
  [0, 1, 62, 28, 27, 36, 44, 6, 55, 20, 3, 10, 43, 25, 39, 41, 45, 15, 21, 8, 18, 2, 61, 56, 14]

/-- Lane x + 5y of a state of 25 lanes. -/
def lane (a : List (BitVec 64)) (x y : Nat) : BitVec 64 := a.getD (x % 5 + 5 * (y % 5)) 0

/-- The exclusive or of the five lanes of a column. -/
def column (a : List (BitVec 64)) (x : Nat) : BitVec 64 :=
  lane a x 0 ^^^ lane a x 1 ^^^ lane a x 2 ^^^ lane a x 3 ^^^ lane a x 4

/-- One round of Keccak-f. -/
def keccakRound (a : List (BitVec 64)) (rc : BitVec 64) : List (BitVec 64) :=
  let c := (List.range 5).map (column a)
  let d := (List.range 5).map (fun x => c.getD ((x + 4) % 5) 0 ^^^ (c.getD ((x + 1) % 5) 0).rotateLeft 1)
  let t := (List.range 25).map (fun i => a.getD i 0 ^^^ d.getD (i % 5) 0)
  let b := (List.range 25).map (fun i =>
    let x := (i % 5 + 3 * (i / 5)) % 5
    let y := i % 5
    (lane t x y).rotateLeft (keccakRot.getD (x + 5 * y) 0))
  let e := (List.range 25).map (fun i => lane b (i % 5) (i / 5) ^^^ (~~~ lane b (i % 5 + 1) (i / 5) &&& lane b (i % 5 + 2) (i / 5)))
  e.modify 0 (fun v => v ^^^ rc)

/-- Keccak-f[1600]. -/
def keccakF (a : List (BitVec 64)) : List (BitVec 64) := keccakRC.foldl keccakRound a

/-- The eight bytes of a block from byte 8i as a lane. -/
def blockLane (l : List (BitVec 8)) (i : Nat) : BitVec 64 :=
  ((l.drop (8 * i)).take 8).foldr (fun b a => a <<< 8 ||| b.setWidth 64) 0

/-- Absorbs a 72-byte block. -/
def absorb (a : List (BitVec 64)) (blk : List (BitVec 8)) : List (BitVec 64) :=
  keccakF ((List.range 25).map (fun i => if i < 9 then a.getD i 0 ^^^ blockLane blk i else a.getD i 0))

/-- Absorbs n blocks. -/
def absorbAll (a : List (BitVec 64)) (l : List (BitVec 8)) : Nat → List (BitVec 64)
  | 0 => a
  | n + 1 => absorbAll (absorb a (l.take 72)) (l.drop 72) n

/-- The message with the padding of SHA3: 0x06, zeros, and 0x80 in the last byte of the block. -/
def sha3Pad (l : List (BitVec 8)) : List (BitVec 8) :=
  let k := 72 - l.length % 72
  if k = 1 then l ++ [0x86] else l ++ [0x06] ++ List.replicate (k - 2) 0 ++ [0x80]

/-- The eight bytes of a lane, least significant first. -/
def laneBytes (w : BitVec 64) : List (BitVec 8) := (List.range 8).map (fun i => (w >>> (8 * i)).setWidth 8)

/-- SHA3-512 of a message: 64 bytes. -/
def sha3_512 (l : List (BitVec 8)) : List (BitVec 8) :=
  let p := sha3Pad l
  ((absorbAll (List.replicate 25 0) p (p.length / 72)).take 8).flatMap laneBytes

end Sys2Proof.Machine
end

