-- ==== Sys2Proof/Machine/Keys.lean ====
section
/-! DEFINITION. Owner keys and signatures (R70, R71, R616, R617). -/

namespace Sys2Proof.Machine

/-- n bytes of a list from an offset on, filled with zeros beyond its end. -/
def bytesAt (l : List Byte) (off n : Nat) : List Byte :=
  let x := (l.drop off).take n
  x ++ List.replicate (n - x.length) 0

/-- Whether n bytes of a list from an offset on are zero. -/
def zerosAt (l : List Byte) (off n : Nat) : Bool := (bytesAt l off n).all (fun b => b == 0)

/-- The bytes of an ASCII text. -/
def ascii (t : String) : List Byte := t.toList.map (fun c => BitVec.ofNat 8 c.toNat)

/-- A message with its context string, as FIPS 204 frames it before it is signed: a zero byte, the length of the context, the context, the message. -/
def withContext (ctx : String) (m : List Byte) : List Byte := 0 :: BitVec.ofNat 8 ctx.length :: (ascii ctx ++ m)

/-- Whether an ML-DSA-87 signature under a public key verifies for a message with a context string (R70). -/
def sigOk (key : List Byte) (ctx : String) (m sig : List Byte) : Bool := Config.mldsaVerify key (withContext ctx m) sig

/-- The 64 bytes of an owner slot's hash (R625). -/
def State.keyHash (s : State) (i : Nat) : List Byte := (List.range 8).flatMap (fun j => leBytes (s.reg (R.SEC_KEY_HASH i j)).toNat 8)

/-- The state of an owner slot: 0 EMPTY, 1 ACTIVE, 2 REVOKED. -/
def State.keySlot (s : State) (i : Nat) : Nat := s.fld (R.SEC_KEY_SLOT i) F.SEC_KEY_SLOT_STATE

/-- Whether a slot is provisioned, not revoked, and holds the hash of a public key (R71). -/
def State.slotHolds (s : State) (i : Nat) (key : List Byte) : Bool := decide (i < 4) && s.keySlot i == 1 && s.keyHash i == sha3_512 key

/-- KEY_STATE (R617): the SHA3-512 of the slots' states and hashes and of the presence of a fleet seed. -/
def State.keyState (s : State) : List Byte :=
  sha3_512 ((List.range 4).flatMap (fun i => BitVec.ofNat 8 (s.keySlot i) :: s.keyHash i) ++
    [if s.bit R.SEC_RESULT F.SEC_RESULT_FLEET_PRESENT then 1 else 0])

/-- Writes 64 bytes into eight registers. -/
def State.setDigest (s : State) (off : Nat → Nat) (l : List Byte) : State :=
  (List.range 8).foldl (fun (t : State) i => t.setReg (off i) (BitVec.ofNat 64 (sliceN l (8 * i) 8))) s

/-- The 64 bytes that eight registers hold. -/
def State.digest (s : State) (off : Nat → Nat) : List Byte := (List.range 8).flatMap (fun i => leBytes (s.reg (off i)).toNat 8)

/-- Shows KEY_STATE in SEC_KEY_STATE (R625). -/
def State.showKeyState (s : State) : State := s.setDigest R.SEC_KEY_STATE s.keyState

end Sys2Proof.Machine
end

