-- ==== Sys2Proof/Machine/Lattice.lean ====
section
/-! DEFINITION. The lattice stream as bytes: sections, header, digest chain and signatures (R62 to R72), and the check codes (R74). -/

namespace Sys2Proof.Machine

/-! ### Checks (R74) -/

def ckFormat : Nat := 0x01
def ckDigest : Nat := 0x02
def ckSignature : Nat := 0x03
def ckKeySlot : Nat := 0x04
def ckVendor : Nat := 0x05
def ckUnknownType : Nat := 0x06
def ckTarget : Nat := 0x07
def ckOrder : Nat := 0x08
def ckMissing : Nat := 0x09
def ckScope : Nat := 0x0A
def ckBase : Nat := 0x0B
def ckOwnership : Nat := 0x0C
def ckRegulator : Nat := 0x0D
def ckPhase : Nat := 0x0E
def ckDecode : Nat := 0x0F
def ckGrade : Nat := 0x10
def ckPinMode : Nat := 0x11
def ckCapacity : Nat := 0x12
def ckCommandState : Nat := 0x13
def ckRouteCycle : Nat := 0x14

/-- The status that a check reports. -/
def checkStatus (c : Nat) : BitVec 8 :=
  if c = 0 then stDone else if c = ckDigest then stIntegrity
  else if c = ckSignature ∨ c = ckKeySlot ∨ c = ckVendor then stAuthFail else stRejected

/-! ### Sections (R62 to R65) -/

/-- A section: its number, type, target, payload, the eight bytes before the payload, and the digest after it. -/
structure Sect where
  index : Nat
  type : Nat
  target : Nat
  payload : List Byte
  head : List Byte
  digest : List Byte
  deriving DecidableEq, Repr

def tyHeader : Nat := 0x0001
def tyGlobal : Nat := 0x0010
def tyCantonMap : Nat := 0x0020
def tyNocRoutes : Nat := 0x0028
def tyRegulators : Nat := 0x0030
def tySpdBanks : Nat := 0x0038
def tyPower : Nat := 0x0040
def tyTimeConfig : Nat := 0x0050
def tyPinMap : Nat := 0x0058
def tyInputGraph : Nat := 0x0060
def tyTokDict : Nat := 0x0068
def tyControlGraph : Nat := 0x0070
def tyPlumbRules : Nat := 0x0078
def tyPlumbFrames : Nat := 0x0080
def tyFirmware : Nat := 0x0090
def tyImage : Nat := 0x00A0
def tySignature : Nat := 0xFFFF
def chipTarget : Nat := 0x0100

/-- Whether a type is one of R65, whether its target is a canton, whether a full stream must carry it (for each canton used where its target is a canton), and whether a restream may. -/
def typeRow (t : Nat) : Option (Bool × Bool × Bool) :=
  if t = tyHeader ∨ t = tyTimeConfig ∨ t = tyPinMap ∨ t = tyPlumbRules ∨ t = tySignature then some (false, true, true)
  else if t = tyGlobal ∨ t = tyNocRoutes ∨ t = tyFirmware then some (false, true, false)
  else if t = tyCantonMap ∨ t = tyRegulators ∨ t = tySpdBanks then some (true, true, true)
  else if t = tyPower ∨ t = tyTokDict then some (false, false, false)
  else if t = tyInputGraph ∨ t = tyControlGraph ∨ t = tyPlumbFrames then some (false, false, true)
  else if t = tyImage then some (true, false, true)
  else none

/-- The section at the front of bytes, and the bytes after it; none where it does not fit (R62, R63, R70). -/
def cutSect (i : Nat) (l : List Byte) : Option (Sect × List Byte) :=
  let t := sliceN l 0 2
  let n := sliceN l 4 4
  let tail := if t = tySignature then 0 else 64
  if l.length < 8 ∨ n % 8 ≠ 0 ∨ l.length < 8 + n + tail ∨ (t = tySignature ∧ n ≠ 7224) then none
  else some ({ index := i, type := t, target := sliceN l 2 2, payload := (l.drop 8).take n, head := l.take 8, digest := (l.drop (8 + n)).take tail },
    l.drop (8 + n + tail))

/-- The sections of a stream up to its signature section, and the section at which the framing fails, if it does. -/
def frameSects : Nat → Nat → List Byte → List Sect × Option Nat
  | 0, i, _ => ([], some i)
  | k + 1, i, l =>
    match cutSect i l with
    | none => ([], some (if l.isEmpty then i - 1 else i))
    | some (x, rest) =>
      if x.type = tySignature then ([x], if rest.isEmpty then none else some i)
      else let y := frameSects k (i + 1) rest; (x :: y.1, y.2)

/-- The sections of a stream. -/
def sectsOf (l : List Byte) : List Sect × Option Nat := frameSects (l.length / 8 + 1) 0 l

/-- The payload of the header section. -/
def headerOf (l : List Sect) : List Byte := match l with
  | x :: _ => x.payload
  | [] => []

def hdrKind (h : List Byte) : Nat := sliceN h 6 1
def hdrCanton (h : List Byte) : Nat := sliceN h 7 1
def hdrSlot (h : List Byte) : Nat := sliceN h 8 1
def hdrBase (h : List Byte) : List Byte := bytesAt h 32 64

/-- Whether the header section breaks R63 or R64 for a stream of n sections and len bytes. -/
def headerBad (x : Sect) (n len : Nat) : Bool :=
  let h := x.payload
  x.type != tyHeader || x.target != chipTarget || h.length != 96 || sliceN h 0 4 != 0x4C545353 || sliceN h 4 2 != 1 || decide (1 < hdrKind h) ||
  decide (7 < hdrCanton h) || !zerosAt h 9 3 || sliceN h 12 4 != n || sliceN h 16 8 != len || !zerosAt h 24 8 ||
  (hdrKind h == 0 && (hdrCanton h != 0 || !zerosAt h 32 64))

/-- The digest chain of R69: the final digest, or the section at which a digest differs. -/
def chain (d : List Byte) : List Sect → List Byte × Option Nat
  | [] => (d, none)
  | x :: r =>
    if x.type = tySignature then (d, none)
    else
      let e := sha3_512 (d ++ x.head ++ x.payload)
      if e = x.digest then chain e r else (e, some x.index)

/-- final_digest of a stream (R69). -/
def finalDigest (l : List Sect) : List Byte := (chain (List.replicate 64 0) l).1

/-- A check that fails and the section at which it does. -/
abbrev LoadErr := Nat × Nat

/-- The first failure of format and digest chain of a stream (R73, step 1). -/
def formatErr (l : List Byte) : Option LoadErr :=
  let x := sectsOf l
  match x.2 with
  | some i => some (ckFormat, i)
  | none =>
    match x.1.head?, x.1.getLast? with
    | some h, some g =>
      if headerBad h x.1.length l.length then some (ckFormat, 0)
      else if !zerosAt g.payload 7219 5 then some (ckFormat, g.index)
      else (chain (List.replicate 64 0) x.1).2.map (fun i => (ckDigest, i))
    | _, _ => some (ckFormat, 0)

/-- The first failure of the owner signature (R71). -/
def State.ownerErr (s : State) (l : List Sect) : Option LoadErr :=
  match l.getLast? with
  | none => some (ckFormat, 0)
  | some g =>
    let key := bytesAt g.payload 0 2592
    if !s.slotHolds (hdrSlot (headerOf l)) key then some (ckKeySlot, g.index)
    else if sigOk key "lattice" (finalDigest l) (bytesAt g.payload 2592 4627) then none
    else some (ckSignature, g.index)

/-- Whether an MGT_FIRMWARE payload fits its own length (R72). -/
def firmwareFits (p : List Byte) : Bool :=
  let n := sliceN p 0 8
  p.length == 8 + (n + 7) / 8 * 8 + 4632 && zerosAt p (8 + n) ((n + 7) / 8 * 8 - n) && zerosAt p (p.length - 5) 5

/-- Whether the vendor signature of a firmware section verifies (R72). -/
def firmwareSigned (p : List Byte) : Bool :=
  let n := sliceN p 0 8
  let o := 8 + (n + 7) / 8 * 8
  sigOk Config.vendorKey "mgtfw" (sha3_512 (bytesAt p 8 n)) (bytesAt p o 4627)

/-- The first failure of the vendor signature (R72). -/
def vendorErr (l : List Sect) : Option LoadErr :=
  (l.find? (fun x => x.type == tyFirmware && firmwareFits x.payload && !firmwareSigned x.payload)).map (fun x => (ckVendor, x.index))

end Sys2Proof.Machine
end

