-- ==== Sys2Proof/Machine/Plumb.lean ====
section
/-! DEFINITION. Plumb: frame registrations, reports and inboxes, rules, detections, the safe state, safety messages and acknowledgement (R507 to R528, R533 to R537). Pennants stand in Machine/Pennant.lean. -/

namespace Sys2Proof.Machine

/-- The causes of R527. -/
def pcRule : Nat := 1
def pcDeadline : Nat := 2
def pcMalformed : Nat := 3
def pcHwDetect : Nat := 4
def pcPennant : Nat := 5
def pcOverrun : Nat := 6
def pcDiverge : Nat := 7
def pcCoverage : Nat := 8
def pcTimeFault : Nat := 9
def pcForced : Nat := 10
def pcRestream : Nat := 11
def pcInjected : Nat := 12

/-- Whether a cause counts towards M (R527). -/
def pcCounts (c : Nat) : Bool := decide (c ≤ 9)

def State.plReg (s : State) (f : Nat) : PlReg := Store.get (fun _ => ({} : PlReg)) s.plumb.regs f
def State.setPlReg (s : State) (f : Nat) (x : PlReg) : State :=
  { s with plumb := { s.plumb with regs := Store.set (fun _ => ({} : PlReg)) s.plumb.regs f x } }

def State.plActive (s : State) (f : Nat) : Bool := s.bit (R.PLB_REG_CFG f) F.PLB_REG_CFG_ACTIVE
def State.plLatchKind (s : State) (f : Nat) : Bool := s.bit (R.PLB_REG_CFG f) F.PLB_REG_CFG_KIND
def State.plState (s : State) (f : Nat) : Nat := s.fld (R.PLB_REG_STAT f) F.PLB_REG_STAT_STATE
def State.plFlag (s : State) (f i : Nat) : Bool := (s.fld (R.PLB_REG_CFG f) F.PLB_REG_CFG_FLAGS).testBit i
def State.plDeps (s : State) (f c : Nat) : Bool := (s.fld (R.PLB_REG_CFG f) F.PLB_REG_CFG_DEP_CANTONS).testBit c

/-- The active registrations, ascending. -/
def State.plActives (s : State) : List Nat := (List.range 64).filter (fun f => s.plActive f)

/-- A mask of the numbers below n that satisfy a test. -/
def maskOf (n : Nat) (p : Nat → Bool) : Nat := (List.range n).foldl (fun a i => if p i then a + 2 ^ i else a) 0

/-- The level of an actuator valid line (R521): every registration whose mask holds the output is VALID, there is one, and no Plumb fault holds; in the outage of its group it is low (R85). -/
def State.plLine (s : State) (a : Nat) : Bool :=
  let fs := s.plActives.filter (fun f => (s.plReg f).actMask.getLsbD a)
  let out := match s.actGroup (s.actBase a) with
    | some g => (s.grp g).outage
    | none => false
  !out && !s.bit R.PLB_STAT F.PLB_STAT_PLUMB_FAULT && !fs.isEmpty && fs.all (fun f => s.plState f == 1)

/-- The level of OUT_VALID (R523). -/
def State.plOutValid (s : State) : Bool :=
  let fs := s.plActives.filter (fun f => s.plFlag f 0)
  !s.bit R.PLB_STAT F.PLB_STAT_PLUMB_FAULT && !s.bit R.PLB_CTL F.PLB_CTL_FORCE_SAFE && !fs.isEmpty && fs.all (fun f => s.plState f == 1)

/-- Shows the states of the registrations in the global registers, drives the valid lines and OUT_VALID, and stops the pins whose line fell (R408, R521 to R523, R536). -/
def State.plRefresh (s : State) : State :=
  s.withCause 11 (fun s =>
    let s1 := s.setReg R.PLB_VALID (BitVec.ofNat 64 (maskOf 64 (fun f => s.plActive f && s.plState f == 1)))
    let s2 := s1.setReg R.PLB_LATCHED (BitVec.ofNat 64 (maskOf 64 (fun f => s1.plActive f && s1.plState f == 2)))
    let s3 := s2.setReg R.PLB_ACT_VALID (BitVec.ofNat 64 (maskOf 48 (fun a => s2.plLine a)))
    (s3.setBit R.PLB_STAT F.PLB_STAT_OUT_VALID s3.plOutValid).actStop)

/-! ### Safety messages (R525) -/

/-- Queues a safety message: up to 16 wait; a further one takes the place of the oldest of its registration, and with none of its registration waiting it is dropped (log 25). -/
def State.plQueueMsg (s : State) (m : SafeMsg) : State :=
  let l := s.plumb.msgs
  let rec swap : List SafeMsg → List SafeMsg
    | [] => []
    | x :: r => if x.reg = m.reg then m :: r else x :: swap r
  { s with plumb := { s.plumb with msgs := if l.length < 16 then l ++ [m] else swap l
                                   last := Store.set (fun _ => none) s.plumb.last m.reg (some m) } }

/-- Queues the message of a registration that leaves VALID or returns to it (R525). -/
def State.plMsg (s : State) (f : Nat) (restored : Bool) (cause k : Nat) : State :=
  if s.plFlag f 1 && s.fld R.PLB_CFG F.PLB_CFG_CAN_CTRL != 0xFF then
    s.plQueueMsg { reg := f, restored := restored, cause := cause, index := k % 65536, time := canStampOfNs s.nowNs, queued := s.nowNs }
  else s

/-! ### Judging a frame (R514, R521) -/

/-- Counts a registration's entry into LATCHED. -/
def State.plLatch (s : State) (f : Nat) : State :=
  let s1 := (s.setFld (R.PLB_REG_STAT f) F.PLB_REG_STAT_STATE 2).satAdd (R.PLB_REG_CNT f) F.PLB_REG_CNT_LATCHES 1
  let ms := s.fld R.PLB_CAN F.PLB_CAN_REPEAT_MS
  if ms = 0 then s1
  else { s1 with plumb := { s1.plumb with repeatAt := Store.set (fun _ => 0) s1.plumb.repeatAt f (s.nowNs + ms * 1000000) } }

/-- Captures the first detection since CLEAR_FIRST (R535, R536). -/
def State.plFirst (s : State) (f cause : Nat) : State :=
  if s.plumb.captured then s
  else
    let s1 := ((s.setFld R.PLB_STAT F.PLB_STAT_FIRST_REG f).setFld R.PLB_STAT F.PLB_STAT_FIRST_CAUSE cause).setReg R.PLB_FIRST_STAMP s.now
    { s1 with plumb := { s1.plumb with captured := true } }

/-- The counted disagreements of the window of w frames that ends with frame k (R521). -/
def inWindow (w k : Nat) (h : List (Nat × Bool)) : Nat := (h.filter (fun p => p.2 && decide (p.1 ≤ k ∧ k < p.1 + w))).length

/-- A disagreement of the open frame of a registration (R514, R521, R527): the first one of a frame counts, records its cause, and takes the registration out of VALID, or to LATCHED. -/
def State.disagree (s : State) (f cause : Nat) : State :=
  let x := s.plReg f
  match x.frame with
  | none => s
  | some k =>
    if !s.plActive f || x.cause.isSome then s
    else
      let w := s.fld (R.PLB_REG_CFG f) F.PLB_REG_CFG_W
      let h := (x.hist.filter (fun p => decide (k < p.1 + 64))) ++ [(k, pcCounts cause)]
      let s1 := (s.setPlReg f { x with cause := some cause, hist := h }).plFirst f cause
      let s2 := (s1.satAdd (R.PLB_REG_CNT f) F.PLB_REG_CNT_DISAGREE 1).satAdd (R.PLB_REG_CNT f) F.PLB_REG_CNT_DEADLINE (if cause = pcDeadline then 1 else 0)
      let st := s.plState f
      let s3 := ((s2.setFld (R.PLB_REG_STAT f) F.PLB_REG_STAT_LAST_CAUSE cause).setFld (R.PLB_REG_STAT f) F.PLB_REG_STAT_LAST_INDEX k).setFld
        (R.PLB_REG_STAT f) F.PLB_REG_STAT_IN_WINDOW (inWindow w k h)
      let latch := pcCounts cause && decide (s.fld (R.PLB_REG_CFG f) F.PLB_REG_CFG_M < inWindow w k h)
      let s4 := if st = 2 then s3
        else
          let s5 := (s3.setFld (R.PLB_REG_STAT f) F.PLB_REG_STAT_STATE 0).setFld (R.PLB_REG_STAT f) F.PLB_REG_STAT_COUNT 0
          if latch then s5.plLatch f else s5
      let s6 := (s4.setFld (R.PLB_VERDICT f) F.PLB_VERDICT_VALID 0).setFld (R.PLB_VERDICT f) F.PLB_VERDICT_INDEX k
      (if st = 1 then s6.plMsg f false cause k else s6).plRefresh

/-- A disagreement of every registration that satisfies a test (R520). -/
def State.disagreeAll (s : State) (cause : Nat) (p : Nat → Bool) : State :=
  (s.plActives.filter p).foldl (fun t f => t.disagree f cause) s

/-- A plausible frame (R521): N of them in a row restore an INVALID registration. -/
def State.plausible (s : State) (f : Nat) : State :=
  let x := s.plReg f
  match x.frame with
  | none => s
  | some k =>
    if x.cause.isSome then s
    else
      let n := s.fld (R.PLB_REG_STAT f) F.PLB_REG_STAT_COUNT + 1
      let w := s.fld (R.PLB_REG_CFG f) F.PLB_REG_CFG_W
      let s1 := (((s.setPlReg f { x with judged := true }).setFld (R.PLB_REG_STAT f) F.PLB_REG_STAT_COUNT (min 15 n)).setFld
        (R.PLB_REG_STAT f) F.PLB_REG_STAT_LAST_INDEX k).setFld (R.PLB_REG_STAT f) F.PLB_REG_STAT_IN_WINDOW (inWindow w k x.hist)
      let back := s.plState f = 0 ∧ s.fld (R.PLB_REG_CFG f) F.PLB_REG_CFG_N ≤ n
      let s2 := if back then (s1.setFld (R.PLB_REG_STAT f) F.PLB_REG_STAT_STATE 1).plMsg f true (s.fld (R.PLB_REG_STAT f) F.PLB_REG_STAT_LAST_CAUSE) k else s1
      ((s2.setBit (R.PLB_VERDICT f) F.PLB_VERDICT_VALID (s2.plState f == 1)).setFld (R.PLB_VERDICT f) F.PLB_VERDICT_INDEX k).plRefresh

/-! ### Frames (R513) -/

/-- The deadline of the open frame, in ns. -/
def PlReg.due (x : PlReg) : Nat := x.start + x.deadline

/-- A missing input at the deadline is a DEADLINE disagreement, or RESTREAM while the group of a LATCH registration is in an outage (R513, R533). -/
def State.missDeadline (s : State) (f : Nat) : State :=
  let x := s.plReg f
  if x.frame.isNone || x.arrived then s
  else if s.plLatchKind f && (s.grp (s.fld (R.PLB_REG_CFG f) F.PLB_REG_CFG_GROUP)).outage then s.disagree f pcRestream
  else s.disagree f pcDeadline

/-- PLUMB_FRAME_START (R513, R528): at S_k frame k of a registration opens. Frame k − 1 ends; with its input missing it is a disagreement. FORCE_SAFE makes every frame disagree. -/
def execPlumbFrameStart (f : Fin 64) (s : State) : Out :=
  .next (
    let x := s.plReg f.val
    if s.plActive f.val && decide (x.period ≠ 0 ∧ x.phase ≤ s.nowNs) then
      let k := (s.nowNs - x.phase) / x.period
      if (match x.frame with
          | some j => decide (k ≤ j)
          | none => false) then s
      else
        let s1 := if x.cause.isNone then s.missDeadline f.val else s
        let x1 := s1.plReg f.val
        let s2 := s1.setPlReg f.val { x1 with frame := some k, start := x.phase + k * x.period, arrived := false, input := none, judged := false, cause := none }
        if s2.bit R.PLB_CTL F.PLB_CTL_FORCE_SAFE then s2.disagree f.val pcForced else s2
    else s)

/-- PLUMB_FRAME_DEADLINE (R513): the deadline of a registration's open frame passes without its input. -/
def execPlumbFrameDeadline (f : Fin 64) (s : State) : Out :=
  .next (
    let x := s.plReg f.val
    if s.plActive f.val && x.frame.isSome && decide (x.due ≤ s.nowNs) then s.missDeadline f.val else s)

/-! ### Rules (R518) -/

/-- Gray code to binary, w bits. -/
def grayToBin (w v : Nat) : Nat :=
  (List.range w).foldl (fun a i => if ((List.range (w - i)).foldl (fun b j => b != v.testBit (i + j)) false) then a + 2 ^ i else a) 0

/-- The word that a WORD_SPEC takes from a raw frame (R399): a field of len bits at lsb, sign-extended, or zero-extended, or for 16 unsigned bits less 32,768. -/
def wordOf (raw : Nat) (lsb len : Nat) (signed : Bool) : Int :=
  let fld := raw / 2 ^ lsb % 2 ^ len
  if signed then signExt len fld
  else if len = 16 then (fld : Int) - 32768
  else (fld : Int)

/-- The word that Plumb takes from a raw frame of a port by the parameter of a SENSOR_RANGE rule (R518). In BiSS-C the two lowest bits, nE and nW, stay out of the Gray conversion (R398). -/
def State.plumbWord (s : State) (port : Nat) (raw : Nat) (param : Nat) : Int :=
  let lo := if s.fld (R.SIO_SP_CFG port) F.SIO_SP_CFG_MODE = 1 then 2 else 0
  let v := if param / 4096 % 2 = 1 then grayToBin 64 (raw / 2 ^ lo) * 2 ^ lo + raw % 2 ^ lo else raw
  wordOf v (param % 64) (param / 64 % 16 + 1) (param / 1024 % 2 == 1)

/-- Whether a value lies outside a range. -/
def outside (lo hi v : Int) : Bool := decide (v < lo ∨ hi < v)

/-- The code of an actuator output in a latch, if it has one. -/
def codeAt (l : List (Nat × Int)) (a : Nat) : Option Int := (l.find? (fun p => p.1 == a)).map (fun p => p.2)

/-- The items of a class; 0xFFFF is any class. -/
def itemsOf (items : List PlItem) (cls : Nat) : List PlItem := items.filter (fun i => cls == 0xFFFF || i.cls == cls)

/-- Whether a rule is violated by the input of a frame (R518). -/
def State.violates (s : State) (x : PlReg) (i : PlInput) (r : PlRule) : Bool :=
  match r.kind, i with
  | 1, .latch codes _ _ =>
    match codeAt codes r.source with
    | some c => outside r.lo r.hi c
    | none => false
  | 2, .latch codes _ _ =>
    match codeAt codes r.source, codeAt x.prevCodes r.source with
    | some c, some p => decide (r.param < (c - p).natAbs)
    | _, _ => false
  | 3, .latch _ flags _ =>
    match flags.find? (fun p => p.1 == r.source) with
    | some p => !(p.2 % 512 &&& r.param % 512 == 0)
    | none => false
  | 4, _ =>
    let port := r.source / 8
    let fs := (Store.get (fun _ => ([] : List (Nat × Option Word))) s.plumb.sensors port).filter
      (fun p => decide (x.start ≤ p.1 ∧ p.1 < x.start + x.period))
    fs.any (fun p => match p.2 with
      | some raw => outside r.lo r.hi (s.plumbWord port raw.toNat r.param)
      | none => r.param / 8192 % 2 == 1)
  | 5, .report items => (itemsOf items r.source).any (fun t => outside r.lo r.hi (t.vals.getD r.field 0))
  | 6, .report items => outside r.lo r.hi (((itemsOf items r.source).length : Nat) : Int)
  | _, _ => false

/-- PLUMB_JUDGEMENT_END (R514, R518): Plumb has judged the input of a registration's open frame: an overrun or a violated rule is a disagreement, and otherwise the frame is plausible. -/
def execPlumbJudgementEnd (f : Fin 64) (s : State) : Out :=
  .next (
    let x := s.plReg f.val
    match x.input with
    | none => s
    | some i =>
      let x1 := { x with input := none, prevCodes := match i with
        | .latch codes _ _ => codes ++ x.prevCodes.filter (fun p => (codeAt codes p.1).isNone)
        | .report _ => x.prevCodes }
      let s1 := s.setPlReg f.val x1
      let late := match i with
        | .latch _ _ o => o
        | .report _ => false
      if late then s1.disagree f.val pcOverrun
      else if (s.plumb.rules.filter (fun r => r.reg == f.val)).any (s.violates x i) then s1.disagree f.val pcRule
      else s1.plausible f.val)

/-! ### Inboxes and reports (R515, R516) -/

def State.inbox (s : State) (i : Nat) : Inbox := Store.get (fun _ => ({} : Inbox)) s.plumb.inboxes i
def State.setInbox (s : State) (i : Nat) (x : Inbox) : State :=
  { s with plumb := { s.plumb with inboxes := Store.set (fun _ => ({} : Inbox)) s.plumb.inboxes i x } }

/-- Enters a word into an inbox; one that finds its 512 words full is lost and counted (R515). -/
def State.inboxPush (s : State) (i : Nat) (v : Word) : State :=
  let b := s.inbox i
  if b.fifo.length < 512 then s.setInbox i { b with fifo := b.fifo ++ [(b.lost, v)], lost := 0 }
  else (s.setInbox i { b with lost := b.lost + 1 }).satAdd R.PLB_STAT F.PLB_STAT_INBOX_DROP 1

/-- PLB_INBOX_WRITE (R509, R515): core n writes inbox n and host software inbox 16; any other write is ignored, as is one of fewer than 64 bits (R9, R647). -/
def State.writeInbox (s : State) (i : Nat) (r : Req) (h : Half) (v : Word) : State :=
  let own := match r with
    | .core n => decide (n.val = i)
    | .host => decide (i = 16)
    | .bar2 => decide (i = 16)
    | _ => false
  if !s.hears r (R.PLB_INBOX i) then s
  else if h ≠ .full then s.partialWrite r
  else if own then s.inboxPush i v
  else s

/-- PLB_INBOX_WRITE. -/
def execPlbInboxWrite (i : Fin 17) (r : Req) (h : Half) (v : Word) (s : State) : Out := .next (s.writeInbox i.val r h v)

/-- The words of a report whose first word is w (R515); a header of another kind stands alone. -/
def reportLen (w : Word) : Nat :=
  match w.toNat / 2 ^ 62 with
  | 0 => 2 * (w.toNat / 2 ^ 32 % 65536) + 2
  | 1 => 3
  | _ => 1

/-- The bytes of a word. -/
def wordBytes (w : Word) : List Byte := leBytes w.toNat 8

/-- Whether the last word of a report holds the CRC-32 of the bytes before it (R515). -/
def reportCrcOk (l : List Word) : Bool :=
  (l.getLastD 0).toNat == (crc32 (l.dropLast.flatMap wordBytes)).toNat

/-- The values of an item from its two words (R515). -/
def itemOf (a b : Word) : PlItem :=
  let v (w : Word) (i : Nat) : Int := signExt 16 (w.toNat / 2 ^ (16 * i))
  { cls := a.toNat % 65536, vals := [v a 2, v a 3, v b 0, v b 1, v b 2, v b 3] }

/-- The items of a report's middle words. -/
def itemsFrom : List Word → List PlItem
  | a :: b :: r => itemOf a b :: itemsFrom r
  | _ => []

/-- A complete frame report reaches Plumb (R513, R516). -/
def State.frameReport (s : State) (l : List Word) (broken : Bool) : State :=
  let h := (l.headD 0).toNat
  let f := h / 2 ^ 56 % 64
  let x := s.plReg f
  match x.frame with
  | none => s
  | some k =>
    if !s.plActive f || s.plLatchKind f || h % 65536 != k % 65536 then s
    else
      let items := h / 2 ^ 32 % 65536
      let bad := broken || h / 2 ^ 48 % 256 != 0 || h / 2 ^ 16 % 65536 != 0 || !reportCrcOk l
        || decide (s.fld (R.PLB_REG_CFG f) F.PLB_REG_CFG_ITEMS_MAX < items) || x.arrived
      if bad then s.disagree f pcMalformed
      else if x.due ≤ s.nowNs then s.missDeadline f
      else s.setPlReg f { x with arrived := true, input := some (.report (itemsFrom (l.drop 1).dropLast)) }

/-- The length of a pennant frame in ns (R529). -/
def State.penPeriod (s : State) : Nat := s.fld R.PLB_CFG F.PLB_CFG_PENNANT_PERIOD_US * 1000

/-- The pennant frame that a report's 16 bits name: the latest one so far. -/
def State.penFrame (s : State) (low : Nat) : Nat :=
  let cur := s.nowNs / s.penPeriod
  cur - (cur + 65536 - low % 65536) % 65536

/-- A complete pennant report reaches Plumb and waits for judgement; a malformed one, and one that arrives more than 1 ms after the end of its pennant frame, is discarded (R515, R531). -/
def State.pennantReport (s : State) (l : List Word) (broken : Bool) : State :=
  let h := (l.headD 0).toNat
  let f := s.penFrame (h % 65536)
  if broken || h / 2 ^ 56 % 64 != 0 || h / 2 ^ 32 % 512 != 0 || h / 2 ^ 16 % 65536 != 0 || !reportCrcOk l then s
  else if (f + 1) * s.penPeriod + 1000000 < s.nowNs then s
  else
    let p : PenReport := { pattern := h / 2 ^ 48 % 256, phys := h / 2 ^ 43 % 32, eng := h / 2 ^ 41 % 4, frame := f,
                           crc := ((l.getD 1 0).setWidth 32) }
    { s with plumb := { s.plumb with reports := s.plumb.reports ++ [p] } }

/-- Adds a drained word, or a lost one, to the report that its inbox assembles. A report whose first word is lost cannot be framed and is passed over. -/
def State.assemble (s : State) (i : Nat) (w : Option Word) : State :=
  let b := s.inbox i
  match b.part, w with
  | [], none => s
  | [], some v =>
    if reportLen v = 1 then s else s.setInbox i { b with part := [some v] }
  | p, _ =>
    let l := p ++ [w]
    let h := (l.headD none).getD 0
    if l.length < reportLen h then s.setInbox i { b with part := l }
    else
      let s1 := s.setInbox i { b with part := [] }
      let words := l.map (fun o => o.getD 0)
      let broken := l.any (fun o => o.isNone)
      if h.toNat / 2 ^ 62 = 0 then s1.frameReport words broken else s1.pennantReport words broken

/-- One Plumb cycle takes one word from an inbox (R515). -/
def State.drainInbox (s : State) (i : Nat) : State :=
  let b := s.inbox i
  match b.fifo with
  | [] => s
  | e :: r =>
    let s1 := s.setInbox i { b with fifo := r }
    let s2 := (List.range e.1).foldl (fun t _ => t.assemble i none) s1
    s2.assemble i (some e.2)

/-- Plumb's 200 MHz clock beside the 250 MHz tick: four cycles in five ticks; each cycle takes one word from every inbox (R507, R515; log 26). -/
def State.plumbTick (s : State) : State :=
  let c := s.plumb.clock + 4
  if c < 5 then { s with plumb := { s.plumb with clock := c } }
  else (List.range 17).foldl (fun t i => t.drainInbox i) { s with plumb := { s.plumb with clock := c - 5 } }

/-! ### Detections (R520) -/

/-- Asserts a hardware line into Plumb; PLUMB_HW_DETECT takes it. c is the canton it concerns. -/
def State.assertLine (s : State) (d : HwDetect) (c : Nat) : State :=
  { s with plumb := { s.plumb with lines := s.plumb.lines ++ [(d, c)] } }

/-- The registrations that a hardware line concerns (R520). -/
def State.concerns (s : State) (d : HwDetect) (c f : Nat) : Bool :=
  match d with
  | .core _ _ => s.plDeps f c
  | .edge _ => s.plDeps f c
  | .slot sl => s.plDeps f c || (s.plLatchKind f && s.fld (R.PLB_REG_CFG f) F.PLB_REG_CFG_GROUP == s.slotGroup sl.val)
  | .diverge => s.plFlag f 3

/-- The cause that a hardware line gives (R527). -/
def lineCause : HwDetect → Nat
  | .core _ injected => if injected then pcInjected else pcHwDetect
  | .edge _ => pcHwDetect
  | .slot _ => pcHwDetect
  | .diverge => pcDiverge

/-- PLUMB_HW_DETECT (R520): a hardware line reaches Plumb; the open frames of the registrations it concerns disagree. -/
def execPlumbHwDetect (d : HwDetect) (s : State) : Out :=
  .next (
    match s.plumb.lines.find? (fun p => p.1 == d) with
    | none => s
    | some p =>
      let s1 := { s with plumb := { s.plumb with lines := s.plumb.lines.erase p } }
      s1.disagreeAll (lineCause d) (fun f => s.concerns d p.2 f))

/-- TIME_FAULT (R510, R521): every registration goes to LATCHED at once. -/
def State.timeFault (s : State) : State :=
  let s1 := s.setFld R.PLB_STAT F.PLB_STAT_TIME_FAULT 1
  s1.plActives.foldl (fun t f =>
    let t1 := t.disagree f pcTimeFault
    if t1.plState f = 2 then t1
    else
      let t2 := (t1.setFld (R.PLB_REG_STAT f) F.PLB_REG_STAT_LAST_CAUSE pcTimeFault).setFld (R.PLB_REG_STAT f) F.PLB_REG_STAT_COUNT 0
      (t2.plLatch f).plRefresh) s1

/-- PLUMB_TIME_CHECK (R510): 200,000 Plumb cycles after the last check device time must have advanced 1 ms ± 0.1 %, time steps removed. -/
def execPlumbTimeCheck (s : State) : Out :=
  .next (
    let s1 := { s with plumb := { s.plumb with checkNs := some s.nowNs, stepSum := 0 } }
    match s.plumb.checkNs with
    | none => s1
    | some t =>
      let adv : Int := (s.nowNs : Int) - (t : Int) - s.plumb.stepSum
      if 999000 ≤ adv ∧ adv ≤ 1001000 then { s1 with plumb := { s1.plumb with timeBad := false } }
      else { s1 with plumb := { s1.plumb with timeBad := true } }.timeFault)

/-- A Plumb fault (R508, R535): it latches, and every valid line and OUT_VALID go low. -/
def State.plumbFault (s : State) (src : Nat) : State :=
  if s.bit R.PLB_STAT F.PLB_STAT_PLUMB_FAULT then s
  else ((s.withCause 11 (fun t => t.setFld R.PLB_STAT F.PLB_STAT_PLUMB_FAULT 1)).setFld R.PLB_STAT F.PLB_STAT_FAULT_SRC src).plRefresh

/-- PLUMB_FAULT (R508). -/
def execPlumbFault (src : PlumbFaultSrc) (s : State) : Out :=
  .next (s.plumbFault (match src with
    | .comparator => 1
    | .sram => 2
    | .supply => 3
    | .oscillator => 4))

/-- PLUMB_WATCHDOG_TIMEOUT (R508): the processors do not service the watchdog for 100 µs. -/
def execPlumbWatchdogTimeout (s : State) : Out := .next (s.plumbFault 5)

/-! ### Safety messages on CAN (R415, R525) -/

/-- The data bytes of a safety message. -/
def SafeMsg.data (m : SafeMsg) : List Byte :=
  [BitVec.ofNat 8 ((if m.restored then 128 else 0) + m.cause % 16), BitVec.ofNat 8 m.reg] ++ leBytes m.index 2 ++ leBytes m.time.toNat 4

/-- The classical CAN frame of a safety message; an 11-bit identifier stands in the upper 11 of the 29 bits. -/
def State.safeFrame (s : State) (m : SafeMsg) : CanFrame :=
  let id := s.fld R.PLB_CAN F.PLB_CAN_CAN_ID
  let ide := s.bit R.PLB_CFG F.PLB_CFG_CAN_IDE
  { ide := ide, fdf := false, brs := false, esi := false, rtr := false, dlc := 8
    id := BitVec.ofNat 29 (if ide then id else id % 2048 * 2 ^ 18), data := m.data }

/-- PLUMB_SAFETY_MESSAGE (R525): the oldest pending message starts on the bus of CAN_CTRL from buffer 63, while the controller is error-active or error-passive; a start later than 500 µs counts in SAFE_MSG_LATE (R522). -/
def execPlumbSafetyMessage (s : State) : Out :=
  .next (
    let k := s.fld R.PLB_CFG F.PLB_CFG_CAN_CTRL
    match s.plumb.msgs with
    | [] => s
    | m :: r =>
      if k < 8 ∧ s.fld (R.CAN_STAT k) F.CAN_STAT_STATE < 2 then
        let f := s.safeFrame m
        let s1 := { s with plumb := { s.plumb with msgs := r } }
        let s2 := ((s1.setFld (R.CAN_MB_ID k 63) F.CAN_MB_ID_ID f.id.toNat).setReg (R.CAN_MB_DATA k 63 0) (BitVec.ofNat 64 (leNat m.data))).setFld
          (R.CAN_MB_STAMP k 63) F.CAN_MB_STAMP_SOF (canStampOfNs s.nowNs).toNat
        let s3 := (s2.setBit (R.CAN_MB_CTRL k 63) F.CAN_MB_CTRL_IDE f.ide).setFld (R.CAN_MB_CTRL k 63) F.CAN_MB_CTRL_DLC 8
        let s4 := if m.queued + 500000 < s.nowNs then s3.satAdd R.PLB_STAT F.PLB_STAT_SAFE_MSG_LATE 1 else s3
        s4.emit (.can k f)
      else s)

/-- The message that is repeated for a registration: its last, or one with its last cause (R525). -/
def State.lastMsg (s : State) (f : Nat) : SafeMsg :=
  match Store.get (fun _ => none) s.plumb.last f with
  | some m => { m with queued := s.nowNs }
  | none => { reg := f, restored := false, cause := s.fld (R.PLB_REG_STAT f) F.PLB_REG_STAT_LAST_CAUSE
              index := s.fld (R.PLB_REG_STAT f) F.PLB_REG_STAT_LAST_INDEX, time := canStampOfNs s.nowNs, queued := s.nowNs }

/-- PLUMB_SAFETY_REPEAT (R525): REPEAT_MS after it was last queued, the message of every LATCHED registration with FLAGS.CAN is queued again. -/
def execPlumbSafetyRepeat (s : State) : Out :=
  .next (
    let ms := s.fld R.PLB_CAN F.PLB_CAN_REPEAT_MS
    if ms = 0 ∨ s.fld R.PLB_CFG F.PLB_CFG_CAN_CTRL = 0xFF then s
    else (s.plActives.filter (fun f => s.plState f == 2 && s.plFlag f 1 && decide (Store.get (fun _ => 0) s.plumb.repeatAt f ≤ s.nowNs))).foldl
      (fun t f =>
        let t1 := t.plQueueMsg (s.lastMsg f)
        { t1 with plumb := { t1.plumb with repeatAt := Store.set (fun _ => 0) t1.plumb.repeatAt f (s.nowNs + ms * 1000000) } }) s)

/-! ### Acknowledgement and control (R526, R528, R536) -/

/-- A write of PLB_ACK through BAR0 (R526): LATCHED registrations named go to INVALID with count 0, or the write is refused. Mirror writes are ignored; a 32-bit write acts on the half it covers (R9). -/
def State.plAck (s : State) (r : Req) (h : Half) (v : Word) : State :=
  if r ≠ .host ∨ !s.hears r R.PLB_ACK then s
  else if s.bit R.PLB_STAT F.PLB_STAT_PLUMB_FAULT || s.plumb.timeBad then s.setFld R.PLB_STAT F.PLB_STAT_ACK_REFUSED 1
  else
    ((s.plActives.filter (fun f => (v &&& halfMask h).getLsbD f && s.plState f == 2)).foldl (fun t f =>
      (t.setFld (R.PLB_REG_STAT f) F.PLB_REG_STAT_STATE 0).setFld (R.PLB_REG_STAT f) F.PLB_REG_STAT_COUNT 0) s).plRefresh

/-- PLB_ACK. -/
def execPlbAck (r : Req) (h : Half) (v : Word) (s : State) : Out := .next (s.plAck r h v)

/-- FORCE_SAFE set makes every registration disagree with FORCED; cleared it lets them recover (R528). Host only (R536). -/
def State.plForce (s : State) (r : Req) (on : Bool) : State :=
  if r ≠ .host ∨ !s.hears r R.PLB_CTL then s
  else if on then
    if s.bit R.PLB_CTL F.PLB_CTL_FORCE_SAFE then s
    else (((s.setFld R.PLB_CTL F.PLB_CTL_FORCE_SAFE 1).setFld R.PLB_STAT F.PLB_STAT_FORCED 1).disagreeAll pcForced (fun _ => true)).plRefresh
  else ((s.setFld R.PLB_CTL F.PLB_CTL_FORCE_SAFE 0).setFld R.PLB_STAT F.PLB_STAT_FORCED 0).plRefresh

/-- PLB_FORCE_SAFE (R528). -/
def execPlbForceSafe (r : Req) (on : Bool) (s : State) : Out := .next (s.plForce r on)

/-- CLEAR_FIRST rearms the first-detection capture (R536). Host only. -/
def State.plClearFirst (s : State) (r : Req) : State :=
  if r ≠ .host ∨ !s.hears r R.PLB_CTL then s
  else
    let s1 := ((s.setFld R.PLB_STAT F.PLB_STAT_FIRST_REG 0).setFld R.PLB_STAT F.PLB_STAT_FIRST_CAUSE 0).setReg R.PLB_FIRST_STAMP 0
    { s1 with plumb := { s1.plumb with captured := false } }

/-- PLB_CLEAR_FIRST. -/
def execPlbClearFirst (r : Req) (s : State) : Out := .next (s.plClearFirst r)

/-! ### What Plumb receives from the control engine and the sensor ports -/

/-- The latch of a group reaches Plumb: it is the input of the open frame of every LATCH registration of the group (R509, R513). -/
def State.plumbLatch (s : State) (g : Nat) (stamp : Word) (codes : List (Nat × Int)) (flags : List (Nat × Nat)) (overrun : Bool) : State :=
  (s.plActives.filter (fun f => s.plLatchKind f && s.fld (R.PLB_REG_CFG f) F.PLB_REG_CFG_GROUP == g)).foldl (fun t f =>
    let x := t.plReg f
    if x.frame.isSome ∧ x.arrived = false ∧ s.nowNs < x.due ∧ stampOfNs x.start = stamp then
      t.setPlReg f { x with arrived := true, input := some (.latch codes flags overrun) }
    else t) s

/-- A raw sensor frame, or a port fault, reaches Plumb with its fire time (R402). Frames older than two seconds are of no interval any more. -/
def State.plumbSensor (s : State) (port fireNs : Nat) (raw : Option Word) : State :=
  let l := (Store.get (fun _ => ([] : List (Nat × Option Word))) s.plumb.sensors port).filter (fun p => decide (s.nowNs < p.1 + 2000000000))
  { s with plumb := { s.plumb with sensors := Store.set (fun _ => ([] : List (Nat × Option Word))) s.plumb.sensors port (l ++ [(fireNs, raw)]) } }

/-- Whether a MARK_LC registration that is not VALID concerns a canton (R524). -/
def State.marksLC (s : State) (c : Nat) : Bool :=
  s.plActives.any (fun f => s.plFlag f 2 && s.plDeps f c && s.plState f != 1)

end Sys2Proof.Machine
end

