-- ==== Sys2Proof/Machine/Repair.lean ====
section
/-! DEFINITION. The repair controller: fuses, detections, furls and swaps, column repair, the rolling test and tests on request (R22, R208, R538 to R552, R556). -/

namespace Sys2Proof.Machine

/-! ### Completion records outside the queues (R438) -/

/-- The 32 bytes of a completion record (R438, R439). -/
def recordBytes (seq : BitVec 32) (st : BitVec 8) (flags : BitVec 24) (start stop : Word) (energy aux : Nat) : List Byte :=
  leBytes seq.toNat 4 ++ [st] ++ leBytes flags.toNat 3 ++ leBytes start.toNat 8 ++ leBytes stop.toNat 8
    ++ leBytes energy 4 ++ leBytes aux 4

/-- A posted write of the host window; while the endpoint cannot master the link it is discarded and counted (R592, R593). -/
def State.hostPost (s : State) (x : Nat) (l : List Byte) : State :=
  if s.canMaster then s.emit (.hostWrite (s.fld R.GLB_HOST_WIN F.GLB_HOST_WIN_BASE * 2 ^ 44 + x) l)
  else s.satAdd R.GLB_HOST_STAT F.GLB_HOST_STAT_HOST_DROPS 1

/-- A write that the device makes of its own, to HBM, a scratchpad or the host window; elsewhere it is discarded. -/
def State.deviceWrite (s : State) (a : Nat) (l : List Byte) : State :=
  match s.place a with
  | .hostWin x => s.hostPost x l
  | _ => (s.writeMem hostAgent a l).state

/-! ### The map of physical cores (R20, R22, R558) -/

def State.physOf (s : State) (n : Nat) : Nat := s.fld (R.CORE_STATUS n) F.CORE_STATUS_PHYS

/-- The logical core that a physical core serves. -/
def State.logicalOf (s : State) (p : Nat) : Option Nat :=
  (List.range 16).find? (fun n => s.coreActive n && s.physOf n == p)

def State.isSpare (s : State) (p : Nat) : Bool := (s.fld R.FLT_MAP F.FLT_MAP_SPARE_PHYS).testBit p
def State.isRetired (s : State) (p : Nat) : Bool := (s.fld R.FLT_MAP F.FLT_MAP_RETIRED_PHYS).testBit p

/-- A bit of a mask set or cleared. -/
def maskBit (m i : Nat) (b : Bool) : Nat :=
  if m.testBit i then (if b then m else m - 2 ^ i) else (if b then m + 2 ^ i else m)

def State.setSpare (s : State) (p : Nat) (b : Bool) : State :=
  s.setFld R.FLT_MAP F.FLT_MAP_SPARE_PHYS (maskBit (s.fld R.FLT_MAP F.FLT_MAP_SPARE_PHYS) p b)

def State.setRetired (s : State) (p : Nat) : State :=
  s.setFld R.FLT_MAP F.FLT_MAP_RETIRED_PHYS (maskBit (s.fld R.FLT_MAP F.FLT_MAP_RETIRED_PHYS) p true)

def State.underTest (s : State) (p : Nat) : Bool :=
  match s.rep.test with
  | some t => t.phys == p
  | none => false

/-- Whether a swap in progress copies to a physical core. -/
def State.swapTarget (s : State) (p : Nat) : Bool :=
  match s.rep.swap with
  | some w => w.dst == p
  | none => false

/-- The lowest-numbered spare that is healthy, serves no number, is not under test and takes part in no swap (R22). -/
def State.freeSpare (s : State) : Option Nat :=
  (List.range 18).find? (fun p => s.isSpare p && !s.underTest p && !s.swapTarget p)

/-- One spare fewer. -/
def State.lessSpare (s : State) : State :=
  s.setFld R.GLB_CAPS F.GLB_CAPS_SPARES_LEFT (s.fld R.GLB_CAPS F.GLB_CAPS_SPARES_LEFT - 1)

/-! ### Fuses (R538, R539) -/

/-- Whether the next burn would find no free record (R539). -/
def State.fusesFull (s : State) : Bool := decide (128 ≤ s.fld R.FLT_STAT F.FLT_STAT_FUSES_USED + s.rep.burns.length)

/-- No free record is left: FUSE_FULL and its event (R539). -/
def State.fuseFull (s : State) : State :=
  if s.bit R.FLT_STAT F.FLT_STAT_FUSE_FULL then s else (s.setFld R.FLT_STAT F.FLT_STAT_FUSE_FULL 1).event 11 0 0 0

/-- Gives a record to the fuse burner, or loses it when no free record is left (R538, R539). -/
def State.burn (s : State) (r : Nat) : State :=
  if s.fusesFull then s.fuseFull else { s with rep := { s.rep with burns := s.rep.burns ++ [r] } }

/-- The CORE_FAIL record of a physical core. -/
def coreFailRec (p : Nat) : Nat := 2 ^ 29 + p

/-- The COLUMN record of a bank, spare slot and bit column. -/
def columnRec (b slot col : Nat) : Nat := 2 * 2 ^ 29 + b * 2 ^ 14 + slot * 2 ^ 12 + col

/-- The HBM_ROW record of a stack, pseudo-channel and row. -/
def rowRec (stack pc row : Nat) : Nat := 3 * 2 ^ 29 + stack * 2 ^ 26 + pc * 2 ^ 21 + row

/-- FUSE_BURN_DONE (R538): the oldest burn ends. A record that reads back good stands in the next record; one that reads back wrong becomes VOID there and is written again in the next free record. -/
def execFuseBurnDone (good : Bool) (s : State) : Out :=
  .next (
    match s.rep.burns with
    | [] => s
    | r :: rest =>
      let i := s.fld R.FLT_STAT F.FLT_STAT_FUSES_USED
      if 128 ≤ i then { s with rep := { s.rep with burns := rest } }.fuseFull
      else
        let s1 := s.setFld (R.FLT_FUSE_REC i) F.FLT_FUSE_REC_RECORD (if good then r else 7 * 2 ^ 29)
        let s2 := { s1 with rep := { s1.rep with burns := if good then rest else s1.rep.burns } }.setFld R.FLT_STAT F.FLT_STAT_FUSES_USED (i + 1)
        if i + 1 = 128 then s2.fuseFull else s2)

/-! ### Retirement and furls (R22, R544 to R546) -/

/-- Retires a physical core that serves no number: a CORE_FAIL record, and one spare fewer (R544, R550). -/
def State.retireSpare (s : State) (p : Nat) : State :=
  (((s.setSpare p false).setRetired p).burn (coreFailRec p)).lessSpare

/-- What a furl with no spare left does to logical core n (R22, R545, R558): it leaves the active set, and its suspended commands complete FENCED. -/
def State.loseCore (s : State) (n : Nat) : State :=
  let s1 := s.setFld R.FLT_MAP F.FLT_MAP_ACTIVE (maskBit (s.fld R.FLT_MAP F.FLT_MAP_ACTIVE) n false)
  let s2 := (s1.setFld R.GLB_CAPS F.GLB_CAPS_CORES_ACTIVE (s1.fld R.GLB_CAPS F.GLB_CAPS_CORES_ACTIVE - 1)).setFld R.FLT_STAT F.FLT_STAT_CORE_LOST 1
  let s3 := (s2.setFld (R.CORE_STATUS n) F.CORE_STATUS_ACTIVE 0).setFld (R.CORE_STATUS n) F.CORE_STATUS_STATE 0
  (s3.queues.map (fun p => p.1)).foldl (fun t q =>
    match t.head q with
    | some c => if c.phase = .suspended ∧ c.core = some n ∧ t.qUnit q = 1 then t.discardSuspended q stFenced else t
    | none => t) s3

/-- Starts the copy of the first furl that waits, in ascending logical order (R546); the FURL event names the physical cores out and in and the cause. -/
def State.nextFurl (s : State) : State :=
  if s.rep.swap.isSome then s
  else
    match s.rep.furls with
    | [] => s
    | (n, cause) :: rest =>
      let s0 := { s with rep := { s.rep with furls := rest } }
      let out := s0.physOf n
      let ev (t : State) (inn : Nat) : State := t.event 8 n (BitVec.ofNat 64 (out + inn * 256 + cause * 65536)) 0
      let go (t : State) (p : Nat) : State :=
        { ev t p with rep := { (ev t p).rep with swap := some { planned := false, n := n, src := out, dst := p, cause := cause, copying := true, back := false } } }
      let noTest (t : State) : State := { t with rep := { t.rep with test := none } }.setFld R.FLT_ROLL_STAT F.FLT_ROLL_STAT_STATE 0
      match s0.rep.test with
      | some t =>
        if t.logical = some n ∧ s0.isSpare t.phys then go (noTest s0) t.phys
        else
          match s0.freeSpare with
          | some p => go s0 p
          | none => if s0.isSpare t.phys then go (noTest s0) t.phys else (ev s0 0xFF).loseCore n
      | none =>
        match s0.freeSpare with
        | some p => go s0 p
        | none => (ev s0 0xFF).loseCore n

/-- Inserts a furl in ascending logical order. -/
def insFurl (n cause : Nat) : List (Nat × Nat) → List (Nat × Nat)
  | [] => [(n, cause)]
  | (m, c) :: r => if n < m then (n, cause) :: (m, c) :: r else (m, c) :: insFurl n cause r

/-- Furls the physical core that holds logical core n (R544): it is fenced at once, its command stops with FENCED unless the detection stopped it (R545), the failure is recorded for causes 1, 2, 3 and 5, and the copy to a spare starts or waits for another one. A context save in progress completes first; a planned swap of n becomes the furl (R546). -/
def State.furl (s : State) (n cause : Nat) : State :=
  if !s.coreActive n || s.fld (R.CORE_STATUS n) F.CORE_STATUS_STATE == 4 then s
  else
    let p := s.physOf n
    let s0 := if (s.core n).saving then
        match (execContextSaveDone (Fin.ofNat 16 n) s) with
        | .next t => t
        | _ => s
      else s
    let s1 := (s0.endOnCore n stFenced).setFld (R.CORE_STATUS n) F.CORE_STATUS_STATE 4
    let s2 := (s1.setRetired p).satAdd R.FLT_STAT F.FLT_STAT_FURLS 1
    let s3 := if cause = 4 then s2 else s2.burn (coreFailRec p)
    let s4 := { s3 with plumb := { s3.plumb with runs := s3.plumb.runs.filter (fun r => r.core != p) } }
    let s5 := match s4.rep.swap with
      | some w =>
        if w.n = n ∧ w.planned then
          let t := { s4 with rep := { s4.rep with swap := none } }
          if w.back then t else { t with rep := { t.rep with test := none } }.setFld R.FLT_ROLL_STAT F.FLT_ROLL_STAT_STATE 0
        else s4
      | none => s4
    { s5 with rep := { s5.rep with furls := insFurl n cause s5.rep.furls } }.nextFurl

/-- FLT_CMD.FURL: host software and the management processor only; ignored for an inactive core (R544, R558). -/
def State.furlWrite (s : State) (r : Req) (n : Nat) : State :=
  if (isHost r || r == .mgt) && s.hears r R.FLT_CMD then s.furl n 4 else s

/-- FLT_CMD_FURL (R544). -/
def execFltCmdFurl (r : Req) (core : Fin 16) (s : State) : Out := .next (s.furlWrite r core.val)

/-! ### Tests: how one ends (R548 to R552) -/

/-- The copy of the test registers of a requester (R551). -/
def State.testCopy (s : State) (mgt : Bool) : TestCopy := if mgt then s.rep.mgtCopy else s.rep.hostCopy

def State.setTestCopy (s : State) (mgt : Bool) (x : TestCopy) : State :=
  { s with rep := if mgt then { s.rep with mgtCopy := x } else { s.rep with hostCopy := x } }

/-- Shows how many requests wait. -/
def State.testPending (s : State) : State := s.setFld R.FLT_TEST_STAT F.FLT_TEST_STAT_PENDING s.rep.tests.length

/-- Writes the completion record of a test request and shows its status to its requester (R552). -/
def State.testRecord (s : State) (q : TestReq) (st : BitVec 8) (start : Word) : State :=
  let s1 := s.deviceWrite q.addr (recordBytes q.seq st 0 start s.now 0 0)
  s1.setTestCopy q.mgt { s1.testCopy q.mgt with lastStatus := st }

/-- The end of a core test after its swap-back, if it had one: the request's record, or the rolling test's next position (R548). -/
def State.finishTest (s : State) (t : CoreTest) : State :=
  let s1 := { s with rep := { s.rep with test := none } }.setFld R.FLT_ROLL_STAT F.FLT_ROLL_STAT_STATE 0
  match t.req with
  | some q => s1.testRecord q t.status s1.now
  | none =>
    if s1.rep.rollFirst.head? = some t.phys then { s1 with rep := { s1.rep with rollFirst := s1.rep.rollFirst.drop 1 } }
    else { s1 with rep := { s1.rep with rollPos := t.phys + 1 } }

/-- The result of the logic BIST and march test of the core under test (R550, R556). A failed core is retired, and a spare that serves its number keeps it; a passing one that served a number is swapped back. -/
def State.endTest (s : State) (st : BitVec 8) (unit bank : Nat) : State :=
  match s.rep.test with
  | none => s
  | some t =>
    let x := { t with status := st }
    let s1 := s.event 9 t.phys (BitVec.ofNat 64 (st.toNat + unit * 256 + bank * 65536)) 0
    let s2 := (s1.setFld R.FLT_TEST_STAT F.FLT_TEST_STAT_FAIL_UNIT unit).setFld R.FLT_TEST_STAT F.FLT_TEST_STAT_FAIL_BANK bank
    if unit ≠ 0 then
      let s3 := s2.satAdd R.FLT_ROLL_STAT F.FLT_ROLL_STAT_FAILS 1
      match s3.logicalOf t.phys with
      | some n => (s3.finishTest x).furl n 5
      | none => (s3.retireSpare t.phys).finishTest x
    else
      match t.logical with
      | some _ => { s2 with rep := { s2.rep with test := some x } }.setFld R.FLT_ROLL_STAT F.FLT_ROLL_STAT_STATE 3
      | none => s2.finishTest x

/-! ### Detections (R208, R531, R544, R549) -/

/-- Counts a detection of a physical core of a kind, 0 residue or 1 pennant, in the window of WINDOW_MS of the 250 MHz clock, and acts on the count: a furl, a retired spare, the next place in the rolling test, or a failed test (R544, R549, R550). unit is the FAIL_UNIT of the engine. -/
def State.detection (s : State) (p kind unit : Nat) : State :=
  let win := s.fld R.FLT_POLICY F.FLT_POLICY_WINDOW_MS * 250000
  let old : List (Nat × Nat × Nat) := s.rep.detects.filter (fun (d : Nat × Nat × Nat) => d.1 == p && d.2.1 == kind && decide (s.time.ticks < d.2.2 + win))
  let s1 := { s with rep := { s.rep with detects := s.rep.detects.filter (fun (d : Nat × Nat × Nat) => !(d.1 == p && d.2.1 == kind)) ++ old ++ [(p, kind, s.time.ticks)] } }
  let n := old.length + 1
  let th := max 1 (if kind = 0 then s.fld R.FLT_POLICY F.FLT_POLICY_RESIDUE_THRESH else s.fld R.FLT_POLICY F.FLT_POLICY_PENNANT_THRESH)
  if s.underTest p && s.fld R.FLT_ROLL_STAT F.FLT_ROLL_STAT_STATE == 2 then s1.endTest stIntegrity unit 0
  else
    match s1.logicalOf p with
    | some l =>
      if th ≤ n ∧ s.bit R.FLT_POLICY F.FLT_POLICY_AUTO_FURL then s1.furl l (kind + 1)
      else if n = 1 ∧ 1 < th ∧ !s1.rep.rollFirst.contains p then { s1 with rep := { s1.rep with rollFirst := s1.rep.rollFirst ++ [p] } }
      else s1
    | none =>
      if th ≤ n ∧ s1.isSpare p then s1.retireSpare p
      else if n = 1 ∧ 1 < th ∧ !s1.rep.rollFirst.contains p then { s1 with rep := { s1.rep with rollFirst := s1.rep.rollFirst ++ [p] } }
      else s1

/-- A residue or adder detection on core n (R208, R209): the error and its capture, the event, the line into Plumb, the command stopped with INTEGRITY, and the count towards a furl unless it was injected. bitNo is RESIDUE or ACC_DUP, eng the SOURCE code of the engine. -/
def State.coreDetect (s : State) (n bitNo eng col : Nat) (injected : Bool) : State :=
  let p := s.physOf n
  let s0 := s.setReg (R.CORE_ERR n) ((s.reg (R.CORE_ERR n)) &&& ~~~ (BitVec.ofNat 64 (2 ^ ceInjected)))
  let s1 := s0.coreErr n bitNo eng col
  let s2 := if injected then s1.coreErr n ceInjected eng col else s1
  let s3 := (s2.satAdd (R.CORE_CNT n) F.CORE_CNT_RESIDUE_CNT 1).event 1 p (s2.reg (R.CORE_ERR_INFO n)) 0
  let s4 := s3.assertLine (.core (Fin.ofNat 16 n) injected) ((s.cantonOfCore n).getD 0)
  let s5 := s4.endOnCore n stIntegrity
  if injected then s5 else s5.detection p 0 (eng + 1)

/-! ### Scratchpad columns (R547) -/

/-- The place of a bank's status while its physical core serves no number. -/
def State.physBank (s : State) (b : Nat) : Nat := s.physOf (b / 64) * 64 + b % 64

/-- Starts the next live repair pass (R269). -/
def State.nextRepair (s : State) : State :=
  match s.rep.colq with
  | [] => s
  | (b, _) :: _ =>
    if s.bit R.SPD_REPAIR F.SPD_REPAIR_ACTIVE then s
    else ((s.setFld R.SPD_REPAIR F.SPD_REPAIR_ACTIVE 1).setFld R.SPD_REPAIR F.SPD_REPAIR_BANK b).setFld R.SPD_REPAIR F.SPD_REPAIR_LINES 0

/-- The spare columns of a bank in use or taken by a repair that waits. -/
def State.sparesUsed (s : State) (b : Nat) : Nat :=
  s.fld (R.SPD_BANK_STAT b) F.SPD_BANK_STAT_SPARE_COLS + (s.rep.colq.filter (fun p => p.1 == b)).length

/-- Repairs a column: a COLUMN record and a live repair pass, or, with no spare column left, the event alone, which for a core bank is furl cause 3 (R539, R547). -/
def State.repairColumn (s : State) (b col : Nat) : State :=
  let used := s.sparesUsed b
  if 4 ≤ used then
    let s1 := s.event 4 b (BitVec.ofNat 64 (col + used * 65536)) 0
    if b < 1024 then s1.furl (b / 64) 3 else s1
  else if s.fusesFull then s.fuseFull
  else
    let s1 := s.burn (columnRec b used col)
    { s1 with rep := { s1.rep with colq := s1.rep.colq ++ [(b, col)] } }.nextRepair

/-- Counts a read that the ECC traced to a bit column of a bank (R547). -/
def State.columnHit (s : State) (b col : Nat) : State :=
  let k := b * 4096 + col
  let n := Store.get (fun _ => 0) s.rep.cols k + 1
  let s1 := { s with rep := { s.rep with cols := Store.set (fun _ => 0) s.rep.cols k n } }
  if n = max 1 (s.fld R.FLT_POLICY F.FLT_POLICY_COLUMN_THRESH) then s1.repairColumn b col else s1

/-! ### Slack (R530) -/

/-- The ns from now to the next frame start of a REPORT registration that satisfies a test; none when no such registration is active. -/
def State.slackBy (s : State) (p : Nat → Bool) : Option Nat :=
  (s.plActives.filter (fun f => !s.plLatchKind f && p f && decide ((s.plReg f).period ≠ 0))).foldl (fun a f =>
    let x := s.plReg f
    let d := (if s.nowNs < x.phase then x.phase else gridAfter x.period x.phase s.nowNs) - s.nowNs
    match a with
    | none => some d
    | some e => some (min d e)) none

/-- Whether a self-test segment of t ns meets the slack rule for a canton, none for a core of no canton (R530). -/
def State.slackOk (s : State) (c : Option Nat) (t : Nat) : Bool :=
  match c with
  | none => true
  | some c =>
    match s.slackBy (fun f => s.plDeps f c) with
    | none => true
    | some d => decide (t + s.fld R.PLB_CFG F.PLB_CFG_GUARD_US * 1000 ≤ d)

/-- The time of a number of steps at 1.05 Gsteps/s in ns, rounded up. -/
def floorNs (steps : Nat) : Nat := (steps * 20 + 20) / 21

/-- The bound of the copy of logical core n (R542). -/
def State.tCopy (s : State) (n planned : Nat) : Nat :=
  let st (b : Nat) : Nat := s.fld (R.SPD_BANK_PWR (n * 64 + b)) F.SPD_BANK_PWR_STATE
  let on := ((List.range 64).filter (fun b => decide (st b < 2))).length
  let wake := if (List.range 64).any (fun b => st b == 1) then 1500 else 0
  floorNs ((on * 524288 + 1048576 + planned + 1023) / 1024) + wake + 2000

/-- The planned-swap bound (R543). -/
def State.tSwap (s : State) (n : Nat) : Nat :=
  20000 + s.fld R.SCH_CFG F.SCH_CFG_YIELD_REMOTE_US * 1000 + s.tCopy n 9216

/-! ### Planned swaps (R541 to R543) -/

/-- Whether canton c is in a COMMIT. -/
def State.inCommit (s : State) (c : Nat) : Bool := s.fab.phase.isSome && s.fab.canton == some c

/-- Whether an LC command of a canton waits for a core. -/
def State.lcWaits (s : State) (c : Nat) : Bool := (s.waitingQueues 1 0 c).any (fun q => s.qLC q)

/-- Whether every condition of R543 for a planned swap of logical core n holds. -/
def State.swapOk (s : State) (n : Nat) : Bool :=
  let c := s.cantonOfCore n
  s.rep.swap.isNone && s.coreActive n && s.fld (R.CORE_STATUS n) F.CORE_STATUS_STATE != 4 && !(s.core n).saving && !(s.core n).restoring &&
  s.slackOk c (s.tSwap n) &&
  (match c with
    | some c => !s.lcWaits c && !s.inCommit c
    | none => true) &&
  (List.range 64).all (fun b => !s.bit (R.SPD_BANK_OWNER (n * 64 + b)) F.SPD_BANK_OWNER_PENDING && !s.bit (R.SPD_BANK_PWR (n * 64 + b)) F.SPD_BANK_PWR_TRANSITION)

/-- PLANNED_SWAP_START (R543, R548): the core under test of logical number n is swapped out to the lowest-numbered free spare, or back. An idle core is copied at once, a running one from its next yield point. A swap-back that cannot start waits, DEFERRED. -/
def execPlannedSwapStart (n : Fin 16) (s : State) : Out :=
  .next (
    match s.rep.test with
    | none => s
    | some t =>
      let st := s.fld R.FLT_ROLL_STAT F.FLT_ROLL_STAT_STATE
      if t.logical ≠ some n.val ∨ s.rep.swap.isSome then s
      else
        let go (dst : Nat) (back : Bool) : State :=
          { s with rep := { s.rep with swap := some { planned := true, n := n.val, src := s.physOf n.val, dst := dst, cause := 0,
                                                      copying := (s.core n.val).running.isNone, back := back } } }
        if st = 1 then
          match s.freeSpare with
          | some p => if s.swapOk n.val then go p false else s
          | none => s
        else if st = 3 ∨ st = 5 then
          if s.swapOk n.val then (go t.phys true).setFld R.FLT_ROLL_STAT F.FLT_ROLL_STAT_STATE 3
          else s.setFld R.FLT_ROLL_STAT F.FLT_ROLL_STAT_STATE 5
        else s)

/-- Exchanges the bank status of logical core n for that of the physical core that takes it (R541). -/
def State.moveBankStat (s : State) (n src dst : Nat) : Nat → State
  | 0 => s
  | k + 1 =>
    let t := s.moveBankStat n src dst k
    let w := Store.get (fun _ => (0 : Word)) t.rep.bankStat (dst * 64 + k)
    let m := Store.set (fun _ => (0 : Word)) t.rep.bankStat (src * 64 + k) (t.reg (R.SPD_BANK_STAT (n * 64 + k)))
    { t with rep := { t.rep with bankStat := Store.set (fun _ => (0 : Word)) m (dst * 64 + k) 0 } }.setReg (R.SPD_BANK_STAT (n * 64 + k)) w

/-- Logical number n moves to a physical core (R20, R541): the map and the bank status follow; contents, ownership, views and instruction memory are kept by logical number. -/
def State.remap (s : State) (n src dst : Nat) : State :=
  let s1 := (s.moveBankStat n src dst 64).setFld (R.CORE_STATUS n) F.CORE_STATUS_PHYS dst
  let s2 := s1.setSpare dst false
  let s3 := if s2.isRetired src then s2 else s2.setSpare src true
  (s3.setFld R.FLT_STAT F.FLT_STAT_SWAP 1)

/-- Takes the coverage of a physical core's engines out of the window in progress: they start a new one at the next window boundary (R529). -/
def State.freshCov (s : State) (p : Nat) : State :=
  { s with plumb := { s.plumb with cov := s.plumb.cov.filter (fun x => x.1 / 3 != p) } }

/-- SWAP_COPY_DONE (R541, R542, R545): the copy of the swap in progress is complete, and the logical number is on its new physical core, where a stopped program goes on. A spare that was retired meanwhile is replaced by the next one. -/
def execSwapCopyDone (s : State) : Out :=
  .next (
    match s.rep.swap with
    | none => s
    | some w =>
      if !w.copying then s
      else if !s.isSpare w.dst then
        let s0 := { s with rep := { s.rep with swap := none } }
        if w.planned then
          ({ s0 with rep := { s0.rep with test := none } }.setFld R.FLT_ROLL_STAT F.FLT_ROLL_STAT_STATE 0).setFld
            (R.CORE_STATUS w.n) F.CORE_STATUS_STATE (if (s.core w.n).running.isSome then 2 else 1)
        else
          match s0.freeSpare with
          | some p => { s with rep := { s.rep with swap := some { w with dst := p } } }
          | none => (s0.loseCore w.n).nextFurl
      else
        let s1 := { s with rep := { s.rep with swap := none } }.remap w.n w.src w.dst
        if w.planned then
          let s2 := s1.setFld (R.CORE_STATUS w.n) F.CORE_STATUS_STATE (if (s.core w.n).running.isSome then 2 else 1)
          let s3 := if w.back then
              match s2.rep.test with
              | some t => (s2.finishTest t).freshCov w.dst
              | none => s2
            else (s2.setFld R.FLT_ROLL_STAT F.FLT_ROLL_STAT_STATE 2).freshCov w.dst
          s3.nextFurl
        else (((s1.setFld (R.CORE_STATUS w.n) F.CORE_STATUS_STATE 1).lessSpare).freshCov w.dst).nextFurl)

/-! ### Rolling test (R548, R549) -/

/-- Starts the test of a physical core: in place for a spare, else from its swap-out, or NO_SPARE when no spare is free (R548). -/
def State.beginTest (s : State) (p : Nat) (q : Option TestReq) : State :=
  let l := s.logicalOf p
  let s1 := ((s.setFld R.FLT_ROLL_STAT F.FLT_ROLL_STAT_PHYS p).setBit R.FLT_ROLL_STAT F.FLT_ROLL_STAT_WAS_ACTIVE l.isSome).setFld
    R.FLT_ROLL_STAT F.FLT_ROLL_STAT_LOGICAL (l.getD 0)
  { s1 with rep := { s1.rep with test := some { phys := p, logical := l, req := q } } }.setFld
    R.FLT_ROLL_STAT F.FLT_ROLL_STAT_STATE (if l.isSome then 1 else 2)

/-- The next core of the cycle at or after a position: retired cores are passed over. -/
def State.rollNext (s : State) (p : Nat) : Option Nat :=
  (List.range 18).find? (fun i => decide (p ≤ i) && (s.isSpare i || (s.logicalOf i).isSome))

/-- ROLLING_TEST_NEXT (R548, R549): with no test and no request under way after the full load, the rolling test takes its next core: one with a first detection, or the next in physical order. In-service cores are skipped while no spare is free. After a full pass it pauses. -/
def execRollingTestNext (s : State) : Out :=
  .next (
    if !s.bit R.FLT_ROLL_CTL F.FLT_ROLL_CTL_ENABLE || !s.bit R.GLB_BUDGET_MODE F.GLB_BUDGET_MODE_LOCKED || s.rep.test.isSome
        || s.rep.rollPause || !s.rep.tests.isEmpty || s.rep.thermal.isSome then s
    else
      let first := s.rep.rollFirst.filter (fun p => s.isSpare p || (s.logicalOf p).isSome)
      let s0 := { s with rep := { s.rep with rollFirst := first } }
      let pick := match first with
        | p :: _ => some p
        | [] => s0.rollNext s0.rep.rollPos
      match pick with
      | none => { s0 with rep := { s0.rep with rollPos := 0, rollPause := true } }.wrapAdd R.FLT_ROLL_STAT F.FLT_ROLL_STAT_CYCLES 1
      | some p =>
        if (s0.logicalOf p).isSome ∧ s0.freeSpare.isNone then
          let s1 := s0.setFld R.FLT_ROLL_STAT F.FLT_ROLL_STAT_STATE 4
          if first.isEmpty then { s1 with rep := { s1.rep with rollPos := p + 1 } }
          else { s1 with rep := { s1.rep with rollFirst := first.drop 1 } }
        else s0.beginTest p none)

/-- ROLLING_INTERVAL_EXPIRY (R548): INTERVAL_S has passed since the last cycle. -/
def execRollingIntervalExpiry (s : State) : Out := .next { s with rep := { s.rep with rollPause := false } }

/-- CORE_TEST_DONE (R548, R550): the test of the core under test ends with the unit that failed, 0 for none. cols are march failures in columns: when free spare columns and records can replace them they are repaired and the march repeated, and otherwise the test fails. -/
def execCoreTestDone (fail : BitVec 4) (bank : BitVec 11) (cols : List (BitVec 11 × BitVec 12)) (s : State) : Out :=
  .next (
    match s.rep.test with
    | none => s
    | some t =>
      if s.fld R.FLT_ROLL_STAT F.FLT_ROLL_STAT_STATE ≠ 2 then s
      else if fail ≠ 0 then s.endTest stIntegrity fail.toNat (if fail = 6 then bank.toNat else 0)
      else if cols = [] then s.endTest stDone 0 0
      else
        let slot (b : Nat) : Nat := t.phys * 64 + b % 64
        let used (b : Nat) (st : State) : Nat := F.SPD_BANK_STAT_SPARE_COLS.get (Store.get (fun _ => (0 : Word)) st.rep.bankStat (slot b))
        let fits := cols.all (fun c => decide (used c.1.toNat s + (cols.filter (fun d => d.1 == c.1)).length ≤ 4)) &&
          decide (s.fld R.FLT_STAT F.FLT_STAT_FUSES_USED + s.rep.burns.length + cols.length ≤ 128)
        if !fits then s.endTest stIntegrity 6 ((cols.map (fun c => c.1.toNat)).headD 0)
        else
          let s1 := cols.foldl (fun st c =>
            let b := c.1.toNat
            let u := used b st
            let w := Store.get (fun _ => (0 : Word)) st.rep.bankStat (slot b)
            let st1 := st.burn (columnRec b u c.2.toNat)
            let st2 := { st1 with rep := { st1.rep with bankStat := Store.set (fun _ => (0 : Word)) st1.rep.bankStat (slot b) (F.SPD_BANK_STAT_SPARE_COLS.set w (u + 1)) } }
            st2.event 4 b (BitVec.ofNat 64 (c.2.toNat + (u + 1) * 65536)) 0) s
          s1.endTest stFlagged 0 0)

/-! ### Tests on request (R551, R552) -/

/-- Whether a request is out of range, or finds no free spare for a core test (R552). -/
def State.testBad (s : State) (kind target : Nat) : Bool :=
  match kind with
  | 1 => !(decide (target < 16) && s.coreActive target) || s.freeSpare.isNone
  | 2 => !(decide (target < 18) && s.isSpare target) || s.freeSpare.isNone
  | 3 => !(decide (target < 8) || target == 0xFF)
  | _ => true

/-- A write of FLT_TEST_REQ (R551, R552): checked by its sequence number, then queued or refused with a record. KIND 0 is ignored, as is any requester but host software and the management processor. -/
def State.testReq (s : State) (r : Req) (h : Half) (v : Word) : State :=
  if !(isHost r || r == .mgt) || !s.hears r R.FLT_TEST_REQ then s
  else if h ≠ .full then s.partialWrite r
  else
    let mgt := r == .mgt
    let x := s.testCopy mgt
    let kind := F.FLT_TEST_REQ_KIND.get v
    let q : TestReq := { mgt := mgt, kind := kind, target := F.FLT_TEST_REQ_TARGET.get v, deadline := x.deadline,
                         addr := x.addr.toNat, seq := BitVec.ofNat 32 (F.FLT_TEST_REQ_SEQ.get v) }
    if kind = 0 then s
    else if q.seq ≠ x.lastSeq + 1 then s.testRecord q stSeqGap s.now
    else
      let s1 := s.setTestCopy mgt { x with lastSeq := q.seq }
      if 8 ≤ s1.rep.tests.length || s1.testBad kind q.target then s1.testRecord q stRejected s.now
      else { s1 with rep := { s1.rep with tests := s1.rep.tests ++ [q] } }.testPending

/-- FLT_TEST_REQ (R551). -/
def execFltTestReq (r : Req) (h : Half) (v : Word) (s : State) : Out := .next (s.testReq r h v)

/-- The bound of a request in ns (R551). -/
def State.tTest (s : State) (q : TestReq) : Nat :=
  match q.kind with
  | 1 => 2 * s.tSwap q.target + 2000000000
  | 2 => 2000000000
  | _ => if q.target = 0xFF then 160000 else 20000

/-- Whether the deadline condition of a request can no longer hold (R552). -/
def State.testLate (s : State) (q : TestReq) : Bool :=
  q.deadline != 0 && decide (0 < stampDiff (stampAdd s.now (s.tTest q : Nat)) q.deadline)

/-- Takes the head request off the queue. -/
def State.popTest (s : State) : State := { s with rep := { s.rep with tests := s.rep.tests.drop 1 } }.testPending

/-- TEST_REQUEST_START (R552): the head request starts when no test is under way, its first segment meets the slack rule, and its deadline allows it. A test whose spare or target has gone completes REJECTED. -/
def execTestRequestStart (s : State) : Out :=
  .next (
    match s.rep.tests with
    | [] => s
    | q :: _ =>
      if s.rep.test.isSome || s.rep.thermal.isSome || s.testLate q then s
      else if q.kind = 3 then
        let ok := match s.slackBy (fun _ => true) with
          | none => true
          | some d => decide (20000 + s.fld R.PLB_CFG F.PLB_CFG_GUARD_US * 1000 ≤ d)
        if !ok then s
        else
          let gs := if q.target = 0xFF then List.range 8 else [q.target]
          { s.popTest with rep := { s.popTest.rep with thermal := some (gs.headD 0, gs.drop 1, q) } }
      else if s.testBad q.kind q.target then s.popTest.testRecord q stRejected s.now
      else if q.kind = 2 then (s.popTest).beginTest q.target (some q)
      else if s.slackOk (s.cantonOfCore q.target) (s.tSwap q.target) then (s.popTest).beginTest (s.physOf q.target) (some q)
      else s)

/-- TEST_REQUEST_NO_SLACK (R552): the deadline of the head request can no longer be met; it completes BUSY_NO_SLACK without running. -/
def execTestRequestNoSlack (s : State) : Out :=
  .next (
    match s.rep.tests with
    | [] => s
    | q :: _ => if s.testLate q then s.popTest.testRecord q stBusyNoSlack s.now else s)

/-- THERMAL_CAL_SEGMENT_DONE (R551): the segment of a sensor group ends; the next group follows, or the request is done. -/
def execThermalCalSegmentDone (s : State) : Out :=
  .next (
    match s.rep.thermal with
    | none => s
    | some (_, g :: rest, q) => { s with rep := { s.rep with thermal := some (g, rest, q) } }
    | some (_, [], q) => { s with rep := { s.rep with thermal := none } }.testRecord q stDone s.now)

end Sys2Proof.Machine
end

