-- ==== Sys2Proof/Machine/Hbm.lean ====
section
/-! DEFINITION. The memory controllers (R463 to R477), and what a read reports when it meets poison or a scratchpad ECC error (R223, R267, R466). -/

namespace Sys2Proof.Machine

/-! ### Address map (R463, R464) -/

/-- The bits that choose a pseudo-channel: 7, or 6 on two stacks. -/
def State.pcBits (s : State) : Nat := if s.fld R.GLB_CAPS F.GLB_CAPS_HBM_STACKS = 2 then 6 else 7

/-- The pseudo-channel (stack × 32 + pc) and the byte in it of an HBM address. -/
def State.hbmLoc (s : State) (a : Nat) : Nat × Nat :=
  let k := s.pcBits
  let u := a / 256
  ((u % 2 ^ k) ^^^ (u / 2 ^ k % 2 ^ k), u / 2 ^ k * 256 + a % 256)

/-- The HBM address of the 256-byte unit at a local offset of a pseudo-channel. -/
def State.hbmAddr (s : State) (g l : Nat) : Nat :=
  let k := s.pcBits
  (l * 2 ^ k + (g ^^^ (l % 2 ^ k))) * 256

/-- The row of an HBM address: pseudo-channel × 2,097,152 + row of 1 KiB. -/
def State.hbmRow (s : State) (a : Nat) : Nat := (s.hbmLoc a).1 * 2097152 + (s.hbmLoc a).2 / 1024

/-- The stack of an HBM address. -/
def State.hbmStack (s : State) (a : Nat) : Nat := (s.hbmLoc a).1 / 32

/-! ### Row retirement (R468 to R470) -/

/-- Requests the retirement of a row: nothing for one that is retired or held; with no free spare row SPARES_OUT and its event; otherwise the row is held and copied. -/
def State.retireRow (s : State) (row : Nat) : State :=
  if s.hbm.rows.contains row || s.hbm.held.contains row then s
  else
    let g := row / 2097152
    let used := ((s.hbm.rows ++ s.hbm.held).filter (fun x => x / 2097152 == g)).length
    if 128 ≤ used then (s.setFld R.HBM_STAT F.HBM_STAT_SPARES_OUT 1).event 7 (g / 32) (BitVec.ofNat 64 (g % 32)) 0
    else { s with hbm := { s.hbm with held := s.hbm.held ++ [row] } }

/-- The address of the first byte of a row. -/
def State.rowAddr (s : State) (row : Nat) : Nat := s.hbmAddr (row / 2097152) (row % 2097152 * 4)

/-- HBM_ROW_RETIRE_DONE (R469, R471): the oldest held row is copied and remapped; it is counted, reported and recorded in the fuses. -/
def execHbmRowRetireDone (s : State) : Out :=
  .next (
    match s.hbm.held with
    | [] => s
    | row :: rest =>
      let g := row / 2097152
      let s1 := { s with hbm := { s.hbm with held := rest, rows := s.hbm.rows ++ [row] } }
      let s2 := (s1.setFld R.HBM_STAT F.HBM_STAT_RETIRED 1).wrapAdd (R.HBM_STACK_STAT (g / 32)) F.HBM_STACK_STAT_RETIRED 1
      (s2.event 6 (g / 32) (BitVec.ofNat 64 (s.rowAddr row)) 0).burn (rowRec (g / 32) (g % 32) (row % 2097152)))

/-- HBM_RETIRE_REQ: a 64-bit write from host software or the management processor (R468, R475). -/
def State.retireReq (s : State) (r : Req) (h : Half) (v : Word) : State :=
  if !(isHost r || r == .mgt) || !s.hears r R.HBM_RETIRE_REQ then s
  else if h ≠ .full then s.partialWrite r
  else
    let a := F.HBM_RETIRE_REQ_ADDR.get v
    if a < s.hbmBytes then s.retireRow (s.hbmRow a) else s

/-- HBM_RETIRE_REQ_WRITE (R468). -/
def execHbmRetireReqWrite (r : Req) (h : Half) (v : Word) (s : State) : Out := .next (s.retireReq r h v)

/-! ### Errors of a read (R466, R468) -/

/-- Reports the uncorrectable codewords of one read, in order: each counts, the first one's address is latched, and their rows are retired. -/
def State.hbmUncorr (s : State) (us : List Nat) : State :=
  match us with
  | [] => s
  | u :: _ =>
    let s1 := us.foldl (fun t x => t.satAdd (R.HBM_STACK_ECC (t.hbmStack x)) F.HBM_STACK_ECC_UNCORR 1) s
    let s2 := (s1.withCause 7 (fun t => t.setFld R.HBM_STAT F.HBM_STAT_UNCORR 1)).setFld R.HBM_ERR_ADDR F.HBM_ERR_ADDR_ADDR u
    us.foldl (fun t x => t.retireRow (t.hbmRow x)) (s2.event 5 (s2.hbmStack u) (BitVec.ofNat 64 u) 0)

/-- Counts a corrected codeword; RETIRE_THRESH of them in a row within a scrub pass retire it. -/
def State.hbmCorr (s : State) (u : Nat) : State :=
  let row := s.hbmRow u
  let n := Store.get (fun _ => 0) s.hbm.corr row + 1
  let s1 := (s.satAdd (R.HBM_STACK_ECC (s.hbmStack u)) F.HBM_STACK_ECC_CORR 1)
  let s2 := { s1 with hbm := { s1.hbm with corr := Store.set (fun _ => 0) s1.hbm.corr row n } }
  if max 1 (s.fld R.HBM_RETRAIN_CTL F.HBM_RETRAIN_CTL_RETIRE_THRESH) ≤ n then s2.retireRow row else s2

/-- The poisoned 32-byte units that n bytes at an HBM address touch. -/
def State.poisonIn (s : State) (a n : Nat) : List Nat := s.poison.filter (fun u => decide (u < a + n ∧ a < u + 32))

/-- HBM_ACCESS (R465, R466): an access completes at the controller. A read corrects what the code can and marks poisoned what it cannot; a write of whole codewords removes their poison. An address that is not mapped reads zero or discards the write (R36). -/
def execHbmAccess (acc : HbmAccess) (s : State) : Out :=
  .next (
    match acc with
    | .read addr len errs =>
      let a := addr.toNat
      let n := min 256 len.toNat
      if s.hbmBytes < a + n then s.emit (.memData .other a (List.replicate n 0) false)
      else
        let hits := errs.filter (fun e => decide (e.1.toNat / 32 * 32 < a + n ∧ a < e.1.toNat / 32 * 32 + 32))
        let s1 := (hits.filter (fun e => e.2)).foldl (fun t e => t.addPoison (e.1.toNat / 32 * 32) 32) s
        let fixed := (hits.filter (fun e => !e.2 && !s1.poisoned e.1.toNat 1)).map (fun e => e.1.toNat / 32 * 32)
        let s2 := fixed.foldl (fun t u => t.hbmCorr u) s1
        let bad := s2.poisonIn a n
        (s2.hbmUncorr bad).emit (.memData .other a (s.rdBytes a n) (!bad.isEmpty))
    | .write addr bytes =>
      let a := addr.toNat
      if 256 < bytes.length ∨ s.hbmBytes < a + bytes.length then s
      else (s.wrBytes a bytes).unpoison a bytes.length)

/-- The units that one pseudo-channel maps: 1.125 GiB in units of 256 bytes. -/
def pcUnits : Nat := 4718592

/-- HBM_PATROL_SCRUB (R467): a pseudo-channel's scrubber reads its next unit. When every pseudo-channel has finished a pass, PASSES counts it and the rows' counts of corrected reads start again. -/
def execHbmPatrolScrub (pc : Fin 128) (s : State) : Out :=
  .next (
    let g := pc.val
    if 2 ^ s.pcBits ≤ g then s
    else
      let i := Store.get (fun _ => 0) s.hbm.scrub g
      let a := s.hbmAddr g i
      let s1 := s.hbmUncorr (s.poisonIn a 256)
      let j := if i + 1 = pcUnits then 0 else i + 1
      let s2 := { s1 with hbm := { s1.hbm with scrub := Store.set (fun _ => 0) s1.hbm.scrub g j } }
      if j ≠ 0 then s2
      else
        let ps := if s2.hbm.passed.contains g then s2.hbm.passed else s2.hbm.passed ++ [g]
        if 2 ^ s.pcBits ≤ ps.length then
          { s2 with hbm := { s2.hbm with passed := [], corr := [] } }.wrapAdd R.HBM_SCRUB F.HBM_SCRUB_PASSES 1
        else { s2 with hbm := { s2.hbm with passed := ps } })

/-! ### Retraining (R472, R473) -/

/-- Starts the retrain of a channel (stack × 16 + channel). -/
def State.startRetrain (s : State) (ch : Nat) : State :=
  let s1 := (s.setFld R.HBM_STAT F.HBM_STAT_RETRAINING 1).setFld R.HBM_STAT F.HBM_STAT_CHANNEL ch
  { s1 with hbm := { s1.hbm with retrain := some ch } }

/-- Requests the automatic retrain of a channel: one channel is retrained at a time. -/
def State.autoRetrain (s : State) (ch : Nat) : State :=
  if s.hbm.retrain = some ch ∨ s.hbm.retrainq.contains ch then s
  else if s.hbm.retrain.isNone then s.startRetrain ch
  else { s with hbm := { s.hbm with retrainq := s.hbm.retrainq ++ [ch] } }

/-- Whether a channel is present. -/
def State.hbmChannel (s : State) (ch : Nat) : Bool := decide (ch < s.fld R.GLB_CAPS F.GLB_CAPS_HBM_STACKS * 16)

/-- A write of HBM_RETRAIN_CTL: its fields, and with REQ = 1 the retrain of channel CH, ignored while one is in progress (R476). -/
def State.retrainWrite (s : State) (r : Req) (h : Half) (v : Word) : State :=
  s.guardW r R.HBM_RETRAIN_CTL (fun s =>
    let s1 := s.writeFields R.HBM_RETRAIN_CTL h v
    let ch := s1.fld R.HBM_RETRAIN_CTL F.HBM_RETRAIN_CTL_CH
    if h ≠ .high ∧ F.HBM_RETRAIN_CTL_REQ.get v = 1 ∧ s1.hbm.retrain.isNone ∧ s1.hbmChannel ch then s1.startRetrain ch else s1)

/-- HBM_RETRAIN_REQ (R472). -/
def execHbmRetrainReq (r : Req) (h : Half) (v : Word) (s : State) : Out := .next (s.retrainWrite r h v)

/-- HBM_LINK_ERROR (R472): a parity error on a channel; with AUTO, LINK_THRESH of them within 1 ms retrain it. -/
def execHbmLinkError (ch : Fin 64) (s : State) : Out :=
  .next (
    if !s.hbmChannel ch.val then s
    else
      let s1 := s.satAdd (R.HBM_STACK_ECC (ch.val / 16)) F.HBM_STACK_ECC_LINK_ERR 1
      let l := (Store.get (fun _ => ([] : List Nat)) s.hbm.link ch.val).filter (fun t => decide (s.time.ticks < t + 250000)) ++ [s.time.ticks]
      if s.bit R.HBM_RETRAIN_CTL F.HBM_RETRAIN_CTL_AUTO ∧ s.fld R.HBM_RETRAIN_CTL F.HBM_RETRAIN_CTL_LINK_THRESH ≤ l.length then
        { s1 with hbm := { s1.hbm with link := Store.set (fun _ => ([] : List Nat)) s1.hbm.link ch.val [] } }.autoRetrain ch.val
      else { s1 with hbm := { s1.hbm with link := Store.set (fun _ => ([] : List Nat)) s1.hbm.link ch.val l } })

/-- The refresh code of a stack temperature (R473). -/
def refreshOf (t : Int) : Nat := if t ≤ 85 then 0 else if t ≤ 95 then 1 else 2

/-- A temperature reading of one stack; with AUTO each of its channels whose temperature has moved by TEMP_DELTA since its training is retrained. -/
def State.stackTemp (s : State) (k : Nat) (t : Int) : State :=
  let s1 := (s.setFld (R.HBM_STACK_STAT k) F.HBM_STACK_STAT_TEMP (toTwos 8 t)).setFld (R.HBM_STACK_STAT k) F.HBM_STACK_STAT_REFRESH (refreshOf t)
  (List.range 16).foldl (fun u c =>
    let ch := k * 16 + c
    match Store.get (fun _ => none) u.hbm.trainTemp ch with
    | none => { u with hbm := { u.hbm with trainTemp := Store.set (fun _ => none) u.hbm.trainTemp ch (some t) } }
    | some t0 =>
      if u.bit R.HBM_RETRAIN_CTL F.HBM_RETRAIN_CTL_AUTO ∧ u.fld R.HBM_RETRAIN_CTL F.HBM_RETRAIN_CTL_TEMP_DELTA ≤ (t - t0).natAbs then u.autoRetrain ch else u) s1

/-- HBM_TEMP_READ (R473): the temperatures of the stacks present, in their order. HOT follows the 105 °C limit. -/
def execHbmTempRead (temps : List (BitVec 8)) (s : State) : Out :=
  .next (
    let n := s.fld R.GLB_CAPS F.GLB_CAPS_HBM_STACKS
    let ts := temps.take n
    let s1 := (List.range ts.length).foldl (fun t k => t.stackTemp k ((ts.getD k 0).toInt)) s
    s1.setBit R.HBM_STAT F.HBM_STAT_HOT (ts.any (fun x => decide (105 < x.toInt))))

/-- HBM_RETRAIN_DONE (R472): the retrain in progress ends, and the next one that waits starts. -/
def execHbmRetrainDone (s : State) : Out :=
  .next (
    match s.hbm.retrain with
    | none => s
    | some ch =>
      let k := ch / 16
      let s1 := s.wrapAdd (R.HBM_STACK_STAT k) F.HBM_STACK_STAT_RETRAINS 1
      let t := signExt 8 (s.fld (R.HBM_STACK_STAT k) F.HBM_STACK_STAT_TEMP)
      let s2 := { s1 with hbm := { s1.hbm with retrain := none, trainTemp := Store.set (fun _ => none) s1.hbm.trainTemp ch (some t) } }.setFld
        R.HBM_STAT F.HBM_STAT_RETRAINING 0
      match s2.hbm.retrainq with
      | [] => s2
      | c :: rest => { s2 with hbm := { s2.hbm with retrainq := rest } }.startRetrain c)

/-! ### Scratchpad errors of a read (R267) -/

/-- The bank that holds a place of the scratchpad. -/
def bankOfKey (k : Nat) : Nat :=
  if k < 0x100040000000 then (k - 0x100000000000) / 0x4000000 * 64 + (k - 0x100000000000) % 0x4000000 / 0x80000
  else 1024 + (k - 0x100040000000) / 0x80000

/-- Sets the error of a scratchpad word. -/
def State.setEcc (s : State) (w e : Nat) : State := { s with spd := { s.spd with ecc := Store.set (fun _ => 0) s.spd.ecc w e } }

/-- A corrected read of a word: counted for the bank, and for a core that reads its own bank; the column counts, and the word waits for its write-back. -/
def State.eccCorr (s : State) (core : Option Nat) (w e : Nat) : State :=
  let b := bankOfKey w
  let s1 := s.satAdd (R.SPD_BANK_STAT b) F.SPD_BANK_STAT_ECC_CORR 1
  let s2 := match core with
    | some n => s1.satAdd (R.CORE_CNT n) F.CORE_CNT_ECC_CORR 1
    | none => s1
  let s3 := if s2.spd.wb.contains w then s2 else { s2 with spd := { s2.spd with wb := s2.spd.wb ++ [w] } }
  s3.columnHit b ((e - 1) / 2)

/-- An uncorrectable read of a word: counted, flagged with the SPD interrupt, and reported. -/
def State.eccUncorr (s : State) (w e : Nat) : State :=
  let b := bankOfKey w
  let s1 := s.satAdd (R.SPD_BANK_STAT b) F.SPD_BANK_STAT_ECC_UNCORR 1
  let s2 := (s1.withCause 3 (fun t => t.setFld R.SPD_STAT F.SPD_STAT_UNCORR 1)).setFld R.SPD_STAT F.SPD_STAT_LAST_UNCORR_BANK b
  (s2.event 3 b (BitVec.ofNat 64 w) 0).columnHit b ((e - 1) / 2)

/-- Reports the error of one word that a read met. -/
def State.eccRead (s : State) (core : Option Nat) (w : Nat) : State :=
  let e := Store.get (fun _ => 0) s.spd.ecc w
  if e = 0 then s else if e % 2 = 1 then s.eccCorr core w e else s.eccUncorr w e

/-- What a served read of n bytes at a reports: the poison of HBM units and the errors of scratchpad words that it touches. -/
def State.noteRead (s : State) (g : Agent) (a n : Nat) : State :=
  if s.spd.ecc = [] ∧ s.poison = [] then s
  else
    match s.place a with
    | .hbm x => s.hbmUncorr (s.poisonIn x n)
    | .spd _ _ =>
      let keys := (List.range n).filterMap (fun i => match s.hit g false (a + i) with
        | .ok k => some (k / 8 * 8)
        | _ => none)
      let ws := (s.spd.ecc.map (fun p => p.1)).filter (fun w => keys.contains w)
      ws.foldl (fun t w => t.eccRead (if g.code < 16 then some g.code else none) w) s
    | _ => s

end Sys2Proof.Machine
end

