-- ==== Sys2Proof/Machine/Pennant.lean ====
section
/-! DEFINITION. Pennants: frames, runs, reports and coverage (R529 to R532). -/

namespace Sys2Proof.Machine

/-- The base of the two library slots in HBM (R554). -/
def State.penSlots (s : State) : Nat := s.tableBase - 0x1000000

/-- The address of library slot 1 or 2. -/
def State.penSlot (s : State) (k : Nat) : Nat := s.penSlots + (k - 1) * 0x800000

/-- The slot that an installation fills: the one not in use. -/
def State.penInactive (s : State) : Nat := if s.rep.slot = 1 then 2 else 1

/-- The expected CRC of a pattern on an engine kind, of the library in use; slot 0 is the ROM library (R531). -/
def State.penCrc (s : State) (pattern eng : Nat) : BitVec 32 :=
  if s.rep.slot = 0 then Config.romPennantCrc (pattern * 3 + eng) else Store.get (fun _ => 0) s.plumb.crcs (pattern * 3 + eng)

/-- The step count of a pattern, S_pen (R530, R553). -/
def State.penSteps (s : State) (pattern : Nat) : Nat :=
  if s.rep.slot = 0 then (Config.romPennantSteps pattern).toNat else s.rdN (s.penSlot s.rep.slot + 64 + pattern * 32 + 16) 4

def State.penCov (s : State) (p e : Nat) : PenCov := Store.get (fun _ => ({} : PenCov)) s.plumb.cov (p * 3 + e)
def State.setPenCov (s : State) (p e : Nat) (x : PenCov) : State :=
  { s with plumb := { s.plumb with cov := Store.set (fun _ => ({} : PenCov)) s.plumb.cov (p * 3 + e) x } }

/-- The engines in use (R529): of each active logical core that a canton owns, as physical core and engine. -/
def State.penEngines (s : State) : List (Nat × Nat) :=
  ((List.range 16).filter (fun n => s.coreActive n && (s.cantonOfCore n).isSome)).flatMap (fun n => [(s.physOf n, 0), (s.physOf n, 1), (s.physOf n, 2)])

/-- The patterns that an engine has not run in the window (R532). -/
def PenCov.missing (x : PenCov) : Nat := ((List.range 64).filter (fun i => !x.ran.getLsbD i)).length

/-- Whether an engine runs a pattern, has a report of it under way, or has run it. -/
def State.penStarted (s : State) (p e pattern : Nat) : Bool :=
  (s.penCov p e).ran.getLsbD pattern ||
  s.plumb.runs.any (fun r => r.core == p && r.eng == e && r.pattern == pattern) ||
  s.plumb.reports.any (fun r => r.phys == p && r.eng == e && r.pattern == pattern)

/-- The engine with the most missing patterns, with them (R536). -/
def worstCov (l : List (Nat × Nat × Nat)) : Nat × Nat × Nat :=
  l.foldl (fun a x => if a.1 < x.1 then x else a) (0, 0, 0)

/-- The canton of the core that a physical core serves. -/
def State.cantonOfPhys (s : State) (p : Nat) : Option Nat :=
  match s.logicalOf p with
  | some n => s.cantonOfCore n
  | none => none

/-- PENNANT_FRAME_BOUNDARY (R529, R530, R532): the next pennant frame begins. Patterns of the last frame that did not start are deferred; at a window boundary a missed window counts, the coverage starts anew and a newly installed library takes over; then coverage is judged. -/
def execPennantFrameBoundary (s : State) : Out :=
  .next (
    if s.penPeriod = 0 then s
    else
      let p := s.nowNs / s.penPeriod
      if (match s.plumb.boundary with
          | some b => decide (p ≤ b)
          | none => false) then s
      else
        let engs := s.penEngines
        let used (t : State) : List (Nat × Nat) := engs.filter (fun e => (t.penCov e.1 e.2).inUse)
        let late := if s.plumb.boundary.isSome then ((used s).filter (fun e => !s.penStarted e.1 e.2 ((p - 1) % 64))).length else 0
        let s1 := (s.satAdd R.PLB_PENNANT F.PLB_PENNANT_DEFERRED late)
        let s2 := { s1 with plumb := { s1.plumb with boundary := some p, extra := [] } }.setFld R.PLB_COVERAGE F.PLB_COVERAGE_WINDOW (p / 64)
        let s3 := if p % 64 ≠ 0 then s2
          else
            let t1 := if (used s2).any (fun e => 0 < (s2.penCov e.1 e.2).missing) then s2.satAdd R.PLB_COVERAGE F.PLB_COVERAGE_WINDOWS_MISSED 1 else s2
            let t2 := match t1.plumb.nextCrcs with
              | some l => { t1 with plumb := { t1.plumb with crcs := l, nextCrcs := none }, rep := { t1.rep with slot := t1.penInactive } }
              | none => t1
            engs.foldl (fun t e => t.setPenCov e.1 e.2 { ran := 0, inUse := true }) { t2 with plumb := { t2.plumb with cov := [] } }
        let r := 64 - p % 64
        let ms := (used s3).map (fun e => ((s3.penCov e.1 e.2).missing, e.1, e.2))
        let w := worstCov ms
        let s4 := ((s3.setFld R.PLB_COVERAGE F.PLB_COVERAGE_WORST_MISSING w.1).setFld R.PLB_COVERAGE F.PLB_COVERAGE_PHYS_CORE w.2.1).setFld
          R.PLB_COVERAGE F.PLB_COVERAGE_ENGINE w.2.2
        let bad := ms.filter (fun m => decide (4 * r < m.1))
        let s5 := match bad with
          | [] => s4
          | _ :: _ => if s4.bit R.PLB_STAT F.PLB_STAT_COVERAGE_LATE then s4 else s4.event 16 w.2.1 (BitVec.ofNat 64 (w.1 + r * 2 ^ 32)) 0
        let s6 := s5.setBit R.PLB_STAT F.PLB_STAT_COVERAGE_LATE (!bad.isEmpty)
        if s6.bit R.PLB_CFG F.PLB_CFG_COV_INVALIDATES then
          let cs := bad.filterMap (fun m => s6.cantonOfPhys m.2.1)
          s6.disagreeAll pcCoverage (fun f => cs.any (fun c => s6.plDeps f c))
        else s6)

/-- The engine codes of R536. -/
def penEngCode : PenEngine → Nat
  | .matA => 0
  | .matB => 1
  | .vec => 2

/-- The pattern that an engine may run in frame p: that of the frame, or else its lowest pattern deferred in the window, at most 4 in a frame (R530). -/
def State.penPick (s : State) (ph e p : Nat) : Option (Nat × Bool) :=
  if !s.penStarted ph e (p % 64) then some (p % 64, false)
  else if 4 ≤ Store.get (fun _ => 0) s.plumb.extra (ph * 3 + e) then none
  else ((List.range (p % 64)).find? (fun i => !s.penStarted ph e i)).map (fun i => (i, true))

/-- Whether a core may take a pennant now (R530): idle or already running one, or at a yield point of BE work with no LC command of its canton waiting. -/
def State.penCoreReady (s : State) (n c : Nat) : Bool :=
  match (s.core n).running with
  | none => !s.swapHolds n && (s.fld (R.CORE_STATUS n) F.CORE_STATUS_STATE == 1 || s.plumb.runs.any (fun r => r.core == s.physOf n))
  | some q => (s.core n).yieldOffered && !s.qLC q && !s.lcWaits c

/-- PENNANT_RUN_START (R530): an engine of a core starts a pattern, if the core is ready and the run ends before the slack does. -/
def execPennantRunStart (phys : Fin 18) (e : PenEngine) (s : State) : Out :=
  .next (
    let k := penEngCode e
    match s.plumb.boundary, s.logicalOf phys.val with
    | some p, some n =>
      match s.cantonOfCore n with
      | none => s
      | some c =>
        match s.penPick phys.val k p with
        | none => s
        | some (pat, extra) =>
          if s.penCoreReady n c && s.slackOk (some c) (floorNs (s.penSteps pat) + 2000) &&
              !s.plumb.runs.any (fun r => r.core == phys.val && r.eng == k) then
            let x := Store.get (fun _ => 0) s.plumb.extra (phys.val * 3 + k)
            let s1 := { s with plumb := { s.plumb with
              runs := s.plumb.runs ++ [{ core := phys.val, eng := k, pattern := pat, frame := p }]
              extra := if extra then Store.set (fun _ => 0) s.plumb.extra (phys.val * 3 + k) (x + 1) else s.plumb.extra } }
            if (s.core n).running.isNone then s1.setFld (R.CORE_STATUS n) F.CORE_STATUS_STATE 2 else s1
          else s
    | _, _ => s)

/-- The three words of a pennant report (R515). -/
def penReportWords (r : PenRun) (crc : BitVec 32) : List Word :=
  let h : Word := BitVec.ofNat 64 (2 ^ 62 + r.pattern * 2 ^ 48 + r.core * 2 ^ 43 + r.eng * 2 ^ 41 + r.frame % 65536)
  let w : Word := crc.setWidth 64
  [h, w, (crc32 (wordBytes h ++ wordBytes w)).setWidth 64]

/-- PENNANT_RUN_DONE (R531): an engine's run ends with the CRC-32 of its result bytes; the transfer engine writes the report to the core's inbox. -/
def execPennantRunDone (phys : Fin 18) (e : PenEngine) (crc : BitVec 32) (s : State) : Out :=
  .next (
    match s.plumb.runs.find? (fun r => r.core == phys.val && r.eng == penEngCode e), s.logicalOf phys.val with
    | some r, some n =>
      let s1 := { s with plumb := { s.plumb with runs := s.plumb.runs.erase r } }
      let s2 := if (s1.core n).running.isNone ∧ !s1.plumb.runs.any (fun x => x.core == phys.val) ∧ s1.fld (R.CORE_STATUS n) F.CORE_STATUS_STATE = 2 then
          s1.setFld (R.CORE_STATUS n) F.CORE_STATUS_STATE 1
        else s1
      (penReportWords r crc).foldl (fun t w => t.inboxPush n w) s2
    | _, _ => s)

/-- PENNANT_REPORT_JUDGE (R531): the oldest report is compared with the expected CRC. The pattern counts as run; a mismatch is a PENNANT disagreement of the registrations that hold the core's canton, an event, and a detection of the physical core. -/
def execPennantReportJudge (s : State) : Out :=
  .next (
    match s.plumb.reports with
    | [] => s
    | r :: rest =>
      let s1 := { s with plumb := { s.plumb with reports := rest } }.wrapAdd R.PLB_PENNANT F.PLB_PENNANT_RUNS 1
      let x := s1.penCov r.phys r.eng
      let s2 := if (s1.plumb.boundary.getD 0) / 64 = r.frame / 64 ∧ r.pattern < 64 then
          s1.setPenCov r.phys r.eng { x with ran := x.ran ||| BitVec.ofNat 64 (2 ^ r.pattern) }
        else s1
      if r.crc = s2.penCrc r.pattern r.eng then s2
      else
        let s3 := s2.satAdd R.PLB_PENNANT F.PLB_PENNANT_MISMATCHES 1
        let s4 := match s3.cantonOfPhys r.phys with
          | some c => s3.disagreeAll pcPennant (fun f => s3.plDeps f c)
          | none => s3
        (s4.event 2 r.phys (BitVec.ofNat 64 (r.pattern + r.eng * 256)) 0).detection r.phys 1 (r.eng + 1))

end Sys2Proof.Machine
end

