-- ==== Sys2Proof/Machine/Library.lean ====
section
/-! DEFINITION. Pennant libraries: their image, its checks and its installation (R553 to R555, R620). -/

namespace Sys2Proof.Machine

/-- The entry of a pattern in a library image (R553): image offset, bundle count, data offset, data length, S_PEN. -/
def penEntry (l : List Byte) (p i : Nat) : Nat := sliceN l (64 + 32 * p + 4 * i) 4

/-- Whether a library image breaks its format (R553): magic, reserved bytes, length, a pattern outside the image, S_PEN above 65,536. -/
def penFormatBad (l : List Byte) (avail : Nat) : Bool :=
  let len := sliceN l 16 8
  let sig := sliceN l 8 1
  sliceN l 0 4 != 0x504E4E54 || !zerosAt l 9 7 || !zerosAt l 24 40 || !(decide (sig < 4) || sig == 0xFF) ||
  decide (0x800000 < len ∨ avail < len ∨ len < 9336) || !zerosAt l (len - 5) 5 ||
  (List.range 64).any (fun p =>
    decide (65536 < penEntry l p 4 ∨ len < penEntry l p 0 + 32 * penEntry l p 1 ∨ len < penEntry l p 2 + penEntry l p 3))

/-- The status of the checks of an image (R555): format, key, signature, version. -/
def State.penCheck (s : State) (l : List Byte) (avail : Nat) (older : Bool) : BitVec 8 :=
  let len := sliceN l 16 8
  let signer := sliceN l 8 1
  if penFormatBad l avail then stRejected
  else
    let key := bytesAt l (len - 7224) 2592
    let sig := bytesAt l (len - 4632) 4627
    if !(if signer = 0xFF then key == Config.vendorKey else s.slotHolds signer key) then stAuthFail
    else if !sigOk key "pennant" (sha3_512 (l.take (len - 7224))) sig then stAuthFail
    else if sliceN l 4 4 ≤ s.fld R.FLT_PEN_STAT F.FLT_PEN_STAT_VERSION ∧ older = false then stRejected
    else stDone

/-- Sets LAST_STATUS of FLT_PEN_STAT. -/
def State.penStatus (s : State) (st : BitVec 8) : State := s.setFld R.FLT_PEN_STAT F.FLT_PEN_STAT_LAST_STATUS st.toNat

/-- Installs an image (R555): a failed check ends it at once; else it is copied to the inactive slot, and the installation goes on. req names the halyard request that asked for it as SEQ + 1, 0 for none. -/
def State.penInstall (s : State) (l : List Byte) (avail : Nat) (older : Bool) (req : Nat) : State × BitVec 8 :=
  let st := s.penCheck l avail older
  if st ≠ stDone then (s.penStatus st, st)
  else
    let len := sliceN l 16 8
    let s1 := (s.wrBytes (s.penSlot s.penInactive) (l.take len)).setFld R.FLT_PEN_STAT F.FLT_PEN_STAT_BUSY 1
    ({ s1 with rep := { s1.rep with install := some (sliceN l 4 4, sliceN l 8 1, req) } }, stDone)

/-- Whether a key operation is in progress (R620): PROVISION, REVOKE or FLEET_SEED. -/
def State.keyBusy (s : State) : Bool :=
  match s.sec.op with
  | some o => decide (o.op ≤ 3)
  | none => false

/-- FLT_PEN_CMD.INSTALL (R555): the image at FLT_PEN_STAGE is installed; it waits for a key operation (R620), and is ignored while an installation is in progress. -/
def State.penCmd (s : State) (older : Bool) : State :=
  if s.bit R.FLT_PEN_STAT F.FLT_PEN_STAT_BUSY then s
  else if s.keyBusy then { s with sec := { s.sec with waiting := s.sec.waiting ++ [.install older] } }
  else
    let a := s.fld R.FLT_PEN_STAGE F.FLT_PEN_STAGE_ADDR * 4096
    let len := min 0x800000 (sliceN (s.rdBytes (a + 16) 8) 0 8)
    (s.penInstall (s.rdBytes a len) len older 0).1

/-- A write of FLT_PEN_CMD. -/
def State.writePenCmd (s : State) (r : Req) (older : Bool) : State := s.guardW r R.FLT_PEN_CMD (fun s => s.penCmd older)

/-- FLT_PEN_INSTALL (R555). -/
def execFltPenInstall (r : Req) (allowOlder : Bool) (s : State) : Out := .next (s.writePenCmd r allowOlder)

/-- The expected CRCs of the library in a slot (R531, R553): pattern × 3 + engine. -/
def State.penTable (s : State) (base : Nat) : List (Nat × BitVec 32) :=
  (List.range 192).foldl (fun (m : List (Nat × BitVec 32)) i =>
    Store.set (fun _ => 0) m i (BitVec.ofNat 32 (s.rdN (base + 64 + 32 * (i / 3) + 20 + 4 * (i % 3)) 4))) []

/-- The end of an installation (R555): Plumb has the CRCs, which take effect at the next window boundary, and the event is sent. It answers the halyard request, if any, as SEQ + 1. -/
def State.penInstalled (s : State) : State × Nat :=
  match s.rep.install with
  | none => (s, 0)
  | some (ver, signer, req) =>
    let s1 := { s with rep := { s.rep with install := none }, plumb := { s.plumb with nextCrcs := some (s.penTable (s.penSlot s.penInactive)) } }
    let s2 := ((s1.penStatus stDone).setFld R.FLT_PEN_STAT F.FLT_PEN_STAT_VERSION ver).setFld R.FLT_PEN_STAT F.FLT_PEN_STAT_SIGNER signer
    ((s2.setFld R.FLT_PEN_STAT F.FLT_PEN_STAT_BUSY 0).event 12 signer (BitVec.ofNat 64 ver) 0, req)

end Sys2Proof.Machine
end

