-- ==== Sys2Proof/Machine/Fab.lean ====
section
/-! DEFINITION. FAB_CMD (R78, R90, R94 to R96): the start of STAGE and of COMMIT, and DISCARD. -/

namespace Sys2Proof.Machine

def State.fabState (s : State) : Nat := s.fld R.FAB_STATUS F.FAB_STATUS_STATE
def State.setFab (s : State) (x : Nat) : State := s.setFld R.FAB_STATUS F.FAB_STATUS_STATE x
def State.bootStage (s : State) : Nat := s.fld R.SEC_BOOT_STAT F.SEC_BOOT_STAT_STAGE
def State.setBoot (s : State) (x : Nat) : State := s.setFld R.SEC_BOOT_STAT F.SEC_BOOT_STAT_STAGE x
def State.setTag (s : State) (tag : Nat) : State := s.setFld R.FAB_STATUS F.FAB_STATUS_TAG tag

/-- Reports the end of an operation in FAB_STATUS and raises the FAB cause (R96). -/
def State.fabReport (s : State) (check sect : Nat) : State :=
  (((s.setFld R.FAB_STATUS F.FAB_STATUS_LAST_STATUS (checkStatus check).toNat).setFld R.FAB_STATUS F.FAB_STATUS_CHECK check).setFld
    R.FAB_STATUS F.FAB_STATUS_SECTION sect).withCause 1 (fun s => s.setFld R.FAB_STATUS F.FAB_STATUS_DONE_EVT 1)

/-- An operation that the present STATE does not allow: the one in progress goes on (R90). -/
def State.fabRefuse (s : State) : State := s.fabReport ckCommandState 0

/-- The stream in the staged range. -/
def State.stagedBytes (s : State) : List Byte := match s.staged with
  | some o => s.rdBytes o.base o.len
  | none => []

/-- The sections of the staged stream. -/
def State.stagedSects (s : State) : List Sect := (sectsOf s.stagedBytes).1

/-- Whether a list of sections carries a type. -/
def carries (l : List Sect) (t : Nat) : Bool := l.any (fun x => x.type == t)

/-- Counts an attempt to boot from a stream (R614). -/
def State.attempt (s : State) : State := s.satAdd R.SEC_BOOT_STAT F.SEC_BOOT_STAT_ATTEMPTS 1

/-- STAGE (R78, R79, R612, R620): the loader takes the staged range and starts its checks; while FULL_LOAD holds it is the full load. It waits for a key operation. -/
def State.stageCmd (s : State) (tag : Nat) : State :=
  let boot := s.bootStage
  let full := s.fabState == 4
  if s.keyBusy then { s with sec := { s.sec with waiting := s.sec.waiting ++ [.stage tag] } }
  else if full && !(boot == 3 || (boot == 11 && s.fld R.SEC_BOOT_STAT F.SEC_BOOT_STAT_BOOT_SRC != 0)) then s.fabRefuse
  else if !full && !(s.fabState == 0 && boot == 7) then s.fabRefuse
  else
    let s1 := { s with staged := some ⟨s.fld R.FAB_STAGE_BASE F.FAB_STAGE_BASE_ADDR * 4096, s.fld R.FAB_STAGE_LEN F.FAB_STAGE_LEN_LEN⟩ }.setTag tag
    if full then (s1.setBoot 5).attempt else s1.setFab 1

/-- The rate groups of a canton. -/
def State.groupsOf (s : State) (c : Nat) : List Nat :=
  (List.range 8).filter (fun g => s.groupActive g && s.fld (R.CTL_GROUP_CFG g) F.CTL_GROUP_CFG_CANTON == c)

/-- Puts the rate groups of a canton into or out of a restream outage (R85). -/
def State.groupOutage (s : State) (c : Nat) (on : Bool) : State :=
  ((s.groupsOf c).foldl (fun (t : State) g => t.setGrp g { t.grp g with outage := on }) s).plRefresh

/-- COMMIT (R83): the drain of the canton starts; a stream with a CONTROL_GRAPH section takes its outputs down from here on (R85). -/
def State.commitCmd (s : State) (tag : Nat) : State :=
  if s.fabState ≠ 2 then s.fabRefuse
  else
    let s1 := (s.setFab 3).setTag tag
    let s2 := { s1 with fab := { s1.fab with phase := some .drain, since := s.nowNs, fail := none } }
    match s2.fab.canton with
    | some c => if carries s.stagedSects tyControlGraph then s2.groupOutage c true else s2
    | none => s2

/-- Releases the staged stream (R78, R79). -/
def State.unstage (s : State) : State :=
  ({ s with staged := none, fab := { s.fab with canton := none, phase := none } }.setFab 0).setDigest R.FAB_STAGED_DIGEST (List.replicate 64 0)

/-- DISCARD (R78, R90). -/
def State.discardCmd (s : State) (tag : Nat) : State :=
  if s.fabState = 3 ∨ s.fabState = 4 then s.fabRefuse else (s.unstage.setTag tag).fabReport 0 0

/-- A write of FAB_CMD (R9, R94): other values of OP are ignored. -/
def State.writeFabCmd (s : State) (r : Req) (op tag : Nat) : State :=
  s.guardW r R.FAB_CMD (fun s =>
    if op = 1 then s.stageCmd tag else if op = 2 then s.commitCmd tag else if op = 3 then s.discardCmd tag else s)

/-- FAB_STAGE (R78). -/
def execFabStage (r : Req) (tag : BitVec 16) (s : State) : Out := .next (s.writeFabCmd r 1 tag.toNat)

/-- FAB_COMMIT (R83). -/
def execFabCommit (r : Req) (tag : BitVec 16) (s : State) : Out := .next (s.writeFabCmd r 2 tag.toNat)

/-- FAB_DISCARD (R78). -/
def execFabDiscard (r : Req) (tag : BitVec 16) (s : State) : Out := .next (s.writeFabCmd r 3 tag.toNat)

end Sys2Proof.Machine
end

