-- ==== Sys2Proof/Machine/Chord.lean ====
section
/-! DEFINITION. The chord links: frames, sequence numbers, acknowledgement and replay, credits, routing, enumeration and chord time sync (R478 to R489). What a routed frame does at its destination stands with the unit it reaches. -/

namespace Sys2Proof.Machine

/-! ### Ports -/

def State.chdPort (s : State) (p : Nat) : ChdPort := Store.get (fun _ => ({} : ChdPort)) s.chd.ports p
def State.setChdPort (s : State) (p : Nat) (x : ChdPort) : State :=
  { s with chd := { s.chd with ports := Store.set (fun _ => ({} : ChdPort)) s.chd.ports p x } }

/-- The STATE of a port: 0 down, 1 training, 2 up. -/
def State.chdState (s : State) (p : Nat) : Nat := s.fld (R.CHD_PORT_STAT p) F.CHD_PORT_STAT_STATE
def State.chdUp (s : State) (p : Nat) : Bool := s.chdState p == 2
def State.chdRole (s : State) (p : Nat) : Nat := s.fld (R.CHD_PORT_CFG p) F.CHD_PORT_CFG_ROLE

/-- Whether a kind is routed: 0x4 to 0x9 (R482). -/
def chdRouted (k : BitVec 4) : Bool := decide (4 ≤ k.toNat ∧ k.toNat ≤ 9)

/-- The virtual channel of a routed kind: requests, responses, or maintenance traffic (R26, R482; log 33). -/
def chdVc (k : BitVec 4) : BitVec 2 := if k = 4 ∨ k = 6 then 0 else if k = 5 then 1 else 2

/-- A frame that this device originates. -/
def State.chdFrame (s : State) (kind dst addr : Nat) (payload : List Byte) : ChordFrame :=
  { kind := BitVec.ofNat 4 kind, vc := chdVc (BitVec.ofNat 4 kind), dst := BitVec.ofNat 6 dst, src := BitVec.ofNat 6 s.position,
    lseq := 0, tseq := 0, len := BitVec.ofNat 6 (payload.length / 8), poison := false, addr := BitVec.ofNat 41 addr, payload := payload }

/-- Sends a link-local frame: it takes no LSEQ and no credit, and is not replayed (R482). -/
def State.chdLocal (s : State) (p : Nat) (f : ChordFrame) : State := if s.chdUp p then s.emit (.chord p f) else s

/-- Sends the waiting frames that the credits of their channels and the replay buffer admit, in order within each channel; skip names the channels that are out (R484, R485). -/
def State.chdPump (s : State) (p : Nat) (skip : List Nat) : List ChordFrame → State
  | [] => s
  | f :: r =>
    let x := s.chdPort p
    let v := f.vc.toNat
    if skip.contains v ∨ x.credits.getD v 0 = 0 ∨ 256 ≤ x.unacked.length then
      let t := s.chdPump p (v :: skip) r
      t.setChdPort p { t.chdPort p with waiting := f :: (t.chdPort p).waiting }
    else
      let g := { f with lseq := BitVec.ofNat 12 x.txSeq }
      let adv := if x.unacked = [] then s.time.ticks else x.advTick
      let x1 := { x with txSeq := (x.txSeq + 1) % 4096, unacked := x.unacked ++ [g], credits := x.credits.modify v (· - 1), advTick := adv }
      ((s.setChdPort p x1).emit (.chord p g)).chdPump p skip r

/-- Sends what waits on a port that is up. -/
def State.chdFlush (s : State) (p : Nat) : State :=
  if s.chdUp p then
    let w := (s.chdPort p).waiting
    (s.setChdPort p { s.chdPort p with waiting := [] }).chdPump p [] w
  else s

/-- Sends a routed frame on a port: it waits while the link trains or has no credit, and is dropped while the link is down (log 34). -/
def State.chdSendOn (s : State) (p : Nat) (f : ChordFrame) : State :=
  if s.chdState p = 0 then s
  else (s.setChdPort p { s.chdPort p with waiting := (s.chdPort p).waiting ++ [f] }).chdFlush p

/-! ### Routing (R480) -/

/-- The port towards a position: the down port whose range holds it, else the up port of a worker. -/
def State.chdRoute (s : State) (d : Nat) : Option Nat :=
  match (List.range 4).find? (fun p => s.chdRole p == 2 &&
      decide (s.fld (R.CHD_PORT_CFG p) F.CHD_PORT_CFG_SUB_LO ≤ d ∧ d ≤ s.fld (R.CHD_PORT_CFG p) F.CHD_PORT_CFG_SUB_HI)) with
  | some p => some p
  | none => (List.range 4).find? (fun p => s.chdRole p == 1)

/-- Sends a routed frame towards its destination; without a route it is lost. -/
def State.chdSend (s : State) (f : ChordFrame) : State :=
  match s.chdRoute f.dst.toNat with
  | some p => s.chdSendOn p f
  | none => s

/-! ### Receiving (R484, R485) -/

/-- The LSEQ of the last frame received good. -/
def ChdPort.lastGood (x : ChdPort) : Nat := (x.rxSeq + 4095) % 4096

/-- Discards a frame and sends NAK (R484). -/
def State.chdNak (s : State) (p : Nat) : State := s.chdLocal p (s.chdFrame 1 0 (s.chdPort p).lastGood [])

/-- Takes a routed frame that arrived good: in order it uses up its LSEQ, its buffer is freed, and it is forwarded or has its effect here; out of order it is discarded with a NAK. -/
def State.chdTake (s : State) (p kind : Nat) (f : ChordFrame) (local' : State → State) : State :=
  if !s.chdUp p ∨ f.kind.toNat ≠ kind then s
  else
    let x := s.chdPort p
    if f.lseq.toNat ≠ x.rxSeq then s.chdNak p
    else
      let s1 := s.setChdPort p { x with rxSeq := (x.rxSeq + 1) % 4096, rxCount := x.rxCount + 1, freed := x.freed.modify f.vc.toNat (· + 1) }
      if s.ownPosition = some f.dst.toNat then local' s1 else s1.chdSend f

/-- The frames after the one an acknowledgement names; all of them when it names none of them. -/
def afterLseq (n : Nat) (l : List ChordFrame) : List ChordFrame :=
  if l.any (fun f => f.lseq.toNat == n) then (l.dropWhile (fun f => f.lseq.toNat != n)).drop 1 else l

/-- Releases acknowledged frames from the replay buffer (R484). -/
def State.chdRelease (s : State) (p n : Nat) : State :=
  let x := s.chdPort p
  let l := afterLseq n x.unacked
  if l.length = x.unacked.length then s else s.setChdPort p { x with unacked := l, advTick := s.time.ticks }

/-- Sends the unacknowledged frames again, in order (R484). -/
def State.chdReplay (s : State) (p : Nat) : State :=
  let l := (s.chdPort p).unacked
  if l = [] then s
  else l.foldl (fun (t : State) f => t.emit (.chord p f)) (s.satAdd (R.CHD_PORT_STAT p) F.CHD_PORT_STAT_REPLAYS 1)

/-- CHORD_ACK (R484). -/
def execChordAck (p : Fin 4) (f : ChordFrame) (s : State) : Out :=
  .next (if s.chdUp p.val ∧ f.kind = 0 then (s.chdRelease p.val (f.addr.toNat % 4096)).chdFlush p.val else s)

/-- CHORD_NAK (R484): what it acknowledges is released, and the sender replays from the frame after it. -/
def execChordNak (p : Fin 4) (f : ChordFrame) (s : State) : Out :=
  .next (if s.chdUp p.val ∧ f.kind = 1 then ((s.chdRelease p.val (f.addr.toNat % 4096)).chdReplay p.val).chdFlush p.val else s)

/-- CHORD_CREDIT (R485): credits return per virtual channel. -/
def execChordCredit (p : Fin 4) (f : ChordFrame) (s : State) : Out :=
  .next (
    if s.chdUp p.val ∧ f.kind = 2 then
      let x := s.chdPort p.val
      let c := (x.credits.zip (List.range 3)).map (fun q => min 64 (q.1 + f.addr.toNat / 2 ^ (8 * q.2) % 256))
      (s.setChdPort p.val { x with credits := c }).chdFlush p.val
    else s)

/-- CHORD_FRAME_CORRUPT (R484): a frame that fails FEC or CRC is discarded and a NAK is sent. -/
def execChordFrameCorrupt (p : Fin 4) (fec : Bool) (s : State) : Out :=
  .next (
    if s.chdUp p.val then
      (if fec then s.satAdd (R.CHD_PORT_STAT p.val) F.CHD_PORT_STAT_FEC_UNCORR 1 else s).chdNak p.val
    else s)

/-- CHORD_BAD_KIND (R482): a frame of an unknown kind is discarded and counted. -/
def execChordBadKind (p : Fin 4) (f : ChordFrame) (s : State) : Out :=
  .next (if s.chdUp p.val ∧ 10 < f.kind.toNat then s.satAdd (R.CHD_PORT_CNT p.val) F.CHD_PORT_CNT_BAD_KIND 1 else s)

/-- CHORD_ACK_SEND (R484): the receiver acknowledges after 16 frames or 1 µs, and returns the buffers freed since (R485; log 35). -/
def execChordAckSend (p : Fin 4) (s : State) : Out :=
  .next (
    let x := s.chdPort p.val
    if s.chdUp p.val ∧ (16 ≤ x.rxCount ∨ x.ackTick + 250 ≤ s.time.ticks) then
      let s1 := s.chdLocal p.val (s.chdFrame 0 0 x.lastGood [])
      let s2 := if x.freed = [0, 0, 0] then s1
        else s1.chdLocal p.val (s.chdFrame 2 0 (x.freed.getD 0 0 + 256 * x.freed.getD 1 0 + 65536 * x.freed.getD 2 0) [])
      s2.setChdPort p.val { x with rxCount := 0, ackTick := s.time.ticks, freed := [0, 0, 0] }
    else s)

/-- CHORD_ACK_TIMEOUT (R484): no acknowledgement has advanced for 10 µs; the port retrains and keeps its replay buffer. -/
def execChordAckTimeout (p : Fin 4) (s : State) : Out :=
  .next (
    let x := s.chdPort p.val
    if s.chdUp p.val ∧ x.unacked ≠ [] ∧ x.advTick + 2500 ≤ s.time.ticks then
      (s.setChdPort p.val { x with retraining := true }).setFld (R.CHD_PORT_STAT p.val) F.CHD_PORT_STAT_STATE 1
    else s)

/-- CHORD_LINK_DOWN (R484): the unacknowledged frames are discarded and counted; those not yet sent go with them. -/
def execChordLinkDown (p : Fin 4) (s : State) : Out :=
  .next (
    if s.hasChords ∧ s.chdState p.val ≠ 0 then
      let x := s.chdPort p.val
      let s1 := (s.satAdd (R.CHD_PORT_CNT p.val) F.CHD_PORT_CNT_LOST (x.unacked.length + x.waiting.length)).satAdd
        (R.CHD_PORT_STAT p.val) F.CHD_PORT_STAT_LINK_DOWNS 1
      (s1.setChdPort p.val {}).setFld (R.CHD_PORT_STAT p.val) F.CHD_PORT_STAT_STATE 0
    else s)

/-- CHORD_LINK_UP (R484): the link comes up with LSEQ 0, or, after a retraining, goes on with what it had and replays. -/
def execChordLinkUp (p : Fin 4) (s : State) : Out :=
  .next (
    if s.hasChords ∧ s.chdState p.val ≠ 2 then
      let x := s.chdPort p.val
      let s1 := s.setFld (R.CHD_PORT_STAT p.val) F.CHD_PORT_STAT_STATE 2
      if x.retraining then
        ((s1.setChdPort p.val { x with retraining := false, advTick := s.time.ticks }).chdReplay p.val).chdFlush p.val
      else (s1.setChdPort p.val { ({} : ChdPort) with waiting := x.waiting, ackTick := s.time.ticks, advTick := s.time.ticks }).chdFlush p.val
    else s)

/-! ### Reads that leave by a chord (R486, R488) -/

/-- Issues a remote read: it is outstanding under its TSEQ, and its frame asks for the whole 8-byte words that hold the bytes; an unenumerated device sends nothing (R480). -/
def State.remoteRead (s : State) (what : ReadFor) (addr len : Nat) : State :=
  let t := s.chd.tseq
  let s1 := { s with
    chd := { s.chd with tseq := (t + 1) % 65536 }
    host := { s.host with reads := s.host.reads ++ [{ what := what, addr := addr, len := len, tseq := t, at' := s.time.ticks }] } }
  match s.ownPosition, s.place addr with
  | some _, .remote p o =>
    s1.chdSend { s.chdFrame 4 p (o / 8 * 8) [] with tseq := BitVec.ofNat 16 t, len := BitVec.ofNat 6 ((o % 8 + len + 7) / 8) }
  | _, _ => s1

/-- Issues a posted remote write, in frames of at most 256 bytes, n of them. -/
def State.remoteWriteN (s : State) (p o : Nat) (l : List Byte) : Nat → State
  | 0 => s
  | n + 1 =>
    if l = [] then s
    else (s.chdSend (s.chdFrame 6 p o (l.take 256))).remoteWriteN p (o + 256) (l.drop 256) n

/-- Fills n bytes of an 8-byte word that a remote write does not cover: the frame carries whole words, and what these bytes hold is a free value (log 52). -/
def State.freePad (s : State) (n : Nat) : List Byte × State :=
  if n = 0 then ([], s) else let x := s.free; (leBytes x.1.toNat n, x.2)

/-- A posted remote write. -/
def State.remoteWrite (s : State) (p o : Nat) (l : List Byte) : State :=
  if s.ownPosition.isNone then s
  else
    let x := s.freePad (o % 8)
    let y := x.2.freePad ((8 - (o + l.length) % 8) % 8)
    y.2.remoteWriteN p (o / 8 * 8) (x.1 ++ l ++ y.1) ((l.length + 16) / 256 + 1)

/-! ### Enumeration (R479, R480) -/

/-- The content of an ENUM frame: position offered, depth, next free position, devices not reached (log 36). -/
def enumAddr (position depth next unreached : Nat) : Nat := position + 256 * depth + 65536 * next + 16777216 * (unreached % 256)

/-- Ends the launch and lock-step comparison, as a new enumeration does (R480). -/
def State.detQuiet (s : State) : State :=
  let s1 := (s.setFld R.DET_LAUNCH_STAT F.DET_LAUNCH_STAT_STATE 0).setFld R.DET_LS_CFG F.DET_LS_CFG_ENABLE 0
  let s2 := { s1 with det := { s1.det with acks := 0, parts := 0, ls := [], own := [], theirs := [] } }
  { s2 with host := { s2.host with reads := s2.host.reads.map (fun (o : OutRead) =>
      match s2.place o.addr with
      | .remote _ _ => { o with tseq := 65536 + o.tseq % 65536 }
      | _ => o) } }

/-- Visits the ports from p on: the first that is up and is not the up port is offered the next free position; when none is left, the walk ends and a worker returns the next free position to its parent. -/
def State.chdVisit (s : State) (next unreached : Nat) (ports : List Nat) : State :=
  let mgr := s.bit R.CHD_CFG F.CHD_CFG_MANAGER
  let depth := if mgr then 0 else s.fld R.CHD_CFG F.CHD_CFG_DEPTH
  match ports.find? (fun p => s.chdUp p && s.chdRole p != 1) with
  | some p =>
    let s1 := { s with chd := { s.chd with walk := some { port := p, lo := next, next := next, unreached := unreached } } }
    s1.chdLocal p (s.chdFrame 10 0 (enumAddr next (depth + 1) next 0) [])
  | none =>
    let s1 := { s with chd := { s.chd with walk := none } }
    if mgr then
      ((((s1.setFld R.CHD_CFG F.CHD_CFG_ENUMERATED 1).setFld R.CHD_ENUM F.CHD_ENUM_WORKERS (next - 1)).setFld
        R.CHD_ENUM F.CHD_ENUM_UNREACHED (min 255 unreached)).setReg R.CHD_PRESENT (BitVec.ofNat 64 (2 ^ next - 1)))
    else
      let up := s.fld R.CHD_CFG F.CHD_CFG_UP_PORT
      s1.chdLocal up (s.chdFrame 10 0 (enumAddr 0 depth next unreached) [])

/-- Clears the roles of the ports. -/
def State.chdClearRoles (s : State) : State :=
  (List.range 4).foldl (fun (t : State) p => t.setReg (R.CHD_PORT_CFG p) (t.reg (R.CHD_PORT_CFG p) &&& 0x0700000000000000)) s

/-- Enumerates the tree from the manager (R479, R480). -/
def State.chdEnumerate (s : State) : State :=
  let s1 := if s.bit R.CHD_CFG F.CHD_CFG_ENUMERATED then s.detQuiet else s
  (s1.chdClearRoles).chdVisit 1 0 [0, 1, 2, 3]

/-- CHD_CTL.ENUMERATE, written by host software on the manager. -/
def State.enumWrite (s : State) (r : Req) : State :=
  s.guardW r R.CHD_CTL (fun s => if s.bit R.CHD_CFG F.CHD_CFG_MANAGER ∧ s.chd.walk.isNone ∧ isHost r then s.chdEnumerate else s)

/-- CHD_ENUMERATE (R480). -/
def execChdEnumerate (r : Req) (s : State) : Out := .next (s.enumWrite r)

/-- CHORD_ENUM (R479): the first offer assigns a worker its position, depth and up port, and it visits its other ports; a device at depth 5 or position 64 is not assigned and is counted; a return from the port being visited gives that port its range. Offers on any other port are ignored. -/
def execChordEnum (p : Fin 4) (f : ChordFrame) (s : State) : Out :=
  .next (
    if !s.chdUp p.val ∨ f.kind ≠ 10 then s
    else
      let a := f.addr.toNat
      let next := a / 65536 % 256
      match s.chd.walk with
      | some w =>
        if w.port = p.val then
          let s1 := if w.lo < next then
              ((s.setFld (R.CHD_PORT_CFG p.val) F.CHD_PORT_CFG_ROLE 2).setFld (R.CHD_PORT_CFG p.val) F.CHD_PORT_CFG_SUB_LO w.lo).setFld
                (R.CHD_PORT_CFG p.val) F.CHD_PORT_CFG_SUB_HI (next - 1)
            else s
          s1.chdVisit next (w.unreached + a / 16777216 % 256) ((List.range 4).filter (fun q => decide (p.val < q)))
        else s
      | none =>
        if s.bit R.CHD_CFG F.CHD_CFG_MANAGER then s
        else if s.bit R.CHD_CFG F.CHD_CFG_ENUMERATED ∧ s.fld R.CHD_CFG F.CHD_CFG_UP_PORT ≠ p.val then s
        else
          let pos := a % 256
          let depth := a / 256 % 256
          if 5 ≤ depth ∨ 64 ≤ pos then s.chdLocal p.val (s.chdFrame 10 0 (enumAddr 0 depth next 1) [])
          else
            let s0 := if s.bit R.CHD_CFG F.CHD_CFG_ENUMERATED then s.detQuiet else s
            let s1 := (((s0.setFld R.CHD_CFG F.CHD_CFG_ENUMERATED 1).setFld R.CHD_CFG F.CHD_CFG_POSITION pos).setFld R.CHD_CFG F.CHD_CFG_DEPTH depth).setFld
              R.CHD_CFG F.CHD_CFG_UP_PORT p.val
            ((s1.chdClearRoles).setFld (R.CHD_PORT_CFG p.val) F.CHD_PORT_CFG_ROLE 1).chdVisit (pos + 1) 0 [0, 1, 2, 3])

/-! ### Chord time sync (R489) -/

/-- The two stamps of a TIME frame: the sender's transmit stamp, and the stamp of the last frame it received (log 37). -/
def timePayload (a b : Word) : List Byte := leBytes a.toNat 8 ++ leBytes b.toNat 8

/-- CHORD_TIME_SEND (R489): every 62.5 µs a device sends a TIME frame on each down port. -/
def execChordTimeSend (s : State) : Out :=
  .next (
    let dueNow := match s.chd.timeTick with
      | some t => decide (t + 15625 ≤ s.time.ticks)
      | none => true
    if s.hasChords && dueNow then
      ((List.range 4).filter (fun p => s.chdRole p == 2)).foldl
        (fun (t : State) p => t.chdLocal p (t.chdFrame 3 0 0 (timePayload t.now (t.chdPort p).t4)))
        { s with chd := { s.chd with timeTick := some s.time.ticks } }
    else s)

/-- The chord servo takes twice an offset in ns (R489): the session's one step at its first exchange, afterwards a rate whose value the spec does not state (log 1); LOCKED after 16 exchanges in a row within 0.5 ns, cleared beyond 2 ns. -/
def State.chordServo (s : State) (d2 : Int) : State :=
  let s0 := s.setFld R.CHD_TSYNC F.CHD_TSYNC_OFFSET_PS (toTwos 32 (d2 * 500))
  let run := if d2.natAbs ≤ 1 then s.chd.lockRun + 1 else 0
  let s1 := { s0 with chd := { s0.chd with lockRun := run } }
  let s2 := if 16 ≤ run then s1.setFld R.CHD_TSYNC F.CHD_TSYNC_LOCKED 1
    else if 4 < d2.natAbs then s1.setFld R.CHD_TSYNC F.CHD_TSYNC_LOCKED 0 else s1
  if !s2.bit R.TIME_STAT F.TIME_STAT_STEP_USED then
    let s3 := (s2.setFld R.TIME_STAT F.TIME_STAT_STEP_USED 1).setFld R.TIME_STAT F.TIME_STAT_VALID 1
    { s3 with time := { s3.time with stepPend := some (-(d2 / 2)), acceptedGm := s3.time.currentGm } }
  else if s2.bit R.TIME_STAT F.TIME_STAT_HOLDOVER then s2
  else
    let x := s2.free
    let c := max (-549755813) (min 549755813 (signExt 32 x.1.toNat))
    { x.2 with time := { x.2.time with ratePend := some (BitVec.ofInt 32 c) } }

/-- CHORD_TIME (R489): from a child the receipt is stamped for the next frame; from the parent, on a worker that follows it, the stamps complete an exchange, and the child answers. -/
def execChordTime (p : Fin 4) (f : ChordFrame) (rx : Word) (s : State) : Out :=
  .next (
    if !s.chdUp p.val ∨ f.kind ≠ 3 then s
    else
      let x := s.chdPort p.val
      let a : Word := BitVec.ofNat 64 (sliceN f.payload 0 8)
      let b : Word := BitVec.ofNat 64 (sliceN f.payload 8 8)
      if s.chdRole p.val = 2 then s.setChdPort p.val { x with t4 := rx }
      else if s.chdRole p.val = 1 ∧ s.chordSource then
        let s1 := match x.t12 with
          | some (t1, t2) => if b = 0 then s else s.chordServo (stampDiff t2 t1 - stampDiff b x.t3)
          | none => s
        let s2 := { s1 with time := { s1.time with lastSync := s1.nowNs } }
        let s3 := s2.setChdPort p.val { s2.chdPort p.val with t12 := some (a, rx), t3 := s.now }
        s3.chdLocal p.val (s.chdFrame 3 0 0 (timePayload s.now rx))
      else s)

end Sys2Proof.Machine
end

