-- ==== Sys2Proof/Machine/LockStep.lean ====
section
/-! DEFINITION. Launch in step, lock-step comparison and the settings digest (R490 to R495, R500). -/

namespace Sys2Proof.Machine

/-! ### Lock-step comparison (R493 to R495) -/

def State.lsSrc (s : State) (i : Nat) : LsSrc := Store.get (fun _ => ({} : LsSrc)) s.det.ls i

/-- Raises DIVERGE (R495): the first occurrence is recorded and every one counted, the DET interrupt and the error event follow, and Plumb hears of it when TO_PLUMB is set. -/
def State.diverge (s : State) (cause src k : Nat) : State :=
  let s1 := if s.bit R.DET_LS_STAT F.DET_LS_STAT_DIVERGE then s
    else ((s.setFld R.DET_LS_STAT F.DET_LS_STAT_CAUSE cause).setFld R.DET_LS_STAT F.DET_LS_STAT_SOURCE src).setFld
      R.DET_LS_STAT F.DET_LS_STAT_INTERVAL k
  let s2 := s1.satAdd R.DET_LS_STAT F.DET_LS_STAT_COUNT 1
  let s3 := s2.withCause 8 (fun t => t.setFld R.DET_LS_STAT F.DET_LS_STAT_DIVERGE 1)
  let s4 := s3.event 15 src (BitVec.ofNat 64 cause) (BitVec.ofNat 64 k)
  if s4.bit R.DET_LS_CFG F.DET_LS_CFG_TO_PLUMB then s4.assertLine .diverge 0 else s4

/-- Compares an own signature with the partner's of the same source and interval (R494). -/
def State.lsCompare (s : State) (a b : LsSig) : State :=
  let s1 := s.wrapAdd R.DET_LS_MATCHES F.DET_LS_MATCHES_COUNT 1
  if a.sig = b.sig then s1 else s.diverge 1 a.src a.k

/-- Keeps an own signature: it is compared at once if the partner's is present; a full buffer pushes its oldest out (R494, R495). -/
def State.lsOwn (s : State) (x : LsSig) : State :=
  match s.det.theirs.find? (fun y => y.src == x.src && y.k == x.k) with
  | some y =>
    ({ s with det := { s.det with theirs := s.det.theirs.filter (fun z => !(z.src == x.src && z.k == x.k)) } }).lsCompare x y
  | none =>
    match s.det.own with
    | o :: r =>
      if 512 ≤ s.det.own.length then
        ({ s with det := { s.det with own := r ++ [x] } }).diverge 2 o.src o.k
      else { s with det := { s.det with own := s.det.own ++ [x] } }
    | [] => { s with det := { s.det with own := [x] } }

/-- Takes the partner's signature (R494). -/
def State.lsTheirs (s : State) (y : LsSig) : State :=
  match s.det.own.find? (fun x => x.src == y.src && x.k == y.k) with
  | some x =>
    ({ s with det := { s.det with own := s.det.own.filter (fun z => !(z.src == y.src && z.k == y.k)) } }).lsCompare x y
  | none => { s with det := { s.det with theirs := (if 512 ≤ s.det.theirs.length then s.det.theirs.drop 1 else s.det.theirs) ++ [y] } }

/-- The payload of a SIG frame: source, interval, signature (R482, R494; log 38). -/
def sigPayload (src k : Nat) (sig : Word) : List Byte := leBytes src 4 ++ leBytes k 4 ++ leBytes sig.toNat 8

/-- The items of an interval: 0 is taken as 65,536 (R505). -/
def State.lsItems (s : State) : Nat :=
  let n := s.fld R.DET_LS_CFG F.DET_LS_CFG_ITEMS
  if n = 0 then 65536 else n

/-- Folds an item into a source, and closes the interval after ITEMS items (R494). -/
def State.lsItem (s : State) (src : Nat) (l : List Byte) : State :=
  if !s.bit R.DET_LS_CFG F.DET_LS_CFG_ENABLE then s
  else
    let x := s.lsSrc src
    let c0 := if x.n = 0 then crc64 0xFFFFFFFFFFFFFFFF (leBytes src 1 ++ leBytes x.k 4) else x.c
    let c := crc64 c0 l
    if x.n + 1 < s.lsItems then
      { s with det := { s.det with ls := Store.set (fun _ => ({} : LsSrc)) s.det.ls src { x with n := x.n + 1, c := c } } }
    else
      let sig := c ^^^ 0xFFFFFFFFFFFFFFFF
      let s1 := { s with det := { s.det with ls := Store.set (fun _ => ({} : LsSrc)) s.det.ls src { k := x.k + 1, n := 0, c := 0 } } }
      let s2 := s1.chdSend (s1.chdFrame 9 (s1.fld R.DET_LS_CFG F.DET_LS_CFG_PARTNER) 0 (sigPayload src x.k sig))
      s2.lsOwn { src := src, k := x.k, sig := sig, tick := s.time.ticks }

/-- A completion record of a queue as an item of the sources that name the queue, with START, END, ENERGY_UJ and FLAGS bit 12 taken as zero (R493). -/
def State.lsRecord (s : State) (q : Nat) (item : List Byte) : State :=
  ((List.range 64).filter (fun i => s.bit (R.DET_LS_QUEUE i) F.DET_LS_QUEUE_ENABLE && s.fld (R.DET_LS_QUEUE i) F.DET_LS_QUEUE_QUEUE == q)).foldl
    (fun (t : State) i => t.lsItem i item) s

/-- Sorts codes by actuator output. -/
def insCode (c : Nat × Int) : List (Nat × Int) → List (Nat × Int)
  | [] => [c]
  | d :: r => if c.1 ≤ d.1 then c :: d :: r else d :: insCode c r

/-- The published codes of a rate group as an item: 2 bytes each, in ascending actuator-output order (R493). -/
def State.lsGroup (s : State) (g : Nat) (codes : List (Nat × Int)) : State :=
  if (s.fld R.DET_LS_CFG F.DET_LS_CFG_GROUP_MASK).testBit g then
    s.lsItem (64 + g) ((codes.foldr insCode []).flatMap (fun c => leBytes (toTwos 16 c.2) 2))
  else s

/-- Whether a position is present: the manager knows the positions; a worker that is enumerated takes any other for present (R493; log 39). -/
def State.lsPresent (s : State) (p : Nat) : Bool :=
  s.hasChords && s.ownPosition.isSome && !(s.ownPosition == some p) &&
  (!s.bit R.CHD_CFG F.CHD_CFG_MANAGER || (s.reg R.CHD_PRESENT).getLsbD p)

/-- DET_LS_CFG: fields but ENABLE only while ENABLE is 0; ENABLE = 1 only with a present partner; intervals are numbered from 0 at enable (R493, R494). -/
def State.writeLsCfg (s : State) (r : Req) (h : Half) (v : Word) : State :=
  s.guardW r R.DET_LS_CFG (fun s =>
    let en : Word := 0x8000000000000000
    let on := s.bit R.DET_LS_CFG F.DET_LS_CFG_ENABLE
    let s1 := if on then s else
      let o := s.reg R.DET_LS_CFG
      let t := s.writeFields R.DET_LS_CFG h v
      t.setReg R.DET_LS_CFG ((t.reg R.DET_LS_CFG &&& ~~~ en) ||| (o &&& en))
    if h = .low then s1
    else if v.getLsbD 63 then
      if on ∨ !s1.lsPresent (s1.fld R.DET_LS_CFG F.DET_LS_CFG_PARTNER) then s1
      else { s1.setFld R.DET_LS_CFG F.DET_LS_CFG_ENABLE 1 with det := { s1.det with ls := [], own := [], theirs := [] } }
    else { s1.setFld R.DET_LS_CFG F.DET_LS_CFG_ENABLE 0 with det := { s1.det with ls := [], own := [], theirs := [] } })

/-- DET_LS_CFG_WRITE (R493). -/
def execDetLsCfgWrite (r : Req) (h : Half) (v : Word) (s : State) : Out := .next (s.writeLsCfg r h v)

/-- DET_LS_FEED: an 8-byte write folds an item into source 72 + f (R493, R505). -/
def State.writeFeed (s : State) (f : Nat) (r : Req) (h : Half) (v : Word) : State :=
  s.guardW r (R.DET_LS_FEED f) (fun s => if h = .full then s.lsItem (72 + f) (leBytes v.toNat 8) else s.partialWrite r)

/-- DET_LS_FEED (R493). -/
def execDetLsFeed (f : Fin 8) (r : Req) (h : Half) (v : Word) (s : State) : Out := .next (s.writeFeed f.val r h v)

/-- CHORD_SIG (R494): the partner's signature is compared with the own copy, or kept. -/
def execChordSig (p : Fin 4) (f : ChordFrame) (s : State) : Out :=
  .next (s.chdTake p.val 9 f (fun s =>
    if s.bit R.DET_LS_CFG F.DET_LS_CFG_ENABLE ∧ f.src.toNat = s.fld R.DET_LS_CFG F.DET_LS_CFG_PARTNER then
      s.lsTheirs { src := sliceN f.payload 0 1, k := sliceN f.payload 4 4, sig := BitVec.ofNat 64 (sliceN f.payload 8 8), tick := s.time.ticks }
    else s))

/-- LOCKSTEP_LAG_TIMEOUT (R495): an own signature of a source has waited longer than LAG_US. -/
def execLockstepLagTimeout (src : Fin 80) (s : State) : Out :=
  .next (
    match s.det.own.find? (fun x => x.src == src.val && decide (x.tick + s.fld R.DET_LS_CFG F.DET_LS_CFG_LAG_US * 250 < s.time.ticks)) with
    | some x => ({ s with det := { s.det with own := s.det.own.filter (fun y => !(y == x)) } }).diverge 2 x.src x.k
    | none => s)

/-! ### Launch in step (R490 to R492) -/

def State.launchState (s : State) : Nat := s.fld R.DET_LAUNCH_STAT F.DET_LAUNCH_STAT_STATE
def State.launchMargin (s : State) : Int := ((s.fld R.DET_LAUNCH_CTL F.DET_LAUNCH_CTL_MARGIN_US * 1000 : Nat) : Int)
def State.isManager (s : State) : Bool := s.hasChords && s.bit R.CHD_CFG F.CHD_CFG_MANAGER

/-- Closes or opens every enabled local gate. -/
def State.setGates (s : State) (closed : Bool) : State :=
  (List.range 64).foldl (fun (t : State) i =>
    if t.bit (R.DET_GATE i) F.DET_GATE_ENABLE then t.setBit (R.DET_GATE i) F.DET_GATE_CLOSED closed else t) s

/-- A launch message: type, ID, cause and launch stamp in the 16 bytes of a DET frame (R490, R491; log 38). -/
def launchPayload (type id cause : Nat) (l : Word) : List Byte :=
  leBytes type 1 ++ leBytes id 1 ++ leBytes cause 1 ++ List.replicate 5 0 ++ leBytes l.toNat 8

def State.launchId (s : State) : Nat := s.fld R.DET_LAUNCH_STAT F.DET_LAUNCH_STAT_ID

/-- Sends a launch message to a position. -/
def State.launchSend (s : State) (dest type cause : Nat) : State :=
  s.chdSend (s.chdFrame 8 dest 0 (launchPayload type s.launchId cause s.det.launchAt))

/-- Sends a launch message to every participant but the manager itself. -/
def State.launchAll (s : State) (type cause : Nat) : State :=
  ((List.range 64).filter (fun p => decide (p ≠ 0) && s.det.parts.testBit p)).foldl (fun (t : State) p => t.launchSend p type cause) s

/-- Ends the launch LATE with its cause and first failing position (R492). -/
def State.launchLate (s : State) (cause pos : Nat) : State :=
  ((s.setFld R.DET_LAUNCH_STAT F.DET_LAUNCH_STAT_STATE 4).setFld R.DET_LAUNCH_STAT F.DET_LAUNCH_STAT_CAUSE cause).setFld
    R.DET_LAUNCH_STAT F.DET_LAUNCH_STAT_POSITION pos

/-- The manager aborts: ABORT to the participants, and LATE (R492). -/
def State.launchAbort (s : State) (cause pos : Nat) : State := (s.launchAll 5 cause).launchLate cause pos

/-- The manager enters GO once every participant has acknowledged with the margin left (R491). -/
def State.launchTryGo (s : State) : State :=
  if s.isManager ∧ s.launchState = 1 ∧ s.det.parts &&& s.det.acks = s.det.parts ∧ s.launchMargin ≤ stampDiff s.det.launchAt s.now then
    (s.setFld R.DET_LAUNCH_STAT F.DET_LAUNCH_STAT_STATE 2).launchAll 4 0
  else s

/-- DET_LAUNCH_CTL.ARM on the manager (R491, R492). -/
def State.launchArm (s : State) (r : Req) : State :=
  s.guardW r R.DET_LAUNCH_CTL (fun s =>
    if !s.isManager then s
    else if s.launchState = 1 ∨ s.launchState = 2 then s.setFld R.DET_LAUNCH_STAT F.DET_LAUNCH_STAT_BUSY_REJECT 1
    else
      let s0 := ((s.setFld R.DET_LAUNCH_STAT F.DET_LAUNCH_STAT_ID (s.fld R.DET_LAUNCH_CTL F.DET_LAUNCH_CTL_ID)).setFld
        R.DET_LAUNCH_STAT F.DET_LAUNCH_STAT_CAUSE 0).setFld R.DET_LAUNCH_STAT F.DET_LAUNCH_STAT_POSITION 0
      let s1 : State := { s0 with det := { s0.det with
        launchAt := s.reg R.DET_LAUNCH_AT, parts := (s.reg R.DET_LAUNCH_MASK).toNat, acks := 1 } }
      if stampDiff s1.det.launchAt s1.now < s1.launchMargin then s1.launchLate 2 0
      else
        let s2 := if s1.det.parts.testBit 0 then s1.setGates true else s1
        (((s2.setFld R.DET_LAUNCH_STAT F.DET_LAUNCH_STAT_STATE 1)).launchAll 1 0).launchTryGo)

/-- DET_LAUNCH_CTL.ABORT on the manager (R492). -/
def State.launchAbortWrite (s : State) (r : Req) : State :=
  s.guardW r R.DET_LAUNCH_CTL (fun s =>
    if s.isManager ∧ (s.launchState = 1 ∨ s.launchState = 2) then s.launchAbort 5 0 else s)

/-- DET_LAUNCH_CTL.RELEASE: the local gates open at once (R492). -/
def State.launchRelease (s : State) (r : Req) : State := s.guardW r R.DET_LAUNCH_CTL (fun s => s.setGates false)

/-- A write of DET_LAUNCH_CTL: MARGIN_US and ID, then its actions (R504). -/
def State.writeLaunchCtl (s : State) (r : Req) (h : Half) (v : Word) : State :=
  let s1 := s.guardW r R.DET_LAUNCH_CTL (fun s => s.writeFields R.DET_LAUNCH_CTL h v)
  if h = .high then s1
  else
    let s2 := if v.getLsbD 2 then s1.launchRelease r else s1
    let s3 := if v.getLsbD 1 then s2.launchAbortWrite r else s2
    if v.getLsbD 0 then s3.launchArm r else s3

/-- DET_LAUNCH_ARM (R491). -/
def execDetLaunchArm (r : Req) (s : State) : Out := .next (s.launchArm r)

/-- DET_LAUNCH_ABORT (R492). -/
def execDetLaunchAbort (r : Req) (s : State) : Out := .next (s.launchAbortWrite r)

/-- DET_LAUNCH_RELEASE (R492). -/
def execDetLaunchRelease (r : Req) (s : State) : Out := .next (s.launchRelease r)

/-- A worker gets a launch message from the manager (R491, R492). -/
def State.launchWorker (s : State) (type id cause : Nat) (l : Word) : State :=
  match type with
  | 1 =>
    let s1 : State := { s.setFld R.DET_LAUNCH_STAT F.DET_LAUNCH_STAT_ID id with det := { s.det with launchAt := l } }
    if s1.bit R.CHD_TSYNC F.CHD_TSYNC_LOCKED ∧ 0 ≤ stampDiff l s1.now then
      ((s1.setGates true).setFld R.DET_LAUNCH_STAT F.DET_LAUNCH_STAT_STATE 1).launchSend 0 2 0
    else s1.launchSend 0 3 3
  | 4 =>
    if s.launchState = 1 ∧ s.launchId = id then
      if 0 < stampDiff s.now s.det.launchAt then (s.launchLate 4 s.position).launchSend 0 6 4
      else s.setFld R.DET_LAUNCH_STAT F.DET_LAUNCH_STAT_STATE 2
    else s
  | 5 => if (s.launchState = 1 ∨ s.launchState = 2) ∧ s.launchId = id then s.launchLate cause s.position else s
  | _ => s

/-- The manager gets a launch message from a worker (R491, R492). -/
def State.launchManager (s : State) (type id src : Nat) : State :=
  if s.launchId ≠ id then s
  else match type with
  | 2 =>
    if s.launchState = 1 then
      ({ s with det := { s.det with acks := if s.det.acks.testBit src then s.det.acks else s.det.acks + 2 ^ src } }).launchTryGo
    else s
  | 3 => if s.launchState = 1 then s.launchAbort 3 src else s
  | 6 =>
    if s.launchState = 3 then
      ((s.setFld R.DET_LAUNCH_STAT F.DET_LAUNCH_STAT_STATE 5).setFld R.DET_LAUNCH_STAT F.DET_LAUNCH_STAT_CAUSE 4).setFld
        R.DET_LAUNCH_STAT F.DET_LAUNCH_STAT_POSITION src
    else s
  | _ => s

/-- CHORD_DET (R491, R492). -/
def execChordDet (p : Fin 4) (f : ChordFrame) (s : State) : Out :=
  .next (s.chdTake p.val 8 f (fun s =>
    let type := sliceN f.payload 0 1
    let id := sliceN f.payload 1 1
    if s.isManager then s.launchManager type id f.src.toNat
    else s.launchWorker type id (sliceN f.payload 2 1) (BitVec.ofNat 64 (sliceN f.payload 8 8))))

/-- Whether the device takes part in the launch: a worker that was armed, or the manager when bit 0 of the mask is set. -/
def State.launchTakes (s : State) : Bool := !s.isManager || s.det.parts.testBit 0

/-- LAUNCH_FIRE (R491): in the first tick with d(now, L) ≥ 0 a participant with GO opens its gates and enters FIRED; a manager outside the mask only enters FIRED (log 40). -/
def execLaunchFire (s : State) : Out :=
  .next (
    if s.launchState = 2 ∧ 0 ≤ stampDiff s.now s.det.launchAt then
      let s1 := s.setFld R.DET_LAUNCH_STAT F.DET_LAUNCH_STAT_STATE 3
      if s.launchTakes then (s1.setGates false).setReg R.DET_LAUNCH_FIRED s.now else s1
    else s)

/-- LAUNCH_MARGIN_EXPIRY (R492): d(L, now) falls below MARGIN_US before every acknowledgement has arrived. -/
def execLaunchMarginExpiry (s : State) : Out :=
  .next (
    if s.isManager ∧ s.launchState = 1 ∧ stampDiff s.det.launchAt s.now < s.launchMargin then
      s.launchAbort 1 (((List.range 64).find? (fun p => s.det.parts.testBit p && !s.det.acks.testBit p)).getD 0)
    else s)

/-- LAUNCH_ARMED_EXPIRY (R492): a participant still ARMED when d(now, L) reaches MARGIN_US enters LATE and reports. -/
def execLaunchArmedExpiry (s : State) : Out :=
  .next (
    if s.launchState = 1 ∧ s.launchMargin ≤ stampDiff s.now s.det.launchAt ∧ !s.isManager then
      (s.launchLate 4 s.position).launchSend 0 6 4
    else s)

/-! ### The settings digest (R500) -/

/-- The active logical cores as a mask. -/
def State.activeMask (s : State) : Nat := s.fld R.FLT_MAP F.FLT_MAP_ACTIVE

/-- The 128-byte block that the settings digest covers (R500). -/
def State.settingsBlock (s : State) : List Byte :=
  (List.range 8).flatMap (fun i => leBytes (s.reg (R.FAB_CONFIG_DIGEST i)).toNat 8) ++
  leBytes s.grade 1 ++ leBytes (s.fld R.GLB_CAPS F.GLB_CAPS_STEPPING) 1 ++ leBytes (s.fld R.GLB_CAPS F.GLB_CAPS_CORES_ACTIVE) 1 ++
  leBytes (s.fld R.GLB_BUDGET_MODE F.GLB_BUDGET_MODE_MODE) 1 ++ leBytes s.activeMask 2 ++
  leBytes (s.fld R.PWR_CFG F.PWR_CFG_CAP_W) 2 ++ leBytes (s.fld R.PWR_VDD F.PWR_VDD_TARGET_MV) 2 ++ List.replicate 6 0 ++
  leBytes (s.reg R.TIME_PTP_CFG).toNat 8 ++ List.replicate 40 0

/-- SETTINGS_DIGEST_RECOMPUTE (R500): after a change to its inputs the digest is computed again and the sequence number advances. -/
def execSettingsDigestRecompute (s : State) : Out :=
  .next (
    let b := s.settingsBlock
    if b = s.det.block then s
    else
      let d := sha3_512 b
      let s1 := (List.range 8).foldl (fun (t : State) i => t.setReg (R.DET_SETTINGS_DIGEST i) (BitVec.ofNat 64 (sliceN d (8 * i) 8))) s
      { s1.wrapAdd R.DET_SETTINGS_SEQ F.DET_SETTINGS_SEQ_SEQ 1 with det := { s1.det with block := b } })

end Sys2Proof.Machine
end

