-- ==== Sys2Proof/Machine/Operands.lean ====
section
/-! DEFINITION. Operands of the engines: tensor descriptors and layouts, elements and their codes, and reads and writes of whole tensors with the checks that engines make (R176, R182, R199 to R201, R277, R278). -/

namespace Sys2Proof.Machine

/-- A tensor descriptor (R199), its extents with 0 taken as 1. -/
structure Desc where
  base : Nat
  d0 : Nat
  d1 : Nat
  d2 : Nat
  d3 : Nat
  s1 : Nat
  s2 : Nat
  s3 : Nat
  fmt : Nat
  layout : Nat
  aux : Nat
  deriving DecidableEq, Repr

/-- The descriptor that four words spell (R199). -/
def descOf (w : List Word) : Desc :=
  let g (i lo k : Nat) : Nat := (w.getD i 0).toNat / 2 ^ lo % 2 ^ k
  { base := g 0 0 64, d0 := max 1 (g 1 0 16), d1 := max 1 (g 1 16 16), d2 := max 1 (g 1 32 16), d3 := max 1 (g 1 48 16)
    s1 := g 2 0 32, s2 := g 2 32 32, s3 := g 3 0 32, fmt := g 3 32 8, layout := g 3 40 8, aux := g 3 48 16 }

/-- The words of descriptor i of a context. -/
def CoreCtx.descWords (c : CoreCtx) (i : Nat) : List Word :=
  (List.range 4).map (fun k => Store.get (fun _ => 0) c.desc (i * 4 + k))

/-- The format of a descriptor, none for a reserved code (R173). -/
def Desc.format (d : Desc) : Option Fmt := Fmt.ofCode d.fmt

/-- The channel block of a blocked layout: 16 for C16, 32 for C32, none for the others (R277). -/
def Desc.cb (d : Desc) : Option Nat := if d.layout = 1 then some 16 else if d.layout = 2 then some 32 else none

/-- Whether a layout may hold a format (R277): C16 the formats of 8 bits and more that it lists, C32 the narrower ones. -/
def layoutTakes (layout : Nat) (f : Fmt) : Bool :=
  match layout with
  | 1 => [Fmt.fp32, .int32, .fp16, .bf16, .int16, .e4m3, .e5m2, .int8, .uint8].contains f
  | 2 => [Fmt.e3m2, .e2m3, .e2m1, .int4, .uint4, .tern2].contains f
  | _ => decide (layout = 0 ∨ layout = 3)

/-- The bytes of a dense run of n elements of a width: whole bytes, or whole 3-byte groups for 6-bit formats (R176). -/
def runBytes (bits n : Nat) : Nat := if bits = 6 then (n + 3) / 4 * 3 else (n * bits + 7) / 8

/-- A contiguous run of elements: its byte address, its element count, and its bytes with padding. -/
structure Run where
  addr : Nat
  count : Nat
  bytes : Nat
  deriving DecidableEq, Repr

/-- The runs of a dense tensor, k of them from number i on: a run is one row of DIM0; beyond the extents the outermost dimension goes on. -/
def Desc.denseRuns (d : Desc) (bits : Nat) : Nat → Nat → List Run
  | _, 0 => []
  | i, k + 1 =>
    { addr := d.base + i % d.d1 * d.s1 + i / d.d1 % d.d2 * d.s2 + i / (d.d1 * d.d2) * d.s3, count := d.d0, bytes := runBytes bits d.d0 }
      :: d.denseRuns bits (i + 1) k

/-- The runs of a blocked tensor, k blocks from number i on: channel blocks of a pixel, then pixels in raster order (R278). -/
def Desc.blockRuns (d : Desc) (bits cb : Nat) : Nat → Nat → List Run
  | _, 0 => []
  | i, k + 1 =>
    let nb := (d.d0 + cb - 1) / cb
    let j := i % nb
    let p := i / nb
    { addr := d.base + j * d.s3 + p / d.d1 * d.s2 + p % d.d1 * d.s1, count := min cb (d.d0 - j * cb), bytes := cb * bits / 8 }
      :: d.blockRuns bits cb (i + 1) k

/-- The elements of a tensor: the product of its extents, where a blocked layout ignores DIM3 (R278, R650). -/
def Desc.elems (d : Desc) : Nat := if d.cb.isSome then d.d0 * d.d1 * d.d2 else d.d0 * d.d1 * d.d2 * d.d3

/-- The runs that hold the first rows of a tensor: rows of DIM0, or pixels of a blocked layout. -/
def Desc.runsFor (d : Desc) (bits rows : Nat) : List Run :=
  match d.cb with
  | none => d.denseRuns bits 0 rows
  | some cb => d.blockRuns bits cb 0 (rows * ((d.d0 + cb - 1) / cb))

/-- The rows of a tensor. -/
def Desc.rows (d : Desc) : Nat := d.elems / d.d0

/-- All runs of a tensor. -/
def Desc.runs (d : Desc) (bits : Nat) : List Run := d.runsFor bits d.rows

/-- The codes that bytes hold, n of them of a width, lowest bits first (R176). -/
def codesOf (bits : Nat) (l : List Byte) (n : Nat) : List Nat :=
  let v := leNat l
  (List.range n).map (fun i => v / 2 ^ (bits * i) % 2 ^ bits)

/-- The number that codes of a width spell, the first in the lowest bits. -/
def packCodes (bits : Nat) : List Nat → Nat
  | [] => 0
  | c :: r => c % 2 ^ bits + 2 ^ bits * packCodes bits r

/-- What reading a tensor gives: its codes, the flags of its accesses, whether a byte was bad, whether one waits for a handover, and the first address that was not served with the reason. -/
structure TRead where
  codes : List Nat := []
  flags : BitVec 24 := 0
  bad : Bool := false
  wait : Bool := false
  fault : Option (Bool × Nat) := none
  deriving DecidableEq, Repr

/-- The first address of n bytes at a that an agent's access does not reach: denied (true) or unmapped (false). -/
def State.firstFault (s : State) (g : Agent) (write : Bool) (a : Nat) : Nat → Option (Bool × Nat)
  | 0 => none
  | n + 1 =>
    match s.hit g write a with
    | .denied => some (true, a)
    | .unmapped => some (false, a)
    | .far => some (true, a)
    | _ => s.firstFault g write (a + 1) n

/-- Reads the runs of a tensor as an agent. -/
def State.readRuns (s : State) (g : Agent) (bits : Nat) : List Run → TRead
  | [] => {}
  | r :: rest =>
    let x := s.readMem g r.addr r.bytes
    let y := s.readRuns g bits rest
    { codes := codesOf bits x.bytes r.count ++ y.codes, flags := x.flags ||| y.flags, bad := x.bad || y.bad, wait := x.wait || y.wait
      fault := match s.firstFault g false r.addr r.bytes with
        | some f => some f
        | none => y.fault }

/-- Writes codes to the runs of a tensor as an agent; padding is written with zero codes (R176, R277). -/
def State.writeRuns (s : State) (g : Agent) (bits : Nat) : List Run → List Nat → MemWrite
  | [], _ => ⟨s, 0, false⟩
  | r :: rest, l =>
    let x := s.writeMem g r.addr (leBytes (packCodes bits (l.take r.count)) r.bytes)
    let y := x.state.writeRuns g bits rest (l.drop r.count)
    ⟨y.state, x.flags ||| y.flags, x.wait || y.wait⟩

/-- Reports what the reads of runs met (R267, R466). -/
def State.noteRuns (s : State) (g : Agent) (l : List Run) : State := l.foldl (fun t r => t.noteRead g r.addr r.bytes) s

/-! ### Checks of the matrix and vector engines (R182, R200, R201) -/

/-- Whether a byte lies in a bank of core n's own scratchpad that n owns: what stops an operand otherwise (R201). -/
def State.ownHit (s : State) (n a : Nat) : Hit :=
  match s.place a with
  | .spd b off =>
    let p := (s.bankByte b off).1
    if p / 64 = n ∧ p < 1024 ∧ s.fld (R.SPD_BANK_OWNER p) F.SPD_BANK_OWNER_OWNER = n then
      (if s.bit (R.SPD_BANK_OWNER p) F.SPD_BANK_OWNER_PENDING then .wait else .ok a)
    else .denied
  | _ => .denied

/-- The first address of n bytes at a that is no operand address of a core, and whether a byte waits for a handover. -/
def State.ownSpan (s : State) (core a : Nat) : Nat → Option Nat × Bool
  | 0 => (none, false)
  | n + 1 =>
    match s.ownHit core a with
    | .denied => (some a, false)
    | .wait => let r := s.ownSpan core (a + 1) n; (r.1, true)
    | _ => s.ownSpan core (a + 1) n

/-- The same over runs. -/
def State.ownRuns (s : State) (core : Nat) : List Run → Option Nat × Bool
  | [] => (none, false)
  | r :: rest =>
    let x := s.ownSpan core r.addr r.bytes
    match x.1 with
    | some a => (some a, x.2)
    | none => let y := s.ownRuns core rest; (y.1, x.2 || y.2)

/-- Whether the span of runs lies in one diagonal region (R200). -/
def State.inDiagonal (s : State) (l : List Run) : Bool :=
  let reg (a : Nat) : Option (Nat × Nat) := match s.place a with
    | .spd b _ => if s.diagonal b then some (s.region b) else none
    | _ => none
  match l with
  | [] => true
  | r :: _ =>
    (reg r.addr).isSome && l.all (fun x => reg x.addr == reg r.addr && reg (x.addr + x.bytes - 1) == reg r.addr)

/-- What an engine's check of its operands says: go on, wait, or stop without writing, for an illegal format or shape or a denied address. -/
inductive Check where
  | go
  | wait
  | illegal
  | denied (a : Nat)
  deriving DecidableEq, Repr

/-- Joins two checks: an illegal format comes first, then a denied address, then a wait. -/
def Check.and : Check → Check → Check
  | .illegal, _ => .illegal
  | _, .illegal => .illegal
  | .denied a, _ => .denied a
  | _, .denied a => .denied a
  | .wait, _ => .wait
  | .go, c => c

/-- The check of an engine operand: a legal format of a layout that takes it, and every byte of its runs in the core's own banks; LAYOUT 3 lies in one diagonal region. -/
def State.checkOperand (s : State) (core : Nat) (d : Desc) (ok : Fmt → Bool) (rows : Nat) : Check :=
  match d.format with
  | none => .illegal
  | some f =>
    if !ok f || !layoutTakes d.layout f then .illegal
    else
      let l := d.runsFor f.bits rows
      if d.layout = 3 ∧ !s.inDiagonal l then .illegal
      else match s.ownRuns core l with
        | (some a, _) => .denied a
        | (none, w) => if w then .wait else .go

/-- Records on a core what stopped an engine operation; source is the SOURCE code of the engine (R182, R201). -/
def State.engineStop (s : State) (core source : Nat) : Check → State
  | .illegal => s.coreFmtIllegal core source
  | .denied a => s.coreDenied core source a
  | _ => s

/-- Reads the first rows of an operand of a core whose check passed: its codes, whether a bad word stops the command (R223), and the state with what the reads report. -/
def State.readOperand (s : State) (core : Nat) (d : Desc) (rows : Nat) : TRead × State :=
  match d.format with
  | none => ({}, s)
  | some f =>
    let l := d.runsFor f.bits rows
    let x := s.readRuns (s.coreAgent core) f.bits l
    (x, (s.noteRuns (s.coreAgent core) l).coreFlags core x.flags)

/-- An uncorrectable word in an engine's read stops the command with INTEGRITY (R223). -/
def State.engineBad (s : State) (core source : Nat) : State := (s.coreErr core ceSpdEcc source 0).endOnCore core stIntegrity

/-- Writes the first rows of an operand of a core whose check passed. -/
def State.writeOperand (s : State) (core : Nat) (d : Desc) (rows : Nat) (codes : List Nat) : State :=
  match d.format with
  | none => s
  | some f =>
    let x := s.writeRuns (s.coreAgent core) f.bits (d.runsFor f.bits rows) codes
    x.state.coreFlags core x.flags

/-- The values of codes with the flags that reading them sets. -/
def decodeAll (f : Fmt) (l : List Nat) : List Val × FmtFlags :=
  (l.map (fun c => (f.decode c).1), l.foldl (fun a c => a ||| (f.decode c).2) 0)

/-- Whether a core executes operations: it is active and not fenced, and no swap holds it. -/
def State.coreRuns (s : State) (n : Nat) : Bool :=
  s.coreActive n && !s.swapHolds n && s.fld (R.CORE_STATUS n) F.CORE_STATUS_STATE != 4

end Sys2Proof.Machine
end

