-- ==== Sys2Proof/Machine/Matrix.lean ====
section
/-! DEFINITION. The matrix engines: WLOAD, MATMUL, DRAIN and CLEAR, with zero points, block scales and requantisation (R181, R202 to R209, R230 to R243). -/

namespace Sys2Proof.Machine

/-! ### Pairs (R181, R202) -/

def isInt8 (f : Fmt) : Bool := f == .int8 || f == .uint8
def isInt4 (f : Fmt) : Bool := f == .int4 || f == .uint4

/-- The five formats that take block scales (R178). -/
def isBlock (f : Fmt) : Bool := f == .e4m3 || f == .e5m2 || f == .e3m2 || f == .e2m3 || f == .e2m1

/-- The class of an operand pair, none when it cannot be issued (R181). -/
def pairClass (a w : Fmt) : Option PairClass :=
  if isInt8 a && w == .tern2 then some .int4
  else if isInt4 a && isInt4 w then some .int2
  else if (isInt8 a || isInt4 a) && (isInt8 w || isInt4 w) then some .int1
  else if a == .e2m1 && w == .e2m1 then some .blk2
  else if isBlock a && isBlock w then some .blk1
  else if (a == .bf16 || a == .fp16) && (w == .bf16 || w == .fp16) then some .half
  else if a == .fp32 && w == .fp32 then some .single
  else none

/-- The tile depth of a class, and its steps per row (R202). -/
def PairClass.depth : PairClass → Nat
  | .int2 => 256 | .blk2 => 256 | .int4 => 512 | _ => 128
def PairClass.rowSteps : PairClass → Nat
  | .half => 4 | .single => 16 | _ => 1

/-- Whether the accumulators of a class are INT32. -/
def PairClass.isInt : PairClass → Bool
  | .int1 => true | .int2 => true | .int4 => true | _ => false

/-- The depths that a tile of a weight format may have: 4-bit weights pair at 128 or 256 (R202). -/
def tileDepthOk (w : Fmt) (k : Nat) : Bool :=
  match w with
  | .tern2 => k == 512
  | .int4 | .uint4 | .e2m1 => k == 128 || k == 256
  | _ => k == 128

/-- The formats of a weight. -/
def weightFmt (f : Fmt) : Bool := isInt8 f || isInt4 f || isBlock f || f == .tern2 || f == .bf16 || f == .fp16 || f == .fp32

/-- The formats of an activation. -/
def actFmt (f : Fmt) : Bool := weightFmt f && f != .tern2

/-! ### Side tensors (R232 to R236) -/

/-- The check of a side tensor of an operand of format f with n rows or columns and depth k (R232, R234). -/
def State.checkSide (s : State) (core : Nat) (f : Fmt) (k n : Nat) (side : Option (List Word)) : Check :=
  match side with
  | none => .go
  | some w =>
    let d := descOf w
    let flat := d.layout == 0 && d.d2 == 1 && d.d3 == 1
    if isInt8 f || isInt4 f then
      (if flat && d.format == some f && (d.d0 == 1 || d.d0 == n) && d.d1 == 1 then s.checkOperand core d (fun _ => true) d.rows else .illegal)
    else if isBlock f then
      (if flat && d.format == some .e8m0 && d.d0 == k / 32 && d.d1 == n then s.checkOperand core d (fun _ => true) d.rows else .illegal)
    else .illegal

/-- The codes of a side tensor, and the state with what reading it reports. -/
def State.readSide (s : State) (core : Nat) (side : Option (List Word)) : TRead × State :=
  match side with
  | none => ({}, s)
  | some w => s.readOperand core (descOf w) (descOf w).rows

/-- The zero point or the scale factor that side codes give row or column i at depth k, applied to a value: integers lose the zero point (R230), block-scaled values gain the power of two of their block, and 0xFF makes them NaN (R178, R243). -/
def applySide (f : Fmt) (side : List Nat) (depth i k : Nat) (v : Val) : Val :=
  match side with
  | [] => v
  | _ =>
    if isBlock f then
      v.mul ((Fmt.decode .e8m0 (side.getD (i * (depth / 32) + k / 32) 0)).1)
    else v.sub ((f.decode (side.getD (if side.length = 1 then 0 else i) 0)).1)

/-- The flags of reading scale codes. -/
def sideFlags (f : Fmt) (side : List Nat) : FmtFlags := if isBlock f then (decodeAll .e8m0 side).2 else 0

/-! ### The engines of a core -/

def Core.mat (k : Core) : MatEng → MatSt
  | .a => k.matA
  | .b => k.matB

def Core.setMat (k : Core) (e : MatEng) (m : MatSt) : Core :=
  match e with
  | .a => { k with matA := m }
  | .b => { k with matB := m }

def State.setMat (s : State) (n : Nat) (e : MatEng) (m : MatSt) : State := s.setCore n ((s.core n).setMat e m)

/-- The SOURCE code of a matrix engine (R227). -/
def matSource : MatEng → Nat
  | .a => 0
  | .b => 1

/-- Counts busy steps of a matrix engine (R228). -/
def State.matBusy (s : State) (n : Nat) (e : MatEng) (k : Nat) : State :=
  s.satAdd (R.CORE_PERF_MAT n) (match e with
    | .a => F.CORE_PERF_MAT_A_BUSY
    | .b => F.CORE_PERF_MAT_B_BUSY) k

def MatSt.set (m : MatSt) (b : Bool) : AccSet := if b then m.set1 else m.set0
def MatSt.setSet (m : MatSt) (b : Bool) (x : AccSet) : MatSt := if b then { m with set1 := x } else { m with set0 := x }

def AccSet.get (a : AccSet) (row col : Nat) : BitVec 32 := Store.get (fun _ => 0) a.acc (row * 128 + col)
def AccSet.put (a : AccSet) (row col : Nat) (v : BitVec 32) : AccSet := { a with acc := Store.set (fun _ => 0) a.acc (row * 128 + col) v }

/-- Writes a row of accumulators. -/
def AccSet.putRow (a : AccSet) (row : Nat) : Nat → List (BitVec 32) → AccSet
  | _, [] => a
  | c, v :: r => (a.put row c v).putRow row (c + 1) r

/-! ### WLOAD (R203, R231, R233) -/

/-- WLOAD reads a tile of DIM0 = K_t by 128 columns into the shadow tile, zero points subtracted and scales applied (DEDUCED, log 27). -/
def State.matWload (s : State) (n : Nat) (e : MatEng) (x : List Word) (side : Option (List Word)) : State :=
  let d := descOf x
  let src := matSource e
  match d.format with
  | none => s.engineStop n src .illegal
  | some f =>
    let chk := if !weightFmt f || d.cb.isSome || !tileDepthOk f d.d0 then Check.illegal
      else (s.checkOperand n d weightFmt 128).and (s.checkSide n f d.d0 128 side)
    match chk with
    | .go =>
      let t := s.readOperand n d 128
      let z := t.2.readSide n side
      if t.1.bad || z.1.bad then z.2.engineBad n src
      else
        let vs := decodeAll f t.1.codes
        let k := d.d0
        let el := (List.range (k * 128)).map (fun i => applySide f z.1.codes k (i % 128) (i / 128) (vs.1.getD (i % 128 * k + i / 128) (.fin false 0 0)))
        let m := (z.2.core n).mat e
        ((z.2.setMat n e { m with shadow := { valid := true, fmt := f, depth := k, elems := el } }).coreFmt n (vs.2 ||| sideFlags f z.1.codes)).matBusy n e
          (runBytes f.bits (k * 128) / 256)
    | .wait => s
    | c => s.engineStop n src c

/-! ### MATMUL (R203, R205 to R209, R280) -/

/-- An exact column sum in the making: the sum, and whether a NaN operand or an infinity times zero was met. -/
structure ColSum where
  sum : Option Val
  nan : Bool
  deriving DecidableEq, Repr

/-- Adds a product to a column sum (R206). -/
def ColSum.add (c : ColSum) (a w : Val) : ColSum :=
  let p := a.mul w
  { sum := some (match c.sum with
      | none => p
      | some t => t.add p)
    nan := c.nan || p == .nan }

/-- The column sum of a row of activations against a column of weights. -/
def colSum : List Val → List Val → ColSum → ColSum
  | a :: as, w :: ws, c => colSum as ws (c.add a w)
  | _, _, c => c

/-- Adds a column sum to an INT32 accumulator with saturation (R205). -/
def accInt (old : BitVec 32) (t : Val) : BitVec 32 × FmtFlags :=
  let x : Int := match t with
    | .fin s m e => if s then -((m * 2 ^ e.toNat : Nat) : Int) else ((m * 2 ^ e.toNat : Nat) : Int)
    | _ => 0
  let r := clampInt (-2147483648) 2147483647 (old.toInt + x)
  (BitVec.ofInt 32 r.1, if r.2 then flagSat else 0)

/-- Rounds a value to FP32 by RNE with the flag of an overflow alone. -/
def roundOvf (v : Val) : Nat × FmtFlags :=
  match v with
  | .nan => (toF32 .nan, 0)
  | _ => Fmt.encode .fp32 .rne 0 v

/-- Adds a column sum, rounded once, to an FP32 accumulator with RNE (R206). -/
def accFloat (old : BitVec 32) (c : ColSum) : BitVec 32 × FmtFlags :=
  let t := roundOvf (c.sum.getD (.fin false 0 0))
  let r := roundOvf ((ofF32 old.toNat).add (ofF32 t.1))
  (BitVec.ofNat 32 r.1, t.2 ||| r.2 ||| (if c.nan then flagNanIn else 0))

/-- One row of a MATMUL: the new accumulators of its 128 columns and the flags. -/
def matRow (isInt : Bool) (cols : List (List Val)) (acts : List Val) (old : List (BitVec 32)) : List (BitVec 32) × FmtFlags :=
  let rs := (cols.zip old).map (fun p =>
    let c := colSum acts p.1 { sum := none, nan := false }
    if isInt then accInt p.2 (c.sum.getD (.fin false 0 0)) else accFloat p.2 c)
  (rs.map (fun r => r.1), rs.foldl (fun a r => a ||| r.2) 0)

/-- The columns of a tile. -/
def Tile.columns (t : Tile) : List (List Val) :=
  (List.range 128).map (fun c => (List.range t.depth).map (fun k => t.elems.getD (k * 128 + c) (.fin false 0 0)))

/-- The rows of a MATMUL, from its row i on. -/
def matRows (isInt init : Bool) (cols : List (List Val)) (row : Nat) : List (List Val) → AccSet × FmtFlags → AccSet × FmtFlags
  | [], a => a
  | acts :: r, a =>
    let old := (List.range 128).map (fun c => if init then (0 : BitVec 32) else a.1.get row c)
    let x := matRow isInt cols acts old
    matRows isInt init cols (row + 1) r (a.1.putRow row 0 x.1, a.2 ||| x.2)

/-- Fills accumulator rows with free values: what a MATMUL against an invalid tile leaves, which the spec does not state (log 28). -/
def State.freeRows (s : State) (row : Nat) (a : AccSet) : Nat → AccSet × State
  | 0 => (a, s)
  | k + 1 =>
    let x := s.free
    x.2.freeRows row (a.put (row + k / 128) (k % 128) (x.1.setWidth 32)) k

/-- The activation descriptor with DIM0 as the row it streams: K_t elements, of a blocked layout only those below DIM0 (R280). -/
def actDesc (d : Desc) (k : Nat) : Desc := if d.cb.isSome then { d with d0 := min d.d0 k } else { d with d0 := k }

/-- A list cut into rows of k codes. -/
def rowsOf (k : Nat) (l : List Nat) : Nat → List (List Nat)
  | 0 => []
  | n + 1 => l.take k :: rowsOf k (l.drop k) n

/-- The rows of a MATMUL, with the engine m whose tile is active. -/
def State.matStream (s : State) (n : Nat) (e : MatEng) (d : Desc) (side : Option (List Word)) (set : Bool) (row count : Nat)
    (init : Bool) (m : MatSt) (fault : MatFault) (src : Nat) : State :=
  match d.format with
  | none => s.engineStop n src .illegal
  | some f =>
    let cls := pairClass f m.active.fmt
    let k := m.active.depth
    let typed := match (m.set set).cls, cls with
      | some c, some p => init || c.isInt == p.isInt
      | _, _ => true
    let shape := actFmt f && decide (row + count ≤ 1024)
    let fits := match cls with
      | some p => p.depth == k
      | none => false
    if !shape then s.engineStop n src .illegal
    else if !m.active.valid then
      let r := s.freeRows row (m.set set) (count * 128)
      r.2.setMat n e (m.setSet set (if init then { r.1 with cls := none } else r.1))
    else if !fits || !typed then s.engineStop n src .illegal
    else
      let ad := actDesc d k
      match (s.checkOperand n ad actFmt count).and (s.checkSide n f k count side) with
      | .go =>
        match fault with
        | .residue col => (s.setMat n e m).coreDetect n ceResidue src col.val false
        | .accDup col => (s.setMat n e m).coreDetect n ceAccDup src col.val false
        | .none =>
          let t := s.readOperand n ad count
          let z := t.2.readSide n side
          if t.1.bad || z.1.bad then z.2.engineBad n src
          else
            let isInt := (cls.getD .int1).isInt
            let codes := (rowsOf ad.d0 t.1.codes count).map (fun r => r ++ List.replicate (k - ad.d0) 0)
            let acts := (codes.zip (List.range count)).map (fun p =>
              (p.1.zip (List.range k)).map (fun q => applySide f z.1.codes k p.2 q.2 (f.decode q.1).1))
            let fl := (decodeAll f t.1.codes).2 ||| sideFlags f z.1.codes
            let a := matRows isInt init m.active.columns row acts (m.set set, fl)
            let a1 := { a.1 with cls := if init ∨ (m.set set).cls.isNone then cls else (m.set set).cls }
            ((z.2.setMat n e (m.setSet set a1)).coreFmt n a.2).matBusy n e (count * (cls.getD .int1).rowSteps)
      | .wait => s
      | c => s.engineStop n src c


/-- MATMUL streams COUNT rows against the active tile, the shadow tile made active first with SWAP. A residue or adder fault, or an armed injection, stops the command before anything is written (R208, R209). -/
def State.matMatmul (s : State) (n : Nat) (e : MatEng) (x : List Word) (side : Option (List Word)) (set : Bool) (row count : Nat)
    (init swap : Bool) (fault : MatFault) : State :=
  let d := descOf x
  let src := matSource e
  let m0 := (s.core n).mat e
  let m := if swap then { m0 with active := m0.shadow, shadow := {} } else m0
  let inj := (s.core n).inject
  match inj with
  | some (ie, col) =>
    if ie = e then (s.setCore n { s.core n with inject := none }).coreDetect n ceResidue src col true
    else s.matStream n e d side set row count init m fault src
  | none => s.matStream n e d side set row count init m fault src

/-! ### DRAIN (R203, R239 to R241) -/

/-- A requant entry applied to an INT32 accumulator for a destination of a range: the result and its flags (R239 to R241). -/
def requant (w : Nat) (acc : Int) (f : Fmt) (lo hi : Int) : Int × FmtFlags :=
  let m := signExt 32 w
  let sh := w / 2 ^ 32 % 64
  let zpc : Nat := w / 2 ^ 40 % 256
  let zp : Int := if f == .uint8 || f == .uint4 then Int.ofNat zpc else signExt 8 zpc
  let clamp := w / 2 ^ 48 % 4
  let p := acc * m
  let q : Int := if sh = 0 then p
    else
      let a : Nat := (p.natAbs + 2 ^ (sh - 1)) / 2 ^ sh
      if p < 0 then -(a : Int) else (a : Int)
  let r := q + zp
  let loC : Int := match clamp with
    | 1 => max lo zp
    | 2 => if lo < 0 then -hi else lo
    | _ => lo
  (min (max r loC) hi, (if r < lo ∨ hi < r then flagSat else 0) ||| (if clamp = 3 then flagFmtIllegal else 0))

/-- The destinations of a plain DRAIN: every format that a conversion of R187 reaches. -/
def drainFmt (f : Fmt) : Bool := f != .fp64 && f != .qfix32 && f != .tern2

/-- The destinations of a requantising DRAIN (R240). -/
def requantFmt (f : Fmt) : Bool := f == .int16 || isInt8 f || isInt4 f

/-- DRAIN writes COUNT rows of a set to the destination, through the requant table or by plain conversion. stream is SR_STREAM as the operation issued. -/
def State.matDrain (s : State) (n : Nat) (e : MatEng) (x : List Word) (table : Option (List Word)) (set : Bool) (row count : Nat)
    (rnd : Rnd) (stream : BitVec 32) : State :=
  let d0 := descOf x
  let d := { d0 with d0 := min 128 d0.d0 }
  let src := matSource e
  let a := ((s.core n).mat e).set set
  let isInt := match a.cls with
    | some c => c.isInt
    | none => true
  let tabCheck := match table with
    | none => Check.go
    | some w =>
      let t := descOf w
      if t.layout == 0 && (t.d0 == 1 || t.d0 == 128) && t.d1 == 1 && t.d2 == 1 && t.d3 == 1 && isInt then
        s.checkOperand n { t with fmt := 0 } (fun _ => true) 1
      else .illegal
  match d.format with
  | none => s.engineStop n src .illegal
  | some f =>
    let okFmt := if table.isSome then requantFmt f else drainFmt f
    if !okFmt || decide (1024 < row + count) then s.engineStop n src .illegal
    else
      match tabCheck.and (s.checkOperand n d (fun _ => true) count) with
      | .go =>
        let t := match table with
          | none => (({} : TRead), s)
          | some w => s.readOperand n { descOf w with fmt := 0 } 1
        if t.1.bad then t.2.engineBad n src
        else
          let seed := (s.core n).seed
          let outs := (List.range (count * d.d0)).map (fun i =>
            let r := i / d.d0
            let c := i % d.d0
            let v := a.get (row + r) c
            match table with
            | some _ =>
              let y := requant (t.1.codes.getD (if t.1.codes.length = 1 then 0 else c) 0) v.toInt f ((f.int?.getD (0, 0)).1) ((f.int?.getD (0, 0)).2)
              (toTwos f.bits y.1, y.2)
            | none =>
              let draw := srDraw seed (stream.setWidth 64) (BitVec.ofNat 64 (r * d0.d0 + c))
              if isInt then f.encode rnd draw (.ofInt v.toInt)
              else
                let w := Fmt.decode .fp32 v.toNat
                let y := f.encode rnd draw w.1
                (y.1, y.2 ||| w.2))
          let fl := outs.foldl (fun z y => z ||| y.2) 0
          (t.2.writeOperand n d count (outs.map (fun y => y.1))).coreFmt n fl
      | .wait => s
      | c => s.engineStop n src c

/-- CLEAR zeroes COUNT rows of a set. -/
def State.matClear (s : State) (n : Nat) (e : MatEng) (set : Bool) (row count : Nat) : State :=
  let m := (s.core n).mat e
  let a := m.set set
  s.setMat n e (m.setSet set { a with acc := a.acc.filter (fun p => !(decide (row * 128 ≤ p.1 ∧ p.1 < (row + count) * 128))) })

/-! ### The commands: an operation issued on a core -/

/-- A descriptor of a core. -/
def State.desc (s : State) (n i : Nat) : List Word := (s.core n).ctx.descWords i

/-- The side tensor that a descriptor names by AUX, none for 0xFFFF (R199, R233). -/
def State.auxDesc (s : State) (n : Nat) (x : List Word) : Option (List Word) :=
  let a := (descOf x).aux
  if a = 0xFFFF then none else some (s.desc n a)

/-- The side tensor of the next operation of a role: the bound one, used up, or the named one (R233, R235). -/
def State.takeSide (s : State) (n : Nat) (e : MatEng) (role : Nat) (named : Option (List Word)) : Option (List Word) × State :=
  let m := (s.core n).mat e
  match role with
  | 0 => match m.bindMul with
    | some w => (some w, s.setMat n e { m with bindMul := none })
    | none => (named, s)
  | 1 => match m.bindLoad with
    | some w => (some w, s.setMat n e { m with bindLoad := none })
    | none => (named, s)
  | _ => match m.bindDrain with
    | some w => (some w, s.setMat n e { m with bindDrain := none })
    | none => (named, s)

/-- MAT_WLOAD (R203). -/
def execMatWload (n : Fin 16) (e : MatEng) (x : BitVec 8) (s : State) : Out :=
  .next (
    if !s.coreRuns n.val then s
    else
      let d := s.desc n.val x.toNat
      let t := s.takeSide n.val e 1 (s.auxDesc n.val d)
      t.2.matWload n.val e d t.1)

/-- MAT_MATMUL (R203, R205 to R209). -/
def execMatMatmul (n : Fin 16) (e : MatEng) (x : BitVec 8) (set : Bool) (row : BitVec 10) (count : BitVec 11) (init swap : Bool) (fault : MatFault) (s : State) : Out :=
  .next (
    if !s.coreRuns n.val then s
    else
      let d := s.desc n.val x.toNat
      let t := s.takeSide n.val e 0 (s.auxDesc n.val d)
      t.2.matMatmul n.val e d t.1 set row.toNat count.toNat init swap fault)

/-- The requant descriptor that DESC_Q names, none for 0xFF (R203, R233). -/
def State.requantDesc (s : State) (n q : Nat) : Option (List Word) := if q = 0xFF then none else some (s.desc n q)

/-- MAT_DRAIN (R203, R239 to R241). -/
def execMatDrain (n : Fin 16) (e : MatEng) (x q : BitVec 8) (set : Bool) (row : BitVec 10) (count : BitVec 11) (rnd : Rnd) (s : State) : Out :=
  .next (
    if !s.coreRuns n.val then s
    else
      let t := s.takeSide n.val e 2 (s.requantDesc n.val q.toNat)
      t.2.matDrain n.val e (s.desc n.val x.toNat) t.1 set row.toNat count.toNat rnd (s.core n.val).ctx.srStream)

/-- MAT_CLEAR (R203). -/
def execMatClear (n : Fin 16) (e : MatEng) (set : Bool) (row : BitVec 10) (count : BitVec 11) (s : State) : Out :=
  .next (if !s.coreRuns n.val then s else s.matClear n.val e set row.toNat count.toNat)

end Sys2Proof.Machine
end

