-- ==== Sys2Proof/Machine/Vector.lean ====
section
/-! DEFINITION. The vector engine: element-wise operations, elementary functions, reductions, softmax and normalisation statistics, and block quantisation (R189, R210 to R214). -/

namespace Sys2Proof.Machine

/-- The SOURCE code of the vector engine (R227). -/
def vecSource : Nat := 2

/-- The formats that the vector engine reads and writes (R180). -/
def vecReads (f : Fmt) : Bool := f != .fp64 && f != .qfix32
def vecWrites (f : Fmt) : Bool := vecReads f && f != .tern2

/-- An input of the vector engine as an FP32 value: exact but for INT32, which rounds to nearest even without a flag (R212). -/
def vecIn (f : Fmt) (c : Nat) : Val := if f == .int32 then roundF32 (f.decode c).1 else (f.decode c).1

/-- A result rounded once to the destination (R212): a NaN that the operation made sets NAN_IN where it leaves FP32 (R186, R187). -/
def vecOut (f : Fmt) (rnd : Rnd) (draw : Nat) (v : Val) : Nat × FmtFlags :=
  let r := f.encode rnd draw v
  if f == .fp32 && v == .nan then (r.1, 0) else r

/-- The rows of an operand that hold its first k elements. -/
def Desc.rowsFor (d : Desc) (k : Nat) : Nat := (k + d.d0 - 1) / d.d0

/-- The check of a source of which an operation reads k elements. -/
def State.vecCheck (s : State) (n : Nat) (d : Desc) (k : Nat) : Check := s.checkOperand n d vecReads (d.rowsFor k)

/-- What the vector engine reads: values, flags, and whether a bad word stops the command. -/
structure VRead where
  vals : List Val := []
  flags : FmtFlags := 0
  bad : Bool := false
  deriving DecidableEq, Repr

/-- Reads the first k elements of a source whose check passed. -/
def State.vecRead (s : State) (n : Nat) (d : Desc) (k : Nat) : VRead × State :=
  let t := s.readOperand n d (d.rowsFor k)
  let f := d.format.getD .fp32
  let l := t.1.codes.take k
  ({ vals := l.map (vecIn f), flags := (decodeAll f l).2, bad := t.1.bad }, t.2)

/-- Counts the steps in which the engine processed k elements (R210, R228): 256 a step, 512 of BF16 and FP16, 64 of an elementary function. -/
def State.vecBusy (s : State) (n : Nat) (f : Fmt) (slow : Bool) (k : Nat) : State :=
  let r := if slow then 64 else if f == .bf16 || f == .fp16 then 512 else 256
  s.satAdd (R.CORE_PERF_VX n) F.CORE_PERF_VX_VEC_BUSY ((k + r - 1) / r)

/-- Writes the results of an operation, rounded to the destination, with the flags of its reads and of the rounding. -/
def State.vecWrite (s : State) (n : Nat) (d : Desc) (rnd : Rnd) (stream : BitVec 32) (fl : FmtFlags) (vs : List Val) : State :=
  let f := d.format.getD .fp32
  let seed := (s.core n).seed
  let outs := (vs.zip (List.range vs.length)).map (fun p => vecOut f rnd (srDraw seed (stream.setWidth 64) (BitVec.ofNat 64 p.2)) p.1)
  (s.writeOperand n d d.rows (outs.map (fun o => o.1))).coreFmt n (outs.foldl (fun a o => a ||| o.2) fl)

/-- The plain floating-point zero. -/
def valZero : Val := .fin false 0 0

/-! ### Element-wise operations (R210, R211) -/

/-- An element-wise operation of up to two sources and the present destination. The second source may be negated, or give one value per row; the first may be replaced by its magnitude. A second source that is absent is +0. -/
def State.vecElem (s : State) (n : Nat) (dst src1 : List Word) (src2 : Option (List Word)) (useDst slow abs1 neg2 row2 : Bool)
    (rnd : Rnd) (stream : BitVec 32) (op : Val → Val → Val → Val) : State :=
  let d := descOf dst
  let a := descOf src1
  let k := d.elems
  let chk2 := match src2 with
    | none => Check.go
    | some w => if row2 then (if (descOf w).d0 = 1 then s.vecCheck n (descOf w) d.rows else .illegal) else s.vecCheck n (descOf w) k
  match (s.checkOperand n d vecWrites d.rows).and ((s.vecCheck n a k).and chk2) with
  | .go =>
    let x := s.vecRead n a k
    let y := match src2 with
      | none => (({} : VRead), x.2)
      | some w => x.2.vecRead n (descOf w) (if row2 then d.rows else k)
    let z := if useDst then y.2.vecRead n d k else ({}, y.2)
    if x.1.bad || y.1.bad || z.1.bad then z.2.engineBad n vecSource
    else
      let outs := (List.range k).map (fun i =>
        let u := x.1.vals.getD i valZero
        let v := y.1.vals.getD (if row2 then i / d.d0 else i) valZero
        let w := z.1.vals.getD i valZero
        op (if abs1 then u.abs else u) (if neg2 && src2.isSome then v.neg else v) w)
      (z.2.vecWrite n d rnd stream (x.1.flags ||| y.1.flags ||| z.1.flags) outs).vecBusy n (d.format.getD .fp32) slow k
  | .wait => s
  | c => s.engineStop n vecSource c

/-- An element-wise operation of two sources with the modifiers of its IMM field. -/
def State.vecTwo (s : State) (n : Nat) (dst src1 : List Word) (src2 : Option (List Word)) (useDst : Bool) (imm : BitVec 6) (rnd : Rnd)
    (stream : BitVec 32) (op : Val → Val → Val → Val) : State :=
  s.vecElem n dst src1 src2 useDst false (imm.getLsbD 2) (imm.getLsbD 0) (imm.getLsbD 1) rnd stream op

/-- An elementary function of one source (R212): a function of FP32 codes. -/
def State.vecFun (s : State) (n : Nat) (dst src1 : List Word) (imm : BitVec 6) (rnd : Rnd) (stream : BitVec 32) (fn : Val → Val) : State :=
  s.vecElem n dst src1 none false true (imm.getLsbD 2) false false rnd stream (fun x _ _ => fn x)

/-- The value of an FP32 function that Config leaves open, at an FP32 value. -/
def viaF32 (g : BitVec 32 → BitVec 32) (v : Val) : Val := ofF32 (g (BitVec.ofNat 32 (toF32 v))).toNat

/-- The value 1. -/
def valOne : Val := .fin false 1 0

/-- Whether a value is a zero. -/
def Val.isZero : Val → Bool
  | .fin _ m _ => m == 0
  | _ => false

/-- The elementary functions: IEEE 754-2019 gives their results at NaN, zeros and infinities (R183), the published algorithms the others (R212). -/
def fnExp : Val → Val
  | .nan => .nan
  | .inf s => if s then valZero else .inf false
  | v => if v.isZero then valOne else viaF32 Config.expF32 v
def fnLog : Val → Val
  | .nan => .nan
  | .inf s => if s then .nan else .inf false
  | .fin s m e => if m = 0 then .inf true else if s then .nan else if toF32 (.fin s m e) = 0x3F800000 then valZero else viaF32 Config.logF32 (.fin s m e)
def fnRecip : Val → Val
  | .nan => .nan
  | .inf s => .fin s 0 0
  | .fin s m e => if m = 0 then .inf s else viaF32 Config.recipF32 (.fin s m e)
def fnRsqrt : Val → Val
  | .nan => .nan
  | .inf s => if s then .nan else valZero
  | .fin s m e => if m = 0 then .inf s else if s then .nan else viaF32 Config.rsqrtF32 (.fin s m e)
def fnTanh : Val → Val
  | .nan => .nan
  | .inf s => .fin s 1 0
  | .fin s m e => if m = 0 then .fin s 0 0 else viaF32 Config.tanhF32 (.fin s m e)
def fnSigmoid : Val → Val
  | .nan => .nan
  | .inf s => if s then valZero else valOne
  | v => viaF32 Config.sigmoidF32 v
def fnGelu : Val → Val
  | .nan => .nan
  | v => viaF32 Config.geluF32 v

def State.vecAdd (s : State) (n : Nat) (dst src1 src2 : List Word) (imm : BitVec 6) (rnd : Rnd) (stream : BitVec 32) : State :=
  s.vecTwo n dst src1 (some src2) false imm rnd stream (fun x y _ => x.add y)
def State.vecMul (s : State) (n : Nat) (dst src1 src2 : List Word) (imm : BitVec 6) (rnd : Rnd) (stream : BitVec 32) : State :=
  s.vecTwo n dst src1 (some src2) false imm rnd stream (fun x y _ => x.mul y)
def State.vecFma (s : State) (n : Nat) (dst src1 src2 : List Word) (imm : BitVec 6) (rnd : Rnd) (stream : BitVec 32) : State :=
  s.vecTwo n dst src1 (some src2) true imm rnd stream (fun x y z => (x.mul y).add z)
def State.vecMax (s : State) (n : Nat) (dst src1 : List Word) (src2 : Option (List Word)) (imm : BitVec 6) (rnd : Rnd) (stream : BitVec 32) : State :=
  s.vecTwo n dst src1 src2 false imm rnd stream (fun x y _ => x.max y)
def State.vecMin (s : State) (n : Nat) (dst src1 src2 : List Word) (imm : BitVec 6) (rnd : Rnd) (stream : BitVec 32) : State :=
  s.vecTwo n dst src1 (some src2) false imm rnd stream (fun x y _ => x.min y)
def State.vecCvt (s : State) (n : Nat) (dst src1 : List Word) (imm : BitVec 6) (rnd : Rnd) (stream : BitVec 32) : State :=
  s.vecElem n dst src1 none false false (imm.getLsbD 2) false false rnd stream (fun x _ _ => x)

/-! ### Block quantisation (R189, R211) -/

/-- The largest magnitude of a block. -/
def blockMax : List Val → Val
  | [] => valZero
  | v :: r => v.abs.max (blockMax r)

/-- One scaled element of a block: a magnitude above the format's largest finite value saturates and sets SAT, in FP8E5M2 too (R189); every other element converts by R187. -/
def quantElem (f : Fmt) (rnd : Rnd) (draw : Nat) (v : Val) : Nat × FmtFlags :=
  match f.float?, v with
  | some l, .fin s m e => if l.exceeds m e then (l.withSign s l.maxCode, flagSat) else f.encode rnd draw v
  | _, _ => f.encode rnd draw v

/-- A block quantised to a format: its scale code, its element codes, and the flags. i is the linear index of its first element. -/
def quantBlock (f : Fmt) (rnd : Rnd) (seed stream : Word) (i : Nat) (l : List Val) : Nat × List Nat × FmtFlags :=
  match blockMax l with
  | .fin _ m e =>
    if m = 0 then (0, l.map (fun _ => 0), 0)
    else
      let c := clampInt (-127) 127 ((Nat.log2 m : Int) + e - blockEmax f)
      let outs := (l.zip (List.range l.length)).map (fun p =>
        quantElem f rnd (srDraw seed stream (BitVec.ofNat 64 (i + p.2))) (p.1.mul (.fin false 1 (-c.1))))
      ((c.1 + 127).toNat, outs.map (fun o => o.1), outs.foldl (fun a o => a ||| o.2) (if c.2 then flagSat else 0))
  | _ =>
    let code := match f with
      | .e4m3 => 0x7F
      | .e5m2 => 0x7E
      | _ => 0
    (0xFF, l.map (fun _ => code), flagNanIn)

/-- A row quantised block by block: k blocks of 32 elements. -/
def quantRow (f : Fmt) (rnd : Rnd) (seed stream : Word) (i : Nat) (l : List Val) : Nat → List (Nat × List Nat × FmtFlags)
  | 0 => []
  | k + 1 => quantBlock f rnd seed stream i (l.take 32) :: quantRow f rnd seed stream (i + 32) (l.drop 32) k

/-- BQUANT: elements to the destination, scales to the tensor that its AUX names. -/
def State.vecBquant (s : State) (n : Nat) (dst src1 : List Word) (scale : Option (List Word)) (rnd : Rnd) (stream : BitVec 32) : State :=
  let d := descOf dst
  let a := descOf src1
  let k := d.elems
  let nb := (d.d0 + 31) / 32
  let chk := match scale with
    | none => Check.illegal
    | some w =>
      let t := descOf w
      if t.format == some .e8m0 && t.layout == 0 && t.d0 == nb && t.d1 == d.d1 && t.d2 == d.d2 && t.d3 == d.d3 then
        s.checkOperand n t (fun _ => true) d.rows
      else .illegal
  match (s.checkOperand n d isBlock d.rows).and ((s.checkOperand n a (fun f => f == .fp32 || f == .bf16 || f == .fp16) (a.rowsFor k)).and chk) with
  | .go =>
    let x := s.vecRead n a k
    if x.1.bad then x.2.engineBad n vecSource
    else
      let f := d.format.getD .e4m3
      let seed := (s.core n).seed
      let bs : List (Nat × List Nat × FmtFlags) := ((List.range d.rows).map (fun r =>
        quantRow f rnd seed (stream.setWidth 64) (r * d.d0) ((x.1.vals.drop (r * d.d0)).take d.d0) nb)).flatten
      let s1 := x.2.writeOperand n d d.rows ((bs.map (fun b => b.2.1)).flatten)
      let s2 := match scale with
        | some w => s1.writeOperand n (descOf w) d.rows (bs.map (fun (b : Nat × List Nat × FmtFlags) => b.1))
        | none => s1
      (s2.coreFmt n (bs.foldl (fun z (b : Nat × List Nat × FmtFlags) => z ||| b.2.2) x.1.flags)).vecBusy n (a.format.getD .fp32) false k
  | .wait => s
  | c => s.engineStop n vecSource c

/-! ### Reductions (R213) -/

/-- Adds two FP32 values to nearest even; a finite sum that overflows sets OVF_INF. -/
def addF (x : Val × FmtFlags) (y : Val) : Val × FmtFlags :=
  let t := x.1.add y
  (roundF32 t, x.2 ||| (match t, roundF32 t with
    | .fin _ _ _, .inf _ => flagOvfInf
    | _, _ => 0))

/-- Every 256th element of a list from its first on. -/
def strided : List Val → Nat → List Val
  | _, 0 => []
  | [], _ => []
  | v :: r, k + 1 => v :: strided (r.drop 255) k

/-- The sum of a lane, in ascending order from +0. -/
def laneSum (l : List Val) : Val × FmtFlags := l.foldl addF (valZero, 0)

/-- One level of the tree: lanes 2 j and 2 j + 1 added. -/
def treeLevel : List (Val × FmtFlags) → List (Val × FmtFlags)
  | a :: b :: r => ((addF a b.1).1, (addF a b.1).2 ||| b.2) :: treeLevel r
  | l => l

/-- The sum over n elements in the order of R213. -/
def vecSum (l : List Val) : Val × FmtFlags :=
  let lanes := (List.range 256).map (fun j => laneSum (strided (l.drop j) (l.length / 256 + 1)))
  ((List.range 8).foldl (fun t _ => treeLevel t) lanes).headD (valZero, 0)

/-- The maximum over elements; a NaN gives a NaN. -/
def vecMaxOf : List Val → Val
  | [] => .inf true
  | [v] => v
  | v :: r => v.max (vecMaxOf r)

/-- The rows of a list of values, k rows of w. -/
def valRows (w : Nat) (l : List Val) : Nat → List (List Val)
  | 0 => []
  | k + 1 => l.take w :: valRows w (l.drop w) k

/-- RSUM and RMAX: row i of the source gives element i of the destination, with ACC combined with its present value. -/
def State.vecReduce (s : State) (n : Nat) (dst src1 : List Word) (acc : Bool) (rnd : Rnd) (stream : BitVec 32)
    (red : List Val → Val × FmtFlags) (comb : Val → Val → Val) : State :=
  let d := descOf dst
  let a := descOf src1
  let k := d.elems
  match (s.checkOperand n d vecWrites d.rows).and (s.checkOperand n a vecReads k) with
  | .go =>
    let x := s.vecRead n a (k * a.d0)
    let z := if acc then x.2.vecRead n d k else ({}, x.2)
    if x.1.bad || z.1.bad then z.2.engineBad n vecSource
    else
      let rs := (valRows a.d0 x.1.vals k).map red
      let outs := (rs.zip (List.range k)).map (fun p => if acc then comb (z.1.vals.getD p.2 valZero) p.1.1 else p.1.1)
      (z.2.vecWrite n d rnd stream (rs.foldl (fun f r => f ||| r.2) (x.1.flags ||| z.1.flags)) outs).vecBusy n (a.format.getD .fp32) false (k * a.d0)
  | .wait => s
  | c => s.engineStop n vecSource c

def State.vecRsum (s : State) (n : Nat) (dst src1 : List Word) (imm : BitVec 6) (rnd : Rnd) (stream : BitVec 32) : State :=
  s.vecReduce n dst src1 (imm.getLsbD 0) rnd stream vecSum (fun x y => x.add y)
def State.vecRmax (s : State) (n : Nat) (dst src1 : List Word) (imm : BitVec 6) (rnd : Rnd) (stream : BitVec 32) : State :=
  s.vecReduce n dst src1 (imm.getLsbD 0) rnd stream (fun l => (vecMaxOf l, 0)) (fun x y => x.max y)

/-! ### Statistics (R210, R214) -/

/-- Whether a descriptor holds pairs of FP32: DIM0 = 2 (log 29). -/
def Desc.f32Pairs (d : Desc) : Bool := d.d0 == 2 && d.format == some .fp32

/-- One row of SMSTAT: the new m, l and the factor c, with flags. -/
def smRow (m l : Val) (sc : List Val) : (Val × Val × Val) × FmtFlags :=
  let mn := m.max (vecMaxOf sc)
  if mn = .inf true then
    (let p := addF (roundF32 (l.mul valOne), 0) valZero
     ((mn, p.1, valOne), p.2))
  else
    let c := fnExp (roundF32 (m.sub mn))
    let t := vecSum (sc.map (fun v => fnExp (roundF32 (v.sub mn))))
    let p := addF (roundF32 (l.mul c), t.2) t.1
    ((mn, p.1, c), p.2)

/-- SMSTAT: the statistics (m, l) of each row stand in the destination as FP32 pairs; the factors go to the tensor that its AUX names (R211; log 29). -/
def State.vecSmstat (s : State) (n : Nat) (dst src1 : List Word) (fac : Option (List Word)) : State :=
  let d := descOf dst
  let a := descOf src1
  let k := d.rows
  let chk := match fac with
    | none => Check.illegal
    | some w => if (descOf w).format == some .fp32 && (descOf w).elems == k then s.checkOperand n (descOf w) (fun _ => true) (descOf w).rows else .illegal
  if !d.f32Pairs then s.engineStop n vecSource .illegal
  else match (s.checkOperand n d vecWrites k).and ((s.checkOperand n a vecReads k).and chk) with
  | .go =>
    let x := s.vecRead n a (k * a.d0)
    let z := x.2.vecRead n d (2 * k)
    if x.1.bad || z.1.bad then z.2.engineBad n vecSource
    else
      let rs : List ((Val × Val × Val) × FmtFlags) := ((valRows a.d0 x.1.vals k).zip (List.range k)).map (fun p =>
        smRow (z.1.vals.getD (2 * p.2) valZero) (z.1.vals.getD (2 * p.2 + 1) valZero) p.1)
      let s1 := z.2.writeOperand n d k ((rs.map (fun r => [toF32 r.1.1, toF32 r.1.2.1])).flatten)
      let s2 := match fac with
        | some w => s1.writeOperand n (descOf w) (descOf w).rows (rs.map (fun (r : (Val × Val × Val) × FmtFlags) => toF32 r.1.2.2))
        | none => s1
      (s2.coreFmt n (rs.foldl (fun f (r : (Val × Val × Val) × FmtFlags) => f ||| r.2) (x.1.flags ||| z.1.flags))).vecBusy n (a.format.getD .fp32) false (k * a.d0)
  | .wait => s
  | c => s.engineStop n vecSource c

/-- SMLSE: m + log(l) of each row's statistics, −∞ where l = 0. -/
def State.vecSmlse (s : State) (n : Nat) (dst src1 : List Word) (rnd : Rnd) (stream : BitVec 32) : State :=
  let d := descOf dst
  let a := descOf src1
  let k := d.elems
  if !a.f32Pairs then s.engineStop n vecSource .illegal
  else match (s.checkOperand n d vecWrites d.rows).and (s.checkOperand n a vecReads k) with
  | .go =>
    let x := s.vecRead n a (2 * k)
    if x.1.bad then x.2.engineBad n vecSource
    else
      let outs := (List.range k).map (fun i =>
        let m := x.1.vals.getD (2 * i) valZero
        let l := x.1.vals.getD (2 * i + 1) valZero
        if l.isZero then .inf true else m.add (fnLog l))
      (x.2.vecWrite n d rnd stream x.1.flags outs).vecBusy n (d.format.getD .fp32) false k
  | .wait => s
  | c => s.engineStop n vecSource c

/-- NSTAT: the mean and the sum of squares of each row, as a pair (log 29). -/
def State.vecNstat (s : State) (n : Nat) (dst src1 : List Word) (rnd : Rnd) (stream : BitVec 32) : State :=
  let d := descOf dst
  let a := descOf src1
  let k := d.rows
  if d.d0 ≠ 2 then s.engineStop n vecSource .illegal
  else match (s.checkOperand n d vecWrites k).and (s.checkOperand n a vecReads k) with
  | .go =>
    let x := s.vecRead n a (k * a.d0)
    if x.1.bad then x.2.engineBad n vecSource
    else
      let rs := (valRows a.d0 x.1.vals k).map (fun l =>
        let t := vecSum l
        let q := vecSum (l.map (fun v => roundF32 (v.mul v)))
        ([t.1.div (.ofInt (a.d0 : Int)), q.1], t.2 ||| q.2))
      (x.2.vecWrite n d rnd stream (rs.foldl (fun f r => f ||| r.2) x.1.flags) ((rs.map (fun r => r.1)).flatten)).vecBusy n (a.format.getD .fp32) false (k * a.d0)
  | .wait => s
  | c => s.engineStop n vecSource c

/-! ### An operation issued on a core, and the commands -/

/-- SR_STREAM of a core. -/
def State.srStream (s : State) (n : Nat) : BitVec 32 := (s.core n).ctx.srStream

/-- The second source of MAX: none for 0xFF (R210). -/
def State.maxSrc2 (s : State) (n : Nat) (src2 : BitVec 8) : Option (List Word) := if src2 = 0xFF then none else some (s.desc n src2.toNat)

/-- VEC_ADD (R210, R211). -/
def execVecAdd (n : Fin 16) (dst src1 src2 : BitVec 8) (imm : BitVec 6) (rnd : Rnd) (s : State) : Out :=
  .next (if !s.coreRuns n.val then s else s.vecAdd n.val (s.desc n.val dst.toNat) (s.desc n.val src1.toNat) (s.desc n.val src2.toNat) imm rnd (s.srStream n.val))

/-- VEC_MUL (R210, R211). -/
def execVecMul (n : Fin 16) (dst src1 src2 : BitVec 8) (imm : BitVec 6) (rnd : Rnd) (s : State) : Out :=
  .next (if !s.coreRuns n.val then s else s.vecMul n.val (s.desc n.val dst.toNat) (s.desc n.val src1.toNat) (s.desc n.val src2.toNat) imm rnd (s.srStream n.val))

/-- VEC_FMA (R210, R211). -/
def execVecFma (n : Fin 16) (dst src1 src2 : BitVec 8) (imm : BitVec 6) (rnd : Rnd) (s : State) : Out :=
  .next (if !s.coreRuns n.val then s else s.vecFma n.val (s.desc n.val dst.toNat) (s.desc n.val src1.toNat) (s.desc n.val src2.toNat) imm rnd (s.srStream n.val))

/-- VEC_MAX (R210, R211). -/
def execVecMax (n : Fin 16) (dst src1 src2 : BitVec 8) (imm : BitVec 6) (rnd : Rnd) (s : State) : Out :=
  .next (if !s.coreRuns n.val then s else s.vecMax n.val (s.desc n.val dst.toNat) (s.desc n.val src1.toNat) (s.maxSrc2 n.val src2) imm rnd (s.srStream n.val))

/-- VEC_MIN (R210, R211). -/
def execVecMin (n : Fin 16) (dst src1 src2 : BitVec 8) (imm : BitVec 6) (rnd : Rnd) (s : State) : Out :=
  .next (if !s.coreRuns n.val then s else s.vecMin n.val (s.desc n.val dst.toNat) (s.desc n.val src1.toNat) (s.desc n.val src2.toNat) imm rnd (s.srStream n.val))

/-- VEC_CVT (R187, R210). -/
def execVecCvt (n : Fin 16) (dst src1 _src2 : BitVec 8) (imm : BitVec 6) (rnd : Rnd) (s : State) : Out :=
  .next (if !s.coreRuns n.val then s else s.vecCvt n.val (s.desc n.val dst.toNat) (s.desc n.val src1.toNat) imm rnd (s.srStream n.val))

/-- VEC_BQUANT (R189, R211). -/
def execVecBquant (n : Fin 16) (dst src1 _src2 : BitVec 8) (_imm : BitVec 6) (rnd : Rnd) (s : State) : Out :=
  .next (if !s.coreRuns n.val then s else s.vecBquant n.val (s.desc n.val dst.toNat) (s.desc n.val src1.toNat) (s.auxDesc n.val (s.desc n.val dst.toNat)) rnd (s.srStream n.val))

/-- VEC_EXP (R212). -/
def execVecExp (n : Fin 16) (dst src1 _src2 : BitVec 8) (imm : BitVec 6) (rnd : Rnd) (s : State) : Out :=
  .next (if !s.coreRuns n.val then s else s.vecFun n.val (s.desc n.val dst.toNat) (s.desc n.val src1.toNat) imm rnd (s.srStream n.val) fnExp)

/-- VEC_LOG (R212). -/
def execVecLog (n : Fin 16) (dst src1 _src2 : BitVec 8) (imm : BitVec 6) (rnd : Rnd) (s : State) : Out :=
  .next (if !s.coreRuns n.val then s else s.vecFun n.val (s.desc n.val dst.toNat) (s.desc n.val src1.toNat) imm rnd (s.srStream n.val) fnLog)

/-- VEC_RECIP (R212). -/
def execVecRecip (n : Fin 16) (dst src1 _src2 : BitVec 8) (imm : BitVec 6) (rnd : Rnd) (s : State) : Out :=
  .next (if !s.coreRuns n.val then s else s.vecFun n.val (s.desc n.val dst.toNat) (s.desc n.val src1.toNat) imm rnd (s.srStream n.val) fnRecip)

/-- VEC_RSQRT (R212). -/
def execVecRsqrt (n : Fin 16) (dst src1 _src2 : BitVec 8) (imm : BitVec 6) (rnd : Rnd) (s : State) : Out :=
  .next (if !s.coreRuns n.val then s else s.vecFun n.val (s.desc n.val dst.toNat) (s.desc n.val src1.toNat) imm rnd (s.srStream n.val) fnRsqrt)

/-- VEC_TANH (R212). -/
def execVecTanh (n : Fin 16) (dst src1 _src2 : BitVec 8) (imm : BitVec 6) (rnd : Rnd) (s : State) : Out :=
  .next (if !s.coreRuns n.val then s else s.vecFun n.val (s.desc n.val dst.toNat) (s.desc n.val src1.toNat) imm rnd (s.srStream n.val) fnTanh)

/-- VEC_SIGMOID (R212). -/
def execVecSigmoid (n : Fin 16) (dst src1 _src2 : BitVec 8) (imm : BitVec 6) (rnd : Rnd) (s : State) : Out :=
  .next (if !s.coreRuns n.val then s else s.vecFun n.val (s.desc n.val dst.toNat) (s.desc n.val src1.toNat) imm rnd (s.srStream n.val) fnSigmoid)

/-- VEC_GELU (R212). -/
def execVecGelu (n : Fin 16) (dst src1 _src2 : BitVec 8) (imm : BitVec 6) (rnd : Rnd) (s : State) : Out :=
  .next (if !s.coreRuns n.val then s else s.vecFun n.val (s.desc n.val dst.toNat) (s.desc n.val src1.toNat) imm rnd (s.srStream n.val) fnGelu)

/-- VEC_RSUM (R211, R213). -/
def execVecRsum (n : Fin 16) (dst src1 _src2 : BitVec 8) (imm : BitVec 6) (rnd : Rnd) (s : State) : Out :=
  .next (if !s.coreRuns n.val then s else s.vecRsum n.val (s.desc n.val dst.toNat) (s.desc n.val src1.toNat) imm rnd (s.srStream n.val))

/-- VEC_RMAX (R210, R211). -/
def execVecRmax (n : Fin 16) (dst src1 _src2 : BitVec 8) (imm : BitVec 6) (rnd : Rnd) (s : State) : Out :=
  .next (if !s.coreRuns n.val then s else s.vecRmax n.val (s.desc n.val dst.toNat) (s.desc n.val src1.toNat) imm rnd (s.srStream n.val))

/-- VEC_SMSTAT (R214). -/
def execVecSmstat (n : Fin 16) (dst src1 _src2 : BitVec 8) (_imm : BitVec 6) (_rnd : Rnd) (s : State) : Out :=
  .next (if !s.coreRuns n.val then s else s.vecSmstat n.val (s.desc n.val dst.toNat) (s.desc n.val src1.toNat) (s.auxDesc n.val (s.desc n.val dst.toNat)))

/-- VEC_SMLSE (R214). -/
def execVecSmlse (n : Fin 16) (dst src1 _src2 : BitVec 8) (_imm : BitVec 6) (rnd : Rnd) (s : State) : Out :=
  .next (if !s.coreRuns n.val then s else s.vecSmlse n.val (s.desc n.val dst.toNat) (s.desc n.val src1.toNat) rnd (s.srStream n.val))

/-- VEC_NSTAT (R210, R213). -/
def execVecNstat (n : Fin 16) (dst src1 _src2 : BitVec 8) (_imm : BitVec 6) (rnd : Rnd) (s : State) : Out :=
  .next (if !s.coreRuns n.val then s else s.vecNstat n.val (s.desc n.val dst.toNat) (s.desc n.val src1.toNat) rnd (s.srStream n.val))

end Sys2Proof.Machine
end

