-- ==== Sys2Proof/Machine/Scalar.lean ====
section
/-! DEFINITION. The scalar core: the S0 and S1 operations, loads and stores, branches and hardware loops, and the FP64 pipeline (R215 to R218, R249). -/

namespace Sys2Proof.Machine

/-- The SOURCE code of the scalar core (R227). -/
def scalarSource : Nat := 3

/-! ### Registers of a context -/

def CoreCtx.getG (c : CoreCtx) (i : Nat) : Word := Store.get (fun _ => 0) c.g i
def CoreCtx.putG (c : CoreCtx) (i : Nat) (v : Word) : CoreCtx := { c with g := Store.set (fun _ => 0) c.g i v }
def CoreCtx.getF (c : CoreCtx) (i : Nat) : Word := Store.get (fun _ => 0) c.f (i % 32)
def CoreCtx.putF (c : CoreCtx) (i : Nat) (v : Word) : CoreCtx := { c with f := Store.set (fun _ => 0) c.f (i % 32) v }
def CoreCtx.getD (c : CoreCtx) (d w : Nat) : Word := Store.get (fun _ => 0) c.desc (d * 4 + w)
def CoreCtx.putD (c : CoreCtx) (d w : Nat) (v : Word) : CoreCtx := { c with desc := Store.set (fun _ => 0) c.desc (d * 4 + w) v }

/-- Changes the context on a core. -/
def State.updCtx (s : State) (n : Nat) (f : CoreCtx → CoreCtx) : State := s.setCore n { s.core n with ctx := f (s.core n).ctx }

/-- The context on a core. -/
def State.ctx (s : State) (n : Nat) : CoreCtx := (s.core n).ctx

def State.putG (s : State) (n i : Nat) (v : Word) : State := s.updCtx n (fun c => c.putG i v)

/-- Writes the destination of a load or FP64 operation: an F or a G register. -/
def State.putReg (s : State) (n : Nat) (isF : Bool) (i : Nat) (v : Word) : State :=
  s.updCtx n (fun c => if isF then c.putF i v else c.putG i v)

/-! ### Integer operations (R217) -/

/-- The result of an integer operation. -/
def intOp : IntOp → Word → Word → Word
  | .add, a, b => a + b
  | .sub, a, b => a - b
  | .and, a, b => a &&& b
  | .or, a, b => a ||| b
  | .xor, a, b => a ^^^ b
  | .shl, a, b => a <<< (b.toNat % 64)
  | .shr, a, b => a >>> (b.toNat % 64)
  | .sar, a, b => a.sshiftRight (b.toNat % 64)
  | .mul, a, b => a * b
  | .min, a, b => if a.slt b then a else b
  | .max, a, b => if a.slt b then b else a
  | .slt, a, b => if a.slt b then 1 else 0
  | .sltu, a, b => if a.ult b then 1 else 0

/-- An integer operation on registers as a context holds them. -/
def State.intR (s : State) (n : Nat) (old : CoreCtx) (op : IntOp) (rd ra rb : Nat) : State := s.putG n rd (intOp op (old.getG ra) (old.getG rb))

/-- The 18-bit immediate, sign-extended. -/
def immWord (imm : BitVec 18) : Word := imm.signExtend 64

/-- An integer operation with the sign-extended immediate. -/
def State.intI (s : State) (n : Nat) (old : CoreCtx) (op : IntOp) (rd ra : Nat) (imm : BitVec 18) : State :=
  s.putG n rd (intOp op (old.getG ra) (immWord imm))

/-- LIH: the 16-bit field k of a register replaced. -/
def lihWord (a : Word) (imm : BitVec 18) : Word :=
  let k := imm.toNat / 2 ^ 16
  (a &&& ~~~ ((0xFFFF : Word) <<< (16 * k))) ||| ((BitVec.ofNat 64 (imm.toNat % 2 ^ 16)) <<< (16 * k))

/-- The field of EXTS and EXTU: its byte offset and its width. -/
def extField (imm : BitVec 18) : Nat × Nat := (imm.toNat % 8, 8 * 2 ^ (imm.toNat / 8 % 4))

/-- EXTS: a field of a register, sign-extended. -/
def extsWord (a : Word) (imm : BitVec 18) : Word :=
  let f := extField imm
  BitVec.ofInt 64 (signExt f.2 (a.toNat / 2 ^ (8 * f.1)))

/-- EXTU: a field of a register, zero-extended. -/
def extuWord (a : Word) (imm : BitVec 18) : Word :=
  let f := extField imm
  BitVec.ofNat 64 (a.toNat / 2 ^ (8 * f.1) % 2 ^ f.2)

/-! ### Loads and stores (R217, R249) -/

/-- The address of a load or store. -/
def scalarAddr (old : CoreCtx) (ra : Nat) (imm : BitVec 18) : Nat := (old.getG ra + immWord imm * 8).toNat

/-- The bank that a scalar access reaches: one of the core's own scratchpad, or a shared bank of its canton, in a linear region, at an 8-aligned address (R215, R249). -/
def State.scalarBank (s : State) (n a : Nat) : Option Nat :=
  if a % 8 ≠ 0 then none
  else match s.place a with
    | .spd b off =>
      let p := (s.bankByte b off).1
      if s.diagonal p then none
      else if p < 1024 then (if p / 64 = n then some p else none)
      else if (s.cantonOfCore n).isSome ∧ s.bankCanton p = s.cantonOfCore n then some p
      else none
    | _ => none

/-- A load whose bank serves it: its destination is written. none while the access waits for a handover. -/
def State.serveLoad (s : State) (n : Nat) (l : PendLoad) : Option State :=
  let g := s.coreAgent n
  let x := s.readMem g l.addr 8
  if x.wait then none
  else
    let s1 := s.noteRead g l.addr 8
    if x.bad then some (s1.engineBad n scalarSource)
    else
      let s2 := if x.flags &&& flagBit fgAccessDenied == 0 then s1.coreFlags n x.flags else s1.coreDenied n scalarSource l.addr
      some (s2.putReg n l.isF l.rd (BitVec.ofNat 64 (leNat x.bytes)))

/-- Takes load i of a core out of the pending ones. -/
def State.dropLoad (s : State) (n i : Nat) : State := s.setCore n { s.core n with loads := (s.core n).loads.eraseIdx i }

/-- Whether an earlier pending load of a core is to the same bank as load i (R217). -/
def State.loadBehind (s : State) (n i : Nat) (l : PendLoad) : Bool :=
  ((s.core n).loads.take i).any (fun p => s.scalarBank n p.addr == s.scalarBank n l.addr)

/-- LOAD_DATA_RETURN (R217): the bank serves pending load i of a core, in order with the core's earlier ones to the same bank. -/
def execLoadDataReturn (n : Fin 16) (i : Nat) (s : State) : Out :=
  .next (
    match (s.core n.val).loads[i]? with
    | none => s
    | some l =>
      if s.loadBehind n.val i l then s
      else match (s.dropLoad n.val i).serveLoad n.val l with
        | some t => t
        | none => s)

/-- Serves the pending loads of a bank, oldest first; none when one waits. -/
def State.serveBank (s : State) (n b : Nat) : List PendLoad → Option State
  | [] => some s
  | l :: r =>
    if s.scalarBank n l.addr = some b then
      match ({ s with cores := (s.setCore n { s.core n with loads := (s.core n).loads.erase l }).cores }).serveLoad n l with
      | some t => t.serveBank n b r
      | none => none
    else s.serveBank n b r

/-- LD and LDF: the load waits for its bank; an address the scalar core does not reach reads zero at once (R217, R249). -/
def State.scalarLoad (s : State) (n : Nat) (old : CoreCtx) (isF : Bool) (rd ra : Nat) (imm : BitVec 18) : State :=
  let a := scalarAddr old ra imm
  match s.scalarBank n a with
  | some _ => s.setCore n { s.core n with loads := (s.core n).loads ++ [{ isF := isF, rd := rd, addr := a }] }
  | none => (s.coreDenied n scalarSource a).putReg n isF rd 0

/-- ST and STF: the loads issued before to the same bank are served first, then the store (R217). none while the access waits for a handover. -/
def State.scalarStore (s : State) (n : Nat) (old : CoreCtx) (v : Word) (ra : Nat) (imm : BitVec 18) : Option State :=
  let a := scalarAddr old ra imm
  match s.scalarBank n a with
  | none => some (s.coreDenied n scalarSource a)
  | some b =>
    match s.serveBank n b (s.core n).loads with
    | none => none
    | some t =>
      let w := t.writeMem (t.coreAgent n) a (leBytes v.toNat 8)
      if w.wait then none
      else some (if w.flags &&& flagBit fgAccessDenied == 0 then w.state.coreFlags n w.flags else w.state.coreDenied n scalarSource a)

/-! ### Branches and loops (R216, R217) -/

/-- Leaves the bundle p behind: the next bundle is p + 1, unless p ends the body of the innermost loop, which then runs again or ends. The result is the loop stack and the next bundle. -/
def fallThrough (p : Nat) : List Loop → List Loop × Nat
  | [] => ([], p + 1)
  | l :: r =>
    if l.last = p then (if 1 < l.left then ({ l with left := l.left - 1 } :: r, l.first) else fallThrough p r)
    else (l :: r, p + 1)

/-- Goes on behind bundle p. -/
def CoreCtx.goOn (c : CoreCtx) (p : Nat) : CoreCtx :=
  let x := fallThrough p c.loops
  { c with loops := x.1, pc := x.2 }

/-- A branch by a signed offset, or on to the next bundle. -/
def CoreCtx.branch (c : CoreCtx) (taken : Bool) (off : BitVec 18) : CoreCtx :=
  if taken then { c with pc := ((c.pc : Int) + off.toInt).toNat } else c.goOn c.pc

/-- LOOP: the next k bundles, count times; a count of 0 skips them. -/
def CoreCtx.loop (c : CoreCtx) (k count : Nat) : CoreCtx :=
  if count = 0 then c.goOn (c.pc + k)
  else { c with loops := { first := c.pc + 1, last := c.pc + k, left := count } :: c.loops, pc := c.pc + 1 }

def State.scalarBranch (s : State) (n : Nat) (taken : Bool) (off : BitVec 18) : State := s.updCtx n (fun c => c.branch taken off)

/-! ### Floating point (R218) -/

/-- Puts an FP64 operation into the pipeline: its result is written by FP64_RESULT_WRITE. -/
def State.fpIssue (s : State) (n : Nat) (isF : Bool) (rd : Nat) (v : Word) (slow : Bool) : State :=
  s.setCore n { s.core n with fps := (s.core n).fps ++ [{ isF := isF, rd := rd, val := v, slow := slow }] }

/-- FCVT_SF: an FP64 value as FP32 in the low half, with the flags of the conversion. -/
def f64ToF32 (a : Word) : Word × FmtFlags :=
  let r := Fmt.encode .fp32 .rne 0 (ofF64 a)
  (BitVec.ofNat 64 r.1, r.2)

/-- FCVT_FS: the FP32 value of the low half, exactly. -/
def f32ToF64 (g : Word) : Word := toF64 (ofF32 (g.toNat % 2 ^ 32))

/-- FP64_RESULT_WRITE (R218): the oldest result of the pipeline, or of the divider for a slow one, is written. -/
def execFp64ResultWrite (n : Fin 16) (slow : Bool) (s : State) : Out :=
  .next (
    let k := s.core n.val
    match k.fps.find? (fun p => p.slow == slow) with
    | none => s
    | some p => (s.setCore n.val { k with fps := k.fps.erase p }).putReg n.val p.isF p.rd p.val)

/-! ### S1 as a slot: reads of the registers as they stood before the bundle -/

/-- FADD to FMAX, and FMA, on F registers. -/
def State.fp2 (s : State) (n : Nat) (old : CoreCtx) (f : Word → Word → Word) (fd fa fb : Nat) (slow : Bool) : State :=
  s.fpIssue n true fd (f (old.getF fa) (old.getF fb)) slow

/-! ### The commands -/

/-- S0_ADD (R217). -/
def execS0Add (n : Fin 16) (rd ra rb : BitVec 6) (s : State) : Out :=
  .next (if !s.coreRuns n.val then s else s.intR n.val (s.ctx n.val) .add rd.toNat ra.toNat rb.toNat)

/-- S0_SUB (R217). -/
def execS0Sub (n : Fin 16) (rd ra rb : BitVec 6) (s : State) : Out :=
  .next (if !s.coreRuns n.val then s else s.intR n.val (s.ctx n.val) .sub rd.toNat ra.toNat rb.toNat)

/-- S0_AND (R217). -/
def execS0And (n : Fin 16) (rd ra rb : BitVec 6) (s : State) : Out :=
  .next (if !s.coreRuns n.val then s else s.intR n.val (s.ctx n.val) .and rd.toNat ra.toNat rb.toNat)

/-- S0_OR (R217). -/
def execS0Or (n : Fin 16) (rd ra rb : BitVec 6) (s : State) : Out :=
  .next (if !s.coreRuns n.val then s else s.intR n.val (s.ctx n.val) .or rd.toNat ra.toNat rb.toNat)

/-- S0_XOR (R217). -/
def execS0Xor (n : Fin 16) (rd ra rb : BitVec 6) (s : State) : Out :=
  .next (if !s.coreRuns n.val then s else s.intR n.val (s.ctx n.val) .xor rd.toNat ra.toNat rb.toNat)

/-- S0_SHL (R217). -/
def execS0Shl (n : Fin 16) (rd ra rb : BitVec 6) (s : State) : Out :=
  .next (if !s.coreRuns n.val then s else s.intR n.val (s.ctx n.val) .shl rd.toNat ra.toNat rb.toNat)

/-- S0_SHR (R217). -/
def execS0Shr (n : Fin 16) (rd ra rb : BitVec 6) (s : State) : Out :=
  .next (if !s.coreRuns n.val then s else s.intR n.val (s.ctx n.val) .shr rd.toNat ra.toNat rb.toNat)

/-- S0_SAR (R217). -/
def execS0Sar (n : Fin 16) (rd ra rb : BitVec 6) (s : State) : Out :=
  .next (if !s.coreRuns n.val then s else s.intR n.val (s.ctx n.val) .sar rd.toNat ra.toNat rb.toNat)

/-- S0_MUL (R217). -/
def execS0Mul (n : Fin 16) (rd ra rb : BitVec 6) (s : State) : Out :=
  .next (if !s.coreRuns n.val then s else s.intR n.val (s.ctx n.val) .mul rd.toNat ra.toNat rb.toNat)

/-- S0_MIN (R217). -/
def execS0Min (n : Fin 16) (rd ra rb : BitVec 6) (s : State) : Out :=
  .next (if !s.coreRuns n.val then s else s.intR n.val (s.ctx n.val) .min rd.toNat ra.toNat rb.toNat)

/-- S0_MAX (R217). -/
def execS0Max (n : Fin 16) (rd ra rb : BitVec 6) (s : State) : Out :=
  .next (if !s.coreRuns n.val then s else s.intR n.val (s.ctx n.val) .max rd.toNat ra.toNat rb.toNat)

/-- S0_SLT (R217). -/
def execS0Slt (n : Fin 16) (rd ra rb : BitVec 6) (s : State) : Out :=
  .next (if !s.coreRuns n.val then s else s.intR n.val (s.ctx n.val) .slt rd.toNat ra.toNat rb.toNat)

/-- S0_SLTU (R217). -/
def execS0Sltu (n : Fin 16) (rd ra rb : BitVec 6) (s : State) : Out :=
  .next (if !s.coreRuns n.val then s else s.intR n.val (s.ctx n.val) .sltu rd.toNat ra.toNat rb.toNat)

/-- S0_ADDI (R217). -/
def execS0Addi (n : Fin 16) (rd ra : BitVec 6) (imm : BitVec 18) (s : State) : Out :=
  .next (if !s.coreRuns n.val then s else s.intI n.val (s.ctx n.val) .add rd.toNat ra.toNat imm)

/-- S0_ANDI (R217). -/
def execS0Andi (n : Fin 16) (rd ra : BitVec 6) (imm : BitVec 18) (s : State) : Out :=
  .next (if !s.coreRuns n.val then s else s.intI n.val (s.ctx n.val) .and rd.toNat ra.toNat imm)

/-- S0_ORI (R217). -/
def execS0Ori (n : Fin 16) (rd ra : BitVec 6) (imm : BitVec 18) (s : State) : Out :=
  .next (if !s.coreRuns n.val then s else s.intI n.val (s.ctx n.val) .or rd.toNat ra.toNat imm)

/-- S0_XORI (R217). -/
def execS0Xori (n : Fin 16) (rd ra : BitVec 6) (imm : BitVec 18) (s : State) : Out :=
  .next (if !s.coreRuns n.val then s else s.intI n.val (s.ctx n.val) .xor rd.toNat ra.toNat imm)

/-- S0_SHLI (R217: by IMM[5:0]). -/
def execS0Shli (n : Fin 16) (rd ra : BitVec 6) (imm : BitVec 18) (s : State) : Out :=
  .next (if !s.coreRuns n.val then s else s.intI n.val (s.ctx n.val) .shl rd.toNat ra.toNat imm)

/-- S0_SHRI (R217: by IMM[5:0]). -/
def execS0Shri (n : Fin 16) (rd ra : BitVec 6) (imm : BitVec 18) (s : State) : Out :=
  .next (if !s.coreRuns n.val then s else s.intI n.val (s.ctx n.val) .shr rd.toNat ra.toNat imm)

/-- S0_SARI (R217: by IMM[5:0]). -/
def execS0Sari (n : Fin 16) (rd ra : BitVec 6) (imm : BitVec 18) (s : State) : Out :=
  .next (if !s.coreRuns n.val then s else s.intI n.val (s.ctx n.val) .sar rd.toNat ra.toNat imm)

/-- S0_LIH (R217). -/
def execS0Lih (n : Fin 16) (rd ra : BitVec 6) (imm : BitVec 18) (s : State) : Out :=
  .next (if !s.coreRuns n.val then s else s.putG n.val rd.toNat (lihWord ((s.ctx n.val).getG ra.toNat) imm))

/-- S0_EXTS (R217). -/
def execS0Exts (n : Fin 16) (rd ra : BitVec 6) (imm : BitVec 18) (s : State) : Out :=
  .next (if !s.coreRuns n.val then s else s.putG n.val rd.toNat (extsWord ((s.ctx n.val).getG ra.toNat) imm))

/-- S0_EXTU (R217). -/
def execS0Extu (n : Fin 16) (rd ra : BitVec 6) (imm : BitVec 18) (s : State) : Out :=
  .next (if !s.coreRuns n.val then s else s.putG n.val rd.toNat (extuWord ((s.ctx n.val).getG ra.toNat) imm))

/-- S0_LD (R217). -/
def execS0Ld (n : Fin 16) (rd ra : BitVec 6) (imm : BitVec 18) (s : State) : Out :=
  .next (if !s.coreRuns n.val then s else s.scalarLoad n.val (s.ctx n.val) false rd.toNat ra.toNat imm)

/-- S0_ST (R217; a store that waits for a handover has no effect yet). -/
def execS0St (n : Fin 16) (rs ra : BitVec 6) (imm : BitVec 18) (s : State) : Out :=
  .next (if !s.coreRuns n.val then s else (s.scalarStore n.val (s.ctx n.val) ((s.ctx n.val).getG rs.toNat) ra.toNat imm).getD s)

/-- S0_LDF (R217). -/
def execS0Ldf (n : Fin 16) (rd ra : BitVec 6) (imm : BitVec 18) (s : State) : Out :=
  .next (if !s.coreRuns n.val then s else s.scalarLoad n.val (s.ctx n.val) true (rd.toNat % 32) ra.toNat imm)

/-- S0_STF (R217). -/
def execS0Stf (n : Fin 16) (rs ra : BitVec 6) (imm : BitVec 18) (s : State) : Out :=
  .next (if !s.coreRuns n.val then s else (s.scalarStore n.val (s.ctx n.val) ((s.ctx n.val).getF rs.toNat) ra.toNat imm).getD s)

/-- S0_BEQ (R216, R217). -/
def execS0Beq (n : Fin 16) (ra rb : BitVec 6) (off : BitVec 18) (s : State) : Out :=
  .next (if !s.coreRuns n.val then s else s.scalarBranch n.val (decide ((s.ctx n.val).getG ra.toNat = (s.ctx n.val).getG rb.toNat)) off)

/-- S0_BNE (R216, R217). -/
def execS0Bne (n : Fin 16) (ra rb : BitVec 6) (off : BitVec 18) (s : State) : Out :=
  .next (if !s.coreRuns n.val then s else s.scalarBranch n.val (decide ((s.ctx n.val).getG ra.toNat ≠ (s.ctx n.val).getG rb.toNat)) off)

/-- S0_BLT (R216, R217). -/
def execS0Blt (n : Fin 16) (ra rb : BitVec 6) (off : BitVec 18) (s : State) : Out :=
  .next (if !s.coreRuns n.val then s else s.scalarBranch n.val (((s.ctx n.val).getG ra.toNat).slt ((s.ctx n.val).getG rb.toNat)) off)

/-- S0_BGE (R216, R217). -/
def execS0Bge (n : Fin 16) (ra rb : BitVec 6) (off : BitVec 18) (s : State) : Out :=
  .next (if !s.coreRuns n.val then s else s.scalarBranch n.val (!((s.ctx n.val).getG ra.toNat).slt ((s.ctx n.val).getG rb.toNat)) off)

/-- S0_JMP (R217). -/
def execS0Jmp (n : Fin 16) (off : BitVec 18) (s : State) : Out :=
  .next (if !s.coreRuns n.val then s else s.scalarBranch n.val true off)

/-- S0_LOOP (R217). -/
def execS0Loop (n : Fin 16) (ra : BitVec 6) (imm : BitVec 18) (s : State) : Out :=
  .next (if !s.coreRuns n.val then s else s.updCtx n.val (fun c => c.loop imm.toNat (c.getG ra.toNat).toNat))

/-- S0_DSET (R217). -/
def execS0Dset (n : Fin 16) (g : BitVec 6) (desc : BitVec 8) (word : BitVec 2) (s : State) : Out :=
  .next (if !s.coreRuns n.val then s else s.updCtx n.val (fun c => c.putD desc.toNat word.toNat (c.getG g.toNat)))

/-- S0_DADD (R217). -/
def execS0Dadd (n : Fin 16) (g : BitVec 6) (desc : BitVec 8) (s : State) : Out :=
  .next (if !s.coreRuns n.val then s else s.updCtx n.val (fun c => c.putD desc.toNat 0 (c.getD desc.toNat 0 + c.getG g.toNat)))

/-- S0_DGET (R217). -/
def execS0Dget (n : Fin 16) (g : BitVec 6) (desc : BitVec 8) (word : BitVec 2) (s : State) : Out :=
  .next (if !s.coreRuns n.val then s else s.updCtx n.val (fun c => c.putG g.toNat (c.getD desc.toNat word.toNat)))

/-- S0_SRSTREAM (R184, R217). -/
def execS0Srstream (n : Fin 16) (ra : BitVec 6) (s : State) : Out :=
  .next (if !s.coreRuns n.val then s else s.updCtx n.val (fun c => { c with srStream := (c.getG ra.toNat).setWidth 32 }))

/-- S1_INTEGER_OP (R218). -/
def execS1IntegerOp (n : Fin 16) (op : IntOp) (rd ra rb : BitVec 6) (s : State) : Out :=
  .next (if !s.coreRuns n.val then s else s.intR n.val (s.ctx n.val) op rd.toNat ra.toNat rb.toNat)

/-- S1_FADD (R218). -/
def execS1Fadd (n : Fin 16) (fd fa fb : BitVec 5) (s : State) : Out :=
  .next (if !s.coreRuns n.val then s else s.fp2 n.val (s.ctx n.val) f64Add fd.toNat fa.toNat fb.toNat false)

/-- S1_FSUB (R218). -/
def execS1Fsub (n : Fin 16) (fd fa fb : BitVec 5) (s : State) : Out :=
  .next (if !s.coreRuns n.val then s else s.fp2 n.val (s.ctx n.val) f64Sub fd.toNat fa.toNat fb.toNat false)

/-- S1_FMUL (R218). -/
def execS1Fmul (n : Fin 16) (fd fa fb : BitVec 5) (s : State) : Out :=
  .next (if !s.coreRuns n.val then s else s.fp2 n.val (s.ctx n.val) f64Mul fd.toNat fa.toNat fb.toNat false)

/-- S1_FMA (R218). -/
def execS1Fma (n : Fin 16) (fd fa fb fc : BitVec 5) (s : State) : Out :=
  .next (if !s.coreRuns n.val then s else s.fpIssue n.val true fd.toNat (f64Fma ((s.ctx n.val).getF fa.toNat) ((s.ctx n.val).getF fb.toNat) ((s.ctx n.val).getF fc.toNat)) false)

/-- S1_FDIV (R218). -/
def execS1Fdiv (n : Fin 16) (fd fa fb : BitVec 5) (s : State) : Out :=
  .next (if !s.coreRuns n.val then s else s.fp2 n.val (s.ctx n.val) f64Div fd.toNat fa.toNat fb.toNat true)

/-- S1_FSQRT (R218). -/
def execS1Fsqrt (n : Fin 16) (fd fa : BitVec 5) (s : State) : Out :=
  .next (if !s.coreRuns n.val then s else s.fpIssue n.val true fd.toNat (f64Sqrt ((s.ctx n.val).getF fa.toNat)) true)

/-- S1_FMIN (R218). -/
def execS1Fmin (n : Fin 16) (fd fa fb : BitVec 5) (s : State) : Out :=
  .next (if !s.coreRuns n.val then s else s.fp2 n.val (s.ctx n.val) f64Min fd.toNat fa.toNat fb.toNat false)

/-- S1_FMAX (R218). -/
def execS1Fmax (n : Fin 16) (fd fa fb : BitVec 5) (s : State) : Out :=
  .next (if !s.coreRuns n.val then s else s.fp2 n.val (s.ctx n.val) f64Max fd.toNat fa.toNat fb.toNat false)

/-- S1_FCVT_FI (R218). -/
def execS1FcvtFi (n : Fin 16) (fd : BitVec 5) (gr : BitVec 6) (s : State) : Out :=
  .next (if !s.coreRuns n.val then s else s.fpIssue n.val true fd.toNat (f64OfInt ((s.ctx n.val).getG gr.toNat)) false)

/-- S1_FCVT_IF (R218). -/
def execS1FcvtIf (n : Fin 16) (gr : BitVec 6) (fa : BitVec 5) (s : State) : Out :=
  .next (if !s.coreRuns n.val then s else s.fpIssue n.val false gr.toNat (f64ToInt ((s.ctx n.val).getF fa.toNat)) false)

/-- S1_FCVT_FS (R218). -/
def execS1FcvtFs (n : Fin 16) (fd : BitVec 5) (gr : BitVec 6) (s : State) : Out :=
  .next (if !s.coreRuns n.val then s else s.fpIssue n.val true fd.toNat (f32ToF64 ((s.ctx n.val).getG gr.toNat)) false)

/-- S1_FCVT_SF (R187, R218). -/
def execS1FcvtSf (n : Fin 16) (gr : BitVec 6) (fa : BitVec 5) (s : State) : Out :=
  .next (if !s.coreRuns n.val then s else (s.fpIssue n.val false gr.toNat (f64ToF32 ((s.ctx n.val).getF fa.toNat)).1 false).coreFmt n.val (f64ToF32 ((s.ctx n.val).getF fa.toNat)).2)

/-- S1_FMOVFG (R218). -/
def execS1Fmovfg (n : Fin 16) (fd : BitVec 5) (gr : BitVec 6) (s : State) : Out :=
  .next (if !s.coreRuns n.val then s else s.fpIssue n.val true fd.toNat ((s.ctx n.val).getG gr.toNat) false)

/-- S1_FMOVGF (R218). -/
def execS1Fmovgf (n : Fin 16) (gr : BitVec 6) (fa : BitVec 5) (s : State) : Out :=
  .next (if !s.coreRuns n.val then s else s.fpIssue n.val false gr.toNat ((s.ctx n.val).getF fa.toNat) false)

/-- S1_FCMPLT (R218). -/
def execS1Fcmplt (n : Fin 16) (gr : BitVec 6) (fa fb : BitVec 5) (s : State) : Out :=
  .next (if !s.coreRuns n.val then s else s.fpIssue n.val false gr.toNat (if f64Lt ((s.ctx n.val).getF fa.toNat) ((s.ctx n.val).getF fb.toNat) then 1 else 0) false)

end Sys2Proof.Machine
end

