-- ==== Sys2Proof/Machine/Bundle.lean ====
section
/-! DEFINITION. The issue stage of a core: RUN, bundles with their slots, waits and hazards, the end of a program, and yield points (R190 to R198, R216 to R218, R449 to R453). -/

namespace Sys2Proof.Machine

/-! ### RUN (R196 to R198) -/

/-- The words of an image's initial descriptor table as a store. -/
def descTable : Nat → List Word → List (Nat × Word)
  | _, [] => []
  | i, w :: r => Store.set (fun _ => 0) (descTable (i + 1) r) i w

/-- CORE_RUN (R198): the entry starts on the command's core with G0 the argument address and G1 its length, under the smaller of S_MAX and the STEP budget (R197). An image or entry that the core does not hold completes REJECTED. -/
def execCoreRun (q : BitVec 16) (s : State) : Out :=
  .next (
    match s.head q.toNat with
    | none => s
    | some c =>
      match c.core with
      | none => s
      | some n =>
        let k := s.core n
        if s.qUnit q.toNat = 1 ∧ c.opcode = 1 ∧ s.executing q.toNat ∧ s.coreRuns n ∧ k.running = some q.toNat ∧ k.image.isNone ∧ !k.restoring then
          match k.images.find? (fun im => im.id == c.pl 0 2 && im.canton == s.qCanton q.toNat) with
          | none => s.endOnCore n stRejected
          | some im =>
            match im.entries[c.pl 2 2]? with
            | none => s.endOnCore n stRejected
            | some e =>
              let b := c.budget.getD e.2
              let ctx : CoreCtx := ((({} : CoreCtx).putG 0 (BitVec.ofNat 64 (c.pl 8 8))).putG 1 (BitVec.ofNat 64 (c.pl 4 4)))
              s.setCore n { k with
                image := some im, bound := min e.2 b, boundIsMax := decide (e.2 ≤ b)
                ctx := { ctx with desc := descTable 0 im.descs, pc := im.first + e.1 } }
        else s)

/-! ### Slots of a bundle (R192, R203, R210, R217 to R219) -/

/-- A field of a slot. -/
def sl (w lo k : Nat) : Nat := w / 2 ^ lo % 2 ^ k

/-- The rounding mode of a 2-bit RND field. -/
def rndOf : Nat → Rnd
  | 1 => .sr
  | 2 => .rtz
  | _ => .rne

/-- The G and F registers that an S0 operation reads: F registers are marked. -/
def s0Reads (w : Nat) : List (Bool × Nat) :=
  let op := sl w 30 6
  let hi := sl w 24 6
  let ra := sl w 18 6
  let rb := sl w 12 6
  if 0x01 ≤ op ∧ op ≤ 0x0D then [(false, ra), (false, rb)]
  else if 0x10 ≤ op ∧ op ≤ 0x19 then [(false, ra)]
  else if op = 0x20 ∨ op = 0x22 ∨ op = 0x30 ∨ op = 0x34 then [(false, ra)]
  else if op = 0x21 then [(false, hi), (false, ra)]
  else if op = 0x23 then [(true, hi % 32), (false, ra)]
  else if 0x28 ≤ op ∧ op ≤ 0x2B then [(false, hi), (false, ra)]
  else if op = 0x31 ∨ op = 0x32 then [(false, hi)]
  else []

/-- The registers that an S1 operation reads. -/
def s1Reads (w : Nat) : List (Bool × Nat) :=
  let op := sl w 30 6
  let fa := (true, sl w 20 5)
  let fb := (true, sl w 15 5)
  let fc := (true, sl w 10 5)
  let gr := (false, sl w 4 6)
  if 0x21 ≤ op ∧ op ≤ 0x2D then [(false, sl w 18 6), (false, sl w 12 6)]
  else if op = 0x04 then [fa, fb, fc]
  else if op = 0x06 ∨ op = 0x0A ∨ op = 0x0C ∨ op = 0x0E then [fa]
  else if op = 0x09 ∨ op = 0x0B ∨ op = 0x0D then [gr]
  else if 0x01 ≤ op ∧ op ≤ 0x0F then [fa, fb]
  else []

/-- The register that the transfer slot reads: the pattern of FILL. -/
def xferReads (w : Nat) : List (Bool × Nat) := if sl w 34 6 = 2 then [(false, sl w 18 8 % 64)] else []

/-- Whether a register waits for a load or for an FP64 result. -/
def Core.pendingReg (k : Core) (r : Bool × Nat) : Bool :=
  k.loads.any (fun l => l.isF == r.1 && l.rd == r.2) || k.fps.any (fun p => p.isF == r.1 && p.rd == r.2)

/-- The S0 slot of a bundle; none while its store waits for a handover. Every operation but a branch or LOOP goes on to the next bundle. -/
def State.s0Slot (s : State) (n w : Nat) : Option State :=
  let old := s.ctx n
  let op := sl w 30 6
  let hi := sl w 24 6
  let ra := sl w 18 6
  let rb := sl w 12 6
  let imm : BitVec 18 := BitVec.ofNat 18 w
  let d := sl w 16 8
  let wd := sl w 14 2
  let on (t : State) : Option State := some (t.updCtx n (fun c => c.goOn old.pc))
  let r (o : IntOp) : Option State := on (s.intR n old o hi ra rb)
  let i (o : IntOp) : Option State := on (s.intI n old o hi ra imm)
  let br (b : Bool) : Option State := some (s.scalarBranch n b imm)
  match op with
  | 0x01 => r .add | 0x02 => r .sub | 0x03 => r .and | 0x04 => r .or | 0x05 => r .xor | 0x06 => r .shl | 0x07 => r .shr
  | 0x08 => r .sar | 0x09 => r .mul | 0x0A => r .min | 0x0B => r .max | 0x0C => r .slt | 0x0D => r .sltu
  | 0x10 => i .add | 0x11 => i .and | 0x12 => i .or | 0x13 => i .xor | 0x14 => i .shl | 0x15 => i .shr | 0x16 => i .sar
  | 0x17 => on (s.putG n hi (lihWord (old.getG ra) imm))
  | 0x18 => on (s.putG n hi (extsWord (old.getG ra) imm))
  | 0x19 => on (s.putG n hi (extuWord (old.getG ra) imm))
  | 0x20 => on (s.scalarLoad n old false hi ra imm)
  | 0x21 => (s.scalarStore n old (old.getG hi) ra imm).bind on
  | 0x22 => on (s.scalarLoad n old true (hi % 32) ra imm)
  | 0x23 => (s.scalarStore n old (old.getF hi) ra imm).bind on
  | 0x28 => br (decide (old.getG hi = old.getG ra))
  | 0x29 => br (decide (old.getG hi ≠ old.getG ra))
  | 0x2A => br ((old.getG hi).slt (old.getG ra))
  | 0x2B => br (!(old.getG hi).slt (old.getG ra))
  | 0x2C => br true
  | 0x30 => some (s.updCtx n (fun c => c.loop imm.toNat (old.getG ra).toNat))
  | 0x31 => on (s.updCtx n (fun c => c.putD d wd (old.getG hi)))
  | 0x32 => on (s.updCtx n (fun c => c.putD d 0 (old.getD d 0 + old.getG hi)))
  | 0x33 => on (s.putG n hi (old.getD d wd))
  | 0x34 => on (s.updCtx n (fun c => { c with srStream := (old.getG ra).setWidth 32 }))
  | _ => on s

/-- The S1 slot of a bundle, on the registers as they stood before it. -/
def State.s1Slot (s : State) (n : Nat) (old : CoreCtx) (w : Nat) : State :=
  let op := sl w 30 6
  let fd := sl w 25 5
  let fa := old.getF (sl w 20 5)
  let fb := old.getF (sl w 15 5)
  let fc := old.getF (sl w 10 5)
  let gi := sl w 4 6
  let g := old.getG gi
  let toF (v : Word) (slow : Bool) : State := s.fpIssue n true fd v slow
  let toG (v : Word) : State := s.fpIssue n false gi v false
  let r (o : IntOp) : State := s.intR n old o (sl w 24 6) (sl w 18 6) (sl w 12 6)
  match op with
  | 0x01 => toF (f64Add fa fb) false
  | 0x02 => toF (f64Sub fa fb) false
  | 0x03 => toF (f64Mul fa fb) false
  | 0x04 => toF (f64Fma fa fb fc) false
  | 0x05 => toF (f64Div fa fb) true
  | 0x06 => toF (f64Sqrt fa) true
  | 0x07 => toF (f64Min fa fb) false
  | 0x08 => toF (f64Max fa fb) false
  | 0x09 => toF (f64OfInt g) false
  | 0x0A => toG (f64ToInt fa)
  | 0x0B => toF (f32ToF64 g) false
  | 0x0C => (toG (f64ToF32 fa).1).coreFmt n (f64ToF32 fa).2
  | 0x0D => toF g false
  | 0x0E => toG fa
  | 0x0F => toG (if f64Lt fa fb then 1 else 0)
  | 0x21 => r .add | 0x22 => r .sub | 0x23 => r .and | 0x24 => r .or | 0x25 => r .xor | 0x26 => r .shl | 0x27 => r .shr
  | 0x28 => r .sar | 0x29 => r .mul | 0x2A => r .min | 0x2B => r .max | 0x2C => r .slt | 0x2D => r .sltu
  | _ => s

/-! ### Engine operations at their issue (R193, R217, R233, R235) -/

/-- The queue of an engine. -/
def Core.engQ (k : Core) : Engine → List EngOp
  | .matA => k.qMatA
  | .matB => k.qMatB
  | .vec => k.qVec
  | .xfer => k.qXfer

/-- A core with another queue of an engine. -/
def Core.setEngQ (k : Core) (e : Engine) (l : List EngOp) : Core :=
  match e with
  | .matA => { k with qMatA := l }
  | .matB => { k with qMatB := l }
  | .vec => { k with qVec := l }
  | .xfer => { k with qXfer := l }

/-- Issues an operation to an engine with the descriptors it takes, its pattern register and SR_STREAM. -/
def State.pushOp (s : State) (n : Nat) (e : Engine) (old : CoreCtx) (w : Nat) (descs : List (List Word)) (pattern : Word) : State :=
  let k := s.core n
  s.setCore n (k.setEngQ e (k.engQ e ++ [{ slot := w, descs := descs, pattern := pattern, stream := old.srStream, bundle := old.pc }]))

/-- Issues a matrix slot: the operation takes the side tensor bound to it or named. -/
def State.issueMat (s : State) (n : Nat) (m : MatEng) (e : Engine) (old : CoreCtx) (w : Nat) : State :=
  let x := s.desc n (sl w 34 8)
  match sl w 42 6 with
  | 1 => let t := s.takeSide n m 1 (s.auxDesc n x); t.2.pushOp n e old w (x :: t.1.toList) 0
  | 2 => let t := s.takeSide n m 0 (s.auxDesc n x); t.2.pushOp n e old w (x :: t.1.toList) 0
  | 3 => let t := s.takeSide n m 2 (s.requantDesc n (sl w 26 8)); t.2.pushOp n e old w (x :: t.1.toList) 0
  | 4 => s.pushOp n e old w [] 0
  | _ => s

/-- Issues the vector slot. -/
def State.issueVec (s : State) (n : Nat) (old : CoreCtx) (w : Nat) : State :=
  if sl w 32 8 = 0 then s
  else
    let d := s.desc n (sl w 24 8)
    s.pushOp n .vec old w ([d, s.desc n (sl w 16 8), s.desc n (sl w 8 8)] ++ (s.auxDesc n d).toList) 0

/-- Binds a side tensor to the next operation of a role of an engine (R235). -/
def State.bindSide (s : State) (n : Nat) (e : MatEng) (role : Nat) (w : List Word) : State :=
  let m := (s.core n).mat e
  s.setMat n e (match role with
    | 0 => { m with bindMul := some w }
    | 1 => { m with bindLoad := some w }
    | _ => { m with bindDrain := some w })

/-- SCALE_BIND by its AUX field. -/
def State.scaleBind (s : State) (n aux : Nat) (w : List Word) : State :=
  s.bindSide n (if sl aux 17 1 = 1 then .b else .a) (sl aux 15 2) w

/-- XFER_SCALE_BIND (R235). -/
def execXferScaleBind (n : Fin 16) (_dst src : BitVec 8) (aux : BitVec 18) (s : State) : Out :=
  .next (if !s.coreRuns n.val then s else s.scaleBind n.val aux.toNat (s.desc n.val src.toNat))

/-- Issues the transfer slot; SCALE_BIND takes effect in its step, after the matrix slots of its bundle took theirs. -/
def State.issueXfer (s : State) (n : Nat) (old : CoreCtx) (w : Nat) : State :=
  match sl w 34 6 with
  | 0 => s
  | 6 => s.scaleBind n (sl w 0 18) (s.desc n (sl w 18 8))
  | _ => s.pushOp n .xfer old w [s.desc n (sl w 26 8), s.desc n (sl w 18 8)] (old.getG (sl w 18 8))

/-! ### BUNDLE_ISSUE (R190 to R193) -/

/-- Whether the transfer engine of a core waits for a read that leaves the device: an uncounted wait (R193, R220). -/
def State.xferWaits (s : State) (n : Nat) : Bool :=
  match (s.core n).qXfer with
  | op :: _ => op.issued && s.host.reads.any (fun o => match o.what with
      | .copyOp m _ _ _ => m == n
      | _ => false)
  | [] => false

/-- Whether a bundle's wait or full queue on the transfer engine holds it. -/
def Core.xferHolds (k : Core) (b : Nat) : Bool :=
  (sl b 251 1 == 1 && !k.qXfer.isEmpty) || (sl b (72 + 34) 6 != 0 && sl b (72 + 34) 6 != 6 && decide (8 ≤ k.qXfer.length))

/-- Whether any other unit holds a bundle: a WAIT bit, a full engine queue, a register not yet written, a second FDIV or FSQRT. -/
def Core.holds (k : Core) (b : Nat) : Bool :=
  (sl b 248 1 == 1 && !k.qMatA.isEmpty) || (sl b 249 1 == 1 && !k.qMatB.isEmpty) || (sl b 250 1 == 1 && !k.qVec.isEmpty) ||
  (sl b 252 1 == 1 && !k.loads.isEmpty) || (sl b 253 1 == 1 && !k.fps.isEmpty) ||
  (sl b (200 + 42) 6 != 0 && decide (4 ≤ k.qMatA.length)) || (sl b (152 + 42) 6 != 0 && decide (4 ≤ k.qMatB.length)) ||
  (sl b (112 + 32) 8 != 0 && decide (4 ≤ k.qVec.length)) ||
  (s0Reads (sl b 36 36) ++ s1Reads (sl b 0 36) ++ xferReads (sl b 72 40)).any k.pendingReg ||
  ((sl b 30 6 == 5 || sl b 30 6 == 6) && k.fps.any (fun p => p.slow))

/-- Counts a step of a core: of its command and of the core (R43, R226). -/
def State.countStep (s : State) (n q : Nat) : State :=
  (s.updHead q (fun c => { c with steps := c.steps + 1 })).wrapAdd (R.CORE_STEPS n) F.CORE_STEPS_STEPS 1

/-- Issues every slot of a bundle; none while the store of its S0 slot waits for a handover. -/
def State.issueSlots (s : State) (n b : Nat) : Option State :=
  let old := s.ctx n
  let s1 := (((s.issueMat n .a .matA old (sl b 200 48)).issueMat n .b .matB old (sl b 152 48)).issueVec n old (sl b 112 40)).issueXfer n old (sl b 72 40)
  match s1.s0Slot n (sl b 36 36) with
  | none => none
  | some s2 =>
    let s3 := s2.s1Slot n old (sl b 0 36)
    let k := s3.core n
    some (if sl b 254 1 = 1 then s3.setCore n { k with endPending := true }
      else if sl b 255 1 = 1 then s3.setCore n { k with yieldOffered := true }
      else s3)

/-- An uncorrectable fetch: the bundle is fetched again from HBM, and the program goes on with unchanged results (R191). -/
def State.imemEcc (s : State) (n : Nat) : State := (s.coreErr n ceImemEcc 5 0).satAdd (R.CORE_CNT n) F.CORE_CNT_IMEM_REFETCH 1

/-- Whether a core has a program that may issue its next bundle: a running RUN command of queue q that neither yields, ends, saves nor restores. -/
def State.issues (s : State) (n q : Nat) : Bool :=
  let k := s.core n
  s.coreRuns n && k.image.isSome && !k.restoring && !k.saving && !k.yieldOffered && !k.endPending && s.executing q &&
  (match s.head q with
    | some c => c.opcode == 1
    | none => false)

/-- BUNDLE_ISSUE (R192, R193): one counted step of a core, in which its next bundle issues or is held. -/
def execBundleIssue (n : Fin 16) (ecc : Bool) (s : State) : Out :=
  .next (
    match (s.core n.val).running with
    | none => s
    | some q =>
      if !s.issues n.val q then s
      else
        let s0 := if ecc then s.imemEcc n.val else s
        let k := s0.core n.val
        let b := (Store.get (fun _ => 0) k.imem k.ctx.pc).toNat
        if k.holds b then s0.countStep n.val q
        else if k.xferHolds b then (if s0.xferWaits n.val then s0 else s0.countStep n.val q)
        else ((s0.countStep n.val q).issueSlots n.val b).getD s0)

/-- PROGRAM_END (R192, R196): the operations of the last bundle have finished, and the command completes. -/
def execProgramEnd (n : Fin 16) (s : State) : Out :=
  .next (
    let k := s.core n.val
    if k.endPending ∧ k.qMatA.isEmpty ∧ k.qMatB.isEmpty ∧ k.qVec.isEmpty ∧ k.qXfer.isEmpty ∧ k.loads.isEmpty ∧ k.fps.isEmpty then
      s.endOnCore n.val stDone
    else s)

/-! ### Yield points (R194, R449, R451, R453, R542) -/

/-- Whether a core's program is suspended at its yield point: a higher rank waits, the quantum has passed and an equal rank waits, or its canton is in a COMMIT (R83, R449, R453). -/
def State.switchDue (s : State) (n q : Nat) : Bool :=
  let k := s.core n
  k.suspendReq || (k.quantumPassed && s.equalWaits q) || s.inCommit (s.qCanton q)

/-- Whether a planned swap waits for a core's yield point (R542). -/
def State.swapDue (s : State) (n : Nat) : Bool :=
  match s.rep.swap with
  | some w => w.planned && w.n == n && !w.copying
  | none => false

/-- Clears what a yield point clears: accumulators, weight tiles and bindings (R194, R235). -/
def State.yieldClear (s : State) (n : Nat) : State := s.setCore n { s.core n with matA := {}, matB := {} }

/-- YIELD_POINT (R194): the engine queues are empty, but for remote reads when a switch is to occur. What yields clear is cleared; then an expired or abandoned command stops (R53), a waiting swap starts its copy (R542), the scheduler switches (R449, R453), or the program goes on. -/
def execYieldPoint (n : Fin 16) (s : State) : Out :=
  .next (
    let k := s.core n.val
    match k.running with
    | none => s
    | some q =>
      let stopping := match s.head q with
        | some c => c.phase == .stopping
        | none => false
      let due := s.switchDue n.val q && !stopping && !s.swapDue n.val
      let drained := k.qMatA.isEmpty && k.qMatB.isEmpty && k.qVec.isEmpty && k.loads.isEmpty && k.fps.isEmpty &&
        (k.qXfer.isEmpty || (due && s.xferWaits n.val))
      if !(k.yieldOffered && drained) then s
      else
        let s1 := s.yieldClear n.val
        if stopping then s1.endOnCore n.val stDone
        else if s.swapDue n.val then
          let s2 := { s1 with rep := { s1.rep with swap := s1.rep.swap.map (fun (w : Swap) => { w with copying := true }) } }
          ((s2.cmdFlags q (flagBit fgPreempted)).setFld (R.CORE_STATUS n.val) F.CORE_STATUS_STATE 3).setCore n.val
            { s2.core n.val with yieldOffered := false }
        else if due then s1.suspend n.val q (!k.suspendReq && !s.inCommit (s.qCanton q))
        else s1.setCore n.val { s1.core n.val with yieldOffered := false })

/-- YIELD_REMOTE_TIMEOUT (R451): the remote reads of a core that suspends are cancelled and recorded, to be issued again when its context resumes. -/
def execYieldRemoteTimeout (n : Fin 16) (s : State) : Out :=
  .next (
    let k := s.core n.val
    if k.saving then
      let mine (o : OutRead) : Bool := s.forCore n.val o && !inHostWindow o.addr
      ({ s with host := { s.host with reads := s.host.reads.filter (fun o => !mine o) } }).setCore n.val
        { k with cancelled := k.cancelled ++ s.host.reads.filter mine }
    else s)

end Sys2Proof.Machine
end

