-- ==== Sys2Proof/Machine/Units.lean ====
section
/-! DEFINITION. What the chip-level units share: the command they execute, the memory they reach, and how a command of theirs ends (R53, R292, R442). -/

namespace Sys2Proof.Machine

/-- Runs a unit's effect on the command that a queue of the unit executes, with the unit's instance. -/
def State.onUnit (s : State) (q unit : Nat) (f : Cmd → Nat → State) : State :=
  match s.head q with
  | none => s
  | some c => if s.qUnit q = unit ∧ s.executing q then f c (s.qInst q) else s

/-- Whether a unit's command has been told to stop, by its expiry or by ABANDON (R53, R455). -/
def Cmd.cut (c : Cmd) : Bool := c.phase == .stopping

/-- Whether a VALID format field of a command differs from the format its data has (R437). -/
def Cmd.fmtDiffers (c : Cmd) (i code : Nat) : Bool := fmtValid c.desc i && c.fmtByte i % 32 != code

/-- Ends a unit's command: the unit is free. -/
def State.endUnit (s : State) (q : Nat) (st : BitVec 8) : State := (s.endCmd q st).setBusy (s.qUnit q) (s.qInst q) false

/-- Ends a unit's command REJECTED on a parameter of its own: it never started. -/
def State.rejectUnit (s : State) (q : Nat) : State :=
  (s.updHead q (fun c => { c with phase := .ended, status := worse stRejected c.status, start := c.acc, stop := c.acc })).setBusy (s.qUnit q) (s.qInst q) false

/-- Sets the count word of a queue's command (R438). -/
def State.cmdAux (s : State) (q : Nat) (x : Nat) : State := s.updHead q (fun c => { c with aux := BitVec.ofNat 32 x })

/-- Sets format flags on a queue's command. -/
def State.cmdFmt (s : State) (q : Nat) (fl : FmtFlags) : State := s.cmdFlags q (fl.setWidth 24)

/-- Counts steps whose number the spec bounds but does not state: a free value (log 1). -/
def State.freeSteps (s : State) (off : Nat) (f : Fld) : State :=
  let x := s.free
  x.2.wrapAdd off f x.1.toNat

/-- Whether a byte lies in HBM or in a shared bank that the agent owns. -/
def State.unitByte (s : State) (g : Agent) (a : Nat) : Bool :=
  match s.place a with
  | .hbm _ => true
  | .spd b off => let p := (s.bankByte b off).1; decide (1024 ≤ p) && s.ownsBank g p
  | _ => false

/-- Whether n bytes at a lie in HBM and owned shared banks. -/
def State.unitSpan (s : State) (g : Agent) (a : Nat) : Nat → Bool
  | 0 => true
  | n + 1 => s.unitByte g a && s.unitSpan g (a + 1) n

/-- Whether every run does. -/
def State.unitRuns (s : State) (g : Agent) (l : List Run) : Bool := l.all (fun r => s.unitSpan g r.addr r.bytes)

/-- Reads n bytes as a unit's agent, with what the read reports. -/
def State.unitRead (s : State) (g : Agent) (a n : Nat) : MemRead × State := (s.readMem g a n, s.noteRead g a n)

/-- A descriptor in the bytes of a parameter block. -/
def descAt (l : List Byte) (off : Nat) : Desc :=
  descOf ((List.range 4).map (fun i => BitVec.ofNat 64 (sliceN l (off + 8 * i) 8)))

/-- The FP32 sum of two values, rounded to nearest even. -/
def f32Add (x y : Val) : Val := roundF32 (x.add y)
/-- The FP32 product. -/
def f32Mul (x y : Val) : Val := roundF32 (x.mul y)

end Sys2Proof.Machine
end

