-- ==== Sys2Proof/Machine/Control.lean ====
section
/-! DEFINITION. The control engine: the sample sequence of a rate group, the control law, min-select groups, latches, its commands and trace sets (R367 to R394). -/

namespace Sys2Proof.Machine

/-! ### Arithmetic (R372, R374) -/

def int32Lo : Int := -2147483648
def int32Hi : Int := 2147483647

/-- Saturates to 32 bits, and says whether it clamped. -/
def sat32 (x : Int) : Int × Bool := clampInt int32Lo int32Hi x
def sat64 (x : Int) : Int × Bool := clampInt (-9223372036854775808) 9223372036854775807 x
def sat16 (x : Int) : Int × Bool := clampInt (-32768) 32767 x

/-- x / 2^k rounded to nearest, ties to even. -/
def rneShift (x : Int) (k : Nat) : Int := roundInt .rne 0 (decide (x < 0)) x.natAbs (-(k : Int))

/-- A value with point qs moved to point q: a left shift saturates, a right shift rounds to nearest even (R372). -/
def movePoint (x : Int) (qs q : Nat) : Int × Bool :=
  if qs ≤ q then sat32 (x * ((2 ^ (q - qs) : Nat) : Int)) else (rneShift x (qs - q), false)

/-- An FP32 code as QFIX32 with point q, and whether it saturated or was a NaN (R188, R372). -/
def qfixOf (q code : Nat) : Int × Bool :=
  match ofF32 code with
  | .nan => (0, true)
  | .inf s => (if s then int32Lo else int32Hi, true)
  | .fin s m e => sat32 (roundInt .rne 0 s m (e + (q : Int)))

/-- The signed value of a 32-bit code. -/
def s32 (x : Nat) : Int := signExt 32 x

/-! ### Flags (R375) -/

def cfSatIn : Nat := 0x001
def cfSatAcc : Nat := 0x002
def cfSatState : Nat := 0x004
def cfLimitHi : Nat := 0x008
def cfLimitLo : Nat := 0x010
def cfSatOut : Nat := 0x020
def cfLost : Nat := 0x040
def cfInFault : Nat := 0x080
def cfMemErr : Nat := 0x100

/-- A flag when a condition holds. -/
def flagIf (b : Bool) (f : Nat) : Nat := if b then f else 0

/-- Sets the current flags of a slot, and ORs them into the sticky ones (R375). -/
def State.slotFlags (s : State) (i fl : Nat) : State :=
  (s.setFld (R.CTL_SLOT_FLAGS i) F.CTL_SLOT_FLAGS_CURRENT fl).setFld (R.CTL_SLOT_FLAGS i) F.CTL_SLOT_FLAGS_STICKY
    (s.fld (R.CTL_SLOT_FLAGS i) F.CTL_SLOT_FLAGS_STICKY ||| fl)

/-- Adds flags to the current and sticky flags of a slot in the sample being evaluated. -/
def State.slotFlagsOr (s : State) (i fl : Nat) : State :=
  s.slotFlags i (s.fld (R.CTL_SLOT_FLAGS i) F.CTL_SLOT_FLAGS_CURRENT ||| fl)

/-! ### Fire (R369, R371, R398) -/

/-- The sensor ports bound to a group. -/
def State.groupPorts (s : State) (g : Nat) : List Nat :=
  (List.range 24).filter (fun p => s.bit (R.SIO_SP_CFG p) F.SIO_SP_CFG_ACTIVE && s.bit (R.SIO_SP_CFG p) F.SIO_SP_CFG_BOUND &&
    s.fld (R.SIO_SP_CFG p) F.SIO_SP_CFG_GROUP == g)

def State.sport (s : State) (p : Nat) : SPort := Store.get (fun _ => ({} : SPort)) s.io.sports p
def State.setSport (s : State) (p : Nat) (x : SPort) : State :=
  { s with io := { s.io with sports := Store.set (fun _ => ({} : SPort)) s.io.sports p x } }

/-- Counts a missed start of a group and sets OVERRUN (R371, R390). -/
def State.missedStart (s : State) (g : Nat) : State :=
  (s.satAdd (R.CTL_GROUP_STAT g) F.CTL_GROUP_STAT_MISSED_STARTS 1).withCause 6 (fun t => t.setFld R.CTL_STAT F.CTL_STAT_OVERRUN 1)

/-- Starts an acquisition on a bound port, unless it is still acquiring, which counts as a missed start (R398). -/
def State.sportStart (s : State) (g p : Nat) (stamp : Word) : State :=
  if (s.sport p).acq.isSome then s.missedStart g else s.setSport p { s.sport p with acq := some stamp }

/-- CTL_GROUP_FIRE: a KIND 2 fire starts a sample, unless the group is disabled; while it evaluates an earlier one the fire is ignored and counted (R369, R371, R381). -/
def State.groupFire (s : State) (g : Nat) (stamp : Word) : State :=
  if !s.groupActive g || s.bit (R.CTL_GROUP_CTL g) F.CTL_GROUP_CTL_DISABLE then s
  else if (s.grp g).phase ≠ .idle then s.missedStart g
  else
    (s.groupPorts g).foldl (fun (t : State) p => t.sportStart g p stamp)
      (s.setGrp g { s.grp g with phase := .fired, t0 := stamp, overran := false })

/-! ### Snapshot (R369, R372, R383) -/

/-- What a source in another group had published: y of a slot, or the value of a min-select group (R372). -/
def State.published (s : State) (src : SlotSrc) : Int :=
  if src.src = 2 then s32 (s.fld (R.CTL_SLOT_OUT src.index) F.CTL_SLOT_OUT_Y)
  else if src.src = 4 then (s.sel src.index).pubY
  else 0

/-- A slot takes what was staged for it (R383). -/
def State.slotSnap (s : State) (i : Nat) : State :=
  let x := s.slot i
  let s1 := match x.stA with
    | some v => s.setFld (R.CTL_SLOT_IN i) F.CTL_SLOT_IN_IN_A v.toNat
    | none => s
  let s2 := match x.stB with
    | some v => s1.setFld (R.CTL_SLOT_IN i) F.CTL_SLOT_IN_IN_B v.toNat
    | none => s1
  let s3 := if x.stCoef.isSome then
      s2.setFld (R.CTL_SLOT_FLAGS i) F.CTL_SLOT_FLAGS_CURRENT (s2.fld (R.CTL_SLOT_FLAGS i) F.CTL_SLOT_FLAGS_CURRENT % 256)
    else s2
  let x1 := { x with stA := none, stB := none, stCoef := none, stY := none, capA := s.published x.opA, capB := s.published x.opB
                     coef := x.stCoef.getD x.coef, faulted := x.faulted && x.stCoef.isNone }
  s3.setSlot i (match x.stY with
    | some v =>
      let y := qfixOf (s.slotQ i) v.toNat
      { x1 with x1 := 0, x2 := 0, x3 := 0, y1 := y.1, y2 := y.1, y3 := y.1, presetSat := x.presetSat || y.2 }
    | none => x1)

/-- CTL_SNAPSHOT (R369): the start reaches the engine; input registers, pending coefficient sets and pending presets of the group's slots are taken. -/
def execCtlSnapshot (g : Fin 8) (s : State) : Out :=
  .next (
    let x := s.grp g.val
    if x.phase = .fired then
      (s.groupSlots g.val).foldl (fun (t : State) i => t.slotSnap i) (s.setGrp g.val { x with phase := .snapped, snap := s.now })
    else s)

/-! ### Evaluation (R372 to R378) -/

/-- The last good word w of a sensor port (R399). -/
def State.sensorWord (s : State) (p w : Nat) : Int :=
  signExt 16 ((s.reg (if w < 4 then R.SIO_SP_VAL0 p else R.SIO_SP_VAL1 p)).toNat / 2 ^ (16 * (w % 4)))

/-- The point of a source's value: of the slot, or of the first member of the min-select group. -/
def State.srcQ (s : State) (src : SlotSrc) : Nat :=
  if src.src = 2 then s.slotQ src.index else s.slotQ ((s.sel src.index).members.headD 0)

/-- An operand of slot i with the flags its reading sets (R372, R373). -/
def State.operand (s : State) (i : Nat) (src : SlotSrc) (isA : Bool) : Int × Nat :=
  let q := s.slotQ i
  let x := s.slot i
  match src.src with
  | 1 =>
    let p := src.index / 8
    (s.sensorWord p (src.index % 8) * ((2 ^ src.shift : Nat) : Int), flagIf (s.sport p).faulty cfInFault)
  | 2 | 4 =>
    let same := if src.src = 2 then s.slotGroup src.index == s.slotGroup i else s.selGroup src.index == s.slotGroup i
    let v := if same then (if src.src = 2 then (s.slot src.index).y else (s.sel src.index).y) else (if isA then x.capA else x.capB)
    let r := movePoint v (s.srcQ src) q
    (r.1, flagIf r.2 cfSatIn)
  | 3 =>
    let r := qfixOf q (s.fld (R.CTL_SLOT_IN i) (if isA then F.CTL_SLOT_IN_IN_A else F.CTL_SLOT_IN_IN_B))
    (r.1, flagIf r.2 cfSatIn)
  | _ => (0, 0)

/-- The products of the law, added one after the other with saturation to 64 bits (R374). -/
def accumulate : List (Int × Int) → Int × Bool → Int × Bool
  | [], a => a
  | (c, v) :: r, a =>
    let t := sat64 (a.1 + c * v)
    accumulate r (t.1, a.2 || t.2)

/-- Evaluates slot i by the control law (R374), and adds its code to the sample when it has an output binding. -/
def State.slotLaw (s : State) (g i : Nat) : State :=
  let x := s.slot i
  let a := s.operand i x.opA true
  let b := s.operand i x.opB false
  let e := sat32 (a.1 - b.1)
  let c := x.coef
  let k (j : Nat) : Int := c.getD j 0
  let acc := accumulate [(k 0, e.1), (k 1, x.x1), (k 2, x.x2), (k 3, x.x3), (-k 4, x.y1), (-k 5, x.y2), (-k 6, x.y3)] (0, false)
  let yr := sat32 (rneShift acc.1 29)
  let y := min (max yr.1 x.limLo) x.limHi
  let bound := s.bit (R.CTL_SLOT_CFG i) F.CTL_SLOT_CFG_OUT_BOUND
  let code := sat16 (rneShift y (s.fld (R.CTL_SLOT_CFG i) F.CTL_SLOT_CFG_OUT_SHIFT))
  let fl := flagIf x.presetSat cfSatIn ||| a.2 ||| b.2 ||| flagIf e.2 cfSatIn ||| flagIf acc.2 cfSatAcc ||| flagIf yr.2 cfSatState |||
    flagIf (decide (x.limHi < yr.1)) cfLimitHi ||| flagIf (decide (yr.1 < x.limLo)) cfLimitLo ||| flagIf (bound && code.2) cfSatOut
  let s1 := s.setSlot i { x with
    a := a.1, b := b.1, x := e.1, yraw := yr.1, y := y, code := if bound then code.1 else 0, presetSat := false
    x1 := e.1, x2 := x.x1, x3 := x.x2, y1 := y, y2 := x.y1, y3 := x.y2 }
  let s2 := s1.slotFlags i fl
  if bound then
    let h := s2.grp g
    s2.setGrp g { h with res := { h.res with codes := h.res.codes ++ [(s.fld (R.CTL_SLOT_CFG i) F.CTL_SLOT_CFG_OUT_INDEX, code.1)] } }
  else s2

/-- SLOT_MEM_ERR: a slot with an uncorrectable error is not evaluated and sets MEM_ERR; a new error is reported to FLT and to Plumb (R376). -/
def State.slotMemErr (s : State) (i : Fin 512) : State :=
  let x := s.slot i.val
  let s1 := s.slotFlags i.val cfMemErr
  if x.faulted then s1
  else
    let s2 := (s1.setSlot i.val { x with faulted := true }).withCause 6 (fun t => t.setFld R.CTL_STAT F.CTL_STAT_MEM_UNCORR 1)
    (s2.event 13 0x80 (s2.reg R.CTL_STAT) 0).assertLine (.slot i) (s.fld (R.CTL_SLOT_CFG i.val) F.CTL_SLOT_CFG_CANTON)

/-- The lowest value of a list of slots and values; on a tie the lowest slot (R378). -/
def lowest : List (Nat × Int) → Option (Nat × Int)
  | [] => none
  | p :: r =>
    match lowest r with
    | none => some p
    | some b => if p.2 ≤ b.2 then some p else some b

/-- A loser sets LOST_SELECT, and with TRACK takes the selected value as its y history (R378). -/
def State.loser (s : State) (q0 i : Nat) (v : Int) : State :=
  let s1 := s.slotFlagsOr i cfLost
  if s.bit (R.CTL_SLOT_CFG i) F.CTL_SLOT_CFG_TRACK then
    let r := movePoint v q0 (s.slotQ i)
    (s1.setSlot i { s1.slot i with y1 := r.1 }).slotFlagsOr i (flagIf r.2 cfSatState)
  else s1

/-- MIN_SELECT_RESOLVE: the member with the lowest y wins; the group's value and code are those of the winner, the losers set LOST_SELECT (R376, R378). SAT_OUT of the group is kept on the winner (log 41). -/
def State.selResolve (s : State) (g m : Nat) : State :=
  let z := s.sel m
  let q0 := s.slotQ (z.members.headD 0)
  let vals := (z.members.filter (fun i => !(s.slot i).faulted)).map (fun i => (i, (movePoint (s.slot i).y (s.slotQ i) q0).1))
  match lowest vals with
  | none => s
  | some (w, v) =>
    let code := sat16 (rneShift v z.outShift)
    let s1 := s.setSel m { z with y := v, code := if z.outBound then code.1 else 0, seen := true }
    let s2 := if z.seen ∧ s.fld (R.CTL_SEL_STAT m) F.CTL_SEL_STAT_WINNER ≠ w then s1.wrapAdd (R.CTL_SEL_STAT m) F.CTL_SEL_STAT_CHANGES 1 else s1
    let s3 := s2.setFld (R.CTL_SEL_STAT m) F.CTL_SEL_STAT_WINNER w
    let s4 := (vals.filter (fun p => p.1 != w)).foldl (fun (t : State) p => t.loser q0 p.1 v) s3
    if z.outBound then
      let h := s4.grp g
      (s4.setGrp g { h with res := { h.res with codes := h.res.codes ++ [(z.outIndex, code.1)] } }).slotFlagsOr w (flagIf code.2 cfSatOut)
    else s4

/-- Evaluates one slot of a group, then the min-select groups of which it is the highest-numbered member. -/
def State.evalSlot (s : State) (g : Nat) (bad : List (Fin 512)) (i : Nat) : State :=
  let s1 := match bad.find? (fun b => b.val == i) with
    | some b => s.slotMemErr b
    | none => if (s.slot i).faulted then s.slotFlags i cfMemErr else s.slotLaw g i
  (s1.groupSels g).foldl (fun (t : State) m => if (t.sel m).members.getLast? = some i then t.selResolve g m else t) s1

/-- CTL_EVALUATE (R369, R374): once every bound sensor port has delivered or reported a fault, the slots are evaluated in ascending order; bad names those in whose entries an uncorrectable error is found. -/
def execCtlEvaluate (g : Fin 8) (bad : List (Fin 512)) (s : State) : Out :=
  .next (
    let n := g.val
    let x := s.grp n
    if x.phase = .snapped ∧ (s.groupPorts n).all (fun p => (s.sport p).acq.isNone) then
      let s1 := s.setGrp n { x with res := { stamp := x.t0 } }
      let sl := s.groupSlots n
      let s2 := sl.foldl (fun (t : State) i => t.evalSlot n bad i) s1
      let h := s2.grp n
      s2.setGrp n { h with phase := .evaluated, res := { h.res with
        slots := sl.map (fun i => (i, (s2.slot i).y, (s2.slot i).code))
        sels := (s2.groupSels n).map (fun m => (m, (s2.sel m).y))
        flags := sl.map (fun i => (i, s2.fld (R.CTL_SLOT_FLAGS i) F.CTL_SLOT_FLAGS_CURRENT)) } }
    else s)

/-! ### Trace sets (R387, R388, R394) -/

def State.trace (s : State) (t : Nat) : Trace := Store.get (fun _ => ({} : Trace)) s.ctl.traces t
def State.setTrace (s : State) (t : Nat) (x : Trace) : State :=
  { s with ctl := { s.ctl with traces := Store.set (fun _ => ({} : Trace)) s.ctl.traces t x } }

def State.traceState (s : State) (t : Nat) : Nat := s.fld (R.CTL_TRACE_STAT t) F.CTL_TRACE_STAT_STATE
def State.traceGroup (s : State) (t : Nat) : Nat := s.fld (R.CTL_TRACE_CFG t) F.CTL_TRACE_CFG_GROUP

/-- The channels of a set, ascending. -/
def State.traceChannels (s : State) (t : Nat) : List Nat :=
  (List.range 32).filter (fun p => s.bit (R.CTL_PROBE p) F.CTL_PROBE_ENABLE && s.fld (R.CTL_PROBE p) F.CTL_PROBE_SET == t)

/-- The sample of a channel (R387). -/
def State.probe (s : State) (p : Nat) : Int :=
  let i := s.fld (R.CTL_PROBE p) F.CTL_PROBE_SLOT
  let x := s.slot i
  let v (y : Int) : Int := (sat16 (rneShift y (s.fld (R.CTL_PROBE p) F.CTL_PROBE_SHIFT))).1
  match s.fld (R.CTL_PROBE p) F.CTL_PROBE_NODE with
  | 0 => v x.a
  | 1 => v x.b
  | 2 => v x.x
  | 3 => v x.yraw
  | 4 => v x.y
  | 5 => x.code
  | _ => ((s.fld (R.CTL_SLOT_FLAGS i) F.CTL_SLOT_FLAGS_CURRENT : Nat) : Int)

/-- DECIM of a set, 0 taken as 256 (R394). -/
def State.traceDecim (s : State) (t : Nat) : Nat :=
  let d := s.fld (R.CTL_TRACE_CFG t) F.CTL_TRACE_CFG_DECIM
  if d = 0 then 256 else d

/-- The samples before the trigger. -/
def State.tracePre (s : State) (t : Nat) : Nat := s.fld (R.CTL_TRACE_CFG t) F.CTL_TRACE_CFG_PRE * 1024

/-- Whether a set triggers on this sample (R388). -/
def State.traceFires (s : State) (t : Nat) (vals : List (Nat × Int)) : Bool :=
  let x := s.trace t
  let th := signExt 16 (s.fld (R.CTL_TRACE_TRIG t) F.CTL_TRACE_TRIG_THRESHOLD)
  let ch := (vals.find? (fun p => p.1 == s.fld (R.CTL_TRACE_TRIG t) F.CTL_TRACE_TRIG_TRIG_CHANNEL)).map (fun p => p.2)
  match s.fld (R.CTL_TRACE_TRIG t) F.CTL_TRACE_TRIG_TRIG_MODE with
  | 0 => x.force
  | 1 =>
    let fl := s.fld (R.CTL_SLOT_FLAGS (s.fld (R.CTL_TRACE_TRIG t) F.CTL_TRACE_TRIG_TRIG_SLOT)) F.CTL_SLOT_FLAGS_CURRENT
    (List.range 9).any (fun b => fl.testBit b && !x.prevFlags.testBit b && (s.fld (R.CTL_TRACE_TRIG t) F.CTL_TRACE_TRIG_FLAG_MASK).testBit b)
  | 2 => match ch with
    | some v => decide (th < v)
    | none => false
  | 3 => match ch with
    | some v => decide (v < th)
    | none => false
  | 4 => match ch, x.prev with
    | some v, some u => decide (u ≤ th ∧ th < v)
    | _, _ => false
  | _ => false

/-- A set that is ARMED or TRIGGERED records every DECIM-th evaluation of its group (R387). -/
def State.traceSample (s : State) (g t : Nat) : State :=
  if s.traceGroup t ≠ g ∨ !(s.traceState t = 1 ∨ s.traceState t = 2) then s
  else
    let x := s.trace t
    if x.skip + 1 < s.traceDecim t then s.setTrace t { x with skip := x.skip + 1 }
    else
      let vals := (s.traceChannels t).map (fun p => (p, s.probe p))
      let pre := s.tracePre t
      let before := x.buf.length
      let fires := s.traceState t == 1 && decide (pre ≤ before) && s.traceFires t vals
      let buf := (if s.traceState t = 1 then (if fires then x.buf.drop (before - pre) else x.buf.drop (before + 1 - 8192)) else x.buf)
        ++ [vals.map (fun p => p.2)]
      let ch := (vals.find? (fun p => p.1 == s.fld (R.CTL_TRACE_TRIG t) F.CTL_TRACE_TRIG_TRIG_CHANNEL)).map (fun p => p.2)
      let fl := s.fld (R.CTL_SLOT_FLAGS (s.fld (R.CTL_TRACE_TRIG t) F.CTL_TRACE_TRIG_TRIG_SLOT)) F.CTL_SLOT_FLAGS_CURRENT
      let s1 := s.setTrace t { x with buf := buf, skip := 0, prev := ch, prevFlags := fl, force := x.force && !fires,
                                      trig := if fires then some pre else x.trig }
      let s2 := s1.setFld (R.CTL_TRACE_STAT t) F.CTL_TRACE_STAT_RECORDED (min 8192 (s.fld (R.CTL_TRACE_STAT t) F.CTL_TRACE_STAT_RECORDED + 1))
      let s3 := if fires then (s2.setFld (R.CTL_TRACE_STAT t) F.CTL_TRACE_STAT_STATE 2).setReg (R.CTL_TRACE_STAMP t) (s.grp g).snap else s2
      if (fires || s.traceState t == 2) && decide (8192 ≤ buf.length) then s3.setFld (R.CTL_TRACE_STAT t) F.CTL_TRACE_STAT_STATE 3 else s3

/-- Whether a requester may configure a set: the host and the management processor any, a program over the mirror only one whose group belongs to its canton (R389). -/
def State.traceMay (s : State) (r : Req) (g : Nat) : Bool :=
  match r with
  | .host | .bar2 | .mgt => true
  | .core n => s.groupActive g && s.cantonOfCore n.val == some (s.fld (R.CTL_GROUP_CFG g) F.CTL_GROUP_CFG_CANTON)
  | _ => false

/-- Ignores a trace configuration write and sets CFG_REJECT. -/
def State.cfgReject (s : State) : State := s.setFld R.CTL_STAT F.CTL_STAT_CFG_REJECT 1

/-- ARM: clears the set and arms it (R387). -/
def State.traceArm (s : State) (t : Nat) : State :=
  ((s.setTrace t {}).setFld (R.CTL_TRACE_STAT t) F.CTL_TRACE_STAT_STATE 1).setFld (R.CTL_TRACE_STAT t) F.CTL_TRACE_STAT_RECORDED 0

/-- FORCE: the manual trigger of an armed set in mode 0 (R388). -/
def State.traceForce (s : State) (t : Nat) : State :=
  if s.traceState t = 1 then s.setTrace t { s.trace t with force := true } else s

/-- CTL_TRACE_ARM (R387): a set that is ARMED or TRIGGERED takes no configuration write (R394). -/
def execCtlTraceArm (t : Fin 4) (r : Req) (s : State) : Out :=
  .next (
    if !s.hears r (R.CTL_TRACE_CFG t.val) then s
    else if !s.traceMay r (s.traceGroup t.val) ∨ s.traceState t.val = 1 ∨ s.traceState t.val = 2 then s.cfgReject else s.traceArm t.val)

/-- CTL_TRACE_FORCE (R388). -/
def execCtlTraceForce (t : Fin 4) (r : Req) (s : State) : Out :=
  .next (
    if !s.hears r (R.CTL_TRACE_CFG t.val) then s
    else if s.traceMay r (s.traceGroup t.val) then s.traceForce t.val else s.cfgReject)

/-- Whether every channel of a set probes a slot of a group (R387). -/
def State.channelsFit (s : State) (t g : Nat) : Bool :=
  (s.traceChannels t).all (fun p => s.slotGroup (s.fld (R.CTL_PROBE p) F.CTL_PROBE_SLOT) == g &&
    s.slotActive (s.fld (R.CTL_PROBE p) F.CTL_PROBE_SLOT))

/-- A write of CTL_TRACE_CFG or CTL_TRACE_TRIG of a set, with its actions, or of CTL_PROBE (R387, R389, R394). What breaks the rules of a set is ignored with CFG_REJECT. -/
def State.writeTrace (s : State) (r : Req) (off : Nat) (h : Half) (v : Word) : State :=
  if !s.hears r off then s
  else if 0x831000 ≤ off then
    let p := (off - 0x831000) / 8
    let s1 := s.writeFields off h v
    let t := s1.fld (R.CTL_PROBE p) F.CTL_PROBE_SET
    let old := s.fld (R.CTL_PROBE p) F.CTL_PROBE_SET
    let busy (x : Nat) : Bool := s.traceState x == 1 || s.traceState x == 2
    let sl := s1.fld (R.CTL_PROBE p) F.CTL_PROBE_SLOT
    if !s.traceMay r (s.traceGroup t) || !s.traceMay r (s.traceGroup old) || busy t || busy old ||
        s1.fld (R.CTL_PROBE p) F.CTL_PROBE_NODE == 7 ||
        (s1.bit (R.CTL_PROBE p) F.CTL_PROBE_ENABLE && !(s.slotActive sl && s.slotGroup sl == s.traceGroup t)) then s.cfgReject
    else s1
  else
    let t := (off - 0x830000) / 0x20
    let forceOnly := off % 0x20 == 0 && h == .low
    let s1 := s.writeFields off h v
    if !s.traceMay r (s.traceGroup t) || !s.traceMay r (s1.traceGroup t) then s.cfgReject
    else if s.traceState t = 1 ∨ s.traceState t = 2 then
      if forceOnly ∧ v.getLsbD 2 ∧ !v.getLsbD 0 then s.traceForce t else s.cfgReject
    else if !s1.channelsFit t (s1.traceGroup t) then s.cfgReject
    else
      let s2 := if off % 0x20 = 0 ∧ h ≠ .high ∧ v.getLsbD 0 then s1.traceArm t else s1
      if off % 0x20 = 0 ∧ h ≠ .high ∧ v.getLsbD 2 then s2.traceForce t else s2

/-- Whether an offset is a trace configuration register. -/
def isTraceReg (off : Nat) : Bool :=
  (decide (0x830000 ≤ off ∧ off < 0x830080) && (off % 0x20 == 0 || off % 0x20 == 8)) || decide (0x831000 ≤ off ∧ off < 0x831100)

/-- TRACE_CONFIG_WRITE (R387, R389). -/
def execTraceConfigWrite (r : Req) (off : BitVec 26) (h : Half) (v : Word) (s : State) : Out :=
  .next (if isTraceReg off.toNat then s.writeTrace r off.toNat h v else s)

/-! ### Hand-off and latch (R369, R371, R379 to R381) -/

/-- Ends what a disable in DRAIN mode left to finish: the outputs become high-impedance (R381). -/
def State.groupFinish (s : State) (g : Nat) : State :=
  let x := s.grp g
  if x.finishing ∧ x.phase = .idle ∧ x.ready = [] then (s.setGrp g { x with finishing := false }).actStop else s

/-- CTL_HANDOFF (R369, R387): the output codes reach the timers' shadow registers, unless the sample has overrun; the trace sets of the group record. -/
def execCtlHandoff (g : Fin 8) (s : State) : Out :=
  .next (
    let n := g.val
    if (s.grp n).phase = .evaluated then
      let s1 := (List.range 4).foldl (fun (t : State) k => t.traceSample n k) s
      let x := s1.grp n
      (s1.setGrp n { x with phase := .idle, ready := if x.overran then x.ready else x.ready ++ [x.res] }).groupFinish n
    else s)

/-- φ_out of a group in ns. -/
def State.phiOut (s : State) (g : Nat) : Int := ((s.fld (R.CTL_GROUP_CFG g) F.CTL_GROUP_CFG_PHI_OUT_4NS * 4 : Nat) : Int)

/-- Whether the latch of a sample with a fire stamp is due (R649). -/
def State.latchDue (s : State) (g : Nat) (stamp : Word) : Bool := decide (s.phiOut g ≤ stampDiff s.now stamp)

/-- A sample handed off in time is latched: outputs are published, the timers take the codes, Plumb and the lock-step source get them (R369, R379, R380, R493). -/
def State.latch (s : State) (g : Nat) (x : Sample) : State :=
  let h := s.grp g
  let inC := s.inCommit (s.fld (R.CTL_GROUP_CFG g) F.CTL_GROUP_CFG_CANTON)
  let s0 := s.setGrp g { h with ready := h.ready.erase x, latched := true, outage := h.outage && inC }
  let s1 := if h.outage && !inC then s0.plRefresh else s0
  let s2 := x.slots.foldl (fun (t : State) p =>
    (t.setFld (R.CTL_SLOT_OUT p.1) F.CTL_SLOT_OUT_Y (toTwos 32 p.2.1)).setFld (R.CTL_SLOT_OUT p.1) F.CTL_SLOT_OUT_CODE (toTwos 16 p.2.2)) s1
  let s3 := x.sels.foldl (fun (t : State) p => t.setSel p.1 { t.sel p.1 with pubY := p.2 }) s2
  let s4 := (s3.wrapAdd (R.CTL_GROUP_STAT g) F.CTL_GROUP_STAT_SAMPLES 1).setReg (R.CTL_GROUP_LAST g) x.stamp
  let s5 := x.codes.foldl (fun (t : State) c => t.latchCode c.1 c.2) s4
  ((s5.plumbLatch g x.stamp x.codes x.flags false).lsGroup g x.codes).groupFinish g

/-- CTL_LATCH (R369, R371): at t₀ + φ_out the codes of a sample handed off take effect; a sample whose hand-off has not finished by then overruns: the timers keep the previous codes, and the overrun is counted and goes to Plumb. -/
def execCtlLatch (g : Fin 8) (s : State) : Out :=
  .next (
    let n := g.val
    let h := s.grp n
    match h.ready.find? (fun x => s.latchDue n x.stamp) with
    | some x => s.latch n x
    | none =>
      if h.phase ≠ .idle ∧ h.overran = false ∧ s.latchDue n h.t0 then
        let s1 := (s.setGrp n { h with overran := true }).satAdd (R.CTL_GROUP_STAT n) F.CTL_GROUP_STAT_OVERRUNS 1
        (s1.withCause 6 (fun t => t.setFld R.CTL_STAT F.CTL_STAT_OVERRUN 1)).plumbLatch n h.t0 [] [] true
      else s)

/-! ### Disabling a group (R381) -/

/-- CTL_GROUP_CTL.DISABLE = 1: no further fire is accepted; DRAIN lets the sample in progress latch, ABANDON discards it. -/
def State.groupDisable (s : State) (g : Nat) (r : Req) (abandon : Bool) : State :=
  s.guardW r (R.CTL_GROUP_CTL g) (fun s =>
    let x := s.grp g
    let s1 := (s.setFld (R.CTL_GROUP_CTL g) F.CTL_GROUP_CTL_DISABLE 1).setBit (R.CTL_GROUP_CTL g) F.CTL_GROUP_CTL_DISABLE_MODE abandon
    let s2 := if abandon then s1.setGrp g { x with phase := .idle, ready := [], overran := false, finishing := false }
      else s1.setGrp g { x with finishing := x.phase != .idle || !x.ready.isEmpty }
    s2.actStop)

/-- CTL_GROUP_CTL.DISABLE = 0: the group resumes at the next fire. -/
def State.groupEnable (s : State) (g : Nat) (r : Req) : State :=
  s.guardW r (R.CTL_GROUP_CTL g) (fun s =>
    (s.setFld (R.CTL_GROUP_CTL g) F.CTL_GROUP_CTL_DISABLE 0).setGrp g { s.grp g with finishing := false })

/-- CTL_GROUP_DISABLE (R381). -/
def execCtlGroupDisable (g : Fin 8) (r : Req) (abandon : Bool) (s : State) : Out := .next (s.groupDisable g.val r abandon)

/-- CTL_GROUP_ENABLE (R381). -/
def execCtlGroupEnable (g : Fin 8) (r : Req) (s : State) : Out := .next (s.groupEnable g.val r)

/-! ### Staging (R382, R383) -/

/-- CTL_SLOT_IN: a host write is staged, each half by itself (R383, R392). -/
def State.writeSlotIn (s : State) (i : Nat) (r : Req) (h : Half) (v : Word) : State :=
  s.guardW r (R.CTL_SLOT_IN i) (fun s =>
    let x := s.slot i
    let x1 := if h = .low then x else { x with stA := some (BitVec.ofNat 32 (v.toNat / 2 ^ 32)) }
    s.setSlot i (if h = .high then x1 else { x1 with stB := some (BitVec.ofNat 32 v.toNat) }))

/-- CTL_SLOT_IN_WRITE (R383). -/
def execCtlSlotInWrite (sl : Fin 512) (r : Req) (h : Half) (v : Word) (s : State) : Out := .next (s.writeSlotIn sl.val r h v)

/-- Ends a control command: its opcode and status show in CTL_STAT (R390). -/
def State.ctlEnd (s : State) (q : Nat) (rejected : Bool) (st : BitVec 8) : State :=
  let op := match s.head q with
    | some c => c.opcode
    | none => 0
  let s1 := if rejected then s.rejectUnit q else s.endUnit q st
  let fin := match s1.head q with
    | some c => finalStatus c 6
    | none => 0
  (s1.setFld R.CTL_STAT F.CTL_STAT_LAST_OP op).setFld R.CTL_STAT F.CTL_STAT_LAST_STATUS fin.toNat

/-- The agent of the control engine, which owns no bank. -/
def ctlAgent (canton : Nat) : Agent := unitAgent 0x100 canton

/-- Whether an address of a control command is refused: not 8-aligned, or remote (R382). -/
def State.ctlAddrBad (s : State) (a : Nat) : Bool :=
  a % 8 != 0 || (match s.place a with
    | .remote _ _ => true
    | _ => false)

/-- Whether a slot belongs to a canton. -/
def State.slotOf (s : State) (c i : Nat) : Bool :=
  decide (i < 512) && s.slotActive i && s.fld (R.CTL_SLOT_CFG i) F.CTL_SLOT_CFG_CANTON == c

/-- A command over a list of entries of a size: its checks, the read of the entries, and their application as one event (R382, R383, R385). -/
def State.ctlEntries (s : State) (q : Nat) (c : Cmd) (op size fmt : Nat) (bad : List Byte → Bool) (apply : State → List Byte → State) : State :=
  let src := c.pl 0 8
  let n := c.pl 8 2
  let canton := s.qCanton q
  if c.opcode ≠ op then s
  else if !zeroBytes c.desc 34 30 || n == 0 || decide (512 < n) || s.ctlAddrBad src || c.fmtDiffers 0 fmt then s.ctlEnd q true stRejected
  else
    let x := s.unitRead (ctlAgent canton) src (n * size)
    let es := (List.range n).map (fun i => (x.1.bytes.drop (i * size)).take size)
    if x.1.wait then s
    else if x.1.bad then x.2.ctlEnd q false stIntegrity
    else if es.any (fun e => bad e || !s.slotOf canton (sliceN e 0 2)) then x.2.ctlEnd q true stRejected
    else (es.foldl apply (x.2.cmdFlags q x.1.flags)).ctlEnd q false stDone

/-- CTL_WRITE_INPUTS (R382, R383). -/
def execCtlWriteInputs (q : BitVec 16) (s : State) : Out :=
  .next (s.onUnit q.toNat 6 (fun c _ => s.ctlEntries q.toNat c 1 8 1
    (fun e => decide (1 < sliceN e 2 1) || sliceN e 3 1 != 0)
    (fun (t : State) e =>
      let i := sliceN e 0 2
      let v : BitVec 32 := BitVec.ofNat 32 (sliceN e 4 4)
      let x := t.slot i
      t.setSlot i (if sliceN e 2 1 = 0 then { x with stA := some v } else { x with stB := some v }))))

/-- CTL_SET_COEF (R382, R383). -/
def execCtlSetCoef (q : BitVec 16) (s : State) : Out :=
  .next (s.onUnit q.toNat 6 (fun c _ => s.ctlEntries q.toNat c 2 40 0x11
    (fun e => sliceN e 2 2 != 0 || sliceN e 32 8 != 0)
    (fun (t : State) e =>
      let i := sliceN e 0 2
      t.setSlot i { t.slot i with stCoef := some ((List.range 7).map (fun j => s32 (sliceN e (4 + 4 * j) 4))) })))

/-- CTL_RESET_STATE (R382, R383). -/
def execCtlResetState (q : BitVec 16) (s : State) : Out :=
  .next (s.onUnit q.toNat 6 (fun c _ => s.ctlEntries q.toNat c 3 8 1
    (fun e => sliceN e 2 2 != 0)
    (fun (t : State) e => t.setSlot (sliceN e 0 2) { t.slot (sliceN e 0 2) with stY := some (BitVec.ofNat 32 (sliceN e 4 4)) })))

/-- The bytes TRACE_READ writes: a header of 32, then the samples of each channel, oldest first (R389). -/
def State.traceBytes (s : State) (t : Nat) : List Byte :=
  let chs := s.traceChannels t
  let mask := chs.foldl (fun (a : Nat) p => a + 2 ^ p) 0
  let buf := (s.trace t).buf
  leBytes (s.reg (R.CTL_TRACE_STAMP t)).toNat 8 ++ leBytes 8192 2 ++ leBytes (s.tracePre t) 2 ++ leBytes mask 4 ++
  leBytes (s.traceDecim t) 2 ++ leBytes (s.traceGroup t) 1 ++ List.replicate 13 0 ++
  (List.range chs.length).flatMap (fun k => buf.flatMap (fun (r : List Int) => leBytes (toTwos 16 (r.getD k 0)) 2))

/-- CTL_TRACE_READ (R382, R389). -/
def execCtlTraceRead (q : BitVec 16) (s : State) : Out :=
  .next (s.onUnit q.toNat 6 (fun c _ =>
    let n := q.toNat
    let t := c.pl 0 1
    let dst := c.pl 8 8
    if c.opcode ≠ 4 then s
    else if !zeroBytes c.desc 25 7 || !zeroBytes c.desc 40 24 || decide (3 < t) || s.ctlAddrBad dst || c.fmtDiffers 0 0x0B || s.traceState t != 3 then
      s.ctlEnd n true stRejected
    else
      let w := s.writeMem (ctlAgent (s.qCanton n)) dst (s.traceBytes t)
      if w.wait then s else (w.state.cmdFlags n w.flags).ctlEnd n false stDone))

end Sys2Proof.Machine
end

