-- ==== Sys2Proof/Machine/Sensor.lean ====
section
/-! DEFINITION. Sensor ports: acquisition results, word extraction, faults, and where frames go (R398 to R402, R498). -/

namespace Sys2Proof.Machine

/-- The device time in ns that a stamp near the present names. -/
def State.nsOf (s : State) (w : Word) : Nat := ((s.nowNs : Int) + stampDiff w s.now).toNat

def State.spMode (s : State) (p : Nat) : Nat := s.fld (R.SIO_SP_CFG p) F.SIO_SP_CFG_MODE
def State.spBits (s : State) (p : Nat) : Nat := s.fld (R.SIO_SP_CFG p) F.SIO_SP_CFG_BITS + 1

/-- The data of a raw frame, Gray code converted; in BiSS-C nE and nW stay as they are (R398). -/
def State.spData (s : State) (p raw : Nat) : Nat :=
  let lo := if s.spMode p = 1 then 2 else 0
  if s.bit (R.SIO_SP_CFG p) F.SIO_SP_CFG_GRAY then grayToBin (s.spBits p - lo) (raw / 2 ^ lo) * 2 ^ lo + raw % 2 ^ lo else raw

/-- The specification of word i of a port (R424). -/
def State.wordSpec (s : State) (p i : Nat) : Nat :=
  (s.reg (if i < 4 then R.SIO_SP_WORDA p else R.SIO_SP_WORDB p)).toNat / 2 ^ (16 * (i % 4)) % 65536

/-- Word i of a frame, as a 16-bit code; a word not enabled keeps what it held (R399). -/
def State.spWord (s : State) (p data i : Nat) : Nat :=
  let w := s.wordSpec p i
  if w / 2048 % 2 = 1 then toTwos 16 (wordOf data (w % 64) (w / 64 % 16 + 1) (w / 1024 % 2 == 1))
  else toTwos 16 (s.sensorWord p i)

/-- Four words of a frame as a register. -/
def State.spVal (s : State) (p data i : Nat) : Word :=
  BitVec.ofNat 64 (s.spWord p data i + s.spWord p data (i + 1) * 2 ^ 16 + s.spWord p data (i + 2) * 2 ^ 32 + s.spWord p data (i + 3) * 2 ^ 48)

/-- Stores the raw frame of an acquisition and its fire stamp. -/
def State.spRaw (s : State) (p : Nat) (raw : Nat) (stamp : Word) : State :=
  (s.setReg (R.SIO_SP_RAW p) (BitVec.ofNat 64 raw)).setReg (R.SIO_SP_STAMP p) stamp

/-- A port reports a fault (R400): no word is delivered, readers set IN_FAULT, Plumb and the replay log hear of it (R402). frame is whether a raw frame was received. -/
def State.spFault (s : State) (p code raw : Nat) (frame : Bool) (stamp : Word) : State :=
  let s1 := s.setSport p { acq := none, faulty := true }
  let s2 := (s1.setFld (R.SIO_SP_STAT p) F.SIO_SP_STAT_LAST_FAULT code).satAdd (R.SIO_SP_STAT p) F.SIO_SP_STAT_FAULTS 1
  let s3 := if frame then s2.spRaw p raw stamp else s2
  (s3.plumbSensor p (s.nsOf stamp) none).record 3 6 p code stamp 0 (leBytes raw 8)

/-- A port delivers a good frame (R399, R402). -/
def State.spGood (s : State) (p raw : Nat) (stamp : Word) : State :=
  let d := s.spData p raw
  let s1 := (s.setSport p { acq := none, faulty := false }).spRaw p raw stamp
  let s2 := (s1.setReg (R.SIO_SP_VAL0 p) (s.spVal p d 0)).setReg (R.SIO_SP_VAL1 p) (s.spVal p d 4)
  (s2.plumbSensor p (s.nsOf stamp) (some (BitVec.ofNat 64 raw))).record 3 6 p 0 stamp 0 (leBytes raw 8)

/-- The fault that a received frame shows by itself (R400): in BiSS-C a line delay beyond LINE_DELAY or nE = 0, in SPI a frame of one level only. -/
def State.spCheck (s : State) (p raw delay : Nat) : Nat :=
  if s.spMode p = 1 then
    if s.fld (R.SIO_SP_CFG p) F.SIO_SP_CFG_LINE_DELAY < delay then 2 else if raw / 2 % 2 = 0 then 4 else 0
  else if s.spMode p = 2 ∧ s.bit (R.SIO_SP_CFG p) F.SIO_SP_CFG_CHECK ∧ (raw = 0 ∨ raw = 2 ^ s.spBits p - 1) then 5
  else 0

/-- Takes a received frame of a port. -/
def State.spFrame (s : State) (p raw delay : Nat) (stamp : Word) : State :=
  let r := raw % 2 ^ s.spBits p
  let s1 := if s.spMode p = 1 then s.setFld (R.SIO_SP_STAT p) F.SIO_SP_STAT_DELAY_MEAS delay else s
  match s.spCheck p r delay with
  | 0 => (if s.spMode p = 1 ∧ r % 2 = 0 then s1.setFld (R.SIO_SP_STAT p) F.SIO_SP_STAT_WARN 1 else s1).spGood p r stamp
  | 2 => s1.spFault p 2 0 false stamp
  | c => s1.spFault p c r true stamp

/-- What the replay log delivers to a bound port in place of its own frame: the entry with the fire stamp, or fault 6 (R498). -/
def State.spReplay (s : State) (p : Nat) (stamp : Word) : State :=
  match s.det.replaySens.find? (fun e => e.1 == p && e.2.1 == stamp) with
  | some e =>
    let s1 := { s with det := { s.det with replaySens := s.det.replaySens.erase e } }
    let raw := e.2.2.2.toNat
    if e.2.2.1 = 0 then s1.spGood p raw stamp else s1.spFault p e.2.2.1 raw true stamp
  | none => (s.satAdd R.DET_REPLAY_STAT F.DET_REPLAY_STAT_MISSING 1).spFault p 6 0 false stamp

/-- Takes the live result of an acquisition in progress, or the replayed one in its place (R498). -/
def State.spTake (s : State) (p : Nat) (f : Word → State → State) : State :=
  match (s.sport p).acq with
  | none => s
  | some stamp =>
    if s.replays 3 then (s.satAdd R.DET_REPLAY_STAT F.DET_REPLAY_STAT_LIVE_IGNORED 1).spReplay p stamp else f stamp s

/-- SENSOR_FRAME_COMPLETE (R398 to R402). -/
def execSensorFrameComplete (p : Fin 24) (res : SensorResult) (s : State) : Out :=
  .next (s.spTake p.val (fun stamp s =>
    match res with
    | .good raw delay => s.spFrame p.val raw.toNat delay.toNat stamp
    | .fault code raw => s.spFault p.val code.toNat (raw.toNat % 2 ^ s.spBits p.val) (code != 1) stamp))

/-- SENSOR_NO_START_TIMEOUT (R400): no start bit within ACK_MAX periods. -/
def execSensorNoStartTimeout (p : Fin 24) (s : State) : Out :=
  .next (s.spTake p.val (fun stamp s => if s.spMode p.val = 1 then s.spFault p.val 2 0 false stamp else s))

end Sys2Proof.Machine
end

