-- ==== Sys2Proof/Machine/Can.lean ====
section
/-! DEFINITION. The CAN FD controllers: buffers, acceptance, arbitration, errors and bus-off, disabling (R409 to R416, R426, R427). -/

namespace Sys2Proof.Machine

def State.can (s : State) (k : Nat) : CanSt := Store.get (fun _ => ({} : CanSt)) s.io.cans k
def State.setCan (s : State) (k : Nat) (x : CanSt) : State :=
  { s with io := { s.io with cans := Store.set (fun _ => ({} : CanSt)) s.io.cans k x } }

def State.canActive (s : State) (k : Nat) : Bool := s.bit (R.CAN_CFG k) F.CAN_CFG_ACTIVE
def State.canState (s : State) (k : Nat) : Nat := s.fld (R.CAN_STAT k) F.CAN_STAT_STATE
def State.canPlumb (s : State) (k : Nat) : Bool := s.bit (R.CAN_CFG k) F.CAN_CFG_PLUMB
def State.mb (s : State) (k m : Nat) (f : Fld) : Nat := s.fld (R.CAN_MB_CTRL k m) f
def State.mbSet (s : State) (k m : Nat) (f : Fld) (x : Nat) : State := s.setFld (R.CAN_MB_CTRL k m) f x
def State.mbId (s : State) (k m : Nat) : Nat := s.fld (R.CAN_MB_ID k m) F.CAN_MB_ID_ID

/-- Whether a buffer requests transmission. -/
def State.mbReq (s : State) (k m : Nat) : Bool := s.mb k m F.CAN_MB_CTRL_REQ == 1

/-- Whether the controller is on the bus: error-active or error-passive. -/
def State.canOn (s : State) (k : Nat) : Bool := s.canActive k && decide (s.canState k < 2)

/-- The data bytes of a data length code (R409). -/
def dlcBytes (fdf : Bool) (d : Nat) : Nat :=
  if d ≤ 8 then d else if fdf then [12, 16, 20, 24, 32, 48, 64].getD (d - 9) 64 else 8

/-! ### Error counters and states (R414) -/

/-- The state that the error counters give: bus-off beyond 255, passive from 128, else active. -/
def canStateOf (tec rec' : Nat) : Nat := if 128 ≤ tec ∨ 128 ≤ rec' then 1 else 0

/-- Sets the error counters of a controller on the bus and the state they give; beyond 255 it goes bus-off and recovery starts by itself where AUTO_RECOVER or PLUMB says so (R414, R415). -/
def State.canCounts (s : State) (k tec rec' : Nat) : State :=
  let s1 := (s.setFld (R.CAN_STAT k) F.CAN_STAT_TEC (min 255 tec)).setFld (R.CAN_STAT k) F.CAN_STAT_REC (min 255 rec')
  if 255 < tec then
    let s2 := (s1.setFld (R.CAN_STAT k) F.CAN_STAT_STATE 2).satAdd (R.CAN_STAT k) F.CAN_STAT_BUSOFF_CNT 1
    if s.bit (R.CAN_CFG k) F.CAN_CFG_AUTO_RECOVER || s.canPlumb k then s2.setCan k { s2.can k with recovering := true } else s2
  else s1.setFld (R.CAN_STAT k) F.CAN_STAT_STATE (canStateOf tec rec')

def State.canTec (s : State) (k : Nat) : Nat := s.fld (R.CAN_STAT k) F.CAN_STAT_TEC
def State.canRec (s : State) (k : Nat) : Nat := s.fld (R.CAN_STAT k) F.CAN_STAT_REC

/-- The code of LAST_ERR (R426); none for a lost arbitration. -/
def canErrCode : CanErr → Option Nat
  | .arbLost => none
  | .stuff => some 1 | .form => some 2 | .ack => some 3 | .bit1 => some 4 | .bit0 => some 5 | .crc => some 6

/-- Clears the request of a buffer, with or without TX_FAIL. -/
def State.mbEnd (s : State) (k m : Nat) (fail : Bool) : State :=
  let s1 := s.mbSet k m F.CAN_MB_CTRL_REQ 0
  let s2 := s1.setCan k { s1.can k with aborting := (s1.can k).aborting.filter (fun x => x != m) }
  if fail then s2.mbSet k m F.CAN_MB_CTRL_TX_FAIL 1 else s2

/-- Clears every pending request but Plumb's with TX_FAIL (R416). -/
def State.canFailAll (s : State) (k : Nat) (p : Nat → Bool) : State :=
  ((List.range 64).filter (fun m => s.mbReq k m && !(s.canPlumb k && m == 63) && p m)).foldl (fun (t : State) m => t.mbEnd k m true) s

/-- After a frame on the bus has ended, a controller that was told to leave goes off the bus (R416). -/
def State.canFrameEnd (s : State) (k : Nat) : State :=
  if (s.can k).leaving then
    let ab := (s.can k).aborting
    let s1 := s.canFailAll k (fun m => ab.contains m)
    (s1.setFld (R.CAN_STAT k) F.CAN_STAT_STATE 3).setCan k {}
  else s

/-! ### Reception (R411, R412) -/

/-- Whether a buffer takes a frame. -/
def State.mbTakes (s : State) (k : Nat) (f : CanFrame) (m : Nat) : Bool :=
  s.mb k m F.CAN_MB_CTRL_ENABLE == 1 && s.mb k m F.CAN_MB_CTRL_DIR == 0 && !(s.canPlumb k && m == 63) &&
  s.mb k m F.CAN_MB_CTRL_IDE == (if f.ide then 1 else 0) &&
  (let mask := s.fld (R.CAN_MB_ID k m) F.CAN_MB_ID_MASK
   f.id.toNat &&& mask == s.mbId k m &&& mask)

/-- The data words of a buffer from bytes. -/
def State.mbData (s : State) (k m : Nat) (l : List Byte) : Nat → State
  | 0 => s
  | i + 1 => (s.mbData k m l i).setReg (R.CAN_MB_DATA k m i) (BitVec.ofNat 64 (sliceN l (8 * i) 8))

/-- Stores a frame in a buffer: UPDATE counts the begin and the end of the store (R411, R412). -/
def State.mbStore (s : State) (k m : Nat) (f : CanFrame) (sof : BitVec 32) : State :=
  let b (x : Bool) : Nat := if x then 1 else 0
  let s1 := (s.setFld (R.CAN_MB_ID k m) F.CAN_MB_ID_ID f.id.toNat).setFld (R.CAN_MB_STAMP k m) F.CAN_MB_STAMP_SOF sof.toNat
  let s2 := ((s1.mbSet k m F.CAN_MB_CTRL_FDF (b f.fdf)).mbSet k m F.CAN_MB_CTRL_BRS (b f.brs)).mbSet k m F.CAN_MB_CTRL_ESI (b f.esi)
  let s3 := (s2.mbSet k m F.CAN_MB_CTRL_RTR (b f.rtr)).mbSet k m F.CAN_MB_CTRL_DLC f.dlc.toNat
  let s4 := s3.mbData k m (f.data ++ List.replicate (64 - f.data.length) 0) 8
  let s5 := if s.mb k m F.CAN_MB_CTRL_NEW = 1 then s4.mbSet k m F.CAN_MB_CTRL_OVERWRITE 1 else s4
  (s5.mbSet k m F.CAN_MB_CTRL_NEW 1).wrapAdd (R.CAN_MB_CTRL k m) F.CAN_MB_CTRL_UPDATE 2

/-- The control flags of a recorded CAN frame: the DLC in bits 3:0, then RTR, ESI, BRS, FDF and IDE (R496; log 42). -/
def canCtl (f : CanFrame) : Nat :=
  f.dlc.toNat + (if f.rtr then 16 else 0) + (if f.esi then 32 else 0) + (if f.brs then 64 else 0) + (if f.fdf then 128 else 0) + (if f.ide then 256 else 0)

/-- The full stamp of a 32-bit start-of-frame stamp near the present (R106). -/
def State.fullStamp (s : State) (sof : BitVec 32) : Word :=
  let d := (sof - canStampOfNs s.nowNs).toInt
  stampAdd s.now d

/-- A frame goes to the lowest-numbered buffer that takes it, and to the record; without one it is counted (R411). -/
def State.canFilter (s : State) (k : Nat) (f : CanFrame) (sof : BitVec 32) (stamp : Word) : State :=
  match (List.range 64).find? (fun m => s.mbTakes k f m) with
  | some m =>
    (s.mbStore k m f sof).record 2 5 k 0 stamp 0
      (leBytes f.id.toNat 4 ++ leBytes (canCtl f) 4 ++ f.data ++ List.replicate (64 - f.data.length) 0)
  | none => s.satAdd (R.CAN_STAT k) F.CAN_STAT_NOMATCH 1

/-- What a good reception does to REC (R414, ISO 11898-1): one less; from above 127 a value between 119 and 127, which is free (log 1). -/
def State.canRecDown (s : State) (k : Nat) : State :=
  let r := s.canRec k
  if r = 0 then s
  else if r ≤ 127 then s.canCounts k (s.canTec k) (r - 1)
  else
    let x := s.free
    x.2.canCounts k (s.canTec k) (119 + x.1.toNat % 9)

/-- CAN_FRAME_RECEIVED (R411): an FD frame on a controller without FD is no frame of its own. -/
def execCanFrameReceived (k : Fin 8) (f : CanFrame) (sof : BitVec 32) (s : State) : Out :=
  .next (
    let n := k.val
    if s.canOn n ∧ (f.fdf = false ∨ s.bit (R.CAN_CFG n) F.CAN_CFG_FD_EN) then
      ((s.canRecDown n).liveInput 2 (fun t => t.canFilter n f sof (t.fullStamp sof))).canFrameEnd n
    else s)

/-! ### Transmission (R413) -/

/-- Whether buffer a goes before buffer b: Plumb's first, then the lower identifier, then the lower number (R413, R415). An 11-bit identifier goes before a 29-bit one with the same leading bits. -/
def State.mbBefore (s : State) (k a b : Nat) : Bool :=
  if s.canPlumb k ∧ a = 63 then true
  else if s.canPlumb k ∧ b = 63 then false
  else
    let x := s.mbId k a * 2 + s.mb k a F.CAN_MB_CTRL_IDE
    let y := s.mbId k b * 2 + s.mb k b F.CAN_MB_CTRL_IDE
    decide (x < y ∨ (x = y ∧ a < b))

/-- The first buffer in arbitration order. -/
def State.mbFirst (s : State) (k : Nat) : List Nat → Option Nat
  | [] => none
  | m :: r =>
    match s.mbFirst k r with
    | none => some m
    | some b => if s.mbBefore k m b then some m else some b

/-- The buffer whose frame arbitrates: pending, a transmit buffer in use. -/
def State.mbWinner (s : State) (k : Nat) : Option Nat :=
  s.mbFirst k ((List.range 64).filter (fun m => s.mbReq k m))

/-- The bytes of a buffer. -/
def State.mbBytes (s : State) (k m n : Nat) : List Byte :=
  ((List.range 8).flatMap (fun i => leBytes (s.reg (R.CAN_MB_DATA k m i)).toNat 8)).take n

/-- The frame of a transmit buffer. -/
def State.mbFrame (s : State) (k m : Nat) : CanFrame :=
  let fdf := s.mb k m F.CAN_MB_CTRL_FDF == 1
  let d := s.mb k m F.CAN_MB_CTRL_DLC
  let rtr := s.mb k m F.CAN_MB_CTRL_RTR == 1 && !fdf
  { ide := s.mb k m F.CAN_MB_CTRL_IDE == 1, fdf := fdf, brs := s.mb k m F.CAN_MB_CTRL_BRS == 1 && fdf, esi := fdf && s.canState k == 1
    rtr := rtr, dlc := BitVec.ofNat 4 d, id := BitVec.ofNat 29 (s.mbId k m), data := if rtr then [] else s.mbBytes k m (dlcBytes fdf d) }

/-- Whether writes to a buffer are ignored: its REQ is 1, or it belongs to Plumb (R413, R415). -/
def State.mbLocked (s : State) (k m : Nat) : Bool := s.mbReq k m || (s.canPlumb k && m == 63)

/-- REQ = 1 on a transmit buffer. -/
def State.txRequest (s : State) (k m : Nat) : State :=
  if s.canPlumb k ∧ m = 63 then s
  else if s.mb k m F.CAN_MB_CTRL_DIR = 1 ∧ s.mb k m F.CAN_MB_CTRL_ENABLE = 1 then s.mbSet k m F.CAN_MB_CTRL_REQ 1 else s

/-- CAN_TX_REQUEST (R413). -/
def execCanTxRequest (k : Fin 8) (m : Fin 64) (r : Req) (s : State) : Out :=
  .next (s.guardW r (R.CAN_MB_CTRL k.val m.val) (fun s => s.txRequest k.val m.val))

/-- ABORT: a frame on the bus is not stopped, but retried no more; any other request ends with TX_FAIL (R413). -/
def State.txAbort (s : State) (k m : Nat) (onBus : Bool) : State :=
  if !s.mbReq k m ∨ (s.canPlumb k ∧ m = 63) then s
  else if onBus then s.setCan k { s.can k with aborting := m :: (s.can k).aborting.filter (fun x => x != m) }
  else s.mbEnd k m true

/-- CAN_TX_ABORT (R413). -/
def execCanTxAbort (k : Fin 8) (m : Fin 64) (r : Req) (onBus : Bool) (s : State) : Out :=
  .next (s.guardW r (R.CAN_MB_CTRL k.val m.val) (fun s => s.txAbort k.val m.val onBus))

/-- A write of CAN_MB_CTRL (R413, R427): NEW, OVERWRITE and TX_FAIL clear by W1C; the control fields are taken while REQ is 0; then REQ and ABORT act, an abort of a request found on the bus by onBus. -/
def State.writeMbCtrl (s : State) (k m : Nat) (h : Half) (v : Word) (onBus : Bool) : State :=
  if s.canPlumb k ∧ m = 63 then s
  else
    let off := R.CAN_MB_CTRL k m
    let req : Word := 0x0000100000000000
    let s1 := if s.mbReq k m then s.setReg off (s.reg off &&& ~~~ (v &&& halfMask h &&& 0x0000070000000000))
      else
        let t := s.writeFields off h (v &&& ~~~ req)
        t
    if h = .low then s1
    else
      let s2 := if v.getLsbD 44 ∧ !s.mbReq k m then s1.txRequest k m else s1
      if v.getLsbD 43 then s2.txAbort k m onBus else s2

/-- CAN_TX_COMPLETE (R413): the frame that won arbitration has been sent. -/
def execCanTxComplete (k : Fin 8) (sof : BitVec 32) (s : State) : Out :=
  .next (
    let n := k.val
    if s.canOn n ∧ !s.bit (R.CAN_CFG n) F.CAN_CFG_LISTEN then
      match s.mbWinner n with
      | none => s
      | some m =>
        let f := s.mbFrame n m
        let s1 := (s.mbEnd n m false).setFld (R.CAN_MB_STAMP n m) F.CAN_MB_STAMP_SOF sof.toNat
        ((s1.canCounts n (s.canTec n - 1) (s.canRec n)).emit (.can n f)).canFrameEnd n
    else s)

/-- CAN_TX_ERROR (R413, R414): a lost arbitration or an error of the frame that arbitrates. TEC rises by 8, but for an acknowledgement error of an error-passive controller; a ONESHOT or aborted request ends, any other is retried. -/
def execCanTxError (k : Fin 8) (e : CanErr) (s : State) : Out :=
  .next (
    let n := k.val
    if s.canOn n ∧ !s.bit (R.CAN_CFG n) F.CAN_CFG_LISTEN then
      match s.mbWinner n with
      | none => s
      | some m =>
        let s1 := if s.mb n m F.CAN_MB_CTRL_ONESHOT = 1 ∨ (s.can n).aborting.contains m then s.mbEnd n m true else s
        let s2 := match canErrCode e with
          | none => s1
          | some c =>
            let t := s1.setFld (R.CAN_STAT n) F.CAN_STAT_LAST_ERR c
            if e = CanErr.ack ∧ s.canState n = 1 then t else t.canCounts n (s.canTec n + 8) (s.canRec n)
        s2.canFrameEnd n
    else s)

/-- CAN_RX_ERROR (R414): an error in a frame received; REC rises by one. -/
def execCanRxError (k : Fin 8) (e : CanErr) (s : State) : Out :=
  .next (
    let n := k.val
    if s.canOn n then
      match canErrCode e with
      | none => s
      | some c => (((s.setFld (R.CAN_STAT n) F.CAN_STAT_LAST_ERR c).canCounts n (s.canTec n) (s.canRec n + 1))).canFrameEnd n
    else s)

/-! ### Recovery, disabling and integration (R414, R416) -/

/-- RECOVER: recovery from bus-off starts. -/
def State.canRecover (s : State) (k : Nat) : State :=
  if s.canState k = 2 then s.setCan k { s.can k with recovering := true } else s

/-- CAN_RECOVER (R414). -/
def execCanRecover (k : Fin 8) (r : Req) (s : State) : Out := .next (s.guardW r (R.CAN_CTL k.val) (fun s => s.canRecover k.val))

/-- CAN_RECOVERY_DONE (R414): after 128 occurrences of 11 recessive bits the counters are 0 and pending requests resume. -/
def execCanRecoveryDone (k : Fin 8) (s : State) : Out :=
  .next (
    let n := k.val
    if s.canState n = 2 ∧ (s.can n).recovering then (s.setCan n { s.can n with recovering := false }).canCounts n 0 0 else s)

/-- DISABLE = 1: the controller leaves the bus, recessive, after the frame in progress; ABANDON fails the pending requests (R416). -/
def State.canDisable (s : State) (k : Nat) (abandon busy : Bool) : State :=
  let s1 := (s.setFld (R.CAN_CTL k) F.CAN_CTL_DISABLE 1).setBit (R.CAN_CTL k) F.CAN_CTL_DISABLE_MODE abandon
  if busy then
    let w := if abandon then s1.mbWinner k else none
    let s2 := if abandon then s1.canFailAll k (fun m => some m != w) else s1
    s2.setCan k { s2.can k with leaving := true, integrating := false, aborting := (s2.can k).aborting ++ w.toList }
  else
    let s2 := if abandon then s1.canFailAll k (fun _ => true) else s1
    (s2.setFld (R.CAN_STAT k) F.CAN_STAT_STATE 3).setCan k {}

/-- CAN_DISABLE (R416): busy says whether a frame is in progress on the bus. -/
def execCanDisable (k : Fin 8) (r : Req) (abandon busy : Bool) (s : State) : Out :=
  .next (s.guardW r (R.CAN_CTL k.val) (fun s => if s.canActive k.val then s.canDisable k.val abandon busy else s))

/-- Bus integration starts: the controller is off the bus until 11 recessive bits have passed (R416). -/
def State.canIntegrate (s : State) (k : Nat) : State :=
  (s.setFld (R.CAN_STAT k) F.CAN_STAT_STATE 3).setCan k { s.can k with integrating := true, leaving := false }

/-- DISABLE = 0: a controller that was disabled integrates again. -/
def State.canEnable (s : State) (k : Nat) : State :=
  if s.bit (R.CAN_CTL k) F.CAN_CTL_DISABLE then (s.setFld (R.CAN_CTL k) F.CAN_CTL_DISABLE 0).canIntegrate k else s

/-- CAN_ENABLE (R416). -/
def execCanEnable (k : Fin 8) (r : Req) (s : State) : Out :=
  .next (s.guardW r (R.CAN_CTL k.val) (fun s => if s.canActive k.val then s.canEnable k.val else s))

/-- CAN_BUS_INTEGRATION_DONE (R416): the controller joins the bus in the state its counters give. -/
def execCanBusIntegrationDone (k : Fin 8) (s : State) : Out :=
  .next (
    let n := k.val
    if (s.can n).integrating then
      (s.setCan n { s.can n with integrating := false }).setFld (R.CAN_STAT n) F.CAN_STAT_STATE (canStateOf (s.canTec n) (s.canRec n))
    else s)

end Sys2Proof.Machine
end

