-- ==== Sys2Proof/Machine/Jpeg.lean ====
section
/-! DEFINITION. Baseline JPEG (ITU-T T.81) as the decoders accept it: the marker segments and their checks (R150, R151, R154), Huffman decoding with restart markers (R152), and the samples of the image (R153). -/

namespace Sys2Proof.Machine

/-- The number that bytes spell, most significant byte first. -/
def beNat (l : List Byte) : Nat := l.foldl (fun (a : Nat) b => a * 256 + b.toNat) 0

/-- n bytes of a list at an offset, most significant byte first. -/
def sliceBE (l : List Byte) (off n : Nat) : Nat := beNat ((l.drop off).take n)

/-- A byte of a list, zero beyond its end. -/
def byteAt (l : List Byte) (i : Nat) : Nat := (l.getD i 0).toNat

/-- A component of the frame: identifier, sampling factors, and the tables it uses. -/
structure JComp where
  id : Nat
  h : Nat
  v : Nat
  tq : Nat
  td : Nat := 0
  ta : Nat := 0
  deriving DecidableEq, Repr

/-- A Huffman table: the number of codes of each length from 1 to 16, and the symbols in code order. -/
structure JHuff where
  counts : List Nat
  syms : List Nat
  deriving DecidableEq, Repr

/-- What the marker segments up to the SOS header give: the size, the components, the tables, the restart interval, the offset of the scan data, and whether a segment was invalid or an option unsupported. -/
structure JHead where
  w : Nat := 0
  h : Nat := 0
  comps : List JComp := []
  qts : List (Nat × List Nat) := []
  dcs : List (Nat × JHuff) := []
  acs : List (Nat × JHuff) := []
  ri : Nat := 0
  scan : Nat := 0
  sof : Bool := false
  bad : Bool := false
  uns : Bool := false
  deriving DecidableEq, Repr

/-- Puts a table in the place of one of the same number. -/
def setTable {α : Type} (l : List (Nat × α)) (i : Nat) (x : α) : List (Nat × α) := (i, x) :: l.filter (fun p => p.1 != i)

/-- A table by its number. -/
def table {α : Type} (l : List (Nat × α)) (i : Nat) : Option α := (l.find? (fun p => p.1 == i)).map (fun p => p.2)

/-- The quantisation tables of a DQT segment; fuel bounds their number. -/
def JHead.dqt (j : JHead) : Nat → List Byte → JHead
  | _, [] => j
  | 0, _ => { j with bad := true }
  | n + 1, b :: r =>
    if 16 ≤ b.toNat ∨ 4 ≤ b.toNat % 16 then { j with uns := true }
    else if r.length < 64 then { j with bad := true }
    else JHead.dqt { j with qts := setTable j.qts b.toNat ((r.take 64).map (fun x => x.toNat)) } n (r.drop 64)

/-- The Huffman tables of a DHT segment: two of each class. -/
def JHead.dht (j : JHead) : Nat → List Byte → JHead
  | _, [] => j
  | 0, _ => { j with bad := true }
  | n + 1, b :: r =>
    let counts := (r.take 16).map (fun x => x.toNat)
    let k := counts.foldl (fun a x => a + x) 0
    if r.length < 16 + k then { j with bad := true }
    else if 32 ≤ b.toNat ∨ 2 ≤ b.toNat % 16 then { j with uns := true }
    else
      let t : JHuff := ⟨counts, ((r.drop 16).take k).map (fun x => x.toNat)⟩
      let j1 := if b.toNat < 16 then { j with dcs := setTable j.dcs (b.toNat % 16) t } else { j with acs := setTable j.acs (b.toNat % 16) t }
      JHead.dht j1 n (r.drop (16 + k))

/-- The SOF0 segment: 8-bit samples, a size, one or three components with sampling factors of R150. -/
def JHead.sof0 (j : JHead) (p : List Byte) : JHead :=
  let n := byteAt p 5
  if j.sof ∨ p.length ≠ 6 + 3 * n then { j with bad := true }
  else
    let cs := (List.range n).map (fun i =>
      let b := byteAt p (7 + 3 * i)
      ({ id := byteAt p (6 + 3 * i), h := b / 16, v := b % 16, tq := byteAt p (8 + 3 * i) } : JComp))
    let f := cs.map (fun c => (c.h, c.v))
    let ok := f == [(1, 1)] || f == [(1, 1), (1, 1), (1, 1)] || f == [(2, 1), (1, 1), (1, 1)] || f == [(2, 2), (1, 1), (1, 1)]
    { j with sof := true, h := sliceBE p 1 2, w := sliceBE p 3 2, comps := cs,
             uns := j.uns || byteAt p 0 != 8 || sliceBE p 1 2 == 0 || sliceBE p 3 2 == 0 || !ok }

/-- The SOS header: one scan that holds every component, with tables that were defined. -/
def JHead.sos (j : JHead) (p : List Byte) : JHead :=
  let n := byteAt p 0
  if p.length ≠ 4 + 2 * n ∨ !j.sof then { j with bad := true }
  else
    let cs := (j.comps.zip (List.range j.comps.length)).map (fun (ci : JComp × Nat) =>
      let t := byteAt p (2 + 2 * ci.2)
      { ci.1 with td := t / 16, ta := t % 16 })
    let ids := (List.range n).map (fun i => byteAt p (1 + 2 * i))
    let one := ids == j.comps.map (fun c => c.id) && byteAt p (1 + 2 * n) == 0 && byteAt p (2 + 2 * n) == 63 && byteAt p (3 + 2 * n) == 0
    let have' := cs.all (fun c => (table j.qts c.tq).isSome && (table j.dcs c.td).isSome && (table j.acs c.ta).isSome)
    { j with comps := cs, uns := j.uns || !one, bad := j.bad || (one && !have') }

/-- What a marker segment does; APPn and COM are ignored (R150), any other one is an option that the decoder does not have (R151). -/
def JHead.segment (j : JHead) (m : Nat) (p : List Byte) : JHead :=
  if m = 0xC0 then j.sof0 p
  else if m = 0xC4 then j.dht 65 p
  else if m = 0xDB then j.dqt 65 p
  else if m = 0xDD then (if p.length = 2 then { j with ri := beNat p } else { j with bad := true })
  else if (0xE0 ≤ m ∧ m ≤ 0xEF) ∨ m = 0xFE then j
  else { j with uns := true }

/-- Walks the marker segments at offset off up to the end of the SOS header; fuel bounds their number. -/
def JHead.walk (j : JHead) (l : List Byte) : Nat → Nat → JHead
  | 0, _ => { j with bad := true }
  | n + 1, off =>
    if byteAt l off ≠ 0xFF ∨ l.length ≤ off + 1 then { j with bad := true }
    else
      let m := byteAt l (off + 1)
      if m = 0xFF then JHead.walk j l n (off + 1)
      else if m = 0x01 ∨ (0xD0 ≤ m ∧ m ≤ 0xD7) then JHead.walk j l n (off + 2)
      else if m = 0x00 ∨ m = 0xD8 ∨ m = 0xD9 then { j with bad := true }
      else
        let len := sliceBE l (off + 2) 2
        if len < 2 ∨ l.length < off + 2 + len then { j with bad := true }
        else
          let p := (l.drop (off + 4)).take (len - 2)
          if m = 0xDA then { j.sos p with scan := off + 2 + len }
          else JHead.walk (j.segment m p) l n (off + 2 + len)

/-- The header of a bitstream: SOI first (R154). -/
def jpegHead (l : List Byte) : JHead :=
  if l.length < 2 ∨ byteAt l 0 ≠ 0xFF ∨ byteAt l 1 ≠ 0xD8 then { bad := true }
  else JHead.walk {} l l.length 2

/-- The largest horizontal and vertical sampling factors. -/
def JHead.hmax (j : JHead) : Nat := j.comps.foldl (fun a c => max a c.h) 1
def JHead.vmax (j : JHead) : Nat := j.comps.foldl (fun a c => max a c.v) 1

/-- The MCUs in a row, and in the image (R154). -/
def JHead.mcuCols (j : JHead) : Nat := (j.w + 8 * j.hmax - 1) / (8 * j.hmax)
def JHead.mcus (j : JHead) : Nat := j.mcuCols * ((j.h + 8 * j.vmax - 1) / (8 * j.vmax))

/-- The coded blocks of an MCU. -/
def JHead.mcuBlocks (j : JHead) : Nat := j.comps.foldl (fun a c => a + c.h * c.v) 0

/-- The shortest scan data that the image can have (R154). -/
def JHead.minBytes (j : JHead) : Nat := (2 * (j.mcus * j.mcuBlocks) + 7) / 8

/-- The check that a bitstream fails at decoder start, as the bit of its flag in FLAGS (R154): MALFORMED, UNSUPPORTED, LIMIT, SHORT_SCAN, in this order. A dimension above 8,192 fails LIMIT (log 44). -/
def JHead.check (j : JHead) (total maxW maxH maxPx : Nat) : Option Nat :=
  if j.bad then some 14
  else if j.uns then some 11
  else if maxW < j.w ∨ maxH < j.h ∨ maxPx < j.w * j.h then some 9
  else if total - j.scan < j.minBytes then some 10
  else none

/-! ### Entropy-coded data -/

/-- Splits scan data at its restart markers: stuffed zero bytes are taken out, and any other marker ends the data. -/
def scanParts : List Byte → List Byte → List (List Byte)
  | acc, [] => [acc.reverse]
  | acc, [b] => if b.toNat = 0xFF then [acc.reverse] else [(b :: acc).reverse]
  | acc, b :: c :: r =>
    if b.toNat = 0xFF then
      if c.toNat = 0 then scanParts (b :: acc) r
      else if c.toNat = 0xFF then scanParts acc (c :: r)
      else if 0xD0 ≤ c.toNat ∧ c.toNat ≤ 0xD7 then acc.reverse :: scanParts [] r
      else [acc.reverse]
    else scanParts (b :: acc) (c :: r)

/-- The bits of bytes, most significant first. -/
def bitsOf (l : List Byte) : List Bool := l.flatMap (fun b => (List.range 8).map (fun i => b.toNat.testBit (7 - i)))

/-- Decodes a Huffman symbol (T.81 F.2.2.3): code is the code read so far, first the first code of the length, index that of its symbol. -/
def huffSym (syms : List Nat) : List Nat → Nat → Nat → Nat → List Bool → Option (Nat × List Bool)
  | [], _, _, _, _ => none
  | _ :: _, _, _, _, [] => none
  | c :: cs, code, first, index, b :: r =>
    let code1 := code + (if b then 1 else 0)
    if code1 < first + c then some (syms.getD (index + (code1 - first)) 0, r)
    else huffSym syms cs (2 * code1) (2 * (first + c)) (index + c) r

/-- Reads n bits as a number. -/
def takeBits : Nat → Nat → List Bool → Option (Nat × List Bool)
  | 0, a, r => some (a, r)
  | _ + 1, _, [] => none
  | n + 1, a, b :: r => takeBits n (2 * a + (if b then 1 else 0)) r

/-- The value that n appended bits stand for (T.81 EXTEND). -/
def extendBits (n v : Nat) : Int := if n = 0 then 0 else if v < 2 ^ (n - 1) then (v : Int) - (2 ^ n : Nat) + 1 else (v : Int)

/-- The zigzag order: the natural index of the k-th coefficient. -/
def zigzag : List Nat :=
  [0, 1, 8, 16, 9, 2, 3, 10, 17, 24, 32, 25, 18, 11, 4, 5] ++ [12, 19, 26, 33, 40, 48, 41, 34, 27, 20, 13, 6, 7, 14, 21, 28] ++
  [35, 42, 49, 56, 57, 50, 43, 36, 29, 22, 15, 23, 30, 37, 44, 51] ++ [58, 59, 52, 45, 38, 31, 39, 46, 53, 60, 61, 54, 47, 55, 62, 63]

/-- A table in zigzag order as one in natural order. -/
def unzigzag {α : Type} (d : α) (l : List α) : List α :=
  (List.range 64).map (fun i => l.getD ((zigzag.findIdx? (fun z => z == i)).getD 0) d)

/-- Where decoding stands: the bits left and the symbols decoded. -/
structure JPos where
  bits : List Bool
  syms : Nat
  deriving DecidableEq, Repr

/-- The AC coefficients from the k-th on, as (k, value); none where the data is undecodable. -/
def acCoefs (t : JHuff) : Nat → Nat → JPos → Option (List (Nat × Int)) × JPos
  | 0, _, p => (some [], p)
  | n + 1, k, p =>
    if 64 ≤ k then (some [], p)
    else match huffSym t.syms t.counts 0 0 0 p.bits with
      | none => (none, p)
      | some (rs, r) =>
        let p1 : JPos := ⟨r, p.syms + 1⟩
        if rs % 16 = 0 then
          (if rs = 0 then (some [], p1) else if rs = 0xF0 then acCoefs t n (k + 16) p1 else (none, p1))
        else if 10 < rs % 16 ∨ 64 ≤ k + rs / 16 then (none, p1)
        else match takeBits (rs % 16) 0 r with
          | none => (none, p1)
          | some (v, r2) =>
            let y := acCoefs t n (k + rs / 16 + 1) ⟨r2, p1.syms⟩
            (y.1.map (fun l => (k + rs / 16, extendBits (rs % 16) v) :: l), y.2)

/-- A block: its coefficients in natural order, from the prediction of its DC coefficient. -/
def jpegCoefs (dc ac : JHuff) (pred : Int) (p : JPos) : Option (List Int) × JPos :=
  match huffSym dc.syms dc.counts 0 0 0 p.bits with
  | none => (none, p)
  | some (t, r) =>
    let p1 : JPos := ⟨r, p.syms + 1⟩
    if 11 < t then (none, p1)
    else match takeBits t 0 r with
      | none => (none, p1)
      | some (v, r2) =>
        let y := acCoefs ac 64 1 ⟨r2, p1.syms⟩
        (y.1.map (fun l => unzigzag 0 ((List.range 64).map (fun k =>
          if k = 0 then pred + extendBits t v else ((l.find? (fun q => q.1 == k)).map (fun q => q.2)).getD 0))), y.2)

/-- The component of each block of an MCU, in the order of the scan. -/
def JHead.order (j : JHead) : List Nat :=
  (j.comps.zip (List.range j.comps.length)).flatMap (fun (ci : JComp × Nat) => List.replicate (ci.1.h * ci.1.v) ci.2)

/-- An MCU: the samples of its blocks, with the DC predictions of the components carried on. -/
def JHead.mcu (j : JHead) : List Nat → List Int → JPos → Option (List (List Byte) × List Int) × JPos
  | [], preds, p => (some ([], preds), p)
  | c :: r, preds, p =>
    let cc := j.comps.getD c ⟨0, 1, 1, 0, 0, 0⟩
    let x := jpegCoefs ((table j.dcs cc.td).getD ⟨[], []⟩) ((table j.acs cc.ta).getD ⟨[], []⟩) (preds.getD c 0) p
    match x.1 with
    | none => (none, x.2)
    | some co =>
      let y := JHead.mcu j r (preds.set c (co.getD 0 0)) x.2
      (y.1.map (fun z => (Config.jpegBlock co (unzigzag 0 ((table j.qts cc.tq).getD [])) :: z.1, z.2)), y.2)

/-- Up to n MCUs of one restart interval: none for those from an undecodable one on. -/
def JHead.interval (j : JHead) : Nat → List Int → JPos → List (Option (List (List Byte))) × JPos
  | 0, _, p => ([], p)
  | n + 1, preds, p =>
    match JHead.mcu j j.order preds p with
    | (none, p1) => (List.replicate (n + 1) none, p1)
    | (some (bs, preds1), p1) =>
      let y := JHead.interval j n preds1 p1
      (some bs :: y.1, y.2)

/-- What decoding the scan gives: its MCUs (none: filled with 128), the Huffman symbols decoded, and the bits of FLAGS that it sets. -/
structure JScan where
  mcus : List (Option (List (List Byte)))
  syms : Nat
  resync : Bool
  error : Bool
  deriving DecidableEq, Repr

/-- The restart intervals of a scan, n MCUs left (R152): after undecodable data decoding goes on behind the next restart marker; without one the rest is 128. The intervals are counted in order, whatever the number in a marker (log 45). -/
def JHead.scanFrom (j : JHead) (n : Nat) : List (List Byte) → JScan
  | [] => ⟨List.replicate n none, 0, false, decide (n ≠ 0)⟩
  | p :: r =>
    let k := if j.ri = 0 then n else min n j.ri
    let x := JHead.interval j k (List.replicate j.comps.length 0) ⟨bitsOf p, 0⟩
    let broken := x.1.any (fun m => m.isNone)
    if n - k = 0 then ⟨x.1, x.2.syms, false, broken⟩
    else
      let y := JHead.scanFrom j (n - k) r
      let lost := r.isEmpty
      ⟨x.1 ++ y.mcus, x.2.syms + y.syms, y.resync || (broken && !lost), y.error || (broken && lost)⟩

/-- Decodes the scan of a bitstream. -/
def JHead.decode (j : JHead) (l : List Byte) : JScan := JHead.scanFrom j j.mcus (scanParts [] (l.drop j.scan))

/-- The counted steps of a decode (R156): one for each 8 bytes of marker segments, one for each Huffman symbol. -/
def JHead.headSteps (j : JHead) : Nat := (j.scan + 7) / 8
def JHead.steps (j : JHead) (x : JScan) : Nat := j.headSteps + x.syms

/-- The first block of a component within an MCU. -/
def JHead.firstBlock (j : JHead) (c : Nat) : Nat := (j.comps.take c).foldl (fun a x => a + x.h * x.v) 0

/-- The sample of component c that covers pixel (x, y): chroma is replicated (R153). -/
def JHead.sample (j : JHead) (s : JScan) (c x y : Nat) : Nat :=
  let cc := j.comps.getD c ⟨0, 1, 1, 0, 0, 0⟩
  let px := x * cc.h / j.hmax
  let py := y * cc.v / j.vmax
  let m := py / 8 / cc.v * j.mcuCols + px / 8 / cc.h
  match s.mcus.getD m none with
  | none => 128
  | some bs =>
    let b := bs.getD (j.firstBlock c + py / 8 % cc.v * cc.h + px / 8 % cc.h) []
    byteAt b (py % 8 * 8 + px % 8)

/-- The channels of a pixel. -/
def JHead.pixel (j : JHead) (s : JScan) (x y : Nat) : List Nat := (List.range j.comps.length).map (fun c => j.sample s c x y)

end Sys2Proof.Machine
end

