-- ==== Sys2Proof/Machine/Packet.lean ====
section
/-! DEFINITION. Ethernet frames, without their FCS, as a port takes them apart: addresses, one VLAN tag, ARP, IPv4, IPv6, UDP and PTP headers (R417, R418). The layouts are those of IEEE 802.3, the IETF and IEEE 1588-2019 (PRESUMED, log 46). -/

namespace Sys2Proof.Machine

/-- The number x as n bytes, most significant byte first. -/
def beBytes (x n : Nat) : List Byte := (leBytes x n).reverse

/-- The destination and source addresses of a frame. -/
def frameDst (l : List Byte) : Nat := sliceBE l 0 6
def frameSrc (l : List Byte) : Nat := sliceBE l 6 6

/-- Whether a frame carries a VLAN tag; where its EtherType stands, the EtherType, and the bytes behind it. -/
def frameVlan (l : List Byte) : Bool := sliceBE l 12 2 == 0x8100
def frameTypeOff (l : List Byte) : Nat := if frameVlan l then 16 else 12
def frameType (l : List Byte) : Nat := sliceBE l (frameTypeOff l) 2
def frameBody (l : List Byte) : List Byte := l.drop (frameTypeOff l + 2)

/-- The ones' complement sum of bytes as 16-bit words, most significant byte first. -/
def onesSum : List Byte → Nat
  | [] => 0
  | [b] => b.toNat * 256
  | b :: c :: r =>
    let t := b.toNat * 256 + c.toNat + onesSum r
    t % 65536 + t / 65536

/-- A transport packet over IP: version 6 or not, source and destination address, protocol, hop limit, whether it is a fragment, its place among the fragments, and its bytes. -/
structure IpPkt where
  v6 : Bool
  src : Nat
  dst : Nat
  proto : Nat
  hops : Nat
  frag : Bool
  off : Nat
  data : List Byte
  deriving DecidableEq, Repr

/-- The IP packet that a frame holds, if it holds one. -/
def ipOf (l : List Byte) : Option IpPkt :=
  let b := frameBody l
  let t := frameType l
  if t = 0x0800 ∧ byteAt b 0 / 16 = 4 ∧ 5 ≤ byteAt b 0 % 16 then
    let h := byteAt b 0 % 16 * 4
    let fo := sliceBE b 6 2
    some { v6 := false, src := sliceBE b 12 4, dst := sliceBE b 16 4, proto := byteAt b 9, hops := byteAt b 8,
           frag := fo % 16384 != 0, off := fo % 8192, data := (b.take (sliceBE b 2 2)).drop h }
  else if t = 0x86DD ∧ byteAt b 0 / 16 = 6 then
    let d := (b.drop 40).take (sliceBE b 4 2)
    if byteAt b 6 = 44 then
      some { v6 := true, src := sliceBE b 8 16, dst := sliceBE b 24 16, proto := byteAt d 0, hops := byteAt b 7,
             frag := true, off := sliceBE d 2 2 / 8, data := d.drop 8 }
    else some { v6 := true, src := sliceBE b 8 16, dst := sliceBE b 24 16, proto := byteAt b 6, hops := byteAt b 7, frag := false, off := 0, data := d }
  else none

/-- The pseudo-header that a transport checksum covers. -/
def IpPkt.pseudo (p : IpPkt) (len : Nat) : List Byte :=
  if p.v6 then beBytes p.src 16 ++ beBytes p.dst 16 ++ beBytes len 4 ++ beBytes p.proto 4
  else beBytes p.src 4 ++ beBytes p.dst 4 ++ beBytes p.proto 2 ++ beBytes len 2

/-- Whether a packet is a UDP datagram that shows its header: unfragmented, or the first fragment. -/
def IpPkt.isUdp (p : IpPkt) : Bool := p.proto == 17 && p.off == 0 && decide (8 ≤ p.data.length)

def IpPkt.dport (p : IpPkt) : Nat := sliceBE p.data 2 2
def IpPkt.udpLen (p : IpPkt) : Nat := sliceBE p.data 4 2
def IpPkt.payload (p : IpPkt) : List Byte := (p.data.take p.udpLen).drop 8

/-- Whether the UDP checksum is non-zero and wrong (R148). -/
def IpPkt.udpBad (p : IpPkt) : Bool :=
  sliceBE p.data 6 2 != 0 && onesSum (p.pseudo p.udpLen ++ p.data.take p.udpLen) != 0xFFFF

/-- The PTP message of a frame, on EtherType 0x88F7 or UDP ports 319 and 320 (R418). -/
def ptpOf (l : List Byte) : Option (List Byte) :=
  if frameType l = 0x88F7 then some (frameBody l)
  else match ipOf l with
    | some p => if p.isUdp ∧ (p.dport = 319 ∨ p.dport = 320) then some p.payload else none
    | none => none

end Sys2Proof.Machine
end

