-- ==== Sys2Proof/Machine/Image.lean ====
section
/-! DEFINITION. The sensor input pipeline (R133 to R159): CSI-2 receivers, the Ethernet JPEG carrier, the decoders, image preparation, buffers and sample records. -/

namespace Sys2Proof.Machine

/-! ### Tables -/

def State.imgSrc (s : State) (k : Nat) : ImgSrc := Store.get (fun _ => ({} : ImgSrc)) s.img.srcs k
def State.setImgSrc (s : State) (k : Nat) (x : ImgSrc) : State :=
  { s with img := { s.img with srcs := Store.set (fun _ => ({} : ImgSrc)) s.img.srcs k x } }

def State.camPort (s : State) (p : Nat) : CamPort := Store.get (fun _ => ({} : CamPort)) s.img.ports p
def State.setCamPort (s : State) (p : Nat) (x : CamPort) : State :=
  { s with img := { s.img with ports := Store.set (fun _ => ({} : CamPort)) s.img.ports p x } }

def State.decRun (s : State) (d : Nat) : Option DecRun := Store.get (fun _ => none) s.img.decs d

/-- Takes or frees a decoder, as IMG_DEC_STAT and DEC_BUSY show it (R166, R170). -/
def State.setDec (s : State) (d : Nat) (x : Option DecRun) : State :=
  let s1 := { s with img := { s.img with decs := Store.set (fun _ => none) s.img.decs d x } }
  let s2 := s1.setBit (R.IMG_DEC_STAT d) F.IMG_DEC_STAT_BUSY x.isSome
  let s3 := match x with
    | some r => s2.setFld (R.IMG_DEC_STAT d) F.IMG_DEC_STAT_SOURCE r.src
    | none => s2
  s3.setFld R.IMG_GLB_STAT F.IMG_GLB_STAT_DEC_BUSY
    ((List.range 8).foldl (fun (a : Nat) i => if (s3.decRun i).isSome then a + 2 ^ i else a) 0)

/-- Sets the queue of the decoders, which QUEUED counts (R155, R166). -/
def State.setDecQueue (s : State) (l : List (Nat × Nat)) : State :=
  { s with img := { s.img with queue := l } }.setFld R.IMG_GLB_STAT F.IMG_GLB_STAT_QUEUED l.length

def State.srcActive (s : State) (k : Nat) : Bool := s.bit (R.IMG_SRC_CFG k) F.IMG_SRC_CFG_ACTIVE
def State.srcCanton (s : State) (k : Nat) : Nat := s.fld (R.IMG_SRC_CFG k) F.IMG_SRC_CFG_CANTON

/-- Whether a canton is in the outage of a COMMIT (R83, R85). -/
def State.committing (s : State) (c : Nat) : Bool := s.fab.phase.isSome && s.fab.canton == some c

/-- The input pipeline as an agent for a canton (R257). -/
def imgAgent (canton : Nat) : Agent := unitAgent 0x20 canton

/-! ### Buffers (R134) -/

def State.bufState (s : State) (k i : Nat) : Nat := Store.get (fun _ => 0) (s.imgSrc k).bufs i

/-- Sets the state of a buffer, as FREE_BUFS and READY_BUFS show it. -/
def State.setBuf (s : State) (k i st : Nat) : State :=
  let x := s.imgSrc k
  let s1 := s.setImgSrc k { x with bufs := Store.set (fun _ => 0) x.bufs i st }
  let n := s.fld (R.IMG_SRC_CFG k) F.IMG_SRC_CFG_NBUF
  let count (v : Nat) : Nat := ((List.range n).filter (fun j => s1.bufState k j == v)).length
  (s1.setFld (R.IMG_SRC_STAT k) F.IMG_SRC_STAT_FREE_BUFS (count 0)).setFld (R.IMG_SRC_STAT k) F.IMG_SRC_STAT_READY_BUFS (count 2)

/-- The lowest-numbered FREE buffer of a source. -/
def State.freeBuf (s : State) (k : Nat) : Option Nat :=
  (List.range (s.fld (R.IMG_SRC_CFG k) F.IMG_SRC_CFG_NBUF)).find? (fun i => s.bufState k i == 0)

/-- The output format of a source. -/
def State.srcFmt (s : State) (k : Nat) : Fmt := (Fmt.ofCode (s.fld (R.IMG_SRC_CFG k) F.IMG_SRC_CFG_FMT)).getD .int8

/-- Whether a format carries one E8M0 scale per pixel behind the image (R158). -/
def fmtScaled (f : Fmt) : Bool := f == .e3m2 || f == .e2m3 || f == .e2m1

/-- The channels of a block of the output layout, and the bytes of a pixel (R134). -/
def State.srcBlock (s : State) (k : Nat) : Nat := if s.bit (R.IMG_SRC_CFG k) F.IMG_SRC_CFG_LAYOUT then 32 else 16
def State.srcPixel (s : State) (k : Nat) : Nat := s.srcBlock k * (s.srcFmt k).bits / 8

/-- BUF_BYTES of a source. -/
def State.bufBytes (s : State) (k : Nat) : Nat :=
  s.fld (R.IMG_SRC_LIMIT k) F.IMG_SRC_LIMIT_MAX_WIDTH * s.fld (R.IMG_SRC_LIMIT k) F.IMG_SRC_LIMIT_MAX_HEIGHT *
    (s.srcPixel k + if fmtScaled (s.srcFmt k) then 1 else 0)

/-! ### Image preparation (R157, R158, R279) -/

/-- An FP32 entry of a source's tables. -/
def f32At (l : List (BitVec 32)) (i : Nat) : Val := ofF32 (l.getD i 0).toNat

/-- Input channel c of a pixel. A one-channel source uses only channel 0; one that a three-channel source lacks has no stated value (log 43). -/
def chanIn (ch : Nat) (u : List Val) (raw : List Nat) (c : Nat) : Val :=
  match u[c]? with
  | some v => v
  | none => if ch = 1 ∧ c ≠ 0 then .fin false 0 0 else ofF32 (Config.missingChannel raw c).toNat

/-- Output channel c of a pixel before its conversion: the colour matrix, the offset, the mean and the scale, each step rounded. -/
def ImgSrc.channel (x : ImgSrc) (u : Nat → Val) (c : Nat) : Val :=
  let m (j : Nat) : Val := f32Mul (f32At x.matrix (3 * c + j)) (u j)
  let v := f32Add (f32Add (f32Add (m 0) (m 1)) (m 2)) (f32At x.offset c)
  f32Mul (roundF32 (v.sub (f32At x.mean c))) (f32At x.scale c)

/-- The codes of a pixel, filled with zero codes up to the block, and whether a conversion saturated. -/
def State.prepPixel (s : State) (k : Nat) (u : List Val) (raw : List Nat) : List Nat × Bool :=
  let ch := s.fld (R.IMG_SRC_CFG k) F.IMG_SRC_CFG_CHANNELS
  let o := (List.range ch).map (fun c => (s.srcFmt k).encode .rne 0 ((s.imgSrc k).channel (chanIn ch u raw) c))
  (o.map (fun p => p.1) ++ List.replicate (s.srcBlock k - ch) 0, o.any (fun p => !(p.2 &&& flagSat == 0)))

/-- The bytes of an image of w × h pixels, with its scales, and whether a conversion saturated. -/
def State.imgBytes (s : State) (k w h : Nat) (px : Nat → Nat → List Val × List Nat) : List Byte × Bool :=
  let l := (List.range (w * h)).map (fun i => let p := px (i % w) (i / w); s.prepPixel k p.1 p.2)
  (l.flatMap (fun p => leBytes (packCodes (s.srcFmt k).bits p.1) (s.srcPixel k)) ++
    (if fmtScaled (s.srcFmt k) then List.replicate (w * h) 0x7F else []), l.any (fun p => p.2))

/-- The colour of a Bayer position (0 R, 1 G, 2 B) for CFA 0 RGGB, 1 GRBG, 2 GBRG, 3 BGGR (R167). -/
def cfaColour (cfa x y : Nat) : Nat :=
  let x' := (x + cfa % 2) % 2
  let y' := (y + cfa / 2) % 2
  if x' = 0 ∧ y' = 0 then 0 else if x' = 1 ∧ y' = 1 then 2 else 1

/-- A neighbour's coordinate, replicated at the border from the nearest line or column of the same colours (log 47). -/
def borderAt (n : Nat) (i : Int) : Option Nat :=
  let j : Int := if i < 0 then -i else if (n : Int) ≤ i then 2 * ((n : Int) - 1) - i else i
  if 0 ≤ j ∧ j < (n : Int) then some j.toNat else none

/-- A colour of a Bayer position: its own sample, or the mean of its nearest neighbours of that colour, of which there are two or four (R157). -/
def demosaicAt (cfa w h : Nat) (raw : Nat → Nat → Nat) (x y c : Nat) : Option Val :=
  if cfaColour cfa x y = c then some (.ofInt (raw x y : Nat))
  else
    let near : List (Int × Int) := [(-1, 0), (1, 0), (0, -1), (0, 1), (-1, -1), (1, -1), (-1, 1), (1, 1)]
    let pts := near.filterMap (fun (d : Int × Int) =>
      match borderAt w ((x : Int) + d.1), borderAt h ((y : Int) + d.2) with
      | some a, some b => some (a, b)
      | _, _ => none)
    let axial := (pts.filter (fun (p : Nat × Nat) => (p.1 == x) != (p.2 == y))).filter (fun p => cfaColour cfa p.1 p.2 == c)
    let diag := (pts.filter (fun (p : Nat × Nat) => p.1 != x && p.2 != y)).filter (fun p => cfaColour cfa p.1 p.2 == c)
    let use' := if axial.isEmpty then diag else axial
    if use'.isEmpty then none
    else
      let sum := use'.foldl (fun (a : Nat) p => a + raw p.1 p.2) 0
      some (.fin false sum (-((Nat.log2 use'.length : Nat) : Int)))

/-! ### Ending a sample (R137, R141) -/

/-- Ends a sample whose image does not count: its buffer is FREE again, the counters of its status rise, and its record waits. -/
def State.imgAbort (s : State) (k : Nat) (buf : Option Nat) (seq : Nat) (stamp : Word) (st : BitVec 8) (flags : Nat) : State :=
  let s1 := match buf with
    | some b => s.setBuf k b 0
    | none => s
  let s2 := if st = stRejected then s1.satAdd (R.IMG_SRC_DROP k) F.IMG_SRC_DROP_REJECTED 1
    else if st = stLate then (s1.satAdd (R.IMG_SRC_DROP k) F.IMG_SRC_DROP_LATE 1).satAdd R.IMG_GLB_STAT F.IMG_GLB_STAT_ABANDONED 1
    else s1
  let x := s2.imgSrc k
  s2.setImgSrc k { x with done := x.done ++ [⟨seq, stamp, st, none, 0, 0, flags⟩] }

/-- The bits of FLAGS that make a sample DONE_FLAGGED (R141). -/
def imgFlagging (flags : Nat) : Bool := !((BitVec.ofNat 16 flags) &&& 0xA0FF == 0)

/-- Ends a sample with its image (R141, R157, R159): the image goes to the buffer, and the record waits. -/
def State.imgEnd (s : State) (k buf seq : Nat) (stamp : Word) (flags w h : Nat) (px : Nat → Nat → List Val × List Nat) : State :=
  if w = 0 ∨ h = 0 then
    s.imgAbort k (some buf) seq stamp (if imgFlagging flags then stFlagged else stDone) flags
  else
    let img := s.imgBytes k w h px
    let x := s.writeMem (imgAgent (s.srcCanton k)) ((s.imgSrc k).bufBase + buf * s.bufBytes k) img.1
    let unm := !(x.flags &&& flagBit fgAddrUnmapped == 0)
    let fl := flags + (if img.2 then 16 else 0) + (if unm then 8192 else 0)
    let s1 := if img.2 then x.state.satAdd R.IMG_GLB_STAT F.IMG_GLB_STAT_SAT_SAMPLES 1 else x.state
    let y := s1.imgSrc k
    s1.setImgSrc k { y with done := y.done ++ [⟨seq, stamp, if imgFlagging fl then stFlagged else stDone, some buf, w, h, fl⟩] }

/-- The bytes of a sample record (R137). -/
def imgRecord (k : Nat) (d : ImgDone) (now : Word) : List Byte :=
  leBytes d.seq 4 ++ leBytes k 2 ++ leBytes d.status.toNat 1 ++ [0] ++ leBytes d.stamp.toNat 8 ++ leBytes now.toNat 8 ++
  leBytes d.w 2 ++ leBytes d.h 2 ++ leBytes (d.buf.getD 0xFFFF) 2 ++ leBytes d.flags 2

/-- SAMPLE_RECORD_WRITE (R134, R137, R141): the oldest ended sample of a source gets its record, and its buffer is READY. -/
def execSampleRecordWrite (src : Fin 128) (s : State) : Out :=
  .next (
    let k := src.val
    let x := s.imgSrc k
    match x.done with
    | [] => s
    | d :: r =>
      let s1 := s.setImgSrc k { x with done := r }
      let i := s.fld (R.IMG_SRC_STAT k) F.IMG_SRC_STAT_REC_PROD % 2 ^ x.recLog2
      let s2 := (s1.writeMem (imgAgent (s.srcCanton k)) (x.recBase + 32 * i) (imgRecord k d s.now)).state
      let s3 := s2.wrapAdd (R.IMG_SRC_STAT k) F.IMG_SRC_STAT_REC_PROD 1
      match d.buf with
      | some b => s3.setBuf k b 2
      | none => s3)

/-- IMG_SRC_RELEASE: a READY buffer is FREE again; any other write is ignored (R134). -/
def State.writeRelease (s : State) (k : Nat) (r : Req) (h : Half) (v : Word) : State :=
  s.guardW r (R.IMG_SRC_RELEASE k) (fun s =>
    let b := F.IMG_SRC_RELEASE_BUFFER.get v
    if h ≠ .high ∧ s.bufState k b = 2 then s.setBuf k b 0 else s)

/-- IMG_SRC_RELEASE (R134). -/
def execImgSrcRelease (src : Fin 128) (r : Req) (h : Half) (v : Word) (s : State) : Out := .next (s.writeRelease src.val r h v)

/-! ### CSI-2 receivers (R142 to R146) -/

/-- The source of a virtual channel (R133), and whether its port uses the channel. -/
def camSrc (p vc : Nat) : Nat := 4 * p + vc
def State.camOn (s : State) (p vc : Nat) : Bool :=
  s.bit (R.IMG_PORT_CFG p) F.IMG_PORT_CFG_ACTIVE && (s.fld (R.IMG_PORT_CFG p) F.IMG_PORT_CFG_VC_MASK).testBit vc && s.srcActive (camSrc p vc)
def State.camDisabled (s : State) (p : Nat) : Bool := s.bit (R.IMG_PORT_CTL p) F.IMG_PORT_CTL_DISABLE

/-- Sets the open frame of a source. -/
def State.setCam (s : State) (k : Nat) (f : Option CamFrame) : State := s.setImgSrc k { s.imgSrc k with cur := f }

/-- The channels of a received pixel; a line of zeros, or one that ends early, gives zeros (R143, R144). -/
def CamFrame.pixel (f : CamFrame) (x y : Nat) : List Nat :=
  match f.lines.getD y none with
  | some l => l.getD x (List.replicate ((l.headD [0]).length) 0)
  | none => if f.raw then [0] else [0, 0, 0]

/-- The prepared input of a pixel of a frame: RAW is demosaiced where the port says so (R157). -/
def State.camPixel (s : State) (k : Nat) (f : CamFrame) (x y : Nat) : List Val × List Nat :=
  let u := f.pixel x y
  if f.raw ∧ s.bit (R.IMG_PORT_CFG (k / 4)) F.IMG_PORT_CFG_DEMOSAIC then
    let cfa := s.fld (R.IMG_PORT_CFG (k / 4)) F.IMG_PORT_CFG_CFA
    ((List.range 3).map (fun c => (demosaicAt cfa (f.width.getD 0) f.lines.length (fun a b => (f.pixel a b).getD 0 0) x y c).getD
      (ofF32 (Config.missingChannel u c).toNat)), u)
  else (u.map (fun v => Val.ofInt (v : Nat)), u)

/-- Closes the open frame of a source, with TRUNCATED or not (R144). An uncorrectable error of a line buffer ends it INTEGRITY (R141). -/
def State.camClose (s : State) (k : Nat) (truncated ecc : Bool) : State :=
  match (s.imgSrc k).cur with
  | none => s
  | some f =>
    let s1 := s.setCam k none
    if ecc then s1.imgAbort k (some f.buf) f.seq f.stamp stIntegrity f.flags
    else s1.imgEnd k f.buf f.seq f.stamp (f.flags + if truncated then 2 else 0) (f.width.getD 0) f.lines.length (s.camPixel k f)

/-- Ends the open frame of a source ABORTED_DISABLED (R141, R146). -/
def State.camAbort (s : State) (k : Nat) : State :=
  match (s.imgSrc k).cur with
  | none => s
  | some f => (s.setCam k none).imgAbort k (some f.buf) f.seq f.stamp stAborted f.flags

/-- Starts a sample with its capture stamp (R134, R136, R139); in its canton's outage it is dropped and counted (R85). -/
def State.camStart (s : State) (k : Nat) (stamp : Word) : State :=
  let x := s.imgSrc k
  let s1 := (s.setImgSrc k { x with nextSeq := (x.nextSeq + 1) % 2 ^ 32 }).setFld (R.IMG_SRC_STAT k) F.IMG_SRC_STAT_LAST_SEQ x.nextSeq
  if s.committing (s.srcCanton k) then s1.satAdd (R.IMG_SRC_DROP k) F.IMG_SRC_DROP_OUTAGE 1
  else match s1.freeBuf k with
    | none => s1.satAdd (R.IMG_SRC_DROP k) F.IMG_SRC_DROP_NOBUF 1
    | some b => (s1.setBuf k b 1).setCam k (some { buf := b, seq := x.nextSeq, stamp := stamp, lastNs := s.nowNs })

/-- A Frame Start (R144 to R146): it closes an open frame; a disabled port does not accept it; a gated port accepts it with the stamp of an armed fire, and discards it without one. -/
def State.camFrameStart (s : State) (p vc : Nat) (stamp : Word) : State :=
  let k := camSrc p vc
  if !s.camOn p vc then s
  else
    let s1 := s.camClose k true false
    if s1.camDisabled p then s1.satAdd (R.IMG_SRC_DROP k) F.IMG_SRC_DROP_OUTAGE 1
    else if s1.bit (R.IMG_PORT_CFG p) F.IMG_PORT_CFG_GATED then
      match (s1.camPort p).armed with
      | some (w, left) =>
        if left.contains vc then
          let rest := left.filter (fun v => v != vc)
          (s1.setCamPort p { s1.camPort p with armed := if rest.isEmpty then none else some (w, rest) }).camStart k w
        else s1.satAdd (R.IMG_PORT_ERR p) F.IMG_PORT_ERR_TRIG_SLIP 1
      | none => s1.satAdd (R.IMG_PORT_ERR p) F.IMG_PORT_ERR_TRIG_SLIP 1
    else s1.camStart k stamp

/-- A KIND 3 fire arms a gated port (R145): a second one before the Frame Start replaces the stamp and counts. -/
def State.camArm (s : State) (p : Nat) (stamp : Word) : State :=
  let s1 := if (s.camPort p).armed.isSome then s.satAdd (R.IMG_PORT_ERR p) F.IMG_PORT_ERR_TRIG_SLIP 1 else s
  let vcs := (List.range 4).filter (fun v => (s.fld (R.IMG_PORT_CFG p) F.IMG_PORT_CFG_VC_MASK).testBit v)
  s1.setCamPort p { s1.camPort p with armed := some (stamp, vcs) }

/-- The image data types of R142. -/
def dtImage (dt : Nat) : Bool := dt == 0x2A || dt == 0x2B || dt == 0x2C || dt == 0x1E || dt == 0x24

/-- Data types that are taken without counting: Line Start and Line End, generic short packets, embedded data (R142). -/
def dtQuiet (dt : Nat) : Bool := dt == 0x02 || dt == 0x03 || decide (0x08 ≤ dt ∧ dt ≤ 0x0F) || dt == 0x12

/-- The pixels of a packet's payload, each with its channels, as MIPI packs the data type (PRESUMED, log 46). -/
def unpackLine (dt : Nat) (l : List Byte) : List (List Nat) :=
  if dt = 0x2A then l.map (fun b => [b.toNat])
  else if dt = 0x2B then
    (List.range (l.length / 5 * 4)).map (fun i => [byteAt l (i / 4 * 5 + i % 4) * 4 + byteAt l (i / 4 * 5 + 4) / 4 ^ (i % 4) % 4])
  else if dt = 0x2C then
    (List.range (l.length / 3 * 2)).map (fun i => [byteAt l (i / 2 * 3 + i % 2) * 16 + byteAt l (i / 2 * 3 + 2) / 16 ^ (i % 2) % 16])
  else if dt = 0x1E then
    (List.range (l.length / 4 * 2)).map (fun i => [byteAt l (i / 2 * 4 + 2 * (i % 2) + 1), byteAt l (i / 2 * 4), byteAt l (i / 2 * 4 + 2)])
  else (List.range (l.length / 3)).map (fun i => [byteAt l (3 * i + 2), byteAt l (3 * i + 1), byteAt l (3 * i)])

/-- The bit i of a set of flags set. -/
def orFlag (fl i : Nat) : Nat := if fl.testBit i then fl else fl + 2 ^ i

/-- Appends a line to an open frame: the first one that has pixels fixes WIDTH, capped at MAX_WIDTH (R144). A lost line (none) counts its pixels if its length is known. -/
def CamFrame.addLine (f : CamFrame) (maxW maxH maxPx n : Nat) (raw : Bool) (px : Option (List (List Nat))) (now : Nat) : CamFrame :=
  let f0 := { f with lastNs := now, raw := if f.width.isNone ∧ n ≠ 0 then raw else f.raw }
  let w := match f.width with
    | some w => w
    | none => min n maxW
  let f1 := if f.width.isNone ∧ n ≠ 0 then { f0 with width := some w } else f0
  if maxH ≤ f.lines.length ∨ maxPx < w * (f.lines.length + 1) then { f1 with flags := orFlag f1.flags 3 }
  else
    let f2 := match px with
      | none => { f1 with flags := orFlag f1.flags 0 }
      | some _ => if n < w then { f1 with flags := orFlag f1.flags 2 } else if w < n then { f1 with flags := orFlag f1.flags 3 } else f1
    { f2 with lines := f2.lines ++ [px.map (fun l => l.take w)] }

/-- A packet of a line (R142 to R144, R159): errors of its header and its payload, data types without an image, and the line itself, which a full line buffer discards. -/
def State.camLine (s : State) (p vc dt : Nat) (hdr : HdrEcc) (crcOk overrun : Bool) (payload : List Byte) : State :=
  let k := camSrc p vc
  if !s.bit (R.IMG_PORT_CFG p) F.IMG_PORT_CFG_ACTIVE then s
  else
    let s1 := match hdr with
      | .good => s
      | .corrected => s.satAdd (R.IMG_PORT_ERR p) F.IMG_PORT_ERR_HDR_CORR 1
      | .uncorrectable => s.satAdd (R.IMG_PORT_ERR p) F.IMG_PORT_ERR_HDR_UNCORR 1
    let lost := hdr = .uncorrectable
    if !lost ∧ dtQuiet dt then s1
    else if !lost ∧ !dtImage dt then s1.satAdd (R.IMG_PORT_ERR p) F.IMG_PORT_ERR_UNKNOWN_DT 1
    else
      let s2 := if !lost ∧ !crcOk then s1.satAdd (R.IMG_PORT_ERR p) F.IMG_PORT_ERR_CRC_ERR 1 else s1
      match (s2.imgSrc k).cur with
      | none => s2
      | some f =>
        if overrun then s2.setCam k (some { f with flags := orFlag f.flags 15, lastNs := s.nowNs })
        else
          let px := unpackLine dt payload
          let bad := decide lost || !crcOk
          s2.setCam k (some (f.addLine (s.fld (R.IMG_SRC_LIMIT k) F.IMG_SRC_LIMIT_MAX_WIDTH) (s.fld (R.IMG_SRC_LIMIT k) F.IMG_SRC_LIMIT_MAX_HEIGHT)
            (s.fld (R.IMG_SRC_LIMIT k) F.IMG_SRC_LIMIT_MAX_PIXELS) (if lost then 0 else px.length) (decide (0x2A ≤ dt)) (if bad then none else some px) s.nowNs))

/-- A Frame End (R144, R146): it closes the open frame; on a port told to drain longer than 100 ms ago the sample is aborted. -/
def State.camFrameEnd (s : State) (p vc : Nat) (ecc : Bool) : State :=
  match (s.camPort p).disabledAt with
  | some t => if t + 100000000 < s.nowNs then s.camAbort (camSrc p vc) else s.camClose (camSrc p vc) false ecc
  | none => s.camClose (camSrc p vc) false ecc

/-- CSI2_FRAME_START (R144), at its arrival; recorded as an entry of KIND 1 with the data type 0 (log 48). -/
def execCsi2FrameStart (p : Fin 16) (vc : Fin 4) (s : State) : Out :=
  .next (s.liveInput 0 (fun t =>
    (t.record 0 1 p.val 0 t.now (BitVec.ofNat 64 (vc.val * 256)) []).camFrameStart p.val vc.val t.now))

/-- CSI2_LINE_PACKET (R143, R144). -/
def execCsi2LinePacket (p : Fin 16) (vc : Fin 4) (dt : BitVec 6) (hdr : HdrEcc) (crcOk overrun : Bool) (payload : List Byte) (s : State) : Out :=
  .next (s.liveInput 0 (fun t =>
    (t.record 0 2 p.val (if crcOk ∧ hdr ≠ .uncorrectable then 0 else 1) t.now (BitVec.ofNat 64 (dt.toNat + vc.val * 256)) payload).camLine
      p.val vc.val dt.toNat hdr crcOk overrun payload))

/-- CSI2_FRAME_END (R144): ecc says whether a line buffer of the frame had an uncorrectable error. -/
def execCsi2FrameEnd (p : Fin 16) (vc : Fin 4) (ecc : Bool) (s : State) : Out :=
  .next (s.liveInput 0 (fun t =>
    (t.record 0 3 p.val 0 t.now (BitVec.ofNat 64 (vc.val * 256 + 1)) []).camFrameEnd p.val vc.val ecc))

/-- CSI2_FRAME_END_TIMEOUT (R144): 100 ms after its last line a frame closes with TRUNCATED. -/
def execCsi2FrameEndTimeout (p : Fin 16) (vc : Fin 4) (s : State) : Out :=
  .next (
    match (s.imgSrc (camSrc p.val vc.val)).cur with
    | none => s
    | some f => if f.lastNs + 100000000 ≤ s.nowNs then s.camClose (camSrc p.val vc.val) true false else s)

/-- DISABLE = 1 with its mode: in ABANDON mode the samples in progress end at once (R146). -/
def State.camDisable (s : State) (p : Nat) (abandon : Bool) : State :=
  let s1 := (s.setFld (R.IMG_PORT_CTL p) F.IMG_PORT_CTL_DISABLE 1).setBit (R.IMG_PORT_CTL p) F.IMG_PORT_CTL_DISABLE_MODE abandon
  let s2 := s1.setCamPort p { s1.camPort p with disabledAt := some s.nowNs }
  if abandon then (List.range 4).foldl (fun (t : State) v => t.camAbort (camSrc p v)) s2 else s2

/-- IMG_PORT_DISABLE (R146). -/
def execImgPortDisable (p : Fin 16) (r : Req) (abandon : Bool) (s : State) : Out :=
  .next (s.guardW r (R.IMG_PORT_CTL p.val) (fun s => s.camDisable p.val abandon))

/-- DISABLE = 0: the port accepts the next Frame Start (R146). -/
def State.camEnable (s : State) (p : Nat) : State :=
  (s.setFld (R.IMG_PORT_CTL p) F.IMG_PORT_CTL_DISABLE 0).setCamPort p { s.camPort p with disabledAt := none }

/-- IMG_PORT_ENABLE (R146). -/
def execImgPortEnable (p : Fin 16) (r : Req) (s : State) : Out :=
  .next (s.guardW r (R.IMG_PORT_CTL p.val) (fun s => s.camEnable p.val))

/-- PORT_DISABLE_DRAIN_TIMEOUT (R146): 100 ms after the write, samples without their Frame End are aborted. -/
def execPortDisableDrainTimeout (p : Fin 16) (s : State) : Out :=
  .next (
    match (s.camPort p.val).disabledAt with
    | some t => if t + 100000000 ≤ s.nowNs then (List.range 4).foldl (fun (u : State) v => u.camAbort (camSrc p.val v)) s else s
    | none => s)

/-! ### The Ethernet JPEG carrier (R147 to R149) -/

def ImgSrc.slot (x : ImgSrc) (i : Nat) : Option Reasm := Store.get (fun _ => none) x.slots i

/-- Sets a reassembly slot of a source. -/
def State.setSlotR (s : State) (k i : Nat) (r : Option Reasm) : State :=
  let x := s.imgSrc k
  s.setImgSrc k { x with slots := Store.set (fun _ => none) x.slots i r }

/-- Closes a frame: later fragments of it are STALE. -/
def State.closeSeq (s : State) (k seq : Nat) : State :=
  let x := s.imgSrc k
  s.setImgSrc k { x with closed := seq :: x.closed.filter (fun q => q != seq) }

/-- The address of a reassembly slot. -/
def State.slotAddr (s : State) (k i : Nat) : Nat :=
  (s.imgSrc k).reasmBase + i * s.fld (R.IMG_SRC_JPEG k) F.IMG_SRC_JPEG_MAX_KIB * 1024

/-- The bits of FLAGS that a frame has from its carrier: STAMP_RX. -/
def Reasm.flags (r : Reasm) : Nat := if r.rx then 128 else 0

/-- An incomplete frame ends REJECTED with INCOMPLETE, and its slot is free (R149). -/
def State.dropReasm (s : State) (k i : Nat) (r : Reasm) : State :=
  ((s.setSlotR k i none).closeSeq k r.seq).imgAbort k none r.seq r.stamp stRejected (r.flags + 256)

/-- Whether a byte of a frame has arrived. -/
def Reasm.has (r : Reasm) (o : Nat) : Bool := r.spans.any (fun p => decide (p.1 ≤ o ∧ o < p.1 + p.2))

/-- Stores the bytes of a fragment that have not arrived before, from offset o on, within the frame. -/
def State.putFrag (s : State) (a : Nat) (r : Reasm) (o : Nat) : List Byte → State × Nat
  | [] => (s, 0)
  | b :: l =>
    if r.has o ∨ r.total ≤ o then s.putFrag a r (o + 1) l
    else
      let x := (s.putByte (a + o) b).putFrag a r (o + 1) l
      (x.1, x.2 + 1)

/-- Takes a fragment into a slot of its frame: repeated bytes are kept as they are and counted in DUPLICATE; a frame with every byte goes to the decoders' queue (R148, R149, R155). -/
def State.takeFrag (s : State) (e k i : Nat) (r : Reasm) (o : Nat) (l : List Byte) : State :=
  let dup := (List.range l.length).any (fun j => r.has (o + j))
  let x := s.putFrag (s.slotAddr k i) r o l
  let s0 := x.1.unpoison (s.slotAddr k i + o) l.length
  let s1 := if dup then s0.satAdd (R.IMG_ETH_STAT e) F.IMG_ETH_STAT_DUPLICATE 1 else s0
  let full := decide (r.total ≤ r.got + x.2)
  let s2 := s1.setSlotR k i (some { r with spans := r.spans ++ [(o, l.length)], got := r.got + x.2, complete := full })
  if full && !r.complete then s2.setDecQueue (s2.img.queue ++ [(k, i)]) else s2

/-- The slot that a new frame takes (R149): a free one, or that of the oldest incomplete frame, which it displaces. -/
def State.slotFor (s : State) (k : Nat) : Option (Nat × State) :=
  let x := s.imgSrc k
  match x.slot 0, x.slot 1 with
  | none, _ => some (0, s)
  | some _, none => some (1, s)
  | some a, some b =>
    if !a.complete ∧ (b.complete ∨ a.firstNs ≤ b.firstNs) then some (0, s.dropReasm k 0 a)
    else if !b.complete then some (1, s.dropReasm k 1 b)
    else none

/-- The payload of a carrier datagram that passed the checks of R148: source k, frame seq, fragment at offset o. -/
def State.carrierFrag (s : State) (e k seq total o : Nat) (stampV : Option Word) (rx : Word) (l : List Byte) : State :=
  let x := s.imgSrc k
  if x.closed.contains seq then s.satAdd (R.IMG_ETH_STAT e) F.IMG_ETH_STAT_STALE 1
  else match (List.range 2).find? (fun i => match x.slot i with
      | some r => r.seq == seq
      | none => false) with
    | some i =>
      match x.slot i with
      | some r => s.takeFrag e k i r o l
      | none => s
    | none =>
      let stamp := stampV.getD rx
      let fl := if stampV.isNone then 128 else 0
      if s.committing (s.srcCanton k) then (s.closeSeq k seq).satAdd (R.IMG_SRC_DROP k) F.IMG_SRC_DROP_OUTAGE 1
      else if s.fld (R.IMG_SRC_JPEG k) F.IMG_SRC_JPEG_MAX_KIB * 1024 < total then
        (s.closeSeq k seq).imgAbort k none seq stamp stRejected (fl + 512)
      else match s.slotFor k with
        | none => s.satAdd (R.IMG_SRC_DROP k) F.IMG_SRC_DROP_NOBUF 1
        | some (i, s1) =>
          s1.takeFrag e k i { seq := seq, total := total, spans := [], got := 0, stamp := stamp, rx := stampV.isNone, firstNs := s.nowNs, complete := false } o l

/-- A carrier datagram that arrives on port e (R147, R148): the checks of its header, its stream, and its fragment. -/
def State.carrier (s : State) (e : Nat) (rx : Word) (p : IpPkt) : State :=
  let d := p.payload
  let o := sliceN d 12 4
  let total := sliceN d 16 4
  let l := d.drop 32
  if p.frag ∨ p.udpBad ∨ d.length < 32 ∨ sliceN d 0 2 ≠ 0x4B43 ∨ sliceN d 2 1 ≠ 1 ∨ 2 ≤ sliceN d 3 1 ∨ sliceN d 6 2 ≠ 0 ∨ sliceN d 20 4 ≠ 0 ∨
      total < o + l.length ∨ total = 0 then
    s.satAdd (R.IMG_ETH_STAT e) F.IMG_ETH_STAT_BAD_HEADER 1
  else
    let st := sliceN d 4 2
    if 64 ≤ st ∨ !s.srcActive (64 + st) ∨ (s.imgSrc (64 + st)).ethPort ≠ e then s.satAdd (R.IMG_ETH_STAT e) F.IMG_ETH_STAT_UNKNOWN_STREAM 1
    else s.carrierFrag e (64 + st) (sliceN d 8 4) total o (if sliceN d 3 1 = 1 then some (BitVec.ofNat 64 (sliceN d 24 8)) else none) rx l

/-- The UDP datagram of a frame for the input pipeline: to the port's IPv4 or IPv6 address and its UDP_PORT (R147, R418). -/
def State.carrierOf (s : State) (e : Nat) (l : List Byte) : Option IpPkt :=
  match ipOf l with
  | none => none
  | some p =>
    let ip6 := (s.reg (R.ETH_IP6_HI e)).toNat * 2 ^ 64 + (s.reg (R.ETH_IP6_LO e)).toNat
    let mine := if p.v6 then ip6 != 0 && p.dst == ip6
      else s.fld (R.ETH_IP4 e) F.ETH_IP4_IP4 != 0 && p.dst == s.fld (R.ETH_IP4 e) F.ETH_IP4_IP4
    let port := s.fld (R.IMG_ETH_CFG e) F.IMG_ETH_CFG_UDP_PORT
    if mine && p.isUdp && port != 0 && p.dport == port then some p else none

/-- CARRIER_DATAGRAM (R147, R148): a frame, without its FCS, that holds a datagram for the input pipeline; the port records it (R418). -/
def execCarrierDatagram (e : Fin 4) (stamp : Word) (bytes : List Byte) (s : State) : Out :=
  .next (
    match s.carrierOf e.val bytes with
    | none => s
    | some p => s.liveInput 1 (fun t => (t.record 1 4 e.val 0 stamp 0 bytes).carrier e.val stamp p))

/-- REASSEMBLY_TIMEOUT (R149): REASM_MS after its first fragment an incomplete frame is rejected. -/
def execReassemblyTimeout (src : Fin 128) (slot : Fin 2) (s : State) : Out :=
  .next (
    match (s.imgSrc src.val).slot slot.val with
    | some r =>
      if !r.complete ∧ r.firstNs + s.fld (R.IMG_SRC_JPEG src.val) F.IMG_SRC_JPEG_REASM_MS * 1000000 ≤ s.nowNs then s.dropReasm src.val slot.val r else s
    | none => s)

/-! ### Decoders (R150 to R156) -/

/-- The bitstream of a complete frame in its slot. -/
def State.bitstream (s : State) (k i : Nat) (r : Reasm) : List Byte := s.rdBytes (s.slotAddr k i) r.total

/-- Frees the slot of a frame that has ended. -/
def State.endSlot (s : State) (k i seq : Nat) : State := (s.setSlotR k i none).closeSeq k seq

/-- DECODER_START (R154 to R156): the oldest complete frame goes to the lowest-numbered free decoder, which checks its header, and takes a buffer. -/
def execDecoderStart (d : Fin 8) (s : State) : Out :=
  .next (
    if (List.range 8).find? (fun i => (s.decRun i).isNone) ≠ some d.val then s
    else match s.img.queue with
      | [] => s
      | (k, i) :: rest =>
        let s1 := s.setDecQueue rest
        match (s.imgSrc k).slot i with
        | none => s1
        | some r =>
          let bs := s.bitstream k i r
          let j := jpegHead bs
          if s.poisoned (s.slotAddr k i) (if j.bad then r.total else j.scan) then
            (s1.endSlot k i r.seq).imgAbort k none r.seq r.stamp stIntegrity r.flags
          else match j.check r.total (s.fld (R.IMG_SRC_LIMIT k) F.IMG_SRC_LIMIT_MAX_WIDTH)
              (s.fld (R.IMG_SRC_LIMIT k) F.IMG_SRC_LIMIT_MAX_HEIGHT) (s.fld (R.IMG_SRC_LIMIT k) F.IMG_SRC_LIMIT_MAX_PIXELS) with
            | some b => (s1.endSlot k i r.seq).imgAbort k none r.seq r.stamp stRejected (r.flags + 2 ^ b)
            | none =>
              let s2 := s1.setFld (R.IMG_SRC_STAT k) F.IMG_SRC_STAT_LAST_SEQ r.seq
              match s2.freeBuf k with
              | none => (s2.endSlot k i r.seq).satAdd (R.IMG_SRC_DROP k) F.IMG_SRC_DROP_NOBUF 1
              | some b =>
                ((s2.setBuf k b 1).setDec d.val (some ⟨k, i, b⟩)).setFld (R.IMG_DEC_STAT d.val) F.IMG_DEC_STAT_STEPS j.headSteps)

/-- Ends a decode: the decoder and the slot are free. -/
def State.endDecode (s : State) (d : Nat) (x : DecRun) (seq steps : Nat) : State :=
  ((s.setDec d none).setFld (R.IMG_DEC_STAT d) F.IMG_DEC_STAT_STEPS steps).endSlot x.src x.slot seq

/-- DECODE_COMPLETE (R152, R153, R156, R157): a decode within its budget ends with its image; ecc is an uncorrectable error of a decoder memory, which ends it INTEGRITY, as does poison in the slot. -/
def execDecodeComplete (d : Fin 8) (ecc : Bool) (s : State) : Out :=
  .next (
    match s.decRun d.val with
    | none => s
    | some x =>
      match (s.imgSrc x.src).slot x.slot with
      | none => s
      | some r =>
        let bs := s.bitstream x.src x.slot r
        let j := jpegHead bs
        let y := j.decode bs
        let n := j.steps y
        if ecc ∨ s.poisoned (s.slotAddr x.src x.slot) r.total then
          (s.endDecode d.val x r.seq n).imgAbort x.src (some x.buf) r.seq r.stamp stIntegrity r.flags
        else if s.fld (R.IMG_SRC_JPEG x.src) F.IMG_SRC_JPEG_DECODE_BUDGET < n then s
        else
          (s.endDecode d.val x r.seq n).imgEnd x.src x.buf r.seq r.stamp (r.flags + (if y.error then 32 else 0) + (if y.resync then 64 else 0)) j.w j.h
            (fun a b => let u := j.pixel y a b; (u.map (fun v => Val.ofInt (v : Nat)), u)))

/-- DECODE_BUDGET_EXPIRY (R156): a decode that needs more steps than its budget ends LATE with BUDGET_CUT, and its buffer is FREE. -/
def execDecodeBudgetExpiry (d : Fin 8) (s : State) : Out :=
  .next (
    match s.decRun d.val with
    | none => s
    | some x =>
      match (s.imgSrc x.src).slot x.slot with
      | none => s
      | some r =>
        let bs := s.bitstream x.src x.slot r
        let j := jpegHead bs
        let b := s.fld (R.IMG_SRC_JPEG x.src) F.IMG_SRC_JPEG_DECODE_BUDGET
        if b < j.steps (j.decode bs) then (s.endDecode d.val x r.seq b).imgAbort x.src (some x.buf) r.seq r.stamp stLate (r.flags + 4096) else s)

/-- Ends everything that a source has in progress ABORTED_DISABLED: the open frame, frames in reassembly or in the queue, decodes (R83, R141). -/
def State.imgAbortAll (s : State) (k : Nat) : State :=
  let s1 := s.camAbort k
  let s2 := (List.range 8).foldl (fun (t : State) d =>
    match t.decRun d with
    | some x => if x.src = k then
        match (t.imgSrc k).slot x.slot with
        | some r => (t.endDecode d x r.seq (t.fld (R.IMG_DEC_STAT d) F.IMG_DEC_STAT_STEPS)).imgAbort k (some x.buf) r.seq r.stamp stAborted r.flags
        | none => t
      else t
    | none => t) s1
  let s3 := s2.setDecQueue (s2.img.queue.filter (fun q => q.1 != k))
  (List.range 2).foldl (fun (t : State) i =>
    match (t.imgSrc k).slot i with
    | some r => (t.endSlot k i r.seq).imgAbort k none r.seq r.stamp stAborted r.flags
    | none => t) s3

end Sys2Proof.Machine
end

