-- ==== Sys2Proof/Machine/Ether.lean ====
section
/-! DEFINITION. The Ethernet ports (R417 to R422) and the PTP messages that the timekeeping unit follows (R111, R112, R114). -/

namespace Sys2Proof.Machine

def State.ethActive (s : State) (e : Nat) : Bool := s.bit (R.ETH_CFG e) F.ETH_CFG_ACTIVE
def State.ethLink (s : State) (e : Nat) : Bool := s.bit (R.ETH_CFG e) F.ETH_CFG_LINK
def State.ethMac (s : State) (e : Nat) : Nat := s.fld (R.ETH_MAC e) F.ETH_MAC_MAC
def State.ethIp4 (s : State) (e : Nat) : Nat := s.fld (R.ETH_IP4 e) F.ETH_IP4_IP4
def State.ethIp6 (s : State) (e : Nat) : Nat := (s.reg (R.ETH_IP6_HI e)).toNat * 2 ^ 64 + (s.reg (R.ETH_IP6_LO e)).toNat

/-- The header of a reply to a frame: its source, the port's address, and its VLAN tag if it has one. -/
def State.replyHead (s : State) (e : Nat) (l : List Byte) (dst : Nat) : List Byte :=
  beBytes dst 6 ++ beBytes (s.ethMac e) 6 ++ (l.drop 12).take (frameTypeOff l - 10)

/-- A frame padded to the 60 bytes that precede the FCS. -/
def ethPad (l : List Byte) : List Byte := l ++ List.replicate (60 - l.length) 0

/-- The reply to an ARP request for the port's IPv4 address (R418; log 46). -/
def State.arpReply (s : State) (e : Nat) (l : List Byte) : Option (List Byte) :=
  let b := frameBody l
  if frameType l = 0x0806 ∧ 28 ≤ b.length ∧ sliceBE b 0 8 = 0x0001080006040001 ∧ s.ethIp4 e ≠ 0 ∧ sliceBE b 24 4 = s.ethIp4 e then
    some (ethPad (s.replyHead e l (sliceBE b 8 6) ++ beBytes 0x0001080006040002 8 ++ beBytes (s.ethMac e) 6 ++ beBytes (s.ethIp4 e) 4 ++
      (b.drop 8).take 10))
  else none

/-- The ICMPv6 neighbour advertisement for a target, to an address (R418; log 46). -/
def State.ndReply (s : State) (e : Nat) (l : List Byte) : Option (List Byte) :=
  match ipOf l with
  | none => none
  | some p =>
    if p.v6 ∧ p.proto = 58 ∧ p.frag = false ∧ p.hops = 255 ∧ byteAt p.data 0 = 135 ∧ byteAt p.data 1 = 0 ∧ 24 ≤ p.data.length ∧
        onesSum (p.pseudo p.data.length ++ p.data) = 0xFFFF ∧ s.ethIp6 e ≠ 0 ∧ sliceBE p.data 8 16 = s.ethIp6 e then
      let anon := p.src = 0
      let dst := if anon then 0xFF020000000000000000000000000001 else p.src
      let to' := if anon then 0x333300000001 else frameSrc l
      let body (ck : Nat) : List Byte := beBytes 136 1 ++ beBytes 0 1 ++ beBytes ck 2 ++ beBytes (if anon then 0x20000000 else 0x60000000) 4 ++
        beBytes (s.ethIp6 e) 16 ++ beBytes 2 1 ++ beBytes 1 1 ++ beBytes (s.ethMac e) 6
      let pseudo := beBytes (s.ethIp6 e) 16 ++ beBytes dst 16 ++ beBytes 32 4 ++ beBytes 58 4
      some (s.replyHead e l to' ++ beBytes 0x60000000 4 ++ beBytes 32 2 ++ beBytes 58 1 ++ beBytes 255 1 ++ beBytes (s.ethIp6 e) 16 ++ beBytes dst 16 ++
        body (0xFFFF - onesSum (pseudo ++ body 0)))
    else none

/-! ### PTP messages (R111, R112, R114) -/

/-- An Announce of the primary domain names the current grandmaster; another one than that accepted starts holdover with cause 2 (R112). -/
def State.primaryGm (s : State) (gm : Word) : State :=
  let s1 := { s with time := { s.time with currentGm := some gm } }
  match s.time.acceptedGm with
  | some a => if a = gm then s1 else s1.enterHold 2
  | none => s1

/-- What a PTP message on port e does to the timekeeping unit: Sync and Announce of the primary and the alternate instance (R112, R114). A Sync names no grandmaster (log 50). -/
def State.ptpTime (s : State) (e : Nat) (m : List Byte) : State :=
  let ty := byteAt m 0 % 16
  let dom := byteAt m 4
  let gm : Word := BitVec.ofNat 64 (sliceBE m 53 8)
  if !s.bit R.TIME_PTP_CFG F.TIME_PTP_CFG_PTP_ENABLE || m.length < 34 then s
  else
    let s1 :=
      if e = s.fld R.TIME_PTP_CFG F.TIME_PTP_CFG_PORT ∧ dom = s.fld R.TIME_PTP_CFG F.TIME_PTP_CFG_DOMAIN ∧ !s.chordSource then
        (if ty = 0 then { s with time := { s.time with lastSync := s.nowNs } } else if ty = 0xB then s.primaryGm gm else s)
      else s
    if s1.bit R.TIME_ALT_CTL F.TIME_ALT_CTL_ENABLE ∧ e = s1.fld R.TIME_PTP_CFG F.TIME_PTP_CFG_ALT_PORT ∧
        dom = s1.fld R.TIME_PTP_CFG F.TIME_PTP_CFG_ALT_DOMAIN then
      (if ty = 0 then { s1 with time := { s1.time with altLastSync := some s1.nowNs } }.setFld R.TIME_STAT F.TIME_STAT_ALT_TRACKING 1
       else if ty = 0xB then { s1 with time := { s1.time with altGm := some gm } } else s1)
    else s1

/-! ### Reception (R418 to R420) -/

/-- Puts a frame into the receive ring of a port (R420). -/
def State.ethRing (s : State) (e : Nat) (stamp : Word) (l : List Byte) (ptp : Bool) : State :=
  let base := s.fld (R.ETH_RX e) F.ETH_RX_BASE * 4096
  let slot := 2 ^ s.fld (R.ETH_RX e) F.ETH_RX_LOG2_SLOT
  if base = 0 ∨ slot < 32 + l.length then s.satAdd (R.ETH_STAT e) F.ETH_STAT_RX_DROP 1
  else
    let i := s.fld (R.ETH_STAT e) F.ETH_STAT_RX_PROD % 2 ^ s.fld (R.ETH_RX e) F.ETH_RX_LOG2_SLOTS
    let rec' := leBytes stamp.toNat 8 ++ leBytes l.length 2 ++ leBytes ((if ptp then 1 else 0) + (if frameVlan l then 2 else 0)) 2 ++ List.replicate 20 0
    let x := s.writeMem (unitAgent 0x100 (s.fld (R.ETH_CFG e) F.ETH_CFG_CANTON)) (base + i * slot) (rec' ++ l)
    x.state.wrapAdd (R.ETH_STAT e) F.ETH_STAT_RX_PROD 1

/-- Handles a good frame by the first rule that applies (R418). -/
def State.ethTake (s : State) (e : Nat) (stamp : Word) (l : List Byte) : State :=
  match s.arpReply e l with
  | some r => s.emit (.eth e r)
  | none =>
    match s.ndReply e l with
    | some r => s.emit (.eth e r)
    | none =>
      match s.carrierOf e l with
      | some p => s.carrier e stamp p
      | none =>
        match ptpOf l with
        | some m =>
          let s1 := s.ptpTime e m
          if s1.bit R.TIME_PTP_CFG F.TIME_PTP_CFG_SERVO then s1 else s1.ethRing e stamp l true
        | none =>
          let d := frameDst l
          if frameType l = 0x8808 then s
          else if d = s.ethMac e ∨ d / 2 ^ 40 % 2 = 1 then s.ethRing e stamp l false
          else s

/-- ETH_FRAME_RECEIVED (R418): a frame without its FCS, with its receive timestamp; a bad or oversize one is counted, any other is an input to record. -/
def execEthFrameReceived (e : Fin 4) (fcsOk : Bool) (stamp : Word) (bytes : List Byte) (s : State) : Out :=
  .next (
    let n := e.val
    if !s.ethActive n ∨ !s.ethLink n then s
    else if !fcsOk then s.satAdd (R.ETH_STAT n) F.ETH_STAT_CRC_ERR 1
    else if s.fld (R.ETH_CFG n) F.ETH_CFG_MTU < bytes.length + 4 then s.satAdd (R.ETH_STAT n) F.ETH_STAT_RX_DROP 1
    else s.liveInput 1 (fun t => (t.record 1 4 n 0 stamp 0 bytes).ethTake n stamp bytes))

/-! ### Transmission (R421, R422) -/

/-- Whether the parameters of a TX_FRAME are refused (R421, R436). -/
def State.txBad (s : State) (e : Nat) (c : Cmd) : Bool :=
  let a := c.pl 0 8
  let len := c.pl 8 2
  let fl := c.pl 10 1
  let ts := c.pl 12 2
  let udp := c.pl 14 2
  decide (len < 14 ∨ s.fld (R.ETH_CFG e) F.ETH_CFG_MTU < len + 4 ∨ 4 ≤ fl ∨ a % 8 ≠ 0) || c.pl 11 1 != 0 || !zeroBytes c.desc 40 24 ||
  (decide (2 ≤ fl) && decide (len < ts + 10)) || (udp != 0 && decide (len < udp + 8)) ||
  (match s.place a with
    | .remote _ _ => true
    | _ => false)

/-- ETH_TX_FRAME (R421): the frame of a port's command is checked, fetched, and put on the wire. -/
def execEthTxFrame (q : BitVec 16) (s : State) : Out :=
  .next (s.onUnit q.toNat 7 (fun c e =>
    let n := q.toNat
    if c.done ≠ 0 then s
    else if c.opcode ≠ 1 ∨ s.txBad e c then s.rejectUnit n
    else if !s.ethLink e then s.endUnit n stAborted
    else if c.cut then s.endUnit n stDone
    else
      let x := s.unitRead (unitAgent 0x100 (s.qCanton n)) (c.pl 0 8) (c.pl 8 2)
      if x.1.wait then s
      else if x.1.bad then x.2.endUnit n stIntegrity
      else
        let s1 := (x.2.cmdFlags n x.1.flags).updHead n (fun d => { d with done := 1 })
        { s1 with io := { s1.io with ethTx := Store.set (fun _ => none) s1.io.ethTx e (some (n, x.1.bytes)) } }))

/-- Replaces bytes of a list from an offset on. -/
def patch (l : List Byte) (off : Nat) (x : List Byte) : List Byte := l.take off ++ x ++ l.drop (off + x.length)

/-- A UDP checksum corrected for bytes replaced at an offset from the UDP header. -/
def ckFix (ck off : Nat) (old new : List Byte) : Nat :=
  let pad : List Byte := if off % 2 = 1 then [0] else []
  let t := (0xFFFF - ck) + (0xFFFF - onesSum (pad ++ old)) + onesSum (pad ++ new)
  let t1 := t % 65536 + t / 65536
  0xFFFF - (t1 % 65536 + t1 / 65536)

/-- The frame as it leaves the wire: with ONE_STEP the transmit time stands at TS_OFF and the UDP checksum is corrected (R421). -/
def State.txBytes (s : State) (c : Cmd) (stamp : Word) (l : List Byte) : List Byte :=
  if c.pl 10 1 < 2 then l
  else
    let t := s.time.sec.toNat * 1000000000 + s.time.ns
    let ns := ((t : Int) + stampDiff stamp s.now).toNat
    let x := beBytes (ns / 1000000000) 6 ++ beBytes (ns % 1000000000) 4
    let ts := c.pl 12 2
    let l1 := patch l ts x
    let u := c.pl 14 2
    if u = 0 then l1
    else patch l1 (u + 6) (beBytes (ckFix (sliceBE l1 (u + 6) 2) (ts + 65536 - u) ((l.drop ts).take 10) x) 2)

/-- ETH_TX_DONE (R419, R421): the frame on the wire of a port has left; its command ends at the transmit timestamp. -/
def execEthTxDone (e : Fin 4) (stamp : Word) (s : State) : Out :=
  .next (
    match Store.get (fun _ => none) s.io.ethTx e.val with
    | none => s
    | some (q, l) =>
      let s1 := { s with io := { s.io with ethTx := Store.set (fun _ => none) s.io.ethTx e.val none } }
      match s.head q with
      | none => s1
      | some c => ((s1.emit (.eth e.val (s.txBytes c stamp l))).endUnit q stDone).updHead q (fun d => { d with stop := stamp }))

/-- ETH_LINK_UP (R428). -/
def execEthLinkUp (e : Fin 4) (s : State) : Out :=
  .next (if s.ethActive e.val then s.setFld (R.ETH_CFG e.val) F.ETH_CFG_LINK 1 else s)

/-- ETH_LINK_DOWN (R421, R428): a TX_FRAME that has not started on the wire ends ABORTED_DISABLED. -/
def execEthLinkDown (e : Fin 4) (s : State) : Out :=
  .next (
    if !s.ethLink e.val then s
    else
      let s1 := (s.setFld (R.ETH_CFG e.val) F.ETH_CFG_LINK 0).satAdd (R.ETH_STAT e.val) F.ETH_STAT_LINK_DOWN 1
      (s1.queues.map (fun p => p.1)).foldl (fun (t : State) q =>
        if t.qUnit q = 7 ∧ t.qInst q = e.val ∧ t.executing q then
          match t.head q with
          | some c => if c.done = 0 then t.endUnit q stAborted else t
          | none => t
        else t) s1)

end Sys2Proof.Machine
end

