-- ==== Sys2Proof/Machine/Power.lean ====
section
/-! DEFINITION. The power manager (R560 to R585) and the voltage-request interface (R571, R634). -/

namespace Sys2Proof.Machine

/-! ### Settings (R564, R571, R575) -/

/-- A write of a power setting: ignored with CFG_REJECT through the register mirror (R12, R575). -/
def State.pwrGuard (s : State) (r : Req) (f : State → State) : State :=
  if !s.hears r R.PWR_CFG then s else if isMirror r then s.setFld R.PWR_STAT F.PWR_STAT_CFG_REJECT 1 else f s

/-- Sets a field that an access covers, clamped to its range; a value out of range sets CFG_REJECT (R575). -/
def State.pwrField (s : State) (off : Nat) (f : Fld) (h : Half) (v : Word) (lo hi : Nat) : State :=
  if halfCovers h f then
    let x := f.get v
    let s1 := s.setFld off f (max lo (min hi x))
    if x < lo ∨ hi < x then s1.setFld R.PWR_STAT F.PWR_STAT_CFG_REJECT 1 else s1
  else s

/-- PWR_CFG: a reserved ORDER refuses the whole write (R564, R575, R580). -/
def State.writePwrCfg (s : State) (r : Req) (h : Half) (v : Word) : State :=
  s.pwrGuard r (fun s =>
    if h ≠ .high ∧ 6 ≤ F.PWR_CFG_ORDER.get v then s.setFld R.PWR_STAT F.PWR_STAT_CFG_REJECT 1
    else
      (((s.pwrField R.PWR_CFG F.PWR_CFG_CAP_W h v 120 450).pwrField R.PWR_CFG F.PWR_CFG_ICC_MAX_A h v 100 520).pwrField
        R.PWR_CFG F.PWR_CFG_ORDER h v 0 5).pwrField R.PWR_CFG F.PWR_CFG_GAIN h v 1 64)

/-- PWR_CFG_WRITE (R575). -/
def execPwrCfgWrite (r : Req) (h : Half) (v : Word) (s : State) : Out := .next (s.writePwrCfg r h v)

/-- Sends TARGET_MV to the regulator (R571, R634). -/
def State.vrSend (s : State) : State :=
  let mv := s.fld R.PWR_VDD F.PWR_VDD_TARGET_MV
  { s.emit (.vrTarget mv) with pwr := { s.pwr with vr := some (mv, 0) } }

/-- PWR_VDD: the target in 5 mV steps, rounded down, goes to the regulator (R571, R581). -/
def State.writePwrVdd (s : State) (r : Req) (h : Half) (v : Word) : State :=
  s.pwrGuard r (fun s =>
    if h = .high then s
    else
      let s1 := s.pwrField R.PWR_VDD F.PWR_VDD_TARGET_MV h v 600 850
      (s1.setFld R.PWR_VDD F.PWR_VDD_TARGET_MV (s1.fld R.PWR_VDD F.PWR_VDD_TARGET_MV / 5 * 5)).vrSend)

/-- PWR_VDD_WRITE (R571). -/
def execPwrVddWrite (r : Req) (h : Half) (v : Word) (s : State) : Out := .next (s.writePwrVdd r h v)

/-- PWR_THERM_CFG (R581). -/
def State.writePwrTherm (s : State) (r : Req) (h : Half) (v : Word) : State :=
  s.pwrGuard r (fun s =>
    ((s.pwrField R.PWR_THERM_CFG F.PWR_THERM_CFG_THROTTLE_C h v 95 114).pwrField R.PWR_THERM_CFG F.PWR_THERM_CFG_HYST_C h v 1 20).pwrField
      R.PWR_THERM_CFG F.PWR_THERM_CFG_ALERT_C h v 60 124)

/-- PWR_THERM_CFG_WRITE (R575). -/
def execPwrThermCfgWrite (r : Req) (h : Half) (v : Word) (s : State) : Out := .next (s.writePwrTherm r h v)

/-- PWR_DOMAIN.B_MAX (R583). -/
def State.writeBmax (s : State) (k : Nat) (r : Req) (h : Half) (v : Word) : State :=
  s.pwrGuard r (fun s => s.pwrField (R.PWR_DOMAIN k) F.PWR_DOMAIN_B_MAX h v 0 64)

/-- PWR_DOMAIN_BMAX_WRITE (R575). -/
def execPwrDomainBmaxWrite (k : Fin 3) (r : Req) (h : Half) (v : Word) (s : State) : Out := .next (s.writeBmax k.val r h v)

/-- VR_TRANSFER_RETRY (R634): a transfer that was not acknowledged is sent again; the tenth failure sets CFG_REJECT. -/
def execVrTransferRetry (s : State) : Out :=
  .next (
    match s.pwr.vr with
    | none => s
    | some (mv, n) =>
      if 10 ≤ n + 1 then { s with pwr := { s.pwr with vr := none } }.setFld R.PWR_STAT F.PWR_STAT_CFG_REJECT 1
      else { s.emit (.vrTarget mv) with pwr := { s.pwr with vr := some (mv, n + 1) } })

/-! ### Temperatures (R567 to R569) -/

/-- Sorts a number into a sorted list. -/
def sortIn (x : Int) : List Int → List Int
  | [] => [x]
  | y :: r => if x ≤ y then x :: y :: r else y :: sortIn x r

/-- Twice the median of a group's eight readings: the sum of the two in the middle (log 51). -/
def median2 (l : List Int) : Int :=
  let t := l.foldr sortIn []
  t.getD 3 0 + t.getD 4 0

/-- Whether a reading is valid: within −55 °C to 150 °C, and within 15 °C of the median of its group (R567). -/
def readingOk (group : List Int) (t : Int) : Bool := decide (-220 ≤ t ∧ t ≤ 600 ∧ (2 * t - median2 group).natAbs ≤ 120)

/-- Whether a calibration segment holds a sensor (R551, R567). -/
def State.tempHeld (s : State) (i : Nat) : Bool :=
  match s.rep.thermal with
  | some (g, _, _) => i / 8 == g
  | none => false

/-- A sensor's reading as the throttling and the trip take it: the temperature and whether it is valid; a held sensor stays at its last one. -/
def State.tempNow (s : State) (raw : List (BitVec 16)) (i : Nat) : Int × Bool :=
  if s.tempHeld i then (signExt 16 (s.fld (R.PWR_TEMP i) F.PWR_TEMP_TEMP), s.bit (R.PWR_TEMP i) F.PWR_TEMP_VALID)
  else
    let t (j : Nat) : Int := (raw.getD j 0).toInt
    (t i, readingOk ((List.range 8).map (fun j => t (i / 8 * 8 + j))) (t i))

/-- Shows the readings of the sensors (R585). -/
def State.showTemps (s : State) (l : List (Int × Bool)) : State :=
  (List.range 64).foldl (fun (t : State) i =>
    let x := l.getD i (0, false)
    ((t.setFld (R.PWR_TEMP i) F.PWR_TEMP_TEMP (toTwos 16 x.1)).setBit (R.PWR_TEMP i) F.PWR_TEMP_VALID x.2).setBit
      (R.PWR_TEMP i) F.PWR_TEMP_HELD (s.tempHeld i)) s

/-- The sensor with the largest valid reading, and that reading. -/
def hottest (l : List (Int × Bool)) : Option (Nat × Int) :=
  (List.range l.length).foldl (fun (a : Option (Nat × Int)) i =>
    let x := l.getD i (0, false)
    if !x.2 then a
    else match a with
      | some (_, m) => if m < x.1 then some (i, x.1) else a
      | none => some (i, x.1)) none

/-! ### Demand (R563 to R566, R570) -/

/-- The B_MAX of a domain, and its ratio, in 1/64. -/
def State.bMax (s : State) (k : Nat) : Nat := s.fld (R.PWR_DOMAIN k) F.PWR_DOMAIN_B_MAX
def State.ratio (s : State) (k : Nat) : Nat := s.fld (R.PWR_DOMAIN k) F.PWR_DOMAIN_RATIO

/-- The domains from the lowest rank upwards by ORDER (R564): 0 compute, 1 memory, 2 links. -/
def pwrOrder (o : Nat) : List Nat :=
  match o with
  | 0 => [0, 1, 2]
  | 1 => [1, 0, 2]
  | 2 => [0, 2, 1]
  | 3 => [2, 0, 1]
  | 4 => [1, 2, 0]
  | _ => [2, 1, 0]

/-- A ratio rounded to the nearest 1/64, ties upward. -/
def round64 (x : Rat) : Nat := (64 * x + 1 / 2).floor.toNat

/-- The ratios in the order of the domains given, from a demand: the demand less what the domains before them take (R564). -/
def spill (d : Rat) : List (Nat × Nat) → List (Nat × Nat)
  | [] => []
  | (k, m) :: r =>
    let b : Rat := min ((m : Rat) / 64) (max 0 d)
    (k, round64 b) :: spill (d - (m : Rat) / 64) r

/-- The demand terms of a sample (R563): S, d_P, d_I and d_T. p is the sum of the last n powers in 0.1 W, i the current in 0.1 A, t Tj_max in 0.25 °C. -/
def State.demand (s : State) (p n i : Nat) (t : Int) : Rat × Rat × Rat × Rat :=
  let g : Rat := (s.fld R.PWR_CFG F.PWR_CFG_GAIN : Rat)
  let cap : Rat := (s.fld R.PWR_CFG F.PWR_CFG_CAP_W : Rat)
  let imax : Rat := (s.fld R.PWR_CFG F.PWR_CFG_ICC_MAX_A : Rat)
  let th : Rat := (s.fld R.PWR_THERM_CFG F.PWR_THERM_CFG_THROTTLE_C : Rat)
  let sum : Rat := ((s.bMax 0 + s.bMax 1 + s.bMax 2 : Nat) : Rat) / 64
  (sum, g * ((p : Rat) / (10 * (n : Rat)) - cap) / cap, g * ((i : Rat) / 10 - imax) / imax, sum * ((t : Rat) / 4 - th) / (115 - th))

/-- Applies the demand of a sample to the domains (R563 to R565, R569, R570). -/
def State.applyDemand (s : State) (x : Rat × Rat × Rat × Rat) : State :=
  let d : Rat := min x.1 (max 0 (max x.2.1 (max x.2.2.1 x.2.2.2)))
  let top := max x.2.1 (max x.2.2.1 x.2.2.2)
  let src := if top ≤ 0 then 0 else if x.2.1 = top then 1 else if x.2.2.1 = top then 2 else 3
  let bs := spill d ((pwrOrder (s.fld R.PWR_CFG F.PWR_CFG_ORDER)).map (fun k => (k, s.bMax k)))
  let trip := s.bit R.PWR_STAT F.PWR_STAT_TRIP
  let hot := s.bit R.HBM_STAT F.HBM_STAT_HOT
  let s1 := bs.foldl (fun (t : State) kb =>
    t.setFld (R.PWR_DOMAIN kb.1) F.PWR_DOMAIN_RATIO (if trip ∨ (hot ∧ kb.1 = 1) then s.bMax kb.1 else kb.2)) s
  let s2 := (s1.setFld R.PWR_STAT F.PWR_STAT_DEMAND_SRC src).setBit R.PWR_STAT F.PWR_STAT_HBM_HOT hot
  if x.1 ≤ x.2.1 then s2.setFld R.PWR_STAT F.PWR_STAT_CAP_UNMET 1 else s2

/-! ### Energy (R456, R577) -/

/-- Adds the energy that running commands drew, and what none drew, in µJ. -/
def State.addEnergy (s : State) (x : PowerSample) : State :=
  let s1 := x.shares.foldl (fun (t : State) p =>
    if t.executing p.1.toNat then t.updHead p.1.toNat (fun c => { c with energy := c.energy + p.2.toNat }) else t) s
  let u := s.pwr.unattr + x.idle.toNat
  ({ s1 with pwr := { s1.pwr with unattr := u } }.setFld R.SCH_STAT F.SCH_STAT_UNATTR_MJ (u / 1000)).wrapAdd R.PWR_ENERGY F.PWR_ENERGY_UJ x.energy.toNat

/-- POWER_SAMPLE (R560 to R570): measurements, temperatures, alert and trip, demand, ratios, energy. -/
def execPowerSample (x : PowerSample) (s : State) : Out :=
  .next (
    let temps := (List.range 64).map (fun i => s.tempNow x.temps i)
    let bad := (temps.filter (fun t => !t.2)).length
    let h := (hottest temps).getD (0, 0)
    let tj : Int := if 8 ≤ bad then 460 else h.2
    let reach := (List.range 64).filter (fun i => let t := temps.getD i (0, false); t.2 && decide (500 ≤ t.1))
    let trip := reach.any (fun i => s.pwr.hot.contains i)
    let ring := (x.power.toNat :: s.pwr.ring).take 4
    let p := ring.foldl (fun (a : Nat) w => a + w) 0
    let s0 := (List.range 3).foldl (fun (t : State) k => if t.ratio k = 0 then t else t.satAdd (R.PWR_DOMAIN k) F.PWR_DOMAIN_THROTTLED_US 10) s
    let s1 := { s0 with pwr := { s0.pwr with ring := ring.take 3, hot := reach } }.showTemps temps
    let s2 := (((s1.setFld R.PWR_MEAS F.PWR_MEAS_P_DW (p / ring.length)).setFld R.PWR_MEAS F.PWR_MEAS_ICC_DA x.icc.toNat).setFld
      R.PWR_MEAS F.PWR_MEAS_TJ_MAX (toTwos 16 tj)).setFld R.PWR_MEAS F.PWR_MEAS_TJ_SENSOR h.1
    let s3 := (s2.wrapAdd R.PWR_MEAS F.PWR_MEAS_SEQ 1).setFld R.PWR_STAT F.PWR_STAT_FAILED_SENSORS bad
    let s4 := if bad = 0 then s3 else s3.setFld R.PWR_STAT F.PWR_STAT_SENSOR_FAIL 1
    let alert : Int := ((4 * s.fld R.PWR_THERM_CFG F.PWR_THERM_CFG_ALERT_C : Nat) : Int)
    let hyst : Int := ((4 * s.fld R.PWR_THERM_CFG F.PWR_THERM_CFG_HYST_C : Nat) : Int)
    let s5 := s4.withCause 10 (fun t =>
      let t1 := if alert ≤ tj then t.setFld R.PWR_STAT F.PWR_STAT_ALERT 1 else if tj < alert - hyst then t.setFld R.PWR_STAT F.PWR_STAT_ALERT 0 else t
      if trip then t1.setFld R.PWR_STAT F.PWR_STAT_TRIP 1 else t1)
    (s5.applyDemand (s5.demand p ring.length x.icc.toNat tj)).addEnergy x)

end Sys2Proof.Machine
end

