-- ==== Sys2Proof/Machine/Kv.lean ====
section
/-! DEFINITION. The KV page manager: the page table, context maps, allocation, and the nine KV commands (R306 to R340). -/

namespace Sys2Proof.Machine

/-! ### Unit flags (R318, R439) -/

def kvFull : Nat := 13
def kvListFull : Nat := 14
def kvRefLimit : Nat := 15
def kvEvicted : Nat := 16
def kvCowDone : Nat := 17
def kvMassBad : Nat := 18
def kvDescRefetch : Nat := 19
def kvDescLost : Nat := 20

/-! ### Contexts, lists and descriptors -/

/-- What a KV command knows of its context (R307, R313, R340): its number, canton, class, bytes per element and per slot, lists, entries per list, and map address. -/
structure KvCtx where
  x : Nat
  canton : Nat
  cls : Nat
  heads : Nat
  dim : Nat
  b : Nat
  layers : Nat
  listLen : Nat
  map : Nat
  deriving DecidableEq, Repr

/-- The bytes of a token slot (R307). -/
def KvCtx.tb (c : KvCtx) : Nat := 2 * c.heads * c.dim * c.b

/-- A class of a canton. -/
def State.kvClass (s : State) (c k : Nat) : KvClass := Store.get (fun _ => ({} : KvClass)) s.kv.classes (c * 8 + k)

/-- The bytes of an element of a class. -/
def KvClass.bytes (k : KvClass) : Nat := match Fmt.ofCode k.fmt with
  | some f => f.bits / 8
  | none => 1

/-- The open context x. -/
def State.kvCtx (s : State) (x : Nat) : KvCtx :=
  let st := R.KV_CTX_STAT x
  let canton := s.fld st F.KV_CTX_STAT_CANTON
  let cls := s.fld st F.KV_CTX_STAT_CLASS
  let k := s.kvClass canton cls
  { x := x, canton := canton, cls := cls, heads := k.heads, dim := 2 ^ k.logD, b := k.bytes
    layers := s.fld st F.KV_CTX_STAT_LAYERS, listLen := s.fld st F.KV_CTX_STAT_LIST_LEN
    map := s.fld (R.KV_CTX_MAP x) F.KV_CTX_MAP_ADDR * 4096 }

/-- A list entry (R313). -/
structure KvEnt where
  hole : Bool
  size : Nat
  idx : Nat
  deriving DecidableEq, Repr

/-- A list: committed positions, pending candidates, entries (R313). -/
structure KvList where
  len : Nat
  spec : Nat
  ents : List KvEnt
  deriving DecidableEq, Repr

/-- A list in the map of a context. -/
def State.kvList (s : State) (c : KvCtx) (l : Nat) : KvList :=
  let h := c.map + 8 * l
  { len := s.rdN h 4, spec := s.rdN (h + 6) 1
    ents := (List.range (s.rdN (h + 4) 2)).map (fun e =>
      let v := s.rdN (c.map + 8 * c.layers + (l * c.listLen + e) * 4) 4
      { hole := decide (v / 2 ^ 31 % 2 = 1), size := v / 2 ^ 20 % 16, idx := v % 2 ^ 20 }) }

/-- The lists of a context. -/
def State.kvLists (s : State) (c : KvCtx) : List KvList := (List.range c.layers).map (s.kvList c)

/-- The 32 bits of an entry. -/
def KvEnt.word (e : KvEnt) : Nat := (if e.hole then 2 ^ 31 else 0) + e.size % 16 * 2 ^ 20 + e.idx % 2 ^ 20

/-- Writes entries of list l from number e on. -/
def State.putEnts (s : State) (c : KvCtx) (l : Nat) : Nat → List KvEnt → State
  | _, [] => s
  | e, v :: r => (s.wrN (c.map + 8 * c.layers + (l * c.listLen + e) * 4) 4 v.word).putEnts c l (e + 1) r

/-- Writes a list into the map. -/
def State.putList (s : State) (c : KvCtx) (l : Nat) (k : KvList) : State :=
  let h := c.map + 8 * l
  ((((s.wrN h 4 k.len).wrN (h + 4) 2 k.ents.length).wrN (h + 6) 1 k.spec).wrN (h + 7) 1 0).putEnts c l 0 k.ents

/-- Writes all lists into the map. -/
def State.putLists (s : State) (c : KvCtx) : Nat → List KvList → State
  | _, [] => s
  | l, k :: r => (s.putList c l k).putLists c (l + 1) r

/-- A page descriptor (R310). -/
structure KvDesc where
  base : Nat
  size : Nat
  cls : Nat
  canton : Nat
  ref : Nat
  score : Nat
  pinned : Bool
  valid : Bool
  deriving DecidableEq, Repr

/-- The address of descriptor i (R309). -/
def State.descAddrKv (s : State) (i : Nat) : Nat := s.tableBase + i * 16

/-- Descriptor i of the page table. -/
def State.kvDesc (s : State) (i : Nat) : KvDesc :=
  let v := s.rdN (s.descAddrKv i) 16
  let g (lo w : Nat) : Nat := v / 2 ^ lo % 2 ^ w
  { base := g 88 40 * 256, size := g 76 4, cls := g 72 3, canton := g 68 3, ref := g 48 16, score := g 32 16
    pinned := g 1 1 == 1, valid := g 0 1 == 1 }

/-- The bits of a descriptor; COW is 1 while REFCOUNT ≥ 2. -/
def KvDesc.bits (d : KvDesc) : Nat :=
  d.base / 256 * 2 ^ 88 + d.size * 2 ^ 76 + d.cls * 2 ^ 72 + d.canton * 2 ^ 68 + d.ref * 2 ^ 48 + d.score * 2 ^ 32
    + (if 2 ≤ d.ref then 4 else 0) + (if d.pinned then 2 else 0) + (if d.valid then 1 else 0)

/-- Writes descriptor i through to the table (R311). -/
def State.putDesc (s : State) (i : Nat) (d : KvDesc) : State := s.wrN (s.descAddrKv i) 16 d.bits

/-- The state of a descriptor index: 0 free, 1 in use, 2 withdrawn. -/
def State.idxState (s : State) (i : Nat) : Nat := Store.get (fun _ => 0) s.kv.idx i
def State.setIdx (s : State) (i v : Nat) : State := { s with kv := { s.kv with idx := Store.set (fun _ => 0) s.kv.idx i v } }

/-! ### Allocation (R312) -/

/-- The least of a list. -/
def leastOf : List Nat → Option Nat
  | [] => none
  | a :: r => match leastOf r with
    | none => some a
    | some b => some (min a b)

/-- An address rounded up to a multiple. -/
def alignUp (a n : Nat) : Nat := (a + n - 1) / n * n

/-- The lowest-addressed free block of a length in a canton's pool, aligned to its length. -/
def State.freeBlock (s : State) (c len : Nat) : Option Nat :=
  let lo := s.fld (R.KV_POOL_CFG c) F.KV_POOL_CFG_BASE * 2 ^ 21
  let hi := lo + s.fld (R.KV_POOL_USE c) F.KV_POOL_USE_LEN_4K * 4096
  let cands := (lo :: s.kv.blocks.map (fun b => b.1 + b.2)).map (fun a => alignUp a len)
  leastOf (cands.filter (fun a => decide (lo ≤ a ∧ a + len ≤ hi) && s.kv.blocks.all (fun b => decide (a + len ≤ b.1 ∨ b.1 + b.2 ≤ a))))

/-- Takes a block. -/
def State.takeBlock (s : State) (c a len : Nat) : State :=
  ({ s with kv := { s.kv with blocks := Store.set (fun _ => 0) s.kv.blocks a len } }).setFld (R.KV_POOL_USE c) F.KV_POOL_USE_FREE_4K
    (s.fld (R.KV_POOL_USE c) F.KV_POOL_USE_FREE_4K - len / 4096)

/-- Frees a block. -/
def State.freeBlockAt (s : State) (c a : Nat) : State :=
  let len := Store.get (fun _ => 0) s.kv.blocks a
  ({ s with kv := { s.kv with blocks := Store.set (fun _ => 0) s.kv.blocks a 0 } }).setFld (R.KV_POOL_USE c) F.KV_POOL_USE_FREE_4K
    (s.fld (R.KV_POOL_USE c) F.KV_POOL_USE_FREE_4K + len / 4096)

/-- The lowest free descriptor index of a canton. -/
def State.freeIdx (s : State) (c : Nat) : Option Nat :=
  let lo := s.fld (R.KV_IDX_CFG c) F.KV_IDX_CFG_BASE
  let hi := lo + s.fld (R.KV_IDX_CFG c) F.KV_IDX_CFG_COUNT
  leastOf ((lo :: s.kv.idx.map (fun p => p.1 + 1)).filter (fun i => decide (lo ≤ i ∧ i < hi) && s.idxState i == 0))

/-- Allocates a page of size p with a score and a pin: its descriptor index and the state. -/
def State.allocPage (s : State) (c : KvCtx) (p score : Nat) (pinned : Bool) : Option (Nat × State) :=
  match s.freeBlock c.canton (2 ^ p * c.tb), s.freeIdx c.canton with
  | some a, some i =>
    let s1 := (s.takeBlock c.canton a (2 ^ p * c.tb)).setIdx i 1
    let s2 := s1.putDesc i { base := a, size := p, cls := c.cls, canton := c.canton, ref := 1, score := score, pinned := pinned, valid := true }
    some (i, s2.setFld (R.KV_IDX_USE c.canton) F.KV_IDX_USE_IN_USE (s.fld (R.KV_IDX_USE c.canton) F.KV_IDX_USE_IN_USE + 1))
  | _, _ => none

/-- Drops one reference to a descriptor; at zero the block and the index are free (R322). -/
def State.unref (s : State) (c : KvCtx) (i : Nat) : State :=
  let d := s.kvDesc i
  if 1 < d.ref then s.putDesc i { d with ref := d.ref - 1 }
  else
    let s1 := ((s.putDesc i { d with ref := 0, valid := false }).freeBlockAt c.canton d.base).setIdx i 0
    s1.setFld (R.KV_IDX_USE c.canton) F.KV_IDX_USE_IN_USE (s.fld (R.KV_IDX_USE c.canton) F.KV_IDX_USE_IN_USE - 1)

/-! ### Work on the lists of a context -/

/-- A KV command in progress: the state, the lists of its context as they stand, and its unit flags. -/
structure KvWork where
  s : State
  ls : List KvList
  flags : BitVec 24 := 0
  deriving DecidableEq, Repr

def KvWork.flag (w : KvWork) (i : Nat) : KvWork := { w with flags := w.flags ||| flagBit i }

/-- List l. -/
def KvWork.list (w : KvWork) (l : Nat) : KvList := w.ls.getD l { len := 0, spec := 0, ents := [] }

def KvWork.setList (w : KvWork) (l : Nat) (k : KvList) : KvWork := { w with ls := w.ls.set l k }

/-- The entries with the positions at which they start (R314). -/
def entStarts : Nat → List KvEnt → List (Nat × KvEnt)
  | _, [] => []
  | p, e :: r => (p, e) :: entStarts (p + 2 ^ e.size) r

def KvList.starts (k : KvList) : List (Nat × KvEnt) := entStarts 0 k.ents

/-- The number of the entry that holds a position. -/
def KvList.entryAt (k : KvList) (pos : Nat) : Option Nat := k.starts.findIdx? (fun p => decide (p.1 ≤ pos ∧ pos < p.1 + 2 ^ p.2.size))

/-- The position at which entry e starts. -/
def KvList.startOf (k : KvList) (e : Nat) : Nat := (k.starts.getD e (0, { hole := true, size := 0, idx := 0 })).1

/-- CHARGE of a context in 4 KiB units (R325). -/
def kvCharge (c : KvCtx) (ls : List KvList) : Nat :=
  ls.foldl (fun a k => k.ents.foldl (fun z e => if e.hole then z else z + 2 ^ e.size * c.tb / 4096) a) 0

/-- Releases an entry (R322). -/
def KvWork.release (w : KvWork) (c : KvCtx) (e : KvEnt) : KvWork := if e.hole then w else { w with s := w.s.unref c e.idx }

def KvWork.releaseAll (w : KvWork) (c : KvCtx) (l : List KvEnt) : KvWork := l.foldl (fun v e => v.release c e) w

/-- Drops the holes at the end of a list; LENGTH lowers to the start of the first one dropped (R322). -/
def KvList.trim (k : KvList) : KvList :=
  let n := (k.ents.reverse.dropWhile (fun e => e.hole)).length
  if n = k.ents.length then k else { k with ents := k.ents.take n, len := min k.len (k.startOf n) }

/-- Keeps the entries of list l that start below a position, releases the others, drops trailing holes (R322, R330). -/
def KvWork.cutList (w : KvWork) (c : KvCtx) (l pos len : Nat) : KvWork :=
  let k := w.list l
  let n := (k.starts.filter (fun p => decide (p.1 < pos))).length
  let w1 := w.releaseAll c (k.ents.drop n)
  w1.setList l (({ len := len, spec := 0, ents := k.ents.take n } : KvList).trim)

/-- Turns an entry into a hole. -/
def KvList.punch (k : KvList) (e : Nat) : KvList :=
  match k.ents[e]? with
  | some v => { k with ents := k.ents.set e { v with hole := true } }
  | none => k

/-! ### Eviction (R326, R327) -/

/-- The candidates of a context: (score, layer, entry). -/
def KvWork.candidates (w : KvWork) : List (Nat × Nat × Nat) :=
  (List.range w.ls.length).flatMap (fun l =>
    let k := w.list l
    let st := k.starts
    (List.range st.length).filterMap (fun e =>
      match st[e]? with
      | none => none
      | some (p, v) =>
        if v.hole || (w.s.kvDesc v.idx).pinned || (decide (0 < k.len) && k.entryAt (k.len - 1) == some e) || decide (k.len ≤ p) then none
        else some ((w.s.kvDesc v.idx).score, l, e)))

/-- Puts a candidate into its place in the eviction order. -/
def insCand (a : Nat × Nat × Nat) : List (Nat × Nat × Nat) → List (Nat × Nat × Nat)
  | [] => [a]
  | b :: r =>
    if a.1 < b.1 ∨ (a.1 = b.1 ∧ (a.2.1 < b.2.1 ∨ (a.2.1 = b.2.1 ∧ a.2.2 < b.2.2))) then a :: b :: r else b :: insCand a r

/-- The eviction order. -/
def KvWork.order (w : KvWork) : List (Nat × Nat × Nat) := w.candidates.foldl (fun l a => insCand a l) []

/-- Evicts entry e of list l. -/
def KvWork.evict (w : KvWork) (c : KvCtx) (l e : Nat) : KvWork :=
  let k := w.list l
  match k.ents[e]? with
  | none => w
  | some v =>
    let w1 := ((w.release c v).setList l (k.punch e)).flag kvEvicted
    { w1 with s := (w1.s.satAdd R.KV_CNT F.KV_CNT_EVICTIONS 1).satAdd (R.KV_CTX_PARAM c.x) F.KV_CTX_PARAM_EVICTED 1 }

/-- Evicts in order until the body of a command succeeds; none when the candidates run out. -/
def kvPlan (c : KvCtx) (body : KvWork → Option KvWork) : List (Nat × Nat × Nat) → KvWork → Option KvWork
  | l, w =>
    if (body w).isSome then some w
    else match l with
      | [] => none
      | a :: r => kvPlan c body r (w.evict c a.2.1 a.2.2)

/-- Whether CHARGE fits the budget (R325). -/
def KvWork.fits (w : KvWork) (c : KvCtx) : Bool :=
  let b := w.s.fld (R.KV_CTX_CHARGE c.x) F.KV_CTX_CHARGE_BUDGET_4K
  b == 0 || decide (kvCharge c w.ls ≤ b)

/-! ### Pages (R308, R319, R320) -/

/-- The bytes of a slot of a page: per head, K planes then V planes. -/
def KvCtx.slotRuns (c : KvCtx) (base p slot : Nat) : List Nat :=
  (List.range (2 * c.heads)).map (fun h => base + (h * 2 ^ p + slot) * c.dim * c.b)

/-- Scatters the bytes of a slot into a page. -/
def State.putSlot (s : State) (c : KvCtx) (n : Nat) : List Nat → List Byte → State
  | [], _ => s
  | a :: r, l => ((s.wrBytes a (l.take n)).unpoison a n).putSlot c n r (l.drop n)

def State.writeSlot (s : State) (c : KvCtx) (base p slot : Nat) (l : List Byte) : State := s.putSlot c (c.dim * c.b) (c.slotRuns base p slot) l

/-- The bytes of a slot of a page. -/
def State.readSlot (s : State) (c : KvCtx) (base p slot : Nat) : List Byte := (c.slotRuns base p slot).flatMap (fun a => s.rdBytes a (c.dim * c.b))

/-- Copies slots 0 to n − 1 of a page to another of the same size. -/
def State.copySlots (s : State) (c : KvCtx) (from' to' p : Nat) : Nat → State
  | 0 => s
  | n + 1 => (s.copySlots c from' to' p n).writeSlot c to' p n (s.readSlot c from' p n)

/-- Copies the page behind entry e of list l before a write when it is shared (R320); written is how many of its positions the list has written. none when no page is free. -/
def KvWork.cow (w : KvWork) (c : KvCtx) (l e written : Nat) : Option KvWork :=
  let k := w.list l
  match k.ents[e]? with
  | none => some w
  | some v =>
    let d := w.s.kvDesc v.idx
    if d.ref ≤ 1 then some w
    else match w.s.allocPage c v.size d.score d.pinned with
      | none => none
      | some (i, s1) =>
        let s2 := s1.copySlots c d.base (s1.kvDesc i).base v.size written
        let s3 := (s2.unref c v.idx).satAdd R.KV_CNT F.KV_CNT_COW_COPIES 1
        some (({ w with s := s3 }.setList l { k with ents := k.ents.set e { v with idx := i } }).flag kvCowDone)

/-- Writes n slots from src into list l, slot j of them at position pos + j, in pages that exist. -/
def KvWork.fill (w : KvWork) (c : KvCtx) (l pos : Nat) (src : Nat → List Byte) : Nat → KvWork
  | 0 => w
  | n + 1 =>
    let w1 := w.fill c l pos src n
    let k := w1.list l
    match k.entryAt (pos + n) with
    | none => w1
    | some e =>
      match k.ents[e]? with
      | none => w1
      | some v => { w1 with s := w1.s.writeSlot c (w1.s.kvDesc v.idx).base v.size (pos + n - k.startOf e) (src n) }

/-- Adds k pages of size p to list l; none when one does not fit. -/
def KvWork.grow (w : KvWork) (c : KvCtx) (l p : Nat) : Nat → Option KvWork
  | 0 => some w
  | n + 1 =>
    let k := w.list l
    let score := match k.ents.getLast? with
      | some v => if v.hole then 0 else (w.s.kvDesc v.idx).score
      | none => 0
    match w.s.allocPage c p score false with
    | none => none
    | some (i, s1) => (({ w with s := s1 } : KvWork).setList l { k with ents := k.ents ++ [({ hole := false, size := p, idx := i } : KvEnt)] }).grow c l p n

/-- The positions that the entries of a list cover. -/
def KvList.covered (k : KvList) : Nat := k.ents.foldl (fun a e => a + 2 ^ e.size) 0

/-- The new pages that n tokens need in a list. -/
def KvList.newPages (k : KvList) (n p : Nat) : Nat := (n - (k.covered - k.len) + 2 ^ p - 1) / 2 ^ p

/-- Appends n slots to list l (R319). -/
def KvWork.append (w : KvWork) (c : KvCtx) (l p n : Nat) (spec : Bool) (src : Nat → List Byte) : Option KvWork :=
  let k := w.list l
  let touch := if n = 0 ∨ k.covered ≤ k.len then some w
    else match k.entryAt k.len with
      | none => some w
      | some e => w.cow c l e (k.len - k.startOf e)
  match touch with
  | none => none
  | some w1 =>
    match w1.grow c l p (k.newPages n p) with
    | none => none
    | some w2 =>
      let w3 := w2.fill c l k.len src n
      let k3 := w3.list l
      some (w3.setList l (if spec then { k3 with spec := n } else { k3 with len := k.len + n }))

/-! ### Starting and ending a command -/

/-- What a KV command starts with: its context's lists, LAST_OP and CONTEXT, refetched cache entries (R311). -/
def State.kvBegin (s : State) (q : Nat) (c : Cmd) (refetch : Nat) : State :=
  let s1 := (s.setFld R.KV_STAT F.KV_STAT_CONTEXT c.context).setFld R.KV_STAT F.KV_STAT_LAST_OP c.opcode
  if refetch = 0 then s1
  else ((s1.setFld R.KV_STAT F.KV_STAT_CACHE_REFETCH 1).satAdd R.KV_CNT F.KV_CNT_CACHE_REFETCH refetch).cmdFlags q (flagBit kvDescRefetch)

/-- Records the status of a KV command that ended. -/
def State.kvStatus (s : State) (q : Nat) : State :=
  match s.head q with
  | some c =>
    let s1 := s.setFld R.KV_STAT F.KV_STAT_LAST_STATUS (finalStatus c).toNat
    if (c.flags &&& flagBit kvFull) == 0 then s1 else s1.setFld R.KV_STAT F.KV_STAT_KV_FULL 1
  | none => s

/-- Ends a KV command. -/
def State.endKv (s : State) (q : Nat) (st : BitVec 8) : State := (s.endUnit q st).kvStatus q

/-- Ends a KV command REJECTED with flags. -/
def State.rejectKv (s : State) (q : Nat) (fl : BitVec 24) : State := ((s.cmdFlags q fl).rejectUnit q).kvStatus q

/-- Brings the registers of a context up to date: CHARGE and SPEC (R325, R331). -/
def KvWork.store (w : KvWork) (c : KvCtx) : State :=
  let s1 := (w.s.putLists c 0 w.ls).setFld (R.KV_CTX_CHARGE c.x) F.KV_CTX_CHARGE_CHARGE_4K (kvCharge c w.ls)
  let spec := w.ls.any (fun k => decide (0 < k.spec))
  let s2 := s1.setBit (R.KV_CTX_STAT c.x) F.KV_CTX_STAT_SPEC spec
  if spec then s2
  else
    let s3 := s2.setFld (R.KV_CTX_STAT c.x) F.KV_CTX_STAT_SPEC_N 0
    { s3 with kv := { s3.kv with masks := Store.set (fun _ => []) s3.kv.masks c.x [], commit := Store.set (fun _ => none) s3.kv.commit c.x none } }

/-- Ends a command with the work it did. -/
def KvWork.finish (w : KvWork) (c : KvCtx) (q : Nat) (st : BitVec 8) : State := ((w.store c).cmdFlags q w.flags).endKv q st

/-- An entry behind which the manager reads the descriptor: fine, lost before, or uncorrectable now (R334). -/
def State.descBadKv (s : State) (e : KvEnt) : Option Bool :=
  if e.hole then none
  else if s.idxState e.idx = 2 then some false
  else if s.poisoned (s.descAddrKv e.idx) 16 then some true
  else if (s.kvDesc e.idx).valid then none else some false

/-- Turns into holes all entries of the lists that reference a descriptor, and drops holes left at the end. -/
def dropIndex (i : Nat) (ls : List KvList) : List KvList :=
  ls.map (fun k => ({ k with ents := k.ents.map (fun e => if e.idx = i then { e with hole := true } else e) } : KvList).trim)

/-- An uncorrectable descriptor (R334): the index and its block are withdrawn, and the issuing context's entries become holes. -/
def KvWork.lose (w : KvWork) (c : KvCtx) (i : Nat) : KvWork :=
  let s1 := ((w.s.setFld R.KV_ERR F.KV_ERR_VALID 1).setFld R.KV_ERR F.KV_ERR_INDEX i).withCause 4 (fun t => t.setFld R.KV_STAT F.KV_STAT_DESC_UNCORR 1)
  let s2 := (s1.wrN (s1.descAddrKv i) 16 0).setIdx i 2
  let s3 := (s2.satAdd R.KV_CNT F.KV_CNT_WITHDRAWN 1).setFld (R.KV_IDX_USE c.canton) F.KV_IDX_USE_IN_USE (s2.fld (R.KV_IDX_USE c.canton) F.KV_IDX_USE_IN_USE - 1)
  { w with s := s3.event 13 0x70 (s3.reg R.KV_STAT) 0, ls := dropIndex i w.ls }

/-- Reads the descriptors behind entries: an uncorrectable one ends the scan with its index, one lost before turns into a hole with DESC_LOST. -/
def KvWork.scan (w : KvWork) : List (Nat × KvEnt) → KvWork × Option Nat
  | [] => (w, none)
  | (l, e) :: r =>
    match w.s.descBadKv e with
    | none => w.scan r
    | some true => (w, some e.idx)
    | some false =>
      let k := w.list l
      ((w.setList l (({ k with ents := k.ents.map (fun v => if v.idx = e.idx then { v with hole := true } else v) } : KvList).trim)).flag kvDescLost).scan r

/-- The entries of lists lo to lo + n − 1, each with its list. -/
def KvWork.entries (w : KvWork) (lo n : Nat) : List (Nat × KvEnt) :=
  ((List.range n).map (fun i => lo + i)).flatMap (fun l => (w.list l).ents.map (fun e => (l, e)))

/-- Runs a command on its open context after its descriptors in a set of entries were read (R334). -/
def State.onKv (s : State) (q op refetch : Nat) (bad : Cmd → KvCtx → Bool) (touch : Cmd → KvWork → List (Nat × KvEnt))
    (f : Cmd → KvCtx → KvWork → State) : State :=
  s.onUnit q 4 (fun c _ =>
    if c.opcode ≠ op then s
    else
      let s1 := s.kvBegin q c refetch
      let k := s1.kvCtx c.context
      if !s.bit (R.KV_CTX_STAT c.context) F.KV_CTX_STAT_OPEN || bad c k then s1.rejectKv q 0
      else
        let w : KvWork := { s := s1, ls := s1.kvLists k }
        let r := w.scan (touch c w)
        match r.2 with
        | some i => (r.1.lose k i).finish k q stIntegrity
        | none => f c k r.1)

/-- Whether a layer range lies beyond the context's lists. -/
def layersBad (k : KvCtx) (lo n : Nat) : Bool := decide (k.layers < lo + n)

/-- Whether a source address is refused: in a remote window or not 8-aligned (R316). -/
def State.srcBad (s : State) (a : Nat) : Bool :=
  a % 8 != 0 || (match s.place a with
    | .remote _ _ => true
    | _ => false)

/-- The manager's agent for a canton (R257). -/
def kvAgent (canton : Nat) : Agent := unitAgent 0x40 canton

/-! ### OPEN and CLOSE (R313, R316, R322) -/

/-- The bytes of a map: a power of two of at least 4 KiB. -/
def mapBytes (layers listLen : Nat) : Nat :=
  let n := 8 * layers + 4 * layers * listLen
  max 4096 (2 ^ (Nat.log2 (n - 1) + 1))

/-- KV_OPEN (R313, R316): the context gets an empty map in its canton's pool. -/
def execKvOpen (q : BitVec 16) (s : State) : Out :=
  .next (s.onUnit q.toNat 4 (fun c _ =>
    if c.opcode ≠ 1 then s
    else
      let n := q.toNat
      let s1 := s.kvBegin n c 0
      let x := c.context
      let canton := s.qCanton n
      let cls := c.pl 0 1
      let layers := c.pl 2 2
      let ll := c.pl 4 2
      let decay := c.pl 12 4
      let dv := ofF32 decay
      let k := s.kvClass canton (cls % 8)
      if s.bit (R.KV_CTX_STAT x) F.KV_CTX_STAT_OPEN || decide (8 ≤ cls) || k.heads == 0 || c.pl 1 1 != 0 || c.pl 6 2 != 0 ||
          !(decide (1 ≤ layers ∧ layers ≤ 256 ∧ 1 ≤ ll ∧ ll ≤ 4096)) || !(valZero.lt dv && !valOne.lt dv) || !zeroBytes c.desc 40 24 ||
          c.fmtDiffers 0 k.fmt then s1.rejectKv n 0
      else match s1.freeBlock canton (mapBytes layers ll) with
        | none => s1.rejectKv n (flagBit kvFull)
        | some a =>
          let s2 := s1.takeBlock canton a (mapBytes layers ll)
          let s3 := ((((((s2.setReg (R.KV_CTX_STAT x) 0).setFld (R.KV_CTX_STAT x) F.KV_CTX_STAT_OPEN 1).setFld (R.KV_CTX_STAT x) F.KV_CTX_STAT_CANTON canton).setFld
            (R.KV_CTX_STAT x) F.KV_CTX_STAT_CLASS cls).setFld (R.KV_CTX_STAT x) F.KV_CTX_STAT_LAYERS layers).setFld (R.KV_CTX_STAT x) F.KV_CTX_STAT_LIST_LEN ll)
          let s4 := (s3.setFld (R.KV_CTX_MAP x) F.KV_CTX_MAP_ADDR (a / 4096)).setReg (R.KV_CTX_CHARGE x) (BitVec.ofNat 64 (c.pl 8 4 * 2 ^ 32))
          let s5 := s4.setReg (R.KV_CTX_PARAM x) (BitVec.ofNat 64 (decay * 2 ^ 32))
          (s5.wrBytes a (List.replicate (8 * layers) 0)).endKv n stDone))

/-- Releases every entry of the first n lists. -/
def KvWork.emptyLists (w : KvWork) (c : KvCtx) : Nat → KvWork
  | 0 => w
  | n + 1 => let v := w.emptyLists c n; v.cutList c n 0 0

/-- Closes a context whose lists are empty: the map is freed, and its registers are as after the full load. -/
def State.kvShut (s : State) (c : KvCtx) : State :=
  let s1 := (((s.freeBlockAt c.canton c.map).setReg (R.KV_CTX_STAT c.x) 0).setReg (R.KV_CTX_MAP c.x) 0).setReg (R.KV_CTX_CHARGE c.x) 0
  let s2 := s1.setReg (R.KV_CTX_PARAM c.x) 0
  { s2 with kv := { s2.kv with masks := Store.set (fun _ => []) s2.kv.masks c.x [], commit := Store.set (fun _ => none) s2.kv.commit c.x none } }

/-- KV_CLOSE (R322): done counts the lists that a command cut by expiry released. -/
def execKvClose (q : BitVec 16) (done refetch : Nat) (s : State) : Out :=
  .next (s.onKv q.toNat 2 refetch (fun c _ => !zeroBytes c.desc 24 40) (fun _ w => w.entries 0 w.ls.length) (fun c k w =>
    if c.cut && decide (done < k.layers) then (w.emptyLists k done).finish k q.toNat stDone
    else
      let v := w.emptyLists k k.layers
      ((v.s.kvShut k).cmdFlags q.toNat v.flags).endKv q.toNat stDone))

/-! ### APPEND (R319, R320, R326, R328) -/

/-- The rows of a tree mask. -/
def maskRows (l : List Byte) : List Nat := (List.range 16).map (fun i => sliceN l (2 * i) 2)

/-- The check of row i of a tree mask of n nodes (R328). -/
def maskRowOk (m : List Nat) (n i : Nat) : Bool :=
  let row := m.getD i 0
  if n ≤ i then row == 0
  else
    let rest := row - 2 ^ i
    row / 2 ^ i == 1 && (rest == 0 || row == Nat.lor (m.getD (Nat.log2 rest) 0) (2 ^ i))

/-- Whether a mask of n nodes is a tree (R328). -/
def maskOk (m : List Nat) (n : Nat) : Bool := (List.range 16).all (maskRowOk m n)

/-- Appends to n lists from list lo on, tokens each, but only the first limit slots in all. -/
def KvWork.appendLists (w : KvWork) (c : KvCtx) (lo p tokens : Nat) (spec : Bool) (src : Nat → Nat → List Byte) : Nat → Nat → Option KvWork
  | 0, _ => some w
  | n + 1, limit =>
    match w.appendLists c lo p tokens spec src n limit with
    | none => none
    | some v =>
      let k := min tokens (limit - n * tokens)
      if k = 0 then some v else v.append c (lo + n) p k spec (src n)

/-- Ends an APPEND or commit whose candidates for eviction ran out (R326). -/
def State.kvNoRoom (s : State) (q : Nat) : State := s.rejectKv q (flagBit kvFull)

/-- Keeps the tree mask and the node count of pending candidates with the context (R328). -/
def KvWork.setMask (w : KvWork) (c : KvCtx) (mask : List Nat) (n : Nat) : KvWork :=
  let s1 := { w.s with kv := { w.s.kv with masks := Store.set (fun _ => []) w.s.kv.masks c.x mask } }
  { w with s := s1.setFld (R.KV_CTX_STAT c.x) F.KV_CTX_STAT_SPEC_N n }

/-- KV_APPEND (R319): done counts the slots that a command cut by expiry appended. -/
def execKvAppend (q : BitVec 16) (done refetch : Nat) (s : State) : Out :=
  .next (s.onKv q.toNat 3 refetch
    (fun c k =>
      layersBad k (c.pl 0 2) (c.pl 2 2) || decide (c.pl 4 2 < 1 ∨ 4096 < c.pl 4 2) || decide (c.pl 6 1 < 4 ∨ 12 < c.pl 6 1) ||
      decide (2 ≤ c.pl 7 1) || s.srcBad (c.pl 8 8) || (if c.pl 7 1 = 1 then decide (16 < c.pl 4 2) || s.srcBad (c.pl 16 8) else c.pl 16 8 != 0) ||
      !zeroBytes c.desc 48 16 || c.fmtDiffers 0 (s.kvClass k.canton k.cls).fmt)
    (fun c w => (((List.range (c.pl 2 2)).map (fun i => c.pl 0 2 + i)).filterMap (fun l => ((w.list l).ents.getLast?).map (fun e => (l, e)))))
    (fun c k w =>
      let n := q.toNat
      let lo := c.pl 0 2
      let cnt := c.pl 2 2
      let tokens := c.pl 4 2
      let p := c.pl 6 1
      let spec := c.pl 7 1 == 1
      let g := kvAgent k.canton
      let a := c.pl 8 8
      let lists := (List.range cnt).map (fun i => w.list (lo + i))
      let m := if spec then w.s.unitRead g (c.pl 16 8) 32 else ({}, w.s)
      let mask := maskRows m.1.bytes
      let pend := decide (0 < s.fld (R.KV_CTX_STAT k.x) F.KV_CTX_STAT_SPEC_N)
      let badMask := spec && (!maskOk mask tokens ||
        (pend && (Store.get (fun _ => []) s.kv.masks k.x != mask || s.fld (R.KV_CTX_STAT k.x) F.KV_CTX_STAT_SPEC_N != tokens)))
      if lists.any (fun l => decide (0 < l.spec)) || badMask then s.rejectKv n 0
      else if lists.any (fun l => decide (k.listLen < l.ents.length + l.newPages tokens p)) then s.rejectKv n (flagBit kvListFull)
      else
        let x := m.2.unitRead g a (cnt * tokens * k.tb)
        if m.1.wait || x.1.wait then s
        else if m.1.bad || x.1.bad then x.2.endKv n stIntegrity
        else
          let tb := k.tb
          let src (i t : Nat) : List Byte := ((x.1.bytes.drop ((i * tokens + t) * tb)).take tb)
          let w0 := { w with s := x.2 }
          let body (limit : Nat) (v : KvWork) : Option KvWork := match v.appendLists k lo p tokens spec src cnt limit with
            | none => none
            | some u => if u.fits k then some u else none
          let all := cnt * tokens
          let scanned := if (body all w0).isSome then (w0, none) else w0.scan (w0.entries 0 w0.ls.length)
          match scanned.2 with
          | some i => (scanned.1.lose k i).finish k n stIntegrity
          | none =>
            match kvPlan k (body all) scanned.1.order scanned.1 with
            | none => s.kvNoRoom n
            | some v =>
              match body (if c.cut then min done all else all) v with
              | none => s
              | some u =>
                let u1 : KvWork := if spec then u.setMask k mask tokens else u
                { u1 with s := u1.s.cmdFlags n (m.1.flags ||| x.1.flags) }.finish k n stDone))

/-! ### FORK (R321) -/

/-- Adds one reference to each page behind entries. -/
def State.refAll (s : State) : List KvEnt → State
  | [] => s
  | e :: r => (if e.hole then s else let d := s.kvDesc e.idx; s.putDesc e.idx { d with ref := d.ref + 1 }).refAll r

/-- Whether a reference count would pass 65,535. -/
def State.refTooHigh (s : State) (l : List KvEnt) : Bool :=
  l.any (fun e => !e.hole && decide (65535 < (s.kvDesc e.idx).ref + (l.filter (fun v => !v.hole && v.idx == e.idx)).length))

/-- The list that a FORK makes of a source list: the entries that start below TOKENS, without holes at its end. -/
def KvList.forked (k : KvList) (tokens : Nat) : KvList :=
  ({ len := tokens, spec := 0, ents := (k.starts.filter (fun p => decide (p.1 < tokens))).map (fun p => p.2) } : KvList).trim

/-- KV_FORK (R321): done counts the lists that a command cut by expiry copied. -/
def execKvFork (q : BitVec 16) (done refetch : Nat) (s : State) : Out :=
  .next (s.onKv q.toNat 4 refetch
    (fun c k =>
      let y := c.pl 0 2
      let src := s.kvCtx y
      let tokens := c.pl 4 4
      decide (4096 ≤ y) || c.pl 2 2 != 0 || !zeroBytes c.desc 32 32 || !s.bit (R.KV_CTX_STAT y) F.KV_CTX_STAT_OPEN ||
      src.canton != k.canton || src.cls != k.cls || src.layers != k.layers ||
      (s.kvLists k).any (fun l => !l.ents.isEmpty) || (s.kvLists src).any (fun l => decide (l.len < tokens)))
    (fun c w => let src := s.kvLists (s.kvCtx (c.pl 0 2))
      (List.range w.ls.length).flatMap (fun i => ((src.getD i { len := 0, spec := 0, ents := [] }).forked (c.pl 4 4)).ents.map (fun e => (i, e))))
    (fun c k w =>
      let n := q.toNat
      let src := s.kvLists (s.kvCtx (c.pl 0 2))
      let good (e : KvEnt) : KvEnt := if w.s.descBadKv e == some false then { e with hole := true } else e
      let lists : List KvList := src.map (fun l => ({ (l.forked (c.pl 4 4)) with ents := (l.forked (c.pl 4 4)).ents.map good } : KvList).trim)
      let take := if c.cut then min done k.layers else k.layers
      let all := lists.flatMap (fun l => l.ents)
      if w.s.refTooHigh all then s.rejectKv n (flagBit kvRefLimit)
      else if lists.any (fun (l : KvList) => decide (k.listLen < l.ents.length)) then s.rejectKv n (flagBit kvListFull)
      else if !({ w with ls := lists } : KvWork).fits k then s.kvNoRoom n
      else
        let used : List KvList := lists.take take
        ({ w with s := w.s.refAll (used.flatMap (fun (l : KvList) => l.ents)), ls := used ++ w.ls.drop take }).finish k n stDone))

/-! ### TRUNCATE, SCORE, PIN, EVICT -/

/-- KV_TRUNCATE (R322, R331): done counts the lists that a command cut by expiry treated. -/
def execKvTruncate (q : BitVec 16) (done refetch : Nat) (s : State) : Out :=
  .next (s.onKv q.toNat 5 refetch
    (fun c k => layersBad k (c.pl 0 2) (c.pl 2 2) || !zeroBytes c.desc 32 32 ||
      ((List.range (c.pl 2 2)).any (fun i => decide ((s.kvList k (c.pl 0 2 + i)).len < c.pl 4 4))))
    (fun c w => (w.entries (c.pl 0 2) (c.pl 2 2)).filter (fun p => !((w.list p.1).starts.any (fun x => x.2 == p.2 && decide (x.1 < c.pl 4 4)))))
    (fun c k w =>
      let n := if c.cut then min done (c.pl 2 2) else c.pl 2 2
      ((List.range n).foldl (fun v i => v.cutList k (c.pl 0 2 + i) (c.pl 4 4) (min (v.list (c.pl 0 2 + i)).len (c.pl 4 4))) w).finish k q.toNat stDone))

/-- The new score of a page that receives a mass (R324), and whether the mass was bad. -/
def newScore (decay score mass : Nat) : Nat × Bool :=
  let x := ofF32 mass
  let bad := match x with
    | .nan => true
    | .inf s => !s || true
    | .fin s m _ => s && m != 0
  let x' := if bad then valZero else x
  let t := f32Add (f32Mul (ofF32 decay) (Fmt.decode .bf16 score).1) x'
  let c := (Fmt.encode .bf16 .rne 0 t).1
  (if c = 0x7F80 then 0x7F7F else c, bad)

/-- Decays and feeds the pages behind entries; each has its mass. -/
def KvWork.scorePages (w : KvWork) (decay : Nat) : List (KvEnt × Nat) → KvWork
  | [] => w
  | (e, m) :: r =>
    let d := w.s.kvDesc e.idx
    let x := newScore decay d.score m
    let w1 := { w with s := w.s.putDesc e.idx { d with score := x.1 } }
    (if x.2 then w1.flag kvMassBad else w1).scorePages decay r

/-- KV_SCORE (R324): done counts the descriptors that a command cut by expiry reached. -/
def execKvScore (q : BitVec 16) (done refetch : Nat) (s : State) : Out :=
  .next (s.onKv q.toNat 6 refetch
    (fun c k => layersBad k (c.pl 0 2) (c.pl 2 2) || c.pl 4 4 != 0 || s.srcBad (c.pl 8 8) || !zeroBytes c.desc 40 24)
    (fun c w => w.entries (c.pl 0 2) (c.pl 2 2))
    (fun c k w =>
      let g := kvAgent k.canton
      let rs := (List.range (c.pl 2 2)).map (fun i =>
        w.s.readMem g (c.pl 8 8 + i * k.listLen * 4) (4 * (w.list (c.pl 0 2 + i)).ents.length))
      let s1 := (List.range (c.pl 2 2)).foldl (fun t i =>
        t.noteRead g (c.pl 8 8 + i * k.listLen * 4) (4 * (w.list (c.pl 0 2 + i)).ents.length)) w.s
      let ps := (List.range (c.pl 2 2)).flatMap (fun i =>
        let l := w.list (c.pl 0 2 + i)
        (l.ents.zip (List.range l.ents.length)).filterMap (fun p =>
          if p.1.hole then none else some (p.1, sliceN ((rs.getD i {}).bytes) (4 * p.2) 4)))
      if rs.any (fun r => r.wait) then s
      else if rs.any (fun r => r.bad) then s1.endKv q.toNat stIntegrity
      else
        let fl := rs.foldl (fun a (r : MemRead) => a ||| r.flags) 0
        ({ w with s := s1.cmdFlags q.toNat fl }.scorePages (s.fld (R.KV_CTX_PARAM k.x) F.KV_CTX_PARAM_DECAY)
          (if c.cut then ps.take done else ps)).finish k q.toNat stDone))

/-- The entries that a PIN names. -/
def pinEntries (c : Cmd) (w : KvWork) : List (Nat × KvEnt) :=
  let ls := if c.pl 0 2 = 0xFFFF then List.range w.ls.length else [c.pl 0 2]
  ls.flatMap (fun l => (((w.list l).ents.drop (c.pl 2 2)).take (c.pl 4 2)).map (fun e => (l, e)))

/-- KV_PIN (R327): done counts the descriptors that a command cut by expiry reached. -/
def execKvPin (q : BitVec 16) (done refetch : Nat) (s : State) : Out :=
  .next (s.onKv q.toNat 7 refetch
    (fun c k => (c.pl 0 2 != 0xFFFF && decide (k.layers ≤ c.pl 0 2)) || decide (1 < c.pl 6 1) || c.pl 7 1 != 0 || !zeroBytes c.desc 32 32)
    pinEntries
    (fun c k w =>
      let es := (pinEntries c w).filter (fun p => !p.2.hole)
      let es' := if c.cut then es.take done else es
      ({ w with s := es'.foldl (fun t (p : Nat × KvEnt) => t.putDesc p.2.idx { t.kvDesc p.2.idx with pinned := c.pl 6 1 == 1 }) w.s }).finish k q.toNat stDone))

/-- Evicts in order until CHARGE is at most a target; the flag says that the candidates ran out. -/
def evictTo (c : KvCtx) (target : Nat) : List (Nat × Nat × Nat) → KvWork → KvWork × Bool
  | [], w => (w, decide (target < kvCharge c w.ls))
  | a :: r, w => if kvCharge c w.ls ≤ target then (w, false) else evictTo c target r (w.evict c a.2.1 a.2.2)

/-- KV_EVICT (R327): done counts the entries that a command cut by expiry evicted. -/
def execKvEvict (q : BitVec 16) (done refetch : Nat) (s : State) : Out :=
  .next (s.onKv q.toNat 8 refetch (fun c _ => !zeroBytes c.desc 28 36) (fun _ w => w.entries 0 w.ls.length)
    (fun c k w =>
      let o := w.order
      let r := evictTo k (c.pl 0 4) (if c.cut then o.take done else o) w
      (if r.2 && !(c.cut && decide (done < o.length)) then r.1.flag kvFull else r.1).finish k q.toNat stDone))

/-! ### VERIFY_COMMIT (R330) -/

/-- Moves the accepted slots of a list to its end: slot a to position r, in order. -/
def KvWork.moves (w : KvWork) (c : KvCtx) (l len specN : Nat) : Nat → List Nat → Option KvWork
  | _, [] => some w
  | r, a :: rest =>
    if a = r then w.moves c l len specN (r + 1) rest
    else
      let k := w.list l
      match k.entryAt (len + r), k.entryAt (len + a) with
      | some e, some e2 =>
        match w.cow c l e (min (2 ^ (k.ents.getD e { hole := true, size := 0, idx := 0 }).size) (len + specN - k.startOf e)) with
        | none => none
        | some w1 =>
          let k1 := w1.list l
          let d1 := k1.ents.getD e { hole := true, size := 0, idx := 0 }
          let d2 := k1.ents.getD e2 { hole := true, size := 0, idx := 0 }
          let bytes := w1.s.readSlot c (w1.s.kvDesc d2.idx).base d2.size (len + a - k1.startOf e2)
          ({ w1 with s := w1.s.writeSlot c (w1.s.kvDesc d1.idx).base d1.size (len + r - k1.startOf e) bytes }).moves c l len specN (r + 1) rest
      | _, _ => w.moves c l len specN (r + 1) rest

/-- Commits list l with the accepted nodes. -/
def KvWork.commitList (w : KvWork) (c : KvCtx) (l : Nat) (acc : List Nat) : Option KvWork :=
  let k := w.list l
  match w.moves c l k.len k.spec 0 acc with
  | none => none
  | some w1 =>
    let len := k.len + acc.length
    some (w1.cutList c l len len)

/-- Commits the first n of the given lists. -/
def KvWork.commitLists (w : KvWork) (c : KvCtx) (acc : List Nat) : List Nat → Option KvWork
  | [] => some w
  | l :: r => match w.commitList c l acc with
    | none => none
    | some v => v.commitLists c acc r

/-- KV_VERIFY_COMMIT (R330): done counts the lists that a command cut by expiry committed. -/
def execKvVerifyCommit (q : BitVec 16) (done refetch : Nat) (s : State) : Out :=
  .next (s.onKv q.toNat 9 refetch
    (fun c k =>
      let node := c.pl 0 1
      let cut := Store.get (fun _ => none) s.kv.commit k.x
      (node != 0xFF && decide (s.fld (R.KV_CTX_STAT k.x) F.KV_CTX_STAT_SPEC_N ≤ node)) || !zeroBytes c.desc 25 39 ||
      (cut.isSome && cut != some node) || c.fmtDiffers 0 (s.kvClass k.canton k.cls).fmt)
    (fun _ w => w.entries 0 w.ls.length)
    (fun c k w =>
      let node := c.pl 0 1
      let row := if node = 0xFF then 0 else (Store.get (fun _ => []) s.kv.masks k.x).getD node 0
      let acc := (List.range 16).filter (fun i => row.testBit i)
      let ls := (List.range w.ls.length).filter (fun l => decide (0 < (w.list l).spec))
      match kvPlan k (fun v => v.commitLists k acc ls) w.order w with
      | none => s.kvNoRoom q.toNat
      | some v =>
        match v.commitLists k acc (if c.cut then ls.take done else ls) with
        | none => s
        | some u =>
          let part := c.cut && decide (done < ls.length) && decide (0 < done)
          let u1 := if part then { u with s := { u.s with kv := { u.s.kv with commit := Store.set (fun _ => none) u.s.kv.commit k.x (some node) } } } else u
          u1.finish k q.toNat stDone))

end Sys2Proof.Machine
end

