-- ==== Sys2Proof/Machine/Solver.lean ====
section
/-! DEFINITION. The least-squares solver array: dense problems and bundle adjustment, evaluations by the cores, and the iteration (R341 to R366). -/

namespace Sys2Proof.Machine

/-! ### Parameters (R343, R344) -/

/-- The parameter block of a solve. -/
structure SolP where
  ba : Bool
  x0 : Nat
  xOut : Nat
  res : Nat
  eval : Nat
  slot : Nat
  sig : Nat
  count : Nat
  n : Nat
  prec : Nat
  m : Nat
  np : Nat
  no : Nat
  nc : Nat
  cb : Nat
  mo : Nat
  lm : Nat
  robust : Nat
  iterMax : Nat
  queue : Nat
  image : Nat
  entry : Nat
  flags : Nat
  delta : Nat
  tauRel : Nat
  lambda0 : Nat
  tolCost : Nat
  tolStep : Nat
  tolGrad : Nat
  last : Nat
  resv : Nat
  deriving DecidableEq, Repr

/-- The parameters that 128 bytes spell. -/
def solP (ba : Bool) (l : List Byte) : SolP :=
  let g (o k : Nat) : Nat := sliceN l o k
  { ba := ba, x0 := g 0 8, xOut := g 8 8, res := g 16 8, eval := g 24 8, slot := g 32 8, sig := g 40 8
    count := if ba then 1 else g 48 2, n := if ba then g 56 2 * g 58 1 + 3 * g 48 4 else g 50 1, prec := if ba then 0 else g 51 1
    m := g 52 2, np := g 48 4, no := g 52 4, nc := g 56 2, cb := g 58 1, mo := g 59 1
    lm := g 60 1, robust := g 61 1, iterMax := g 62 2, queue := g 64 2, image := g 66 2, entry := g 68 2, flags := g 70 2
    delta := g 72 8, tauRel := g 80 8, lambda0 := g 88 8, tolCost := g 96 8, tolStep := g 104 8, tolGrad := g 112 8, last := g 120 8
    resv := if ba then g 70 2 else g 54 2 + g 56 4 + g 120 8 }

/-- The format of a solve's numbers, and its bytes. -/
def SolP.fmt (p : SolP) : Fmt := if p.prec = 1 then .fp32 else .fp64
def SolP.b (p : SolP) : Nat := if p.prec = 1 then 4 else 8

/-- The unknowns of the reduced camera system. -/
def SolP.nr (p : SolP) : Nat := p.nc * p.cb

/-- An FP64 parameter as a value, with the default that 0 stands for. -/
def parVal (code dflt : Nat) : Val :=
  if code = 0 ∧ dflt ≠ 0 then .fin false 1 (-(dflt : Int)) else ofF64 (BitVec.ofNat 64 code)

/-- Whether a value is finite. -/
def Val.finite : Val → Bool
  | .fin _ _ _ => true
  | _ => false

/-- Whether a tolerance or λ is negative or NaN. -/
def tolBad (code : Nat) : Bool :=
  let v := ofF64 (BitVec.ofNat 64 code)
  v == .nan || v.lt valZero

/-- The workspace that a bundle adjustment needs (R357). -/
def SolP.work (p : SolP) : Nat :=
  let t := (p.nr + 63) / 64
  32768 * (t * (t + 1) / 2) + 128 * p.np + 64 * p.nr

/-- The bytes of the evaluation buffer of a dense problem (R346). -/
def SolP.evalStep (p : SolP) : Nat := (p.b * (p.n + p.m * (p.n + 1)) + 255) / 256 * 256

/-- The bytes of the evaluation buffer. -/
def SolP.evalBytes (p : SolP) : Nat :=
  if p.ba then 8 * (p.n + p.no * p.mo * (p.cb + 4)) else p.count * p.evalStep + p.count

/-- Whether a field is outside its range (R343, R344). -/
def SolP.bad (p : SolP) : Bool :=
  decide (1 < p.lm) || decide (2 < p.robust) || decide (p.iterMax < 1 ∨ 1000 < p.iterMax) || p.resv != 0 || decide (1 < p.flags) ||
  (p.robust != 0 && (let d := ofF64 (BitVec.ofNat 64 p.delta); !(d.finite && valZero.lt d))) ||
  tolBad p.tolCost || tolBad p.tolStep || tolBad p.tolGrad || tolBad p.lambda0 || tolBad p.tauRel ||
  !((ofF64 (BitVec.ofNat 64 p.tauRel)).lt valOne) ||
  (if p.ba then
    decide (p.np < 1 ∨ 262144 < p.np ∨ p.no < 1 ∨ 4194304 < p.no ∨ p.nc < 1 ∨ p.cb < 6 ∨ 9 < p.cb ∨ p.mo < 1 ∨ 4 < p.mo ∨ 4096 < p.nr ∨ p.last < p.work)
  else decide (p.count < 1 ∨ 8192 < p.count ∨ p.n < 1 ∨ 64 < p.n ∨ 1 < p.prec ∨ p.m < 1 ∨ 1024 < p.m))

/-- The solver's agent for a canton (R257). -/
def solAgent (canton : Nat) : Agent := unitAgent 0x30 canton

/-- Whether an area is refused: not 8-aligned, in a remote window, or with a byte that the canton cannot reach (R33, R344). -/
def State.areaBad (s : State) (g : Agent) (write : Bool) (a n : Nat) : Bool :=
  a % 8 != 0 || (match s.place a with
    | .remote _ _ => true
    | _ => false) ||
  (match s.firstFault g write a n with
    | some (d, _) => d
    | none => false)

/-- Whether an area of a command is refused. -/
def State.solAreasBad (s : State) (g : Agent) (p : SolP) : Bool :=
  let xs := p.count * p.n * p.b
  s.areaBad g false p.x0 xs || s.areaBad g true p.xOut xs || s.areaBad g true p.res (32 * p.count) || s.areaBad g true p.eval p.evalBytes ||
  (if p.ba then s.areaBad g false p.slot (8 * p.no) || s.areaBad g true p.sig p.last || !s.unitSpan g p.sig p.work
   else p.slot != 0 && s.areaBad g (p.flags == 1) p.slot (544 * p.count))

/-- An observation list: the pairs (point, camera) that bytes spell, with whether each reserved field is zero. -/
def obsOf (l : List Byte) (n : Nat) : List (Nat × Nat) × Bool :=
  ((List.range n).map (fun i => (sliceN l (8 * i) 4, sliceN l (8 * i + 4) 2)), (List.range n).all (fun i => sliceN l (8 * i + 6) 2 == 0))

/-- Whether pairs are sorted by point and then camera without a repeat. -/
def obsSorted : List (Nat × Nat) → Bool
  | a :: b :: r => decide (a.1 < b.1 ∨ (a.1 = b.1 ∧ a.2 < b.2)) && obsSorted (b :: r)
  | _ => true

/-! ### Arithmetic in PREC (R348 to R351) -/

/-- A value rounded to a format to nearest even. -/
def rne (f : Fmt) (v : Val) : Val := (f.decode (f.encode .rne 0 v).1).1

def solFma (f : Fmt) (a b c : Val) : Val := rne f ((a.mul b).add c)
def solAdd (f : Fmt) (a b : Val) : Val := rne f (a.add b)
def solMul (f : Fmt) (a b : Val) : Val := rne f (a.mul b)
def solDiv (f : Fmt) (a b : Val) : Val := rne f (a.div b)
def solSqrt (f : Fmt) (a : Val) : Val := rne f a.sqrt

/-- The natural logarithm, correctly rounded. -/
def solLn (f : Fmt) (v : Val) : Val :=
  if f == .fp32 then ofF32 (Config.lnF32 (BitVec.ofNat 32 (toF32 v))).toNat else ofF64 (Config.lnF64 (toF64 v))

/-- The robust weight of a residual (R349). -/
def solWeight (f : Fmt) (robust : Nat) (d r : Val) : Val :=
  match robust with
  | 0 => valOne
  | 1 => if d.lt r.abs then solDiv f d r.abs else valOne
  | _ => solDiv f valOne (solAdd f valOne (solDiv f (solMul f r r) (solMul f d d)))

/-- The exact half. -/
def valHalf : Val := .fin false 1 (-1)

/-- Adds the cost of a residual (R349, R350). -/
def solCostAdd (f : Fmt) (robust : Nat) (d c r : Val) : Val :=
  let quad := solFma f (rne f (valHalf.mul r)) r c
  match robust with
  | 0 => quad
  | 1 => if d.lt r.abs then solAdd f c (rne f ((rne f (d.mul r.abs)).sub (rne f (valHalf.mul (solMul f d d))))) else quad
  | _ => solFma f (rne f (valHalf.mul (solMul f d d))) (solLn f (solAdd f valOne (solDiv f (solMul f r r) (solMul f d d)))) c

/-- The cost of residual rows, in ascending order. -/
def solCost (f : Fmt) (robust : Nat) (d : Val) (rows : List SolRow) : Val := rows.foldl (fun c r => solCostAdd f robust d c r.r) valZero

/-- The norm of a vector. -/
def solNorm (f : Fmt) (l : List Val) : Val := solSqrt f (l.foldl (fun a v => solFma f v v a) valZero)

/-- The element of a row in a column, none where the row has none. -/
def SolRow.at (r : SolRow) (c : Nat) : Option Val := (r.j.find? (fun p => p.1 == c)).map (fun p => p.2)

/-- Element (i, k) of the weighted normal matrix: one FMA for each row that has both columns, in ascending order (R350). -/
def solH (f : Fmt) (robust : Nat) (d : Val) (rows : List SolRow) (i k : Nat) : Val :=
  rows.foldl (fun a r => match r.at i, r.at k with
    | some u, some v => solFma f (solMul f (solWeight f robust d r.r) u) v a
    | _, _ => a) valZero

/-- Element i of the weighted gradient. -/
def solG (f : Fmt) (robust : Nat) (d : Val) (rows : List SolRow) (i : Nat) : Val :=
  rows.foldl (fun a r => match r.at i with
    | some u => solFma f (solMul f (solWeight f robust d r.r) u) r.r a
    | none => a) valZero

/-- The largest of a list of values, from 0. -/
def valMaxL (l : List Val) : Val := l.foldl (fun a v => a.max v) valZero

/-- The clamp threshold of a matrix by its diagonal (R351). -/
def solTau (f : Fmt) (tauRel : Nat) (diag : List Val) : Val :=
  (rne f ((parVal tauRel 40).mul (valMaxL diag))).max (.fin false 1 (-1022))

/-- A pivot clamped (R351), and whether it was. -/
def solPivot (tau d : Val) : Val × Bool :=
  if d.abs.lt tau then ((match d with
    | .fin true m _ => if m = 0 then tau else tau.neg
    | _ => tau), true) else (d, false)

/-- a − Σ l_k v_k, one FMA a term in ascending order. -/
def solDots (f : Fmt) : List Val → List Val → Val → Val
  | l :: ls, v :: vs, a => solDots f ls vs (solFma f l.neg v a)
  | _, _, a => a

/-- A factor LDLᵀ: the rows of L below the diagonal, the pivots, and whether one was clamped. -/
structure Ldl where
  l : List (List Val)
  d : List Val
  clamp : Bool
  deriving DecidableEq, Repr

/-- Row i of L from the rows above it: l_ij = (a_ij − Σ_{k<j} l_ik (l_jk d_k)) / d_j. The values l_ik d_k stand in v. -/
def ldlRow (f : Fmt) (a : List Val) : List (List Val) → List Val → List Val → List Val
  | [], _, acc => acc
  | lj :: rest, ds, acc =>
    let j := acc.length
    let dj := ds.getD j valOne
    let v := (lj.zip ds).map (fun p => solMul f p.1 p.2)
    let t := solDots f acc v (a.getD j valZero)
    ldlRow f a rest ds (acc ++ [solDiv f t dj])

/-- LDLᵀ of a matrix given by the rows of its lower triangle, without pivoting (R351). -/
def ldlOf (f : Fmt) (tau : Val) : List (List Val) → Ldl → Ldl
  | [], x => x
  | a :: rest, x =>
    let row := ldlRow f a x.l x.d []
    let v := (row.zip x.d).map (fun p => solMul f p.1 p.2)
    let p := solPivot tau (solDots f row v (a.getD row.length valZero))
    ldlOf f tau rest { l := x.l ++ [row], d := x.d ++ [p.1], clamp := x.clamp || p.2 }

/-- The forward solve L y = b. -/
def ldlForward (f : Fmt) : List (List Val) → List Val → List Val → List Val
  | l :: ls, b :: bs, y => ldlForward f ls bs (y ++ [solDots f l y b])
  | _, _, y => y

/-- The backward solve Lᵀ x = z for rows n − 1 down to 0; x holds the elements already found, the next one first. -/
def ldlBackward (f : Fmt) (l : List (List Val)) (z : List Val) : Nat → List Val → List Val
  | 0, x => x
  | n + 1, x =>
    let col := (l.drop (n + 1)).map (fun r => r.getD n valZero)
    ldlBackward f l z n (solDots f col x (z.getD n valZero) :: x)

/-- Solves with a factor. -/
def Ldl.solve (f : Fmt) (x : Ldl) (b : List Val) : List Val :=
  let y := ldlForward f x.l b []
  let z := (y.zip x.d).map (fun p => solDiv f p.1 p.2)
  ldlBackward f x.l z z.length []

/-- The rows of a lower triangle from a function. -/
def lowerRows (n : Nat) (h : Nat → Nat → Val) : List (List Val) := (List.range n).map (fun i => (List.range (i + 1)).map (fun k => h i k))

/-- What a step solve gives: dx, whether a pivot was clamped, and whether every pivot is finite. -/
structure SolStep where
  dx : List Val
  clamp : Bool
  fine : Bool
  deriving DecidableEq, Repr

/-- The step of a dense problem: A dx = −g. -/
def denseStep (f : Fmt) (tauRel n : Nat) (h : Nat → Nat → Val) (g : Nat → Val) : SolStep :=
  let tau := solTau f tauRel ((List.range n).map (fun i => h i i))
  let x := ldlOf f tau (lowerRows n h) { l := [], d := [], clamp := false }
  { dx := x.solve f ((List.range n).map (fun i => (g i).neg)), clamp := x.clamp, fine := x.d.all (fun d => d.finite) }

/-- An eliminated point of a bundle adjustment: the factor of its block, L⁻¹ H_pc by camera column, the same divided by the pivots, and L⁻¹ b_p. -/
structure BaPoint where
  fac : Ldl
  v : List (List Val)
  u : List (List Val)
  y : List Val
  deriving DecidableEq, Repr

/-- Eliminates point p, whose unknowns start at o (R356). -/
def baPoint (f : Fmt) (tauRel nr o : Nat) (h : Nat → Nat → Val) (g : Nat → Val) : BaPoint :=
  let tau := solTau f tauRel ((List.range 3).map (fun i => h (o + i) (o + i)))
  let fac := ldlOf f tau (lowerRows 3 (fun i k => h (o + i) (o + k))) { l := [], d := [], clamp := false }
  let cols := (List.range nr).map (fun c => ldlForward f fac.l ((List.range 3).map (fun i => h (o + i) c)) [])
  { fac := fac, v := cols, u := cols.map (fun w => (w.zip fac.d).map (fun x => solDiv f x.1 x.2))
    y := ldlForward f fac.l ((List.range 3).map (fun i => (g (o + i)).neg)) [] }

/-- The step of a bundle adjustment by the Schur complement: points in ascending order, then the cameras (R356; log 32). -/
def baStep (f : Fmt) (tauRel nr np : Nat) (h : Nat → Nat → Val) (g : Nat → Val) : SolStep :=
  let ps := (List.range np).map (fun p => baPoint f tauRel nr (nr + 3 * p) h g)
  let sEl (i k : Nat) : Val := ps.foldl (fun a p => solDots f (p.u.getD i []) (p.v.getD k []) a) (h i k)
  let bEl (i : Nat) : Val := ps.foldl (fun a p => solDots f (p.u.getD i []) p.y a) (g i).neg
  let tau := solTau f tauRel ((List.range nr).map (fun i => sEl i i))
  let x := ldlOf f tau (lowerRows nr sEl) { l := [], d := [], clamp := false }
  let xc := x.solve f ((List.range nr).map bEl)
  let xp := ps.map (fun p =>
    let z := (p.y.zip p.fac.d).map (fun w => solDiv f w.1 w.2)
    let z' := (List.range 3).map (fun k => solDots f (p.u.map (fun w => w.getD k valZero)) xc (z.getD k valZero))
    ldlBackward f p.fac.l z' 3 [])
  { dx := xc ++ xp.flatten, clamp := x.clamp || ps.any (fun p => p.fac.clamp), fine := (x.d ++ ps.flatMap (fun p => p.fac.d)).all (fun d => d.finite) }

/-! ### The iteration of a problem (R348, R352) -/

/-- The flags of a problem (R359). -/
def pfClamp : BitVec 8 := 0x01
def pfWarmMiss : BitVec 8 := 0x02
def pfWarmUsed : BitVec 8 := 0x04
def pfIter : BitVec 8 := 0x08
def pfLambda : BitVec 8 := 0x10
def pfNonfinite : BitVec 8 := 0x20
def pfCut : BitVec 8 := 0x40
def pfEval : BitVec 8 := 0x80

/-- Stops a problem with a STOP code and a status. -/
def SolProb.halt (p : SolProb) (stop : Nat) (st : BitVec 8) (fl : BitVec 8 := 0) : SolProb :=
  { p with active := false, stop := stop, status := st, flags := p.flags ||| fl, dx := [] }

/-- The largest λ, 2⁴⁰. -/
def lamTop : Val := .fin false 1 40

/-- The top of the loop at the current point: the gradient and iteration tests, the damped solve, and the next trial (R348). -/
def SolProb.loopTop (p : SolProb) (a : SolP) : SolProb :=
  let f := a.fmt
  let d := ofF64 (BitVec.ofNat 64 a.delta)
  let h := solH f a.robust d p.rows
  let g := solG f a.robust d p.rows
  let n := a.n
  let gs := (List.range n).map g
  let diag := (List.range n).map (fun i => h i i)
  if !(gs.all (fun v => v.finite)) || !((List.range n).all (fun i => (List.range (i + 1)).all (fun k => (h i k).finite))) then p.halt 6 stOverflow
  else if !((parVal a.tolGrad 0).lt (valMaxL (gs.map Val.abs))) then p.halt 2 stDone
  else if a.iterMax ≤ p.trials then p.halt 3 stDone pfIter
  else
    let tau := solTau f a.tauRel diag
    let damp (i : Nat) (v : Val) : Val := if a.lm = 1 then solAdd f v (solMul f p.lam (v.max tau)) else v
    let hd (i k : Nat) : Val := if i = k then damp i (h i i) else h i k
    let st := if a.ba then baStep f a.tauRel a.nr a.np (fun i k => if i < k then hd k i else hd i k) g else denseStep f a.tauRel n hd g
    let p1 := if st.clamp then { p with flags := p.flags ||| pfClamp } else p
    let xs := (p.x.zip st.dx).map (fun v => solAdd f v.1 v.2)
    if !st.fine || !(st.dx.all (fun v => v.finite)) || !(xs.all (fun v => v.finite)) then p1.halt 6 stOverflow
    else { p1 with dx := st.dx }

/-- The trial point of a problem: the start point at evaluation 0, else x + dx. -/
def SolProb.trial (p : SolProb) (f : Fmt) : List Val := if p.dx = [] then p.x else (p.x.zip p.dx).map (fun v => solAdd f v.1 v.2)

/-- What an evaluation returns to a problem: the rows at its trial point (R348). -/
def SolProb.returned (p : SolProb) (a : SolP) (rows : List SolRow) : SolProb :=
  let f := a.fmt
  let d := ofF64 (BitVec.ofNat 64 a.delta)
  let c := solCost f a.robust d rows
  let norm := solNorm f (rows.map (fun r => r.r))
  if p.dx = [] then
    if !c.finite then { (p.halt 6 stOverflow) with best := p.x, bestCost := .inf false, bestNorm := norm }
    else ({ p with rows := rows, cost := c, best := p.x, bestCost := c, bestNorm := norm } : SolProb).loopTop a
  else
    let p1 := { p with trials := p.trials + 1 }
    if a.lm = 0 ∨ (c.finite ∧ c.lt p.cost) then
      if !c.finite then p1.halt 6 stOverflow
      else
        let dc := rne f (p.cost.sub c)
        let x := p.trial f
        let better := c.lt p.bestCost
        let p2 : SolProb := { p1 with
          x := x, rows := rows, cost := c
          best := if better then x else p.best, bestCost := if better then c else p.bestCost, bestNorm := if better then norm else p.bestNorm
          lam := if a.lm = 1 then (rne f (p.lam.mul (.fin false 1 (-2)))).max (.fin false 1 (-40)) else p.lam }
        if !((solMul f (rne f (parVal a.tolCost 0)) (solAdd f c dc).abs).lt dc) then p2.halt 0 stDone
        else
          let ts := rne f (parVal a.tolStep 0)
          if !((solMul f ts (solAdd f (solNorm f x) ts)).lt (solNorm f p.dx)) then p2.halt 1 stDone
          else ({ p2 with dx := [] } : SolProb).loopTop a
    else
      let p2 := if c.finite then p1 else { p1 with flags := p1.flags ||| pfNonfinite }
      if p.lam = lamTop then p2.halt 4 stDone pfLambda
      else ({ p2 with lam := (rne f (p.lam.mul (.fin false 1 1))).min lamTop, dx := [] } : SolProb).loopTop a

/-! ### Memory of a solve (R346, R353 to R358) -/

/-- The code of a value in a format. -/
def codeOf (f : Fmt) (v : Val) : Nat := (f.encode .rne 0 v).1

/-- The bytes of values in a format. -/
def valBytes (f : Fmt) (l : List Val) : List Byte := l.flatMap (fun v => leBytes (codeOf f v) (f.bits / 8))

/-- The values in bytes. -/
def valsOf (f : Fmt) (l : List Byte) (off n : Nat) : List Val := (List.range n).map (fun i => (f.decode (sliceN l (off + i * (f.bits / 8)) (f.bits / 8))).1)

/-- The address of the trial point of problem j. -/
def SolP.trialAddr (p : SolP) (j : Nat) : Nat := if p.ba then p.eval else p.eval + j * p.evalStep

/-- The rows of a dense problem in its part of the buffer. -/
def denseRows (a : SolP) (l : List Byte) : List SolRow :=
  (List.range a.m).map (fun i =>
    { r := (valsOf a.fmt l (a.b * (a.n + i)) 1).headD valZero
      j := (List.range a.n).zip (valsOf a.fmt l (a.b * (a.n + a.m + i * a.n)) a.n) })

/-- The rows of a bundle adjustment: MO for each observation. -/
def baRows (a : SolP) (obs : List (Nat × Nat)) (l : List Byte) : List SolRow :=
  let rec' := a.mo * (a.cb + 4)
  (obs.zip (List.range obs.length)).flatMap (fun o =>
    let base := 8 * (a.n + o.2 * rec')
    (List.range a.mo).map (fun k =>
      { r := (valsOf .fp64 l (base + 8 * k) 1).headD valZero
        j := ((List.range a.cb).map (fun i => o.1.2 * a.cb + i)).zip (valsOf .fp64 l (base + 8 * (a.mo + k * a.cb)) a.cb) ++
          ((List.range 3).map (fun i => a.nr + 3 * o.1.1 + i)).zip (valsOf .fp64 l (base + 8 * (a.mo + a.mo * a.cb + 3 * k)) 3) }))

/-- A write of the solver, with the flags that it sets on its command. -/
def State.solWrite (s : State) (q : Nat) (g : Agent) (a : Nat) (l : List Byte) : State :=
  let w := s.writeMem g a l
  w.state.cmdFlags q w.flags

/-- A read of the solver. -/
def State.solRead (s : State) (q : Nat) (g : Agent) (a n : Nat) : MemRead × State :=
  let r := s.unitRead g a n
  (r.1, r.2.cmdFlags q r.1.flags)

/-- Writes the trial points of active problems. -/
def State.putTrials (s : State) (q : Nat) (g : Agent) (a : SolP) : Nat → List SolProb → State
  | _, [] => s
  | j, p :: r => (if p.active then s.solWrite q g (a.trialAddr j) (valBytes a.fmt (p.trial a.fmt)) else s).putTrials q g a (j + 1) r

/-- The word of a RUN's descriptor (R345, R436). -/
def evalDesc (c : Cmd) (a : SolP) (seq evalNo : Nat) : List Byte :=
  let kind := if c.budgetKind = 1 then 0 else c.budgetKind
  let timing := match c.budgetKind with
    | 0 => c.timing
    | 1 => (stampAdd c.acc (c.timing : Nat)).toNat
    | _ => max 1 (c.timing - c.steps)
  leBytes 1 1 ++ leBytes (kind + (if kind = 0 then 4 else 0)) 1 ++ leBytes c.context 2 ++ leBytes seq 4 ++ leBytes timing 8 ++ leBytes 0 8 ++
  leBytes a.image 2 ++ leBytes a.entry 2 ++ leBytes evalNo 4 ++ leBytes a.eval 8 ++ List.replicate 24 0

/-- Posts an evaluation RUN on the solver-fed queue (R345). -/
def State.postEval (s : State) (q : Nat) (a : SolP) : State :=
  match s.head q with
  | none => s
  | some c =>
    let seq : BitVec 32 := BitVec.ofNat 32 (s.fld (R.QUE_SEQ a.queue) F.QUE_SEQ_LAST_ACCEPTED_SEQ) + 1
    let s1 := s.acceptCmd a.queue (evalDesc c a seq.toNat s.sol.evalNo) seq
    let s2 := { s1 with sol := { s1.sol with out := true, result := none } }
    (s2.setFld R.SOL_STAT F.SOL_STAT_EVAL_WAIT 1).satAdd R.SOL_PROGRESS F.SOL_PROGRESS_EVALS 1

/-- Writes the trial points and ACTIVE flags and posts their evaluation. -/
def State.solPropose (s : State) (q : Nat) (g : Agent) (a : SolP) : State :=
  let s1 := s.putTrials q g a 0 s.sol.probs
  let s2 := if a.ba then s1 else s1.solWrite q g (a.eval + a.count * a.evalStep) (s.sol.probs.map (fun (p : SolProb) => if p.active then 1 else 0))
  s2.postEval q a

/-- The status of a problem (R15, R359). -/
def SolProb.final (p : SolProb) : BitVec 8 :=
  let st := if p.flags &&& pfWarmMiss == 0 then p.status else worse p.status stWarmMismatch
  if st = stDone ∧ !(p.flags &&& 0xB9 == 0) then stFlagged else st

/-- The result record of a problem (R358). -/
def SolProb.record (p : SolProb) (a : SolP) : List Byte :=
  leBytes (codeOf .fp64 p.bestCost) 8 ++ leBytes (codeOf .fp64 p.bestNorm) 8 ++ leBytes p.trials 2 ++ leBytes p.final.toNat 1 ++ leBytes p.stop 1 ++
  leBytes p.flags.toNat 2 ++ leBytes 0 2 ++ leBytes (if a.lm = 1 then codeOf .fp64 p.lam else 0) 8

/-- The slot that a problem leaves (R355): VALID after DONE, DONE_FLAGGED, WARM_MISMATCH and LATE. -/
def SolProb.slot (p : SolProb) (a : SolP) : List Byte :=
  let ok := p.final = stDone ∨ p.final = stFlagged ∨ p.final = stWarmMismatch ∨ p.final = stLate
  leBytes a.sig 8 ++ leBytes (if a.lm = 1 then codeOf .fp64 p.lam else 0) 8 ++ leBytes a.n 1 ++ leBytes (if ok then 1 else 0) 1 ++ List.replicate 14 0 ++
  valBytes .fp64 p.best

/-- Writes the results of the problems from number j on: point, record, slot. -/
def State.putResults (s : State) (q : Nat) (g : Agent) (a : SolP) : Nat → List SolProb → State
  | _, [] => s
  | j, p :: r =>
    let s1 := (s.solWrite q g (a.xOut + j * a.n * a.b) (valBytes a.fmt p.best)).solWrite q g (a.res + 32 * j) (p.record a)
    let s2 := if !a.ba && a.slot != 0 && a.flags == 1 then s1.solWrite q g (a.slot + 544 * j) (p.slot a) else s1
    s2.putResults q g a (j + 1) r

/-- The unit flags of a command from the flags of its problems (R359, R439). -/
def solFlags (ps : List SolProb) : BitVec 24 :=
  let u := ps.foldl (fun z p => z ||| p.flags) (0 : BitVec 8)
  let low := u.toNat % 64
  BitVec.ofNat 24 (low * 2 ^ 13 + u.toNat / 128 * 2 ^ 19 + u.toNat / 64 % 2 * 2 ^ 5)

/-- Counts problems by a test in a saturating counter. -/
def State.solTally (s : State) (f : Fld) (t : SolProb → Bool) : State := s.satAdd R.SOL_CNT f ((s.sol.probs.filter t).length)

/-- Writes all results and counts them; the command ends once no evaluation is outstanding (R360). -/
def State.solResults (s : State) (q : Nat) (g : Agent) (a : SolP) : State :=
  let ps := s.sol.probs
  let s1 := s.putResults q g a 0 ps
  let s2 := (((s1.solTally F.SOL_CNT_PIVOT_CLAMPS (fun p => !(p.flags &&& pfClamp == 0))).solTally F.SOL_CNT_WARM_MISMATCHES (fun p => !(p.flags &&& pfWarmMiss == 0))).solTally
    F.SOL_CNT_LATE_PROBLEMS (fun p => p.final == stLate)).solTally F.SOL_CNT_OVERFLOWS (fun p => p.final == stOverflow)
  let s3 := if ps.any (fun p => p.status == stOverflow) then s2.setFld R.SOL_STAT F.SOL_STAT_OVERFLOW 1 else s2
  let st := ps.foldl (fun z p => worse z p.final) stDone
  let s4 := (s3.cmdFlags q (solFlags ps)).updHead q (fun c => { c with status := worse c.status (if st = stFlagged then stDone else st) })
  ({ s4 with sol := { s4.sol with written := true } }).setFld R.SOL_STAT F.SOL_STAT_ACTIVE 0

/-- Ends the solve: the array is idle. -/
def State.endSol (s : State) (q : Nat) (st : BitVec 8) : State :=
  let s1 := s.endUnit q st
  let fin := match s1.head q with
    | some c => finalStatus c 5
    | none => st
  ({ s1 with sol := {} }).setFld R.SOL_STAT F.SOL_STAT_LAST_STATUS fin.toNat

/-- Ends the solve if its results are written and no evaluation is outstanding. -/
def State.solSettle (s : State) (q : Nat) : State := if s.sol.written && !s.sol.out then s.endSol q stDone else s

/-- Goes on after problems changed: the next evaluation, or the results when none is active. -/
def State.solNext (s : State) (q : Nat) (g : Agent) (a : SolP) : State :=
  let act := (s.sol.probs.filter (fun (p : SolProb) => p.active)).length
  let s1 := ((s.setFld R.SOL_STAT F.SOL_STAT_ACTIVE act).freeSteps R.SOL_PROGRESS F.SOL_PROGRESS_STEPS).freeSteps R.SOL_STEPS F.SOL_STEPS_STEPS
  if act = 0 then (s1.solResults q g a).solSettle q
  else ({ s1 with sol := { s1.sol with evalNo := s1.sol.evalNo + 1, again := false } }).solPropose q g a

/-- Stops every active problem with a STOP code, a status and flags, and writes the results. -/
def State.solStopAll (s : State) (q : Nat) (g : Agent) (a : SolP) (stop : Nat) (st : BitVec 8) (fl : BitVec 8) : State :=
  let s1 := { s with sol := { s.sol with probs := s.sol.probs.map (fun (p : SolProb) => if p.active then p.halt stop st fl else p) } }
  (s1.solResults q g a).solSettle q

/-! ### The commands -/

/-- The start of a dense problem: warm from its slot, or cold (R353, R354). -/
def startProb (a : SolP) (x0 slots : List Byte) (j : Nat) : SolProb :=
  let cold : List Val := valsOf a.fmt x0 (j * a.n * a.b) a.n
  let lam0 := rne a.fmt (parVal a.lambda0 10)
  if a.ba ∨ a.slot = 0 then { x := cold, best := cold, lam := lam0 }
  else
    let o := 544 * j
    if sliceN slots (o + 17) 1 % 2 = 1 ∧ sliceN slots o 8 = a.sig ∧ sliceN slots (o + 16) 1 = a.n then
      let x := (valsOf .fp64 slots (o + 32) a.n).map (rne a.fmt)
      { x := x, best := x, lam := rne a.fmt (ofF64 (BitVec.ofNat 64 (sliceN slots (o + 8) 8))), flags := pfWarmUsed }
    else { x := cold, best := cold, lam := lam0, flags := pfWarmMiss }

/-- A rejected solve. -/
def State.rejectSol (s : State) (q : Nat) : State := (s.rejectUnit q).setFld R.SOL_STAT F.SOL_STAT_LAST_STATUS stRejected.toNat

/-- Whether a queue is a solver-fed queue of a canton. -/
def State.solverFedOf (s : State) (e canton : Nat) : Bool := s.qBound e && s.qUnit e == 1 && s.qSolverFed e && s.qCanton e == canton

/-- Starts a solve: reads and checks its parameters, its observation list, its start points and slots, and posts evaluation 0 (R343 to R346). -/
def State.solStart (s : State) (q : Nat) (ba : Bool) (c : Cmd) : State :=
  let canton := s.qCanton q
  let g := solAgent canton
  let pa := c.pl 0 8
  let s0 := (((s.setFld R.SOL_STAT F.SOL_STAT_CANTON canton).setFld R.SOL_STAT F.SOL_STAT_CONTEXT c.context).setFld R.SOL_STAT F.SOL_STAT_LAST_OP c.opcode).setReg R.SOL_PROGRESS 0
  if pa % 8 ≠ 0 ∨ !s.unitSpan g pa 128 ∨ !zeroBytes c.desc 32 32 then s0.rejectSol q
  else
    let b := s0.solRead q g pa 128
    if b.1.wait then s
    else if b.1.bad then b.2.endSol q stIntegrity
    else
      let a := solP ba b.1.bytes
      if a.bad || s.solAreasBad g a || !s.solverFedOf a.queue canton || c.fmtDiffers 0 (if a.prec = 1 then 1 else 0) then b.2.rejectSol q
      else
        let o := if ba then b.2.solRead q g a.slot (8 * a.no) else ({}, b.2)
        let obs := obsOf o.1.bytes (if ba then a.no else 0)
        let x := o.2.solRead q g a.x0 (a.count * a.n * a.b)
        let sl := if !ba && a.slot != 0 then x.2.solRead q g a.slot (544 * a.count) else ({}, x.2)
        if o.1.wait || x.1.wait || sl.1.wait then s
        else if ba && (!obs.2 || !obsSorted obs.1 || obs.1.any (fun p => decide (a.np ≤ p.1 ∨ a.nc ≤ p.2))) then o.2.rejectSol q
        else if o.1.bad || x.1.bad || sl.1.bad then sl.2.endSol q stIntegrity
        else
          let ps := (List.range a.count).map (startProb a x.1.bytes sl.1.bytes)
          let s1 := { sl.2 with sol := { run := some q, par := b.1.bytes, obs := obs.1, probs := ps } }
          (s1.setFld R.SOL_STAT F.SOL_STAT_ACTIVE a.count).solPropose q g a

/-- A solve command: it starts, or, told to stop, every problem still iterating returns its best iterate (R360, R361). -/
def State.solve (s : State) (q : Nat) (ba : Bool) : State :=
  s.onUnit q 5 (fun c _ =>
    if c.opcode ≠ (if ba then 2 else 1) then s
    else match s.sol.run with
      | none => s.solStart q ba c
      | some r =>
        if r ≠ q ∨ !c.cut ∨ s.sol.written then s
        else
          let a := solP ba s.sol.par
          let g := solAgent (s.qCanton q)
          if c.status = stAborted then s.solStopAll q g a 8 stAborted 0 else s.solStopAll q g a 5 stLate pfCut)

/-- SOLVE_DENSE (R343 to R355). -/
def execSolveDense (q : BitVec 16) (s : State) : Out := .next (s.solve q.toNat false)

/-- SOLVE_BA (R356, R357). -/
def execSolveBa (q : BitVec 16) (s : State) : Out := .next (s.solve q.toNat true)

/-- The rows that an evaluation wrote for problem j, and whether they could be read. -/
def State.solRows (s : State) (g : Agent) (a : SolP) (j : Nat) : List SolRow × Bool × BitVec 24 :=
  let r := if a.ba then s.readMem g a.eval a.evalBytes else s.readMem g (a.eval + j * a.evalStep) (a.b * (a.n + a.m * (a.n + 1)))
  (if a.ba then baRows a s.sol.obs r.bytes else denseRows a r.bytes, r.bad, r.flags)

/-- An uncorrectable error of the array's working memory (R361): flag, interrupt and event. -/
def State.solEcc (s : State) : State :=
  let s1 := s.withCause 5 (fun t => t.setFld R.SOL_STAT F.SOL_STAT_ECC_UNCORR 1)
  s1.event 13 0x78 (s1.reg R.SOL_STAT) 0

/-- Returns an evaluation to every active problem; ecc names problems whose lane group has an uncorrectable error. -/
def State.solReturn (s : State) (g : Agent) (a : SolP) (flagged : Bool) (ecc : List Nat) : List SolProb :=
  (s.sol.probs.zip (List.range s.sol.probs.length)).map (fun p =>
    if !p.1.active then p.1
    else if ecc.contains p.2 || (a.ba && !ecc.isEmpty) then p.1.halt 9 stIntegrity
    else
      let r := s.solRows g a p.2
      let p1 := if flagged then { p.1 with flags := p.1.flags ||| pfEval } else p.1
      if r.2.1 then p1.halt 9 stIntegrity else p1.returned a r.1)

/-- SOLVER_EVAL_RETURN (R347, R348): the evaluation RUN has completed; every active problem takes its rows, and the next evaluation is posted or the solve ends. ecc names the problems whose lane group met an uncorrectable error (R361). -/
def execSolverEvalReturn (ecc : List (BitVec 13)) (s : State) : Out :=
  .next (
    match s.sol.run, s.sol.result with
    | some q, some st =>
      if !s.sol.out then s
      else match s.head q with
        | none => s
        | some c =>
          let a := solP (c.opcode == 2) s.sol.par
          let g := solAgent (s.qCanton q)
          let s1 := ({ s with sol := { s.sol with out := false, result := none } }).setFld R.SOL_STAT F.SOL_STAT_EVAL_WAIT 0
          if s.sol.written then s1.solSettle q
          else if c.cut then s1
          else if st = stFenced then
            if s.sol.again then s1.solStopAll q g a 7 stFenced 0
            else ({ s1 with sol := { s1.sol with again := true } }).postEval q a
          else if st = stRejected ∧ s.sol.evalNo = 0 then ({ s1 with sol := {} }).rejectSol q
          else if st = stDone ∨ st = stFlagged ∨ st = stCollision then
            let s2 := if ecc.isEmpty then s1 else s1.solEcc
            let ps := s2.solReturn g a (st != stDone) (ecc.map (fun x => x.toNat))
            ({ s2 with sol := { s2.sol with probs := ps } }).solNext q g a
          else s1.solStopAll q g a 7 st 0
    | _, _ => s)

end Sys2Proof.Machine
end

