-- ==== Sys2Proof/Machine/Complete.lean ====
section
/-! DEFINITION. Completion of a queue's oldest command (R435, R438 to R444, R456, R524, R595): its record, the ring and the sequence counters, energy, interrupt and lock-step. -/

namespace Sys2Proof.Machine

/-- The count word of a record (R438): steps of a RUN, beats of a COPY or FILL, otherwise zero. -/
def State.cmdCount (s : State) (q : Nat) (c : Cmd) : Nat :=
  if s.qUnit q = 1 then (if c.opcode = 1 then min 0xFFFFFFFF c.steps else c.aux.toNat) else 0

/-- The status that a command completes with: INVALID_OUTPUT at its rank on an LC queue while a MARK_LC registration is not VALID (R15, R524). -/
def State.completion (s : State) (q : Nat) (c : Cmd) : BitVec 8 :=
  let st := finalStatus c (s.qUnit q)
  if s.qLC q && s.marksLC (s.qCanton q) then worse stInvalidOutput st else st

/-- The PHASE bit of the next record of a queue: bit j of RING_PROD (R439). -/
def State.phaseBit (s : State) (q : Nat) : BitVec 24 :=
  match ringSlots (s.reg (R.QUE_CPL_RING q)) with
  | none => 0
  | some n => if s.fld (R.QUE_RING q) F.QUE_RING_RING_PROD / n % 2 = 1 then flagBit 23 else 0

/-- Writes the record of a command into the queue's completion ring, where it has one, and advances RING_PROD (R442). -/
def State.putRecord (s : State) (q : Nat) (l : List Byte) : State :=
  match ringSlots (s.reg (R.QUE_CPL_RING q)) with
  | none => s
  | some n =>
    let p := s.fld (R.QUE_RING q) F.QUE_RING_RING_PROD
    (s.deviceWrite (ringBase (s.reg (R.QUE_CPL_RING q)) + 32 * (p % n)) l).wrapAdd (R.QUE_RING q) F.QUE_RING_RING_PROD 1

/-- Folds a record into the lock-step sources of its queue, unless its status is FENCED or SEQ_GAP (R493). -/
def State.foldRecord (s : State) (q : Nat) (c : Cmd) (st : BitVec 8) (fl : BitVec 24) : State :=
  if st = stFenced ∨ st = stSeqGap then s
  else s.lsRecord q (recordBytes c.seq st (fl &&& ~~~ (flagBit fgPreempted)) 0 0 0 (s.cmdCount q c))

/-- Hands the completion of an evaluation RUN to the solver array (R345, R360, R444). -/
def State.toSolver (s : State) (q : Nat) (c : Cmd) (st : BitVec 8) : State :=
  match s.sol.run with
  | none => s
  | some p =>
    match s.head p with
    | none => s
    | some d =>
      if s.qSolverFed q ∧ c.accepted ∧ s.sol.out ∧ (solP (d.opcode == 2) s.sol.par).queue = q then
        ({ s with sol := { s.sol with result := some st } }).updHead p (fun d => { d with steps := d.steps + c.steps })
      else s

/-- Adds the energy of a command to its queue and its canton (R456). -/
def State.chargeEnergy (s : State) (q : Nat) (c : Cmd) : State :=
  (s.wrapAdd (R.QUE_ENERGY q) F.QUE_ENERGY_UJ c.energy).wrapAdd (R.SCH_CANTON_ENERGY (s.qCanton q)) F.SCH_CANTON_ENERGY_UJ c.energy

/-- Whether an accepted core command of a context waits to start. -/
def State.ctxWaits (s : State) (x : Nat) : Bool :=
  s.queues.any (fun p => s.qUnit p.1 == 1 && p.2.cmds.any (fun c => c.accepted && c.phase == .waiting && c.context == x))

/-- A WAITING context for which no command waits any more is IDLE (R461). -/
def State.ctxSettle (s : State) (x : Nat) : State :=
  if s.fld (R.SCH_CTX_STAT x) F.SCH_CTX_STAT_STATE = 4 ∧ s.ctxWaits x = false then s.ctxState x 1 else s

/-- Retires the oldest command of a queue with its record. -/
def State.retireCmd (s : State) (q : Nat) (c : Cmd) : State :=
  let st := s.completion q c
  let fl := c.flags ||| s.phaseBit q
  let s1 := s.putRecord q (recordBytes c.seq st fl c.start c.stop (min 0xFFFFFFFF c.energy) (s.cmdCount q c))
  let s2 := if c.accepted then s1.setFld (R.QUE_SEQ q) F.QUE_SEQ_LAST_RETIRED_SEQ c.seq.toNat else s1
  let s3 := ((s2.chargeEnergy q c).foldRecord q c st fl).toSolver q c st
  let s4 := s3.setQueue q { s3.queue q with cmds := (s3.queue q).cmds.drop 1 }
  let s5 := (if s4.qUnit q = 1 then s4.ctxSettle c.context else s4).updIdle q
  if c.irq || c.irqForced then s5.raiseVec (s5.fld (R.QUE_CFG q) F.QUE_CFG_VECTOR) else s5

/-- Retires the oldest command of a queue if its execution has ended. -/
def State.complete (s : State) (q : Nat) : State :=
  match s.head q with
  | some c => if c.phase = .ended then s.retireCmd q c else s
  | none => s

/-- COMMAND_COMPLETE (R442). -/
def execCommandComplete (q : BitVec 16) (s : State) : Out := .next (s.complete q.toNat)

end Sys2Proof.Machine
end

