-- ==== Sys2Proof/Machine/Scratchpad.lean ====
section
/-! DEFINITION. The scratchpad as its registers and banks show it: bank arbitration and collisions, ownership, power, write-back, scrubbing and column repair (R253 to R276). -/

namespace Sys2Proof.Machine

/-! ### Ownership (R257 to R261) -/

/-- Whether an owner code may be given to a bank (R257): to a bank of no canton only none. -/
def State.ownerAllowed (s : State) (b code : Nat) : Bool :=
  if code = 0xFF then true
  else match s.bankCanton b with
    | none => false
    | some c =>
      if code < 16 then
        (if b < 1024 then code == b / 64 else (s.fld (R.FAB_CANTON c) F.FAB_CANTON_CORE_MASK).testBit code)
      else code == 0x10 || code == 0x11 || code == 0x20 || code == 0x40 || (code == 0x30 && s.hasSolver)

/-- The banks of the region of a bank. -/
def State.regionBanks (s : State) (b : Nat) : List Nat := (List.range (s.region b).2).map (fun i => (s.region b).1 + i)

/-- Whether a handover, a power transition or a COMMIT keeps the ownership and power of a bank (R258, R264). -/
def State.bankBusy (s : State) (b : Nat) : Bool :=
  s.bit (R.SPD_BANK_OWNER b) F.SPD_BANK_OWNER_PENDING || s.bit (R.SPD_BANK_PWR b) F.SPD_BANK_PWR_TRANSITION ||
  match s.bankCanton b with
  | some c => s.inCommit c
  | none => false

/-- A write of SPD_BANK_OWNER (R258, R259): of the owner in place it changes SHARED_WRITE only; a new code starts a handover of the whole region. -/
def State.ownerWrite (s : State) (b : Nat) (r : Req) (h : Half) (v : Word) : State :=
  s.guardW r (R.SPD_BANK_OWNER b) (fun s =>
    let old := s.fld (R.SPD_BANK_OWNER b) F.SPD_BANK_OWNER_OWNER
    let code := if h = .high then old else F.SPD_BANK_OWNER_OWNER.get v
    let sw := if h = .low then s.fld (R.SPD_BANK_OWNER b) F.SPD_BANK_OWNER_SHARED_WRITE else F.SPD_BANK_OWNER_SHARED_WRITE.get v
    let bad := !s.ownerAllowed b code
    let busy := s.bankBusy b
    if bad || busy then
      let s1 := if bad then s.setFld R.SPD_STAT F.SPD_STAT_OWNER_REJECT 1 else s
      if busy then s1.setFld R.SPD_STAT F.SPD_STAT_OWNER_BUSY 1 else s1
    else
      (s.regionBanks b).foldl (fun t i =>
        let t1 := t.setFld (R.SPD_BANK_OWNER i) F.SPD_BANK_OWNER_SHARED_WRITE sw
        if code = old then t1
        else ((t1.setFld (R.SPD_BANK_OWNER i) F.SPD_BANK_OWNER_PREV_OWNER old).setFld (R.SPD_BANK_OWNER i) F.SPD_BANK_OWNER_OWNER code).setFld
          (R.SPD_BANK_OWNER i) F.SPD_BANK_OWNER_PENDING 1) s)

/-- SPD_BANK_OWNER_WRITE (R258). -/
def execSpdBankOwnerWrite (b : Fin 1280) (r : Req) (h : Half) (v : Word) (s : State) : Out := .next (s.ownerWrite b.val r h v)

/-- HANDOVER_COMPLETE (R259): the accepted accesses of the old owner have completed; PENDING clears for the region. -/
def execHandoverComplete (b : Fin 1280) (s : State) : Out :=
  .next ((s.regionBanks b.val).foldl (fun t i => t.setFld (R.SPD_BANK_OWNER i) F.SPD_BANK_OWNER_PENDING 0) s)

/-! ### Power (R264 to R266) -/

/-- Zero-fills a bank with valid ECC. -/
def State.clearBank (s : State) (b : Nat) : State :=
  let lo := bankBase b
  let out (k : Nat) : Bool := !(decide (lo ≤ k ∧ k < lo + 0x80000))
  { s with mem := s.mem.filter (fun p => out p.1)
           spd := { s.spd with ecc := s.spd.ecc.filter (fun p => out p.1), wb := s.spd.wb.filter out } }

/-- Sets the target of a region and starts its transition (R264). -/
def State.powerTo (s : State) (b t : Nat) : State :=
  (s.regionBanks b).foldl (fun u i =>
    let u1 := u.setFld (R.SPD_BANK_PWR i) F.SPD_BANK_PWR_TARGET t
    u1.setBit (R.SPD_BANK_PWR i) F.SPD_BANK_PWR_TRANSITION (u1.fld (R.SPD_BANK_PWR i) F.SPD_BANK_PWR_STATE != t)) s

/-- A write of SPD_BANK_PWR.TARGET (R264, R275). -/
def State.pwrWrite (s : State) (b : Nat) (r : Req) (h : Half) (v : Word) : State :=
  s.guardW r (R.SPD_BANK_PWR b) (fun s =>
    if h = .high then s
    else
      let t := F.SPD_BANK_PWR_TARGET.get v
      if t = 3 ∨ s.bankBusy b then s.setFld R.SPD_STAT F.SPD_STAT_PWR_REJECT 1 else s.powerTo b t)

/-- SPD_BANK_PWR_WRITE (R264). -/
def execSpdBankPwrWrite (b : Fin 1280) (r : Req) (h : Half) (v : Word) (s : State) : Out := .next (s.pwrWrite b.val r h v)

/-- BANK_POWER_TRANSITION_DONE (R266): every bank of the region has finished; STATE takes the target. A region that leaves or enters OFF holds zeros. -/
def execBankPowerTransitionDone (b : Fin 1280) (s : State) : Out :=
  .next (
    if !s.bit (R.SPD_BANK_PWR b.val) F.SPD_BANK_PWR_TRANSITION then s
    else (s.regionBanks b.val).foldl (fun t i =>
      let old := t.fld (R.SPD_BANK_PWR i) F.SPD_BANK_PWR_STATE
      let new := t.fld (R.SPD_BANK_PWR i) F.SPD_BANK_PWR_TARGET
      let t1 := if old = 2 ∨ new = 2 then t.clearBank i else t
      (t1.setFld (R.SPD_BANK_PWR i) F.SPD_BANK_PWR_STATE new).setFld (R.SPD_BANK_PWR i) F.SPD_BANK_PWR_TRANSITION 0) s)

/-! ### Bank arbitration (R253 to R255) -/

/-- The line that a bank serves in a step: that of the lowest-numbered port among the heads that have waited 6 steps or more, or else among all. -/
def chosenLine (heads : List BankAccess) : Option Nat :=
  let low (l : List BankAccess) : Option BankAccess := l.foldl (fun a x => match a with
    | none => some x
    | some y => if x.port < y.port then some x else some y) none
  match low (heads.filter (fun x => decide (6 ≤ x.age.toNat))) with
  | some x => some (x.off.toNat / 256)
  | none => (low heads).map (fun x => x.off.toNat / 256)

/-- The agent of a requester at a bank. -/
def State.reqAgent (s : State) : Req → Agent
  | .core n => s.coreAgent n.val
  | .chord p => ⟨0x100, s.reqCanton (.chord p), false⟩
  | .other => ⟨0x100, none, false⟩
  | _ => hostAgent

/-- The SOURCE code of a core port (R227, R253). -/
def portSource (p : Nat) : Nat :=
  match p with
  | 0 => 4 | 1 => 0 | 2 => 1 | 3 => 2 | _ => 3

/-- How a bank meets a head: served, denied, or not ON (R262, R265). An access of the owner's ports is the owner's; one at port 5 needs the canton check, and a write SHARED_WRITE. -/
def State.headHit (s : State) (b : Nat) (x : BankAccess) : Hit :=
  let key := bankBase b + x.off.toNat
  let up := s.fld (R.SPD_BANK_PWR b) F.SPD_BANK_PWR_STATE == 0
  if b < 1024 && !s.coreActive (b / 64) then .unmapped
  else if x.port.val ≠ 5 then (if up then .ok key else .down)
  else if !s.bankOpen (s.reqAgent x.req) b x.wdata.isSome key then .denied
  else if x.wdata.isSome && !s.bit (R.SPD_BANK_OWNER b) F.SPD_BANK_OWNER_SHARED_WRITE then .denied
  else if up then .ok key else .down

/-- The first byte and the length of an access: its line, or its word. -/
def accSpan (x : BankAccess) : Nat × Nat :=
  if x.wide then (x.off.toNat / 256 * 256, 256) else (x.off.toNat / 8 * 8, 8)

/-- Whether two accesses touch one word. -/
def accTouches (x y : BankAccess) : Bool :=
  decide ((accSpan x).1 < (accSpan y).1 + (accSpan y).2 ∧ (accSpan y).1 < (accSpan x).1 + (accSpan x).2)

/-- Records on the requester what its access met when it was not served. -/
def State.headRefused (s : State) (b : Nat) (x : BankAccess) (hit : Hit) : State :=
  let a := bankBase b + x.off.toNat
  match x.req, hit with
  | .core n, .denied => s.coreDenied n.val (portSource x.port.val) a
  | .core n, .unmapped => s.coreUnmapped n.val (portSource x.port.val) a
  | .core n, .down => s.coreFlags n.val (flagBit fgBankDown)
  | .chord p, .denied => s.satAdd (R.CHD_PORT_CNT p.val) F.CHD_PORT_CNT_DENIED 1
  | _, _ => s

/-- Serves the read of a head from the line as it stood before the step; an uncorrectable word stops a core's command with INTEGRITY (R223, R267). -/
def State.headRead (s old : State) (b : Nat) (x : BankAccess) : State :=
  let lo := bankBase b + (accSpan x).1
  match s.headHit b x with
  | .ok _ =>
    let keys := (List.range ((accSpan x).2 / 8)).map (fun i => lo + i * 8)
    let bad := keys.any (fun w => old.badByte w)
    let core := match x.req with
      | .core n => if x.port.val ≠ 5 then some n.val else none
      | _ => none
    let s1 := keys.foldl (fun t w => t.eccRead core w) s
    let s2 := s1.emit (.memData x.req lo (old.rdBytes lo (accSpan x).2) bad)
    match x.req with
    | .core n => if bad then (s2.coreErr n.val ceSpdEcc (portSource x.port.val) 0).endOnCore n.val stIntegrity else s2
    | _ => s2
  | h => (s.headRefused b x h).emit (.memData x.req lo (List.replicate (accSpan x).2 0) false)

/-- A write discarded by a collision (R255). -/
def State.headLost (s : State) (b : Nat) (x : BankAccess) : State :=
  let s1 := s.satAdd (R.SPD_BANK_STAT b) F.SPD_BANK_STAT_COLLISIONS 1
  match x.req with
  | .core n =>
    let s2 := (s1.coreErr n.val ceCollisionLost (portSource x.port.val) 0).satAdd (R.CORE_CNT n.val) F.CORE_CNT_COLLISIONS 1
    match (s2.core n.val).running with
    | some q => s2.cmdStatus q stCollision
    | none => s2
  | _ => s1

/-- Applies the writes of a step at its end, in port order: one that touches a word that a lower-numbered port writes is discarded whole. -/
def State.headWrites (s : State) (b : Nat) : List BankAccess → List BankAccess → State
  | [], _ => s
  | x :: r, done =>
    match x.wdata with
    | none => s.headWrites b r done
    | some d =>
      match s.headHit b x with
      | .ok _ =>
        if done.any (fun y => accTouches y x) then (s.headLost b x).headWrites b r (done ++ [x])
        else
          let lo := bankBase b + (accSpan x).1
          let l := d.take (accSpan x).2
          let t := (List.range l.length).foldl (fun u i => u.putByte (lo + i) (l.getD i 0)) s
          t.headWrites b r (done ++ [x])
      | h => (s.headRefused b x h).headWrites b r done

/-- Sorts heads by port. -/
def insHead (x : BankAccess) : List BankAccess → List BankAccess
  | [] => [x]
  | y :: r => if x.port ≤ y.port then x :: y :: r else y :: insHead x r

/-- Whether a head waits for a handover: an access of the new owner while PENDING is set (R259). -/
def State.headHeld (s : State) (b : Nat) (x : BankAccess) : Bool :=
  s.bit (R.SPD_BANK_OWNER b) F.SPD_BANK_OWNER_PENDING && x.port.val != 5 &&
  match x.req with
  | .core n => s.fld (R.SPD_BANK_OWNER b) F.SPD_BANK_OWNER_OWNER == n.val
  | _ => false

/-- BANK_ACCESS_SERVE (R254, R255, R267): a bank chooses one line and serves every head access to it. Reads return the line as it stood, and writes are applied at the end. A head lists the words of its line that went bad before it. -/
def execBankAccessServe (b : Fin 1280) (heads : List BankAccess) (s : State) : Out :=
  .next (
    let hs := (heads.filter (fun x => !s.headHeld b.val x && decide ((s.region b.val).2 ≠ 0))).foldl (fun l x => insHead x l) []
    match chosenLine hs with
    | none => s
    | some line =>
      let l := hs.filter (fun x => x.off.toNat / 256 == line)
      let base := bankBase b.val + line * 256
      let s1 := l.foldl (fun t x => x.ecc.foldl (fun u e =>
        u.setEcc (base + e.word.val * 8) (2 * e.col.toNat + (if e.double then 2 else 1))) t) s
      let s2 := (l.filter (fun x => x.wdata.isNone)).foldl (fun t x => t.headRead s1 b.val x) s1
      s2.headWrites b.val l [])

/-! ### Maintenance (R267 to R269) -/

/-- The words of a line of a bank that hold an error. -/
def State.badWords (s : State) (b line : Nat) : List Nat :=
  let lo := bankBase b + line * 256
  (s.spd.ecc.map (fun p => p.1)).filter (fun w => decide (lo ≤ w ∧ w < lo + 256))

/-- Rewrites a word through the corrected path: a single-bit error is gone. -/
def State.fixWord (s : State) (w : Nat) : State :=
  let s1 := { s with spd := { s.spd with wb := s.spd.wb.filter (fun x => x != w) } }
  if Store.get (fun _ => 0) s1.spd.ecc w % 2 = 1 then s1.setEcc w 0 else s1

/-- ECC_WRITEBACK (R267): the bank writes back the corrected words of a line that wait for it; one that has meanwhile become uncorrectable is reported and stays bad. -/
def execEccWriteback (b : Fin 1280) (line : Fin 2048) (s : State) : Out :=
  .next (((s.badWords b.val line.val).filter (fun w => s.spd.wb.contains w)).foldl (fun t w =>
    let e := Store.get (fun _ => 0) t.spd.ecc w
    let t1 := t.fixWord w
    if e % 2 = 0 then t1.eccUncorr w e else t1) s)

/-- Whether the patrol reads a bank: it is mapped and ON (R268). -/
def State.patrolled (s : State) (b : Nat) : Bool :=
  (decide (1024 ≤ b) || s.coreActive (b / 64)) && s.fld (R.SPD_BANK_PWR b) F.SPD_BANK_PWR_STATE == 0

/-- PATROL_SCRUB_LINE (R268): the scrubber reads and corrects a line of every ON bank; the last line ends a pass. -/
def execPatrolScrubLine (line : Fin 2048) (s : State) : Out :=
  .next (
    let ws := (s.spd.ecc.map (fun p => p.1)).filter (fun w => (w - bankBase (bankOfKey w)) / 256 == line.val && s.patrolled (bankOfKey w))
    let s1 := ws.foldl (fun t w => (t.eccRead none w).fixWord w) s
    if line.val = 2047 then s1.wrapAdd R.SPD_SCRUB F.SPD_SCRUB_PASSES 1 else s1)

/-- COLUMN_REPAIR_LINE (R269): the live repair pass rewrites its next line through the corrected path. -/
def execColumnRepairLine (s : State) : Out :=
  .next (
    let n := s.fld R.SPD_REPAIR F.SPD_REPAIR_LINES
    if s.bit R.SPD_REPAIR F.SPD_REPAIR_ACTIVE ∧ n < 2048 then
      ((s.badWords (s.fld R.SPD_REPAIR F.SPD_REPAIR_BANK) n).foldl (fun t w => t.fixWord w) s).setFld R.SPD_REPAIR F.SPD_REPAIR_LINES (n + 1)
    else s)

/-- COLUMN_REPAIR_DONE (R269, R547): all 2,048 lines are rewritten; SPARE_COLS advances, the event is sent, the bank's column counts start anew, and the next pass begins. -/
def execColumnRepairDone (s : State) : Out :=
  .next (
    match s.rep.colq with
    | [] => s
    | (b, col) :: rest =>
      if s.bit R.SPD_REPAIR F.SPD_REPAIR_ACTIVE ∧ s.fld R.SPD_REPAIR F.SPD_REPAIR_LINES = 2048 then
        let s1 := (s.satAdd (R.SPD_BANK_STAT b) F.SPD_BANK_STAT_SPARE_COLS 1).setFld R.SPD_REPAIR F.SPD_REPAIR_ACTIVE 0
        let s2 := { s1 with rep := { s1.rep with colq := rest, cols := s1.rep.cols.filter (fun p => p.1 / 4096 != b) } }
        (s2.event 4 b (BitVec.ofNat 64 (col + s2.fld (R.SPD_BANK_STAT b) F.SPD_BANK_STAT_SPARE_COLS * 65536)) 0).nextRepair
      else s)

end Sys2Proof.Machine
end

