-- ==== Sys2Proof/Machine/StreamCanton.lean ====
section
/-! DEFINITION. The canton and chip sections of a lattice stream: GLOBAL (R68), NOC_ROUTES (R28), CANTON_MAP (R429 to R431) with its KV record (R306, R307), REGULATORS (R454), SPD_BANKS (R250) and POWER (R574): how they are read, the checks each makes on itself, and those that relate them. -/

namespace Sys2Proof.Machine

/-! ### Reading payloads -/

def b1 (l : List Byte) (o : Nat) : Nat := sliceN l o 1
def b2 (l : List Byte) (o : Nat) : Nat := sliceN l o 2
def b4 (l : List Byte) (o : Nat) : Nat := sliceN l o 4
def b8 (l : List Byte) (o : Nat) : Nat := sliceN l o 8

/-- The pieces of n bytes of a list. -/
def pieces (n : Nat) (l : List Byte) : List (List Byte) := (List.range (l.length / n)).map (fun i => (l.drop (i * n)).take n)

/-- A check that fails when a condition holds. -/
def ckIf (b : Bool) (c : Nat) : List Nat := if b then [c] else []

/-- Whether a number stands twice in a list. -/
def hasDup : List Nat → Bool
  | [] => false
  | a :: r => r.contains a || hasDup r

/-- Whether two of a list of ranges, each of a base and a length, overlap. -/
def rangesMeet (a b : Nat × Nat) : Bool := decide (a.1 < b.1 + b.2 ∧ b.1 < a.1 + a.2 ∧ 0 < a.2 ∧ 0 < b.2)

def anyMeet : List (Nat × Nat) → Bool
  | [] => false
  | a :: r => r.any (rangesMeet a) || anyMeet r

/-- The entry of a canton in a table by canton. -/
def ofCanton {α : Type} (l : List (Nat × α)) (c : Nat) : Option α := (l.find? (fun p => p.1 == c)).map (fun p => p.2)

/-- Whether the canton field of a shared entry fails TARGET (R74): at or above CANTON_COUNT, or in a restream another canton than its own. -/
def cantonBad (n : Nat) (c : Option Nat) (x : Nat) : Bool := decide (n ≤ x) || (match c with
  | some k => x != k
  | none => false)

/-! ### GLOBAL (R68) -/

def globalChecks (l : List Byte) : List Nat :=
  ckIf (l.length != 8 || decide (1 < b1 l 0) || b1 l 1 == 0 || decide (8 < b1 l 1) || !zerosAt l 2 6) ckFormat

/-! ### NOC_ROUTES (R28) -/

/-- The numbers after a on the way to b. -/
def walkTo (a b : Nat) : List Nat :=
  if a ≤ b then (List.range (b - a)).map (fun i => a + 1 + i) else (List.range (a - b)).map (fun i => a - 1 - i)

/-- The routers of a route from router s to router d, along the row first or along the column first. -/
def routeOf (s d : Nat) (colFirst : Bool) : List Nat :=
  let xs := walkTo (s % 6) (d % 6)
  let ys := walkTo (s / 6) (d / 6)
  s :: (if colFirst then ys.map (fun y => y * 6 + s % 6) ++ xs.map (fun x => d / 6 * 6 + x)
    else xs.map (fun x => s / 6 * 6 + x) ++ ys.map (fun y => y * 6 + d % 6))

/-- The links of a route. -/
def linksOf : List Nat → List Nat
  | a :: b :: r => (a * 32 + b) :: linksOf (b :: r)
  | _ => []

/-- The pairs of links that follow each other. -/
def followsOf : List Nat → List (Nat × Nat)
  | a :: b :: r => (a, b) :: followsOf (b :: r)
  | _ => []

/-- The channel dependency graph of a virtual channel of a route table. -/
def depGraph (l : List Byte) (vc : Nat) : List (Nat × Nat) :=
  (List.range 900).foldl (fun (g : List (Nat × Nat)) i =>
    (followsOf (linksOf (routeOf (i / 30) (i % 30) ((b1 l i).testBit vc)))).foldl (fun (h : List (Nat × Nat)) e => if h.contains e then h else e :: h) g) []

/-- Takes away, n times, the dependencies of links that follow no other link. What stays lies on or behind a cycle. -/
def prune : Nat → List (Nat × Nat) → List (Nat × Nat)
  | 0, g => g
  | n + 1, g => prune n (g.filter (fun p => g.any (fun q => q.2 == p.1)))

/-- Whether the routes of a virtual channel form a cycle; the mesh has 98 links. -/
def routeCycle (l : List Byte) (vc : Nat) : Bool := !(prune 98 (depGraph l vc)).isEmpty

def nocChecks (l : List Byte) : List Nat :=
  let bad := l.length != 904 || !zerosAt l 900 4 || (List.range 900).any (fun i => decide (8 ≤ b1 l i)) || (List.range 30).any (fun s => b1 l (s * 31) != 0)
  if bad then [ckFormat] else ckIf ((List.range 3).any (routeCycle l)) ckRouteCycle

/-! ### CANTON_MAP (R429 to R431) -/

def qEntOf (l : List Byte) : QEnt := ⟨b4 l 0, b4 l 4, b1 l 8, b1 l 9, b1 l 10, b1 l 11, b2 l 12⟩

def windowOf (l : List Byte) : Window := ⟨b8 l 0, b4 l 8 * 4096, decide (b1 l 12 % 2 = 1), decide (b1 l 12 / 2 % 2 = 1)⟩

def kvRecOf (l : List Byte) : KvRec :=
  ⟨b8 l 0, b8 l 8, b4 l 16, b4 l 20, (List.range 8).map (fun i => ⟨b1 l (32 + 4 * i), b1 l (33 + 4 * i), b1 l (34 + 4 * i)⟩)⟩

/-- Where the queue entries of a CANTON_MAP payload begin. -/
def cmapTail (l : List Byte) : Nat := if b1 l 10 % 2 = 1 then 128 else 64

def cmapOf (l : List Byte) : CMap :=
  let q := b2 l 6
  let t := cmapTail l
  { coreMask := b2 l 0, ctxBase := b2 l 2, ctxCount := b2 l 4, saveBase := b8 l 16, saveStride := b4 l 24
    kv := if b1 l 10 % 2 = 1 then some (kvRecOf (l.drop 64)) else none
    queues := (pieces 16 (bytesAt l t (16 * q))).map qEntOf
    windows := (pieces 16 (bytesAt l (t + 16 * q) (16 * b2 l 8))).map windowOf }

/-- The last instance of a unit code (R430). -/
def lastInst : Nat → Nat
  | 3 => 1
  | 7 => 3
  | _ => 0

/-- Whether a queue entry breaks R430 or R431. -/
def qEntBad (l : List Byte) : Bool :=
  let e := qEntOf l
  decide (e.unit = 0 ∨ 7 < e.unit ∨ lastInst e.unit < e.inst ∨ e.rank / 8 % 16 ≠ 0 ∨ 1 < e.flags ∨ 2047 < e.vector ∨ b2 l 14 ≠ 0 ∨
    e.count = 0 ∨ 65536 < e.first + e.count ∨ (e.flags = 1 ∧ e.unit ≠ 1))

/-- Whether a window entry breaks R429 or R431. -/
def winBad (l : List Byte) : Bool := decide (b1 l 12 = 0 ∨ 3 < b1 l 12 ∨ b8 l 0 % 4096 ≠ 0) || !zerosAt l 13 3

/-- Whether n is a power of two. -/
def isPow2 (n : Nat) : Bool := n != 0 && n == 2 ^ Nat.log2 n

/-- Whether a class has a format that KV pages may hold (R306). -/
def kvFmtOk (f : Nat) : Bool := f == 12 || f == 4 || f == 5 || f == 2 || f == 3

/-- Whether a class breaks R307. -/
def kvClassBad (k : KvClass) : Bool :=
  let b := match Fmt.ofCode k.fmt with
    | some f => f.bits / 8
    | none => 0
  let tb := 2 * k.heads * 2 ^ k.logD * b
  decide (128 < k.heads ∨ k.logD < 4 ∨ 8 < k.logD ∨ tb < 256 ∨ 65536 < tb) || !isPow2 tb

/-- The checks of a KV record on itself (R306). -/
def kvChecks (hbm : Nat) (l : List Byte) : List Nat :=
  let r := kvRecOf l
  let used := r.classes.filter (fun k => k.heads != 0)
  ckIf (decide (r.poolBase % 2 ^ 21 ≠ 0 ∨ r.poolLen % 2 ^ 21 ≠ 0 ∨ r.poolLen = 0 ∨ r.idxCount = 0) || !zerosAt l 24 8 ||
    (List.range 8).any (fun i => b1 l (35 + 4 * i) != 0) || used.any (fun k => !kvFmtOk k.fmt)) ckFormat ++
  ckIf (decide (hbm < r.poolBase + r.poolLen)) ckGrade ++
  ckIf (decide (1048576 < r.idxBase + r.idxCount) || used.any kvClassBad) ckCapacity

/-- The checks of a CANTON_MAP section on itself (R429 to R431); n is CANTON_COUNT. -/
def cmapChecks (hbm n c : Nat) (l : List Byte) : List Nat :=
  let m := cmapOf l
  let q := b2 l 6
  let w := b2 l 8
  let t := cmapTail l
  if l.length < 64 ∨ l.length ≠ t + 16 * (q + w) then [ckFormat]
  else
    ckIf (decide (1 < b1 l 10) || !zerosAt l 11 5 || !zerosAt l 28 36 || decide (m.saveBase % 4096 ≠ 0 ∨ m.saveStride % 4096 ≠ 0 ∨ m.ctxCount = 0) ||
      (pieces 16 (bytesAt l t (16 * q))).any qEntBad || (pieces 16 (bytesAt l (t + 16 * q) (16 * w))).any winBad) ckFormat ++
    ckIf (decide (n ≤ c)) ckTarget ++
    ckIf (decide (hbm < m.saveBase + m.ctxCount * m.saveStride)) ckGrade ++
    ckIf (decide (256 < q ∨ 64 < w ∨ 4096 < m.ctxBase + m.ctxCount ∨ m.saveStride < 9216)) ckCapacity ++
    (if m.kv.isSome then kvChecks hbm (l.drop 64) else [])

/-! ### REGULATORS (R454) -/

def regEntOf (l : List Byte) : RegEnt := ⟨b1 l 0, b1 l 1, decide (b1 l 2 % 2 = 1), b4 l 4, b4 l 8⟩

/-- The place of a kind and port among the seven buckets. -/
def bucketOf (e : RegEnt) : Nat := if e.kind = 3 then 3 + e.port else e.kind

/-- The checks of a REGULATORS section on itself: a BURST outside its range fails CAPACITY (log 60). -/
def regChecks (chords : Bool) (l : List Byte) : List Nat :=
  let es := (pieces 16 l).map regEntOf
  ckIf (l.length % 16 != 0 || (pieces 16 l).any (fun p => decide (1 < b1 p 2) || b1 p 3 != 0 || !zerosAt p 12 4) ||
    es.any (fun e => decide (3 < e.kind ∨ (if e.kind = 3 then 3 else 0) < e.port)) || hasDup (es.map (fun e => e.kind * 256 + e.port))) ckFormat ++
  ckIf (es.any (fun e => e.kind == 3 && e.rate != 0) && !chords) ckGrade ++
  ckIf (es.any (fun e => if e.kind = 2 then decide (e.burst < 2 ∨ 65536 < e.burst) else decide (e.burst < 256 ∨ 16777216 < e.burst))) ckCapacity

/-! ### SPD_BANKS (R246, R250, R257) -/

def bankEntOf (l : List Byte) : BankEnt := ⟨b2 l 0, b1 l 2, b1 l 3, b1 l 4, decide (b1 l 5 % 2 = 1), b1 l 6⟩

/-- Whether a view has regions of a size at a place (R246). -/
def viewOk (e : BankEnt) : Bool :=
  if e.view = 0 then decide (e.log2 ≤ 4)
  else decide (e.view = 1 ∧ (e.log2 = 5 ∨ e.log2 = 6 ∨ ((e.log2 = 7 ∨ e.log2 = 8) ∧ 1024 ≤ e.first)))

/-- Whether a region lies within one scratchpad. -/
def regionFits (e : BankEnt) : Bool :=
  let n := 2 ^ e.log2
  if e.first < 1024 then decide (e.first / 64 = (e.first + n - 1) / 64) else decide (e.first + n ≤ 1280)

/-- Whether an owner code is one of R257. -/
def ownerKnown (o : Nat) : Bool := decide (o < 16) || o == 0x10 || o == 0x11 || o == 0x20 || o == 0x30 || o == 0x40 || o == 0xFF

/-- The checks of an SPD_BANKS section on itself. -/
def bankChecks (solver : Bool) (l : List Byte) : List Nat :=
  let es := (pieces 8 l).map bankEntOf
  ckIf ((pieces 8 l).any (fun p => decide (1 < b1 p 5 ∨ 2 < b1 p 6) || b1 p 7 != 0) ||
    es.any (fun e => decide (8 < e.log2) || !viewOk e || decide (e.first % 2 ^ e.log2 ≠ 0) || !regionFits e || !ownerKnown e.owner)) ckFormat ++
  ckIf (es.any (fun e => decide (e.first < 1024 ∧ e.owner < 16 ∧ e.owner ≠ e.first / 64))) ckOwnership ++
  ckIf (es.any (fun e => e.owner == 0x30) && !solver) ckGrade

/-! ### POWER (R574) -/

/-- Ranges of the fields of a POWER payload: offset, size, low, high (R574, R580 to R583). -/
def powerRanges : List (Nat × Nat × Nat × Nat) :=
  [(0, 2, 120, 450), (2, 2, 100, 520), (4, 2, 600, 850), (6, 1, 1, 64), (8, 1, 0, 64), (9, 1, 0, 64), (10, 1, 0, 64), (11, 1, 60, 124), (12, 1, 1, 20), (13, 1, 95, 114)]

def powerChecks (l : List Byte) : List Nat :=
  ckIf (l.length != 32 || !zerosAt l 14 18 || decide (5 < b1 l 7)) ckFormat ++
  ckIf (powerRanges.any (fun r => decide (sliceN l r.1 r.2.1 < r.2.2.1 ∨ r.2.2.2 < sliceN l r.1 r.2.1))) ckCapacity

/-! ### Relations -/

/-- The save areas of a canton map as a range. -/
def CMap.saveRange (m : CMap) : Nat × Nat := (m.saveBase, m.ctxCount * m.saveStride)

/-- The page pools of a configuration by canton. -/
def LatCfg.pools (v : LatCfg) : List (Nat × (Nat × Nat)) := v.maps.filterMap (fun p => p.2.kv.map (fun k => (p.1, (k.poolBase, k.poolLen))))

/-- The dictionary copy of a configuration as a range (R160). -/
def LatCfg.dictRange (v : LatCfg) : List (Nat × Nat) := (v.dict.map (fun d => (d.2.1, 64 * d.2.2))).toList

/-- The page table and the pennant slots (R309, R554). -/
def State.reservedRange (s : State) : Nat × Nat := (s.tableBase - 0x1000000, 0x2000000)

/-- The shared banks of a region. -/
def BankEnt.range (e : BankEnt) : Nat × Nat := (e.first, 2 ^ e.log2)

/-- The device address range of a shared region. -/
def BankEnt.addrs (e : BankEnt) : Nat × Nat := (bankBase e.first, 2 ^ e.log2 * 0x80000)

/-- The device address ranges of a canton's cores and shared banks. -/
def LatCfg.ownSpans (v : LatCfg) (c : Nat) (m : CMap) : List (Nat × Nat) :=
  ((List.range 16).filter (fun n => m.coreMask.testBit n)).map (fun n => (0x100000000000 + n * 0x4000000, 0x2000000)) ++
    (((ofCanton v.banks c).getD []).filter (fun e => decide (1024 ≤ e.first))).map BankEnt.addrs

/-- A check that relates entries of sections (R73): the types it relates, its code, and when it fails. -/
structure Rel where
  tags : List Nat
  code : Nat
  bad : State → LatCfg → Bool

/-- The core mask that a configuration gives a canton. -/
def LatCfg.maskOf (v : LatCfg) (c : Nat) : Nat := match ofCanton v.maps c with
  | some m => m.coreMask
  | none => 0

/-- Two canton maps claim a core, a context, a queue, a save area, a pool or descriptor indices, or a map takes HBM that is kept (R82, R306, R431, R554). -/
def LatCfg.mapsClash (s : State) (v : LatCfg) : Bool :=
  let ms := v.maps
  let pools := v.pools.map (fun p => p.2)
  let saves := ms.map (fun p => p.2.saveRange)
  hasDup (ms.flatMap (fun p => (List.range 16).filter (fun n => p.2.coreMask.testBit n))) || anyMeet (ms.map (fun p => (p.2.ctxBase, p.2.ctxCount))) ||
    anyMeet (ms.flatMap (fun p => p.2.queues.map (fun e => (e.first, e.count)))) || anyMeet saves ||
    anyMeet (ms.filterMap (fun p => p.2.kv.map (fun k => (k.idxBase, k.idxCount)))) || anyMeet pools ||
    (saves ++ pools).any (rangesMeet s.reservedRange) || ms.any (fun p => v.pools.any (fun q => q.1 != p.1 && rangesMeet p.2.saveRange q.2))

/-- A save area or a pool takes the dictionary copy (R160, R431). -/
def LatCfg.dictClash (v : LatCfg) : Bool :=
  (v.maps.map (fun p => p.2.saveRange) ++ v.pools.map (fun p => p.2)).any (fun a => v.dictRange.any (rangesMeet a))

/-- A window covers a range of the canton's own cores or banks (R431). -/
def LatCfg.windowClash (v : LatCfg) : Bool :=
  v.maps.any (fun p => p.2.windows.any (fun w => (v.ownSpans p.1 p.2).any (rangesMeet (w.base, w.len))))

/-- A queue is bound to an Ethernet port of another canton (R431). -/
def LatCfg.portQueueClash (v : LatCfg) : Bool :=
  v.maps.any (fun p => p.2.queues.any (fun e => e.unit == 7 && v.pins.any (fun x => x.cls == 4 && x.index == e.inst && x.canton != p.1)))

/-- A region lies on, or gives a bank to, a core that its canton does not own (R250, R257). -/
def LatCfg.bankCoreClash (v : LatCfg) : Bool :=
  v.banks.any (fun p => p.2.any (fun e => if e.first < 1024 then !(v.maskOf p.1).testBit (e.first / 64) else decide (e.owner < 16) && !(v.maskOf p.1).testBit e.owner))

/-- The sum of the rates of a bucket over all cantons. -/
def LatCfg.rateSum (v : LatCfg) (k : Nat) : Nat :=
  (v.regs.flatMap (fun p => p.2.filter (fun e => bucketOf e == k))).foldl (fun (a : Nat) e => a + e.rate) 0

/-- The HBM peak of the grade in MB/s (R463, R74). -/
def State.hbmPeak (s : State) : Nat := s.fld R.GLB_CAPS F.GLB_CAPS_HBM_STACKS * 1228800

/-- The shares of all cantons exceed a limit of check REGULATOR (R74). -/
def LatCfg.sharesOver (s : State) (v : LatCfg) : Bool :=
  decide (s.hbmPeak < v.rateSum 0 ∨ s.hbmPeak < v.rateSum 1 ∨ 65536 < v.rateSum 2) || (List.range 4).any (fun p => decide (100000 < v.rateSum (3 + p)))

/-- The bundles that the images of a configuration put on a core. -/
def LatCfg.bundlesOn (v : LatCfg) (n : Nat) : Nat :=
  (v.images.flatMap (fun p => p.2.filter (fun e => e.mask.testBit n))).foldl (fun (a : Nat) e => a + e.bundles.length) 0

/-- A save area holds less than the largest S_LIVE of its canton's images (R431). -/
def LatCfg.saveShort (v : LatCfg) : Bool :=
  v.maps.any (fun p => ((ofCanton v.images p.1).getD []).any (fun e => e.yields.any (fun y => decide (p.2.saveStride < y.2.1))))

/-- The checks that relate the sections of cantons (R73, R196, R431). -/
def cantonRels : List Rel :=
  [ ⟨[tyCantonMap], ckOwnership, fun s v => v.mapsClash s⟩,
    ⟨[tyCantonMap, tyTokDict], ckOwnership, fun _ v => v.dictClash⟩,
    ⟨[tyCantonMap, tySpdBanks], ckOwnership, fun _ v => v.windowClash⟩,
    ⟨[tyCantonMap, tyPinMap], ckOwnership, fun _ v => v.portQueueClash⟩,
    ⟨[tySpdBanks], ckOwnership, fun _ v => anyMeet (v.banks.flatMap (fun p => p.2.map BankEnt.range))⟩,
    ⟨[tyCantonMap, tySpdBanks], ckOwnership, fun _ v => v.bankCoreClash⟩,
    ⟨[tyRegulators], ckRegulator, fun s v => v.sharesOver s⟩,
    ⟨[tyImage], ckFormat, fun _ v => v.images.any (fun p => hasDup (p.2.map (fun e => e.id)))⟩,
    ⟨[tyCantonMap, tyImage], ckOwnership, fun _ v => v.images.any (fun p => p.2.any (fun e => e.mask &&& v.maskOf p.1 != e.mask))⟩,
    ⟨[tyImage], ckCapacity, fun _ v => (List.range 16).any (fun n => decide (32768 < v.bundlesOn n))⟩,
    ⟨[tyCantonMap, tyImage], ckCapacity, fun _ v => v.saveShort⟩ ]

end Sys2Proof.Machine
end

