-- ==== Sys2Proof/Machine/StreamIo.lean ====
section
/-! DEFINITION. TIME_CONFIG (R119, R121) and PIN_MAP (R395 to R397) of a lattice stream: how they are read and what they are checked for. -/

namespace Sys2Proof.Machine

/-- Whether a register value has a bit set outside fields. -/
def extraBits (fs : List Fld) (v : Word) : Bool := !((v &&& ~~~ (fs.foldl (fun (m : Word) f => m ||| f.mask) 0)) == 0)

/-- Whether a number lies outside a range. -/
def offRange (lo hi x : Nat) : Bool := decide (x < lo ∨ hi < x)

/-- A word of a payload. -/
def wordAt (l : List Byte) (o : Nat) : Word := BitVec.ofNat 64 (b8 l o)

/-! ### TIME_CONFIG -/

def cmpEntOf (l : List Byte) : CmpEnt := ⟨b1 l 0, b1 l 1, b1 l 2, b1 l 3, b1 l 4, b4 l 8, b4 l 12⟩

/-- The compare entries of a TIME_CONFIG payload. -/
def cmpEnts (l : List Byte) : List CmpEnt := (pieces 16 (l.drop 16)).map cmpEntOf

/-- The fields of TIME_PTP_CFG (R128). -/
def ptpFields : List Fld :=
  [F.TIME_PTP_CFG_LOSS_TIMEOUT_MS, F.TIME_PTP_CFG_ALT_DOMAIN, F.TIME_PTP_CFG_DOMAIN, F.TIME_PTP_CFG_ALT_PORT, F.TIME_PTP_CFG_PORT, F.TIME_PTP_CFG_SOURCE,
    F.TIME_PTP_CFG_PROFILE, F.TIME_PTP_CFG_ALT_PRESENT, F.TIME_PTP_CFG_SERVO, F.TIME_PTP_CFG_PTP_ENABLE]

/-- The last INDEX of a KIND (R121). -/
def lastIndex : Nat → Nat
  | 1 => 15
  | 2 => 7
  | 3 => 15
  | 4 => 31
  | _ => 255

/-- Whether a compare entry breaks FORMAT. -/
def cmpEntBad (e : CmpEnt) : Bool :=
  decide (63 < e.num ∨ 2 < e.mode ∨ lastIndex e.kind < e.index ∨ (e.mode = 0 ∧ (e.period ≠ 0 ∨ e.phase ≠ 0)) ∨ (e.mode ≠ 0 ∧ e.period ≤ e.phase))

/-- The checks of a TIME_CONFIG section on itself (R119); n is CANTON_COUNT and c the canton of a restream. -/
def State.timeChecks (s : State) (n : Nat) (c : Option Nat) (l : List Byte) : List Nat :=
  let w := wordAt l 0
  let es := cmpEnts l
  let src := F.TIME_PTP_CFG_SOURCE.get w
  if l.length < 16 ∨ l.length ≠ 16 + 16 * b2 l 8 then [ckFormat]
  else
    ckIf (extraBits ptpFields w || !zerosAt l 10 6 || F.TIME_PTP_CFG_PROFILE.get w == 3 || es.any cmpEntBad || (pieces 16 (l.drop 16)).any (fun p => !zerosAt p 5 3) ||
      (src == 1 && (!s.hasChords || s.bit R.CHD_CFG F.CHD_CFG_MANAGER))) ckFormat ++
    ckIf (es.any (fun e => cantonBad n c e.canton)) ckTarget ++
    ckIf (c.isSome && w != s.fab.cfg.ptp) ckScope ++
    ckIf (es.any (fun e => decide (e.kind = 3 ∧ s.fld R.GLB_CAPS F.GLB_CAPS_CAM_PORTS ≤ e.index))) ckGrade ++
    ckIf (es.any (fun e => decide (5 ≤ e.kind))) ckPinMode ++
    ckIf (decide (64 < b2 l 8) || es.any (fun e => e.mode != 0 && decide (e.period < 1000)) ||
      (F.TIME_PTP_CFG_LOSS_TIMEOUT_MS.get w == 0 && (F.TIME_PTP_CFG_PTP_ENABLE.get w == 1 || src == 1))) ckCapacity

/-! ### PIN_MAP -/

/-- The entries of a PIN_MAP payload, none where one runs past its end. -/
def cutPins : Nat → List Byte → Option (List (List Byte))
  | 0, l => if l.isEmpty then some [] else none
  | k + 1, l =>
    if l.isEmpty then some []
    else
      let n := 8 + 8 * b1 l 3
      if l.length < n then none else (cutPins k (l.drop n)).map (fun r => l.take n :: r)

def pinEntOf (l : List Byte) : PinEnt := ⟨b1 l 0, b1 l 1, b1 l 2, (List.range (b1 l 3)).map (fun i => wordAt l (8 + 8 * i))⟩

def pinEnts (l : List Byte) : List PinEnt := ((cutPins (l.length / 8) l).getD []).map pinEntOf

/-- A word of an entry. -/
def PinEnt.word (e : PinEnt) (i : Nat) : Word := e.words.getD i 0

/-- The number of resources of a class, and of the words of its entry (R395). -/
def pinClass : Nat → Option (Nat × Nat)
  | 0 => some (24, 3)
  | 1 => some (16, 1)
  | 2 => some (48, 2)
  | 3 => some (8, 3)
  | 4 => some (4, 6)
  | _ => none

def spFields : List Fld :=
  [F.SIO_SP_CFG_ACTIVE, F.SIO_SP_CFG_CANTON, F.SIO_SP_CFG_BOUND, F.SIO_SP_CFG_GROUP, F.SIO_SP_CFG_MODE, F.SIO_SP_CFG_SPI_MODE, F.SIO_SP_CFG_GRAY, F.SIO_SP_CFG_CHECK,
    F.SIO_SP_CFG_BITS, F.SIO_SP_CFG_DIV, F.SIO_SP_CFG_ACK_MAX, F.SIO_SP_CFG_LINE_DELAY, F.SIO_SP_CFG_CONV_DELAY]
def convFields : List Fld := [F.SIO_CONV_CFG_ACTIVE, F.SIO_CONV_CFG_CANTON, F.SIO_CONV_CFG_WIDTH, F.SIO_CONV_CFG_POL]
def actFields : List Fld :=
  [F.SIO_ACT_CFG_ACTIVE, F.SIO_ACT_CFG_CANTON, F.SIO_ACT_CFG_MODE, F.SIO_ACT_CFG_POL, F.SIO_ACT_CFG_FULL_SCALE, F.SIO_ACT_CFG_RATE]
def canFields : List Fld :=
  [F.CAN_CFG_ACTIVE, F.CAN_CFG_CANTON, F.CAN_CFG_PLUMB, F.CAN_CFG_FD_EN, F.CAN_CFG_LISTEN, F.CAN_CFG_AUTO_RECOVER, F.CAN_CFG_TDC_EN, F.CAN_CFG_TDC_OFFSET]
def timingFields : List Fld := [F.CAN_NBT_BRP, F.CAN_NBT_TSEG1, F.CAN_NBT_TSEG2, F.CAN_NBT_SJW]
def ethFields : List Fld := [F.ETH_CFG_ACTIVE, F.ETH_CFG_LINK, F.ETH_CFG_CANTON, F.ETH_CFG_SPEED, F.ETH_CFG_RS_FEC, F.ETH_CFG_MTU]

/-- The WORD_SPECs of a sensor port's entry. -/
def PinEnt.specs (e : PinEnt) : List Nat := (List.range 8).map (fun i => (e.word (1 + i / 4)).toNat / 2 ^ (16 * (i % 4)) % 65536)

def PinEnt.spMode (e : PinEnt) : Nat := F.SIO_SP_CFG_MODE.get (e.word 0)
def PinEnt.spBits (e : PinEnt) : Nat := F.SIO_SP_CFG_BITS.get (e.word 0) + 1
def PinEnt.actMode (e : PinEnt) : Nat := F.SIO_ACT_CFG_MODE.get (e.word 0)

/-- Whether an entry has a wrong CLASS, WORDS or INDEX, a reserved bit, or a MAC address that is zero or multicast (R396). -/
def pinBad (l : List Byte) : Bool :=
  let e := pinEntOf l
  (match pinClass e.cls with
    | none => true
    | some p => decide (p.1 ≤ e.index) || e.words.length != p.2) || !zerosAt l 4 4 ||
  (match e.cls with
    | 0 => extraBits spFields (e.word 0) || e.specs.any (fun x => decide (4096 ≤ x))
    | 1 => extraBits convFields (e.word 0)
    | 2 => extraBits actFields (e.word 0)
    | 3 => extraBits canFields (e.word 0) || extraBits timingFields (e.word 1) || extraBits timingFields (e.word 2)
    | 4 => extraBits ethFields (e.word 0) || extraBits [F.ETH_MAC_MAC] (e.word 1) || extraBits [F.ETH_IP4_IP4] (e.word 2) ||
        extraBits [F.ETH_RX_BASE, F.ETH_RX_LOG2_SLOT, F.ETH_RX_LOG2_SLOTS] (e.word 5) || (e.word 1) == 0 || (e.word 1).getLsbD 40
    | _ => false)

/-- Whether an entry fails PIN_MODE (R396). -/
def PinEnt.modeBad (e : PinEnt) : Bool :=
  match e.cls with
  | 0 => e.spMode == 3 || e.specs.any (fun x => decide (x / 2048 % 2 = 1 ∧ e.spBits < x % 64 + x / 64 % 16 + 1))
  | 2 => decide (6 ≤ e.actMode) || (pairedMode e.actMode && e.index % 2 == 1)
  | 4 => F.ETH_CFG_SPEED.get (e.word 0) == 3 || (F.ETH_CFG_RS_FEC.get (e.word 0) == 1 && F.ETH_CFG_SPEED.get (e.word 0) != 2)
  | _ => false

/-- Whether an entry fails CAPACITY (R396; log 60): a value outside the range of its register. -/
def PinEnt.rangeBad (e : PinEnt) : Bool :=
  match e.cls with
  | 0 => offRange (if e.spMode = 2 then 10 else 25) 2500 (F.SIO_SP_CFG_DIV.get (e.word 0)) ||
      (e.spMode == 1 && (decide (e.spBits < 3) || F.SIO_SP_CFG_ACK_MAX.get (e.word 0) == 0))
  | 1 => F.SIO_CONV_CFG_WIDTH.get (e.word 0) == 0
  | 2 =>
    let p := F.SIO_ACT_TIMING_PERIOD.get (e.word 1)
    (pwmMode e.actMode && (decide (p < 250) || decide (p ≤ F.SIO_ACT_TIMING_PHASE.get (e.word 1)))) ||
      (offRange 0 0 e.actMode && decide (e.actMode ≤ 4) && F.SIO_ACT_CFG_FULL_SCALE.get (e.word 0) == 0) ||
      (e.actMode == 4 && F.SIO_ACT_TIMING_MIN_ON.get (e.word 1) == 0)
  | 3 => decide (31 < F.CAN_NBT_BRP.get (e.word 2) ∨ 31 < F.CAN_NBT_TSEG1.get (e.word 2) ∨ 15 < F.CAN_NBT_TSEG2.get (e.word 2) ∨ 15 < F.CAN_NBT_SJW.get (e.word 2))
  | 4 => offRange 1518 9216 (F.ETH_CFG_MTU.get (e.word 0)) || (F.ETH_RX_BASE.get (e.word 5) != 0 &&
      (offRange 11 14 (F.ETH_RX_LOG2_SLOT.get (e.word 5)) || offRange 4 12 (F.ETH_RX_LOG2_SLOTS.get (e.word 5))))
  | _ => false

/-- Whether a receive ring in HBM lies beyond the grade's HBM (R74). -/
def PinEnt.ringBeyond (hbm : Nat) (e : PinEnt) : Bool :=
  let b := F.ETH_RX_BASE.get (e.word 5) * 4096
  decide (e.cls = 4 ∧ b ≠ 0 ∧ b < 0x100000000000 ∧ hbm < b + 2 ^ (F.ETH_RX_LOG2_SLOT.get (e.word 5) + F.ETH_RX_LOG2_SLOTS.get (e.word 5)))

/-- What an Ethernet entry sets at a full load only (R397): SPEED and RS_FEC, the MAC address and the IP addresses. -/
def PinEnt.ethFixed (e : PinEnt) : List Word :=
  [e.word 0 &&& (F.ETH_CFG_SPEED.mask ||| F.ETH_CFG_RS_FEC.mask), e.word 1, e.word 2, e.word 3, e.word 4]

/-- Whether an Ethernet entry differs from what the full load gave its port. -/
def LatCfg.ethMoved (v : LatCfg) (e : PinEnt) : Bool :=
  e.cls == 4 && (match v.eths.find? (fun x => x.index == e.index) with
    | some x => x.ethFixed != e.ethFixed
    | none => true)

/-- The checks of a PIN_MAP section on itself. -/
def State.pinChecks (s : State) (n : Nat) (c : Option Nat) (l : List Byte) : List Nat :=
  match cutPins (l.length / 8) l with
  | none => [ckFormat]
  | some ps =>
    let es := ps.map pinEntOf
    if ps.any pinBad then ckFormat :: ckIf (es.any (fun e => cantonBad n c e.canton)) ckTarget
    else
      ckIf (es.any (fun e => cantonBad n c e.canton)) ckTarget ++ ckIf (c.isSome && es.any s.fab.cfg.ethMoved) ckScope ++
      ckIf (es.any (PinEnt.ringBeyond s.hbmBytes)) ckGrade ++ ckIf (es.any PinEnt.modeBad) ckPinMode ++ ckIf (es.any PinEnt.rangeBad) ckCapacity

/-- The resources that an entry claims, as class × 64 + index; a paired output claims its partner. -/
def PinEnt.claims (e : PinEnt) : List Nat :=
  (e.cls * 64 + e.index) :: (if e.cls = 2 ∧ pairedMode e.actMode then [e.cls * 64 + e.index + 1] else [])

/-- The entry of a resource. -/
def LatCfg.pin (v : LatCfg) (cls index : Nat) : Option PinEnt := v.pins.find? (fun e => e.cls == cls && e.index == index)

/-- A compare targets a pin or a camera port of another canton (R119). -/
def LatCfg.convClash (v : LatCfg) : Bool :=
  v.cmps.any (fun e => e.kind == 1 && ((v.pin 1 e.index).any (fun p => p.canton != e.canton)))
def LatCfg.camClash (v : LatCfg) : Bool :=
  v.cmps.any (fun e => e.kind == 3 && v.cams.any (fun p => p.port == e.index && p.canton != e.canton))

/-- A sensor port is bound to a rate group of another canton (R396). -/
def LatCfg.portGroupClash (v : LatCfg) : Bool :=
  v.pins.any (fun e => e.cls == 0 && F.SIO_SP_CFG_BOUND.get (e.word 0) == 1 &&
    v.groups.any (fun g => g.group == F.SIO_SP_CFG_GROUP.get (e.word 0) && g.canton != e.canton))

/-- The checks that relate TIME_CONFIG and PIN_MAP to other sections (R73, R82, R119, R396). -/
def ioRels : List Rel :=
  [ ⟨[tyTimeConfig], ckOwnership, fun _ v => hasDup (v.cmps.map (fun e => e.num))⟩,
    ⟨[tyTimeConfig, tyPinMap], ckOwnership, fun _ v => v.convClash⟩,
    ⟨[tyTimeConfig, tyInputGraph], ckOwnership, fun _ v => v.camClash⟩,
    ⟨[tyPinMap], ckOwnership, fun _ v => hasDup (v.pins.flatMap PinEnt.claims)⟩,
    ⟨[tyPinMap, tyControlGraph], ckOwnership, fun _ v => v.portGroupClash⟩ ]

end Sys2Proof.Machine
end

