-- ==== Sys2Proof/Machine/StreamInput.lean ====
section
/-! DEFINITION. INPUT_GRAPH (R133 to R135, R158, R159) and TOK_DICT (R160) of a lattice stream: how they are read and what they are checked for. -/

namespace Sys2Proof.Machine

/-! ### INPUT_GRAPH -/

def camEntOf (l : List Byte) : CamEnt := ⟨b1 l 0, b1 l 1, wordAt l 8⟩

/-- The FP32 codes at an offset. -/
def f32sAt (l : List Byte) (o n : Nat) : List (BitVec 32) := (List.range n).map (fun i => BitVec.ofNat 32 (b4 l (o + 4 * i)))

def srcEntOf (l : List Byte) : SrcEnt :=
  { src := b1 l 0, canton := b1 l 1, ethPort := b1 l 2, cfg := wordAt l 8, limit := wordAt l 16, jpeg := wordAt l 24, bufBase := b8 l 32, recBase := b8 l 40
    recLog2 := b1 l 48, reasmBase := b8 l 56, matrix := f32sAt l 64 9, offset := f32sAt l 100 3, mean := f32sAt l 112 3, scale := f32sAt l 124 3 }

/-- The four kinds of entry of an INPUT_GRAPH payload, in their order. -/
def inPorts (l : List Byte) : List (List Byte) := pieces 16 (bytesAt l 16 (16 * b1 l 0))
def inEths (l : List Byte) : List (List Byte) := pieces 8 (bytesAt l (16 + 16 * b1 l 0) (8 * b1 l 1))
def inRes (l : List Byte) : List (List Byte) := pieces 8 (bytesAt l (16 + 16 * b1 l 0 + 8 * b1 l 1) (8 * b1 l 2))
def inSrcs (l : List Byte) : List (List Byte) := pieces 144 (bytesAt l (16 + 16 * b1 l 0 + 8 * b1 l 1 + 8 * b1 l 2) (144 * b1 l 3))

def camFields : List Fld :=
  [F.IMG_PORT_CFG_VC_MASK, F.IMG_PORT_CFG_DEMOSAIC, F.IMG_PORT_CFG_CFA, F.IMG_PORT_CFG_GATED, F.IMG_PORT_CFG_PHY, F.IMG_PORT_CFG_RATE, F.IMG_PORT_CFG_LANES]

/-- Whether a port entry breaks R135 or the ranges of R142 (log 60). GATED is derived and not judged. -/
def camBad (l : List Byte) : Bool :=
  let e := camEntOf l
  let cphy := F.IMG_PORT_CFG_PHY.get e.cfg = 1
  decide (15 < e.port) || !zerosAt l 2 6 || extraBits camFields e.cfg || offRange 1 (if cphy then 3 else 4) (F.IMG_PORT_CFG_LANES.get e.cfg) ||
    offRange 1 (if cphy then 60 else 45) (F.IMG_PORT_CFG_RATE.get e.cfg)

def SrcEnt.fmt (e : SrcEnt) : Nat := F.IMG_SRC_CFG_FMT.get e.cfg
def SrcEnt.width (e : SrcEnt) : Nat := F.IMG_SRC_LIMIT_MAX_WIDTH.get e.limit
def SrcEnt.height (e : SrcEnt) : Nat := F.IMG_SRC_LIMIT_MAX_HEIGHT.get e.limit
def SrcEnt.camera (e : SrcEnt) : Bool := decide (e.src < 64)

/-- The output formats of R158. -/
def outFmt (f : Nat) : Bool := offRange 1 8 f == false || offRange 12 15 f == false

/-- Whether a format is narrower than 8 bits, and so laid out as C32 (R158). -/
def fmtNarrow (f : Nat) : Bool := (offRange 6 8 f == false) || f == 14 || f == 15

/-- The bytes of a sample buffer of a source (R134). -/
def SrcEnt.bufBytes (e : SrcEnt) : Nat :=
  let f := (Fmt.ofCode e.fmt).getD .int8
  e.width * e.height * ((if fmtNarrow e.fmt then 32 else 16) * f.bits / 8 + if offRange 6 8 e.fmt then 0 else 1)

/-- The ranges of memory of a source: its buffers, its record ring and its reassembly slots. -/
def SrcEnt.spans (e : SrcEnt) : List (Nat × Nat) :=
  [(e.bufBase, F.IMG_SRC_CFG_NBUF.get e.cfg * e.bufBytes), (e.recBase, 32 * 2 ^ e.recLog2)] ++
    (if e.camera then [] else [(e.reasmBase, 2 * (F.IMG_SRC_JPEG_MAX_KIB.get e.jpeg * 1024))])

/-- The scratchpad bank of a device address. -/
def addrBank (a : Nat) : Option Nat :=
  if a < 0x100000000000 then none
  else if a < 0x100040000000 then
    (if (a - 0x100000000000) % 0x4000000 < 0x2000000 then some ((a - 0x100000000000) / 0x4000000 * 64 + (a - 0x100000000000) % 0x4000000 / 0x80000) else none)
  else if a < 0x100048000000 then some (1024 + (a - 0x100040000000) / 0x80000)
  else none

/-- The banks that a range touches, none for an address outside the scratchpads. -/
def rangeBanks (r : Nat × Nat) : List (Option Nat) := (List.range ((r.1 % 0x80000 + r.2 - 1) / 0x80000 + 1)).map (fun i => addrBank (r.1 / 0x80000 * 0x80000 + i * 0x80000))

/-- Whether a range stands in HBM, of whatever grade. -/
def inHbm (r : Nat × Nat) : Bool := decide (r.1 + r.2 ≤ 0x100000000000)

/-- Whether a source entry breaks FORMAT on its own. -/
def inSrcBad (l : List Byte) : Bool :=
  let e := srcEntOf l
  let nbuf := F.IMG_SRC_CFG_NBUF.get e.cfg
  let ch := F.IMG_SRC_CFG_CHANNELS.get e.cfg
  decide (127 < e.src) || !zerosAt l 3 5 || !zerosAt l 49 7 || !zerosAt l 136 8 || (if e.camera then e.ethPort != 0 || e.jpeg != 0 || e.reasmBase != 0 else decide (3 < e.ethPort)) ||
    extraBits [F.IMG_SRC_CFG_LAYOUT, F.IMG_SRC_CFG_FMT, F.IMG_SRC_CFG_CHANNELS, F.IMG_SRC_CFG_NBUF] e.cfg ||
    extraBits [F.IMG_SRC_LIMIT_MAX_WIDTH, F.IMG_SRC_LIMIT_MAX_HEIGHT, F.IMG_SRC_LIMIT_MAX_PIXELS] e.limit ||
    extraBits [F.IMG_SRC_JPEG_DECODE_BUDGET, F.IMG_SRC_JPEG_REASM_MS, F.IMG_SRC_JPEG_MAX_KIB] e.jpeg ||
    offRange 1 64 nbuf || (ch != 1 && ch != 3) || !outFmt e.fmt || (F.IMG_SRC_CFG_LAYOUT.get e.cfg == 1) != fmtNarrow e.fmt || e.width == 0 || e.height == 0 ||
    (!e.camera && F.IMG_SRC_JPEG_REASM_MS.get e.jpeg == 0) || e.bufBase % 256 != 0 || e.recBase % 32 != 0 || offRange 4 12 e.recLog2 || e.reasmBase % 4096 != 0 ||
    (ch == 1 && (!zerosAt l 68 32 || !zerosAt l 104 8 || !zerosAt l 116 8 || !zerosAt l 128 8)) ||
    (e.spans.take 2).any (fun r => !inHbm r && (rangeBanks r).any (fun b => b.isNone)) || (e.spans.drop 2).any (fun r => !inHbm r)

/-- Whether a source entry names more than the grade has (R74, R133): its camera port or its memory. -/
def State.srcBeyond (s : State) (e : SrcEnt) : Bool :=
  (e.camera && decide (s.fld R.GLB_CAPS F.GLB_CAPS_CAM_PORTS ≤ e.src / 4)) || e.spans.any (fun r => inHbm r && decide (s.hbmBytes < r.1 + r.2))

/-- Whether a source entry exceeds a limit of R169. -/
def SrcEnt.overLimit (e : SrcEnt) : Bool :=
  let px := F.IMG_SRC_LIMIT_MAX_PIXELS.get e.limit
  decide (8192 < e.width ∨ 8192 < e.height ∨ e.width * e.height < px ∨ 67108864 < px)

/-- The checks of an INPUT_GRAPH section on itself; n is CANTON_COUNT and c the canton of a restream, which takes no Ethernet port of another canton. -/
def State.inputChecks (s : State) (n : Nat) (c : Option Nat) (l : List Byte) : List Nat :=
  if l.length < 16 ∨ 16 < b1 l 0 ∨ 4 < b1 l 1 ∨ 8 < b1 l 2 ∨ 128 < b1 l 3 ∨ l.length ≠ 16 + 16 * b1 l 0 + 8 * b1 l 1 + 8 * b1 l 2 + 144 * b1 l 3 then [ckFormat]
  else
    let cams := (inPorts l).map camEntOf
    let es := (inSrcs l).map srcEntOf
    ckIf (!zerosAt l 4 12 || (inPorts l).any camBad || (inEths l).any (fun p => decide (3 < b1 p 0) || !zerosAt p 1 5) || (inRes l).any (fun p => !zerosAt p 1 3) ||
      (inSrcs l).any inSrcBad) ckFormat ++
    ckIf (cams.any (fun e => cantonBad n c e.canton) || (inRes l).any (fun p => cantonBad n c (b1 p 0)) || es.any (fun e => cantonBad n c e.canton)) ckTarget ++
    ckIf (match c with
      | none => false
      | some k => (inEths l).any (fun p => (s.fab.cfg.pin 4 (b1 p 0)).any (fun e => e.canton != k))) ckOwnership ++
    ckIf (es.any (fun e => !e.camera && F.IMG_SRC_JPEG_DECODE_BUDGET.get e.jpeg == 0)) ckDecode ++
    ckIf (cams.any (fun e => decide (s.fld R.GLB_CAPS F.GLB_CAPS_CAM_PORTS ≤ e.port)) || es.any s.srcBeyond) ckGrade ++
    ckIf (es.any SrcEnt.overLimit) ckCapacity

/-! ### TOK_DICT -/

def tokChecks (hbm : Nat) (l : List Byte) : List Nat :=
  let base := b8 l 8
  if l.length < 64 then [ckFormat]
  else
    ckIf (!zerosAt l 4 4 || !zerosAt l 20 44 || l.length != 64 + 64 * b4 l 16 || base % 4096 != 0 || (pieces 64 (l.drop 64)).any (fun p => !zerosAt p 53 11)) ckFormat ++
    ckIf (decide (hbm < base + 64 * b4 l 16)) ckGrade ++ ckIf (decide (131072 < b4 l 16)) ckCapacity

/-! ### Relations -/

/-- A source without the port that it arrives on (R135). -/
def LatCfg.srcPortMissing (v : LatCfg) : Bool :=
  v.srcs.any (fun e =>
    if e.camera then !v.cams.any (fun p => p.port == e.src / 4 && (F.IMG_PORT_CFG_VC_MASK.get p.cfg).testBit (e.src % 4))
    else !v.carriers.any (fun p => p.1 == e.ethPort))

/-- A port, Ethernet port or source stands twice, a camera source is not of its port's canton, or ranges overlap (R135). -/
def LatCfg.inputClash (v : LatCfg) : Bool :=
  hasDup (v.cams.map (fun e => e.port)) || hasDup (v.carriers.map (fun p => p.1)) || hasDup (v.srcs.map (fun e => e.src)) ||
    v.srcs.any (fun e => e.camera && v.cams.any (fun p => p.port == e.src / 4 && p.canton != e.canton)) || anyMeet (v.srcs.flatMap SrcEnt.spans)

/-- A range lies in a save area or a pool of another canton (R135). -/
def LatCfg.inputForeign (v : LatCfg) : Bool :=
  v.srcs.any (fun e => e.spans.any (fun r =>
    v.maps.any (fun m => m.1 != e.canton && rangesMeet r m.2.saveRange) || v.pools.any (fun q => q.1 != e.canton && rangesMeet r q.2)))

/-- A range in a scratchpad lies outside the banks of its source's canton (R135). -/
def LatCfg.inputOffBank (v : LatCfg) : Bool :=
  v.srcs.any (fun e => e.spans.any (fun r => !inHbm r && (rangeBanks r).any (fun b =>
    match b with
    | none => false
    | some k => !((ofCanton v.banks e.canton).getD []).any (fun g => decide (g.first ≤ k ∧ k < g.first + 2 ^ g.log2)))))

/-- The HBM write rate of a canton. -/
def LatCfg.writeRate (v : LatCfg) (c : Nat) : Nat := (((ofCanton v.regs c).getD []).find? (fun e => e.kind == 1)).elim 0 (fun e => e.rate)

/-- The write reservations of a canton exceed its HBM write regulator (R135). -/
def LatCfg.reserveOver (v : LatCfg) : Bool :=
  (List.range 8).any (fun c => decide (v.writeRate c < ((v.wimg.filter (fun p => p.1 == c)).foldl (fun (a : Nat) p => a + p.2) 0)))

/-- The receive rings of Ethernet ports in HBM, as ranges. -/
def LatCfg.ethRings (v : LatCfg) : List (Nat × Nat) :=
  v.pins.filterMap (fun e =>
    if e.cls = 4 ∧ F.ETH_RX_BASE.get (e.word 5) ≠ 0 then some (F.ETH_RX_BASE.get (e.word 5) * 4096, 2 ^ (F.ETH_RX_LOG2_SLOT.get (e.word 5) + F.ETH_RX_LOG2_SLOTS.get (e.word 5))) else none)

/-- The checks that relate INPUT_GRAPH and TOK_DICT to other sections (R73, R135, R160). -/
def inputRels : List Rel :=
  [ ⟨[tyInputGraph], ckFormat, fun _ v => v.srcPortMissing⟩,
    ⟨[tyInputGraph], ckOwnership, fun _ v => v.inputClash⟩,
    ⟨[tyCantonMap, tyInputGraph], ckOwnership, fun _ v => v.inputForeign⟩,
    ⟨[tySpdBanks, tyInputGraph], ckOwnership, fun _ v => v.inputOffBank⟩,
    ⟨[tyRegulators, tyInputGraph], ckCapacity, fun _ v => v.reserveOver⟩,
    ⟨[tyPinMap, tyTokDict], ckOwnership, fun _ v => v.ethRings.any (fun r => v.dictRange.any (rangesMeet r))⟩,
    ⟨[tyInputGraph, tyTokDict], ckOwnership, fun _ v => (v.srcs.flatMap SrcEnt.spans).any (fun r => v.dictRange.any (rangesMeet r))⟩ ]

end Sys2Proof.Machine
end

