-- ==== Sys2Proof/Machine/StreamControl.lean ====
section
/-! DEFINITION. CONTROL_GRAPH of a lattice stream (R367, R368, R370, R372, R377, R399): how it is read and what it is checked for. -/

namespace Sys2Proof.Machine

/-- A signed 32-bit number at an offset. -/
def i4 (l : List Byte) (o : Nat) : Int := signExt 32 (b4 l o)

def grpEntOf (l : List Byte) : GrpEnt := ⟨b1 l 0, b1 l 1, b1 l 2, 4 * b4 l 4⟩

def slotSrcOf (l : List Byte) (o : Nat) : SlotSrc := ⟨b1 l o, b1 l (o + 1), b2 l (o + 2)⟩

def slotEntOf (l : List Byte) : SlotEnt :=
  { slot := b2 l 0, group := b1 l 2, q := b1 l 3, track := decide (b1 l 4 % 2 = 1), bound := decide (b1 l 4 / 2 % 2 = 1), outIndex := b1 l 5, outShift := b1 l 6
    opA := slotSrcOf l 8, opB := slotSrcOf l 12, limLo := i4 l 16, limHi := i4 l 20, coef := (List.range 7).map (fun i => i4 l (24 + 4 * i)) }

def selEntOf (l : List Byte) : SelEnt :=
  { select := b1 l 0, group := b1 l 1, bound := decide (b1 l 3 % 2 = 1), outIndex := b1 l 4, outShift := b1 l 5, members := (List.range (b1 l 2)).map (fun i => b2 l (16 + 2 * i)) }

/-- The three kinds of entry of a CONTROL_GRAPH payload, in their order. -/
def ctlGroups (l : List Byte) : List (List Byte) := pieces 16 (bytesAt l 16 (16 * b1 l 0))
def ctlSlots (l : List Byte) : List (List Byte) := pieces 64 (bytesAt l (16 + 16 * b1 l 0) (64 * b2 l 2))
def ctlSels (l : List Byte) : List (List Byte) := pieces 32 (bytesAt l (16 + 16 * b1 l 0 + 64 * b2 l 2) (32 * b1 l 4))

/-- Whether a source breaks the ranges of R368 and R372; SRC_TYPE 0 and 3 take no INDEX. -/
def SlotSrc.bad (o : SlotSrc) : Bool :=
  decide (16 < o.shift ∨ (o.shift ≠ 0 ∧ o.src ≠ 1)) || (match o.src with
    | 0 => o.index != 0
    | 1 => decide (192 ≤ o.index)
    | 2 => decide (512 ≤ o.index)
    | 3 => o.index != 0
    | 4 => decide (64 ≤ o.index)
    | _ => true)

/-- Whether a slot entry breaks FORMAT on its own. -/
def slotEntBad (l : List Byte) : Bool :=
  let e := slotEntOf l
  decide (511 < e.slot ∨ 7 < e.group ∨ 31 < e.q ∨ 3 < b1 l 4 ∨ (e.bound ∧ 47 < e.outIndex) ∨ 15 < e.outShift ∨ b1 l 7 ≠ 0 ∨ e.limHi < e.limLo) || e.opA.bad || e.opB.bad || !zerosAt l 52 12

/-- Whether numbers strictly rise. -/
def rising : List Nat → Bool
  | a :: b :: r => decide (a < b) && rising (b :: r)
  | _ => true

/-- Whether a min-select entry breaks FORMAT on its own. -/
def selEntBad (l : List Byte) : Bool :=
  let e := selEntOf l
  let n := b1 l 2
  decide (63 < e.select ∨ 7 < e.group ∨ n < 2 ∨ 1 < b1 l 3 ∨ (e.bound ∧ 47 < e.outIndex) ∨ 15 < e.outShift) || !zerosAt l 6 10 || !rising (e.members.take 8) ||
    (List.range 8).any (fun i => if i < n then decide (511 < b2 l (16 + 2 * i)) else b2 l (16 + 2 * i) != 0xFFFF)

/-- The checks of a CONTROL_GRAPH section on itself; n is CANTON_COUNT and c the canton of a restream. A slot or min-select group of a rate group that the section does not hold claims another canton's group, or none. -/
def State.ctlChecks (s : State) (n : Nat) (c : Option Nat) (l : List Byte) : List Nat :=
  if l.length < 16 ∨ l.length ≠ 16 + 16 * b1 l 0 + 64 * b2 l 2 + 32 * b1 l 4 then [ckFormat]
  else
    let gs := (ctlGroups l).map grpEntOf
    let used := (ctlSlots l).map (fun p => b1 p 2) ++ (ctlSels l).map (fun p => b1 p 1)
    let stray := used.filter (fun g => !gs.any (fun e => e.group == g))
    let other (g : Nat) : Bool := c.isSome && s.fab.cfg.groups.any (fun e => e.group == g && some e.canton != c)
    ckIf (b1 l 1 != 0 || !zerosAt l 5 11 || (ctlGroups l).any (fun p => decide (7 < b1 p 0 ∨ 63 < b1 p 2 ∨ b1 p 3 ≠ 0) || !zerosAt p 8 8) || (ctlSlots l).any slotEntBad ||
      (ctlSels l).any selEntBad || stray.any (fun g => !other g)) ckFormat ++
    ckIf (gs.any (fun e => cantonBad n c e.canton)) ckTarget ++ ckIf (stray.any other) ckOwnership ++
    ckIf (decide (8 < b1 l 0 ∨ 512 < b2 l 2 ∨ 64 < b1 l 4) || (ctlSels l).any (fun p => decide (8 < b1 p 2))) ckCapacity

/-! ### Relations -/

def LatCfg.grpEnt (v : LatCfg) (g : Nat) : Option GrpEnt := v.groups.find? (fun e => e.group == g)
def LatCfg.slotEnt (v : LatCfg) (i : Nat) : Option SlotEnt := v.slots.find? (fun e => e.slot == i)
def LatCfg.selEnt (v : LatCfg) (m : Nat) : Option SelEnt := v.sels.find? (fun e => e.select == m)

/-- The canton of a rate group's entry. -/
def LatCfg.grpCanton (v : LatCfg) (g : Nat) : Option Nat := (v.grpEnt g).map (fun e => e.canton)

/-- The sources of a slot. -/
def SlotEnt.srcs (e : SlotEnt) : List SlotSrc := [e.opA, e.opB]

/-- A source of type 2 or 4 as the rate group that it stands in and the highest slot number that it needs. -/
def LatCfg.srcOf (v : LatCfg) (o : SlotSrc) : Option (Nat × Nat) :=
  if o.src = 2 then (v.slotEnt o.index).map (fun e => (e.group, e.slot))
  else (v.selEnt o.index).map (fun e => (e.group, e.members.foldl Nat.max 0))

/-- The source and order rules of R372 and R377 are broken. -/
def LatCfg.orderBad (v : LatCfg) : Bool :=
  v.slots.any (fun e => e.srcs.any (fun o => (o.src == 2 || o.src == 4) && (match v.srcOf o with
    | none => true
    | some p => p.1 == e.group && decide (e.slot ≤ p.2)))) ||
  v.sels.any (fun m => m.members.any (fun i => match v.slotEnt i with
    | none => true
    | some e => e.group != m.group || e.bound))

/-- A number stands twice, or a source belongs to another canton (R367, R368). -/
def LatCfg.ctlClash (v : LatCfg) : Bool :=
  hasDup (v.groups.map (fun e => e.group)) || hasDup (v.slots.map (fun e => e.slot)) || hasDup (v.sels.map (fun e => e.select)) ||
    hasDup (v.sels.flatMap (fun e => e.members)) || hasDup (v.groups.map (fun e => e.compare)) ||
    hasDup (v.slots.filterMap (fun e => if e.bound then some e.outIndex else none) ++ v.sels.filterMap (fun e => if e.bound then some e.outIndex else none)) ||
    v.slots.any (fun e => e.srcs.any (fun o => (o.src == 2 || o.src == 4) && (v.srcOf o).any (fun p => v.grpCanton p.1 != v.grpCanton e.group)))

/-- The driving compare of a group, where it is of KIND 2 for that group. -/
def LatCfg.driving (v : LatCfg) (g : GrpEnt) : Option CmpEnt := v.cmps.find? (fun e => e.num == g.compare && e.kind == 2 && e.index == g.group)

/-- A compare of another canton, or a second compare, drives a group (R367). -/
def LatCfg.driveClash (v : LatCfg) : Bool :=
  v.groups.any (fun g => (v.driving g).any (fun e => e.canton != g.canton) || decide (1 < (v.cmps.filter (fun e => e.kind == 2 && e.index == g.group)).length))

/-- The ENABLE of word i of an entry's sensor port. -/
def PinEnt.wordOn (e : PinEnt) (i : Nat) : Bool := e.specs.getD i 0 / 2048 % 2 == 1

/-- The sensor word sources of a configuration with the group of their slot. -/
def LatCfg.wordSrcs (v : LatCfg) : List (Nat × Nat) :=
  v.slots.flatMap (fun e => e.srcs.filterMap (fun o => if o.src = 1 then some (o.index, e.group) else none))

/-- A slot binds a sensor word that is not enabled (R399), or one of another canton (R367). -/
def LatCfg.wordOff (v : LatCfg) : Bool := v.wordSrcs.any (fun p => !(v.pin 0 (p.1 / 8)).any (fun e => e.wordOn (p.1 % 8)))
def LatCfg.wordForeign (v : LatCfg) : Bool := v.wordSrcs.any (fun p => (v.pin 0 (p.1 / 8)).any (fun e => some e.canton != v.grpCanton p.2))

/-- The bound actuator outputs with the group of their slot or min-select group. -/
def LatCfg.outputs (v : LatCfg) : List (Nat × Nat) :=
  v.slots.filterMap (fun e => if e.bound then some (e.outIndex, e.group) else none) ++ v.sels.filterMap (fun e => if e.bound then some (e.outIndex, e.group) else none)

/-- An output binding names no actuator-timer output (R367), or one of another canton. -/
def LatCfg.outUnmade (v : LatCfg) : Bool := v.outputs.any (fun p => !(v.pin 2 p.1).any (fun e => e.actMode != 0))
def LatCfg.outForeign (v : LatCfg) : Bool := v.outputs.any (fun p => (v.pin 2 p.1).any (fun e => some e.canton != v.grpCanton p.2))

/-- The acquisition bound of a sensor port in ns (R401). -/
def PinEnt.tIn (e : PinEnt) : Nat :=
  let t := 4 * F.SIO_SP_CFG_DIV.get (e.word 0)
  let d := 8 * F.SIO_SP_CFG_LINE_DELAY.get (e.word 0)
  match e.spMode with
  | 0 => 16 + (e.spBits + 1) * t + d
  | 1 => 16 + (F.SIO_SP_CFG_ACK_MAX.get (e.word 0) + e.spBits + 8) * t + d
  | _ => 64 * F.SIO_SP_CFG_CONV_DELAY.get (e.word 0) + 16 + e.spBits * t

/-- B_g of R370 at the floor corner, where a step takes 1 / 1.05 ns, in units of 1/21 ns. -/
def LatCfg.boundOf (v : LatCfg) (g : Nat) : Nat :=
  let tin := (v.pins.filter (fun e => e.cls == 0 && F.SIO_SP_CFG_BOUND.get (e.word 0) == 1 && F.SIO_SP_CFG_GROUP.get (e.word 0) == g)).foldl (fun (a : Nat) e => Nat.max a e.tIn) 0
  let n := (v.slots.filter (fun e => e.group == g)).length
  let m := (v.sels.filter (fun e => e.group == g)).length
  Nat.max (8 * 21 + 3 * 20) (tin * 21) + (40 + 12 * n + 20 * m) * 20 + 512 * 20 + 3 * 20 + 24 * 21

/-- Check PHASE_BOUND (R74, R367). -/
def LatCfg.phaseBad (v : LatCfg) : Bool :=
  v.groups.any (fun g => decide (g.phi * 21 < v.boundOf g.group) || (v.driving g).any (fun e => decide (e.period ≤ g.phi)))

/-- The checks that relate CONTROL_GRAPH to other sections (R73, R367). -/
def ctlRels : List Rel :=
  [ ⟨[tyControlGraph], ckFormat, fun _ v => v.orderBad⟩,
    ⟨[tyControlGraph], ckOwnership, fun _ v => v.ctlClash⟩,
    ⟨[tyTimeConfig, tyControlGraph], ckFormat, fun _ v => v.groups.any (fun g => (v.driving g).isNone)⟩,
    ⟨[tyTimeConfig, tyControlGraph], ckOwnership, fun _ v => v.driveClash⟩,
    ⟨[tyTimeConfig, tyControlGraph], ckCapacity, fun _ v => v.groups.any (fun g => (v.driving g).any (fun e => offRange 15625 10000000 e.period))⟩,
    ⟨[tyPinMap, tyControlGraph], ckFormat, fun _ v => v.wordOff⟩,
    ⟨[tyPinMap, tyControlGraph], ckOwnership, fun _ v => v.wordForeign⟩,
    ⟨[tyPinMap, tyControlGraph], ckOwnership, fun _ v => v.outForeign⟩,
    ⟨[tyPinMap, tyControlGraph], ckPinMode, fun _ v => v.outUnmade⟩,
    ⟨[tyTimeConfig, tyPinMap, tyControlGraph], ckPhase, fun _ v => v.phaseBad⟩ ]

end Sys2Proof.Machine
end

