-- ==== Sys2Proof/Machine/StreamPlumb.lean ====
section
/-! DEFINITION. PLUMB_RULES (R517, R518) and PLUMB_FRAMES (R511) of a lattice stream: how they are read and what they are checked for (R512, R519). -/

namespace Sys2Proof.Machine

/-- A signed 64-bit number at an offset. -/
def i8 (l : List Byte) (o : Nat) : Int := signExt 64 (b8 l o)

def ruleOf (l : List Byte) : PlRule := ⟨b1 l 0, b1 l 1, b1 l 2, b1 l 3, b2 l 4, i8 l 8, i8 l 16, b8 l 24⟩

/-- The rules of a PLUMB_RULES payload. -/
def rulesOf (l : List Byte) : List PlRule := (pieces 32 (l.drop 32)).map ruleOf

def frameEntOf (l : List Byte) : FrameEnt :=
  { reg := b1 l 0, latch := decide (b1 l 1 = 1), canton := b1 l 2, group := b1 l 3, deps := b1 l 4, flags := b1 l 5, n := b1 l 6, m := b1 l 7, w := b1 l 8
    itemsMax := b2 l 10, period := b4 l 12, phase := b4 l 16, deadline := b4 l 20, actMask := sliceN l 24 6 }

/-- CAN_CTRL of a global header. -/
def hdrCtrl (h : List Byte) : Nat := b1 h 6

/-- The part of a global header that a restream repeats: all but RULE_COUNT, which counts the rules of the stream. -/
def hdrFixed (h : List Byte) : List Byte := bytesAt h 0 14 ++ bytesAt h 16 16

/-- Whether a global header breaks R517. -/
def plHdrBad (l : List Byte) : Bool :=
  offRange 1000 1000000 (b4 l 0) || decide (10000 < b2 l 4) || (decide (7 < hdrCtrl l) && hdrCtrl l != 0xFF) || decide (3 < b1 l 7) ||
    decide ((if b1 l 7 / 2 % 2 = 1 then 2 ^ 29 else 2 ^ 11) ≤ b4 l 8) || !zerosAt l 16 16

/-- Whether a rule entry breaks R517 or R518 on its own. -/
def ruleBad (l : List Byte) : Bool :=
  let r := ruleOf l
  decide (r.kind = 0 ∨ 6 < r.kind ∨ 63 < r.reg ∨ 5 < r.field) || !zerosAt l 6 2 || (match r.kind with
    | 1 => decide (48 ≤ r.source)
    | 2 => decide (48 ≤ r.source)
    | 3 => decide (512 ≤ r.source)
    | 4 => decide (192 ≤ r.source)
    | _ => false)

/-- The checks of a PLUMB_RULES section on itself; n is CANTON_COUNT and c the canton of a restream. -/
def State.ruleChecks (s : State) (n : Nat) (c : Option Nat) (l : List Byte) : List Nat :=
  if l.length < 32 ∨ l.length % 32 ≠ 0 then [ckFormat]
  else
    ckIf (plHdrBad l || b2 l 14 != l.length / 32 - 1 || (pieces 32 (l.drop 32)).any ruleBad) ckFormat ++
    ckIf ((rulesOf l).any (fun r => cantonBad n c r.canton)) ckTarget ++ ckIf (c.isSome && hdrFixed l != hdrFixed s.fab.cfg.plHdr) ckScope

/-- Whether a registration breaks R511 on its own. -/
def frameBad (l : List Byte) : Bool :=
  let e := frameEntOf l
  decide (63 < e.reg ∨ 1 < b1 l 1 ∨ 7 < e.group ∨ 15 < e.flags ∨ 64 < e.w ∨ e.w ≤ e.m ∨ 1024 < e.itemsMax ∨ e.period ≤ e.phase ∨ e.period < e.deadline) ||
    offRange 1 15 e.n || offRange 1 15 e.m || offRange 15625 1000000000 e.period || b1 l 9 != 0 || !zerosAt l 30 2

/-- The checks of a PLUMB_FRAMES section on itself. -/
def frameChecks (n : Nat) (c : Option Nat) (l : List Byte) : List Nat :=
  if l.length % 32 ≠ 0 then [ckFormat]
  else ckIf ((pieces 32 l).any frameBad) ckFormat ++ ckIf ((pieces 32 l).any (fun p => cantonBad n c (b1 p 2))) ckTarget

/-! ### Relations -/

def LatCfg.frameEnt (v : LatCfg) (f : Nat) : Option FrameEnt := v.frames.find? (fun e => e.reg == f)

/-- Whether a rule kind suits a registration (R518). -/
def ruleSuits (kind : Nat) (latch : Bool) : Bool := if kind ≤ 3 then latch else kind == 4 || !latch

/-- A rule has no registration, or one whose KIND it does not suit (R512). -/
def LatCfg.ruleUnfit (v : LatCfg) : Bool := v.rules.any (fun r => !(v.frameEnt r.reg).any (fun e => ruleSuits r.kind e.latch))

/-- A LATCH registration departs from its group's compare, or its deadline falls too early (R512). -/
def LatCfg.latchUnfit (v : LatCfg) : Bool :=
  v.frames.any (fun e => e.latch && !(v.grpEnt e.group).any (fun g => decide (g.phi + 1000 ≤ e.deadline) &&
    (v.driving g).any (fun k => k.period == e.period && k.phase == e.phase)))

/-- The canton that owns an actuator output, by its own entry or by the pair's (R425). -/
def LatCfg.actCanton (v : LatCfg) (a : Nat) : Option Nat :=
  match v.pin 2 a with
  | some e => some e.canton
  | none => if a % 2 = 1 then ((v.pin 2 (a - 1)).filter (fun e => pairedMode e.actMode)).map (fun e => e.canton) else none

/-- An output of ACT_MASK belongs to another canton (R512). -/
def LatCfg.maskForeign (v : LatCfg) : Bool :=
  v.frames.any (fun e => (List.range 48).any (fun a => e.actMask.testBit a && (v.actCanton a).any (fun c => c != e.canton)))

/-- The judging load exceeds 100 M cycles per second (R519): the sum of J_max / PERIOD as a fraction. -/
def LatCfg.loadOver (v : LatCfg) : Bool :=
  let evals (e : FrameEnt) : Nat := (v.rules.filter (fun r => r.reg == e.reg)).foldl (fun (a : Nat) r => a + (if r.kind = 5 then e.itemsMax else 1)) 0
  let x : Nat × Nat := v.frames.foldl (fun (a : Nat × Nat) e => (a.1 * e.period + (64 + 4 * evals e) * a.2, a.2 * e.period)) (0, 1)
  decide (x.2 < x.1 * 10)

/-- CAN_CTRL names an unconfigured controller, or one in LISTEN mode (R512). -/
def LatCfg.ctrlBad (v : LatCfg) : Bool :=
  let k := hdrCtrl v.plHdr
  k != 0xFF && !v.plHdr.isEmpty && !(v.pin 3 k).any (fun e => F.CAN_CFG_LISTEN.get (e.word 0) == 0)

/-- The checks that relate PLUMB_RULES and PLUMB_FRAMES to other sections (R73, R512, R519). -/
def plumbRels : List Rel :=
  [ ⟨[tyPlumbRules], ckCapacity, fun _ v => decide (1024 < v.rules.length)⟩,
    ⟨[tyPinMap, tyPlumbRules], ckPinMode, fun _ v => v.ctrlBad⟩,
    ⟨[tyPlumbFrames], ckOwnership, fun _ v => hasDup (v.frames.map (fun e => e.reg))⟩,
    ⟨[tyPlumbFrames], ckCapacity, fun _ v => decide (64 < v.frames.length)⟩,
    ⟨[tyPlumbRules, tyPlumbFrames], ckFormat, fun _ v => v.ruleUnfit⟩,
    ⟨[tyPlumbRules, tyPlumbFrames], ckOwnership, fun _ v => v.rules.any (fun r => (v.frameEnt r.reg).any (fun e => e.canton != r.canton))⟩,
    ⟨[tyPlumbRules, tyPlumbFrames], ckCapacity, fun _ v => v.loadOver⟩,
    ⟨[tyTimeConfig, tyControlGraph, tyPlumbFrames], ckFormat, fun _ v => v.latchUnfit⟩,
    ⟨[tyControlGraph, tyPlumbFrames], ckOwnership, fun _ v => v.frames.any (fun e => e.latch && (v.grpCanton e.group).any (fun c => c != e.canton))⟩,
    ⟨[tyPinMap, tyPlumbFrames], ckOwnership, fun _ v => v.maskForeign⟩ ]

end Sys2Proof.Machine
end

