-- ==== Sys2Proof/Machine/StreamImage.lean ====
section
/-! DEFINITION. PROGRAM_IMAGE (R195, R196) and MGT_FIRMWARE (R72) of a lattice stream: how an image is read, and what its bundles are checked for. -/

namespace Sys2Proof.Machine

/-! ### An image's payload -/

/-- Where the yield table, the descriptors and the bundles of an image begin. -/
def imgYieldAt (l : List Byte) : Nat := 24 + 16 * b2 l 2
def imgDescAt (l : List Byte) : Nat := imgYieldAt l + 16 * b2 l 10
def imgCodeAt (l : List Byte) : Nat := imgDescAt l + 32 * b2 l 8

def imgEntries (l : List Byte) : List (List Byte) := pieces 16 (bytesAt l 24 (16 * b2 l 2))
def imgYields (l : List Byte) : List (List Byte) := pieces 16 (bytesAt l (imgYieldAt l) (16 * b2 l 10))

def imgEntOf (l : List Byte) : ImgEnt :=
  { id := b2 l 0, mask := b2 l 16, entries := (imgEntries l).map (fun p => (b4 p 0, b8 p 8)), yields := (imgYields l).map (fun p => (b4 p 0, b4 p 4, b4 p 8))
    descs := (List.range (4 * b2 l 8)).map (fun i => wordAt l (imgDescAt l + 8 * i))
    bundles := (pieces 32 (l.drop (imgCodeAt l))).map (fun p => BitVec.ofNat 256 (leNat p)) }

/-! ### Slots -/

/-- Whether a matrix slot breaks R196 or R203 (log 60): an unknown opcode, bits in a NOP, DESC_Q outside DRAIN, rows outside the set, or RND 3. -/
def matBad (w : Nat) : Bool :=
  let op := sl w 42 6
  let n := sl w 4 11
  if op = 0 then w != 0
  else decide (4 < op ∨ (op ≠ 3 ∧ sl w 26 8 ≠ 0) ∨ 1024 < sl w 15 10 + n ∨ (op ≠ 1 ∧ n = 0) ∨ sl w 1 2 = 3)

/-- The IMM bits that a vector operation defines (R211). -/
def vecImm (op : Nat) : Nat :=
  if 1 ≤ op ∧ op ≤ 5 then 7 else if op = 6 ∨ (0x10 ≤ op ∧ op ≤ 0x16) then 4 else if op = 0x20 ∨ op = 0x21 then 1 else 0

/-- Whether a vector slot breaks R196, R210 or R211. -/
def vecBad (w : Nat) : Bool :=
  let op := sl w 32 8
  if op = 0 then w != 0
  else !(decide (op ≤ 7 ∨ (0x10 ≤ op ∧ op ≤ 0x16) ∨ (0x20 ≤ op ∧ op ≤ 0x24))) || (sl w 2 6 ||| vecImm op) != vecImm op || sl w 0 2 == 3

/-- Whether a transfer slot breaks R196, R219, R235, R289 or R650. -/
def wordXferBad (w : Nat) : Bool :=
  let aux := sl w 0 18
  match sl w 34 6 with
  | 0 => w != 0
  | 1 => aux != 0
  | 2 => aux != 0
  | 3 => false
  | 4 => decide (65536 ≤ aux)
  | 5 => decide (65536 ≤ aux)
  | 6 => sl w 26 8 != 0 || aux % 32768 != 0 || aux / 32768 % 4 == 3
  | _ => true

/-- Whether an EXTS or EXTU immediate breaks R217. -/
def extBad (imm : Nat) : Bool := decide (32 ≤ imm ∨ imm / 8 % 4 = 3 ∨ 64 < imm % 8 * 8 + 8 * 2 ^ (imm / 8 % 4))

/-- Whether an S0 slot breaks R196 or R217 on its own. -/
def s0Bad (w : Nat) : Bool :=
  let op := sl w 30 6
  let hi := sl w 24 6
  let ra := sl w 18 6
  let imm := sl w 0 18
  if op = 0 then w != 0
  else if op ≤ 0x0D then imm % 4096 != 0
  else if 0x10 ≤ op ∧ op ≤ 0x13 ∨ op = 0x17 then false
  else if 0x14 ≤ op ∧ op ≤ 0x16 then decide (64 ≤ imm)
  else if op = 0x18 ∨ op = 0x19 then extBad imm
  else if 0x20 ≤ op ∧ op ≤ 0x23 then false
  else if 0x28 ≤ op ∧ op ≤ 0x2B then false
  else if op = 0x2C then hi != 0 || ra != 0
  else if op = 0x30 then hi != 0 || imm == 0 || decide (32767 < imm)
  else if op = 0x31 ∨ op = 0x33 then imm % 16384 != 0
  else if op = 0x32 then imm % 65536 != 0
  else if op = 0x34 then hi != 0 || imm != 0
  else true

/-- Whether an S1 slot breaks R196 or R218. -/
def s1Bad (w : Nat) : Bool :=
  let op := sl w 30 6
  if op = 0 then w != 0
  else if op ≤ 0x0F then sl w 0 4 != 0
  else if 0x21 ≤ op ∧ op ≤ 0x2D then sl w 0 12 != 0
  else true

/-- The register that an S0 operation writes; F registers are marked. -/
def s0Writes (w : Nat) : Option (Bool × Nat) :=
  let op := sl w 30 6
  let rd := sl w 24 6
  if (1 ≤ op ∧ op ≤ 0x0D) ∨ (0x10 ≤ op ∧ op ≤ 0x19) ∨ op = 0x20 ∨ op = 0x33 then some (false, rd)
  else if op = 0x22 then some (true, rd % 32)
  else none

/-- The register that an S1 operation writes. -/
def s1Writes (w : Nat) : Option (Bool × Nat) :=
  let op := sl w 30 6
  if 0x21 ≤ op ∧ op ≤ 0x2D then some (false, sl w 24 6)
  else if op = 0x0A ∨ op = 0x0C ∨ op = 0x0E ∨ op = 0x0F then some (false, sl w 4 6)
  else if 1 ≤ op ∧ op ≤ 0x0F then some (true, sl w 25 5)
  else none

/-! ### Bundles -/

/-- The S0 slot of a bundle. -/
def s0Of (b : BitVec 256) : Nat := sl b.toNat 36 36

/-- Whether a bundle breaks a rule of its own. -/
def bundleBad (b : BitVec 256) : Bool :=
  let w := b.toNat
  matBad (sl w 200 48) || matBad (sl w 152 48) || vecBad (sl w 112 40) || wordXferBad (sl w 72 40) || s0Bad (s0Of b) || s1Bad (sl w 0 36) ||
    (match s0Writes (s0Of b), s1Writes (sl w 0 36) with
      | some x, some y => x == y
      | _, _ => false)

/-- The LOOP bodies of a program: the first and the last bundle of each. -/
def loopBodies (l : List (BitVec 256)) : List (Nat × Nat) :=
  l.zipIdx.filterMap (fun p => if sl (s0Of p.1) 30 6 = 0x30 then some (p.2 + 1, p.2 + sl (s0Of p.1) 0 18) else none)

/-- The bodies that hold a bundle. -/
def bodiesOf (bodies : List (Nat × Nat)) (i : Nat) : List (Nat × Nat) := bodies.filter (fun x => decide (x.1 ≤ i ∧ i ≤ x.2))

/-- Whether two bodies overlap without nesting. -/
def bodiesCross (x y : Nat × Nat) : Bool := decide (x.1 < y.1 ∧ y.1 ≤ x.2 ∧ x.2 < y.2)

/-- Whether the branches and loops of a program break R217. A body that runs past the last bundle fails too (log 60). -/
def flowBad (l : List (BitVec 256)) : Bool :=
  let bodies := loopBodies l
  bodies.any (fun x => decide (l.length ≤ x.2) || bodies.any (bodiesCross x) || decide (4 < (bodiesOf bodies x.1).length)) ||
    l.zipIdx.any (fun p =>
      let w := s0Of p.1
      let op := sl w 30 6
      let t := (p.2 : Int) + signExt 18 w
      decide (0x28 ≤ op ∧ op ≤ 0x2C) && (decide (t < 0 ∨ (l.length : Int) ≤ t) || bodiesOf bodies p.2 != bodiesOf bodies t.toNat))

/-- The checks of a PROGRAM_IMAGE section on itself (R195, R196). -/
def imageChecks (l : List Byte) : List Nat :=
  let e := imgEntOf l
  let n := b4 l 4
  let ys := e.yields.map (fun y => y.1)
  if l.length < 24 ∨ l.length ≠ imgCodeAt l + 32 * n then [ckFormat]
  else
    ckIf (decide (1023 < e.id) || offRange 1 64 (b2 l 2) || offRange 1 32768 n || decide (256 < b2 l 8) || !zerosAt l 12 4 || !zerosAt l 18 6 ||
      (imgEntries l).any (fun p => decide (n ≤ b4 p 0) || !zerosAt p 4 4) || (imgYields l).any (fun p => decide (n ≤ b4 p 0) || !zerosAt p 12 4) || !rising ys ||
      e.bundles.zipIdx.any (fun p => bundleBad p.1 || p.1.getLsbD 255 != ys.contains p.2) || !(e.bundles.getLast?.any (fun b => b.getLsbD 254)) || flowBad e.bundles) ckFormat

/-- The checks of an MGT_FIRMWARE section on itself; its vendor signature is judged before (R72, R73). -/
def firmwareChecks (l : List Byte) : List Nat := ckIf (!firmwareFits l) ckFormat

end Sys2Proof.Machine
end

