-- ==== Sys2Proof/Machine/Stream.lean ====
section
/-! DEFINITION. The loader's checks of a staged stream in their order (R65 to R67, R73, R74, R80): the configuration that its sections give, what each section must be, and the first failure. -/

namespace Sys2Proof.Machine

/-! ### The configuration that sections give -/

/-- A configuration with what a section adds; a full load also sets what a restream repeats. -/
def LatCfg.plus (v : LatCfg) (full : Bool) (x : Sect) : LatCfg :=
  let p := x.payload
  let t := x.type
  if t = tyGlobal then { v with mode := b1 p 0, cantons := b1 p 1 }
  else if t = tyCantonMap then { v with maps := v.maps ++ [(x.target, cmapOf p)] }
  else if t = tyRegulators then { v with regs := v.regs ++ [(x.target, (pieces 16 p).map regEntOf)] }
  else if t = tySpdBanks then { v with banks := v.banks ++ [(x.target, (pieces 8 p).map bankEntOf)] }
  else if t = tyNocRoutes then { v with routes := p }
  else if t = tyFirmware then { v with firmware := bytesAt p 8 (b8 p 0) }
  else if t = tyTimeConfig then { v with ptp := wordAt p 0, cmps := v.cmps ++ cmpEnts p }
  else if t = tyPinMap then { v with pins := v.pins ++ pinEnts p, eths := if full then (pinEnts p).filter (fun e => e.cls == 4) else v.eths }
  else if t = tyInputGraph then
    { v with
      cams := v.cams ++ (inPorts p).map camEntOf, carriers := v.carriers ++ (inEths p).map (fun q => (b1 q 0, b2 q 6))
      wimg := v.wimg ++ (inRes p).map (fun q => (b1 q 0, b4 q 4)), srcs := v.srcs ++ (inSrcs p).map srcEntOf }
  else if t = tyTokDict then { v with dict := some (b4 p 0, b8 p 8, b4 p 16) }
  else if t = tyControlGraph then
    { v with groups := v.groups ++ (ctlGroups p).map grpEntOf, slots := v.slots ++ (ctlSlots p).map slotEntOf, sels := v.sels ++ (ctlSels p).map selEntOf }
  else if t = tyPlumbRules then { v with rules := v.rules ++ rulesOf p, plHdr := if full then p.take 32 else v.plHdr }
  else if t = tyPlumbFrames then { v with frames := v.frames ++ (pieces 32 p).map frameEntOf }
  else if t = tyImage then { v with images := v.images ++ [(x.target, ((ofCanton v.images x.target).getD []) ++ [imgEntOf p])] }
  else v

/-- A table by canton without a canton's entry. -/
def dropCanton {α : Type} (l : List (Nat × α)) (c : Nat) : List (Nat × α) := l.filter (fun p => p.1 != c)

/-- A running configuration without what canton c owns of a type (R81). An Ethernet carrier is owned with its port. -/
def LatCfg.minus (v : LatCfg) (c t : Nat) : LatCfg :=
  if t = tyCantonMap then { v with maps := dropCanton v.maps c }
  else if t = tyRegulators then { v with regs := dropCanton v.regs c }
  else if t = tySpdBanks then { v with banks := dropCanton v.banks c }
  else if t = tyTimeConfig then { v with cmps := v.cmps.filter (fun e => e.canton != c) }
  else if t = tyPinMap then { v with pins := v.pins.filter (fun e => e.canton != c) }
  else if t = tyInputGraph then
    { v with
      cams := v.cams.filter (fun e => e.canton != c), carriers := v.carriers.filter (fun p => !(v.pin 4 p.1).any (fun e => e.canton == c))
      wimg := v.wimg.filter (fun p => p.1 != c), srcs := v.srcs.filter (fun e => e.canton != c) }
  else if t = tyControlGraph then
    { v with
      slots := v.slots.filter (fun e => v.grpCanton e.group != some c), sels := v.sels.filter (fun e => v.grpCanton e.group != some c)
      groups := v.groups.filter (fun e => e.canton != c) }
  else if t = tyPlumbRules then { v with rules := v.rules.filter (fun r => r.canton != c) }
  else if t = tyPlumbFrames then { v with frames := v.frames.filter (fun e => e.canton != c) }
  else if t = tyImage then { v with images := dropCanton v.images c }
  else v

/-- The types of R65 that a restream replaces, later ones first. -/
def restreamTypes : List Nat :=
  [tyImage, tyPlumbFrames, tyPlumbRules, tyControlGraph, tyInputGraph, tyPinMap, tyTimeConfig, tySpdBanks, tyRegulators, tyCantonMap]

/-- The configuration that a stream starts from: none for a full load, and for a restream of c the running one without what the restream replaces of c. -/
def LatCfg.base (v : LatCfg) (c : Option Nat) (l : List Sect) : LatCfg :=
  match c with
  | none => {}
  | some k => (restreamTypes.filter (carries l)).foldl (fun (w : LatCfg) t => w.minus k t) v

/-- The configuration that a whole stream gives. -/
def LatCfg.after (v : LatCfg) (c : Option Nat) (l : List Sect) : LatCfg := l.foldl (fun (w : LatCfg) x => w.plus c.isNone x) (v.base c l)

/-! ### Checks -/

/-- Every check that relates sections. -/
def allRels : List Rel := cantonRels ++ ioRels ++ inputRels ++ ctlRels ++ plumbRels

/-- Whether a check is made at a section: of the types it relates, the section's is the last that the stream carries (R73). -/
def Rel.due (r : Rel) (l : List Sect) (t : Nat) : Bool := r.tags.contains t && !r.tags.any (fun u => decide (t < u) && carries l u)

/-- The canton that a stream restreams. -/
def streamCanton (l : List Sect) : Option Nat := if hdrKind (headerOf l) = 1 then some (hdrCanton (headerOf l)) else none

/-- CANTON_COUNT as a stream sees it. -/
def State.cantonCount (s : State) (l : List Sect) : Nat :=
  if (streamCanton l).isSome then s.fab.cfg.cantons else ((l.find? (fun x => x.type == tyGlobal)).map (fun x => b1 x.payload 1)).getD 8

/-- The checks that a section makes on its own content. -/
def State.ownChecks (s : State) (n : Nat) (c : Option Nat) (x : Sect) : List Nat :=
  let p := x.payload
  let t := x.type
  if t = tyGlobal then globalChecks p
  else if t = tyCantonMap then cmapChecks s.hbmBytes n x.target p
  else if t = tyNocRoutes then nocChecks p
  else if t = tyRegulators then regChecks s.hasChords p
  else if t = tySpdBanks then bankChecks s.hasSolver p
  else if t = tyPower then powerChecks p
  else if t = tyTimeConfig then s.timeChecks n c p
  else if t = tyPinMap then s.pinChecks n c p
  else if t = tyInputGraph then s.inputChecks n c p
  else if t = tyTokDict then tokChecks s.hbmBytes p
  else if t = tyControlGraph then s.ctlChecks n c p
  else if t = tyPlumbRules then s.ruleChecks n c p
  else if t = tyPlumbFrames then frameChecks n c p
  else if t = tyFirmware then firmwareChecks p
  else if t = tyImage then imageChecks p
  else []

/-- The checks of R65 to R67 and R74 on a section's type, target and place after the section before it. -/
def placeChecks (n : Nat) (c : Option Nat) (prev : Nat × Nat) (x : Sect) : List Nat :=
  match typeRow x.type with
  | none => [ckUnknownType]
  | some (canton, _, restream) =>
    ckIf (if canton then decide (n ≤ x.target) || c.any (fun k => x.target != k) else x.target != chipTarget) ckTarget ++
    ckIf (decide (x.type < prev.1 ∨ (x.type = prev.1 ∧ (x.target < prev.2 ∨ (x.target = prev.2 ∧ x.type ≠ tyImage) ∨ ¬ canton)))) ckOrder ++
    ckIf (c.isSome && !restream) ckScope

/-- Whether a full stream lacks a section that R65 requires. -/
def lacksSection (n : Nat) (l : List Sect) : Bool :=
  [tyGlobal, tyNocRoutes, tyTimeConfig, tyPinMap, tyPlumbRules, tyFirmware].any (fun t => !carries l t) ||
    [tyCantonMap, tyRegulators, tySpdBanks].any (fun t => (List.range n).any (fun k => !l.any (fun x => x.type == t && x.target == k)))

/-- The checks of the header that need the device: COMMAND_STATE for a stream of the wrong KIND (R77, R612), TARGET, and BASE_MISMATCH (R80). -/
def State.headerChecks (s : State) (boot : Bool) (l : List Sect) : List Nat :=
  match streamCanton l with
  | none => ckIf (!boot) ckCommandState
  | some k => ckIf boot ckCommandState ++ ckIf (decide (s.fab.cfg.cantons ≤ k)) ckTarget ++ ckIf (hdrBase (headerOf l) != s.digest R.FAB_CONFIG_DIGEST) ckBase

/-- The lowest of the checks that fail. -/
def lowestCode (l : List Nat) : Option Nat := l.foldl (fun (a : Option Nat) c => some (match a with
  | some b => Nat.min b c
  | none => c)) none

/-- The first section that fails a semantic check, going on from a place in the stream with the configuration read so far (R73). -/
def State.semFrom (s : State) (boot : Bool) (l : List Sect) (n : Nat) (c : Option Nat) : LatCfg → Nat × Nat → List Sect → Option LoadErr
  | _, _, [] => none
  | v, prev, x :: r =>
    let w := v.plus c.isNone x
    let fails :=
      if (typeRow x.type).isNone then [ckUnknownType]
      else if x.type = tyHeader then s.headerChecks boot l ++ (if x.index = 0 then [] else [ckOrder])
      else
        placeChecks n c prev x ++ s.ownChecks n c x ++ (allRels.filter (fun k => k.due l x.type && k.bad s w)).map (fun k => k.code) ++
          ckIf (x.type = tySignature && c.isNone && lacksSection n l) ckMissing
    match lowestCode fails with
    | some k => some (k, x.index)
    | none => s.semFrom boot l n c w (x.type, x.target) r

/-- The first failure of the semantic checks. -/
def State.semanticErr (s : State) (boot : Bool) (l : List Sect) : Option LoadErr :=
  let c := streamCanton l
  s.semFrom boot l (s.cantonCount l) c (s.fab.cfg.base c l) (0, 0) l

/-- The first check that the staged stream fails (R73); uncorrectable data in it fails DIGEST (R74). -/
def State.streamErr (s : State) (boot : Bool) : Option LoadErr :=
  let b := s.stagedBytes
  let l := (sectsOf b).1
  if s.staged.any (fun o => s.poisoned o.base o.len) then some (ckDigest, 0)
  else ((formatErr b).or (s.ownerErr l)).or ((vendorErr l).or (s.semanticErr boot l))

/-- The checks that COMMIT repeats on live state (R83): BASE_MISMATCH, OWNERSHIP, REGULATOR and GRADE. -/
def liveCheck (k : Nat) : Bool := k == ckBase || k == ckOwnership || k == ckRegulator || k == ckGrade

/-- The first failure of the live checks: the sections in their order, each with its lowest code. -/
def State.liveFrom (s : State) (l : List Sect) (n : Nat) (c : Option Nat) : LatCfg → List Sect → Option LoadErr
  | _, [] => none
  | v, x :: r =>
    let w := v.plus c.isNone x
    let fails := (if x.type = tyHeader then s.headerChecks false l
      else s.ownChecks n c x ++ (allRels.filter (fun k => k.due l x.type && k.bad s w)).map (fun k => k.code)).filter liveCheck
    match lowestCode fails with
    | some k => some (k, x.index)
    | none => s.liveFrom l n c w r

def State.liveErr (s : State) : Option LoadErr :=
  let l := s.stagedSects
  let c := streamCanton l
  s.liveFrom l (s.cantonCount l) c (s.fab.cfg.base c l) l

end Sys2Proof.Machine
end

