-- ==== Sys2Proof/Machine/RebindCanton.lean ====
section
/-! DEFINITION. What a full load and a rebind give a canton (R81, R83, R84): its cores, contexts and queues (R429, R430, R457, R461), KV record (R335, R339), regulators (R460), banks (R250 to R252) and program images (R195). -/

namespace Sys2Proof.Machine

/-- Returns the registers of an address range to their reset values. -/
def State.resetRange (s : State) (lo len : Nat) : State := { s with regs := s.regs.filter (fun p => !decide (lo ≤ p.1 ∧ p.1 < lo + len)) }

/-- A register value from fields. -/
def wordOfFields (l : List (Fld × Nat)) : Word := l.foldl (fun (w : Word) p => p.1.set w p.2) 0

/-- A Bool as a field value. -/
def bit1 (b : Bool) : Nat := if b then 1 else 0

/-! ### Commands that end at rebind (R84) -/

/-- A command ended ABORTED_DISABLED. -/
def abortDisabled (now : Word) (c : Cmd) : Cmd :=
  match c.phase with
  | .ended => c
  | .waiting => { c with phase := .ended, status := worse stAborted c.status, start := c.acc, stop := c.acc }
  | _ => { c with phase := .ended, status := worse stAborted c.status, stop := now }

/-- Ends the commands of a queue that meet a condition. -/
def State.abortQueue (s : State) (q : Nat) (p : Cmd → Bool) : State :=
  let s1 : State := match s.head q with
    | some c => if p c && c.phase == .suspended then (s.setSaved q none).ctxState c.context 1 else s
    | none => s
  s1.setQueue q { s1.queue q with cmds := (s1.queue q).cmds.map (fun c => if p c then abortDisabled s1.now c else c) }

/-- Ends the commands of all queues of a canton that meet a condition. -/
def State.abortIn (s : State) (c : Nat) (p : Nat → Cmd → Bool) : State :=
  (s.queues.map (fun e => e.1)).foldl (fun (t : State) q => if t.qBound q && t.qCanton q == c then t.abortQueue q (p q) else t) s

/-- Retires up to n commands of a queue. -/
def State.completeN (s : State) (q : Nat) : Nat → State
  | 0 => s
  | n + 1 => (s.complete q).completeN q n

/-! ### KV record (R335, R336, R339) -/

/-- Reads the descriptors behind entries; an uncorrectable one is withdrawn. -/
def KvWork.settle (w : KvWork) (c : KvCtx) : List (Nat × KvEnt) → KvWork
  | [] => w
  | x :: r => match w.scan [x] with
    | (v, some i) => (v.lose c i).settle c r
    | (v, none) => v.settle c r

/-- Closes a context in the KV page manager, as CLOSE does. -/
def State.kvClose (s : State) (x : Nat) : State :=
  if s.bit (R.KV_CTX_STAT x) F.KV_CTX_STAT_OPEN then
    let k := s.kvCtx x
    let w : KvWork := { s := s, ls := s.kvLists k }
    let v := w.settle k (w.entries 0 w.ls.length)
    (v.emptyLists k k.layers).s.kvShut k
  else s

/-- The bytes that withdrawn blocks take from a pool. -/
def State.withdrawnIn (s : State) (base len : Nat) : Nat :=
  s.kv.blocks.foldl (fun (a : Nat) b => a + (Nat.min (b.1 + b.2) (base + len) - Nat.max b.1 base)) 0

/-- The classes of a canton. -/
def State.setKvClasses (s : State) (c : Nat) (l : List KvClass) : State :=
  { s with kv := { s.kv with classes := (List.range 8).foldl (fun (m : List (Nat × KvClass)) k => Store.set (fun _ => ({} : KvClass)) m (c * 8 + k) (l.getD k {})) s.kv.classes } }

/-- Gives a canton a KV record, or none, over an empty pool (R339). -/
def State.putKvRec (s : State) (c : Nat) (r : Option KvRec) : State :=
  match r with
  | none => (s.resetRange (R.KV_POOL_CFG c) 0x20).setKvClasses c []
  | some r =>
    let s1 := s.setReg (R.KV_POOL_CFG c) (wordOfFields [(F.KV_POOL_CFG_ACTIVE, 1), (F.KV_POOL_CFG_BASE, r.poolBase / 2 ^ 21)])
    let free := (r.poolLen - s.withdrawnIn r.poolBase r.poolLen) / 4096
    let s2 := s1.setReg (R.KV_POOL_USE c) (wordOfFields [(F.KV_POOL_USE_FREE_4K, free), (F.KV_POOL_USE_LEN_4K, r.poolLen / 4096)])
    let s3 := s2.setReg (R.KV_IDX_CFG c) (wordOfFields [(F.KV_IDX_CFG_COUNT, r.idxCount), (F.KV_IDX_CFG_BASE, r.idxBase)])
    (s3.setReg (R.KV_IDX_USE c) 0).setKvClasses c r.classes

/-- Marks invalid what descriptors a range of indices still has in use. -/
def State.dropDescs (s : State) (lo n : Nat) : State :=
  (s.kv.idx.filter (fun p => p.2 == 1 && decide (lo ≤ p.1 ∧ p.1 < lo + n))).foldl
    (fun (t : State) p => (t.putDesc p.1 { t.kvDesc p.1 with valid := false }).setIdx p.1 0) s

/-- A KV record that differs from the running one: contexts close, the old range is invalid, KV commands of the canton end (R335). -/
def State.switchKv (s : State) (c : Nat) (ctxs : List Nat) (old new : Option KvRec) : State :=
  if old = new then s
  else
    let s1 := ctxs.foldl (fun (t : State) x => t.kvClose x) s
    let s2 := match old with
      | some r => s1.dropDescs r.idxBase r.idxCount
      | none => s1
    (s2.abortIn c (fun q _ => s2.qUnit q == 4)).putKvRec c new

/-! ### CANTON_MAP -/

def CMap.ctxs (m : CMap) : List Nat := (List.range m.ctxCount).map (fun i => m.ctxBase + i)

def QEnt.nums (e : QEnt) : List Nat := (List.range e.count).map (fun i => e.first + i)

def CMap.queueNums (m : CMap) : List Nat := m.queues.flatMap QEnt.nums

/-- A canton map without anything. -/
def CMap.empty : CMap := { coreMask := 0, ctxBase := 0, ctxCount := 0, saveBase := 0, saveStride := 0, kv := none, queues := [], windows := [] }

/-- QUE_CFG of a queue of an entry (R462). -/
def QEnt.cfg (e : QEnt) (c : Nat) : Word :=
  wordOfFields [(F.QUE_CFG_ACTIVE, 1), (F.QUE_CFG_CANTON, c), (F.QUE_CFG_UNIT, e.unit), (F.QUE_CFG_INSTANCE, e.inst), (F.QUE_CFG_LC, e.rank / 128),
    (F.QUE_CFG_PRIO, e.rank % 8), (F.QUE_CFG_SOLVER_FED, e.flags), (F.QUE_CFG_VECTOR, e.vector)]

/-- Takes a queue from its canton: its commands complete ABORTED_DISABLED, its sequence state stays (R84). -/
def State.dropQueue (s : State) (q : Nat) : State :=
  let s1 := s.abortQueue q (fun _ => true)
  ((s1.completeN q (s1.queue q).cmds.length).setReg (R.QUE_CFG q) 0).updIdle q

/-- Binds a queue: a solver-fed one is enabled (R457); a command in flight for another unit cannot go on. -/
def State.bindQueue (s : State) (c : Nat) (e : QEnt) (q : Nat) : State :=
  let moved := s.qBound q && (s.qUnit q != e.unit || (s.qInst q != e.inst && e.unit != 1))
  let s1 := if moved then s.abortQueue q (fun d => d.phase != .waiting) else s
  let s2 := s1.setReg (R.QUE_CFG q) (e.cfg c)
  if e.flags % 2 = 1 then (s2.setFld (R.QUE_CTL q) F.QUE_CTL_DISABLE 0).updIdle q else s2

/-- Takes a context from its canton: it closes in the KV manager, its record is as after reset (R335, R446). -/
def State.dropCtx (s : State) (x : Nat) : State := (s.kvClose x).resetRange (R.SCH_CTX_STAT x) 0x20

/-- Gives a context its save area, and to a new one its record (R429, R457, R461). -/
def State.bindCtx (s : State) (c : Nat) (m : CMap) (x : Nat) : State :=
  let s1 := if s.cantonOfCtx x = some c then s
    else s.setReg (R.SCH_CTX_STAT x) (wordOfFields [(F.SCH_CTX_STAT_VALID, 1), (F.SCH_CTX_STAT_CANTON, c), (F.SCH_CTX_STAT_STATE, 1)])
  s1.setReg (R.SCH_CTX_SAVE x) (BitVec.ofNat 64 (m.saveBase + (x - m.ctxBase) * m.saveStride))

/-- The cores of a mask. -/
def coresOf (mask : Nat) : List Nat := (List.range 16).filter (fun n => mask.testBit n)

/-- Applies a canton map over the one that ran before. -/
def State.applyMap (s : State) (c : Nat) (old m : CMap) : State :=
  let leaves := old.ctxs.filter (fun x => !m.ctxs.contains x)
  let s1 := s.abortIn c (fun _ d => leaves.contains d.context)
  let s2 := s1.switchKv c old.ctxs old.kv m.kv
  let nums := m.queueNums
  let s3 := (old.queueNums.filter (fun q => !nums.contains q)).foldl (fun (t : State) q => t.dropQueue q) s2
  let s4 := leaves.foldl (fun (t : State) x => t.dropCtx x) s3
  let s5 := m.queues.foldl (fun (t : State) e => e.nums.foldl (fun (u : State) q => u.bindQueue c e q) t) s4
  let s6 := m.ctxs.foldl (fun (t : State) x => t.bindCtx c m x) s5
  let s7 := (coresOf old.coreMask).foldl (fun (t : State) n => t.setFld (R.CORE_STATUS n) F.CORE_STATUS_CANTON 0) s6
  let s8 := (coresOf m.coreMask).foldl (fun (t : State) n => t.setFld (R.CORE_STATUS n) F.CORE_STATUS_CANTON c) s7
  let s9 := (s8.setFld (R.FAB_CANTON c) F.FAB_CANTON_ACTIVE 1).setFld (R.FAB_CANTON c) F.FAB_CANTON_CORE_MASK m.coreMask
  let s10 := s9.setReg (R.SCH_CANTON_CFG c) (wordOfFields [(F.SCH_CANTON_CFG_ACTIVE, 1), (F.SCH_CANTON_CFG_QUEUES, nums.length),
    (F.SCH_CANTON_CFG_CTX_COUNT, m.ctxCount), (F.SCH_CANTON_CFG_CTX_BASE, m.ctxBase)])
  { s10 with windows := Store.set (fun _ => []) s10.windows c m.windows }

/-! ### REGULATORS (R454, R460) -/

/-- SCH_REG of a bucket: a kind without an entry has rate zero and SOAK. -/
def regWord (es : List RegEnt) (k : Nat) : Word :=
  match es.find? (fun e => bucketOf e == k) with
  | some e => wordOfFields [(F.SCH_REG_SOAK, bit1 e.soak), (F.SCH_REG_BURST, e.burst), (F.SCH_REG_RATE, e.rate)]
  | none => wordOfFields [(F.SCH_REG_SOAK, 1)]

/-- Sets the regulators of a canton. -/
def State.applyRegs (s : State) (c : Nat) (es : List RegEnt) : State :=
  (List.range 7).foldl (fun (t : State) k => t.setReg (R.SCH_REG c k) (regWord es k)) s

/-! ### SPD_BANKS (R250 to R252, R270) -/

def BankEnt.banks (e : BankEnt) : List Nat := (List.range (2 ^ e.log2)).map (fun i => e.first + i)

/-- The region that a bank of a core forms when no entry lists it (R251). -/
def coreRegion (b : Nat) : BankEnt := { first := b, log2 := 0, view := 0, owner := b / 64, sharedWrite := false, power := 0 }

/-- Lays a region: its owner, view and power; a bank of an inactive core stays OFF (R251). -/
def State.layRegion (s : State) (c : Nat) (e : BankEnt) : State :=
  let cfg := wordOfFields [(F.SPD_BANK_CFG_ASSIGNED, 1), (F.SPD_BANK_CFG_CANTON, c), (F.SPD_BANK_CFG_VIEW, e.view), (F.SPD_BANK_CFG_LOG2_BANKS, e.log2),
    (F.SPD_BANK_CFG_REGION_FIRST, e.first)]
  let s1 := e.banks.foldl (fun (t : State) b =>
    let o := R.SPD_BANK_OWNER b
    (((t.setReg (R.SPD_BANK_CFG b) cfg).setFld o F.SPD_BANK_OWNER_OWNER e.owner).setBit o F.SPD_BANK_OWNER_SHARED_WRITE e.sharedWrite).setFld o F.SPD_BANK_OWNER_PENDING 0) s
  s1.powerTo e.first (if e.first < 1024 ∧ s.coreActive (e.first / 64) = false then 2 else e.power)

/-- Takes a bank from its canton; its contents and power stay. -/
def State.freeBank (s : State) (b : Nat) : State := (s.setReg (R.SPD_BANK_CFG b) 0).setReg (R.SPD_BANK_OWNER b) (resetVal (R.SPD_BANK_OWNER b))

/-- The banks of a core. -/
def coreBanks (n : Nat) : List Nat := (List.range 64).map (fun k => n * 64 + k)

/-- Lays the banks of some cores of a canton: listed regions, and one-bank regions of what no entry lists. -/
def State.layCores (s : State) (c : Nat) (cores : List Nat) (es : List BankEnt) : State :=
  let listed := es.filter (fun e => decide (e.first < 1024) && cores.contains (e.first / 64))
  let taken := listed.flatMap BankEnt.banks
  let s1 := ((cores.flatMap coreBanks).filter (fun b => !taken.contains b)).foldl (fun (t : State) b => t.layRegion c (coreRegion b)) s
  listed.foldl (fun (t : State) e => t.layRegion c e) s1

/-- The shared banks of entries. -/
def sharedOf (es : List BankEnt) : List Nat := (es.filter (fun e => decide (1024 ≤ e.first))).flatMap BankEnt.banks

/-- Applies the banks of a canton over those it had: released shared banks are zero-filled (R83, R252); without an SPD_BANKS section only the banks of gained and lost cores change. -/
def State.applyBanks (s : State) (c oldMask mask : Nat) (carried : Bool) (old es : List BankEnt) : State :=
  let gone := (coresOf oldMask).filter (fun n => !mask.testBit n)
  let s1 := (gone.flatMap coreBanks).foldl (fun (t : State) b => t.freeBank b) s
  let s2 := s1.layCores c (if carried then coresOf mask else (coresOf mask).filter (fun n => !oldMask.testBit n)) es
  if carried then
    let keep := sharedOf es
    let s3 := ((sharedOf old).filter (fun b => !keep.contains b)).foldl (fun (t : State) b => (t.freeBank b).clearBank b) s2
    let s4 := (es.filter (fun e => decide (1024 ≤ e.first))).foldl (fun (t : State) e => t.layRegion c e) s3
    s4.setFld (R.FAB_CANTON c) F.FAB_CANTON_SHARED_BANKS keep.length
  else s2

/-! ### PROGRAM_IMAGE (R195) -/

/-- Adds an image to a core, behind those it holds. -/
def Core.addImage (k : Core) (c : Nat) (e : ImgEnt) : Core :=
  let first := k.images.foldl (fun (a : Nat) i => a + i.bundles) 0
  let im : Image := { id := e.id, first := first, bundles := e.bundles.length, entries := e.entries, yields := e.yields, descs := e.descs, mask := BitVec.ofNat 16 e.mask, canton := c }
  { k with images := k.images ++ [im]
           imem := e.bundles.zipIdx.foldl (fun (m : List (Nat × BitVec 256)) p => Store.set (fun _ => 0) m (first + p.2) p.1) k.imem }

/-- Loads a core with the images of its canton that name it. -/
def State.loadCore (s : State) (v : LatCfg) (n : Nat) : State :=
  let k : Core := { s.core n with images := [], imem := [] }
  let k1 := match v.maps.find? (fun p => p.2.coreMask.testBit n) with
    | some p => (((ofCanton v.images p.1).getD []).filter (fun e => e.mask.testBit n)).foldl (fun (k : Core) e => k.addImage p.1 e) k
    | none => k
  (s.setCore n k1).setFld (R.CORE_STATUS n) F.CORE_STATUS_IMEM_BUNDLES (k1.images.foldl (fun (a : Nat) i => a + i.bundles) 0)

end Sys2Proof.Machine
end

