-- ==== Sys2Proof/Machine/Tokenizer.lean ====
section
/-! DEFINITION. The tokenizer (R160 to R165). -/

namespace Sys2Proof.Machine

/-- Whether bytes are well-formed UTF-8 (RFC 3629); lo and hi bound the next byte, n more are due. -/
def utf8From : Nat → Nat → Nat → List Byte → Bool
  | 0, _, _, [] => true
  | _ + 1, _, _, [] => false
  | 0, _, _, b :: r =>
    let v := b.toNat
    if v < 0x80 then utf8From 0 0 0 r
    else if 0xC2 ≤ v ∧ v ≤ 0xDF then utf8From 1 0x80 0xBF r
    else if v = 0xE0 then utf8From 2 0xA0 0xBF r
    else if v = 0xED then utf8From 2 0x80 0x9F r
    else if 0xE1 ≤ v ∧ v ≤ 0xEF then utf8From 2 0x80 0xBF r
    else if v = 0xF0 then utf8From 3 0x90 0xBF r
    else if 0xF1 ≤ v ∧ v ≤ 0xF3 then utf8From 3 0x80 0xBF r
    else if v = 0xF4 then utf8From 3 0x80 0x8F r
    else false
  | n + 1, lo, hi, b :: r => if lo ≤ b.toNat ∧ b.toNat ≤ hi then utf8From n 0x80 0xBF r else false

/-- Whether input is well-formed UTF-8. -/
def utf8Ok (l : List Byte) : Bool := utf8From 0 0 0 l

/-- An entry of TOK_DICT from its 64 bytes (R160): one with a length of 0 or above 48 is unused. -/
def tokEntry (l : List Byte) : TokEntry :=
  let n := byteVal l 52
  ⟨if n ≤ 48 then l.take n else [], BitVec.ofNat 32 (sliceN l 48 4)⟩
where
  byteVal (l : List Byte) (i : Nat) : Nat := (l.getD i 0).toNat

/-- Whether an entry's string stands at the start of the input (R161). -/
def TokEntry.fits (e : TokEntry) (l : List Byte) : Bool := !e.bytes.isEmpty && e.bytes.isPrefixOf l

/-- The entry with the longest string that stands at the start of the input, among equal strings the first; i is the index of the first entry (R161). -/
def tokBest (l : List Byte) : Nat → List TokEntry → Option (Nat × TokEntry)
  | _, [] => none
  | i, e :: r =>
    match tokBest l (i + 1) r with
    | none => if e.fits l then some (i, e) else none
    | some b => if e.fits l ∧ b.2.bytes.length ≤ e.bytes.length then some (i, e) else some b

/-- What the tokenizer has emitted: the tokens, the bytes consumed, and whether bad data stopped it. -/
structure TokRun where
  toks : List Nat := []
  pos : Nat := 0
  stopped : Bool := false
  deriving DecidableEq, Repr

/-- Puts a token of n bytes before the others. -/
def TokRun.cons (x : TokRun) (t n : Nat) : TokRun := { x with toks := t :: x.toks, pos := x.pos + n }

/-- The matching loop (R161) over the input with a mark on each bad byte: at most cap tokens. It stops where the window of a match reaches a bad byte, and where the match is an entry that the refetch left bad (R165; log 49). The first number bounds the positions. -/
def tokLoop (es : List TokEntry) (bad : List Nat) (base : Nat) : Nat → Nat → List (Byte × Bool) → TokRun
  | 0, _, _ => {}
  | _, 0, _ => {}
  | _, _, [] => {}
  | fuel + 1, cap + 1, (b, x) :: l =>
    let win := (b, x) :: l.take 47
    if win.any (fun p => p.2) then { stopped := true }
    else
      match tokBest (win.map (fun p => p.1)) 0 es with
      | some (i, e) =>
        if bad.contains i then { stopped := true }
        else (tokLoop es bad base fuel cap (l.drop (e.bytes.length - 1))).cons e.token.toNat e.bytes.length
      | none => (tokLoop es bad base fuel cap l).cons ((base + b.toNat) % 2 ^ 32) 1

/-- An entry that the SRAM lost is read again from the HBM copy; a poisoned copy leaves it bad (R165). -/
def State.tokRefetch (s : State) (i : Nat) : State :=
  let a := s.fld R.TOK_DICT_BASE F.TOK_DICT_BASE_ADDR * 4096 + 64 * i
  let s1 := s.satAdd R.TOK_STAT F.TOK_STAT_REFETCH 1
  if s.poisoned a 64 then { s1 with tok := { s1.tok with bad := i :: s1.tok.bad.filter (fun j => j != i) } }
  else { s1 with tok := { s1.tok with entries := s1.tok.entries.set i (tokEntry (s.rdBytes a 64)) } }

/-- TOKENIZE (R161 to R165): the longest strings of the dictionary replace the input; ecc lists the entries whose SRAM copy was found uncorrectable, and done counts the tokens that a command cut by its expiry has emitted. -/
def execTokenize (q : BitVec 16) (done : Nat) (ecc : List (BitVec 17)) (s : State) : Out :=
  .next (s.onUnit q.toNat 2 (fun c _ =>
    let n := q.toNat
    let g := unitAgent 0x100 (s.qCanton n)
    let len := c.pl 8 8
    let out := c.pl 16 8
    let cap := c.pl 24 8
    if c.opcode ≠ 1 ∨ cap = 0 ∨ !zeroBytes c.desc 56 8 then (s.rejectUnit n).wrapAdd R.TOK_STAT F.TOK_STAT_COMMANDS 1
    else
      let again := (ecc.map (fun i => i.toNat)).filter (fun i => !s.tok.bad.contains i)
      let s1 := again.foldl (fun (t : State) i => t.tokRefetch i) s
      let x := s1.unitRead g (c.pl 0 8) len
      if x.1.wait then s
      else
        let marked := (List.range len).map (fun i => let y := s1.readByte g (c.pl 0 8 + i); (y.bytes.headD 0, y.bad))
        let lim := if c.cut then min cap done else cap
        let run := tokLoop s1.tok.entries s1.tok.bad (s.fld R.TOK_CFG F.TOK_CFG_BYTE_BASE) len lim marked
        let w := x.2.writeMem g out (leBytes run.toks.length 8 ++ leBytes run.pos 8 ++ run.toks.flatMap (fun t => leBytes t 4))
        if w.wait then s
        else
          let full := !c.cut && !run.stopped && run.toks.length == cap && decide (run.pos < len)
          let fl : BitVec 24 := x.1.flags ||| w.flags ||| (if full then flagBit 13 else 0) ||| (if utf8Ok x.1.bytes then 0 else flagBit 14) |||
            (if again.isEmpty then 0 else flagBit 15)
          ((w.state.cmdFlags n fl).endUnit n (if run.stopped then stIntegrity else stDone)).wrapAdd R.TOK_STAT F.TOK_STAT_COMMANDS 1))

end Sys2Proof.Machine
end

