-- ==== Sys2Proof/Machine/RebindIo.lean ====
section
/-! DEFINITION. What a full load and a rebind install in the shared tables (R81, R87, R88): compares (R118), pins (R395), the input graph (R135), the control graph (R368, R386), Plumb's tables (R511, R517, R533), and the full load's power settings, dictionary and mode. -/

namespace Sys2Proof.Machine

/-! ### TIME_CONFIG (R118, R119) -/

def State.dropCmp (s : State) (n : Nat) : State := ((s.resetRange (R.TIME_CMP_CFG n) 0x20).setDue n none).setArmed n false

/-- Installs a compare: it starts at this instant (R118). -/
def State.putCmp (s : State) (e : CmpEnt) : State :=
  let o := R.TIME_CMP_CFG e.num
  let s1 := ((((s.setFld o F.TIME_CMP_CFG_ACTIVE 1).setFld o F.TIME_CMP_CFG_CANTON e.canton).setFld o F.TIME_CMP_CFG_MODE e.mode).setFld
    o F.TIME_CMP_CFG_KIND e.kind).setFld o F.TIME_CMP_CFG_INDEX e.index
  (s1.setReg (R.TIME_CMP_TIMING e.num) (wordOfFields [(F.TIME_CMP_TIMING_PHASE_NS, e.phase), (F.TIME_CMP_TIMING_PERIOD_NS, e.period)])).cmpStart e.num

/-- Replaces compares. -/
def State.applyCmps (s : State) (old new : List CmpEnt) : State :=
  let s1 := (old.filter (fun e => !new.any (fun x => x.num == e.num))).foldl (fun (t : State) e => t.dropCmp e.num) s
  new.foldl (fun (t : State) e => t.putCmp e) s1

/-! ### PIN_MAP (R395, R425) -/

/-- Takes the entry of a resource, given as class × 64 + index: its registers read as zero. -/
def State.dropPin (s : State) (k : Nat) : State :=
  let i := k % 64
  match k / 64 with
  | 0 => (s.resetRange (R.SIO_SP_CFG i) 0x40).setSport i {}
  | 1 => { s.resetRange (R.SIO_CONV_CFG i) 8 with io := { s.io with conv := Store.set (fun _ => none) s.io.conv i none } }
  | 2 => (s.resetRange (R.SIO_ACT_CFG i) 0x20).setAct i {}
  | 3 => (s.resetRange (R.CAN_CFG i) 0x10000).setCan i {}
  | _ => s.resetRange (R.ETH_CFG i) 0x100

/-- The configuration word of an entry, with ACTIVE and CANTON from its header. -/
def PinEnt.cfg (e : PinEnt) (active canton : Fld) : Word := canton.set (active.set (e.word 0) 1) e.canton

/-- Installs the entry of a resource; ctrl is CAN_CTRL of Plumb's global header (R415). -/
def State.putPin (s : State) (ctrl : Nat) (e : PinEnt) : State :=
  let i := e.index
  match e.cls with
  | 0 => ((s.setReg (R.SIO_SP_CFG i) (e.cfg F.SIO_SP_CFG_ACTIVE F.SIO_SP_CFG_CANTON)).setReg (R.SIO_SP_WORDA i) (e.word 1)).setReg (R.SIO_SP_WORDB i) (e.word 2)
  | 1 => s.setReg (R.SIO_CONV_CFG i) (e.cfg F.SIO_CONV_CFG_ACTIVE F.SIO_CONV_CFG_CANTON)
  | 2 => (if pairedMode e.actMode then [i, i + 1] else [i]).foldl (fun (t : State) a =>
      (t.setReg (R.SIO_ACT_CFG a) (e.cfg F.SIO_ACT_CFG_ACTIVE F.SIO_ACT_CFG_CANTON)).setReg (R.SIO_ACT_TIMING a) (e.word 1)) s
  | 3 =>
    let cfg := F.CAN_CFG_PLUMB.set (e.cfg F.CAN_CFG_ACTIVE F.CAN_CFG_CANTON) (bit1 (ctrl == i))
    let s1 := ((s.setReg (R.CAN_CFG i) cfg).setReg (R.CAN_NBT i) (e.word 1)).setReg (R.CAN_DBT i) (e.word 2)
    let s2 := (s1.resetRange (R.CAN_MB_CTRL i 0) 0x2000).setCan i {}
    if s2.bit (R.CAN_CTL i) F.CAN_CTL_DISABLE then s2 else s2.canIntegrate i
  | _ =>
    let cfg := F.ETH_CFG_LINK.set (e.cfg F.ETH_CFG_ACTIVE F.ETH_CFG_CANTON) (s.fld (R.ETH_CFG i) F.ETH_CFG_LINK)
    ((((s.setReg (R.ETH_CFG i) cfg).setReg (R.ETH_MAC i) (e.word 1)).setReg (R.ETH_IP4 i) (e.word 2)).setReg (R.ETH_IP6_HI i) (e.word 3)).setReg
      (R.ETH_IP6_LO i) (e.word 4) |>.setReg (R.ETH_RX i) (e.word 5)

/-- Ends what a sensor port, converter start or actuator output has in progress; its registers stay. -/
def State.restPin (s : State) (k : Nat) : State :=
  match k / 64 with
  | 0 => s.setSport (k % 64) {}
  | 1 => { s with io := { s.io with conv := Store.set (fun _ => none) s.io.conv (k % 64) none } }
  | 2 => s.setAct (k % 64) {}
  | _ => s

/-- Replaces pins. -/
def State.applyPins (s : State) (ctrl : Nat) (old new : List PinEnt) : State :=
  let claims := new.flatMap PinEnt.claims
  let s1 := ((old.flatMap PinEnt.claims).filter (fun k => !claims.contains k)).foldl (fun (t : State) k => t.dropPin k) s
  let s2 := claims.foldl (fun (t : State) k => t.restPin k) s1
  new.foldl (fun (t : State) e => t.putPin ctrl e) s2

/-! ### INPUT_GRAPH (R133 to R135) -/

/-- GATED of every port: the target of a KIND 3 compare (R145). -/
def State.regate (s : State) (v : LatCfg) : State :=
  (List.range 16).foldl (fun (t : State) p =>
    if t.bit (R.IMG_PORT_CFG p) F.IMG_PORT_CFG_ACTIVE then
      t.setBit (R.IMG_PORT_CFG p) F.IMG_PORT_CFG_GATED (v.cmps.any (fun e => e.kind == 3 && e.index == p))
    else t) s

def State.putCam (s : State) (e : CamEnt) : State :=
  (s.setReg (R.IMG_PORT_CFG e.port) (F.IMG_PORT_CFG_CANTON.set (F.IMG_PORT_CFG_ACTIVE.set e.cfg 1) e.canton)).setCamPort e.port
    { s.camPort e.port with armed := none }

def State.putSrc (s : State) (e : SrcEnt) : State :=
  let k := e.src
  let s1 := ((s.setReg (R.IMG_SRC_CFG k) (F.IMG_SRC_CFG_CANTON.set (F.IMG_SRC_CFG_ACTIVE.set e.cfg 1) e.canton)).setReg (R.IMG_SRC_LIMIT k) e.limit).setReg
    (R.IMG_SRC_JPEG k) e.jpeg
  let s2 := (s1.setFld (R.IMG_SRC_STAT k) F.IMG_SRC_STAT_READY_BUFS 0).setFld (R.IMG_SRC_STAT k) F.IMG_SRC_STAT_FREE_BUFS (F.IMG_SRC_CFG_NBUF.get e.cfg)
  s2.setImgSrc k
    { bufBase := e.bufBase, recBase := e.recBase, recLog2 := e.recLog2, reasmBase := e.reasmBase, ethPort := e.ethPort, matrix := e.matrix, offset := e.offset
      mean := e.mean, scale := e.scale, nextSeq := (s.imgSrc k).nextSeq, closed := (s.imgSrc k).closed, done := (s.imgSrc k).done }

/-- Takes a source: its sequence counter goes on (R139). -/
def State.dropSrc (s : State) (k : Nat) : State :=
  (s.resetRange (R.IMG_SRC_CFG k) 0x40).setImgSrc k { nextSeq := (s.imgSrc k).nextSeq, closed := (s.imgSrc k).closed }

/-- Replaces camera ports, carrier ports and sources; the samples in progress of those replaced are aborted. -/
def State.applyInput (s : State) (oldC newC : List CamEnt) (oldE newE : List (Nat × Nat)) (oldS newS : List SrcEnt) : State :=
  let s1 := oldS.foldl (fun (t : State) e => t.imgAbortAll e.src) s
  let s2 := (oldS.filter (fun e => !newS.any (fun x => x.src == e.src))).foldl (fun (t : State) e => t.dropSrc e.src) s1
  let s3 := (oldC.filter (fun e => !newC.any (fun x => x.port == e.port))).foldl
    (fun (t : State) e => (t.resetRange (R.IMG_PORT_CFG e.port) 0x40).setCamPort e.port {}) s2
  let s4 := (oldE.filter (fun p => !newE.any (fun x => x.1 == p.1))).foldl (fun (t : State) p => t.resetRange (R.IMG_ETH_CFG p.1) 0x10) s3
  let s5 := newC.foldl (fun (t : State) e => t.putCam e) s4
  let s6 := newE.foldl (fun (t : State) p => t.setFld (R.IMG_ETH_CFG p.1) F.IMG_ETH_CFG_UDP_PORT p.2) s5
  newS.foldl (fun (t : State) e => t.putSrc e) s6

/-! ### CONTROL_GRAPH (R367, R368, R386) -/

def State.putGroup (s : State) (slots : List SlotEnt) (outage : Bool) (e : GrpEnt) : State :=
  (s.setReg (R.CTL_GROUP_CFG e.group) (wordOfFields [(F.CTL_GROUP_CFG_ACTIVE, 1), (F.CTL_GROUP_CFG_CANTON, e.canton), (F.CTL_GROUP_CFG_COMPARE, e.compare),
    (F.CTL_GROUP_CFG_SLOTS, (slots.filter (fun x => x.group == e.group)).length), (F.CTL_GROUP_CFG_PHI_OUT_4NS, e.phi / 4)])).setGrp e.group { outage := outage }

/-- Installs a slot with zero histories, zero input registers and clear flags (R386). -/
def State.putCtlSlot (s : State) (groups : List GrpEnt) (e : SlotEnt) : State :=
  let c := ((groups.find? (fun g => g.group == e.group)).map (fun g => g.canton)).getD 0
  ((s.resetRange (R.CTL_SLOT_CFG e.slot) 0x20).setReg (R.CTL_SLOT_CFG e.slot) (wordOfFields [(F.CTL_SLOT_CFG_ACTIVE, 1), (F.CTL_SLOT_CFG_CANTON, c),
    (F.CTL_SLOT_CFG_GROUP, e.group), (F.CTL_SLOT_CFG_Q, e.q), (F.CTL_SLOT_CFG_TRACK, bit1 e.track), (F.CTL_SLOT_CFG_OUT_BOUND, bit1 e.bound),
    (F.CTL_SLOT_CFG_OUT_INDEX, e.outIndex), (F.CTL_SLOT_CFG_OUT_SHIFT, e.outShift), (F.CTL_SLOT_CFG_SRC_A, e.opA.src), (F.CTL_SLOT_CFG_SRC_B, e.opB.src)])).setSlot
    e.slot { coef := e.coef, limLo := e.limLo, limHi := e.limHi, opA := e.opA, opB := e.opB }

def State.putSel (s : State) (e : SelEnt) : State :=
  (s.setReg (R.CTL_SEL_STAT e.select) (wordOfFields [(F.CTL_SEL_STAT_ACTIVE, 1), (F.CTL_SEL_STAT_GROUP, e.group)])).setSel e.select
    { members := e.members, outBound := e.bound, outIndex := e.outIndex, outShift := e.outShift }

/-- Disarms the trace sets of rate groups; a record that is DONE stays (R386). -/
def State.disarm (s : State) (gs : List Nat) : State :=
  (List.range 4).foldl (fun (t : State) i =>
    if gs.contains (t.traceGroup i) && (t.traceState i == 1 || t.traceState i == 2) then
      (t.setFld (R.CTL_TRACE_STAT i) F.CTL_TRACE_STAT_STATE 0).setTrace i {}
    else t) s

/-- Replaces rate groups, slots and min-select groups. outage: the canton's groups stay in the outage of its restream until resume (R85). -/
def State.applyControl (s : State) (outage : Bool) (og ng : List GrpEnt) (os ns : List SlotEnt) (om nm : List SelEnt) : State :=
  let s1 := s.disarm ((og ++ ng).map (fun e => e.group))
  let s2 := (os.filter (fun e => !ns.any (fun x => x.slot == e.slot))).foldl (fun (t : State) e => (t.resetRange (R.CTL_SLOT_CFG e.slot) 0x20).setSlot e.slot {}) s1
  let s3 := (om.filter (fun e => !nm.any (fun x => x.select == e.select))).foldl (fun (t : State) e => (t.setReg (R.CTL_SEL_STAT e.select) 0).setSel e.select {}) s2
  let s4 := (og.filter (fun e => !ng.any (fun x => x.group == e.group))).foldl (fun (t : State) e => (t.resetRange (R.CTL_GROUP_CFG e.group) 0x20).setGrp e.group {}) s3
  let s5 := ng.foldl (fun (t : State) e => t.putGroup ns outage e) s4
  nm.foldl (fun (t : State) e => t.putSel e) (ns.foldl (fun (t : State) e => t.putCtlSlot ng e) s5)

/-! ### Plumb (R511, R517, R533) -/

/-- PLB_CFG and PLB_CAN from the global header (R536). -/
def State.putPlHdr (s : State) (h : List Byte) : State :=
  let cfg := wordOfFields [(F.PLB_CFG_PENNANT_PERIOD_US, b4 h 0), (F.PLB_CFG_GUARD_US, b2 h 4), (F.PLB_CFG_CAN_CTRL, hdrCtrl h),
    (F.PLB_CFG_CAN_IDE, b1 h 7 / 2 % 2), (F.PLB_CFG_COV_INVALIDATES, b1 h 7 % 2)]
  (s.setReg R.PLB_CFG cfg).setReg R.PLB_CAN (wordOfFields [(F.PLB_CAN_REPEAT_MS, b2 h 12), (F.PLB_CAN_CAN_ID, b4 h 8)])

/-- Takes a registration with what waits for it. -/
def State.dropFrame (s : State) (f : Nat) : State :=
  let s1 := (s.resetRange (R.PLB_REG_CFG f) 0x20).setPlReg f {}
  { s1 with plumb := { s1.plumb with
    msgs := s1.plumb.msgs.filter (fun m => m.reg != f)
    last := Store.set (fun _ => none) s1.plumb.last f none
    repeatAt := s1.plumb.repeatAt.filter (fun p => p.1 != f) } }

/-- Installs a registration: INVALID with count 0 (R533). -/
def State.putFrame (s : State) (e : FrameEnt) : State :=
  let s1 := (s.dropFrame e.reg).setReg (R.PLB_REG_CFG e.reg) (wordOfFields [(F.PLB_REG_CFG_ACTIVE, 1), (F.PLB_REG_CFG_CANTON, e.canton), (F.PLB_REG_CFG_KIND, bit1 e.latch),
    (F.PLB_REG_CFG_GROUP, e.group), (F.PLB_REG_CFG_N, e.n), (F.PLB_REG_CFG_M, e.m), (F.PLB_REG_CFG_W, e.w), (F.PLB_REG_CFG_FLAGS, e.flags),
    (F.PLB_REG_CFG_DEP_CANTONS, e.deps), (F.PLB_REG_CFG_ITEMS_MAX, e.itemsMax)])
  s1.setPlReg e.reg { period := e.period, phase := e.phase, deadline := e.deadline, actMask := BitVec.ofNat 48 e.actMask }

/-- Sets the rules; registrations whose rules changed forget the codes of their previous latch. -/
def State.putRules (s : State) (rules : List PlRule) (touched : List Nat) : State :=
  let s1 := { s with plumb := { s.plumb with rules := rules } }
  touched.foldl (fun (t : State) f => t.setPlReg f { t.plReg f with prevCodes := [] }) s1

/-- Replaces registrations. -/
def State.applyFrames (s : State) (old new : List FrameEnt) : State :=
  let s1 := (old.filter (fun e => !new.any (fun x => x.reg == e.reg))).foldl (fun (t : State) e => t.dropFrame e.reg) s
  new.foldl (fun (t : State) e => t.putFrame e) s1

/-! ### Sections of a full load only -/

/-- The settings of a POWER section (R574); the regulator is asked for the new target (R571). -/
def State.putPower (s : State) (l : List Byte) : State :=
  let s1 := (((s.setFld R.PWR_CFG F.PWR_CFG_CAP_W (b2 l 0)).setFld R.PWR_CFG F.PWR_CFG_ICC_MAX_A (b2 l 2)).setFld R.PWR_CFG F.PWR_CFG_GAIN (b1 l 6)).setFld
    R.PWR_CFG F.PWR_CFG_ORDER (b1 l 7)
  let s2 := (List.range 3).foldl (fun (t : State) k => t.setFld (R.PWR_DOMAIN k) F.PWR_DOMAIN_B_MAX (b1 l (8 + k))) s1
  let s3 := ((s2.setFld R.PWR_THERM_CFG F.PWR_THERM_CFG_ALERT_C (b1 l 11)).setFld R.PWR_THERM_CFG F.PWR_THERM_CFG_HYST_C (b1 l 12)).setFld
    R.PWR_THERM_CFG F.PWR_THERM_CFG_THROTTLE_C (b1 l 13)
  (s3.setFld R.PWR_VDD F.PWR_VDD_TARGET_MV (b2 l 4 / 5 * 5)).vrSend

/-- Loads the dictionary into the tokenizer and copies it to HBM (R160). -/
def State.putDict (s : State) (l : List Byte) : State :=
  let es := l.drop 64
  let s1 := { s with tok := { entries := (pieces 64 es).map tokEntry, bad := [] } }
  let s2 := s1.setReg R.TOK_CFG (wordOfFields [(F.TOK_CFG_LOADED, 1), (F.TOK_CFG_ENTRIES, b4 l 16), (F.TOK_CFG_BYTE_BASE, b4 l 0)])
  (s2.setReg R.TOK_DICT_BASE (BitVec.ofNat 64 (b8 l 8))).wrBytes (b8 l 8) es

end Sys2Proof.Machine
end

