-- ==== Sys2Proof/Machine/Commit.lean ====
section
/-! DEFINITION. The end of STAGE (R73, R78), and COMMIT from its drain to its resume (R83 to R91, R533). -/

namespace Sys2Proof.Machine

/-! ### The end of STAGE -/

/-- The rejection of the stream of a full load (R614): under xSPI alone it is final; under xSPI with the host behind it the host path follows; otherwise the host may stage another stream. -/
def State.bootReject (s : State) (k : LoadErr) : State :=
  let src := s.fld R.SEC_BOOT_STAT F.SEC_BOOT_STAT_BOOT_SRC
  let s1 : State := { s with staged := none }
  let s2 :=
    if src = 2 ∧ ¬ s.bit R.SEC_BOOT_STAT F.SEC_BOOT_STAT_FALLBACK then (s1.setBoot 3).setFld R.SEC_BOOT_STAT F.SEC_BOOT_STAT_FALLBACK 1
    else if src = 0 then (s1.setBoot 11).setFab 0
    else s1.setBoot 11
  s2.fabReport k.1 k.2

/-- FAB_STAGE_DONE (R73, R78): the checks of the staged stream end. A restream that passes is STAGED with its digest (R98); a full load that passes goes on to be applied (R612, R613). A stream that fails is released, and FAB_STATUS gives the check and the section. -/
def execFabStageDone (s : State) : Out :=
  .next (
    if s.fabState = 1 then
      match s.streamErr false with
      | none =>
        let l := s.stagedSects
        let s1 := { s with fab := { s.fab with canton := streamCanton l } }
        ((s1.setDigest R.FAB_STAGED_DIGEST (finalDigest l)).setFab 2).fabReport 0 0
      | some k => s.unstage.fabReport k.1 k.2
    else if s.fabState = 4 ∧ s.bootStage = 5 then
      match s.streamErr true with
      | none => (s.setDigest R.FAB_STAGED_DIGEST (finalDigest s.stagedSects)).setBoot 6
      | some k => s.bootReject k
    else s)

/-! ### Drain and save (R83) -/

/-- Whether a furl of a core of canton c is under way or waits: COMMIT pauses at its next phase boundary (R91). -/
def State.furlIn (s : State) (c : Nat) : Bool :=
  let mine (n : Nat) : Bool := (s.fld (R.FAB_CANTON c) F.FAB_CANTON_CORE_MASK).testBit n
  (match s.rep.swap with
    | some w => !w.planned && mine w.n
    | none => false) || s.rep.furls.any (fun f => mine f.1)

def State.setPhase (s : State) (p : ComPhase) : State := { s with fab := { s.fab with phase := some p } }

/-- The canton of the COMMIT that stands in a phase and may leave it. -/
def State.commitAt (s : State) (p : ComPhase) : Option Nat :=
  match s.fab.canton with
  | some c => if s.fab.phase = some p ∧ s.furlIn c = false then some c else none
  | none => none

/-- The queues of a canton that belong to chip-level units. -/
def State.chipQueues (s : State) (c : Nat) : List Nat :=
  (s.queues.map (fun e => e.1)).filter (fun q => s.qBound q && s.qCanton q == c && s.qUnit q != 1)

/-- A started chip-unit command that the limit of the drain ends, as a disable in ABANDON mode would; R455 exempts some. -/
def State.drainCmd (s : State) (q : Nat) : State :=
  if s.executing q then
    let s1 := s.updHead q (abandonCmd (s.qUnit q) s.now)
    if s.qUnit q = 7 ∧ s1.executing q = false then s1.setBusy 7 (s.qInst q) false else s1
  else s

/-- COMMIT_UNIT_DRAIN_TIMEOUT (R83, R141): the canton's chip-unit commands that still run end ABORTED_DISABLED, and so do its input samples in progress. -/
def execCommitUnitDrainTimeout (s : State) : Out :=
  .next (
    match s.fab.canton with
    | some c =>
      if s.fab.phase = some .drain then
        let s1 := (s.chipQueues c).foldl (fun (t : State) q => t.drainCmd q) s
        ((List.range 128).filter (fun k => s.bit (R.IMG_SRC_CFG k) F.IMG_SRC_CFG_ACTIVE && s.fld (R.IMG_SRC_CFG k) F.IMG_SRC_CFG_CANTON == c)).foldl
          (fun (t : State) k => t.imgAbortAll k) s1
      else s
    | none => s)

/-- COMMIT_DRAIN_DONE (R83): no chip-unit command of the canton runs, and each of its cores runs none or saves one. -/
def execCommitDrainDone (s : State) : Out :=
  .next (
    match s.commitAt .drain with
    | none => s
    | some c =>
      if (s.chipQueues c).any (fun q => s.executing q) || (s.cantonCores c).any (fun n => (s.core n).running.isSome && !(s.core n).saving) then s
      else s.setPhase .save)

/-- COMMIT_SAVE_DONE (R83): every live context of the canton is saved. -/
def execCommitSaveDone (s : State) : Out :=
  .next (
    match s.commitAt .save with
    | none => s
    | some c => if (s.cantonCores c).any (fun n => (s.core n).running.isSome) then s else s.setPhase .verify)

/-! ### Rebind (R84, R87, R88) -/

/-- What canton c has in progress that its new program images end: its RUNs that have started (R84). -/
def State.abortRuns (s : State) (c : Nat) : State := s.abortIn c (fun q d => s.qUnit q == 1 && d.opcode == 1 && d.phase != .waiting)

/-- The canton-scoped sections of a rebind (R88, step 2). -/
def State.rebindCanton (s : State) (v w : LatCfg) (c : Nat) (has : Nat → Bool) : State :=
  let om := (ofCanton v.maps c).getD CMap.empty
  let nm := (ofCanton w.maps c).getD CMap.empty
  let s1 := if has tyCantonMap then s.applyMap c om nm else s
  let s2 := if has tyRegulators then s1.applyRegs c ((ofCanton w.regs c).getD []) else s1
  if has tySpdBanks || has tyCantonMap then
    s2.applyBanks c om.coreMask nm.coreMask (has tySpdBanks) ((ofCanton v.banks c).getD []) ((ofCanton w.banks c).getD [])
  else s2

/-- The shared sections of a rebind (R87; R88, steps 1 and 3): of each table, the entries of canton c. -/
def State.rebindShared (s : State) (v w : LatCfg) (c : Nat) (has : Nat → Bool) : State :=
  let own (x : LatCfg) (g : Nat) : Bool := x.grpCanton g == some c
  let port (x : LatCfg) (p : Nat × Nat) : Bool := (x.pin 4 p.1).any (fun e => e.canton == c)
  let s1 := if has tyTimeConfig then s.applyCmps (v.cmps.filter (fun e => e.canton == c)) (w.cmps.filter (fun e => e.canton == c)) else s
  let s2 := if has tyPinMap then s1.applyPins (hdrCtrl v.plHdr) (v.pins.filter (fun e => e.canton == c)) (w.pins.filter (fun e => e.canton == c)) else s1
  let s3 := if has tyInputGraph then
      s2.applyInput (v.cams.filter (fun e => e.canton == c)) (w.cams.filter (fun e => e.canton == c)) (v.carriers.filter (port v)) (w.carriers.filter (port w))
        (v.srcs.filter (fun e => e.canton == c)) (w.srcs.filter (fun e => e.canton == c))
    else s2
  let s4 := s3.regate w
  let s5 := if has tyControlGraph then
      s4.applyControl true (v.groups.filter (fun e => e.canton == c)) (w.groups.filter (fun e => e.canton == c)) (v.slots.filter (fun e => own v e.group))
        (w.slots.filter (fun e => own w e.group)) (v.sels.filter (fun e => own v e.group)) (w.sels.filter (fun e => own w e.group))
    else s4
  let s6 := if has tyPlumbRules then s5.putRules w.rules (((v.rules ++ w.rules).filter (fun r => r.canton == c)).map (fun r => r.reg)) else s5
  if has tyPlumbFrames then s6.applyFrames (v.frames.filter (fun e => e.canton == c)) (w.frames.filter (fun e => e.canton == c)) else s6

/-- Switches canton c to what a restream carries. -/
def State.rebind (s : State) (c : Nat) (l : List Sect) : State :=
  let v := s.fab.cfg
  let w := v.after (some c) l
  let has := carries l
  let s1 := if has tyImage then s.abortRuns c else s
  let s2 := (s1.rebindCanton v w c has).rebindShared v w c has
  let masks := ((ofCanton v.maps c).getD CMap.empty).coreMask ||| ((ofCanton w.maps c).getD CMap.empty).coreMask
  let s3 := if has tyImage || has tyCantonMap then (coresOf masks).foldl (fun (t : State) n => t.loadCore w n) s2 else s2
  { s3 with fab := { s3.fab with cfg := w } }.plRefresh

/-- COMMIT_VERIFY_DONE (R83): the live-state checks end. On a failure the running configuration stays; otherwise the canton is switched. -/
def execCommitVerifyDone (s : State) : Out :=
  .next (
    match s.commitAt .verify with
    | none => s
    | some c =>
      match s.liveErr with
      | some k => { s with fab := { s.fab with phase := some .rebind, fail := some k } }
      | none => (s.rebind c s.stagedSects).setPhase .rebind)

/-- COMMIT_REBIND_DONE (R83, R84): the restoring of the canton's contexts begins. -/
def execCommitRebindDone (s : State) : Out :=
  .next (
    match s.commitAt .rebind with
    | none => s
    | some _ => s.setPhase .resume)

/-! ### Resume -/

/-- What a COMMIT that applied its stream leaves: one more restream of the canton, and the digest of the chain (R80, R99). -/
def State.committed (s : State) (c : Nat) : State :=
  (s.wrapAdd (R.FAB_CANTON c) F.FAB_CANTON_RESTREAMS 1).setDigest R.FAB_CONFIG_DIGEST
    (sha3_512 (s.digest R.FAB_CONFIG_DIGEST ++ finalDigest s.stagedSects))

/-- COMMIT_RESUME_DONE (R83, R96, R97): held commands may start, the outage is recorded, the stream is released, and FAB_STATUS reports. -/
def execCommitResumeDone (s : State) : Out :=
  .next (
    match s.commitAt .resume with
    | none => s
    | some c =>
      let k := s.fab.fail.getD (0, 0)
      let s1 := if s.fab.fail.isNone then s.committed c else s
      let s2 := s1.setFld R.FAB_LAST_OUTAGE F.FAB_LAST_OUTAGE_NS (min (2 ^ 40 - 1) (s.nowNs - s.fab.since))
      let s3 := s2.unstage
      { s3 with fab := { s3.fab with fail := none } }.fabReport k.1 k.2)

end Sys2Proof.Machine
end

