-- ==== Sys2Proof/Machine/Reset.lean ====
section
/-! DEFINITION. The two resets (R608 to R610): what each clears and keeps, the straps, and the commands that start and end them. -/

namespace Sys2Proof.Machine

/-- Whether a register is a window on fuses: the burned records and the owner key slots (R538, R616). -/
def isFuseReg (off : Nat) : Bool :=
  decide (R.FLT_FUSE_REC 0 ≤ off ∧ off < R.FLT_FUSE_REC 0 + 1024) || decide (R.SEC_KEY_SLOT 0 ≤ off ∧ off < R.SEC_KEY_SLOT 0 + 32) ||
  decide (R.SEC_KEY_HASH 0 0 ≤ off ∧ off < R.SEC_KEY_HASH 0 0 + 256)

/-- What both resets leave: fuses, the fleet seed, and what has left the device or waits to enter it. -/
def State.cleared (s : State) : State :=
  let t : State := { regs := s.regs.filter (fun e => isFuseReg e.1), rep := { failed := s.rep.failed }, sec := { seed := s.sec.seed }, out := s.out, freeCtr := s.freeCtr, pending := s.pending }
  (t.setFld R.SEC_RESULT F.SEC_RESULT_FLEET_PRESENT (s.fld R.SEC_RESULT F.SEC_RESULT_FLEET_PRESENT)).setFld
    R.SEC_RESULT F.SEC_RESULT_BURN_FAIL (s.fld R.SEC_RESULT F.SEC_RESULT_BURN_FAIL)

/-- Copies a field of a register from another state. -/
def State.keepFld (t s : State) (off : Nat) (f : Fld) : State := t.setFld off f (s.fld off f)

/-- The start of a warm reset (R608, R609): everything returns to its reset state but device time with its rate, VALID and reference, RWS fields, TRIP, the remapped rows (R471), and memory, which the boot fills with zero; a new sync session opens. -/
def State.enterWarm (s : State) (cause : Nat) : State :=
  let tm : TimeSt := {
    sec := s.time.sec, ns := s.time.ns, frac := s.time.frac, ticks := s.time.ticks, prev := s.time.prev, running := s.time.running, lastSync := s.time.lastSync }
  let t : State := { s.cleared with mem := s.mem, poison := s.poison, time := tm, hbm := { rows := s.hbm.rows } }
  let t1 := (((((t.setReg R.TIME_RATE (s.reg R.TIME_RATE)).keepFld s R.TIME_STAT F.TIME_STAT_SESSION).keepFld s R.TIME_STAT F.TIME_STAT_VALID).keepFld
    s R.TIME_STAT F.TIME_STAT_PLL_LOCK).keepFld s R.TIME_STAT F.TIME_STAT_REF_LOSS).newSession
  let t2 := (t1.keepFld s R.PWR_STAT F.PWR_STAT_BROWNOUT).keepFld s R.PWR_STAT F.PWR_STAT_TRIP
  let t3 := t2.setFld R.SEC_BOOT_STAT F.SEC_BOOT_STAT_RESET_CAUSE cause
  { t3 with sec := { t3.sec with straps := s.sec.straps, warm := true } }

/-- The end of a reset: the boot runs its step 2 (R608, R613), with FAB_STATUS in FULL_LOAD (R96). -/
def State.leaveReset (s : State) (straps : Straps) : State :=
  let s1 := { s with sec := { s.sec with straps := straps, inReset := false, resetAt := s.nowNs } }
  (((s1.setFld R.SEC_BOOT_STAT F.SEC_BOOT_STAT_STAGE 1).setFld R.SEC_BOOT_STAT F.SEC_BOOT_STAT_BOOT_SRC straps.bootSrc.toNat).setBit
    R.SEC_BOOT_STAT F.SEC_BOOT_STAT_ROLE straps.manager).setFld R.FAB_STATUS F.FAB_STATUS_STATE 4

/-- POWER_ON_RESET (R608, R609, R610): PON_N falls and rises; the straps are sampled at its rising edge. -/
def execPowerOnReset (straps : Straps) (s : State) : Out := .next (s.cleared.leaveReset straps)

/-- The RESET_CAUSE code of a warm reset from a pin (R623). -/
def warmCode : WarmCause → Nat
  | .resetN => 1
  | .brownout => 2
  | .warmCmd => 3

/-- A brownout starts a warm reset and is recorded (R573). -/
def State.brownout (s : State) : State := (s.enterWarm 2).setFld R.PWR_STAT F.PWR_STAT_BROWNOUT 1

/-- Starts a warm reset for a cause. -/
def State.warmFor (s : State) (c : WarmCause) : State :=
  match c with
  | .brownout => s.brownout
  | c => s.enterWarm (warmCode c)

/-- WARM_RESET (R608, R610): the reset starts, unless it already holds, and ends; only RESET_N samples the straps. A power-on reset in force goes on. -/
def execWarmReset (cause : WarmCause) (straps : Straps) (s : State) : Out :=
  .next (
    if s.sec.inReset && !s.sec.warm then s
    else (if s.sec.inReset then s else s.warmFor cause).leaveReset (if cause = .resetN then straps else s.sec.straps))

/-- BROWNOUT (R573): a supply detector trips. -/
def execBrownout (s : State) : Out := .next (if s.sec.inReset then s else s.brownout)

/-- SEC_CTL.WARM_RESET with its confirmation, from the host over BAR0 only (R608, R622, R624). -/
def State.warmWrite (s : State) (r : Req) (confirm : Nat) : State :=
  if r = .host ∧ s.hears r R.SEC_CTL ∧ confirm = 0xA5 then s.enterWarm 3 else s

/-- SEC_WARM_RESET (R624). -/
def execSecWarmReset (r : Req) (confirm : BitVec 8) (s : State) : Out := .next (s.warmWrite r confirm.toNat)

end Sys2Proof.Machine
end

