-- ==== Sys2Proof/Machine/Boot.lean ====
section
/-! DEFINITION. The boot (R540, R610 to R614): fuses and repairs, HBM repair and training, the fetch of the stream, and the full load that applies it (R76, R77, R251, R270, R336, R423, R457, R534). -/

namespace Sys2Proof.Machine

/-! ### Step 2: fuses (R40, R538, R540) -/

/-- The field records, in their order. -/
def State.fuseRecs (s : State) : List Nat := (List.range 128).map (fun i => s.fld (R.FLT_FUSE_REC i) F.FLT_FUSE_REC_RECORD)

/-- KIND of a record: 1 CORE_FAIL, 2 COLUMN, 3 HBM_ROW. -/
def recKind (r : Nat) : Nat := r / 2 ^ 29

/-- The records below the next one to burn: those up to the highest that is not empty. -/
def recsUsed (l : List Nat) : Nat := l.zipIdx.foldl (fun (a : Nat) p => if recKind p.1 = 0 then a else p.2 + 1) 0

/-- The physical cores that the factory map or a CORE_FAIL record retires. -/
def State.retiredByFuse (s : State) (p : Nat) : Bool := s.rep.failed.getLsbD p || s.fuseRecs.any (fun r => recKind r == 1 && r % 32 == p)

/-- GLB_CAPS of a grade (R1, R40). -/
def capsOf (grade stepping cores spares : Nat) : Word :=
  wordOfFields [(F.GLB_CAPS_STEPPING, stepping), (F.GLB_CAPS_HBM_STACKS, if grade = 3 then 2 else 4), (F.GLB_CAPS_CAM_PORTS, if grade = 3 then 8 else 16),
    (F.GLB_CAPS_CHORD_PORTS, if grade = 1 then 4 else 0), (F.GLB_CAPS_CORES_ACTIVE, cores), (F.GLB_CAPS_SOLVER, if grade = 3 then 0 else 1),
    (F.GLB_CAPS_CHORD, if grade = 1 then 1 else 0), (F.GLB_CAPS_SPARES_LEFT, spares), (F.GLB_CAPS_GRADE, grade)]

/-- Gives logical numbers to healthy physical cores in ascending order; those left over are spares (R540). -/
def State.mapCores (s : State) : State :=
  let ps := (List.range 18).filter (fun p => !s.retiredByFuse p)
  let used := ps.take 16
  let spares := ps.drop 16
  let mask (l : List Nat) : Nat := l.foldl (fun (a : Nat) p => a + 2 ^ p) 0
  let map := wordOfFields [(F.FLT_MAP_RETIRED_PHYS, 2 ^ 18 - 1 - mask ps), (F.FLT_MAP_SPARE_PHYS, mask spares), (F.FLT_MAP_ACTIVE, 2 ^ used.length - 1)]
  let s1 := (s.setReg R.FLT_MAP map).setReg R.GLB_CAPS (capsOf (Config.fuseGrade.val + 1) Config.fuseStepping.toNat used.length spares.length)
  used.zipIdx.foldl (fun (t : State) p => t.setReg (R.CORE_STATUS p.2) (wordOfFields [(F.CORE_STATUS_ACTIVE, 1), (F.CORE_STATUS_PHYS, p.1)])) s1

/-- The spare columns that COLUMN records use. -/
def State.mapColumns (s : State) : State :=
  (s.fuseRecs.filter (fun r => recKind r == 2)).foldl (fun (t : State) r => t.satAdd (R.SPD_BANK_STAT (r / 2 ^ 14 % 2048)) F.SPD_BANK_STAT_SPARE_COLS 1) s

/-- BOOT_FUSES_DONE (R540, R613, R614): the PLL locks, so device time counts; fuses are applied, or the map is uncorrectable and the boot stops. Every bank holds zeros (R270). -/
def execBootFusesDone (ok : Bool) (s : State) : Out :=
  .next (
    if s.bootStage ≠ 1 ∨ s.sec.inReset then s
    else
      let s0 := { s with time := { s.time with running := true } }.setFld R.TIME_STAT F.TIME_STAT_PLL_LOCK 1
      if !ok then s0.setBoot 8
      else
        let n := recsUsed s.fuseRecs
        let s1 := ((s0.mapCores.mapColumns).setFld R.FLT_STAT F.FLT_STAT_FUSES_USED n).setBit R.FLT_STAT F.FLT_STAT_FUSE_FULL (n == 128)
        let s2 := s1.setBit R.CHD_CFG F.CHD_CFG_MANAGER (s1.hasChords && s.sec.straps.manager)
        let s3 : State := { s2 with mem := s2.mem.filter (fun p => decide (p.1 < 0x100000000000)), spd := {} }
        s3.showKeyState.setBoot 2)

/-! ### Step 3: HBM (R471, R474) -/

/-- The result of post-package repair of a record: DONE is burned, or its row enters the remap table with an event (R540). -/
def State.pprResult (s : State) (i : Nat) (good : Bool) : State :=
  let r := s.fld (R.FLT_FUSE_REC i) F.FLT_FUSE_REC_RECORD
  if recKind r ≠ 3 ∨ r / 2 ^ 28 % 2 = 1 then s
  else if good then s.setFld (R.FLT_FUSE_REC i) F.FLT_FUSE_REC_RECORD (r + 2 ^ 28)
  else
    let g := r / 2 ^ 26 % 4 * 32 + r / 2 ^ 21 % 32
    { s with hbm := { s.hbm with rows := s.hbm.rows ++ [g * 2097152 + r % 2 ^ 21] } }.event 10 (g / 32) (BitVec.ofNat 64 (r % 2 ^ 26)) 0

/-- Takes the boot source from its strap (R610, R613). -/
def State.pickSource (s : State) : State :=
  match s.fld R.SEC_BOOT_STAT F.SEC_BOOT_STAT_BOOT_SRC with
  | 1 => s.setBoot 3
  | 3 => s.setBoot 10
  | _ => s.setBoot 4

/-- HBM_TRAINING_DONE (R474, R540, R609, R614): ok has a bit for each stack that trained, ppr one for each record whose repair succeeded, which a warm reset does not try. HBM holds zeros, and the boot source is selected; a stack that failed stops the boot. -/
def execHbmTrainingDone (ok : BitVec 4) (ppr : BitVec 128) (s : State) : Out :=
  .next (
    if s.bootStage ≠ 2 then s
    else
      let s1 := if s.sec.warm then s else (List.range 128).foldl (fun (t : State) i => t.pprResult i (ppr.getLsbD i)) s
      let n := s.fld R.GLB_CAPS F.GLB_CAPS_HBM_STACKS
      let good := ok.toNat % 2 ^ n
      let s2 := (s1.setFld R.HBM_STAT F.HBM_STAT_TRAINED good).setFld R.HBM_STAT F.HBM_STAT_FAILED (2 ^ n - 1 - good)
      if good ≠ 2 ^ n - 1 then s2.setBoot 9
      else { s2 with mem := s2.mem.filter (fun p => decide (0x100000000000 ≤ p.1)), poison := [] }.pickSource)

/-! ### Step 5: the fetch (R611) -/

/-- XSPI_FETCH_DONE (R611, R614): the bytes that the flash gave from address 0; fewer than STREAM_LENGTH of them are a read error. The stream stands at the start of HBM, in the staged range. -/
def execXspiFetchDone (bytes : List Byte) (s : State) : Out :=
  .next (
    if s.bootStage ≠ 4 then s
    else
      let s1 := s.attempt
      match cutSect 0 (bytes.take 168) with
      | none => s1.bootReject (ckFormat, 0)
      | some (x, _) =>
        let len := sliceN x.payload 16 8
        if headerBad x (sliceN x.payload 12 4) len ∨ bytes.length < len then s1.bootReject (ckFormat, 0)
        else { s1.wrBytes 0 (bytes.take len) with staged := some ⟨0, len⟩ }.setBoot 5)

/-! ### Step 7: the full load (R613) -/

/-- Zero-fills the page table; no block or index is in use (R336). -/
def State.clearTable (s : State) : State :=
  let lo := s.tableBase
  let hi := s.hbmBytes
  { s with mem := s.mem.filter (fun p => decide (p.1 < lo ∨ hi ≤ p.1)), poison := s.poison.filter (fun u => decide (u < lo ∨ hi ≤ u)), kv := {} }

/-- Banks that no canton owns, and those of inactive cores, go OFF; PENDING and flags clear (R270). -/
def State.settleBanks (s : State) : State :=
  let s1 := (List.range 1280).foldl (fun (t : State) b =>
    let u := t.setFld (R.SPD_BANK_OWNER b) F.SPD_BANK_OWNER_PENDING 0
    if (u.bankCanton b).isNone || (decide (b < 1024) && !u.coreActive (b / 64)) then u.powerTo b 2 else u) s
  s1.setReg R.SPD_STAT (resetVal R.SPD_STAT)

/-- The cantons of a configuration, each with its map, regulators and banks. -/
def State.loadCantons (s : State) (v : LatCfg) : State :=
  (List.range v.cantons).foldl (fun (t : State) c =>
    let m := (ofCanton v.maps c).getD CMap.empty
    ((t.applyMap c CMap.empty m).applyRegs c ((ofCanton v.regs c).getD [])).applyBanks c 0 m.coreMask true [] ((ofCanton v.banks c).getD [])) s

/-- The shared tables of a configuration, in the order of R88. -/
def State.loadShared (s : State) (v : LatCfg) (l : List Sect) : State :=
  let payload (t : Nat) : Option (List Byte) := (l.find? (fun x => x.type == t)).map (fun x => x.payload)
  let s1 := (s.setReg R.TIME_PTP_CFG v.ptp).applyCmps [] v.cmps
  let s2 := (((s1.applyPins (hdrCtrl v.plHdr) [] v.pins).applyInput [] v.cams [] v.carriers [] v.srcs)).regate v
  let s3 := match payload tyTokDict with
    | some p => s2.putDict p
    | none => s2
  let s4 := (s3.applyControl false [] v.groups [] v.slots [] v.sels).putPlHdr v.plHdr
  (s4.putRules v.rules []).applyFrames [] v.frames

/-- Every active core is idle. -/
def State.wakeCores (s : State) : State :=
  (List.range 16).foldl (fun (t : State) n => if t.coreActive n then t.setFld (R.CORE_STATUS n) F.CORE_STATUS_STATE 1 else t) s

/-- Applies a full stream to an empty configuration. -/
def State.fullLoad (s : State) (l : List Sect) : State :=
  let v : LatCfg := ({} : LatCfg).after none l
  let s1 := s.clearTable.setFld R.GLB_BUDGET_MODE F.GLB_BUDGET_MODE_MODE v.mode
  let s2 := match (l.find? (fun x => x.type == tyPower)).map (fun x => x.payload) with
    | some p => s1.putPower p
    | none => s1
  let s3 := ((s2.loadCantons v).settleBanks).loadShared v l
  let s4 := (coresOf 0xFFFF).foldl (fun (t : State) n => t.loadCore v n) s3
  let s5 : State := { s4.wakeCores with
    fab := { s4.fab with cfg := v }
    plumb := { s4.plumb with tables := true, msgs := [], last := [] }
    mgt := { s4.mgt with telemAt := s4.nowNs } }
  (s5.setFld R.MGT_STAT F.MGT_STAT_RUNNING 1).plRefresh

/-- BOOT_APPLY_DONE (R61, R80, R613): the verified stream is in force and released, the budget mode is locked, and the device is OPERATIONAL. -/
def execBootApplyDone (s : State) : Out :=
  .next (
    if s.bootStage ≠ 6 then s
    else
      let l := s.stagedSects
      let s1 := (s.fullLoad l).setDigest R.FAB_CONFIG_DIGEST (finalDigest l)
      let s2 := (s1.setFld R.GLB_BUDGET_MODE F.GLB_BUDGET_MODE_LOCKED 1).setBoot 7
      (s2.setFld R.SEC_BOOT_STAT F.SEC_BOOT_STAT_BOOT_MS ((s.nowNs - s.sec.resetAt) / 1000000)).unstage.fabReport 0 0)

end Sys2Proof.Machine
end

