-- ==== Sys2Proof/Machine/Halyard.lean ====
section
/-! DEFINITION. The management processor: halyard messages, sessions, relaying, telemetry, and the mailbox (R556, R557, R597 to R607). -/

namespace Sys2Proof.Machine

/-! ### Messages (R597) -/

/-- The bytes of a message: header, payload, CRC-32. -/
def halBytes (m : HalMsg) : List Byte :=
  let l := leBytes 0x4C48 2 ++ leBytes 1 1 ++ leBytes m.type.toNat 1 ++ leBytes m.position.toNat 1 ++ leBytes (if m.toDevice then 1 else 0) 1 ++
    leBytes m.payload.length 2 ++ leBytes m.session.toNat 4 ++ leBytes m.seq.toNat 4 ++ leBytes m.ack.toNat 4 ++ leBytes 0 4 ++
    leBytes m.stamp.toNat 8 ++ m.payload
  l ++ leBytes (crc32 l).toNat 4

/-- The message that bytes hold, if MAGIC, VERSION, CRC, LEN and the reserved fields are right. -/
def halParse (l : List Byte) : Option HalMsg :=
  let len := sliceN l 6 2
  if l.length = 36 + len ∧ len ≤ 1404 ∧ sliceN l 0 2 = 0x4C48 ∧ sliceN l 2 1 = 1 ∧ sliceN l 5 1 < 2 ∧ sliceN l 20 4 = 0 ∧
      sliceN l (32 + len) 4 = (crc32 (l.take (32 + len))).toNat then
    some { type := BitVec.ofNat 8 (sliceN l 3 1), position := BitVec.ofNat 8 (sliceN l 4 1), toDevice := sliceN l 5 1 == 1,
           session := BitVec.ofNat 32 (sliceN l 8 4), seq := BitVec.ofNat 32 (sliceN l 12 4), ack := BitVec.ofNat 32 (sliceN l 16 4),
           stamp := BitVec.ofNat 64 (sliceN l 24 8), payload := (l.drop 32).take len }
  else none

/-- Whether the firmware runs. -/
def State.mgtRuns (s : State) : Bool := s.bit R.MGT_STAT F.MGT_STAT_RUNNING

/-- Whether halyard messages go by the chords: on an enumerated worker (R602). -/
def State.halWorker (s : State) : Bool := s.hasChords && !s.bit R.CHD_CFG F.CHD_CFG_MANAGER

/-- Sends the bytes of a message as HALYARD frames to a position, n of them at most; each carries its offset, the tag, and LAST (R602). -/
def State.halFrames (s : State) (dst tag off : Nat) (l : List Byte) : Nat → State
  | 0 => s
  | n + 1 =>
    if l = [] then s
    else
      let x := l.take 256
      let last := if l.length ≤ 256 then 2 ^ 32 else 0
      (s.chdSend (s.chdFrame 7 dst (off + tag * 65536 + last) (padTo8 x))).halFrames dst tag (off + 256) (l.drop 256) n
where
  /-- A payload in whole 8-byte units. -/
  padTo8 (l : List Byte) : List Byte := l ++ List.replicate ((8 - l.length % 8) % 8) 0

/-- Relays the bytes of a message by the chords. -/
def State.halRelay (s : State) (dst : Nat) (l : List Byte) : State :=
  let t := s.mgt.tag
  ({ s with mgt := { s.mgt with tag := (t + 1) % 65536 } }).halFrames dst t 0 l (l.length / 256 + 1)

/-- Puts a message on its way: by the chords from a worker, else out of the management port while its link is up. -/
def State.halOut (s : State) (m : HalMsg) : State :=
  if s.halWorker then (if s.ownPosition.isSome then s.halRelay 0 (halBytes m) else s)
  else if s.bit R.MGT_STAT F.MGT_STAT_LINK then s.emit (.halyard m) else s

/-- The header of a message that the device sends now, in the current session. -/
def State.halMake (s : State) (type : Nat) (seq : BitVec 32) (payload : List Byte) : HalMsg :=
  { type := BitVec.ofNat 8 type, position := BitVec.ofNat 8 s.position, toDevice := false, session := s.mgt.session.getD 0, seq := seq,
    ack := s.mgt.rxSeq, stamp := s.now, payload := payload }

/-- Sends a message if a session is open. -/
def State.halSend (s : State) (m : HalMsg) : State := if s.mgt.session.isSome then s.halOut m else s

/-- A message as it is sent now. -/
def State.halRefresh (s : State) (m : HalMsg) : HalMsg :=
  { m with session := s.mgt.session.getD 0, ack := s.mgt.rxSeq, stamp := s.now, position := BitVec.ofNat 8 s.position }

/-- The last SEQ the device sent, and the last one acknowledged (R606). -/
def State.txSeq (s : State) : BitVec 32 := BitVec.ofNat 32 (s.fld R.MGT_HAL_STATE F.MGT_HAL_STATE_TX_SEQ)
def State.txAcked (s : State) : BitVec 32 := BitVec.ofNat 32 (s.fld R.MGT_HAL_STATE F.MGT_HAL_STATE_TX_ACKED)

/-- Whether a window slot is free: fewer than 64 messages are unacknowledged (R599). -/
def State.halFree (s : State) : Bool := decide (s.mgt.unacked.length < 64)

/-- Sends a sequenced message: it keeps its number until it is acknowledged (R599). -/
def State.halSeq (s : State) (type : Nat) (payload : List Byte) : State :=
  let q := s.txSeq + 1
  let m := s.halMake type q payload
  let s1 := s.setFld R.MGT_HAL_STATE F.MGT_HAL_STATE_TX_SEQ q.toNat
  ({ s1 with mgt := { s1.mgt with unacked := s1.mgt.unacked ++ [m] } }).halSend m

/-- Sends an ACK alone. -/
def State.halAck (s : State) : State :=
  ({ s with mgt := { s.mgt with ackDue := false } }).halSend (s.halMake 2 0 [])

/-- Takes the ACK of a message from the station: what it covers leaves the window (R599). -/
def State.halAcked (s : State) (a : BitVec 32) : State :=
  let l := s.mgt.unacked.filter (fun m => decide ((a - m.seq).toInt < 0))
  if l.length = s.mgt.unacked.length then s
  else ({ s with mgt := { s.mgt with unacked := l } }).setFld R.MGT_HAL_STATE F.MGT_HAL_STATE_TX_ACKED a.toNat

/-- Sends every unacknowledged message again (R599). -/
def State.halResend (s : State) : State :=
  let s1 := { s with mgt := { s.mgt with retxAt := s.nowNs, unacked := s.mgt.unacked.map s.halRefresh } }
  s1.mgt.unacked.foldl (fun (t : State) m => t.halSend m) s1

/-- Takes a sequenced message of the current session: with the next number it has its effect and an acknowledgement is due; with any other it is discarded and answered with an ACK (R599). -/
def State.halAccept (s : State) (m : HalMsg) (f : State → State) : State :=
  if s.mgt.session ≠ some m.session then s
  else
    let s1 := s.halAcked m.ack
    if m.seq = s1.mgt.rxSeq + 1 then f { s1 with mgt := { s1.mgt with rxSeq := m.seq, ackDue := true } }
    else s1.halAck

/-- HELLO (R600): a new SESSION with SEQ 0 opens a session, is acknowledged, and what its ACK does not cover is sent again. -/
def State.halHello (s : State) (m : HalMsg) : State :=
  if s.mgt.session = some m.session then s.halAccept m (fun t => t)
  else if m.seq ≠ 0 then s
  else
    let s1 := ({ s with mgt := { s.mgt with session := some m.session, rxSeq := 0 } }).setFld R.MGT_STAT F.MGT_STAT_SESSION_OPEN 1
    ((s1.halAcked m.ack).halAck).halResend

/-- A byte of the staging area. -/
def State.stageByte (s : State) (i : Nat) : Byte := Store.get (fun _ => 0) s.mgt.staging i

/-- Writes bytes into the staging area (R601). -/
def State.stagePut (s : State) (o : Nat) : List Byte → State
  | [] => s
  | b :: r => ({ s with mgt := { s.mgt with staging := Store.set (fun _ => 0) s.mgt.staging o b } }).stagePut (o + 1) r

/-- The RESULT of a request (R598). -/
def State.halResult (s : State) (seq : BitVec 32) (st : BitVec 8) : State :=
  s.halSeq 7 (leBytes seq.toNat 4 ++ leBytes st.toNat 1 ++ leBytes 0 3)

/-- LIB_CHUNK (R601). -/
def State.halChunk (s : State) (m : HalMsg) : State := s.halAccept m (fun t => t.stagePut (sliceN m.payload 0 4) (m.payload.drop 4))

/-- The installation that a LIB_INSTALL asks for (R601): of the staging area; a failure is answered at once. -/
def State.libInstall (s : State) (seq : BitVec 32) (len : Nat) (older : Bool) : State :=
  if 0x800000 < len then s.halResult seq stRejected
  else if s.bit R.FLT_PEN_STAT F.FLT_PEN_STAT_BUSY then s.halResult seq stBusyNoSlack
  else
    let x := s.penInstall ((List.range len).map (fun i => s.stageByte i)) len older (seq.toNat + 1)
    if x.2 = stDone then x.1 else x.1.halResult seq x.2

/-- LIB_INSTALL (R601): it waits for a key operation in progress (R620). -/
def State.halInstall (s : State) (m : HalMsg) : State :=
  s.halAccept m (fun t =>
    let len := sliceN m.payload 0 8
    let older := sliceN m.payload 8 1 == 1
    if t.keyBusy then { t with sec := { t.sec with waiting := t.sec.waiting ++ [.library m.seq len older] } } else t.libInstall m.seq len older)

/-- A message that is none: discarded and counted (R597, R598). -/
def State.halBad (s : State) : State := s.satAdd R.MGT_STAT F.MGT_STAT_BAD_RX 1

/-- A message for this device, by its type (R598). -/
def State.halTake (s : State) (m : HalMsg) : State :=
  match m.type.toNat with
  | 1 => s.halHello m
  | 2 => if s.mgt.session = some m.session then s.halAcked m.ack else s
  | 5 => s.halChunk m
  | 6 => s.halInstall m
  | _ => s.halBad

/-- A message that arrives at the management port: the manager routes one for another device (R602). -/
def State.halRoute (s : State) (m : HalMsg) (f : State → State) : State :=
  if !s.mgtRuns then s
  else if m.toDevice ∧ m.position.toNat ≠ s.position then s.halRelay m.position.toNat (halBytes m)
  else f s

/-- HALYARD_HELLO (R600). -/
def execHalyardHello (m : HalMsg) (s : State) : Out := .next (if m.type = 1 then s.halRoute m (fun t => t.halTake m) else s)

/-- HALYARD_ACK (R599). -/
def execHalyardAck (m : HalMsg) (s : State) : Out := .next (if m.type = 2 then s.halRoute m (fun t => t.halTake m) else s)

/-- HALYARD_LIB_CHUNK (R601). -/
def execHalyardLibChunk (m : HalMsg) (s : State) : Out := .next (if m.type = 5 then s.halRoute m (fun t => t.halTake m) else s)

/-- HALYARD_LIB_INSTALL (R601). -/
def execHalyardLibInstall (m : HalMsg) (s : State) : Out := .next (if m.type = 6 then s.halRoute m (fun t => t.halTake m) else s)

/-- HALYARD_BAD_RX (R597, R598): bytes that are no message, or one of a type that a station does not send. -/
def execHalyardBadRx (bytes : List Byte) (s : State) : Out :=
  .next (
    if !s.mgtRuns then s
    else match halParse bytes with
      | none => s.halBad
      | some m => if m.type = 1 ∨ m.type = 2 ∨ m.type = 5 ∨ m.type = 6 then s else s.halBad)

/-- CHORD_HALYARD (R602): a fragment of a relayed message; the last one completes it: on the manager a worker's message leaves by the management port unchanged, on a worker a station's message has its effect. A message whose fragments do not follow each other is lost. -/
def execChordHalyard (p : Fin 4) (f : ChordFrame) (s : State) : Out :=
  .next (s.chdTake p.val 7 f (fun s =>
    let a := f.addr.toNat
    let key := f.src.toNat * 65536 + a / 65536 % 65536
    let have' := Store.get (fun _ => ([] : List Byte)) s.chd.frags key
    let l := if a % 65536 = 0 then f.payload else if a % 65536 = have'.length then have' ++ f.payload else []
    let put (x : List Byte) (t : State) : State := { t with chd := { t.chd with frags := Store.set (fun _ => []) t.chd.frags key x } }
    if a / 2 ^ 32 % 2 = 0 then put l s
    else
      let s1 := put [] s
      match halParse (l.take (36 + sliceN l 6 2)) with
      | none => s1
      | some m =>
        if !s1.mgtRuns then s1
        else if m.toDevice then (if m.position.toNat = s1.position then s1.halTake m else s1)
        else if s1.bit R.MGT_STAT F.MGT_STAT_LINK then s1.emit (.halyard m) else s1))

/-! ### Reports and telemetry (R556, R557, R598, R599) -/

/-- HALYARD_ERROR_REPORT (R599): with a window slot free the next event of the ring is sent; events that were overwritten are skipped. -/
def execHalyardErrorReport (s : State) : Out :=
  .next (
    let prod := s.fld R.FLT_EVT_PROD F.FLT_EVT_PROD_PROD
    let next := max s.mgt.evtNext (prod - 256)
    if s.mgtRuns ∧ s.halFree ∧ next < prod then
      ({ s with mgt := { s.mgt with evtNext := next + 1 } }).halSeq 3
        ((List.range 4).flatMap (fun w => leBytes (s.reg (R.FLT_EVT (next % 256) w)).toNat 8))
    else s)

/-- The payload of a TELEMETRY message (R598). -/
def State.telemetry (s : State) : List Byte :=
  let rate := F.GLB_STEP_RATE_MIN_RATE.set (s.reg R.GLB_STEP_RATE) s.mgt.minRate
  ([s.reg R.PWR_MEAS, s.reg R.PWR_STAT, rate, s.reg R.PWR_ENERGY] ++ (List.range 8).map (fun c => s.reg (R.SCH_CANTON_ENERGY c))).flatMap
    (fun w => leBytes w.toNat 8)

/-- HALYARD_TELEMETRY (R557, R598): at the end of an interval a sample is sent, or shed by an overloaded processor; the end of a period of shedding is an event. -/
def execHalyardTelemetry (shed : Bool) (s : State) : Out :=
  .next (
    let ms := s.mgt.interval
    if !s.mgtRuns ∨ ms = 0 ∨ s.nowNs < s.mgt.telemAt + ms * 1000000 then s
    else
      let s1 := { s with mgt := { s.mgt with telemSeq := s.mgt.telemSeq + 1, telemAt := s.nowNs, minRate := 0xFFFF } }
      if shed then
        ({ s1 with mgt := { s1.mgt with shed := s1.mgt.shed + 1 } }.setFld R.FLT_STAT F.FLT_STAT_MGT_SATURATED 1).setFld R.MGT_STAT F.MGT_STAT_SATURATED 1
      else
        let s2 := s1.halSend (s.halMake 4 s.mgt.telemSeq s.telemetry)
        if s2.mgt.shed = 0 then s2
        else
          let s3 := (s2.setFld R.FLT_STAT F.FLT_STAT_MGT_SATURATED 0).setFld R.MGT_STAT F.MGT_STAT_SATURATED 0
          { s3 with mgt := { s3.mgt with shed := 0 } }.event 17 0 (BitVec.ofNat 64 s2.mgt.shed) 0)

/-- HALYARD_RETRANSMIT (R599): RETX_MS after the last time every unacknowledged message is sent again; 0 is taken as 1. -/
def execHalyardRetransmit (s : State) : Out :=
  .next (
    if s.mgtRuns ∧ s.mgt.unacked ≠ [] ∧ s.mgt.retxAt + max 1 (s.fld R.MGT_CFG F.MGT_CFG_RETX_MS) * 1000000 ≤ s.nowNs then s.halResend else s)

/-- HALYARD_ACK_SEND (R599): an ACK alone for what was accepted. -/
def execHalyardAckSend (s : State) : Out := .next (if s.mgtRuns ∧ s.mgt.ackDue then s.halAck else s)

/-- PENNANT_INSTALL_DONE (R555, R601): the installation ends, with its event and the RESULT of a halyard request. -/
def execPennantInstallDone (s : State) : Out :=
  .next (
    let x := s.penInstalled
    if x.2 = 0 then x.1 else x.1.halResult (BitVec.ofNat 32 (x.2 - 1)) stDone)

/-- MGT_LINK_UP (R606). -/
def execMgtLinkUp (s : State) : Out := .next (s.setFld R.MGT_STAT F.MGT_STAT_LINK 1)

/-- MGT_LINK_DOWN (R606). -/
def execMgtLinkDown (s : State) : Out := .next (s.setFld R.MGT_STAT F.MGT_STAT_LINK 0)

/-- MGT_HAL_STATE: a read of TX_SEQ latches TX_ACKED for the requester's next read of it (R606, R648). -/
def State.readHalState (s : State) (r : Req) (h : Half) : State :=
  s.guardR r R.MGT_HAL_STATE h (fun s =>
    let k := latchKey r
    let v := s.reg R.MGT_HAL_STATE
    let set (x : Option Word) (t : State) : State := { t with mgt := { t.mgt with latch := Store.set (fun _ => none) t.mgt.latch k x } }
    match h with
    | .full => s.answer r R.MGT_HAL_STATE h v
    | .high => (set (some v) s).answer r R.MGT_HAL_STATE h v
    | .low => (set none s).answer r R.MGT_HAL_STATE h ((Store.get (fun _ => none) s.mgt.latch k).getD v))

/-- MGT_HAL_STATE_READ (R606). -/
def execMgtHalStateRead (r : Req) (h : Half) (s : State) : Out := .next (s.readHalState r h)

/-! ### The mailbox (R603, R607) -/

/-- MGT_MBOX_IN_CTL: POST hands the IN message to the firmware, or sets POST_REJECT while it holds one; POST_REJECT clears by W1C. -/
def State.writeMboxIn (s : State) (h : Half) (v : Word) : State :=
  if h = .high then s
  else
    let s1 := if v.getLsbD 2 then s.setFld R.MGT_MBOX_IN_CTL F.MGT_MBOX_IN_CTL_POST_REJECT 0 else s
    if v.getLsbD 0 then
      (if s1.bit R.MGT_MBOX_IN_CTL F.MGT_MBOX_IN_CTL_BUSY then s1.setFld R.MGT_MBOX_IN_CTL F.MGT_MBOX_IN_CTL_POST_REJECT 1
       else s1.setFld R.MGT_MBOX_IN_CTL F.MGT_MBOX_IN_CTL_BUSY 1)
    else s1

/-- A word of the IN message. -/
def State.mboxIn (s : State) (w : Nat) : Word := s.reg (R.MGT_MBOX_IN w)
def State.mboxSeq (s : State) : BitVec 32 := BitVec.ofNat 32 ((s.mboxIn 0).toNat / 2 ^ 32)
def State.mboxOp (s : State) : Nat := (s.mboxIn 0).toNat % 256

/-- Answers the IN message: OUT is full, and the firmware holds no IN message. -/
def State.mboxAnswer (s : State) (st : BitVec 8) (words : List Word) : State :=
  let w0 : Word := BitVec.ofNat 64 (s.mboxOp + st.toNat * 256 + s.mboxSeq.toNat * 2 ^ 32)
  let s1 := (List.range 7).foldl (fun (t : State) i => t.setReg (R.MGT_MBOX_OUT (i + 1)) (words.getD i 0)) (s.setReg (R.MGT_MBOX_OUT 0) w0)
  (s1.setFld R.MGT_MBOX_IN_CTL F.MGT_MBOX_IN_CTL_BUSY 0).withCause 12 (fun t => t.setFld R.MGT_MBOX_OUT_CTL F.MGT_MBOX_OUT_CTL_FULL 1)

/-- Executes a posted IN message whose opcode a command takes, once OUT is free; a number other than the next one is answered SEQ_GAP (R603). -/
def State.mboxRun (s : State) (takes : Nat → Bool) (f : State → State) : State :=
  if s.mgtRuns ∧ s.bit R.MGT_MBOX_IN_CTL F.MGT_MBOX_IN_CTL_BUSY ∧ !s.bit R.MGT_MBOX_OUT_CTL F.MGT_MBOX_OUT_CTL_FULL ∧ takes s.mboxOp then
    let last : BitVec 32 := BitVec.ofNat 32 (s.fld R.MGT_MBOX_IN_CTL F.MGT_MBOX_IN_CTL_LAST_SEQ)
    if s.mboxSeq = last + 1 then f (s.setFld R.MGT_MBOX_IN_CTL F.MGT_MBOX_IN_CTL_LAST_SEQ s.mboxSeq.toNat)
    else s.mboxAnswer stSeqGap []
  else s

/-- MBOX_ECHO (R603). -/
def execMboxEcho (s : State) : Out :=
  .next (s.mboxRun (fun o => o == 1) (fun t => t.mboxAnswer stDone ((List.range 7).map (fun i => t.mboxIn (i + 1)))))

/-- MBOX_SEND (R603): words 1 to 7 become a HOST_NOTE while the window has a slot. -/
def execMboxSend (s : State) : Out :=
  .next (s.mboxRun (fun o => o == 2) (fun t =>
    if t.halFree then (t.halSeq 8 ((List.range 7).flatMap (fun i => leBytes (t.mboxIn (i + 1)).toNat 8))).mboxAnswer stDone []
    else t.mboxAnswer stBusyNoSlack []))

/-- MBOX_TELEM (R603). -/
def execMboxTelem (s : State) : Out :=
  .next (s.mboxRun (fun o => o == 3) (fun t =>
    ({ t with mgt := { t.mgt with interval := (t.mboxIn 1).toNat % 65536, telemAt := t.nowNs } }).mboxAnswer stDone []))

/-- MBOX_STATE (R603). -/
def execMboxState (s : State) : Out :=
  .next (s.mboxRun (fun o => o == 4) (fun t =>
    t.mboxAnswer stDone [BitVec.ofNat 64 (t.mgt.session.getD 0).toNat, BitVec.ofNat 64 t.mgt.rxSeq.toNat, BitVec.ofNat 64 t.txAcked.toNat]))

/-- MBOX_UNKNOWN_OPCODE (R603). -/
def execMboxUnknownOpcode (s : State) : Out :=
  .next (s.mboxRun (fun o => !(decide (1 ≤ o ∧ o ≤ 4))) (fun t => t.mboxAnswer stRejected []))

/-- OUT_CTL.RELEASE frees the OUT mailbox (R603). -/
def State.mboxRelease (s : State) : State := s.setFld R.MGT_MBOX_OUT_CTL F.MGT_MBOX_OUT_CTL_FULL 0

/-- MBOX_RELEASE (R603). -/
def execMboxRelease (r : Req) (s : State) : Out := .next (s.guardW r R.MGT_MBOX_OUT_CTL State.mboxRelease)

end Sys2Proof.Machine
end

