-- ==== Sys2Proof/Machine/Sec.lean ====
section
/-! DEFINITION. The security engine (R616 to R622): key operations and attestation. -/

namespace Sys2Proof.Machine

/-- The length of an authorisation block (R617). -/
def authLen : Nat := 7360

/-- Whether every owner slot is EMPTY. -/
def State.allEmpty (s : State) : Bool := (List.range 4).all (fun i => s.keySlot i == 0)

/-- The checks of a key operation on its authorisation block, in the order of R618, with the refusals of R620 first. -/
def State.keyCheck (s : State) (op : Nat) (l : List Byte) (poisoned : Bool) : BitVec 8 :=
  let slot := sliceN l 1 1
  let signer := sliceN l 2 1
  let free := op == 1 && s.allEmpty
  let key := bytesAt l 136 2592
  if (1 ≤ s.fabState ∧ s.fabState ≤ 4) ∨ s.bit R.FLT_PEN_STAT F.FLT_PEN_STAT_BUSY then stRejected
  else if poisoned then stIntegrity
  else if !zerosAt l 3 5 || (!free && !zerosAt l 7355 5) || (op == 3 && !zerosAt l 104 32) || sliceN l 0 1 != op || decide (3 < signer) ||
      (if op = 3 then slot != 0 else decide (3 < slot)) then stRejected
  else if bytesAt l 8 64 ≠ s.digest R.SEC_KEY_STATE then stRejected
  else if (op == 1 && s.keySlot slot != 0) || (free && slot != 0) ||
      (op == 2 && (s.keySlot slot != 1 || ((List.range 4).filter (fun i => s.keySlot i == 1)).length < 2)) ||
      (op == 3 && s.bit R.SEC_RESULT F.SEC_RESULT_FLEET_PRESENT) then stRejected
  else if free then stDone
  else if !s.slotHolds signer key then stAuthFail
  else if sigOk key "keyslot" (sha3_512 (bytesAt l 0 136)) (bytesAt l 2728 4627) then stDone
  else stAuthFail

/-- SEC_ARG_ADDR as an address. -/
def State.secArg (s : State) : Nat := s.fld R.SEC_ARG_ADDR F.SEC_ARG_ADDR_ADDR * 8

/-- Starts a security command with the status of its checks (R618, R620, R621). -/
def State.secStart (s : State) (op tag : Nat) : State :=
  let a := s.secArg
  let x : SecOp :=
    if op = 4 then
      { op := 4, tag := tag, slot := a, payload := s.rdBytes a 64
        status := if s.bootStage ≠ 7 then stRejected else if s.sec.seed.isNone then stNotPresent
          else if s.poisoned a 64 then stIntegrity else stDone }
    else
      let l := s.rdBytes a authLen
      let n := if op = 1 ∧ s.allEmpty then 136 else authLen
      { op := op, tag := tag, slot := sliceN l 1 1, payload := bytesAt l 72 64, status := s.keyCheck op l (s.poisoned a n) }
  { s with sec := { s.sec with op := some x } }.setFld R.SEC_RESULT F.SEC_RESULT_BUSY 1

/-- A write of SEC_CMD (R9, R622, R624): from the host over BAR0 and the management processor; while BUSY it sets CMD_REJECT. -/
def State.writeSecCmd (s : State) (r : Req) (op tag : Nat) : State :=
  s.guardW r R.SEC_CMD (fun s =>
    if op = 0 ∨ 4 < op then s
    else if s.bit R.SEC_RESULT F.SEC_RESULT_BUSY then s.setFld R.SEC_RESULT F.SEC_RESULT_CMD_REJECT 1
    else s.secStart op tag)

/-- SEC_PROVISION (R619). -/
def execSecProvision (r : Req) (tag : BitVec 16) (s : State) : Out := .next (s.writeSecCmd r 1 tag.toNat)

/-- SEC_REVOKE (R619). -/
def execSecRevoke (r : Req) (tag : BitVec 16) (s : State) : Out := .next (s.writeSecCmd r 2 tag.toNat)

/-- SEC_FLEET_SEED (R619). -/
def execSecFleetSeed (r : Req) (tag : BitVec 16) (s : State) : Out := .next (s.writeSecCmd r 3 tag.toNat)

/-- SEC_ATTEST (R621). -/
def execSecAttest (r : Req) (tag : BitVec 16) (s : State) : Out := .next (s.writeSecCmd r 4 tag.toNat)

/-- The bytes 0 to 287 of an attestation report over a challenge (R621). -/
def State.attestHead (s : State) (challenge : List Byte) : List Byte :=
  leBytes 0x54535441 4 ++ leBytes 1 2 ++ leBytes 0 2 ++ leBytes s.now.toNat 8 ++ challenge ++ s.digest R.FAB_CONFIG_DIGEST ++
    s.digest R.DET_SETTINGS_DIGEST ++ s.digest R.SEC_KEY_STATE ++ leBytes (s.reg R.GLB_CAPS).toNat 8 ++
    leBytes (s.fld R.FLT_PEN_STAT F.FLT_PEN_STAT_VERSION) 4 ++ leBytes 0 4

/-- The whole report signed with the fleet key of a seed (R621). -/
def State.attestReport (s : State) (seed challenge : List Byte) : List Byte :=
  let h := s.attestHead challenge
  h ++ bytesAt (Config.mldsaSign seed (withContext "attest" (sha3_512 h))) 0 4627 ++ bytesAt (Config.mldsaPublic seed) 0 2592 ++ List.replicate 5 0

/-- Writes a slot hash (R625). -/
def State.setKeyHash (s : State) (slot : Nat) (l : List Byte) : State := s.setDigest (R.SEC_KEY_HASH slot) l

def State.setKeySlot (s : State) (slot x : Nat) : State := s.setFld (R.SEC_KEY_SLOT slot) F.SEC_KEY_SLOT_STATE x

/-- What a command whose checks passed does, and its status (R619, R621): a burn that reads back wrong ends INTEGRITY with BURN_FAIL, its slot or seed left unusable. -/
def State.secAct (s : State) (x : SecOp) (burnOk : Bool) : State × BitVec 8 :=
  let fail (t : State) : State × BitVec 8 := (t.setFld R.SEC_RESULT F.SEC_RESULT_BURN_FAIL 1, stIntegrity)
  match x.op with
  | 1 => if burnOk then ((s.setKeyHash x.slot x.payload).setKeySlot x.slot 1, stDone) else fail (s.setKeySlot x.slot 2)
  | 2 => if burnOk then (s.setKeySlot x.slot 2, stDone) else fail (s.setKeySlot x.slot 2)
  | 3 =>
    let s1 := s.setFld R.SEC_RESULT F.SEC_RESULT_FLEET_PRESENT 1
    if burnOk then ({ s1 with sec := { s1.sec with seed := some (x.payload.take 32) } }, stDone) else fail s1
  | _ =>
    match s.sec.seed with
    | some seed => ((s.writeMem hostAgent (x.slot + 64) (s.attestReport seed x.payload)).state, stDone)
    | none => (s, stNotPresent)

/-- Runs what waited for a key operation, in order (R620). -/
def State.runWaiting (s : State) (l : List SecWait) : State :=
  l.foldl (fun (t : State) (w : SecWait) => match w with
    | .stage tag => t.stageCmd tag
    | .install older => t.penCmd older
    | .library seq len older => t.libInstall seq len older) s

/-- SEC_COMMAND_DONE (R619, R622): the command in progress ends, SEC_RESULT and SEC_KEY_STATE show it, and what waited for it runs. -/
def execSecCommandDone (burnOk : Bool) (s : State) : Out :=
  .next (
    match s.sec.op with
    | none => s
    | some x =>
      let y := if x.status = stDone then s.secAct x burnOk else (s, x.status)
      let s1 := ((y.1.setFld R.SEC_RESULT F.SEC_RESULT_TAG x.tag).setFld R.SEC_RESULT F.SEC_RESULT_LAST_STATUS y.2.toNat).setFld R.SEC_RESULT F.SEC_RESULT_LAST_OP x.op
      let s2 := (s1.setFld R.SEC_RESULT F.SEC_RESULT_BUSY 0).showKeyState
      { s2 with sec := { s2.sec with op := none, waiting := [] } }.runWaiting s2.sec.waiting)

end Sys2Proof.Machine
end

