-- ==== Sys2Proof/Machine/StepRate.lean ====
section
/-! DEFINITION. The live-rate monitor (R44, R45, R59). -/

namespace Sys2Proof.Machine

/-- STEP_RATE_WINDOW (R44, R45, R59): a window of 1 µs ends with a mean rate: RATE, SEQ, MIN_RATE, BELOW_FLOOR below 1,050 Msteps/s, and ALARM, a source of the GLB interrupt, below the threshold. The firmware notes the lowest rate (R598). -/
def execStepRateWindow (rate : BitVec 16) (s : State) : Out :=
  .next (
    let n := rate.toNat
    let s1 := (s.setFld R.GLB_STEP_RATE F.GLB_STEP_RATE_RATE n).wrapAdd R.GLB_STEP_RATE F.GLB_STEP_RATE_SEQ 1
    let s2 := s1.setFld R.GLB_STEP_RATE F.GLB_STEP_RATE_MIN_RATE (min n (s.fld R.GLB_STEP_RATE F.GLB_STEP_RATE_MIN_RATE))
    let seen := { s2 with mgt := { s2.mgt with minRate := min n s2.mgt.minRate } }
    let s3 := if n < 1050 then seen.setFld R.GLB_STEP_RATE F.GLB_STEP_RATE_BELOW_FLOOR 1 else seen
    if n < s.fld R.GLB_STEP_ALARM F.GLB_STEP_ALARM_THRESHOLD then
      s3.withCause 0 (fun t => t.setFld R.GLB_STEP_RATE F.GLB_STEP_RATE_ALARM 1)
    else s3)

/-- GLB_STEP_RATE: a read returns it and puts a covered MIN_RATE back to 0xFFFF (R10, R59). -/
def State.readStepRate (s : State) (r : Req) (h : Half) : State :=
  s.guardR r R.GLB_STEP_RATE h (fun s => (s.answer r R.GLB_STEP_RATE h (s.readValue R.GLB_STEP_RATE)).clearRC R.GLB_STEP_RATE h)

/-- STEP_RATE_READ (R59). -/
def execStepRateRead (r : Req) (h : Half) (s : State) : Out := .next (s.readStepRate r h)

end Sys2Proof.Machine
end

