-- ==== Sys2Proof/Machine/Bus.lean ====
section
/-! DEFINITION. The register bus (R9 to R12): what a write or a read of any register does, from any requester, with the actions that registers of every block take; MSI-X and the interrupt mask (R594, R595); and runs of bytes in the register mirror. -/

namespace Sys2Proof.Machine

/-- Which register of an array sits at an offset. -/
def arrIdx (off : Nat) (r : Nat → Nat) (n : Nat) : Option Nat :=
  let i := (off - r 0) / (r 1 - r 0)
  if r 0 ≤ off ∧ i < n ∧ r i = off then some i else none

/-- A write with no action of its own (R10). -/
def State.plainWrite (s : State) (r : Req) (off : Nat) (h : Half) (v : Word) : State :=
  s.guardW r off (fun s => s.writeFields off h v)

/-! ### Vectors (R594, R595) -/

/-- The first word of the MSI-X table, of which vector v has two, and of the pending-bit array. -/
def msixBase : Nat := 0x1420000
def pbaBase : Nat := 0x1428000

/-- Sends the message of a vector that is pending and no longer masked (R594). -/
def State.unmasked (s : State) (v : Nat) : State :=
  if s.host.msixEnable && Store.get (fun _ => false) s.host.pba v && !s.vecMasked v then (s.setPba v false).sendVec v else s

/-- Sends the messages of all pending vectors that are not masked, in ascending order. -/
def State.unmaskedAll (s : State) : State := (s.host.pba.map (fun p => p.1)).foldl State.unmasked s

/-- Sets a word of the MSI-X table; address words keep bits [63:2], data words the data and the mask bit. -/
def State.setMsix (s : State) (k : Nat) (w : Word) : State :=
  let x := w &&& (if k % 2 = 1 then 0x00000001FFFFFFFF else 0xFFFFFFFFFFFFFFFC)
  { s with host := { s.host with msixTable := Store.set msixReset s.host.msixTable k x } }

/-- A write of a word of the MSI-X table: a vector that it unmasks sends its pending message. -/
def State.writeMsix (s : State) (k : Nat) (h : Half) (v : Word) : State :=
  let m := halfMask h
  (s.setMsix k ((s.msixWord k &&& ~~~ m) ||| (v &&& m))).unmasked (k / 2)

/-- A word of the pending-bit array: 64 vectors. -/
def State.pbaWord (s : State) (k : Nat) : Word :=
  BitVec.ofNat 64 ((List.range 64).foldl (fun a i => if Store.get (fun _ => false) s.host.pba (64 * k + i) then a + 2 ^ i else a) 0)

/-- A write of GLB_IRQ_MASK: a mask bit cleared while its cause is 1 raises the cause's vector (R595). -/
def State.writeIrqMask (s : State) (r : Req) (h : Half) (v : Word) : State :=
  s.guardW r R.GLB_IRQ_MASK (fun s =>
    let old := s.reg R.GLB_IRQ_MASK
    let s1 := s.writeFields R.GLB_IRQ_MASK h v
    (List.range 64).foldl (fun (t : State) i =>
      if old.getLsbD i && !(s1.reg R.GLB_IRQ_MASK).getLsbD i && s1.cause i then t.raiseVec (s.fld R.GLB_IRQ_CFG F.GLB_IRQ_CFG_BASE + i) else t) s1)

/-! ### Writes, block by block -/

/-- The low or the high bits of a write that covers them, zero of one that does not (R9). -/
def lowOf (h : Half) (v : Word) : Word := if h = .high then 0 else v &&& 0xFFFFFFFF
def topTag (h : Half) (v : Word) : Nat := if h = .low then 0 else v.toNat / 2 ^ 48

/-- GLB and FAB. -/
def State.busGlb (s : State) (r : Req) (off : Nat) (h : Half) (v : Word) : State :=
  if off = R.GLB_IRQ_MASK then s.writeIrqMask r h v
  else if off = R.FAB_CMD then s.writeFabCmd r (F.FAB_CMD_OP.get (lowOf h v)) (topTag h v)
  else s.plainWrite r off h v

/-- TIME. -/
def State.busTime (s : State) (r : Req) (off : Nat) (h : Half) (v : Word) : State :=
  if off = R.TIME_STEP then s.writeTimeStep r h v
  else if off = R.TIME_RATE then s.writeTimeRate r h v
  else if off = R.TIME_CTL then s.writeTimeCtl r h v
  else if off = R.TIME_ALT_CTL then s.writeAltCtl r h v
  else if off = R.TIME_ALT_RATE then s.writeAltRate r h v
  else if off = R.TIME_ALT_OFFSET then s.writeAltOffset r h v
  else match arrIdx off R.TIME_CMP_ARM 64 with
    | some n => s.writeCmpArm n r h v
    | none => s.plainWrite r off h v

/-- A write of IMG_PORT_CTL (R146). -/
def State.writePortCtl (s : State) (p : Nat) (r : Req) (h : Half) (v : Word) : State :=
  s.guardW r (R.IMG_PORT_CTL p) (fun s =>
    if h = .high then s
    else if v.getLsbD 0 then s.camDisable p (v.getLsbD 8)
    else (s.camEnable p).setBit (R.IMG_PORT_CTL p) F.IMG_PORT_CTL_DISABLE_MODE (v.getLsbD 8))

/-- IMG, TOK and EDGE. -/
def State.busImg (s : State) (r : Req) (off : Nat) (h : Half) (v : Word) : State :=
  match arrIdx off R.IMG_PORT_CTL 16 with
  | some p => s.writePortCtl p r h v
  | none =>
    match arrIdx off R.IMG_SRC_RELEASE 128 with
    | some k => s.writeRelease k r h v
    | none => s.plainWrite r off h v

/-- CORE_INJECT (R209): ARM arms one bit flip in a column sum of a matrix engine. -/
def State.writeInject (s : State) (n : Nat) (r : Req) (h : Half) (v : Word) : State :=
  s.guardW r (R.CORE_INJECT n) (fun s =>
    let w := lowOf h v
    if w.getLsbD 8 then
      s.setCore n { s.core n with inject := some (if w.getLsbD 7 then .b else .a, F.CORE_INJECT_COLUMN.get w) }
    else s)

/-- CORE: CORE_ERR_INFO is ready for a capture again once no CORE_ERR bit is set (R227). -/
def State.busCore (s : State) (r : Req) (off : Nat) (h : Half) (v : Word) : State :=
  match arrIdx off R.CORE_ERR 16 with
  | some n => s.guardW r off (fun s =>
      let s1 := s.writeFields off h v
      if s1.reg off = 0 then s1.setFld (R.CORE_ERR_INFO n) F.CORE_ERR_INFO_VALID 0 else s1)
  | none =>
    match arrIdx off R.CORE_INJECT 16 with
    | some n => s.writeInject n r h v
    | none => s.plainWrite r off h v

/-- SPD. -/
def State.busSpd (s : State) (r : Req) (off : Nat) (h : Half) (v : Word) : State :=
  match arrIdx off R.SPD_BANK_OWNER 1280 with
  | some b => s.ownerWrite b r h v
  | none =>
    match arrIdx off R.SPD_BANK_PWR 1280 with
    | some b => s.pwrWrite b r h v
    | none => s.plainWrite r off h v

/-- KV and SOL: KV_ERR holds no index once DESC_UNCORR is clear (R337). -/
def State.busKv (s : State) (r : Req) (off : Nat) (h : Half) (v : Word) : State :=
  if off = R.KV_STAT then
    s.guardW r off (fun s =>
      let s1 := s.writeFields off h v
      if s1.bit R.KV_STAT F.KV_STAT_DESC_UNCORR then s1 else s1.setFld R.KV_ERR F.KV_ERR_VALID 0)
  else s.plainWrite r off h v

/-- A write of CTL_GROUP_CTL (R381). -/
def State.writeGroupCtl (s : State) (g : Nat) (r : Req) (h : Half) (v : Word) : State :=
  if h = .high then s
  else if v.getLsbD 0 then s.groupDisable g r (v.getLsbD 8)
  else (s.groupEnable g r).guardW r (R.CTL_GROUP_CTL g) (fun t => t.setBit (R.CTL_GROUP_CTL g) F.CTL_GROUP_CTL_DISABLE_MODE (v.getLsbD 8))

/-- CTL and SIO. -/
def State.busCtl (s : State) (r : Req) (off : Nat) (h : Half) (v : Word) : State :=
  if isTraceReg off then s.writeTrace r off h v
  else match arrIdx off R.CTL_GROUP_CTL 8 with
    | some g => s.writeGroupCtl g r h v
    | none =>
      match arrIdx off R.CTL_SLOT_IN 512 with
      | some i => s.writeSlotIn i r h v
      | none => s.plainWrite r off h v

/-- A write of CAN_CTL (R414, R416). Whether a frame is in progress on the bus is a free value (log 1). -/
def State.writeCanCtl (s : State) (k : Nat) (r : Req) (h : Half) (v : Word) : State :=
  s.guardW r (R.CAN_CTL k) (fun s =>
    if h = .high then s
    else
      let s1 := if v.getLsbD 1 then s.canRecover k else s
      if v.getLsbD 0 then
        let x := s1.free
        x.2.canDisable k (v.getLsbD 8) (x.1.getLsbD 0 && (!s.bit (R.CAN_CTL k) F.CAN_CTL_DISABLE || (s.can k).leaving))
      else (s1.canEnable k).setBit (R.CAN_CTL k) F.CAN_CTL_DISABLE_MODE (v.getLsbD 8))

/-- CAN and ETH: a message buffer with REQ set, or Plumb's, takes no write of its identifier or data (R413, R415). Whether a frame to abort is on the bus is a free value (log 1). -/
def State.busCan (s : State) (r : Req) (off : Nat) (h : Half) (v : Word) : State :=
  let k := (off - 0x900000) / 0x10000
  let m := (off % 0x10000 - 0x1000) / 0x80
  if 8 ≤ k then s.plainWrite r off h v
  else if off = R.CAN_CTL k then s.writeCanCtl k r h v
  else if off % 0x10000 < 0x1000 ∨ 64 ≤ m then s.plainWrite r off h v
  else if off = R.CAN_MB_CTRL k m then
    s.guardW r off (fun s =>
      let x := s.free
      x.2.writeMbCtrl k m h v (x.1.getLsbD 0))
  else s.guardW r off (fun s => if s.mbLocked k m then s else s.writeFields off h v)

/-- A write of QUE_CTL (R433, R455). -/
def State.writeQueCtl (s : State) (q : Nat) (r : Req) (h : Half) (v : Word) : State :=
  if h = .high then s
  else
    let s1 := s.guardW r (R.QUE_CTL q) (fun s => if v.getLsbD 3 then s.setFld (R.QUE_CTL q) F.QUE_CTL_DB_ERR 0 else s)
    if v.getLsbD 0 then s1.queueDisable q r (v.getLsbD 1)
    else (s1.queueEnable q r).guardW r (R.QUE_CTL q) (fun t => t.setBit (R.QUE_CTL q) F.QUE_CTL_DISABLE_MODE (v.getLsbD 1))

/-- QUE: the rings and CMD_CONS take writes only while the queue is IDLE (R460). -/
def State.busQue (s : State) (r : Req) (off : Nat) (h : Half) (v : Word) : State :=
  let q := (off - 0xC00000) / 0x40
  if off = R.QUE_DOORBELL q then s.writeDoorbell q r h v
  else if off = R.QUE_CTL q then s.writeQueCtl q r h v
  else s.guardW r off (fun s => if s.bit (R.QUE_CTL q) F.QUE_CTL_IDLE then s.writeFields off h v else s)

/-- HBM. -/
def State.busHbm (s : State) (r : Req) (off : Nat) (h : Half) (v : Word) : State :=
  if off = R.HBM_RETIRE_REQ then s.retireReq r h v
  else if off = R.HBM_RETRAIN_CTL then s.retrainWrite r h v
  else s.plainWrite r off h v

/-- A write of DET_REC_CTL: ENABLE restarts the ring's byte count and LOG_SEQ (R496, R506). -/
def State.writeRecCtl (s : State) (r : Req) (h : Half) (v : Word) : State :=
  s.guardW r R.DET_REC_CTL (fun s =>
    let s1 := s.writeFields R.DET_REC_CTL h v
    if !s.bit R.DET_REC_CTL F.DET_REC_CTL_ENABLE && s1.bit R.DET_REC_CTL F.DET_REC_CTL_ENABLE then
      { s1.setReg R.DET_REC_PROD 0 with recorder := {} }
    else s1)

/-- A write of DET_REPLAY_CTL: ENABLE starts the replay at the first entry of the log (R498). -/
def State.writeReplayCtl (s : State) (r : Req) (h : Half) (v : Word) : State :=
  s.guardW r R.DET_REPLAY_CTL (fun s =>
    let s1 := s.writeFields R.DET_REPLAY_CTL h v
    if !s.bit R.DET_REPLAY_CTL F.DET_REPLAY_CTL_ENABLE && s1.bit R.DET_REPLAY_CTL F.DET_REPLAY_CTL_ENABLE then
      let s2 := (s1.setFld R.DET_REPLAY_STAT F.DET_REPLAY_STAT_DONE 0).setReg R.DET_REPLAY_CONS 0
      { s2 with det := { s2.det with replaySens := [] } }
    else s1)

/-- CHD and DET: the chord timeout is clamped to 10 to 1,000 µs (R488). -/
def State.busDet (s : State) (r : Req) (off : Nat) (h : Half) (v : Word) : State :=
  if off = R.CHD_CFG then
    s.guardW r off (fun s =>
      let s1 := s.writeFields off h v
      s1.setFld R.CHD_CFG F.CHD_CFG_TIMEOUT_US (max 10 (min 1000 (s1.fld R.CHD_CFG F.CHD_CFG_TIMEOUT_US))))
  else if off = R.CHD_CTL then (if (lowOf h v).getLsbD 0 then s.enumWrite r else s)
  else if off = R.DET_LAUNCH_CTL then s.writeLaunchCtl r h v
  else if off = R.DET_LS_CFG then s.writeLsCfg r h v
  else if off = R.DET_REC_CTL then s.writeRecCtl r h v
  else if off = R.DET_REPLAY_CTL then s.writeReplayCtl r h v
  else match arrIdx off R.DET_LS_FEED 8 with
    | some f => s.writeFeed f r h v
    | none => s.plainWrite r off h v

/-- A write of FLT_TEST_DEADLINE or FLT_TEST_ADDR: the copy of the requester (R551). -/
def State.writeTestCopy (s : State) (r : Req) (off : Nat) (h : Half) (v : Word) : State :=
  s.guardW r off (fun s =>
    let mgt := r == .mgt
    let x := s.testCopy mgt
    let m := halfMask h
    if off = R.FLT_TEST_DEADLINE then s.setTestCopy mgt { x with deadline := (x.deadline &&& ~~~ m) ||| (v &&& m) }
    else s.setTestCopy mgt { x with addr := (x.addr &&& ~~~ m) ||| (v &&& m &&& 0x0000FFFFFFFFFFE0) })

/-- PLB and FLT. -/
def State.busFlt (s : State) (r : Req) (off : Nat) (h : Half) (v : Word) : State :=
  let w := lowOf h v
  if off = R.PLB_ACK then s.plAck r h v
  else if off = R.PLB_CTL then
    (if h = .high then s
    else
      let s1 := s.plForce r (w.getLsbD 0)
      if w.getLsbD 1 then s1.plClearFirst r else s1)
  else if off = R.FLT_CMD then (if w.getLsbD 8 then s.furlWrite r (F.FLT_CMD_CORE.get w) else s)
  else if off = R.FLT_TEST_REQ then s.testReq r h v
  else if off = R.FLT_TEST_DEADLINE ∨ off = R.FLT_TEST_ADDR then s.writeTestCopy r off h v
  else if off = R.FLT_PEN_CMD then (if w.getLsbD 0 then s.writePenCmd r (w.getLsbD 1) else s)
  else match arrIdx off R.PLB_INBOX 17 with
    | some i => s.writeInbox i r h v
    | none => s.plainWrite r off h v

/-- PWR and SEC. -/
def State.busPwr (s : State) (r : Req) (off : Nat) (h : Half) (v : Word) : State :=
  let w := lowOf h v
  if off = R.PWR_CFG then s.writePwrCfg r h v
  else if off = R.PWR_VDD then s.writePwrVdd r h v
  else if off = R.PWR_THERM_CFG then s.writePwrTherm r h v
  else if off = R.SEC_CTL then (if w.getLsbD 0 then s.warmWrite r (F.SEC_CTL_CONFIRM.get w) else s)
  else if off = R.SEC_CMD then s.writeSecCmd r (F.SEC_CMD_OP.get w) (topTag h v)
  else match arrIdx off R.PWR_DOMAIN 3 with
    | some k => s.writeBmax k r h v
    | none => s.plainWrite r off h v

/-- MGT, with the MSI-X table (R594, R603, R607). -/
def State.busMgt (s : State) (r : Req) (off : Nat) (h : Half) (v : Word) : State :=
  if msixBase ≤ off ∧ off < pbaBase then s.guardW r off (fun s => s.writeMsix ((off - msixBase) / 8) h v)
  else if off = R.MGT_MBOX_IN_CTL then s.guardW r off (fun s => s.writeMboxIn h v)
  else if off = R.MGT_MBOX_OUT_CTL then s.guardW r off (fun s => if (lowOf h v).getLsbD 1 then s.mboxRelease else s)
  else match arrIdx off R.MGT_MBOX_IN 8 with
    | some _ => s.guardW r off (fun s => if s.bit R.MGT_MBOX_IN_CTL F.MGT_MBOX_IN_CTL_BUSY then s else s.writeFields off h v)
    | none => s.plainWrite r off h v

/-- A write of the register at a BAR0 offset, whoever makes it (R9 to R12). An offset that is no multiple of 8 names no register. -/
def State.busWrite (s : State) (r : Req) (off : Nat) (h : Half) (v : Word) : State :=
  if off % 8 ≠ 0 then s
  else match off / 0x100000 with
    | 0 | 1 => s.busGlb r off h v
    | 2 => s.busTime r off h v
    | 3 => s.busImg r off h v
    | 4 => s.busCore r off h v
    | 6 => s.busSpd r off h v
    | 7 => s.busKv r off h v
    | 8 => s.busCtl r off h v
    | 9 => s.busCan r off h v
    | 12 | 13 | 14 | 15 => s.busQue r off h v
    | 16 => s.busHbm r off h v
    | 17 => s.busDet r off h v
    | 18 => s.busFlt r off h v
    | 19 => s.busPwr r off h v
    | 20 => s.busMgt r off h v
    | _ => s.plainWrite r off h v

/-! ### Reads -/

/-- The commands that a canton's queues have accepted and not retired, LC or BE (R459). -/
def State.runnable (s : State) (c : Nat) (lc : Bool) : Nat :=
  s.queues.foldl (fun a p => if s.cantonOfQueue p.1 = some c ∧ s.qLC p.1 = lc then a + (p.2.cmds.filter (fun x => x.accepted)).length else a) 0

/-- The queues of core programs of a canton whose oldest command waits, runs or is suspended. -/
def State.coreHeads (s : State) (c : Nat) : List Nat :=
  (s.queues.map (fun p => p.1)).filter (fun q => s.cantonOfQueue q == some c && s.qUnit q == 1 &&
    match s.head q with
    | some x => x.accepted && x.phase != .ended
    | none => false)

/-- SCH_STAT: which cantons have an LC command waiting, and which have more runnable commands of one rank than active cores (R453, R457). -/
def State.schStat (s : State) : Word :=
  let waits (c : Nat) : Bool := s.queues.any (fun p => s.cantonOfQueue p.1 == some c && s.qLC p.1 && p.2.cmds.any (fun x => x.accepted && x.phase == .waiting))
  let slicing (c : Nat) : Bool :=
    let l := s.coreHeads c
    l.any (fun q => decide ((s.cantonCores c).length < (l.filter (fun p => s.qRank p == s.qRank q)).length))
  BitVec.ofNat 64 ((List.range 8).foldl (fun a c => a + (if waits c then 2 ^ c else 0) + (if slicing c then 2 ^ (c + 8) else 0)) 0)

/-- What a register shows that is not stored in it (R102, R459, R551, R594, R596), and otherwise its stored value. -/
def State.viewValue (s : State) (r : Req) (off : Nat) : Word :=
  let x := s.testCopy (r == .mgt)
  if off = R.GLB_IRQ_STAT then s.irqStat
  else if off = R.TIME_LATCH then s.timeLatch r
  else if off = R.SCH_STAT then s.schStat
  else if off = R.FLT_TEST_DEADLINE then x.deadline
  else if off = R.FLT_TEST_ADDR then x.addr
  else if off = R.FLT_TEST_STAT then
    F.FLT_TEST_STAT_LAST_STATUS.set (F.FLT_TEST_STAT_LAST_SEQ.set (s.reg off) x.lastSeq.toNat) x.lastStatus.toNat
  else if msixBase ≤ off ∧ off < pbaBase then s.msixWord ((off - msixBase) / 8)
  else if pbaBase ≤ off ∧ off < pbaBase + 256 then s.pbaWord ((off - pbaBase) / 8)
  else match arrIdx off R.SCH_CANTON_LOAD 8 with
    | some c => F.SCH_CANTON_LOAD_RUNNABLE_BE.set (F.SCH_CANTON_LOAD_RUNNABLE_LC.set (s.readValue off) (s.runnable c true)) (s.runnable c false)
    | none => s.readValue off

/-- A read with no action but the clearing of RC fields (R9, R10). -/
def State.plainRead (s : State) (r : Req) (off : Nat) (h : Half) : State :=
  s.guardR r off h (fun s => (s.answer r off h (s.viewValue r off)).clearRC off h)

/-- A read of the register at a BAR0 offset, whoever makes it. An offset that is no multiple of 8 names no register. -/
def State.busRead (s : State) (r : Req) (off : Nat) (h : Half) : State :=
  if off % 8 ≠ 0 then s
  else if off = R.TIME_NOW then s.readTimeNow r h
  else if off = R.MGT_HAL_STATE then s.readHalState r h
  else match arrIdx off R.TIME_EVT_STAMP 17 with
    | some k => s.readEvtStamp k r h
    | none =>
      let q := (off - 0xC00000) / 0x40
      if 0xC00000 ≤ off ∧ off < 0x1000000 ∧ off = R.QUE_SEQ q then s.readQueSeq q r h
      else if 0xC00000 ≤ off ∧ off < 0x1000000 ∧ off = R.QUE_RING q then s.readQueRing q r h
      else s.plainRead r off h

/-- GENERIC_REGISTER_WRITE (R10). -/
def execGenericRegisterWrite (r : Req) (off : BitVec 26) (h : Half) (v : Word) (s : State) : Out := .next (s.busWrite r off.toNat h v)

/-- GENERIC_REGISTER_READ (R10). -/
def execGenericRegisterRead (r : Req) (off : BitVec 26) (h : Half) (s : State) : Out := .next (s.busRead r off.toNat h)

/-- CORE_INJECT_WRITE (R209). -/
def execCoreInjectWrite (n : Fin 16) (r : Req) (h : Half) (v : Word) (s : State) : Out := .next (s.writeInject n.val r h v)

/-- GLB_IRQ_MASK_WRITE (R595). -/
def execGlbIrqMaskWrite (r : Req) (h : Half) (v : Word) (s : State) : Out := .next (s.writeIrqMask r h v)

/-! ### Runs of bytes in the register mirror -/

/-- A read whose data a unit takes, in place of a completion that leaves the device. -/
def State.busGet (s : State) (r : Req) (off : Nat) (h : Half) : Word × State :=
  let t := s.busRead r off h
  match t.out.getLast? with
  | some (.readData _ _ d) => (d, { t with out := t.out.dropLast })
  | _ => (0, { t with out := t.out.dropLast })

/-- Reads n bytes of the mirror from an offset: whole registers as 64-bit accesses, aligned halves as 32-bit accesses; a byte outside both reads as zero. -/
def State.mirrorRead (s : State) (r : Req) (off n : Nat) : Nat → List Byte × State
  | 0 => ([], s)
  | f + 1 =>
    if n = 0 then ([], s)
    else if off % 8 = 0 ∧ 8 ≤ n then
      let x := s.busGet r off .full
      let y := x.2.mirrorRead r (off + 8) (n - 8) f
      (leBytes x.1.toNat 8 ++ y.1, y.2)
    else if off % 4 = 0 ∧ 4 ≤ n then
      let x := if off % 8 = 0 then s.busGet r off .low else s.busGet r (off - 4) .high
      let y := x.2.mirrorRead r (off + 4) (n - 4) f
      (leBytes (if off % 8 = 0 then x.1.toNat else x.1.toNat / 2 ^ 32) 4 ++ y.1, y.2)
    else
      let y := s.mirrorRead r (off + 1) (n - 1) f
      (0 :: y.1, y.2)

/-- Writes bytes to the mirror from an offset: whole registers as 64-bit accesses, aligned halves as 32-bit accesses; a byte outside both is dropped. -/
def State.mirrorWrite (s : State) (r : Req) (off : Nat) (l : List Byte) : Nat → State
  | 0 => s
  | f + 1 =>
    if l = [] then s
    else if off % 8 = 0 ∧ 8 ≤ l.length then
      (s.busWrite r off .full (BitVec.ofNat 64 (leNat (l.take 8)))).mirrorWrite r (off + 8) (l.drop 8) f
    else if off % 4 = 0 ∧ 4 ≤ l.length then
      (if off % 8 = 0 then s.busWrite r off .low (BitVec.ofNat 64 (leNat (l.take 4)))
        else s.busWrite r (off - 4) .high (BitVec.ofNat 64 (leNat (l.take 4) * 2 ^ 32))).mirrorWrite r (off + 4) (l.drop 4) f
    else s.mirrorWrite r (off + 1) (l.drop 1) f

end Sys2Proof.Machine
end

