-- ==== Sys2Proof/Machine/Edge.lean ====
section
/-! DEFINITION. The edge-layer engines: CONV, POOL and RESIZE (R292 to R305). -/

namespace Sys2Proof.Machine

/-- The parameter block of an edge command (R295). -/
structure EdgeP where
  i : Desc
  o : Desc
  w : Desc
  wZero : Bool
  req : Nat
  opmode : Nat
  kh : Nat
  kw : Nat
  stride : Nat
  padT : Nat
  padL : Nat
  pad : Nat
  za : Nat
  rnd : Nat
  scaleY : Nat
  scaleX : Nat
  reqN : Nat
  resv : Nat
  deriving DecidableEq, Repr

/-- The parameters that 128 bytes spell. -/
def edgeP (l : List Byte) : EdgeP :=
  { i := descAt l 0, o := descAt l 32, w := descAt l 64, wZero := sliceN l 64 32 == 0, req := sliceN l 96 8
    opmode := sliceN l 104 1, kh := sliceN l 105 1, kw := sliceN l 106 1, stride := sliceN l 107 1
    padT := sliceN l 108 2, padL := sliceN l 110 2, pad := sliceN l 112 2, za := sliceN l 114 1, rnd := sliceN l 115 1
    scaleY := sliceN l 116 4, scaleX := sliceN l 120 4, reqN := sliceN l 124 2, resv := sliceN l 126 2 }

/-- The agent of edge engine e for a canton (R257). -/
def edgeAgent (e canton : Nat) : Agent := unitAgent (0x10 + e) canton

def edgeInt (f : Fmt) : Bool := f == .int8 || f == .uint8
def edgeFloat (f : Fmt) : Bool := f == .fp16 || f == .bf16

/-- The channels padded to whole blocks (R277). -/
def padC (c : Nat) : Nat := (c + 15) / 16 * 16

/-- The output channels of a command: COUT of CONV, the input's of POOL and RESIZE. -/
def EdgeP.cout (p : EdgeP) (conv : Bool) : Nat := if conv then p.w.d1 else p.i.d0

/-- The output descriptor with the output's channels as DIM0 (log 31). -/
def EdgeP.outDesc (p : EdgeP) (conv : Bool) : Desc := { p.o with d0 := p.cout conv }

/-- Whether the fields that every edge command has break R294 or R295: input and output format and layout, rounding, reserved bytes, AUX. -/
def EdgeP.badCommon (p : EdgeP) (dense : Bool) : Bool :=
  let fi := p.i.format
  let fo := p.o.format
  !(p.i.layout == 1 && (match fi with
    | some f => edgeInt f || edgeFloat f
    | none => false)) ||
  !((p.o.layout == 1 || (dense && p.o.layout == 0)) && (match fo with
    | some f => edgeInt f || edgeFloat f || f == .int16 || f == .fp32
    | none => false)) ||
  decide (3 ≤ p.rnd) || p.resv != 0 || p.i.aux != 0xFFFF || p.o.aux != 0xFFFF

/-- Whether CONV's fields break R293 to R296. -/
def EdgeP.badConv (p : EdgeP) : Bool :=
  let t := p.kh * p.kw * p.i.d0
  let fi := p.i.format.getD .int8
  let fo := p.o.format.getD .int8
  let outInt := edgeInt fo || fo == .int16
  p.badCommon (p.opmode == 1) || decide (1 < p.opmode) || decide (7 < p.padT) || decide (7 < p.padL) ||
  p.w.aux != 0xFFFF || p.w.layout != 0 || p.w.d0 != t || p.w.d2 != 1 || p.w.d3 != 1 ||
  (if edgeInt fi then p.w.format != some .int8 else !(p.w.format == some .fp16 || p.w.format == some .bf16)) ||
  (if outInt then p.req == 0 || !edgeInt fi else p.req != 0) ||
  (p.req != 0 && p.reqN != 1 && p.reqN != p.w.d1) ||
  (if p.opmode = 0 then
    !(decide (1 ≤ p.i.d0 ∧ p.i.d0 ≤ 4 ∧ 1 ≤ p.kh ∧ p.kh ≤ 7 ∧ 1 ≤ p.kw ∧ p.kw ≤ 7 ∧ 1 ≤ p.stride ∧ p.stride ≤ 4 ∧ t ≤ 196 ∧ p.w.d1 ≤ 64))
  else
    !(decide (p.i.d0 ≤ 2048 ∧ ((p.kh = 1 ∧ p.kw = 1) ∨ (p.kh = 3 ∧ p.kw = 3)) ∧ p.stride = 1 ∧ t ≤ 18432 ∧ p.w.d1 ≤ 16)))

/-- The bytes of a pixel of the input over all planes. -/
def EdgeP.pixelBytes (p : EdgeP) : Nat := padC p.i.d0 * (p.i.format.getD .int8).bits / 8

/-- Whether POOL's fields break R294 to R296. -/
def EdgeP.badPool (p : EdgeP) : Bool :=
  p.badCommon false || decide (2 < p.opmode) || decide (7 < p.padT) || decide (7 < p.padL) || !p.wZero ||
  !(decide (1 ≤ p.kh ∧ 1 ≤ p.kw ∧ 1 ≤ p.stride ∧ p.stride ≤ 8)) || decide (8192 < p.pixelBytes)

/-- Whether RESIZE's fields break R294 to R296. -/
def EdgeP.badResize (p : EdgeP) : Bool := p.badCommon false || decide (1 < p.opmode) || !p.wZero || decide (8192 < p.pixelBytes)

/-- A result of an element: its code and flags, or none where the spec states no value. -/
abbrev EdgeOut := Option (Nat × FmtFlags)

/-- The requant table entry of an output channel. -/
def reqEntry (table : List Byte) (n c : Nat) : Nat := sliceN table (8 * (if n = 1 then 0 else c)) 8

/-- A tap of a window: the pixel's element of channel c, or none outside the image. -/
def tapAt (codes : List Nat) (d : Desc) (x y : Int) (c : Nat) : Option Nat :=
  if x < 0 ∨ y < 0 ∨ (d.d1 : Int) ≤ x ∨ (d.d2 : Int) ≤ y then none
  else some (codes.getD ((y.toNat * d.d1 + x.toNat) * d.d0 + c) 0)

/-- The taps of an output pixel in ascending order (ky, kx, channel), as codes; none outside the image. -/
def EdgeP.taps (p : EdgeP) (codes : List Nat) (ox oy : Nat) (cs : List Nat) : List (Option Nat) :=
  (List.range (p.kh * p.kw)).flatMap (fun t =>
    cs.map (fun c => tapAt codes p.i ((ox * p.stride + t % p.kw : Nat) - (p.padL : Int)) ((oy * p.stride + t / p.kw : Nat) - (p.padT : Int)) c))

/-- Groups of a float CONV added one after the other to an FP32 accumulator (R297). -/
def convGroups (g : Nat) (acc : BitVec 32) (fl : FmtFlags) : Nat → List Val → List Val → BitVec 32 × FmtFlags
  | 0, _, _ => (acc, fl)
  | k + 1, a, w =>
    let r := accFloat acc (colSum (a.take g) (w.take g) { sum := none, nan := false })
    convGroups g r.1 (fl ||| r.2) k (a.drop g) (w.drop g)

/-- One output element of CONV: output channel co of pixel (ox, oy), with the draw of its rounding (R297). -/
def EdgeP.convAt (p : EdgeP) (codes wcodes : List Nat) (table : List Byte) (draw ox oy co : Nat) : EdgeOut :=
  let fi := p.i.format.getD .int8
  let fo := p.o.format.getD .int8
  let fw := p.w.format.getD .int8
  let t := p.w.d0
  let as := (p.taps codes ox oy (List.range p.i.d0)).map (fun x => (fi.decode (x.getD p.pad)).1)
  let ws := ((wcodes.drop (co * t)).take t).map (fun x => (fw.decode x).1)
  if edgeInt fi then
    let za := (fi.decode p.za).1
    let sum := (colSum (as.map (fun a => a.sub za)) ws { sum := none, nan := false }).sum.getD valZero
    let acc := (accInt 0 sum).1
    if p.req = 0 then some (fo.encode (rndOf p.rnd) draw (.ofInt acc.toInt))
    else
      let y := requant (reqEntry table p.reqN co) acc.toInt fo ((fo.int?.getD (0, 0)).1) ((fo.int?.getD (0, 0)).2)
      some (toTwos fo.bits y.1, y.2)
  else
    let g := if p.opmode = 0 then 64 else 1024
    let r := convGroups g 0 0 ((t + g - 1) / g) as ws
    let w := Fmt.decode .fp32 r.1.toNat
    let y := fo.encode (rndOf p.rnd) draw w.1
    some (y.1, r.2 ||| y.2 ||| w.2)

/-- The quotient of an exact sum by a count, rounded half away from zero. -/
def divAway (x : Int) (n : Nat) : Int :=
  let q : Nat := (2 * x.natAbs + n) / (2 * n)
  if x < 0 then -(q : Int) else (q : Int)

/-- The integer of an exact value whose exponent is not negative. -/
def Val.toInt : Val → Int
  | .fin s m e => if s then -((m * 2 ^ e.toNat : Nat) : Int) else ((m * 2 ^ e.toNat : Nat) : Int)
  | _ => 0

/-- One output element of POOL (R301). A window with no tap inside the image has no stated maximum and no stated average without its padding. -/
def EdgeP.poolAt (p : EdgeP) (codes : List Nat) (draw ox oy c : Nat) : EdgeOut :=
  let fi := p.i.format.getD .int8
  let fo := p.o.format.getD .int8
  let taps := p.taps codes ox oy [c]
  let inside := (taps.filterMap id).map (fun x => (fi.decode x).1)
  let all := taps.map (fun x => (fi.decode (x.getD p.pad)).1)
  let used := if p.opmode = 1 then all else inside
  let nanFl : FmtFlags := if used.contains .nan then flagNanIn else 0
  if used.isEmpty then none
  else
    let v : Val :=
      if p.opmode = 0 then vecMaxOf used
      else if edgeInt fi then .ofInt (divAway (used.foldl (fun a x => a + x.toInt) 0) used.length)
      else roundF32 ((used.foldl f32Add valZero).div (.ofInt (used.length : Int)))
    let y := fo.encode (rndOf p.rnd) draw v
    some (y.1, y.2 ||| nanFl)

/-- The source position of an output coordinate in 16.16 fixed point (R302). -/
def resizePos (x scale w : Nat) : Nat :=
  let v : Int := (((2 * x + 1) * scale : Nat) : Int) - 65536
  let s : Int := v.shiftRight 1
  (min (max s 0) (((w - 1) * 65536 : Nat) : Int)).toNat

/-- One output element of RESIZE (R302). -/
def EdgeP.resizeAt (p : EdgeP) (codes : List Nat) (draw ox oy c : Nat) : EdgeOut :=
  let fi := p.i.format.getD .int8
  let fo := p.o.format.getD .int8
  let sx := resizePos ox p.scaleX p.i.d1
  let sy := resizePos oy p.scaleY p.i.d2
  let px (x y : Nat) : Val := (fi.decode (codes.getD ((y * p.i.d1 + x) * p.i.d0 + c) 0)).1
  let out (v : Val) (fl : FmtFlags) : EdgeOut := let y := fo.encode (rndOf p.rnd) draw v; some (y.1, y.2 ||| fl)
  if p.opmode = 0 then
    let v := px ((sx + 32768) / 65536) ((sy + 32768) / 65536)
    out v (if v = .nan then flagNanIn else 0)
  else
    let x0 := sx / 65536
    let y0 := sy / 65536
    let x1 := min (x0 + 1) (p.i.d1 - 1)
    let y1 := min (y0 + 1) (p.i.d2 - 1)
    let fx := sx / 256 % 256
    let fy := sy / 256 % 256
    let a := px x0 y0
    let b := px x1 y0
    let d := px x0 y1
    let e := px x1 y1
    if edgeInt fi then
      let v : Int := (256 - fy : Nat) * ((256 - fx : Nat) * a.toInt + (fx : Int) * b.toInt) + (fy : Int) * ((256 - fx : Nat) * d.toInt + (fx : Int) * e.toInt)
      let q : Nat := (v.natAbs + 32768) / 65536
      out (.ofInt (if v < 0 then -(q : Int) else (q : Int))) 0
    else
      let wx1 : Val := .fin false fx (-8)
      let wx0 : Val := .fin false (256 - fx) (-8)
      let row (l r : Val) : Val := f32Add (f32Mul wx0 l) (f32Mul wx1 r)
      let v := f32Add (f32Mul (.fin false (256 - fy) (-8)) (row a b)) (f32Mul (.fin false fy (-8)) (row d e))
      out v (if a = .nan ∨ b = .nan ∨ d = .nan ∨ e = .nan then flagNanIn else 0)

/-- The steps that an output pixel takes (R293, R298): they set the length of a segment. -/
def EdgeP.sPx (p : EdgeP) (op : Nat) : Nat :=
  let t := p.kh * p.kw * p.i.d0
  match op with
  | 1 =>
    let k := if p.opmode = 0 then (t + 63) / 64 else (t + 1023) / 1024 * ((p.w.d1 + 3) / 4)
    if edgeInt (p.i.format.getD .int8) then k else 4 * k
  | 2 => (p.kh * p.kw * p.pixelBytes + 255) / 256
  | _ => (p.pixelBytes + 255) / 256 * (if p.opmode = 1 then 4 else 1)

/-- The output pixels that a number of finished segments holds, and the rows they complete (R299). -/
def segPixels (w h sPx segs : Nat) : Nat × Nat :=
  let len := max 1 (2048 / max 1 sPx)
  let perRow := (w + len - 1) / len
  let rows := min h (segs / perRow)
  if h ≤ rows then (w * h, h) else (rows * w + min w (segs % perRow * len), rows)

/-- The end of an edge command: EDGE_STAT and EDGE_CNT (R304, R305). -/
def State.endEdge (s : State) (q e rows : Nat) (st : BitVec 8) : State :=
  let s1 := s.endUnit q st
  let fin := match s1.head q with
    | some c => finalStatus c
    | none => st
  (((s1.setFld (R.EDGE_STAT e) F.EDGE_STAT_LAST_ROWS rows).setFld (R.EDGE_STAT e) F.EDGE_STAT_LAST_STATUS fin.toNat).wrapAdd
    (R.EDGE_CNT e) F.EDGE_CNT_COMMANDS 1).freeSteps (R.EDGE_CNT e) F.EDGE_CNT_STEPS

/-- A rejected edge command. -/
def State.rejectEdge (s : State) (q e : Nat) : State :=
  ((s.rejectUnit q).setFld (R.EDGE_STAT e) F.EDGE_STAT_LAST_STATUS stRejected.toNat).wrapAdd (R.EDGE_CNT e) F.EDGE_CNT_COMMANDS 1

/-- A hardware fault of an edge engine (R300, R304): the command stops with INTEGRITY. -/
def State.edgeFault (s : State) (q e canton : Nat) (f : EdgeFault) : State :=
  match f with
  | .none => s
  | .ecc => (s.setFld (R.EDGE_STAT e) F.EDGE_STAT_ECC_UNCORR 1).endEdge q e 0 stIntegrity
  | .residue =>
    let s1 := (s.setFld (R.EDGE_STAT e) F.EDGE_STAT_RESIDUE 1).satAdd (R.EDGE_CNT e) F.EDGE_CNT_RESIDUE_CNT 1
    let x := s1.free
    let y := x.2.free
    ((y.2.event 1 (0x100 + e) x.1 y.1).assertLine (.edge (Fin.ofNat 2 e)) canton).endEdge q e 0 stIntegrity

/-- The codes of a list of outputs; an unstated one takes a free value, whose number is its place from i on. -/
def edgeCodes (ctr bits : Nat) : Nat → List EdgeOut → List Nat
  | _, [] => []
  | i, o :: r => (match o with
      | some x => x.1
      | none => (Config.freeValue (ctr + i)).toNat % 2 ^ bits) :: edgeCodes ctr bits (i + 1) r

/-- An edge command of opcode op: its parameters are read and checked, then every output pixel of the finished segments is computed and written. done counts the segments finished by a command that was cut (R299). -/
def State.edgeRun (s : State) (q op : Nat) (done : Nat) (fault : EdgeFault) (bad : EdgeP → Bool)
    (at' : EdgeP → List Nat → List Nat → List Byte → Nat → Nat → Nat → Nat → EdgeOut) : State :=
  s.onUnit q 3 (fun c e =>
    let canton := s.qCanton q
    let g := edgeAgent e canton
    let a := c.pl 0 8
    let s1 := s.setFld (R.EDGE_STAT e) F.EDGE_STAT_CANTON canton
    if c.opcode ≠ op then s
    else if a % 8 ≠ 0 ∨ !s.unitSpan g a 128 ∨ !zeroBytes c.desc 32 32 then s1.rejectEdge q e
    else
      let b := s1.unitRead g a 128
      if b.1.wait then s
      else if b.1.bad then b.2.endEdge q e 0 stIntegrity
      else
        let p := edgeP b.1.bytes
        let conv := op == 1
        if bad p || c.fmtDiffers 0 p.i.fmt || (conv && c.fmtDiffers 1 p.w.fmt) || c.fmtDiffers 2 p.o.fmt then b.2.rejectEdge q e
        else
          let fi := p.i.format.getD .int8
          let fo := p.o.format.getD .int8
          let fw := p.w.format.getD .int8
          let od := p.outDesc conv
          let id' := { p.i with d3 := 1 }
          let ir := id'.runs fi.bits
          let wr := if conv then p.w.runs fw.bits else []
          let total := od.d1 * od.d2
          let px := if c.cut then segPixels od.d1 od.d2 (p.sPx op) done else (total, od.d2)
          if !s.unitRuns g ir || !s.unitRuns g wr || !s.unitRuns g (od.runsFor fo.bits total) ||
              (conv && p.req != 0 && !s.unitSpan g p.req (8 * p.reqN)) then b.2.rejectEdge q e
          else if fault ≠ .none then b.2.edgeFault q e canton fault
          else
            let ti := b.2.readRuns g fi.bits ir
            let tw := b.2.readRuns g fw.bits wr
            let tt := if conv && p.req != 0 then b.2.unitRead g p.req (8 * p.reqN) else ({}, b.2)
            let s2 := (tt.2.noteRuns g ir).noteRuns g wr
            if ti.wait || tw.wait || tt.1.wait then s
            else if ti.bad || tw.bad || tt.1.bad then s2.endEdge q e 0 stIntegrity
            else
              let n := px.1 * od.d0
              let outs := (List.range n).map (fun k =>
                let pix := k / od.d0
                at' p ti.codes tw.codes tt.1.bytes (srDraw c.seed (c.seq.setWidth 64) (BitVec.ofNat 64 k)) (pix % od.d1) (pix / od.d1) (k % od.d0))
              let s3 := { s2 with freeCtr := s2.freeCtr + n }
              let w := s3.writeRuns g fo.bits (od.runsFor fo.bits px.1) (edgeCodes s2.freeCtr fo.bits 0 outs)
              let fl : FmtFlags := outs.foldl (fun z o => z ||| (match o with
                | some x => x.2
                | none => 0)) 0
              if w.wait then s
              else ((w.state.cmdFlags q (ti.flags ||| tw.flags ||| tt.1.flags ||| w.flags)).cmdFmt q fl).endEdge q e px.2 stDone)

/-- EDGE_CONV (R293 to R300). -/
def execEdgeConv (q : BitVec 16) (done : Nat) (fault : EdgeFault) (s : State) : Out :=
  .next (s.edgeRun q.toNat 1 done fault EdgeP.badConv (fun p i w t d x y c => p.convAt i w t d x y c))

/-- EDGE_POOL (R301). -/
def execEdgePool (q : BitVec 16) (done : Nat) (s : State) : Out :=
  .next (s.edgeRun q.toNat 2 done .none EdgeP.badPool (fun p i _ _ d x y c => p.poolAt i d x y c))

/-- EDGE_RESIZE (R302). -/
def execEdgeResize (q : BitVec 16) (done : Nat) (s : State) : Out :=
  .next (s.edgeRun q.toNat 3 done .none EdgeP.badResize (fun p i _ _ d x y c => p.resizeAt i d x y c))

end Sys2Proof.Machine
end

