-- ==== Sys2Proof/Machine/Transfer.lean ====
section
/-! DEFINITION. The transfer engine (R217 to R221, R263, R267, R281 to R291, R650) with the reads of the host window and of remote windows that it waits for, the completion of engine operations (R193), core COPY and FILL commands (R198), and the resumption of a context (R450, R451). -/

namespace Sys2Proof.Machine

/-- The SOURCE code of the transfer engine (R227). -/
def xferSource : Nat := 4

/-! ### Accesses of a core's transfer engine -/

/-- Records on a core what an access of its transfer engine met: the first address denied or unmapped, and the completion flags. -/
def State.xferNote (s : State) (n : Nat) (write : Bool) (a k : Nat) (fl : BitVec 24) : State :=
  (match s.firstFault (s.coreAgent n) write a k with
    | some (true, x) => s.coreDenied n xferSource x
    | some (false, x) => s.coreUnmapped n xferSource x
    | none => s).coreFlags n fl

/-- An access of the host window while the endpoint cannot master the link (R593): it is counted and flagged. -/
def State.hostLost (s : State) (n a : Nat) : State :=
  (s.satAdd R.GLB_HOST_STAT F.GLB_HOST_STAT_HOST_DROPS 1).coreUnmapped n xferSource a

/-- Writes bytes at a device address as a core's transfer engine (R219); the Bool says whether a byte waits for a handover. -/
def State.xferWrite (s : State) (n a : Nat) (l : List Byte) : State × Bool :=
  match s.place a with
  | .mirror off => (s.mirrorWrite (.core (Fin.ofNat 16 n)) off l (l.length + 1), false)
  | .hostWin x => (if s.canMaster then s.hostPost x l else s.hostLost n a, false)
  | .remote p o => (s.remoteWrite p o l, false)
  | _ =>
    let x := s.writeMem (s.coreAgent n) a l
    (if x.flags = 0 then x.state else x.state.xferNote n true a l.length x.flags, x.wait)

/-- The bytes that stand at a device address, for a write of part of a byte: what a target outside HBM and scratchpad holds is a free value. -/
def State.xferOld (s : State) (n a k : Nat) : List Byte × State :=
  match s.place a with
  | .mirror _ | .hostWin _ | .remote _ _ => let x := s.free; ((leBytes x.1.toNat 8 ++ List.replicate k 0).take k, x.2)
  | _ => ((s.readMem (s.coreAgent n) a k).bytes, s)

/-- Writes codes of a width to the elements of a run from element i on; at the end of the run the padding is written with zero codes (R176). -/
def State.putCodes (s : State) (n w : Nat) (r : Run) (i : Nat) (codes : List Nat) : State × Bool :=
  let lo := i * w / 8
  let e := (i + codes.length) * w
  let ends := i + codes.length = r.count
  let hi := if ends then r.bytes else (e + 7) / 8
  if i * w % 8 = 0 ∧ (ends ∨ e % 8 = 0) then s.xferWrite n (r.addr + lo) (leBytes (packCodes w codes) (hi - lo))
  else
    let x := s.xferOld n (r.addr + lo) (hi - lo)
    let old := leNat x.1
    let b := i * w - lo * 8
    let top := if ends then 0 else old / 2 ^ (e - lo * 8) * 2 ^ (e - lo * 8)
    x.2.xferWrite n (r.addr + lo) (leBytes (old % 2 ^ b + packCodes w codes * 2 ^ b + top) (hi - lo))

/-- Writes codes to the elements of a tensor from element first on, over its runs of which the next starts at element e. -/
def State.xferPut (s : State) (n w first : Nat) (codes : List Nat) : List Run → Nat → State × Bool
  | [], _ => (s, false)
  | r :: rest, e =>
    let lo := max e first
    let hi := min (e + r.count) (first + codes.length)
    if lo < hi then
      let x := s.putCodes n w r (lo - e) ((codes.drop (lo - first)).take (hi - lo))
      let y := x.1.xferPut n w first codes rest (e + r.count)
      (y.1, x.2 || y.2)
    else s.xferPut n w first codes rest (e + r.count)

/-- Writes parts of a tensor, each from its first element on. -/
def State.xferParts (s : State) (n w : Nat) (l : List Run) : List (Nat × List Nat) → State × Bool
  | [] => (s, false)
  | p :: rest =>
    let x := s.xferPut n w p.1 p.2 l 0
    let y := x.1.xferParts n w l rest
    (y.1, x.2 || y.2)

/-! ### Reading a source -/

/-- What reading a source gives: the parts read, the far reads that bring others (first element and run), whether a bad beat stopped it (in a scratchpad, true), and whether a byte waits for a handover. -/
structure XRead where
  parts : List (Nat × List Nat) := []
  far : List (Nat × Run) := []
  bad : Option Bool := none
  wait : Bool := false
  deriving DecidableEq, Repr

/-- The number of the first 256-byte beat of k bytes at a that holds a bad word, or the number of beats (R267). -/
def State.goodBeats (s : State) (g : Agent) (a k : Nat) : Nat :=
  ((List.range ((k + 255) / 256)).find? (fun j => (s.readMem g (a + 256 * j) (min 256 (k - 256 * j))).bad)).getD ((k + 255) / 256)

/-- The elements that one remote read brings: a multiple of 8 bytes, at most 256 with the words it touches. -/
def farElems (w : Nat) (aligned : Bool) : Nat :=
  if w = 6 then (if aligned then 256 else 128) else if aligned then 2048 / w else 1024 / w

/-- Splits a run of a remote window into reads, k at most. -/
def farChunks (w e : Nat) (r : Run) : Nat → List (Nat × Run)
  | 0 => []
  | k + 1 =>
    let m := farElems w (r.addr % 8 = 0)
    if r.count ≤ m then [(e, r)]
    else (e, { addr := r.addr, count := m, bytes := m * w / 8 }) ::
      farChunks w (e + m) { addr := r.addr + m * w / 8, count := r.count - m, bytes := r.bytes - m * w / 8 } k

/-- Reads the runs of a source as a core's transfer engine, from element e up to element limit; a far read while the link is down gives zeros. Reading stops at the first bad beat (R267). -/
def State.xferGather (s : State) (n w limit : Nat) : List Run → Nat → XRead × State
  | [], _ => ({}, s)
  | r0 :: rest, e =>
    if limit ≤ e then ({}, s)
    else
      let cnt := min r0.count (limit - e)
      let r : Run := if cnt = r0.count then r0 else { addr := r0.addr, count := cnt, bytes := runBytes w cnt }
      let onward (p : List (Nat × List Nat)) (f : List (Nat × Run)) (wt : Bool) (t : State) : XRead × State :=
        let y := t.xferGather n w limit rest (e + r0.count)
        ({ y.1 with parts := p ++ y.1.parts, far := f ++ y.1.far, wait := wt || y.1.wait }, y.2)
      match s.place r.addr with
      | .mirror off =>
        let x := s.mirrorRead (.core (Fin.ofNat 16 n)) off r.bytes (r.bytes + 1)
        onward [(e, codesOf w x.1 cnt)] [] false x.2
      | .hostWin _ =>
        if s.canMaster then onward [] [(e, r)] false s
        else onward [(e, List.replicate cnt 0)] [] false (s.hostLost n r.addr)
      | .remote _ _ => onward [] (farChunks w e r (cnt + 1)) false s
      | _ =>
        let g := s.coreAgent n
        let x := s.readMem g r.addr r.bytes
        let s1 := if x.flags = 0 then s else s.xferNote n false r.addr r.bytes x.flags
        if x.bad then
          let j := s.goodBeats g r.addr r.bytes
          let good := min cnt (256 * j * 8 / w)
          let spad := match s.place (r.addr + 256 * j) with
            | .spd _ _ => true
            | _ => false
          ({ parts := [(e, (codesOf w x.bytes cnt).take good)], bad := some spad, wait := x.wait },
            s1.noteRead g r.addr (min r.bytes (256 * (j + 1))))
        else onward [(e, codesOf w x.bytes cnt)] [] x.wait (s1.noteRead g r.addr r.bytes)

/-- A bad beat of a transfer stops the command with INTEGRITY; one in a scratchpad is recorded on the core (R223, R267). -/
def State.xferBad (s : State) (n : Nat) (spad : Bool) : State :=
  (if spad then s.coreErr n ceSpdEcc xferSource 0 else s).endOnCore n stIntegrity

/-- Issues the far reads of an operation: dst names the destination of a COPY, or nothing where the elements wait for the rest. -/
def State.xferIssue (s : State) (n : Nat) (dst : List Word) : List (Nat × Run) → State
  | [] => s
  | f :: rest =>
    (if inHostWindow f.2.addr then s.hostRead (.copyOp n dst f.1 f.2.count) f.2.addr f.2.bytes
      else s.remoteRead (.copyOp n dst f.1 f.2.count) f.2.addr f.2.bytes).xferIssue n dst rest

/-- Counts the 256-byte beats of k bytes (R228). -/
def State.xferBeats (s : State) (n k : Nat) : State := s.satAdd (R.CORE_PERF_VX n) F.CORE_PERF_VX_XFER_BEATS ((k + 255) / 256)

/-- The bytes of runs. -/
def runsBytes (l : List Run) : Nat := l.foldl (fun a r => a + r.bytes) 0

/-- The elements that parts hold. -/
def partsLen (l : List (Nat × List Nat)) : Nat := l.foldl (fun a p => a + p.2.length) 0

/-! ### Operations -/

/-- How an operation of the transfer engine went: it waits for a handover, it is done, or its far reads are out. -/
inductive XRes where
  | wait
  | done (s : State)
  | far (s : State)
  deriving DecidableEq, Repr

/-- Whether a descriptor names a format that its layout takes, and with LAYOUT 3 lies in one diagonal region (R200). -/
def State.xferShape (s : State) (d : Desc) (checkDiag : Bool) : Option Fmt :=
  match d.format with
  | none => none
  | some f => if layoutTakes d.layout f && (!checkDiag || d.layout != 3 || s.inDiagonal (d.runs f.bits)) then some f else none

/-- An operation that names what the engine does not accept: nothing is written (R182). -/
def State.xferIllegal (s : State) (n : Nat) : XRes := .done (s.coreFmtIllegal n xferSource)

/-- COPY (R650): element i of SRC goes to element i of DST, each in descriptor order. -/
def State.xferCopy (s : State) (n : Nat) (dst src : List Word) : XRes :=
  let d := descOf dst
  let x := descOf src
  match s.xferShape d true, s.xferShape x true with
  | some fd, some fs =>
    if fd.bits ≠ fs.bits ∨ x.elems < d.elems then s.xferIllegal n
    else
      let w := fd.bits
      let y := s.xferGather n w d.elems (x.runsFor w ((d.elems + x.d0 - 1) / x.d0)) 0
      let z := y.2.xferParts n w (d.runs w) y.1.parts
      if y.1.wait || z.2 then .wait
      else
        let t := z.1.xferBeats n ((partsLen y.1.parts * w + 7) / 8)
        match y.1.bad with
        | some b => .done (t.xferBad n b)
        | none => if y.1.far = [] then .done t else .far (t.xferIssue n dst y.1.far)
  | _, _ => s.xferIllegal n

/-- FILL (R219): the bytes of each run of DST take the 8-byte pattern, from the start of the run on (log 53). -/
def State.xferFill (s : State) (n : Nat) (dst : List Word) (pattern : Word) : XRes :=
  let d := descOf dst
  match s.xferShape d true with
  | none => s.xferIllegal n
  | some f =>
    let l := d.runs f.bits
    let parts := (l.foldl (fun (a : Nat × List (Nat × List Nat)) r =>
      let bytes := ((List.replicate (r.bytes / 8 + 1) (leBytes pattern.toNat 8)).flatten).take r.bytes
      (a.1 + r.count, a.2 ++ [(a.1, codesOf f.bits bytes r.count)])) (0, [])).2
    let z := s.xferParts n f.bits l parts
    if z.2 then .wait else .done (z.1.xferBeats n (runsBytes l))

/-- Inserts a part by its first element. -/
def insPart (p : Nat × List Nat) : List (Nat × List Nat) → List (Nat × List Nat)
  | [] => [p]
  | q :: r => if p.1 ≤ q.1 then p :: q :: r else q :: insPart p r

/-- The codes of a source from its parts. -/
def gathered (l : List (Nat × List Nat)) : List Nat := ((l.foldr insPart []).map (fun p => p.2)).flatten

/-- The runs of a tensor in which the padding channels of a blocked layout count as elements (R282, R289). -/
def Desc.wholeRuns (d : Desc) (w : Nat) : List Run :=
  match d.cb with
  | some cb => (d.runs w).map (fun r => { r with count := cb })
  | none => d.runs w

/-- The elements of those runs. -/
def runsElems (l : List Run) : Nat := l.foldl (fun a r => a + r.count) 0

/-- Reads a whole source and goes on with its codes. An operation whose far reads are out keeps what it read; one that lacks elements because a far read timed out writes nothing (R221); a bad beat stops the command before anything is written. -/
def State.xferWhole (s : State) (n w : Nat) (l : List Run) (op : EngOp) (f : State → List Nat → XRes) : XRes × List (Nat × List Nat) :=
  let k := runsElems l
  if op.issued then
    (if partsLen op.got = k then f s (gathered op.got) else .done s, op.got)
  else
    let y := s.xferGather n w k l 0
    if y.1.wait then (.wait, [])
    else match y.1.bad with
      | some b => (.done (y.2.xferBad n b), [])
      | none => if y.1.far = [] then (f y.2 (gathered y.1.parts), []) else (.far (y.2.xferIssue n [] y.1.far), y.1.parts)

/-- Writes the elements of a destination, in descriptor order. -/
def State.xferStore (s : State) (n w : Nat) (l : List Run) (codes : List Nat) : XRes :=
  let z := s.xferParts n w l [(0, codes)]
  if z.2 then .wait else .done (z.1.xferBeats n ((codes.length * w + 7) / 8))

/-- The first byte of runs and the byte after their last. -/
def runsSpan (l : List Run) : Nat × Nat :=
  l.foldl (fun a r => (min a.1 r.addr, max a.2 (r.addr + r.bytes))) (2 ^ 64, 0)

/-- A signed 16-bit field. -/
def s16 (v lo : Nat) : Int := signExt 16 (v / 2 ^ lo % 2 ^ 16)

/-- The element that IM2COL writes at row m and column k (R282). -/
def im2colElem (x : Desc) (cb aux g : Nat) (codes : List Nat) (pad m k : Nat) : Nat :=
  let cp := (x.d0 + cb - 1) / cb * cb
  let kh := sl aux 14 4 + 1
  let kw := sl aux 10 4 + 1
  let st := sl aux 8 2 + 1
  let dil := sl aux 6 2 + 1
  let ow := max 1 (sl g 16 16)
  if kh * kw * cp ≤ k then pad
  else
    let t := k / cp
    let c := k % cp
    let px : Int := s16 g 32 + ((m % ow * st + t % kw * dil : Nat) : Int)
    let py : Int := s16 g 48 + ((m / ow * st + t / kw * dil : Nat) : Int)
    if px < 0 ∨ (x.d1 : Int) ≤ px ∨ py < 0 ∨ (x.d2 : Int) ≤ py then pad
    else codes.getD ((py.toNat * x.d1 + px.toNat) * cp + c) 0

/-- IM2COL (R281 to R283). -/
def State.xferIm2col (s : State) (n : Nat) (dst src : List Word) (aux : Nat) (op : EngOp) : XRes × List (Nat × List Nat) :=
  let d := { descOf dst with d2 := 1, d3 := 1 }
  let x := { descOf src with d3 := 1 }
  match d.format, s.xferShape x false, x.cb with
  | some fd, some fs, some cb =>
    let cp := (x.d0 + cb - 1) / cb * cb
    let a := runsSpan (x.runs fs.bits)
    let b := runsSpan (d.runs fd.bits)
    if !(d.layout == 0 || d.layout == 3) || fd != fs || decide (d.d0 < (sl aux 14 4 + 1) * (sl aux 10 4 + 1) * cp) ||
        decide (a.1 < b.2 ∧ b.1 < a.2) then (s.xferIllegal n, [])
    else
      let g := ((s.core n).ctx.getG (sl aux 0 6)).toNat
      let pad := g % 2 ^ 16 % 2 ^ fs.bits
      s.xferWhole n fs.bits (x.wholeRuns fs.bits) op (fun t codes =>
        t.xferStore n fd.bits (d.runs fd.bits)
          ((List.range d.d1).flatMap (fun m => (List.range d.d0).map (fun k => im2colElem x cb aux g codes pad m k))))
  | _, _, _ => (s.xferIllegal n, [])

/-- Blocks of 32 elements, k of them. -/
def blocks32 (l : List Nat) : Nat → List (List Nat)
  | 0 => []
  | k + 1 => l.take 32 :: blocks32 (l.drop 32) k

/-- A record of a zero-run compressed stream (R288): the mask of the elements kept and their codes, padded to 4 bytes. -/
def zRecord (w zcode : Nat) (l : List Nat) : List Byte :=
  let kept := l.filter (fun c => c != zcode)
  let mask := (l.zip (List.range l.length)).foldl (fun a p => if p.1 != zcode then a + 2 ^ p.2 else a) 0
  leBytes mask 4 ++ leBytes (packCodes w kept) ((kept.length * w + 31) / 32 * 4)

/-- The stream of elements of a format (R288, R289). -/
def zStream (fmt w zcode : Nat) (l : List Nat) : List Byte :=
  let body := (blocks32 l ((l.length + 31) / 32)).flatMap (zRecord w zcode)
  leBytes (16 + body.length) 8 ++ leBytes l.length 6 ++ leBytes fmt 1 ++ [0] ++ body

/-- Whether a descriptor is a dense UINT8 tensor. -/
def Desc.isBytes (d : Desc) : Bool := d.format == some .uint8 && (d.layout == 0 || d.layout == 3)

/-- ZCOMP (R288 to R290): the destination needs room for the largest stream. -/
def State.xferZcomp (s : State) (n : Nat) (dst src : List Word) (aux : Nat) (op : EngOp) : XRes × List (Nat × List Nat) :=
  let d := descOf dst
  let x := descOf src
  match s.xferShape x false with
  | none => (s.xferIllegal n, [])
  | some f =>
    let l := x.wholeRuns f.bits
    let blocks := (runsElems l + 31) / 32
    if !d.isBytes || decide (d.d0 < 16 + blocks * (4 + 4 * f.bits)) then (s.xferIllegal n, [])
    else s.xferWhole n f.bits l op (fun t codes =>
      let out := zStream x.fmt f.bits (aux % 2 ^ 16 % 2 ^ f.bits) codes
      let z := t.xferWrite n d.base out
      if z.2 then .wait else .done (z.1.xferBeats n out.length))

/-- Expands the records of a stream, k blocks of which m elements remain: the codes until a record runs past the stream, and whether one did (R291). -/
def zExpand (w zcode : Nat) (l : List Byte) (m : Nat) : Nat → List Nat × Bool
  | 0 => ([], false)
  | k + 1 =>
    if l.length < 4 then ([], true)
    else
      let mask := leNat (l.take 4)
      let kept := ((List.range 32).filter (fun i => mask.testBit i)).length
      let nb := (kept * w + 31) / 32 * 4
      if l.length < 4 + nb then ([], true)
      else
        let v := codesOf w ((l.drop 4).take nb) kept
        let blk := ((List.range (min 32 m)).foldl (fun (a : List Nat × Nat) i =>
          if mask.testBit i then (a.1 ++ [v.getD a.2 0], a.2 + 1) else (a.1 ++ [zcode], a.2)) ([], 0)).1
        let y := zExpand w zcode (l.drop (4 + nb)) (m - 32) k
        (blk ++ y.1, y.2)

/-- ZSTREAM_BAD, the unit flag of a bad zero-run stream (R291, R439). -/
def fgZstreamBad : Nat := 13

/-- ZDECOMP (R291). -/
def State.xferZdecomp (s : State) (n : Nat) (dst src : List Word) (aux : Nat) (op : EngOp) : XRes × List (Nat × List Nat) :=
  let d := descOf dst
  let x := descOf src
  match s.xferShape d false with
  | none => (s.xferIllegal n, [])
  | some f =>
    if !x.isBytes then (s.xferIllegal n, [])
    else s.xferWhole n 8 (x.runs 8) op (fun t codes =>
      let bytes := codes.map (fun c => BitVec.ofNat 8 c)
      let l := d.wholeRuns f.bits
      let k := runsElems l
      let total := leNat (bytes.take 8)
      if bytes.length < 16 ∨ sliceN bytes 14 1 ≠ d.fmt ∨ sliceN bytes 8 6 ≠ k ∨ bytes.length < total then .done (t.coreFlags n (flagBit fgZstreamBad))
      else
        let y := zExpand f.bits (aux % 2 ^ 16 % 2 ^ f.bits) ((bytes.take total).drop 16) k ((k + 31) / 32)
        (if y.2 then t.coreFlags n (flagBit fgZstreamBad) else t).xferStore n f.bits l y.1)

/-- Performs an operation of the transfer engine from its slot bits, descriptors and pattern (R219). The second part is what it has read while far reads are out. -/
def State.xferOp (s : State) (n : Nat) (op : EngOp) : XRes × List (Nat × List Nat) :=
  let dst := op.descs.getD 0 []
  let src := op.descs.getD 1 []
  let aux := sl op.slot 0 18
  match sl op.slot 34 6 with
  | 1 => (if op.issued then .done s else s.xferCopy n dst src, [])
  | 2 => (s.xferFill n dst op.pattern, [])
  | 3 => s.xferIm2col n dst src aux op
  | 4 => s.xferZcomp n dst src aux op
  | 5 => s.xferZdecomp n dst src aux op
  | _ => (.done s, [])

/-- Whether a core has reads of transfer operations outstanding. -/
def State.opReads (s : State) (n : Nat) : Bool := s.host.reads.any (fun o => match o.what with
  | .copyOp m _ _ _ => m == n
  | _ => false)

/-- Runs the operation at the head of a core's transfer queue, which keeps rest behind it (R193, R220). -/
def State.xferRun (s : State) (n : Nat) (op : EngOp) (rest : List EngOp) : State :=
  if op.issued ∧ s.opReads n then s
  else
    let keep (t : State) (l : List EngOp) : State := t.setCore n { t.core n with qXfer := l }
    match (keep s rest).xferOp n op with
    | (.wait, _) => s
    | (.done t, _) => t
    | (.far t, parts) => keep t ({ op with issued := true, got := parts } :: rest)

/-! ### XFER rows: an operation started on a core -/

/-- Starts an operation of the transfer engine on a core, with its descriptors and its pattern register as they stand. -/
def State.xferStart (s : State) (n opc : Nat) (dst src : BitVec 8) (aux : Nat) : State :=
  if !s.coreRuns n || s.opReads n then s
  else
    let slot := opc * 2 ^ 34 + dst.toNat * 2 ^ 26 + src.toNat * 2 ^ 18 + aux
    s.xferRun n { slot := slot, descs := [s.desc n dst.toNat, s.desc n src.toNat], pattern := (s.core n).ctx.getG src.toNat
                  stream := s.srStream n, bundle := (s.core n).ctx.pc } (s.core n).qXfer

/-- XFER_COPY (R219, R650). -/
def execXferCopy (n : Fin 16) (dst src : BitVec 8) (s : State) : Out := .next (s.xferStart n.val 1 dst src 0)

/-- XFER_FILL (R219). -/
def execXferFill (n : Fin 16) (dst src : BitVec 8) (s : State) : Out := .next (s.xferStart n.val 2 dst src 0)

/-- XFER_IM2COL (R281 to R283). -/
def execXferIm2col (n : Fin 16) (dst src : BitVec 8) (aux : BitVec 18) (s : State) : Out := .next (s.xferStart n.val 3 dst src aux.toNat)

/-- XFER_ZCOMP (R288 to R290). -/
def execXferZcomp (n : Fin 16) (dst src : BitVec 8) (aux : BitVec 18) (s : State) : Out := .next (s.xferStart n.val 4 dst src aux.toNat)

/-- XFER_ZDECOMP (R291). -/
def execXferZdecomp (n : Fin 16) (dst src : BitVec 8) (aux : BitVec 18) (s : State) : Out := .next (s.xferStart n.val 5 dst src aux.toNat)

/-! ### ENGINE_OPERATION_COMPLETE (R193) -/

/-- Whether a handover of a bank that a core owns is pending: its matrix and vector engines wait (R259). -/
def State.coreHandover (s : State) (n : Nat) : Bool :=
  (List.range 64).any (fun i => s.bit (R.SPD_BANK_OWNER (64 * n + i)) F.SPD_BANK_OWNER_PENDING &&
    s.fld (R.SPD_BANK_OWNER (64 * n + i)) F.SPD_BANK_OWNER_OWNER == n)

/-- Performs an issued operation of a matrix engine from its slot (R203). -/
def State.matOp (s : State) (n : Nat) (m : MatEng) (op : EngOp) : State :=
  let x := op.descs.getD 0 []
  let side := op.descs[1]?
  let set := sl op.slot 25 1 == 1
  let row := sl op.slot 15 10
  let count := sl op.slot 4 11
  match sl op.slot 42 6 with
  | 1 => s.matWload n m x side
  | 2 => s.matMatmul n m x side set row count (sl op.slot 3 1 == 1) (sl op.slot 0 1 == 1) .none
  | 3 => s.matDrain n m x side set row count (rndOf (sl op.slot 1 2)) op.stream
  | 4 => s.matClear n m set row count
  | _ => s

/-- Performs an issued operation of the vector engine from its slot (R210, R211). -/
def State.vecOp (s : State) (n : Nat) (op : EngOp) : State :=
  let dst := op.descs.getD 0 []
  let a := op.descs.getD 1 []
  let b := op.descs.getD 2 []
  let aux := op.descs[3]?
  let imm := BitVec.ofNat 6 (sl op.slot 2 6)
  let rnd := rndOf (sl op.slot 0 2)
  let fn (g : Val → Val) : State := s.vecFun n dst a imm rnd op.stream g
  match sl op.slot 32 8 with
  | 0x01 => s.vecAdd n dst a b imm rnd op.stream
  | 0x02 => s.vecMul n dst a b imm rnd op.stream
  | 0x03 => s.vecFma n dst a b imm rnd op.stream
  | 0x04 => s.vecMax n dst a (if sl op.slot 8 8 = 0xFF then none else some b) imm rnd op.stream
  | 0x05 => s.vecMin n dst a b imm rnd op.stream
  | 0x06 => s.vecCvt n dst a imm rnd op.stream
  | 0x07 => s.vecBquant n dst a aux rnd op.stream
  | 0x10 => fn fnExp | 0x11 => fn fnLog | 0x12 => fn fnRecip | 0x13 => fn fnRsqrt | 0x14 => fn fnTanh | 0x15 => fn fnSigmoid | 0x16 => fn fnGelu
  | 0x20 => s.vecRsum n dst a imm rnd op.stream
  | 0x21 => s.vecRmax n dst a imm rnd op.stream
  | 0x22 => s.vecSmstat n dst a aux
  | 0x23 => s.vecSmlse n dst a rnd op.stream
  | 0x24 => s.vecNstat n dst a rnd op.stream
  | _ => s

/-- ENGINE_OPERATION_COMPLETE (R193): the oldest operation of an engine's queue has its effect and leaves the queue. It stays while it waits for a handover, or for reads that leave the device. -/
def execEngineOperationComplete (n : Fin 16) (e : Engine) (s : State) : Out :=
  .next (
    let k := s.core n.val
    if !s.coreRuns n.val then s
    else match e, k.engQ e with
      | _, [] => s
      | .xfer, op :: rest => s.xferRun n.val op rest
      | .matA, op :: rest => if s.coreHandover n.val then s else (s.setCore n.val (k.setEngQ .matA rest)).matOp n.val .a op
      | .matB, op :: rest => if s.coreHandover n.val then s else (s.setCore n.val (k.setEngQ .matB rest)).matOp n.val .b op
      | .vec, op :: rest => if s.coreHandover n.val then s else (s.setCore n.val (k.setEngQ .vec rest)).vecOp n.val op)

/-! ### COPY and FILL commands of a core (R198, R263) -/

/-- Adds beats to the count word of a core's COPY or FILL and to XFER_BEATS (R228, R438). -/
def State.copyBeats (s : State) (q n k : Nat) : State :=
  (s.updHead q (fun c => { c with aux := c.aux + BitVec.ofNat 32 k })).satAdd (R.CORE_PERF_VX n) F.CORE_PERF_VX_XFER_BEATS k

/-- Whether a COPY command has reads outstanding. -/
def State.copyReads (s : State) (q : Nat) : Bool := s.host.reads.any (fun o => match o.what with
  | .copyCmd p _ => p == q
  | _ => false)

/-- The beats of a COPY read before anything is written (R263): destination and bytes of each near beat, the far beats, and where a bad one stopped it. -/
structure CopyRead where
  near : List (Nat × List Byte) := []
  far : List (Nat × Nat × Nat) := []
  bad : Option Bool := none
  wait : Bool := false
  deriving DecidableEq, Repr

/-- Reads the beats of a COPY, given as source, destination and length, in order. -/
def State.copyGather (s : State) (n : Nat) : List (Nat × Nat × Nat) → CopyRead × State
  | [] => ({}, s)
  | (a, d, k) :: rest =>
    let onward (l : List (Nat × List Byte)) (f : List (Nat × Nat × Nat)) (wt : Bool) (t : State) : CopyRead × State :=
      let y := t.copyGather n rest
      ({ y.1 with near := l ++ y.1.near, far := f ++ y.1.far, wait := wt || y.1.wait }, y.2)
    match s.place a with
    | .mirror off => let x := s.mirrorRead (.core (Fin.ofNat 16 n)) off k (k + 1); onward [(d, x.1)] [] false x.2
    | .hostWin _ => if s.canMaster then onward [] [(a, d, k)] false s else onward [(d, List.replicate k 0)] [] false (s.hostLost n a)
    | .remote _ _ => onward [] [(a, d, k)] false s
    | _ =>
      let g := s.coreAgent n
      let x := s.readMem g a k
      let s1 := (if x.flags = 0 then s else s.xferNote n false a k x.flags).noteRead g a k
      if x.bad then
        ({ bad := some (match s.place a with
            | .spd _ _ => true
            | _ => false), wait := x.wait }, s1)
      else onward [(d, x.bytes)] [] x.wait s1

/-- Writes beats, each at its address. -/
def State.copyPut (s : State) (n : Nat) : List (Nat × List Byte) → State × Bool
  | [] => (s, false)
  | (d, l) :: rest =>
    let x := s.xferWrite n d l
    let y := x.1.copyPut n rest
    (y.1, x.2 || y.2)

/-- Issues the far reads of a COPY command. -/
def State.copyIssue (s : State) (q : Nat) : List (Nat × Nat × Nat) → State
  | [] => s
  | (a, d, k) :: rest =>
    (if inHostWindow a then s.hostRead (.copyCmd q d) a k else s.remoteRead (.copyCmd q d) a k).copyIssue q rest

/-- The command that a core executes for a queue, if it is a COPY or FILL of the opcode. -/
def State.onCopy (s : State) (q opc : Nat) (f : Cmd → Nat → State) : State :=
  match s.head q with
  | none => s
  | some c =>
    match c.core with
    | none => s
    | some n => if s.qUnit q = 1 ∧ c.opcode = opc ∧ s.executing q ∧ s.coreRuns n ∧ (s.core n).running = some q then f c n else s

/-- CORE_COPY (R198, R263): the command's bytes are copied in beats of 256, read before they are written, in descending order where the ranges overlap with DST above SRC. done is how many beats the transfer engine has finished when it is cut. A command whose far reads are out ends as they complete, or at once when it is cut. -/
def execCoreCopy (q : BitVec 16) (done : Nat) (s : State) : Out :=
  .next (s.onCopy q.toNat 2 (fun c n =>
    let p := q.toNat
    if s.copyReads p then (if c.cut then s.endOnCore n stDone else s)
    else
      let d := c.pl 0 8
      let a := c.pl 8 8
      let len := c.pl 16 8
      let nb := (len + 255) / 256
      let m := if c.cut then min done nb else nb
      let beat (j : Nat) : Nat × Nat × Nat := (a + 256 * j, d + 256 * j, min 256 (len - 256 * j))
      let order := (List.range m).map (fun i => beat (if a < d ∧ d < a + len then nb - 1 - i else i))
      let x := s.copyGather n order
      let y := x.2.copyPut n x.1.near
      if x.1.wait || y.2 then s
      else
        let t := y.1.copyBeats p n x.1.near.length
        match x.1.bad with
        | some b => t.xferBad n b
        | none => if x.1.far = [] ∨ c.cut then t.endOnCore n stDone else t.copyIssue p x.1.far))

/-- CORE_FILL (R198): the range takes the 8-byte pattern; done is how many 256-byte beats are finished when the command is cut. -/
def execCoreFill (q : BitVec 16) (done : Nat) (s : State) : Out :=
  .next (s.onCopy q.toNat 3 (fun c n =>
    let d := c.pl 0 8
    let len := c.pl 8 8
    let nb := (len + 255) / 256
    let m := if c.cut then min done nb else nb
    let pat := leBytes (c.pl 16 8) 8
    let beats := (List.range m).map (fun j => (d + 256 * j, (List.replicate (min 256 (len - 256 * j) / 8) pat).flatten))
    let y := s.copyPut n beats
    if y.2 then s else (y.1.copyBeats q.toNat n m).endOnCore n stDone))

/-! ### Reads that return -/

/-- Ends a COPY command once no read of it is outstanding. -/
def State.copyEnd (s : State) (q n : Nat) : State := if s.copyReads q then s else s.endOnCore n stDone

/-- The width of a descriptor's elements. -/
def descBits (w : List Word) : Nat := match (descOf w).format with
  | some f => f.bits
  | none => 8

/-- Hands the data of a read that returned to what it was for; bad data ends its command INTEGRITY (R466, R486, R593), a refused one sets ACCESS_DENIED (R487). The Bool says whether a destination waits for a handover. -/
def State.readReturns (s : State) (o : OutRead) (data : List Byte) (bad refused : Bool) : State × Bool :=
  match o.what with
  | .desc q => (if s.qBound q then s.takeDescriptor q data bad else s, false)
  | .bar2 x => (s.emit (.bar2Data x data bad), false)
  | .copyCmd q d =>
    match s.head q with
    | none => (s, false)
    | some c =>
      let n := c.core.getD 0
      if bad then (s.endOnCore n stIntegrity, false)
      else
        let s1 := if refused then s.coreDenied n xferSource o.addr else s
        let x := s1.xferWrite n d data
        ((x.1.copyBeats q n 1).copyEnd q n, x.2)
  | .copyOp n dst first count =>
    if bad then (s.endOnCore n stIntegrity, false)
    else
      let s1 := if refused then s.coreDenied n xferSource o.addr else s
      if dst = [] then
        match (s1.core n).qXfer with
        | [] => (s1, false)
        | op :: rest =>
          let w := if sl op.slot 34 6 = 5 then 8 else descBits (op.descs.getD 1 [])
          (s1.setCore n { s1.core n with qXfer := { op with got := op.got ++ [(first, codesOf w data count)] } :: rest }, false)
      else
        let w := descBits dst
        let x := s1.xferPut n w first (codesOf w data count) ((descOf dst).runs w) 0
        (x.1.xferBeats n data.length, x.2)

/-- Takes a read from those outstanding. -/
def State.dropRead (s : State) (o : OutRead) : State := { s with host := { s.host with reads := s.host.reads.erase o } }

/-- Gives a read its data, or leaves all as it was while a destination waits for a handover. -/
def State.giveRead (s : State) (o : OutRead) (data : List Byte) (bad refused : Bool) : State :=
  let x := (s.dropRead o).readReturns o ((data ++ List.replicate o.len 0).take o.len) bad refused
  if x.2 then s else x.1

/-- CHORD_READ_RESP (R486): a response completes the read whose TSEQ it carries, refused by the other device or not, or is discarded and counted as stale. -/
def execChordReadResp (p : Fin 4) (f : ChordFrame) (refused : Bool) (s : State) : Out :=
  .next (s.chdTake p.val 5 f (fun s =>
    match s.host.reads.find? (fun o => !inHostWindow o.addr && o.tseq == f.tseq.toNat) with
    | none => s.satAdd (R.CHD_PORT_CNT p.val) F.CHD_PORT_CNT_STALE_RESP 1
    | some o => s.giveRead o (f.payload.drop (o.addr % 8)) f.poison refused))

/-- REMOTE_TIMEOUT (R221, R480, R488): a remote read has been outstanding for the chord timeout. Its command completes REMOTE_TIMEOUT and goes on, and its destination keeps what it held; a BAR2 read returns poisoned data (R590). -/
def execRemoteTimeout (tseq : BitVec 16) (s : State) : Out :=
  .next (
    let limit := s.fld R.CHD_CFG F.CHD_CFG_TIMEOUT_US * 250
    match s.host.reads.find? (fun o => !inHostWindow o.addr && o.tseq % 65536 == tseq.toNat && decide (o.at' + limit ≤ s.time.ticks)) with
    | none => s
    | some o =>
      let s1 := s.dropRead o
      match o.what with
      | .desc _ => s1
      | .bar2 x => s1.emit (.bar2Data x (List.replicate o.len 0) true)
      | .copyCmd q _ =>
        match s1.head q with
        | none => s1
        | some c => (s1.cmdStatus q stRemoteTimeout).copyEnd q (c.core.getD 0)
      | .copyOp n _ _ _ =>
        match (s1.core n).running with
        | some q => s1.cmdStatus q stRemoteTimeout
        | none => s1)

/-- HOST_READ_COMPLETION (R592, R593): the oldest read of the host window completes with its data, or fails and its data count as poisoned. -/
def execHostReadCompletion (data : List Byte) (ok : Bool) (s : State) : Out :=
  .next (
    match s.host.reads.find? (fun o => inHostWindow o.addr) with
    | none => s
    | some o => s.giveRead o data (!ok) false)

/-- COMPLETION_TIMEOUT (R593): the oldest read of the host window gets no completion in time; its data count as poisoned. -/
def execCompletionTimeout (s : State) : Out :=
  .next (
    match s.host.reads.find? (fun o => inHostWindow o.addr) with
    | none => s
    | some o => s.giveRead o [] true false)

/-! ### Incoming accesses of a chord (R487) -/

/-- A refused access is counted on its port. -/
def State.chdDenied (s : State) (p : Nat) : State := s.satAdd (R.CHD_PORT_CNT p) F.CHD_PORT_CNT_DENIED 1

/-- Whether the register mirror takes an access from a position: on a worker from position 0, and never on the manager (R487). -/
def State.chdMirror (s : State) (src : Nat) : Bool := !s.bit R.CHD_CFG F.CHD_CFG_MANAGER && src == 0

/-- The device address that an offset within the device's own window names (R37, R38). -/
def windowAddr (off : Nat) : Nat :=
  if off < 0x10000000000 then off else if off < 0x18000000000 then off + 0xF0000000000 else off - 0x18000000000 + 0x200000000000

/-- CHORD_READ (R487): an incoming READ is served as a non-owner access of its port's canton, and answered. -/
def execChordRead (p : Fin 4) (f : ChordFrame) (s : State) : Out :=
  .next (s.chdTake p.val 4 f (fun s =>
    let n := 8 * min 32 f.len.toNat
    let off := f.addr.toNat
    let a := windowAddr off
    let g := s.reqAgent (.chord p)
    let answer (t : State) (l : List Byte) (bad : Bool) : State :=
      t.chdSend { t.chdFrame 5 f.src.toNat off l with tseq := f.tseq, poison := bad }
    match s.windowPlace off with
    | .mirror x =>
      if s.chdMirror f.src.toNat then let y := s.mirrorRead (.chord p) x n (n + 1); answer y.2 y.1 false
      else answer (s.chdDenied p.val) (List.replicate n 0) false
    | .unmapped => answer s (List.replicate n 0) false
    | _ =>
      let x := s.readMem g a n
      let s1 := if x.flags &&& flagBit fgAccessDenied = 0 then s else s.chdDenied p.val
      answer (s1.noteRead g a n) (if x.flags &&& flagBit fgAccessDenied = 0 then x.bytes else List.replicate n 0) x.bad))

/-- CHORD_WRITE (R487): an incoming WRITE is served as a non-owner access of its port's canton, or discarded and counted. A poisoned payload leaves what it wrote poisoned. -/
def execChordWrite (p : Fin 4) (f : ChordFrame) (s : State) : Out :=
  .next (s.chdTake p.val 6 f (fun s =>
    let off := f.addr.toNat
    let a := windowAddr off
    let g := s.reqAgent (.chord p)
    let l := f.payload.take 256
    match s.windowPlace off with
    | .mirror x => if s.chdMirror f.src.toNat then s.mirrorWrite (.chord p) x l (l.length + 1) else s.chdDenied p.val
    | .unmapped => s
    | pl =>
      let y := s.writeMem g a l
      if y.flags &&& flagBit fgAccessDenied = 0 then
        match f.poison, pl with
        | true, .hbm x => y.state.addPoison x l.length
        | true, _ => (List.range (l.length / 8)).foldl (fun (t : State) i => match t.hit g true (a + 8 * i) with
            | .ok k => t.setEcc (k / 8 * 8) 2
            | _ => t) y.state
        | false, _ => y.state
      else s.chdDenied p.val))

/-! ### CONTEXT_RESTORE_DONE (R450, R451) -/

/-- CONTEXT_RESTORE_DONE (R450, R451): the state of a resumed context is back on its core, its cancelled remote reads are issued again, and the program goes on under its bound (R197). -/
def execContextRestoreDone (n : Fin 16) (s : State) : Out :=
  .next (
    let k := s.core n.val
    match k.running with
    | none => s
    | some q =>
      match k.restoring, s.savedOf q, s.head q with
      | true, some sv, some c =>
        let e := match sv.image with
          | some im => (im.entries.getD (c.pl 2 2) (0, 0)).2
          | none => 0
        let b := c.budget.getD e
        let s1 := (s.setCore n.val { k with
          ctx := sv.ctx, image := sv.image, seed := sv.seed, qXfer := sv.xfer, restoring := false, bound := min e b
          boundIsMax := decide (e ≤ b) }).setSaved q none
        sv.reads.foldl (fun (t : State) o => t.remoteRead o.what o.addr o.len) s1
      | _, _, _ => s)

end Sys2Proof.Machine
end

