-- ==== Sys2Proof/Machine/HostPort.lean ====
section
/-! DEFINITION. The PCIe endpoint: BAR0 accesses that are not registers', the BAR2 window, MSI-X masks, the link, PERST# and configuration writes (R586 to R595). -/

namespace Sys2Proof.Machine

/-- BAR0_BAD_ACCESS (R589): a request that is no naturally aligned access of 4 or 8 bytes. -/
def execBar0BadAccess (write : Bool) (s : State) : Out :=
  .next (
    if s.host.d3hot || !s.bootAnswers then (if write then s else s.emit .unsupported)
    else
      let s1 := s.setFld R.GLB_HOST_STAT F.GLB_HOST_STAT_BAD_BAR0 1
      if write then s1 else s1.emit .unsupported)

/-! ### The BAR2 window (R590, R591) -/

/-- The device address of a BAR2 offset. -/
def State.bar2Addr (s : State) (x : Nat) : Nat := s.fld R.GLB_BAR2_BASE F.GLB_BAR2_BASE_ADDR * 2 ^ 32 + x

/-- The half of a register that an aligned access of 4 or 8 bytes covers; none for any other access (R9). -/
def accHalf (off n : Nat) : Option Half :=
  if n = 8 ∧ off % 8 = 0 then some .full
  else if n = 4 ∧ off % 8 = 0 then some .low
  else if n = 4 ∧ off % 8 = 4 then some .high
  else none

/-- Issues the reads of a remote window for a BAR2 read of k bytes, f at most. -/
def State.bar2Remote (s : State) (x a k : Nat) : Nat → State
  | 0 => s
  | f + 1 =>
    if k = 0 then s
    else
      let m := min k (256 - a % 256)
      (s.remoteRead (.bar2 x) a m).bar2Remote (x + m) (a + m) (k - m) f

/-- BAR2_READ (R590): the target of the window serves it; the host window and unmapped addresses read as zeros, and poison or an uncorrectable error gives poisoned data. -/
def execBar2Read (x : BitVec 32) (len : BitVec 13) (s : State) : Out :=
  .next (
    let n := min 4096 len.toNat
    let a := s.bar2Addr x.toNat
    if s.host.d3hot || !s.bootAnswers then s.emit .unsupported
    else match s.place a with
      | .mirror off =>
        match accHalf off n with
        | some h =>
          let y := s.busGet .bar2 (off / 8 * 8) h
          y.2.emit (.bar2Data x.toNat (((leBytes y.1.toNat 8).drop (off % 8)).take n) false)
        | none => (s.setFld R.GLB_HOST_STAT F.GLB_HOST_STAT_BAD_BAR0 1).emit .unsupported
      | .remote _ _ => s.bar2Remote x.toNat a n (n / 256 + 2)
      | .hostWin _ | .unmapped => s.emit (.bar2Data x.toNat (List.replicate n 0) false)
      | _ =>
        let y := s.readMem hostAgent a n
        (s.noteRead hostAgent a n).emit (.bar2Data x.toNat y.bytes y.bad))

/-- BAR2_WRITE (R590, R612): discarded before WAIT_STREAM; a scratchpad takes whole aligned 8-byte words only and counts any other write in PARTIAL_DROP. -/
def execBar2Write (x : BitVec 32) (bytes : List Byte) (s : State) : Out :=
  .next (
    let l := bytes.take 512
    let a := s.bar2Addr x.toNat
    if s.host.d3hot || !s.bootServes then s
    else match s.place a with
      | .mirror off =>
        match accHalf off l.length with
        | some h => s.busWrite .bar2 (off / 8 * 8) h (BitVec.ofNat 64 (leNat l * 2 ^ (8 * (off % 8))))
        | none => s.setFld R.GLB_HOST_STAT F.GLB_HOST_STAT_BAD_BAR0 1
      | .remote p o => s.remoteWrite p o l
      | .hostWin _ | .unmapped => s
      | .spd _ _ =>
        if a % 8 ≠ 0 ∨ l.length % 8 ≠ 0 then s.satAdd R.GLB_HOST_STAT F.GLB_HOST_STAT_PARTIAL_DROP 1
        else (s.writeMem hostAgent a l).state
      | .hbm _ => (s.writeMem hostAgent a l).state)

/-! ### Vectors (R594) -/

/-- MSIX_UNMASK (R594): software clears the mask of a vector, or of the function; what is pending sends its message. -/
def execMsixUnmask (vec : Option (Fin 2048)) (s : State) : Out :=
  .next (
    match vec with
    | some v => (s.setMsix (2 * v.val + 1) (s.msixWord (2 * v.val + 1) &&& 0x00000000FFFFFFFF)).unmasked v.val
    | none => { s with host := { s.host with msixFnMask := false } }.unmaskedAll)

/-- Sends the vectors that waited for the endpoint to master the link; one masked since sets its pending bit (log 16). -/
def State.sendWaiting (s : State) : State :=
  if s.canMaster then
    s.host.waiting.foldl (fun (t : State) v => if t.vecMasked v then t.setPba v true else t.sendVec v) { s with host := { s.host with waiting := [] } }
  else s

/-! ### The link and the endpoint's resets (R587, R593, R604) -/

/-- PCIE_LINK_UP (R604). -/
def execPcieLinkUp (s : State) : Out := .next (s.setFld R.GLB_HOST_STAT F.GLB_HOST_STAT_LINK_UP 1).sendWaiting

/-- A read of the host window that the link's loss ends: zeros, counted, and flagged on the command it was for (R593). -/
def State.lostRead (s : State) (o : OutRead) : State :=
  let s1 := s.satAdd R.GLB_HOST_STAT F.GLB_HOST_STAT_HOST_DROPS 1
  let s2 := match o.what with
    | .copyOp n _ _ _ => s1.coreUnmapped n xferSource o.addr
    | .copyCmd q _ =>
      match s1.head q with
      | some c => s1.coreUnmapped (c.core.getD 0) xferSource o.addr
      | none => s1
    | _ => s1
  (s2.readReturns o (List.replicate o.len 0) false false).1

/-- The link is down: reads of the host window that are outstanding return zeros. -/
def State.linkLost (s : State) : State :=
  let lost := s.host.reads.filter (fun o => inHostWindow o.addr)
  let s1 := { s with host := { s.host with reads := s.host.reads.filter (fun o => !inHostWindow o.addr) } }
  lost.foldl State.lostRead (s1.setFld R.GLB_HOST_STAT F.GLB_HOST_STAT_LINK_UP 0)

/-- PCIE_LINK_DOWN (R593, R604). -/
def execPcieLinkDown (s : State) : Out := .next s.linkLost

/-- PERST_ASSERT (R587): the endpoint and its configuration space are reset, the MSI-X table with them (log 4); the device itself runs on. -/
def execPerstAssert (s : State) : Out :=
  .next (
    let t := s.linkLost
    { t with host := { t.host with msixTable := [], pba := [], msixEnable := false, msixFnMask := false, busMaster := false, d3hot := false, waiting := [] } })

/-- PCIE_CONFIG_WRITE (R587, R593, R594). -/
def execPcieConfigWrite (w : CfgWrite) (s : State) : Out :=
  .next (
    if !s.bootAnswers then s
    else match w with
      | .power d => { s with host := { s.host with d3hot := d } }.sendWaiting
      | .busMaster on => { s with host := { s.host with busMaster := on } }.sendWaiting
      | .msix en fm => { s with host := { s.host with msixEnable := en, msixFnMask := fm } }.unmaskedAll)

end Sys2Proof.Machine
end

