-- ==== Sys2Proof/Machine/TimeFire.lean ====
section
/-! DEFINITION. The tick of the 250 MHz clock, and what a compare's fire and an edge do to the units they reach (R100, R118 to R123, R403). -/

namespace Sys2Proof.Machine

/-- What a TIME_STEP of d ns does beyond the timekeeping unit: carriers in progress end (R405), and Plumb removes the step from its interval (R510). -/
def State.stepReaches (s : State) (d : Int) : State :=
  { s with plumb := { s.plumb with stepSum := s.plumb.stepSum + d } }.actStepped 48

/-- Device time's part of a tick, with the effects of the step that it applied (R110). -/
def State.tickStep (s : State) : State :=
  if s.time.running then
    match s.time.stepPend with
    | some d => s.tickTime.stepReaches d
    | none => s.tickTime
  else s

/-- TIME_TICK (R100): device time advances and compares are evaluated; the regulators gain their tokens (R454), the recorder writes what its regulator admits (R497), and Plumb's clock takes its words (R507). -/
def execTimeTick (s : State) : Out :=
  .next (
    let s1 := s.tickStep
    let s2 : State := { s1 with time := { s1.time with ticks := s1.time.ticks + 1 } }
    let s3 := (List.range 8).foldl (fun (t : State) c => t.refill c 7) s2
    s3.recFlush.plumbTick)

/-- Starts the pulse of a CONV_START pin, or restarts it: active for WIDTH × 4 ns (R403). -/
def State.convPulse (s : State) (q : Nat) : State :=
  if s.bit (R.SIO_CONV_CFG q) F.SIO_CONV_CFG_ACTIVE then
    { s with io := { s.io with conv := Store.set (fun _ => none) s.io.conv q (some (s.time.ticks + s.fld (R.SIO_CONV_CFG q) F.SIO_CONV_CFG_WIDTH)) } }
  else s

/-- What a fire does at its target (R121): a CONV_START pulse, the start of a rate group's sample, the arming of a gated camera port, or a TCMP interrupt cause. -/
def State.fireTarget (s : State) (kind idx : Nat) (stamp : Word) : State :=
  match kind with
  | 1 => s.convPulse idx
  | 2 => s.groupFire idx stamp
  | 3 =>
    if s.bit (R.IMG_PORT_CFG idx) F.IMG_PORT_CFG_ACTIVE && s.bit (R.IMG_PORT_CFG idx) F.IMG_PORT_CFG_GATED then s.camArm idx stamp else s
  | 4 => s.withCause (32 + idx) (fun t => t.setReg R.GLB_IRQ_STAT (t.reg R.GLB_IRQ_STAT ||| BitVec.ofNat 64 (2 ^ (32 + idx))))
  | _ => s

/-- One event for each target and tick, however many compares fire on it (R121). -/
def State.fireOnce (s : State) (kind idx : Nat) (stamp : Word) : State :=
  if s.time.fired.contains (kind, idx) then s
  else { s with time := { s.time with fired := s.time.fired ++ [(kind, idx)] } }.fireTarget kind idx stamp

/-- TIME_COMPARE_FIRE (R118, R121, R649): a compare whose next fire stamp the last tick reached fires on its target with its fire stamp, and computes its next one. -/
def execTimeCompareFire (n : Fin 64) (s : State) : Out :=
  .next (
    match s.cmpDue n.val with
    | none => s
    | some d =>
      (s.cmpFired n.val d).fireOnce (s.fld (R.TIME_CMP_CFG n.val) F.TIME_CMP_CFG_KIND)
        (s.fld (R.TIME_CMP_CFG n.val) F.TIME_CMP_CFG_INDEX) d.stamp)

/-- CONV_START_PULSE_END (R403): WIDTH × 4 ns after the fire that last started it, the pulse ends. -/
def execConvStartPulseEnd (q : Fin 16) (s : State) : Out :=
  .next (
    match Store.get (fun _ => none) s.io.conv q.val with
    | some t => if t ≤ s.time.ticks then { s with io := { s.io with conv := Store.set (fun _ => none) s.io.conv q.val none } } else s
    | none => s)

/-- A capture reaches its consumers: the record, and the FIFO of its channel (R123). -/
def State.capture (s : State) (k : Nat) (rising : Bool) (w : Word) : State :=
  let s1 := (s.record 4 7 k (if rising then 1 else 0) w 0 []).evtPush k rising w
  { s1 with time := { s1.time with evtLast := Store.set (fun _ => none) s1.time.evtLast k (some w) } }

/-- EVENT_CAPTURE (R122, R123): an edge that the filter accepted, first sampled by the tick of the stamp given; one that EDGE does not select, or too close to the last capture, is none. -/
def execEventCapture (k : Fin 17) (rising : Bool) (sampled : Word) (s : State) : Out :=
  .next (
    let w := s.captureStamp k.val sampled
    if s.edgeSelected k.val rising && !s.edgeTooClose k.val w then s.liveInput 4 (fun t => t.capture k.val rising w) else s)

end Sys2Proof.Machine
end

