-- ==== Sys2Proof/Machine/Replay.lean ====
section
/-! DEFINITION. The replayer (R498): the entries of a log, injected in the place of live inputs. -/

namespace Sys2Proof.Machine

/-- An entry of the log as the replayer reads it (R496). -/
structure LogEntry where
  stamp : Word
  len : Nat
  kind : Nat
  source : Nat
  flags : Nat
  aux : Nat
  payload : List Byte

/-- Bytes of a ring of len > 0 bytes at base, from byte p on, continuing at base at its end. -/
def State.ringRead (s : State) (base len p : Nat) : Nat → List Byte
  | 0 => []
  | n + 1 => s.rd (base + p % len) :: s.ringRead base len (p + 1) n

/-- The entry of the log at byte p of it (R496). -/
def State.logEntry (s : State) (p : Nat) : LogEntry :=
  let base := s.fld R.DET_REPLAY_BASE F.DET_REPLAY_BASE_ADDR * 4096
  let len := s.fld R.DET_REPLAY_LEN F.DET_REPLAY_LEN_LEN
  let h := s.ringRead base len p 32
  let n := min (sliceN h 16 4) len
  { stamp := BitVec.ofNat 64 (sliceN h 0 8), len := n, kind := sliceN h 20 1, source := sliceN h 21 1, flags := sliceN h 22 2,
    aux := sliceN h 24 8, payload := s.ringRead base len (p + 32) n }

/-- The bytes that an entry takes in the log. -/
def LogEntry.size (e : LogEntry) : Nat := 32 + (e.len + 31) / 32 * 32

/-- The class bit of a kind (R496); a GAP has none. -/
def replayClass (kind : Nat) : Option Nat :=
  if kind = 0 then none else if kind ≤ 3 then some 0 else if kind ≤ 7 then some (kind - 3) else none

/-- The CAN frame of an entry of KIND 5 (R496; log 42). -/
def LogEntry.canFrame (e : LogEntry) : CanFrame :=
  let c := sliceN e.payload 4 4
  let n := if c.testBit 4 then 0 else dlcBytes (c.testBit 7) (c % 16)
  { ide := c.testBit 8, fdf := c.testBit 7, brs := c.testBit 6, esi := c.testBit 5, rtr := c.testBit 4, dlc := BitVec.ofNat 4 c
    id := BitVec.ofNat 29 (sliceN e.payload 0 4), data := (e.payload.drop 8).take n }

/-- Injects an entry with the stamp its consumers see (R498). A sensor port takes its entry at the end of its acquisition. -/
def State.inject (s : State) (e : LogEntry) (w : Word) : State :=
  let vc := e.aux / 256 % 4
  match e.kind with
  | 1 => if e.source < 16 then s.camFrameStart e.source vc w else s
  | 2 => if e.source < 16 then s.camLine e.source vc (e.aux % 64) .good (!e.flags.testBit 0) false e.payload else s
  | 3 => if e.source < 16 then s.camFrameEnd e.source vc false else s
  | 4 => if e.source < 4 ∧ s.ethActive e.source then s.ethTake e.source w e.payload else s
  | 5 => if e.source < 8 ∧ s.canActive e.source then s.canFilter e.source e.canFrame (canStampOfNs (s.nsOf w)) w else s
  | 6 =>
    let raw : Word := BitVec.ofNat 64 (sliceN e.payload 0 8)
    { s with det := { s.det with replaySens := s.det.replaySens ++ [(e.source, w, e.flags % 8, raw)] } }
  | 7 => if e.source < 17 then s.capture e.source (e.flags.testBit 0) w else s
  | _ => s

/-- The replayer moves past an entry; at the end of the log DONE is set (R498). -/
def State.replayNext (s : State) (p len : Nat) : State :=
  let s1 := s.setReg R.DET_REPLAY_CONS (BitVec.ofNat 64 p)
  if len ≤ p then s1.setFld R.DET_REPLAY_STAT F.DET_REPLAY_STAT_DONE 1 else s1

/-- An entry that is injected more than 2 µs after its time is late (R498). -/
def State.replayLate (s : State) (due : Word) : State :=
  if 2000 < stampDiff s.now due then s.satAdd R.DET_REPLAY_STAT F.DET_REPLAY_STAT_LATE_INJECT 1 else s

/-- Takes the entry at byte p of the log once its time STAMP + OFFSET_NS has come: an input of a replayed class is injected, a GAP counts its entries as lost input, any other entry is passed over (R498). -/
def State.replayEntry (s : State) (p len : Nat) : State :=
  let e := s.logEntry p
  let due := stampAdd e.stamp (s.reg R.DET_REPLAY_OFFSET).toInt
  let early := decide (stampDiff s.now due < 0)
  let p' := p + e.size
  if e.kind = 0 then
    (if early then s else (s.satAdd R.DET_REPLAY_STAT F.DET_REPLAY_STAT_MISSING e.aux).replayNext p' len)
  else match replayClass e.kind with
    | none => s.replayNext p' len
    | some c =>
      if !s.replays c then s.replayNext p' len
      else if early then s
      else ((s.replayLate due).inject e due).replayNext p' len

/-- REPLAY_INJECT (R498): the next entry of the log. -/
def execReplayInject (s : State) : Out :=
  .next (
    let len := s.fld R.DET_REPLAY_LEN F.DET_REPLAY_LEN_LEN
    let p := (s.reg R.DET_REPLAY_CONS).toNat
    if !s.bit R.DET_REPLAY_CTL F.DET_REPLAY_CTL_ENABLE then s
    else if len ≤ p then s.setFld R.DET_REPLAY_STAT F.DET_REPLAY_STAT_DONE 1
    else s.replayEntry p len)

end Sys2Proof.Machine
end

