-- ==== Sys2Proof/Machine/Dispatch.lean ====
section
/-! DEFINITION. The dispatch: one arm per command of the table. -/

namespace Sys2Proof.Machine

/-- What a command does to everything but the queue of waiting commands. -/
def exec (i : Instr) (s : State) : Host.Outcome State Fault Refusal :=
  match i with
  | .genericRegisterWrite r off h v => Sys2Proof.Machine.execGenericRegisterWrite r off h v s
  | .bar0BadAccess write => Sys2Proof.Machine.execBar0BadAccess write s
  | .stepRateWindow rate => Sys2Proof.Machine.execStepRateWindow rate s
  | .stepRateRead r h => Sys2Proof.Machine.execStepRateRead r h s
  | .deadlineExpiry q => Sys2Proof.Machine.execDeadlineExpiry q s
  | .stepBudgetExhausted q => Sys2Proof.Machine.execStepBudgetExhausted q s
  | .suspendedDeadlinePass q => Sys2Proof.Machine.execSuspendedDeadlinePass q s
  | .fabStage r tag => Sys2Proof.Machine.execFabStage r tag s
  | .fabStageDone => Sys2Proof.Machine.execFabStageDone s
  | .fabCommit r tag => Sys2Proof.Machine.execFabCommit r tag s
  | .fabDiscard r tag => Sys2Proof.Machine.execFabDiscard r tag s
  | .commitUnitDrainTimeout => Sys2Proof.Machine.execCommitUnitDrainTimeout s
  | .commitDrainDone => Sys2Proof.Machine.execCommitDrainDone s
  | .commitSaveDone => Sys2Proof.Machine.execCommitSaveDone s
  | .commitVerifyDone => Sys2Proof.Machine.execCommitVerifyDone s
  | .commitRebindDone => Sys2Proof.Machine.execCommitRebindDone s
  | .commitResumeDone => Sys2Proof.Machine.execCommitResumeDone s
  | .timeTick => Sys2Proof.Machine.execTimeTick s
  | .timeNowRead r h => Sys2Proof.Machine.execTimeNowRead r h s
  | .timeStepWrite r h v => Sys2Proof.Machine.execTimeStepWrite r h v s
  | .timeRateWrite r h v => Sys2Proof.Machine.execTimeRateWrite r h v s
  | .timeCtlNewSession r => Sys2Proof.Machine.execTimeCtlNewSession r s
  | .timeCtlDeclareValid r => Sys2Proof.Machine.execTimeCtlDeclareValid r s
  | .timeCtlEndHoldover r => Sys2Proof.Machine.execTimeCtlEndHoldover r s
  | .timeCtlSwitchAlt r => Sys2Proof.Machine.execTimeCtlSwitchAlt r s
  | .timeAltCtlWrite r h v => Sys2Proof.Machine.execTimeAltCtlWrite r h v s
  | .timeAltRateWrite r h v => Sys2Proof.Machine.execTimeAltRateWrite r h v s
  | .timeAltOffsetWrite r h v => Sys2Proof.Machine.execTimeAltOffsetWrite r h v s
  | .syncLossTimeout => Sys2Proof.Machine.execSyncLossTimeout s
  | .refLoss => Sys2Proof.Machine.execRefLoss s
  | .refReturn => Sys2Proof.Machine.execRefReturn s
  | .ppsOutRise => Sys2Proof.Machine.execPpsOutRise s
  | .ppsOutFall => Sys2Proof.Machine.execPpsOutFall s
  | .timeCompareFire n => Sys2Proof.Machine.execTimeCompareFire n s
  | .convStartPulseEnd q => Sys2Proof.Machine.execConvStartPulseEnd q s
  | .timeCmpArmWrite n r h v => Sys2Proof.Machine.execTimeCmpArmWrite n r h v s
  | .eventCapture k rising sampled => Sys2Proof.Machine.execEventCapture k rising sampled s
  | .timeEvtStampRead k r h => Sys2Proof.Machine.execTimeEvtStampRead k r h s
  | .csi2FrameStart p vc => Sys2Proof.Machine.execCsi2FrameStart p vc s
  | .csi2LinePacket p vc dt hdr crcOk overrun payload => Sys2Proof.Machine.execCsi2LinePacket p vc dt hdr crcOk overrun payload s
  | .csi2FrameEnd p vc ecc => Sys2Proof.Machine.execCsi2FrameEnd p vc ecc s
  | .csi2FrameEndTimeout p vc => Sys2Proof.Machine.execCsi2FrameEndTimeout p vc s
  | .sampleRecordWrite src => Sys2Proof.Machine.execSampleRecordWrite src s
  | .imgSrcRelease src r h v => Sys2Proof.Machine.execImgSrcRelease src r h v s
  | .imgPortDisable p r abandon => Sys2Proof.Machine.execImgPortDisable p r abandon s
  | .imgPortEnable p r => Sys2Proof.Machine.execImgPortEnable p r s
  | .portDisableDrainTimeout p => Sys2Proof.Machine.execPortDisableDrainTimeout p s
  | .carrierDatagram e stamp bytes => Sys2Proof.Machine.execCarrierDatagram e stamp bytes s
  | .reassemblyTimeout src slot => Sys2Proof.Machine.execReassemblyTimeout src slot s
  | .decoderStart d => Sys2Proof.Machine.execDecoderStart d s
  | .decodeComplete d ecc => Sys2Proof.Machine.execDecodeComplete d ecc s
  | .decodeBudgetExpiry d => Sys2Proof.Machine.execDecodeBudgetExpiry d s
  | .tokenize q done ecc => Sys2Proof.Machine.execTokenize q done ecc s
  | .coreRun q => Sys2Proof.Machine.execCoreRun q s
  | .coreCopy q done => Sys2Proof.Machine.execCoreCopy q done s
  | .coreFill q done => Sys2Proof.Machine.execCoreFill q done s
  | .bundleIssue n ecc => Sys2Proof.Machine.execBundleIssue n ecc s
  | .yieldPoint n => Sys2Proof.Machine.execYieldPoint n s
  | .programEnd n => Sys2Proof.Machine.execProgramEnd n s
  | .engineOperationComplete n e => Sys2Proof.Machine.execEngineOperationComplete n e s
  | .matWload n e x => Sys2Proof.Machine.execMatWload n e x s
  | .matMatmul n e x set row count init swap fault => Sys2Proof.Machine.execMatMatmul n e x set row count init swap fault s
  | .matDrain n e x q set row count rnd => Sys2Proof.Machine.execMatDrain n e x q set row count rnd s
  | .matClear n e set row count => Sys2Proof.Machine.execMatClear n e set row count s
  | .vecAdd n dst src1 src2 imm rnd => Sys2Proof.Machine.execVecAdd n dst src1 src2 imm rnd s
  | .vecMul n dst src1 src2 imm rnd => Sys2Proof.Machine.execVecMul n dst src1 src2 imm rnd s
  | .vecFma n dst src1 src2 imm rnd => Sys2Proof.Machine.execVecFma n dst src1 src2 imm rnd s
  | .vecMax n dst src1 src2 imm rnd => Sys2Proof.Machine.execVecMax n dst src1 src2 imm rnd s
  | .vecMin n dst src1 src2 imm rnd => Sys2Proof.Machine.execVecMin n dst src1 src2 imm rnd s
  | .vecCvt n dst src1 src2 imm rnd => Sys2Proof.Machine.execVecCvt n dst src1 src2 imm rnd s
  | .vecBquant n dst src1 src2 imm rnd => Sys2Proof.Machine.execVecBquant n dst src1 src2 imm rnd s
  | .vecExp n dst src1 src2 imm rnd => Sys2Proof.Machine.execVecExp n dst src1 src2 imm rnd s
  | .vecLog n dst src1 src2 imm rnd => Sys2Proof.Machine.execVecLog n dst src1 src2 imm rnd s
  | .vecRecip n dst src1 src2 imm rnd => Sys2Proof.Machine.execVecRecip n dst src1 src2 imm rnd s
  | .vecRsqrt n dst src1 src2 imm rnd => Sys2Proof.Machine.execVecRsqrt n dst src1 src2 imm rnd s
  | .vecTanh n dst src1 src2 imm rnd => Sys2Proof.Machine.execVecTanh n dst src1 src2 imm rnd s
  | .vecSigmoid n dst src1 src2 imm rnd => Sys2Proof.Machine.execVecSigmoid n dst src1 src2 imm rnd s
  | .vecGelu n dst src1 src2 imm rnd => Sys2Proof.Machine.execVecGelu n dst src1 src2 imm rnd s
  | .vecRsum n dst src1 src2 imm rnd => Sys2Proof.Machine.execVecRsum n dst src1 src2 imm rnd s
  | .vecRmax n dst src1 src2 imm rnd => Sys2Proof.Machine.execVecRmax n dst src1 src2 imm rnd s
  | .vecSmstat n dst src1 src2 imm rnd => Sys2Proof.Machine.execVecSmstat n dst src1 src2 imm rnd s
  | .vecSmlse n dst src1 src2 imm rnd => Sys2Proof.Machine.execVecSmlse n dst src1 src2 imm rnd s
  | .vecNstat n dst src1 src2 imm rnd => Sys2Proof.Machine.execVecNstat n dst src1 src2 imm rnd s
  | .s0Add n rd ra rb => Sys2Proof.Machine.execS0Add n rd ra rb s
  | .s0Sub n rd ra rb => Sys2Proof.Machine.execS0Sub n rd ra rb s
  | .s0And n rd ra rb => Sys2Proof.Machine.execS0And n rd ra rb s
  | .s0Or n rd ra rb => Sys2Proof.Machine.execS0Or n rd ra rb s
  | .s0Xor n rd ra rb => Sys2Proof.Machine.execS0Xor n rd ra rb s
  | .s0Shl n rd ra rb => Sys2Proof.Machine.execS0Shl n rd ra rb s
  | .s0Shr n rd ra rb => Sys2Proof.Machine.execS0Shr n rd ra rb s
  | .s0Sar n rd ra rb => Sys2Proof.Machine.execS0Sar n rd ra rb s
  | .s0Mul n rd ra rb => Sys2Proof.Machine.execS0Mul n rd ra rb s
  | .s0Min n rd ra rb => Sys2Proof.Machine.execS0Min n rd ra rb s
  | .s0Max n rd ra rb => Sys2Proof.Machine.execS0Max n rd ra rb s
  | .s0Slt n rd ra rb => Sys2Proof.Machine.execS0Slt n rd ra rb s
  | .s0Sltu n rd ra rb => Sys2Proof.Machine.execS0Sltu n rd ra rb s
  | .s0Addi n rd ra imm => Sys2Proof.Machine.execS0Addi n rd ra imm s
  | .s0Andi n rd ra imm => Sys2Proof.Machine.execS0Andi n rd ra imm s
  | .s0Ori n rd ra imm => Sys2Proof.Machine.execS0Ori n rd ra imm s
  | .s0Xori n rd ra imm => Sys2Proof.Machine.execS0Xori n rd ra imm s
  | .s0Shli n rd ra imm => Sys2Proof.Machine.execS0Shli n rd ra imm s
  | .s0Shri n rd ra imm => Sys2Proof.Machine.execS0Shri n rd ra imm s
  | .s0Sari n rd ra imm => Sys2Proof.Machine.execS0Sari n rd ra imm s
  | .s0Lih n rd ra imm => Sys2Proof.Machine.execS0Lih n rd ra imm s
  | .s0Exts n rd ra imm => Sys2Proof.Machine.execS0Exts n rd ra imm s
  | .s0Extu n rd ra imm => Sys2Proof.Machine.execS0Extu n rd ra imm s
  | .s0Ld n rd ra imm => Sys2Proof.Machine.execS0Ld n rd ra imm s
  | .s0St n rs ra imm => Sys2Proof.Machine.execS0St n rs ra imm s
  | .s0Ldf n rd ra imm => Sys2Proof.Machine.execS0Ldf n rd ra imm s
  | .s0Stf n rs ra imm => Sys2Proof.Machine.execS0Stf n rs ra imm s
  | .loadDataReturn n k => Sys2Proof.Machine.execLoadDataReturn n k s
  | .s0Beq n ra rb off => Sys2Proof.Machine.execS0Beq n ra rb off s
  | .s0Bne n ra rb off => Sys2Proof.Machine.execS0Bne n ra rb off s
  | .s0Blt n ra rb off => Sys2Proof.Machine.execS0Blt n ra rb off s
  | .s0Bge n ra rb off => Sys2Proof.Machine.execS0Bge n ra rb off s
  | .s0Jmp n off => Sys2Proof.Machine.execS0Jmp n off s
  | .s0Loop n ra imm => Sys2Proof.Machine.execS0Loop n ra imm s
  | .s0Dset n g desc word => Sys2Proof.Machine.execS0Dset n g desc word s
  | .s0Dadd n g desc => Sys2Proof.Machine.execS0Dadd n g desc s
  | .s0Dget n g desc word => Sys2Proof.Machine.execS0Dget n g desc word s
  | .s0Srstream n ra => Sys2Proof.Machine.execS0Srstream n ra s
  | .s1IntegerOp n op rd ra rb => Sys2Proof.Machine.execS1IntegerOp n op rd ra rb s
  | .s1Fadd n fd fa fb => Sys2Proof.Machine.execS1Fadd n fd fa fb s
  | .s1Fsub n fd fa fb => Sys2Proof.Machine.execS1Fsub n fd fa fb s
  | .s1Fmul n fd fa fb => Sys2Proof.Machine.execS1Fmul n fd fa fb s
  | .s1Fma n fd fa fb fc => Sys2Proof.Machine.execS1Fma n fd fa fb fc s
  | .s1Fdiv n fd fa fb => Sys2Proof.Machine.execS1Fdiv n fd fa fb s
  | .s1Fsqrt n fd fa => Sys2Proof.Machine.execS1Fsqrt n fd fa s
  | .s1Fmin n fd fa fb => Sys2Proof.Machine.execS1Fmin n fd fa fb s
  | .s1Fmax n fd fa fb => Sys2Proof.Machine.execS1Fmax n fd fa fb s
  | .s1FcvtFi n fd gr => Sys2Proof.Machine.execS1FcvtFi n fd gr s
  | .s1FcvtIf n gr fa => Sys2Proof.Machine.execS1FcvtIf n gr fa s
  | .s1FcvtFs n fd gr => Sys2Proof.Machine.execS1FcvtFs n fd gr s
  | .s1FcvtSf n gr fa => Sys2Proof.Machine.execS1FcvtSf n gr fa s
  | .s1Fmovfg n fd gr => Sys2Proof.Machine.execS1Fmovfg n fd gr s
  | .s1Fmovgf n gr fa => Sys2Proof.Machine.execS1Fmovgf n gr fa s
  | .s1Fcmplt n gr fa fb => Sys2Proof.Machine.execS1Fcmplt n gr fa fb s
  | .fp64ResultWrite n slow => Sys2Proof.Machine.execFp64ResultWrite n slow s
  | .xferCopy n dst src => Sys2Proof.Machine.execXferCopy n dst src s
  | .xferFill n dst src => Sys2Proof.Machine.execXferFill n dst src s
  | .xferIm2col n dst src aux => Sys2Proof.Machine.execXferIm2col n dst src aux s
  | .xferZcomp n dst src aux => Sys2Proof.Machine.execXferZcomp n dst src aux s
  | .xferZdecomp n dst src aux => Sys2Proof.Machine.execXferZdecomp n dst src aux s
  | .xferScaleBind n dst src aux => Sys2Proof.Machine.execXferScaleBind n dst src aux s
  | .coreInjectWrite n r h v => Sys2Proof.Machine.execCoreInjectWrite n r h v s
  | .bankAccessServe b heads => Sys2Proof.Machine.execBankAccessServe b heads s
  | .eccWriteback b line => Sys2Proof.Machine.execEccWriteback b line s
  | .spdBankOwnerWrite b r h v => Sys2Proof.Machine.execSpdBankOwnerWrite b r h v s
  | .handoverComplete b => Sys2Proof.Machine.execHandoverComplete b s
  | .spdBankPwrWrite b r h v => Sys2Proof.Machine.execSpdBankPwrWrite b r h v s
  | .bankPowerTransitionDone b => Sys2Proof.Machine.execBankPowerTransitionDone b s
  | .patrolScrubLine line => Sys2Proof.Machine.execPatrolScrubLine line s
  | .columnRepairLine => Sys2Proof.Machine.execColumnRepairLine s
  | .columnRepairDone => Sys2Proof.Machine.execColumnRepairDone s
  | .edgeConv q done fault => Sys2Proof.Machine.execEdgeConv q done fault s
  | .edgePool q done => Sys2Proof.Machine.execEdgePool q done s
  | .edgeResize q done => Sys2Proof.Machine.execEdgeResize q done s
  | .kvOpen q => Sys2Proof.Machine.execKvOpen q s
  | .kvClose q done refetch => Sys2Proof.Machine.execKvClose q done refetch s
  | .kvAppend q done refetch => Sys2Proof.Machine.execKvAppend q done refetch s
  | .kvFork q done refetch => Sys2Proof.Machine.execKvFork q done refetch s
  | .kvTruncate q done refetch => Sys2Proof.Machine.execKvTruncate q done refetch s
  | .kvScore q done refetch => Sys2Proof.Machine.execKvScore q done refetch s
  | .kvPin q done refetch => Sys2Proof.Machine.execKvPin q done refetch s
  | .kvEvict q done refetch => Sys2Proof.Machine.execKvEvict q done refetch s
  | .kvVerifyCommit q done refetch => Sys2Proof.Machine.execKvVerifyCommit q done refetch s
  | .solveDense q => Sys2Proof.Machine.execSolveDense q s
  | .solveBa q => Sys2Proof.Machine.execSolveBa q s
  | .solverEvalReturn ecc => Sys2Proof.Machine.execSolverEvalReturn ecc s
  | .ctlSnapshot g => Sys2Proof.Machine.execCtlSnapshot g s
  | .ctlEvaluate g bad => Sys2Proof.Machine.execCtlEvaluate g bad s
  | .ctlHandoff g => Sys2Proof.Machine.execCtlHandoff g s
  | .ctlLatch g => Sys2Proof.Machine.execCtlLatch g s
  | .ctlWriteInputs q => Sys2Proof.Machine.execCtlWriteInputs q s
  | .ctlSetCoef q => Sys2Proof.Machine.execCtlSetCoef q s
  | .ctlResetState q => Sys2Proof.Machine.execCtlResetState q s
  | .ctlTraceRead q => Sys2Proof.Machine.execCtlTraceRead q s
  | .ctlSlotInWrite sl r h v => Sys2Proof.Machine.execCtlSlotInWrite sl r h v s
  | .ctlGroupDisable g r abandon => Sys2Proof.Machine.execCtlGroupDisable g r abandon s
  | .ctlGroupEnable g r => Sys2Proof.Machine.execCtlGroupEnable g r s
  | .ctlTraceArm t r => Sys2Proof.Machine.execCtlTraceArm t r s
  | .ctlTraceForce t r => Sys2Proof.Machine.execCtlTraceForce t r s
  | .traceConfigWrite r off h v => Sys2Proof.Machine.execTraceConfigWrite r off h v s
  | .sensorFrameComplete p res => Sys2Proof.Machine.execSensorFrameComplete p res s
  | .sensorNoStartTimeout p => Sys2Proof.Machine.execSensorNoStartTimeout p s
  | .pwmValley a => Sys2Proof.Machine.execPwmValley a s
  | .stepPulseCarry a => Sys2Proof.Machine.execStepPulseCarry a s
  | .canFrameReceived k f sof => Sys2Proof.Machine.execCanFrameReceived k f sof s
  | .canTxRequest k m r => Sys2Proof.Machine.execCanTxRequest k m r s
  | .canTxAbort k m r onBus => Sys2Proof.Machine.execCanTxAbort k m r onBus s
  | .canTxComplete k sof => Sys2Proof.Machine.execCanTxComplete k sof s
  | .canTxError k e => Sys2Proof.Machine.execCanTxError k e s
  | .canRecover k r => Sys2Proof.Machine.execCanRecover k r s
  | .canRecoveryDone k => Sys2Proof.Machine.execCanRecoveryDone k s
  | .canDisable k r abandon busy => Sys2Proof.Machine.execCanDisable k r abandon busy s
  | .canEnable k r => Sys2Proof.Machine.execCanEnable k r s
  | .canBusIntegrationDone k => Sys2Proof.Machine.execCanBusIntegrationDone k s
  | .ethFrameReceived e fcsOk stamp bytes => Sys2Proof.Machine.execEthFrameReceived e fcsOk stamp bytes s
  | .ethTxFrame q => Sys2Proof.Machine.execEthTxFrame q s
  | .ethTxDone e stamp => Sys2Proof.Machine.execEthTxDone e stamp s
  | .ethLinkUp e => Sys2Proof.Machine.execEthLinkUp e s
  | .ethLinkDown e => Sys2Proof.Machine.execEthLinkDown e s
  | .queDoorbellWrite q r h v => Sys2Proof.Machine.execQueDoorbellWrite q r h v s
  | .descriptorFetch q => Sys2Proof.Machine.execDescriptorFetch q s
  | .commandDispatch c u inst => Sys2Proof.Machine.execCommandDispatch c u inst s
  | .yieldRemoteTimeout n => Sys2Proof.Machine.execYieldRemoteTimeout n s
  | .contextSaveDone n => Sys2Proof.Machine.execContextSaveDone n s
  | .contextRestoreDone n => Sys2Proof.Machine.execContextRestoreDone n s
  | .quantumExpiry n => Sys2Proof.Machine.execQuantumExpiry n s
  | .commandComplete q => Sys2Proof.Machine.execCommandComplete q s
  | .queueDisable q r abandon => Sys2Proof.Machine.execQueueDisable q r abandon s
  | .queueEnable q r => Sys2Proof.Machine.execQueueEnable q r s
  | .queueDrainTimeout q => Sys2Proof.Machine.execQueueDrainTimeout q s
  | .queSeqRead q r h => Sys2Proof.Machine.execQueSeqRead q r h s
  | .regulatorAdmit c k size idle => Sys2Proof.Machine.execRegulatorAdmit c k size idle s
  | .hbmAccess acc => Sys2Proof.Machine.execHbmAccess acc s
  | .hbmPatrolScrub pc => Sys2Proof.Machine.execHbmPatrolScrub pc s
  | .hbmRetireReqWrite r h v => Sys2Proof.Machine.execHbmRetireReqWrite r h v s
  | .hbmRowRetireDone => Sys2Proof.Machine.execHbmRowRetireDone s
  | .hbmRetrainReq r h v => Sys2Proof.Machine.execHbmRetrainReq r h v s
  | .hbmLinkError ch => Sys2Proof.Machine.execHbmLinkError ch s
  | .hbmTempRead temps => Sys2Proof.Machine.execHbmTempRead temps s
  | .hbmRetrainDone => Sys2Proof.Machine.execHbmRetrainDone s
  | .chdEnumerate r => Sys2Proof.Machine.execChdEnumerate r s
  | .chordEnum p f => Sys2Proof.Machine.execChordEnum p f s
  | .chordAck p f => Sys2Proof.Machine.execChordAck p f s
  | .chordNak p f => Sys2Proof.Machine.execChordNak p f s
  | .chordCredit p f => Sys2Proof.Machine.execChordCredit p f s
  | .chordTime p f rx => Sys2Proof.Machine.execChordTime p f rx s
  | .chordTimeSend => Sys2Proof.Machine.execChordTimeSend s
  | .chordRead p f => Sys2Proof.Machine.execChordRead p f s
  | .chordReadResp p f refused => Sys2Proof.Machine.execChordReadResp p f refused s
  | .chordWrite p f => Sys2Proof.Machine.execChordWrite p f s
  | .chordHalyard p f => Sys2Proof.Machine.execChordHalyard p f s
  | .chordDet p f => Sys2Proof.Machine.execChordDet p f s
  | .chordSig p f => Sys2Proof.Machine.execChordSig p f s
  | .chordFrameCorrupt p fec => Sys2Proof.Machine.execChordFrameCorrupt p fec s
  | .chordBadKind p f => Sys2Proof.Machine.execChordBadKind p f s
  | .chordAckTimeout p => Sys2Proof.Machine.execChordAckTimeout p s
  | .chordLinkDown p => Sys2Proof.Machine.execChordLinkDown p s
  | .chordLinkUp p => Sys2Proof.Machine.execChordLinkUp p s
  | .remoteTimeout tseq => Sys2Proof.Machine.execRemoteTimeout tseq s
  | .detLaunchArm r => Sys2Proof.Machine.execDetLaunchArm r s
  | .detLaunchAbort r => Sys2Proof.Machine.execDetLaunchAbort r s
  | .detLaunchRelease r => Sys2Proof.Machine.execDetLaunchRelease r s
  | .launchFire => Sys2Proof.Machine.execLaunchFire s
  | .launchMarginExpiry => Sys2Proof.Machine.execLaunchMarginExpiry s
  | .launchArmedExpiry => Sys2Proof.Machine.execLaunchArmedExpiry s
  | .detLsCfgWrite r h v => Sys2Proof.Machine.execDetLsCfgWrite r h v s
  | .detLsFeed f r h v => Sys2Proof.Machine.execDetLsFeed f r h v s
  | .lockstepLagTimeout src => Sys2Proof.Machine.execLockstepLagTimeout src s
  | .recordGapEntry => Sys2Proof.Machine.execRecordGapEntry s
  | .replayInject => Sys2Proof.Machine.execReplayInject s
  | .settingsDigestRecompute => Sys2Proof.Machine.execSettingsDigestRecompute s
  | .plbInboxWrite n r h v => Sys2Proof.Machine.execPlbInboxWrite n r h v s
  | .plumbFrameStart f => Sys2Proof.Machine.execPlumbFrameStart f s
  | .plumbFrameDeadline f => Sys2Proof.Machine.execPlumbFrameDeadline f s
  | .plumbJudgementEnd f => Sys2Proof.Machine.execPlumbJudgementEnd f s
  | .plumbHwDetect d => Sys2Proof.Machine.execPlumbHwDetect d s
  | .plumbTimeCheck => Sys2Proof.Machine.execPlumbTimeCheck s
  | .plumbFault src => Sys2Proof.Machine.execPlumbFault src s
  | .plumbWatchdogTimeout => Sys2Proof.Machine.execPlumbWatchdogTimeout s
  | .plumbSafetyMessage => Sys2Proof.Machine.execPlumbSafetyMessage s
  | .plumbSafetyRepeat => Sys2Proof.Machine.execPlumbSafetyRepeat s
  | .plbAck r h v => Sys2Proof.Machine.execPlbAck r h v s
  | .plbForceSafe r on => Sys2Proof.Machine.execPlbForceSafe r on s
  | .plbClearFirst r => Sys2Proof.Machine.execPlbClearFirst r s
  | .pennantFrameBoundary => Sys2Proof.Machine.execPennantFrameBoundary s
  | .pennantRunStart phys e => Sys2Proof.Machine.execPennantRunStart phys e s
  | .pennantReportJudge => Sys2Proof.Machine.execPennantReportJudge s
  | .fuseBurnDone good => Sys2Proof.Machine.execFuseBurnDone good s
  | .fltCmdFurl r core => Sys2Proof.Machine.execFltCmdFurl r core s
  | .plannedSwapStart n => Sys2Proof.Machine.execPlannedSwapStart n s
  | .swapCopyDone => Sys2Proof.Machine.execSwapCopyDone s
  | .rollingTestNext => Sys2Proof.Machine.execRollingTestNext s
  | .rollingIntervalExpiry => Sys2Proof.Machine.execRollingIntervalExpiry s
  | .coreTestDone fail bank cols => Sys2Proof.Machine.execCoreTestDone fail bank cols s
  | .fltTestReq r h v => Sys2Proof.Machine.execFltTestReq r h v s
  | .testRequestStart => Sys2Proof.Machine.execTestRequestStart s
  | .testRequestNoSlack => Sys2Proof.Machine.execTestRequestNoSlack s
  | .thermalCalSegmentDone => Sys2Proof.Machine.execThermalCalSegmentDone s
  | .fltPenInstall r allowOlder => Sys2Proof.Machine.execFltPenInstall r allowOlder s
  | .pennantInstallDone => Sys2Proof.Machine.execPennantInstallDone s
  | .powerSample x => Sys2Proof.Machine.execPowerSample x s
  | .pwrCfgWrite r h v => Sys2Proof.Machine.execPwrCfgWrite r h v s
  | .pwrVddWrite r h v => Sys2Proof.Machine.execPwrVddWrite r h v s
  | .pwrThermCfgWrite r h v => Sys2Proof.Machine.execPwrThermCfgWrite r h v s
  | .pwrDomainBmaxWrite k r h v => Sys2Proof.Machine.execPwrDomainBmaxWrite k r h v s
  | .vrTransferRetry => Sys2Proof.Machine.execVrTransferRetry s
  | .brownout => Sys2Proof.Machine.execBrownout s
  | .bar2Read x len => Sys2Proof.Machine.execBar2Read x len s
  | .bar2Write x bytes => Sys2Proof.Machine.execBar2Write x bytes s
  | .hostReadCompletion data ok => Sys2Proof.Machine.execHostReadCompletion data ok s
  | .msixUnmask vec => Sys2Proof.Machine.execMsixUnmask vec s
  | .glbIrqMaskWrite r h v => Sys2Proof.Machine.execGlbIrqMaskWrite r h v s
  | .pcieLinkUp => Sys2Proof.Machine.execPcieLinkUp s
  | .pcieLinkDown => Sys2Proof.Machine.execPcieLinkDown s
  | .perstAssert => Sys2Proof.Machine.execPerstAssert s
  | .halyardHello m => Sys2Proof.Machine.execHalyardHello m s
  | .halyardAck m => Sys2Proof.Machine.execHalyardAck m s
  | .halyardLibChunk m => Sys2Proof.Machine.execHalyardLibChunk m s
  | .halyardLibInstall m => Sys2Proof.Machine.execHalyardLibInstall m s
  | .halyardBadRx bytes => Sys2Proof.Machine.execHalyardBadRx bytes s
  | .halyardErrorReport => Sys2Proof.Machine.execHalyardErrorReport s
  | .halyardTelemetry shed => Sys2Proof.Machine.execHalyardTelemetry shed s
  | .halyardRetransmit => Sys2Proof.Machine.execHalyardRetransmit s
  | .halyardAckSend => Sys2Proof.Machine.execHalyardAckSend s
  | .mboxEcho => Sys2Proof.Machine.execMboxEcho s
  | .mboxSend => Sys2Proof.Machine.execMboxSend s
  | .mboxTelem => Sys2Proof.Machine.execMboxTelem s
  | .mboxState => Sys2Proof.Machine.execMboxState s
  | .mboxRelease r => Sys2Proof.Machine.execMboxRelease r s
  | .powerOnReset straps => Sys2Proof.Machine.execPowerOnReset straps s
  | .warmReset cause straps => Sys2Proof.Machine.execWarmReset cause straps s
  | .secWarmReset r confirm => Sys2Proof.Machine.execSecWarmReset r confirm s
  | .bootFusesDone ok => Sys2Proof.Machine.execBootFusesDone ok s
  | .hbmTrainingDone ok ppr => Sys2Proof.Machine.execHbmTrainingDone ok ppr s
  | .xspiFetchDone bytes => Sys2Proof.Machine.execXspiFetchDone bytes s
  | .bootApplyDone => Sys2Proof.Machine.execBootApplyDone s
  | .secProvision r tag => Sys2Proof.Machine.execSecProvision r tag s
  | .secRevoke r tag => Sys2Proof.Machine.execSecRevoke r tag s
  | .secFleetSeed r tag => Sys2Proof.Machine.execSecFleetSeed r tag s
  | .secAttest r tag => Sys2Proof.Machine.execSecAttest r tag s
  | .secCommandDone burnOk => Sys2Proof.Machine.execSecCommandDone burnOk s
  | .genericRegisterRead r off h => Sys2Proof.Machine.execGenericRegisterRead r off h s
  | .mgtHalStateRead r h => Sys2Proof.Machine.execMgtHalStateRead r h s
  | .canRxError k e => Sys2Proof.Machine.execCanRxError k e s
  | .mgtLinkUp => Sys2Proof.Machine.execMgtLinkUp s
  | .mgtLinkDown => Sys2Proof.Machine.execMgtLinkDown s
  | .pcieConfigWrite w => Sys2Proof.Machine.execPcieConfigWrite w s
  | .completionTimeout => Sys2Proof.Machine.execCompletionTimeout s
  | .chordAckSend p => Sys2Proof.Machine.execChordAckSend p s
  | .pennantRunDone phys e crc => Sys2Proof.Machine.execPennantRunDone phys e crc s
  | .mboxUnknownOpcode => Sys2Proof.Machine.execMboxUnknownOpcode s

end Sys2Proof.Machine
end

