-- ==== Sys2Proof/WellFormed.lean ====
section
/-! DEFINITION. Which commands the block can receive: the ranges that the spec gives an operand where its type does not hold them. -/

namespace Sys2Proof

/-- Bytes of data that a data length code stands for in a CAN frame (R409). -/
def canDlcBytes (fdf : Bool) (d : Nat) : Nat :=
  if d ≤ 8 then d else if fdf then [12, 16, 20, 24, 32, 48, 64].getD (d - 9) 64 else 8

/-- A CAN frame has the data its DLC says; a remote frame is classical and has none; an 11-bit identifier leaves the lower 18 bits zero (R409, R411). -/
def CanFrame.wf (f : CanFrame) : Bool :=
  (f.data.length == (if f.rtr then 0 else canDlcBytes f.fdf f.dlc.toNat)) && !(f.rtr && f.fdf) && (f.fdf || !f.brs) &&
    (f.ide || f.id.toNat % 2 ^ 18 == 0)

/-- A chord frame carries LEN × 8 bytes, at most 256; a READ carries none (R481, R482). -/
def ChordFrame.wf (f : ChordFrame) : Bool :=
  decide (f.len.toNat ≤ 32) && (f.payload.length == (if f.kind = 4 then 0 else 8 * f.len.toNat))

/-- A halyard message carries at most 1,404 bytes (R597). -/
def HalMsg.wf (m : HalMsg) : Bool := decide (m.payload.length ≤ 1404)

/-- A register's offset is a multiple of 8 (R9). -/
def offWf (off : BitVec 26) : Bool := off.toNat % 8 == 0

/-- The heads of a bank stand on different ports; a wide access covers its 256-byte line and a narrow one an aligned 8-byte word, as do its data (R249, R253). -/
def BankAccess.wf (a : BankAccess) : Bool :=
  let n := if a.wide then 256 else 8
  a.off.toNat % n == 0 && (match a.wdata with
    | some l => l.length == n
    | none => true)

/-- Whether no two entries of a list of ports are equal. -/
def portsDistinct : List BankAccess → Bool
  | [] => true
  | a :: r => !(r.any (fun b => b.port == a.port)) && portsDistinct r

/-- An HBM access moves 1 to 256 bytes (R465). -/
def HbmAccess.wf : HbmAccess → Bool
  | .read _ len _ => decide (1 ≤ len.toNat ∧ len.toNat ≤ 256)
  | .write _ bytes => decide (1 ≤ bytes.length ∧ bytes.length ≤ 256)

/-- The rows of a MATMUL, DRAIN or CLEAR: 1 to 1,024 (R203). -/
def rowsWf (count : BitVec 11) : Bool := decide (1 ≤ count.toNat ∧ count.toNat ≤ 1024)

/-- A kind of chord frame, as its command names it (R482). -/
def kindWf (f : ChordFrame) (k : BitVec 4) : Bool := f.wf && f.kind == k

/-- The ranges of a command's operands. -/
def Instr.wf : Instr → Bool
  | .genericRegisterWrite _ off _ _ => offWf off
  | .genericRegisterRead _ off _ => offWf off
  | .traceConfigWrite _ off _ _ => offWf off && decide (0x830000 ≤ off.toNat ∧ off.toNat < 0x831100)
  | .csi2LinePacket _ _ _ _ _ _ payload => decide (payload.length ≤ 65535)
  | .matMatmul _ _ _ _ _ count _ _ _ => rowsWf count
  | .matDrain _ _ _ _ _ _ count _ => rowsWf count
  | .matClear _ _ _ _ count => rowsWf count
  | .bankAccessServe _ heads => heads.all BankAccess.wf && portsDistinct heads
  | .canFrameReceived _ f _ => f.wf
  | .hbmAccess acc => acc.wf
  | .hbmTempRead temps => decide (temps.length ≤ 4)
  | .chordEnum _ f => kindWf f 0xA
  | .chordAck _ f => kindWf f 0
  | .chordNak _ f => kindWf f 1
  | .chordCredit _ f => kindWf f 2
  | .chordTime _ f _ => kindWf f 3
  | .chordRead _ f => kindWf f 4
  | .chordReadResp _ f _ => kindWf f 5
  | .chordWrite _ f => kindWf f 6
  | .chordHalyard _ f => kindWf f 7
  | .chordDet _ f => kindWf f 8
  | .chordSig _ f => kindWf f 9
  | .chordBadKind _ f => decide (11 ≤ f.kind.toNat)
  | .powerSample x => decide (x.temps.length ≤ 64)
  | .bar2Read _ len => decide (1 ≤ len.toNat ∧ len.toNat ≤ 4096)
  | .bar2Write _ bytes => decide (1 ≤ bytes.length ∧ bytes.length ≤ 512)
  | .halyardHello m => m.wf
  | .halyardAck m => m.wf
  | .halyardLibChunk m => m.wf
  | .halyardLibInstall m => m.wf
  | .bar0BadAccess _ | .stepRateWindow _ | .stepRateRead _ _ | .deadlineExpiry _ | .stepBudgetExhausted _ | .suspendedDeadlinePass _ | .fabStage _ _
  | .fabStageDone | .fabCommit _ _ | .fabDiscard _ _ | .commitUnitDrainTimeout | .commitDrainDone | .commitSaveDone | .commitVerifyDone
  | .commitRebindDone | .commitResumeDone | .timeTick | .timeNowRead _ _ | .timeStepWrite _ _ _ | .timeRateWrite _ _ _ | .timeCtlNewSession _
  | .timeCtlDeclareValid _ | .timeCtlEndHoldover _ | .timeCtlSwitchAlt _ | .timeAltCtlWrite _ _ _ | .timeAltRateWrite _ _ _
  | .timeAltOffsetWrite _ _ _ | .syncLossTimeout | .refLoss | .refReturn | .ppsOutRise | .ppsOutFall | .timeCompareFire _ | .convStartPulseEnd _
  | .timeCmpArmWrite _ _ _ _ | .eventCapture _ _ _ | .timeEvtStampRead _ _ _ | .csi2FrameStart _ _ | .csi2FrameEnd _ _ _ | .csi2FrameEndTimeout _ _
  | .sampleRecordWrite _ | .imgSrcRelease _ _ _ _ | .imgPortDisable _ _ _ | .imgPortEnable _ _ | .portDisableDrainTimeout _ | .carrierDatagram _ _ _
  | .reassemblyTimeout _ _ | .decoderStart _ | .decodeComplete _ _ | .decodeBudgetExpiry _ | .tokenize _ _ _ | .coreRun _ | .coreCopy _ _
  | .coreFill _ _ | .bundleIssue _ _ | .yieldPoint _ | .programEnd _ | .engineOperationComplete _ _ | .matWload _ _ _ | .vecAdd _ _ _ _ _ _
  | .vecMul _ _ _ _ _ _ | .vecFma _ _ _ _ _ _ | .vecMax _ _ _ _ _ _ | .vecMin _ _ _ _ _ _ | .vecCvt _ _ _ _ _ _ | .vecBquant _ _ _ _ _ _
  | .vecExp _ _ _ _ _ _ | .vecLog _ _ _ _ _ _ | .vecRecip _ _ _ _ _ _ | .vecRsqrt _ _ _ _ _ _ | .vecTanh _ _ _ _ _ _ | .vecSigmoid _ _ _ _ _ _
  | .vecGelu _ _ _ _ _ _ | .vecRsum _ _ _ _ _ _ | .vecRmax _ _ _ _ _ _ | .vecSmstat _ _ _ _ _ _ | .vecSmlse _ _ _ _ _ _ | .vecNstat _ _ _ _ _ _
  | .s0Add _ _ _ _ | .s0Sub _ _ _ _ | .s0And _ _ _ _ | .s0Or _ _ _ _ | .s0Xor _ _ _ _ | .s0Shl _ _ _ _ | .s0Shr _ _ _ _ | .s0Sar _ _ _ _
  | .s0Mul _ _ _ _ | .s0Min _ _ _ _ | .s0Max _ _ _ _ | .s0Slt _ _ _ _ | .s0Sltu _ _ _ _ | .s0Addi _ _ _ _ | .s0Andi _ _ _ _ | .s0Ori _ _ _ _
  | .s0Xori _ _ _ _ | .s0Shli _ _ _ _ | .s0Shri _ _ _ _ | .s0Sari _ _ _ _ | .s0Lih _ _ _ _ | .s0Exts _ _ _ _ | .s0Extu _ _ _ _ | .s0Ld _ _ _ _
  | .s0St _ _ _ _ | .s0Ldf _ _ _ _ | .s0Stf _ _ _ _ | .loadDataReturn _ _ | .s0Beq _ _ _ _ | .s0Bne _ _ _ _ | .s0Blt _ _ _ _ | .s0Bge _ _ _ _
  | .s0Jmp _ _ | .s0Loop _ _ _ | .s0Dset _ _ _ _ | .s0Dadd _ _ _ | .s0Dget _ _ _ _ | .s0Srstream _ _ | .s1IntegerOp _ _ _ _ _ | .s1Fadd _ _ _ _
  | .s1Fsub _ _ _ _ | .s1Fmul _ _ _ _ | .s1Fma _ _ _ _ _ | .s1Fdiv _ _ _ _ | .s1Fsqrt _ _ _ | .s1Fmin _ _ _ _ | .s1Fmax _ _ _ _ | .s1FcvtFi _ _ _
  | .s1FcvtIf _ _ _ | .s1FcvtFs _ _ _ | .s1FcvtSf _ _ _ | .s1Fmovfg _ _ _ | .s1Fmovgf _ _ _ | .s1Fcmplt _ _ _ _ | .fp64ResultWrite _ _
  | .xferCopy _ _ _ | .xferFill _ _ _ | .xferIm2col _ _ _ _ | .xferZcomp _ _ _ _ | .xferZdecomp _ _ _ _ | .xferScaleBind _ _ _ _
  | .coreInjectWrite _ _ _ _ | .eccWriteback _ _ | .spdBankOwnerWrite _ _ _ _ | .handoverComplete _ | .spdBankPwrWrite _ _ _ _
  | .bankPowerTransitionDone _ | .patrolScrubLine _ | .columnRepairLine | .columnRepairDone | .edgeConv _ _ _ | .edgePool _ _ | .edgeResize _ _
  | .kvOpen _ | .kvClose _ _ _ | .kvAppend _ _ _ | .kvFork _ _ _ | .kvTruncate _ _ _ | .kvScore _ _ _ | .kvPin _ _ _ | .kvEvict _ _ _
  | .kvVerifyCommit _ _ _ | .solveDense _ | .solveBa _ | .solverEvalReturn _ | .ctlSnapshot _ | .ctlEvaluate _ _ | .ctlHandoff _ | .ctlLatch _
  | .ctlWriteInputs _ | .ctlSetCoef _ | .ctlResetState _ | .ctlTraceRead _ | .ctlSlotInWrite _ _ _ _ | .ctlGroupDisable _ _ _ | .ctlGroupEnable _ _
  | .ctlTraceArm _ _ | .ctlTraceForce _ _ | .sensorFrameComplete _ _ | .sensorNoStartTimeout _ | .pwmValley _ | .stepPulseCarry _
  | .canTxRequest _ _ _ | .canTxAbort _ _ _ _ | .canTxComplete _ _ | .canTxError _ _ | .canRecover _ _ | .canRecoveryDone _ | .canDisable _ _ _ _
  | .canEnable _ _ | .canBusIntegrationDone _ | .ethFrameReceived _ _ _ _ | .ethTxFrame _ | .ethTxDone _ _ | .ethLinkUp _ | .ethLinkDown _
  | .queDoorbellWrite _ _ _ _ | .descriptorFetch _ | .commandDispatch _ _ _ | .yieldRemoteTimeout _ | .contextSaveDone _ | .contextRestoreDone _
  | .quantumExpiry _ | .commandComplete _ | .queueDisable _ _ _ | .queueEnable _ _ | .queueDrainTimeout _ | .queSeqRead _ _ _
  | .regulatorAdmit _ _ _ _ | .hbmPatrolScrub _ | .hbmRetireReqWrite _ _ _ | .hbmRowRetireDone | .hbmRetrainReq _ _ _ | .hbmLinkError _
  | .hbmRetrainDone | .chdEnumerate _ | .chordTimeSend | .chordFrameCorrupt _ _ | .chordAckTimeout _ | .chordLinkDown _ | .chordLinkUp _
  | .remoteTimeout _ | .detLaunchArm _ | .detLaunchAbort _ | .detLaunchRelease _ | .launchFire | .launchMarginExpiry | .launchArmedExpiry
  | .detLsCfgWrite _ _ _ | .detLsFeed _ _ _ _ | .lockstepLagTimeout _ | .recordGapEntry | .replayInject | .settingsDigestRecompute
  | .plbInboxWrite _ _ _ _ | .plumbFrameStart _ | .plumbFrameDeadline _ | .plumbJudgementEnd _ | .plumbHwDetect _ | .plumbTimeCheck | .plumbFault _
  | .plumbWatchdogTimeout | .plumbSafetyMessage | .plumbSafetyRepeat | .plbAck _ _ _ | .plbForceSafe _ _ | .plbClearFirst _ | .pennantFrameBoundary
  | .pennantRunStart _ _ | .pennantReportJudge | .fuseBurnDone _ | .fltCmdFurl _ _ | .plannedSwapStart _ | .swapCopyDone | .rollingTestNext
  | .rollingIntervalExpiry | .coreTestDone _ _ _ | .fltTestReq _ _ _ | .testRequestStart | .testRequestNoSlack | .thermalCalSegmentDone
  | .fltPenInstall _ _ | .pennantInstallDone | .pwrCfgWrite _ _ _ | .pwrVddWrite _ _ _ | .pwrThermCfgWrite _ _ _ | .pwrDomainBmaxWrite _ _ _ _
  | .vrTransferRetry | .brownout | .hostReadCompletion _ _ | .msixUnmask _ | .glbIrqMaskWrite _ _ _ | .pcieLinkUp | .pcieLinkDown | .perstAssert
  | .halyardBadRx _ | .halyardErrorReport | .halyardTelemetry _ | .halyardRetransmit | .halyardAckSend | .mboxEcho | .mboxSend | .mboxTelem
  | .mboxState | .mboxRelease _ | .powerOnReset _ | .warmReset _ _ | .secWarmReset _ _ | .bootFusesDone _ | .hbmTrainingDone _ _ | .xspiFetchDone _
  | .bootApplyDone | .secProvision _ _ | .secRevoke _ _ | .secFleetSeed _ _ | .secAttest _ _ | .secCommandDone _ | .mgtHalStateRead _ _
  | .canRxError _ _ | .mgtLinkUp | .mgtLinkDown | .pcieConfigWrite _ | .completionTimeout | .chordAckSend _ | .pennantRunDone _ _ _
  | .mboxUnknownOpcode => true

end Sys2Proof
end

