-- ==== Sys2Proof/Safety.lean ====
section
/-! DEFINITION. What counts as a state in order, and what a command leaves alone, in the terms that the statements use. -/

namespace Sys2Proof.Machine

/-- Memory is in its canonical form: addresses strictly rising, and no entry that reads as an unlisted byte does. -/
def Memory.wf (m : List (Nat × Byte)) : Bool := Store.wf (fun _ => 0) m

/-- The registers are in their canonical form: offsets strictly rising, and no entry at its reset value. -/
def Registers.wf (m : List (Nat × Word)) : Bool := Store.wf resetVal m

/-- A state in order: registers, memory and the errors of scratchpad words in their canonical forms, and TIME_NS between 0 and 999,999,999 (R100). -/
def State.wf (s : State) : Bool :=
  Registers.wf s.regs && Memory.wf s.mem && Store.wf (fun _ => 0) s.spd.ecc && decide (s.time.ns < 1000000000)

/-- Every register but those listed reads as before. -/
def SameRegs (l : List Nat) (s t : State) : Prop := ∀ off, off ∉ l → t.reg off = s.reg off

/-- Every byte of memory reads as before. -/
def SameMem (s t : State) : Prop := ∀ a, t.rd a = s.rd a

/-- Only registers changed, and of them only those listed. -/
def RegsOnly (l : List Nat) (s t : State) : Prop := { t with regs := s.regs } = s ∧ SameRegs l s t

/-- Whether a write of a register has its effect: the block hears its requester, the register is present, and the requester may write it (R3, R12, R612, R647). -/
def State.takesWrite (s : State) (r : Req) (off : Nat) : Bool := s.hears r off && s.regPresent off && s.mayWrite r off

/-- Whether a read of a register is served its value: as for a write, and a request of the host finds the endpoint answering (R587, R612). -/
def State.takesRead (s : State) (r : Req) (off : Nat) : Bool :=
  !(isHost r && (s.host.d3hot || !s.bootAnswers)) && s.hears r off && s.regPresent off && s.mayRead r off

/-- The registers that an error event writes: its entry of the ring, the ring's producer and FLT_STAT (R556). -/
def State.eventRegs (s : State) : List Nat :=
  let i := s.fld R.FLT_EVT_PROD F.FLT_EVT_PROD_PROD % 256
  [R.FLT_EVT i 0, R.FLT_EVT i 1, R.FLT_EVT i 2, R.FLT_EVT i 3, R.FLT_EVT_PROD, R.FLT_STAT]

/-- Whether queue q of a unit has the command c at its head and executes it (R435). -/
def State.atUnit (s : State) (q unit : Nat) (c : Cmd) : Bool := s.head q == some c && s.qUnit q == unit && s.executing q

/-- An agent's access to n bytes at a meets no bank in handover (R259), so it does not wait. -/
def State.noWait (s : State) (g : Agent) (write : Bool) (a n : Nat) : Prop := ∀ i, i < n → s.hit g write (a + i) ≠ .wait

/-- The command that queue q executed has ended with a further condition, and its end stamp is the tick of s (R438, R442). -/
def Ended (q : Nat) (c : Cmd) (st : BitVec 8) (s t : State) : Prop :=
  ∃ d, t.head q = some d ∧ d.phase = .ended ∧ d.status = worse st c.status ∧ d.stop = s.now ∧ d.seq = c.seq

/-- Nothing changed but core n. -/
def CoreOnly (n : Nat) (s t : State) : Prop := { t with cores := s.cores } = s ∧ ∀ m, m ≠ n → t.core m = s.core m

/-- Register G of number d of core n takes the value v, and nothing else changed. -/
def PutsG (n d : Nat) (v : Word) (s t : State) : Prop :=
  CoreOnly n s t ∧ { t.core n with ctx := { t.ctx n with g := (s.ctx n).g } } = s.core n ∧ (t.ctx n).getG d = v ∧
    ∀ j, j ≠ d → (t.ctx n).getG j = (s.ctx n).getG j

/-- The context on core n is c, and nothing else changed. -/
def PutsCtx (n : Nat) (c : CoreCtx) (s t : State) : Prop := CoreOnly n s t ∧ t.core n = { s.core n with ctx := c }

/-- The FP64 pipeline of core n took an operation, and nothing else changed (R218). -/
def Issues (n : Nat) (isF : Bool) (rd : Nat) (v : Word) (slow : Bool) (s t : State) : Prop :=
  CoreOnly n s t ∧ t.core n = { s.core n with fps := (s.core n).fps ++ [⟨isF, rd, v, slow⟩] }

/-- Reading the first rows of an operand meets no bad word and reports nothing. -/
def State.quietRead (s : State) (n : Nat) (d : Desc) (rows : Nat) : Prop :=
  (s.readOperand n d rows).1.bad = false ∧ (s.readOperand n d rows).2 = s

/-- The first k elements of a source, as the vector engine takes them (R212). -/
def State.vecVals (s : State) (n : Nat) (d : Desc) (k : Nat) : List Val :=
  ((s.readOperand n d (d.rowsFor k)).1.codes.take k).map (vecIn (d.format.getD .fp32))

/-- The vector engine of core n wrote codes to its destination, set format flags on its command and counted its busy steps; nothing else changed (R186, R228). -/
def VecWrote (n : Nat) (d : Desc) (codes : List Nat) (s t : State) : Prop :=
  ∃ fl k, t = ((s.writeOperand n d d.rows codes).coreFmt n fl).satAdd (R.CORE_PERF_VX n) F.CORE_PERF_VX_VEC_BUSY k

/-- Values as the codes of a destination, each rounded once with the stochastic draw of its index (R184, R185, R212). -/
def State.vecCodes (s : State) (n : Nat) (f : Fmt) (rnd : Rnd) (l : List Val) : List Nat :=
  (l.zip (List.range l.length)).map (fun p => (f.encode rnd (srDraw (s.core n).seed ((s.ctx n).srStream.setWidth 64) (BitVec.ofNat 64 p.2)) p.1).1)

/-- The registers that a verdict on registration f writes (R521, R535 to R537), the pins that it stops among them. -/
def plumbRegs (f : Nat) : List Nat :=
  [R.PLB_REG_STAT f, R.PLB_REG_CNT f, R.PLB_VERDICT f, R.PLB_STAT, R.PLB_FIRST_STAMP, R.PLB_VALID, R.PLB_LATCHED, R.PLB_ACT_VALID]
    ++ (List.range 48).map R.SIO_ACT_STAT

/-- Frame k of registration f disagreed with a cause (R514, R521): the registration leaves VALID, and is LATCHED when the counted disagreements of its window exceed M, or was before. -/
def Disagreed (f cause k : Nat) (s t : State) : Prop :=
  SameMem s t ∧ SameRegs (plumbRegs f) s t ∧ (t.plReg f).cause = some cause ∧
  t.fld (R.PLB_REG_STAT f) F.PLB_REG_STAT_LAST_CAUSE = cause ∧
  t.fld (R.PLB_REG_STAT f) F.PLB_REG_STAT_LAST_INDEX = k % 2 ^ F.PLB_REG_STAT_LAST_INDEX.w ∧
  t.fld (R.PLB_REG_CNT f) F.PLB_REG_CNT_DISAGREE =
    min (2 ^ F.PLB_REG_CNT_DISAGREE.w - 1) (s.fld (R.PLB_REG_CNT f) F.PLB_REG_CNT_DISAGREE + 1) ∧
  t.bit (R.PLB_VERDICT f) F.PLB_VERDICT_VALID = false ∧
  (s.fld (R.PLB_REG_CFG f) F.PLB_REG_CFG_W ≤ 64 → t.plState f =
    (if s.plState f = 2 ∨ (pcCounts cause = true ∧ s.fld (R.PLB_REG_CFG f) F.PLB_REG_CFG_M <
        inWindow (s.fld (R.PLB_REG_CFG f) F.PLB_REG_CFG_W) k ((s.plReg f).hist ++ [(k, true)])) then 2 else 0))

/-- Whether frame k of registration f is open and no disagreement of it has been recorded. -/
def State.openFrame (s : State) (f k : Nat) : Prop := s.plActive f = true ∧ (s.plReg f).frame = some k ∧ (s.plReg f).cause = none

/-- What one command may do to the state as a whole: a state in order stays so, the queue of waiting commands is as it was, what has left the device stands, free values are drawn in rising order only, and the factory map of failed cores is as it was. -/
structure Keeps (s t : State) : Prop where
  wf : s.wf = true → t.wf = true
  pending : t.pending = s.pending
  out : s.out <+: t.out
  free : s.freeCtr ≤ t.freeCtr
  failed : t.rep.failed = s.rep.failed

end Sys2Proof.Machine
end

