-- ==== Sys2Proof/Certificates/Slice0/Obligations.lean ====
section
/-! DEFINITION. The statements about the block, for the provers. Each says for every state and every operand what its commands do, and what they leave alone. -/

open Sys2Proof
open Sys2Proof.Machine

/-- A read that is served puts exactly one answer out, masked to the lanes it covers: TIME_NOW the present stamp, latching the seconds for its requester; TIME_EVT_STAMP the head entry, which it removes, or 0; GLB_STEP_RATE its value, after which a covered MIN_RATE is 0xFFFF; QUE_SEQ its value, latching QUE_RING for its requester; MGT_HAL_STATE its value, a 32-bit read of TX_SEQ latching TX_ACKED for the next read of TX_ACKED (log 63); any other register with no read action of its own the value it shows. Memory, and every register but the one named, reads as before. (R9, R59, R102, R132, R443, R606, R648) -/
def Obligations.ReadsAnswerAndLatch : Prop :=
  (∀ (r : Req) (h : Half) (s : State), s.takesRead r R.TIME_NOW = true →
    ∃ t, exec (.timeNowRead r h) s = .next t ∧ t.out = s.out ++ [.readData r R.TIME_NOW (s.now &&& halfMask h)] ∧
      t.timeLatch r = s.time.sec.setWidth 64 ∧ (∀ r', latchKey r' ≠ latchKey r → t.timeLatch r' = s.timeLatch r') ∧
      SameRegs [] s t ∧ SameMem s t) ∧
  (∀ (k : Fin 17) (r : Req) (h : Half) (s : State), s.takesRead r (R.TIME_EVT_STAMP k) = true →
    ∃ t, exec (.timeEvtStampRead k r h) s = .next t ∧
      t.out = s.out ++ [.readData r (R.TIME_EVT_STAMP k) ((match s.evtFifo k with
        | [] => 0
        | e :: _ => e.2) &&& halfMask h)] ∧
      t.evtFifo k = (s.evtFifo k).tail ∧ SameRegs [R.TIME_EVT_CTL k] s t ∧ SameMem s t) ∧
  (∀ (r : Req) (h : Half) (s : State), s.takesRead r R.GLB_STEP_RATE = true →
    ∃ t, exec (.stepRateRead r h) s = .next t ∧ t.out = s.out ++ [.readData r R.GLB_STEP_RATE (s.reg R.GLB_STEP_RATE &&& halfMask h)] ∧
      t.reg R.GLB_STEP_RATE = (if h = .low then s.reg R.GLB_STEP_RATE else F.GLB_STEP_RATE_MIN_RATE.set (s.reg R.GLB_STEP_RATE) 0xFFFF) ∧
      SameRegs [R.GLB_STEP_RATE] s t ∧ SameMem s t) ∧
  (∀ (q : BitVec 16) (r : Req) (h : Half) (s : State), s.takesRead r (R.QUE_SEQ q.toNat) = true →
    ∃ t, exec (.queSeqRead q r h) s = .next t ∧ t.out = s.out ++ [.readData r (R.QUE_SEQ q.toNat) (s.reg (R.QUE_SEQ q.toNat) &&& halfMask h)] ∧
      (∀ (h' : Half), t.takesRead r (R.QUE_RING q.toNat) = true →
        (t.readQueRing q.toNat r h').out = t.out ++ [.readData r (R.QUE_RING q.toNat) (s.reg (R.QUE_RING q.toNat) &&& halfMask h')]) ∧
      SameRegs [] s t ∧ SameMem s t) ∧
  (∀ (r : Req) (s : State), s.takesRead r R.MGT_HAL_STATE = true →
    ∃ t, exec (.mgtHalStateRead r .high) s = .next t ∧
      t.out = s.out ++ [.readData r R.MGT_HAL_STATE (s.reg R.MGT_HAL_STATE &&& halfMask .high)] ∧ SameRegs [] s t ∧ SameMem s t ∧
      ∀ (v : Word), let u := t.setReg R.MGT_HAL_STATE v
        u.takesRead r R.MGT_HAL_STATE = true →
          ∃ w, exec (.mgtHalStateRead r .low) u = .next w ∧
            w.out = u.out ++ [.readData r R.MGT_HAL_STATE (s.reg R.MGT_HAL_STATE &&& halfMask .low)]) ∧
  (∀ (r : Req) (off : BitVec 26) (h : Half) (s : State), s.takesRead r off.toNat = true → off.toNat % 8 = 0 → off.toNat ≠ R.TIME_NOW →
    off.toNat ≠ R.MGT_HAL_STATE → arrIdx off.toNat R.TIME_EVT_STAMP 17 = none → (off.toNat < 0xC00000 ∨ 0x1000000 ≤ off.toNat) →
    ∃ t, exec (.genericRegisterRead r off h) s = .next t ∧
      t.out = s.out ++ [.readData r off.toNat (s.viewValue r off.toNat &&& halfMask h)] ∧ SameRegs [off.toNat] s t ∧ SameMem s t)

/-- For a served write of the servo owner: TIME_STEP written whole in a session that has its step left, and not below second 0, holds its DELTA_NS for the next tick and sets STEP_USED and VALID, and otherwise sets STEP_REFUSED; TIME_RATE holds the clamped rate for the next tick, or in holdover sets RATE_IGNORED; NEW_SESSION counts the session from 65,535 to 1, gives the step back and ends holdover; DECLARE_VALID sets VALID; END_HOLDOVER clears HOLDOVER; SWITCH_ALT waits for the next tick within 1 ppb of an enabled alternate and otherwise sets SWITCH_REFUSED; TIME_ALT_RATE takes the clamped rate. ALT_CTL.ENABLE = 1 is taken only with an alternate present, and TIME_ALT_OFFSET takes the lanes written. TIME_CMP_ARM arms an active mode-0 compare with a well-formed stamp. A write of any other requester than the servo owner changes nothing. Registers but those named, and memory, are as before. (R9, R107, R108, R109, R112, R114, R115, R118, R127) -/
def Obligations.ServoWritesActOnTime : Prop :=
  (∀ (r : Req) (v : Word) (s : State), s.takesWrite r R.TIME_STEP = true → s.isServo r = true → s.chordSource = false →
    ∃ t, exec (.timeStepWrite r .full v) s = .next t ∧ SameRegs [R.TIME_STAT] s t ∧ SameMem s t ∧
      (if s.bit R.TIME_STAT F.TIME_STAT_STEP_USED = true ∨ (s.nowNs : Int) + v.toInt < 0 then
        t.time = s.time ∧ t.reg R.TIME_STAT = F.TIME_STAT_STEP_REFUSED.set (s.reg R.TIME_STAT) 1
      else t.time.stepPend = some v.toInt ∧ t.bit R.TIME_STAT F.TIME_STAT_STEP_USED = true ∧ t.bit R.TIME_STAT F.TIME_STAT_VALID = true)) ∧
  (∀ (r : Req) (v : Word) (s : State), s.takesWrite r R.TIME_RATE = true → s.isServo r = true → s.chordSource = false →
    ∃ t, exec (.timeRateWrite r .full v) s = .next t ∧ SameRegs [R.TIME_STAT] s t ∧ SameMem s t ∧
      (if s.bit R.TIME_STAT F.TIME_STAT_HOLDOVER = true then t.time = s.time ∧ t.bit R.TIME_STAT F.TIME_STAT_RATE_IGNORED = true
      else
        let x := signExt 32 v.toNat
        t.time.ratePend = some (BitVec.ofInt 32 (max (-549755813) (min 549755813 x))) ∧
        (t.bit R.TIME_STAT F.TIME_STAT_RATE_CLAMP = true ↔
          (x < -549755813 ∨ 549755813 < x ∨ s.bit R.TIME_STAT F.TIME_STAT_RATE_CLAMP = true)))) ∧
  (∀ (r : Req) (s : State), s.takesWrite r R.TIME_CTL = true → s.isServo r = true →
    ∃ t, exec (.timeCtlNewSession r) s = .next t ∧ SameRegs [R.TIME_STAT] s t ∧ SameMem s t ∧
      t.fld R.TIME_STAT F.TIME_STAT_SESSION = s.fld R.TIME_STAT F.TIME_STAT_SESSION % 65535 + 1 ∧
      t.bit R.TIME_STAT F.TIME_STAT_STEP_USED = false ∧ t.bit R.TIME_STAT F.TIME_STAT_HOLDOVER = false) ∧
  (∀ (r : Req) (s : State), s.takesWrite r R.TIME_CTL = true → s.isServo r = true →
    ∃ t, exec (.timeCtlDeclareValid r) s = .next t ∧ RegsOnly [R.TIME_STAT] s t ∧
      t.reg R.TIME_STAT = F.TIME_STAT_VALID.set (s.reg R.TIME_STAT) 1) ∧
  (∀ (r : Req) (s : State), s.takesWrite r R.TIME_CTL = true → s.isServo r = true →
    ∃ t, exec (.timeCtlEndHoldover r) s = .next t ∧ SameRegs [R.TIME_STAT] s t ∧ SameMem s t ∧
      t.bit R.TIME_STAT F.TIME_STAT_HOLDOVER = false ∧
      (s.bit R.TIME_STAT F.TIME_STAT_HOLDOVER = true → t.time.acceptedGm = s.time.currentGm)) ∧
  (∀ (r : Req) (s : State), s.takesWrite r R.TIME_CTL = true → s.isServo r = true →
    ∃ t, exec (.timeCtlSwitchAlt r) s = .next t ∧ SameRegs [R.TIME_STAT] s t ∧ SameMem s t ∧
      (if s.bit R.TIME_ALT_CTL F.TIME_ALT_CTL_ENABLE = true ∧
          (signExt 32 (s.fld R.TIME_ALT_RATE F.TIME_ALT_RATE_RATE) - signExt 32 (s.fld R.TIME_RATE F.TIME_RATE_RATE)).natAbs ≤ 1099 then
        t.time.switchPend = true ∧ t.regs = s.regs
      else t.time = s.time ∧ t.bit R.TIME_STAT F.TIME_STAT_SWITCH_REFUSED = true)) ∧
  (∀ (r : Req) (v : Word) (s : State), s.takesWrite r R.TIME_ALT_CTL = true →
    ∃ t, exec (.timeAltCtlWrite r .full v) s = .next t ∧ SameRegs [R.TIME_ALT_CTL, R.TIME_STAT] s t ∧ SameMem s t ∧
      (v.getLsbD 0 = false → t.bit R.TIME_ALT_CTL F.TIME_ALT_CTL_ENABLE = false) ∧
      (v.getLsbD 0 = true → s.bit R.TIME_PTP_CFG F.TIME_PTP_CFG_ALT_PRESENT = true → t.bit R.TIME_ALT_CTL F.TIME_ALT_CTL_ENABLE = true) ∧
      (v.getLsbD 0 = true → s.bit R.TIME_PTP_CFG F.TIME_PTP_CFG_ALT_PRESENT = false → t = s)) ∧
  (∀ (r : Req) (v : Word) (s : State), s.takesWrite r R.TIME_ALT_RATE = true → s.isServo r = true →
    ∃ t, exec (.timeAltRateWrite r .full v) s = .next t ∧ RegsOnly [R.TIME_ALT_RATE, R.TIME_STAT] s t ∧
      t.fld R.TIME_ALT_RATE F.TIME_ALT_RATE_RATE = (BitVec.ofInt 32 (max (-549755813) (min 549755813 (signExt 32 v.toNat)))).toNat) ∧
  (∀ (r : Req) (h : Half) (v : Word) (s : State), s.takesWrite r R.TIME_ALT_OFFSET = true → s.isServo r = true →
    ∃ t, exec (.timeAltOffsetWrite r h v) s = .next t ∧ RegsOnly [R.TIME_ALT_OFFSET] s t ∧
      t.reg R.TIME_ALT_OFFSET = (s.reg R.TIME_ALT_OFFSET &&& ~~~ (halfMask h)) ||| (v &&& halfMask h)) ∧
  (∀ (n : Fin 64) (r : Req) (v : Word) (s : State), s.takesWrite r (R.TIME_CMP_ARM n) = true →
    ∃ t, exec (.timeCmpArmWrite n r .full v) s = .next t ∧ SameRegs [R.TIME_CMP_NEXT n] s t ∧ SameMem s t ∧
      (if s.bit (R.TIME_CMP_CFG n) F.TIME_CMP_CFG_ACTIVE = true ∧ s.fld (R.TIME_CMP_CFG n) F.TIME_CMP_CFG_MODE = 0 ∧ v.toNat % 2 ^ 30 < 1000000000 then
        t.reg (R.TIME_CMP_NEXT n) = v ∧ t.cmpArmed n = true
      else t = s)) ∧
  (∀ (r : Req) (h : Half) (v : Word) (s : State), s.isServo r = false → s.takesWrite r R.TIME_STEP = true → s.takesWrite r R.TIME_RATE = true →
    s.takesWrite r R.TIME_CTL = true → s.takesWrite r R.TIME_ALT_RATE = true → s.takesWrite r R.TIME_ALT_OFFSET = true →
    exec (.timeStepWrite r .full v) s = .next s ∧ exec (.timeRateWrite r h v) s = .next s ∧ exec (.timeCtlNewSession r) s = .next s ∧
    exec (.timeCtlDeclareValid r) s = .next s ∧ exec (.timeCtlEndHoldover r) s = .next s ∧ exec (.timeCtlSwitchAlt r) s = .next s ∧
    exec (.timeAltRateWrite r h v) s = .next s ∧ exec (.timeAltOffsetWrite r h v) s = .next s)

/-- A tick counts itself; while the PLL has locked it moves device time by 4 x (1 + RATE x 2^-40) ns and by a pending step. A sync loss of LOSS_TIMEOUT_MS sets HOLDOVER with cause 1 and a shorter silence does nothing; reference loss sets REF_LOSS and HOLDOVER, with cause 3 if holdover was not in effect; reference return clears REF_LOSS alone. PPS_OUT rises where the last tick passed a PPS point with OUT_EN and VALID set, until WIDTH_MS later (0 taken as 1), and falls at that time. A due compare counts FIRES and is due no longer; if its target has not fired in this tick, KIND 1 starts a CONV_START pulse of WIDTH ticks, KIND 2 starts a sample of an idle enabled group with its fire stamp, KIND 3 arms a gated port with it, KIND 4 sets the TCMP cause. A pulse ends when its time has come. A live edge that EDGE selects and FILTER admits goes to the FIFO with its stamp, or counts in OVERRUN when 32 entries wait. A rate window sets RATE, counts SEQ, lowers MIN_RATE, and sets BELOW_FLOOR below 1,050 and ALARM below the threshold. (R44, R59, R100, R108, R112, R113, R116, R118, R121, R122, R123, R403) -/
def Obligations.TimeEventsMoveTime : Prop :=
  (∀ (s : State), ∃ t, exec .timeTick s = .next t ∧ t.time.ticks = s.time.ticks + 1 ∧
      (s.time.running = false → t.nowNs = s.nowNs ∧ t.time.frac = s.time.frac) ∧
      (s.time.running = true → ∃ x : Nat, x = s.fineTime + tickIncr s.rate ∧
        let y : Nat := match s.time.stepPend with
          | none => x
          | some d => (((x / fracOne / 1000000000 % 2 ^ 48 * 1000000000 + x / fracOne % 1000000000 : Nat) : Int) * (fracOne : Nat) + (x % fracOne : Nat) + d * (fracOne : Nat)).toNat
        t.time.frac = y % fracOne ∧ t.time.ns = y / fracOne % 1000000000 ∧ t.time.sec = BitVec.ofNat 48 (y / fracOne / 1000000000))) ∧
  (∀ (s : State), ∃ t, exec .syncLossTimeout s = .next t ∧ SameRegs (R.TIME_STAT :: s.eventRegs) s t ∧ SameMem s t ∧
      (s.syncLost = false → t = s) ∧
      (s.syncLost = true → t.bit R.TIME_STAT F.TIME_STAT_HOLDOVER = true ∧
        (s.bit R.TIME_STAT F.TIME_STAT_HOLDOVER = false → t.fld R.TIME_STAT F.TIME_STAT_HOLD_CAUSE = 1))) ∧
  (∀ (s : State), ∃ t, exec .refLoss s = .next t ∧ SameRegs (R.TIME_STAT :: s.eventRegs) s t ∧ SameMem s t ∧
      t.bit R.TIME_STAT F.TIME_STAT_REF_LOSS = true ∧ t.bit R.TIME_STAT F.TIME_STAT_HOLDOVER = true ∧
      (s.bit R.TIME_STAT F.TIME_STAT_HOLDOVER = false → t.fld R.TIME_STAT F.TIME_STAT_HOLD_CAUSE = 3)) ∧
  (∀ (s : State), ∃ t, exec .refReturn s = .next t ∧ RegsOnly [R.TIME_STAT] s t ∧
      t.bit R.TIME_STAT F.TIME_STAT_REF_LOSS = false ∧ t.bit R.TIME_STAT F.TIME_STAT_HOLDOVER = s.bit R.TIME_STAT F.TIME_STAT_HOLDOVER) ∧
  (∀ (s : State), ∃ t, exec .ppsOutRise s = .next t ∧ SameRegs [] s t ∧ SameMem s t ∧
      (if s.bit R.TIME_PPS_CTL F.TIME_PPS_CTL_OUT_EN = true ∧ s.bit R.TIME_STAT F.TIME_STAT_VALID = true ∧ s.ppsCount s.time.prev < s.ppsCount s.nowNs then
        t.time.ppsHigh = true ∧ t.time.ppsFallAt = s.nowNs + max 1 (s.fld R.TIME_PPS_CTL F.TIME_PPS_CTL_WIDTH_MS) * 1000000
      else t = s)) ∧
  (∀ (s : State), ∃ t, exec .ppsOutFall s = .next t ∧ SameRegs [] s t ∧ SameMem s t ∧
      t.time.ppsHigh = (s.time.ppsHigh && decide (s.nowNs < s.time.ppsFallAt))) ∧
  (∀ (n : Fin 64) (s : State), (s.cmpDue n = none → exec (.timeCompareFire n) s = .next s) ∧
    ∀ d, s.cmpDue n = some d → ∃ t, exec (.timeCompareFire n) s = .next t ∧ SameMem s t ∧ t.cmpDue n = none ∧
      t.fld (R.TIME_CMP_CFG n) F.TIME_CMP_CFG_FIRES = (s.fld (R.TIME_CMP_CFG n) F.TIME_CMP_CFG_FIRES + 1) % 2 ^ 16 ∧
      let i := s.fld (R.TIME_CMP_CFG n) F.TIME_CMP_CFG_INDEX
      let k := s.fld (R.TIME_CMP_CFG n) F.TIME_CMP_CFG_KIND
      ((k, i) ∉ s.time.fired →
        (k = 1 → s.bit (R.SIO_CONV_CFG i) F.SIO_CONV_CFG_ACTIVE = true →
          Store.get (fun _ => none) t.io.conv i = some (s.time.ticks + s.fld (R.SIO_CONV_CFG i) F.SIO_CONV_CFG_WIDTH)) ∧
        (k = 2 → s.groupActive i = true → s.bit (R.CTL_GROUP_CTL i) F.CTL_GROUP_CTL_DISABLE = false → (s.grp i).phase = .idle →
          (t.grp i).phase = .fired ∧ (t.grp i).t0 = d.stamp) ∧
        (k = 3 → s.bit (R.IMG_PORT_CFG i) F.IMG_PORT_CFG_ACTIVE = true → s.bit (R.IMG_PORT_CFG i) F.IMG_PORT_CFG_GATED = true →
          ∃ l, (t.camPort i).armed = some (d.stamp, l)) ∧
        (k = 4 → i < 32 → (t.reg R.GLB_IRQ_STAT).getLsbD (32 + i) = true))) ∧
  (∀ (q : Fin 16) (s : State), ∃ t, exec (.convStartPulseEnd q) s = .next t ∧ SameRegs [] s t ∧ SameMem s t ∧
      ∀ w, Store.get (fun _ => none) s.io.conv q = some w →
        Store.get (fun _ => none) t.io.conv q = (if w ≤ s.time.ticks then none else some w)) ∧
  (∀ (k : Fin 17) (rising : Bool) (w : Word) (s : State), s.replays 4 = false → s.edgeSelected k rising = true →
    s.edgeTooClose k (s.captureStamp k w) = false →
    ∃ t, exec (.eventCapture k rising w) s = .next t ∧
      (s.bit R.DET_REC_CTL F.DET_REC_CTL_ENABLE = false → SameRegs [R.TIME_EVT_CTL k] s t ∧ SameMem s t) ∧
      (if (s.evtFifo k).length < 32 then t.evtFifo k = s.evtFifo k ++ [(rising, s.captureStamp k w)]
      else t.evtFifo k = s.evtFifo k ∧
        t.fld (R.TIME_EVT_CTL k) F.TIME_EVT_CTL_OVERRUN = min 0xFFFF (s.fld (R.TIME_EVT_CTL k) F.TIME_EVT_CTL_OVERRUN + 1))) ∧
  (∀ (rate : BitVec 16) (s : State), ∃ t, exec (.stepRateWindow rate) s = .next t ∧ SameRegs [R.GLB_STEP_RATE] s t ∧ SameMem s t ∧
      t.fld R.GLB_STEP_RATE F.GLB_STEP_RATE_RATE = rate.toNat ∧
      t.fld R.GLB_STEP_RATE F.GLB_STEP_RATE_SEQ = (s.fld R.GLB_STEP_RATE F.GLB_STEP_RATE_SEQ + 1) % 2 ^ 12 ∧
      t.fld R.GLB_STEP_RATE F.GLB_STEP_RATE_MIN_RATE = min rate.toNat (s.fld R.GLB_STEP_RATE F.GLB_STEP_RATE_MIN_RATE) ∧
      (rate.toNat < 1050 → t.bit R.GLB_STEP_RATE F.GLB_STEP_RATE_BELOW_FLOOR = true) ∧
      (rate.toNat < s.fld R.GLB_STEP_ALARM F.GLB_STEP_ALARM_THRESHOLD → t.bit R.GLB_STEP_RATE F.GLB_STEP_RATE_ALARM = true))

/-- With CSI-2 input live and not replayed: a Frame Start on an enabled ungated port with no open frame and a FREE buffer opens a frame in it with the next sequence number and the present stamp, and on a gated port with no armed fire counts TRIG_SLIP and opens none. A good RAW8 line that fits appends its pixels, cut to WIDTH. A Frame End with pixels closes the frame: the sample waits for its record with its buffer, width and height, and one whose line buffer had an uncorrectable error waits as INTEGRITY with no buffer. 100 ms after its last packet a frame closes; before that nothing happens. SAMPLE_RECORD_WRITE takes the oldest ended sample, counts REC_PROD and makes its buffer READY. A served IMG_SRC_RELEASE of a READY buffer frees it and any other changes nothing. IMG_PORT_DISABLE sets DISABLE and its mode and in ABANDON mode ends the open frames; IMG_PORT_ENABLE clears DISABLE; 100 ms after a disable every open frame of the port is ended. (R134, R136, R137, R141, R142, R144, R145, R146) -/
def Obligations.CameraFramesBecomeSamples : Prop :=
  (∀ (p : Fin 16) (vc : Fin 4) (s : State), s.replays 0 = false → s.camOn p vc = true → s.camDisabled p = false →
    (s.imgSrc (camSrc p vc)).cur = none →
    (∀ b, s.bit (R.IMG_PORT_CFG p) F.IMG_PORT_CFG_GATED = false → s.committing (s.srcCanton (camSrc p vc)) = false →
      s.freeBuf (camSrc p vc) = some b →
      ∃ t, exec (.csi2FrameStart p vc) s = .next t ∧ t.bufState (camSrc p vc) b = 1 ∧
        (t.imgSrc (camSrc p vc)).cur = some { buf := b, seq := (s.imgSrc (camSrc p vc)).nextSeq, stamp := s.now, lastNs := s.nowNs }) ∧
    (s.bit (R.IMG_PORT_CFG p) F.IMG_PORT_CFG_GATED = true → (s.camPort p).armed = none →
      ∃ t, exec (.csi2FrameStart p vc) s = .next t ∧ (t.imgSrc (camSrc p vc)).cur = none ∧
        t.fld (R.IMG_PORT_ERR p) F.IMG_PORT_ERR_TRIG_SLIP = min 0xFFF (s.fld (R.IMG_PORT_ERR p) F.IMG_PORT_ERR_TRIG_SLIP + 1))) ∧
  (∀ (p : Fin 16) (vc : Fin 4) (payload : List Byte) (f : CamFrame) (s : State), s.replays 0 = false →
    s.bit (R.IMG_PORT_CFG p) F.IMG_PORT_CFG_ACTIVE = true → (s.imgSrc (camSrc p vc)).cur = some f →
    let w := f.width.getD (min payload.length (s.fld (R.IMG_SRC_LIMIT (camSrc p vc)) F.IMG_SRC_LIMIT_MAX_WIDTH))
    f.lines.length < s.fld (R.IMG_SRC_LIMIT (camSrc p vc)) F.IMG_SRC_LIMIT_MAX_HEIGHT →
    w * (f.lines.length + 1) ≤ s.fld (R.IMG_SRC_LIMIT (camSrc p vc)) F.IMG_SRC_LIMIT_MAX_PIXELS →
    ∃ t g, exec (.csi2LinePacket p vc 0x2A .good true false payload) s = .next t ∧ (t.imgSrc (camSrc p vc)).cur = some g ∧
      g.lines = f.lines ++ [some ((payload.map (fun b => [b.toNat])).take w)] ∧ g.buf = f.buf ∧ g.seq = f.seq ∧ g.stamp = f.stamp) ∧
  (∀ (p : Fin 16) (vc : Fin 4) (ecc : Bool) (f : CamFrame) (s : State), s.replays 0 = false → (s.camPort p).disabledAt = none →
    (s.imgSrc (camSrc p vc)).cur = some f → f.width.getD 0 ≠ 0 → f.lines ≠ [] →
    ∃ t d, exec (.csi2FrameEnd p vc ecc) s = .next t ∧ (t.imgSrc (camSrc p vc)).cur = none ∧
      (t.imgSrc (camSrc p vc)).done = (s.imgSrc (camSrc p vc)).done ++ [d] ∧ d.seq = f.seq ∧ d.stamp = f.stamp ∧
      (ecc = false → d.buf = some f.buf ∧ d.w = f.width.getD 0 ∧ d.h = f.lines.length) ∧
      (ecc = true → d.buf = none ∧ d.status = stIntegrity)) ∧
  (∀ (p : Fin 16) (vc : Fin 4) (f : CamFrame) (s : State), (s.imgSrc (camSrc p vc)).cur = some f →
    (f.lastNs + 100000000 ≤ s.nowNs → ∃ t, exec (.csi2FrameEndTimeout p vc) s = .next t ∧ (t.imgSrc (camSrc p vc)).cur = none) ∧
    (s.nowNs < f.lastNs + 100000000 → exec (.csi2FrameEndTimeout p vc) s = .next s)) ∧
  (∀ (k : Fin 128) (d : ImgDone) (r : List ImgDone) (s : State), (s.imgSrc k).done = d :: r →
    ∃ t, exec (.sampleRecordWrite k) s = .next t ∧ (t.imgSrc k).done = r ∧
      t.fld (R.IMG_SRC_STAT k) F.IMG_SRC_STAT_REC_PROD = (s.fld (R.IMG_SRC_STAT k) F.IMG_SRC_STAT_REC_PROD + 1) % 2 ^ 16 ∧
      (∀ b, d.buf = some b → t.bufState k b = 2)) ∧
  (∀ (k : Fin 128) (r : Req) (v : Word) (s : State), s.takesWrite r (R.IMG_SRC_RELEASE k) = true →
    (s.bufState k (v.toNat % 64) = 2 → ∃ t, exec (.imgSrcRelease k r .full v) s = .next t ∧ t.bufState k (v.toNat % 64) = 0 ∧
      SameRegs [R.IMG_SRC_STAT k] s t ∧ SameMem s t) ∧
    (s.bufState k (v.toNat % 64) ≠ 2 → exec (.imgSrcRelease k r .full v) s = .next s)) ∧
  (∀ (p : Fin 16) (r : Req) (abandon : Bool) (s : State), s.takesWrite r (R.IMG_PORT_CTL p) = true →
    ∃ t, exec (.imgPortDisable p r abandon) s = .next t ∧ t.bit (R.IMG_PORT_CTL p) F.IMG_PORT_CTL_DISABLE = true ∧
      t.bit (R.IMG_PORT_CTL p) F.IMG_PORT_CTL_DISABLE_MODE = abandon ∧ (t.camPort p).disabledAt = some s.nowNs ∧
      (abandon = true → ∀ vc : Fin 4, (t.imgSrc (camSrc p vc)).cur = none) ∧ SameMem s t) ∧
  (∀ (p : Fin 16) (r : Req) (s : State), s.takesWrite r (R.IMG_PORT_CTL p) = true →
    ∃ t, exec (.imgPortEnable p r) s = .next t ∧ SameRegs [R.IMG_PORT_CTL p] s t ∧ SameMem s t ∧
      t.reg (R.IMG_PORT_CTL p) = F.IMG_PORT_CTL_DISABLE.set (s.reg (R.IMG_PORT_CTL p)) 0 ∧ (t.camPort p).disabledAt = none) ∧
  (∀ (p : Fin 16) (t0 : Nat) (s : State), (s.camPort p).disabledAt = some t0 →
    (t0 + 100000000 ≤ s.nowNs → ∃ t, exec (.portDisableDrainTimeout p) s = .next t ∧ ∀ vc : Fin 4, (t.imgSrc (camSrc p vc)).cur = none) ∧
    (s.nowNs < t0 + 100000000 → exec (.portDisableDrainTimeout p) s = .next s))

/-- A datagram that is none for the input pipeline changes nothing. A live one with a good header, for an active source of the port with both slots free and its frame not closed, and no larger than MAX_KIB, opens slot 0 with its frame number and length and the span received; with a bad header it counts BAD_HEADER. An incomplete frame is dropped REASM_MS after its first fragment and not before. The lowest free decoder takes the oldest complete frame, if its header passes and a buffer is FREE. A decode ends INTEGRITY on an uncorrectable error, and LATE when it needs more steps than its budget: in both cases decoder, slot and buffer are given up and the sample waits for its record; a decode with no image error within its budget ends with the frame's number. A TOKENIZE command whose parameters are good, whose memory is at hand and whose dictionary is clean ends, and counts COMMANDS; one with an opcode other than 1 or a CAPACITY of 0 ends REJECTED, and counts. (R147, R148, R149, R150, R154, R155, R156, R162) -/
def Obligations.JpegFramesReachDecoders : Prop :=
  (∀ (e : Fin 4) (stamp : Word) (bytes : List Byte) (s : State), s.carrierOf e bytes = none → exec (.carrierDatagram e stamp bytes) s = .next s) ∧
  (∀ (e : Fin 4) (stamp : Word) (bytes : List Byte) (p : IpPkt) (s : State), s.carrierOf e bytes = some p → s.replays 1 = false →
    (sliceN p.payload 0 2 ≠ 0x4B43 → ∃ t, exec (.carrierDatagram e stamp bytes) s = .next t ∧
      t.fld (R.IMG_ETH_STAT e) F.IMG_ETH_STAT_BAD_HEADER = min 0xFFFF (s.fld (R.IMG_ETH_STAT e) F.IMG_ETH_STAT_BAD_HEADER + 1)) ∧
    (let d := p.payload
     let l := d.drop 32
     let o := sliceN d 12 4
     let total := sliceN d 16 4
     let k := 64 + sliceN d 4 2
     let seq := sliceN d 8 4
     p.frag = false → p.udpBad = false → 32 ≤ d.length → sliceN d 0 2 = 0x4B43 → sliceN d 2 1 = 1 → sliceN d 3 1 < 2 → sliceN d 6 2 = 0 →
     sliceN d 20 4 = 0 → o + l.length ≤ total → total ≠ 0 → sliceN d 4 2 < 64 → s.srcActive k = true → (s.imgSrc k).ethPort = e →
     seq ∉ (s.imgSrc k).closed → (s.imgSrc k).slot 0 = none → (s.imgSrc k).slot 1 = none → s.committing (s.srcCanton k) = false →
     total ≤ s.fld (R.IMG_SRC_JPEG k) F.IMG_SRC_JPEG_MAX_KIB * 1024 →
     ∃ t r, exec (.carrierDatagram e stamp bytes) s = .next t ∧ (t.imgSrc k).slot 0 = some r ∧ r.seq = seq ∧ r.total = total ∧
       r.spans = [(o, l.length)] ∧ r.got = l.length ∧ r.complete = decide (total ≤ l.length))) ∧
  (∀ (k : Fin 128) (i : Fin 2) (r : Reasm) (s : State), (s.imgSrc k).slot i = some r → r.complete = false →
    let due := r.firstNs + s.fld (R.IMG_SRC_JPEG k) F.IMG_SRC_JPEG_REASM_MS * 1000000
    (due ≤ s.nowNs → ∃ t, exec (.reassemblyTimeout k i) s = .next t ∧ (t.imgSrc k).slot i = none ∧ r.seq ∈ (t.imgSrc k).closed ∧
      ∃ d, (t.imgSrc k).done = (s.imgSrc k).done ++ [d] ∧ d.seq = r.seq ∧ d.status = stRejected) ∧
    (s.nowNs < due → exec (.reassemblyTimeout k i) s = .next s)) ∧
  (∀ (d : Fin 8) (k i b : Nat) (rest : List (Nat × Nat)) (r : Reasm) (s : State),
    (List.range 8).find? (fun j => (s.decRun j).isNone) = some d.val → s.img.queue = (k, i) :: rest → (s.imgSrc k).slot i = some r →
    let j := jpegHead (s.bitstream k i r)
    s.poisoned (s.slotAddr k i) (if j.bad then r.total else j.scan) = false →
    j.check r.total (s.fld (R.IMG_SRC_LIMIT k) F.IMG_SRC_LIMIT_MAX_WIDTH) (s.fld (R.IMG_SRC_LIMIT k) F.IMG_SRC_LIMIT_MAX_HEIGHT)
      (s.fld (R.IMG_SRC_LIMIT k) F.IMG_SRC_LIMIT_MAX_PIXELS) = none →
    s.freeBuf k = some b →
    ∃ t, exec (.decoderStart d) s = .next t ∧ t.decRun d = some ⟨k, i, b⟩ ∧ t.bufState k b = 1 ∧ t.img.queue = rest ∧ SameMem s t) ∧
  (∀ (d : Fin 8) (ecc : Bool) (x : DecRun) (r : Reasm) (s : State), s.decRun d = some x → (s.imgSrc x.src).slot x.slot = some r →
    let bs := s.bitstream x.src x.slot r
    let j := jpegHead bs
    let n := j.steps (j.decode bs)
    let b := s.fld (R.IMG_SRC_JPEG x.src) F.IMG_SRC_JPEG_DECODE_BUDGET
    (ecc = true ∨ (n ≤ b ∧ j.w ≠ 0 ∧ j.h ≠ 0) → ∃ t y, exec (.decodeComplete d ecc) s = .next t ∧ t.decRun d = none ∧ (t.imgSrc x.src).slot x.slot = none ∧
      (t.imgSrc x.src).done = (s.imgSrc x.src).done ++ [y] ∧ y.seq = r.seq ∧ (ecc = true → y.status = stIntegrity ∧ y.buf = none)) ∧
    (b < n → ∃ t y, exec (.decodeBudgetExpiry d) s = .next t ∧ t.decRun d = none ∧ (t.imgSrc x.src).slot x.slot = none ∧
      (t.imgSrc x.src).done = (s.imgSrc x.src).done ++ [y] ∧ y.seq = r.seq ∧ y.status = stLate ∧ y.buf = none) ∧
    (n ≤ b → exec (.decodeBudgetExpiry d) s = .next s)) ∧
  (∀ (q : BitVec 16) (done : Nat) (c : Cmd) (s : State), s.atUnit q.toNat 2 c = true →
    (c.opcode = 1 → c.pl 24 8 ≠ 0 → zeroBytes c.desc 56 8 = true →
      let g := unitAgent 0x100 (s.qCanton q.toNat)
      s.noWait g false (c.pl 0 8) (c.pl 8 8) → s.noWait g true (c.pl 16 8) (16 + 4 * c.pl 24 8) →
      ∃ t d, exec (.tokenize q done []) s = .next t ∧ t.head q.toNat = some d ∧ d.phase = .ended ∧ d.seq = c.seq ∧
        t.fld R.TOK_STAT F.TOK_STAT_COMMANDS = (s.fld R.TOK_STAT F.TOK_STAT_COMMANDS + 1) % 2 ^ F.TOK_STAT_COMMANDS.w) ∧
    (c.opcode ≠ 1 ∨ c.pl 24 8 = 0 → ∃ t d, exec (.tokenize q done []) s = .next t ∧ t.head q.toNat = some d ∧ d.phase = .ended ∧
      d.status = worse stRejected c.status ∧
        t.fld R.TOK_STAT F.TOK_STAT_COMMANDS = (s.fld R.TOK_STAT F.TOK_STAT_COMMANDS + 1) % 2 ^ F.TOK_STAT_COMMANDS.w))

/-- A RUN on a core that holds its image starts the entry with the argument address and length in G0 and G1 and the smaller of S_MAX and the STEP budget as its bound. A bundle that a hazard holds is a counted step of the command and of the core and changes no register; a bundle that issues has the effect of its slots after that step. A yield point whose queues are empty and at which nothing stops, swaps or switches clears both matrix engines' state and keeps the context, and changes nothing but cores. After END, with every queue empty, the command ends DONE or with a worse condition of its own, and the core is free. A timeout at a yield withdraws the core's remote reads from those outstanding. A FILL of whole words into HBM ends its command with every byte of the range holding its pattern; a COPY of HBM bytes that are good into HBM ends with every byte of DST as SRC was, also where they overlap. An operation at the head of a matrix or vector queue has its effect and leaves the queue. (R53, R192, R193, R194, R196, R197, R198, R228, R263, R450, R451) -/
def Obligations.ProgramsRunAndStop : Prop :=
  (∀ (q : BitVec 16) (c : Cmd) (n : Nat) (im : Image) (e : Nat × Nat) (s : State), s.atUnit q.toNat 1 c = true → c.core = some n → c.opcode = 1 →
    s.coreRuns n = true → (s.core n).running = some q.toNat → (s.core n).image = none → (s.core n).restoring = false →
    (s.core n).images.find? (fun i => i.id == c.pl 0 2 && i.canton == s.qCanton q.toNat) = some im → im.entries[c.pl 2 2]? = some e →
    ∃ t, exec (.coreRun q) s = .next t ∧ { t with cores := s.cores } = s ∧ (t.core n).image = some im ∧ (t.core n).ctx.pc = im.first + e.1 ∧
      (t.core n).ctx.getG 0 = BitVec.ofNat 64 (c.pl 8 8) ∧ (t.core n).ctx.getG 1 = BitVec.ofNat 64 (c.pl 4 4) ∧
      (t.core n).bound = min e.2 (c.budget.getD e.2) ∧ ∀ m, m ≠ n → t.core m = s.core m) ∧
  (∀ (n : Fin 16) (q : Nat) (c : Cmd) (s : State), (s.core n).running = some q → s.head q = some c → s.issues n q = true →
    let b := (Store.get (fun _ => 0) (s.core n).imem (s.core n).ctx.pc).toNat
    ((s.core n).holds b = true → ∃ t, exec (.bundleIssue n false) s = .next t ∧ SameRegs [R.CORE_STEPS n] s t ∧ SameMem s t ∧
      t.head q = some { c with steps := c.steps + 1 } ∧ t.cores = s.cores ∧
      t.fld (R.CORE_STEPS n) F.CORE_STEPS_STEPS = (s.fld (R.CORE_STEPS n) F.CORE_STEPS_STEPS + 1) % 2 ^ F.CORE_STEPS_STEPS.w) ∧
    ((s.core n).holds b = false → (s.core n).xferHolds b = false → ∀ u, (s.countStep n q).issueSlots n b = some u →
      exec (.bundleIssue n false) s = .next u)) ∧
  (∀ (n : Fin 16) (q : Nat) (c : Cmd) (s : State), (s.core n).running = some q → s.head q = some c → c.phase = .running →
    s.swapDue n = false → s.switchDue n q = false → (s.core n).yieldOffered = true → (s.core n).qMatA = [] → (s.core n).qMatB = [] →
    (s.core n).qVec = [] → (s.core n).qXfer = [] → (s.core n).loads = [] → (s.core n).fps = [] →
    ∃ t, exec (.yieldPoint n) s = .next t ∧ { t with cores := s.cores } = s ∧ (t.core n).yieldOffered = false ∧
      (t.core n).matA = {} ∧ (t.core n).matB = {} ∧ (t.core n).ctx = (s.core n).ctx) ∧
  (∀ (n : Fin 16) (q : Nat) (c : Cmd) (s : State), (s.core n).running = some q → s.head q = some c → (s.core n).endPending = true →
    (s.core n).qMatA = [] → (s.core n).qMatB = [] → (s.core n).qVec = [] → (s.core n).qXfer = [] → (s.core n).loads = [] → (s.core n).fps = [] →
    ∃ t, exec (.programEnd n) s = .next t ∧ Ended q c stDone s t ∧ (t.core n).running = none ∧ (t.core n).image = none ∧ SameMem s t) ∧
  (∀ (n : Fin 16) (s : State), (s.core n).saving = true → ∃ t, exec (.yieldRemoteTimeout n) s = .next t ∧ SameRegs [] s t ∧ SameMem s t ∧
    ∀ o, o ∈ t.host.reads ↔ (o ∈ s.host.reads ∧ (s.forCore n o = false ∨ inHostWindow o.addr = true))) ∧
  (∀ (q : BitVec 16) (n : Nat) (c : Cmd) (s : State), s.atUnit q.toNat 1 c = true → c.core = some n → c.phase = .running → s.coreRuns n = true →
    (s.core n).running = some q.toNat →
    (c.opcode = 3 → c.pl 8 8 % 8 = 0 →
      (∀ i, i < c.pl 8 8 → s.place (c.pl 0 8 + i) = .hbm (c.pl 0 8 + i) ∧ s.hit (s.coreAgent n) true (c.pl 0 8 + i) = .ok (c.pl 0 8 + i)) →
      ∃ t, exec (.coreFill q 0) s = .next t ∧ Ended q.toNat c stDone s t ∧
        ∀ i, i < c.pl 8 8 → t.rd (c.pl 0 8 + i) = (leBytes (c.pl 16 8) 8).getD (i % 8) 0) ∧
    (c.opcode = 2 → s.copyReads q.toNat = false → s.poison = [] → s.spd.ecc = [] →
      (∀ i, i < c.pl 16 8 → s.place (c.pl 0 8 + i) = .hbm (c.pl 0 8 + i) ∧ s.hit (s.coreAgent n) true (c.pl 0 8 + i) = .ok (c.pl 0 8 + i)) →
      (∀ i, i < c.pl 16 8 → s.place (c.pl 8 8 + i) = .hbm (c.pl 8 8 + i) ∧ s.hit (s.coreAgent n) false (c.pl 8 8 + i) = .ok (c.pl 8 8 + i)) →
      ∃ t, exec (.coreCopy q 0) s = .next t ∧ Ended q.toNat c stDone s t ∧ (∀ i, i < c.pl 16 8 → t.rd (c.pl 0 8 + i) = s.rd (c.pl 8 8 + i)) ∧
        ∀ x, (x < c.pl 0 8 ∨ c.pl 0 8 + c.pl 16 8 ≤ x) → t.rd x = s.rd x)) ∧
  (∀ (n : Fin 16) (op : EngOp) (rest : List EngOp) (s : State), s.coreRuns n = true → s.coreHandover n = false →
    ((s.core n).qMatA = op :: rest → exec (.engineOperationComplete n .matA) s = .next ((s.setCore n { s.core n with qMatA := rest }).matOp n .a op)) ∧
    ((s.core n).qMatB = op :: rest → exec (.engineOperationComplete n .matB) s = .next ((s.setCore n { s.core n with qMatB := rest }).matOp n .b op)) ∧
    ((s.core n).qVec = op :: rest → exec (.engineOperationComplete n .vec) s = .next ((s.setCore n { s.core n with qVec := rest }).vecOp n op)) ∧
    ((s.core n).qXfer = op :: rest → exec (.engineOperationComplete n .xfer) s = .next (s.xferRun n op rest)))

/-- On a core that executes: a WLOAD whose checks pass, whose words are good and whose reads report nothing, with no side tensor, makes the shadow tile valid with its format and depth. A MATMUL of good words whose reads report nothing, with no side tensor, fault or injection, against a valid active tile of its depth and accumulator type, puts into each row the row accumulated from zeros with INIT and from the old row without, and leaves every other row of the set alone. A DRAIN of an INT32 set by plain conversion writes the converted rows to its destination. CLEAR zeroes its rows and no other accumulator. SCALE_BIND binds its descriptor to the next operation of the role. None of them changes the other matrix engine, and CLEAR and SCALE_BIND change nothing but the core. (R187, R203, R205, R206, R228, R231, R235, R280) -/
def Obligations.MatrixOperationsCompute : Prop :=
  (∀ (n : Fin 16) (e : MatEng) (x : BitVec 8) (f : Fmt) (s : State), s.coreRuns n = true →
    let d := descOf (s.desc n x.toNat)
    ((s.core n).mat e).bindLoad = none → d.aux = 0xFFFF → d.format = some f → d.cb = none → weightFmt f = true → tileDepthOk f d.d0 = true →
    (s.checkOperand n d weightFmt 128).and (s.checkSide n f d.d0 128 none) = .go → (s.readOperand n d 128).1.bad = false → (s.readOperand n d 128).2 = s →
    ∃ t, exec (.matWload n e x) s = .next t ∧ (((t.core n).mat e).shadow.valid = true ∧ ((t.core n).mat e).shadow.fmt = f ∧
      ((t.core n).mat e).shadow.depth = d.d0) ∧ ((t.core n).mat e).active = ((s.core n).mat e).active ∧
      (∀ e', e' ≠ e → (t.core n).mat e' = (s.core n).mat e') ∧ SameMem s t) ∧
  (∀ (n : Fin 16) (e : MatEng) (x : BitVec 8) (set : Bool) (row : BitVec 10) (count : BitVec 11) (init : Bool) (f : Fmt) (p : PairClass) (s : State),
    s.coreRuns n = true → (s.core n).inject = none →
    let d := descOf (s.desc n x.toNat)
    let m := (s.core n).mat e
    let k := m.active.depth
    let ad := actDesc d k
    m.bindMul = none → d.aux = 0xFFFF → d.format = some f → actFmt f = true → row.toNat + count.toNat ≤ 1024 → m.active.valid = true →
    pairClass f m.active.fmt = some p → p.depth = k → (init = true ∨ (m.set set).cls = some p) →
    (s.checkOperand n ad actFmt count.toNat).and (s.checkSide n f k count.toNat none) = .go → (s.readOperand n ad count.toNat).1.bad = false → (s.readOperand n ad count.toNat).2 = s →
    ∃ t, exec (.matMatmul n e x set row count init false .none) s = .next t ∧ SameMem s t ∧
      (∀ e', e' ≠ e → (t.core n).mat e' = (s.core n).mat e') ∧
      (∀ r c, (r < row.toNat ∨ row.toNat + count.toNat ≤ r) → c < 128 → (((t.core n).mat e).set set).get r c = (m.set set).get r c) ∧
      ∀ i, i < count.toNat →
        let codes := ((rowsOf ad.d0 (s.readOperand n ad count.toNat).1.codes count.toNat).getD i []) ++ List.replicate (k - ad.d0) 0
        let acts := (codes.take k).map (fun q => (f.decode q).1)
        let old := (List.range 128).map (fun c => if init then (0 : BitVec 32) else (m.set set).get (row.toNat + i) c)
        ∀ c, c < 128 → (((t.core n).mat e).set set).get (row.toNat + i) c = (matRow p.isInt m.active.columns acts old).1.getD c 0) ∧
  (∀ (n : Fin 16) (e : MatEng) (x : BitVec 8) (set : Bool) (row : BitVec 10) (count : BitVec 11) (rnd : Rnd) (f : Fmt) (p : PairClass) (s : State),
    s.coreRuns n = true → ((s.core n).mat e).bindDrain = none → (((s.core n).mat e).set set).cls = some p → p.isInt = true →
    let d0 := descOf (s.desc n x.toNat)
    let d := { d0 with d0 := min 128 d0.d0 }
    d.format = some f → drainFmt f = true → row.toNat + count.toNat ≤ 1024 → s.checkOperand n d (fun _ => true) count.toNat = .go →
    ∃ t fl, exec (.matDrain n e x 0xFF set row count rnd) s = .next t ∧ t.cores = s.cores ∧
      t = (s.writeOperand n d count.toNat ((List.range (count.toNat * d.d0)).map (fun i =>
        (f.encode rnd (srDraw (s.core n).seed ((s.core n).ctx.srStream.setWidth 64) (BitVec.ofNat 64 (i / d.d0 * d0.d0 + i % d.d0)))
          (.ofInt ((((s.core n).mat e).set set).get (row.toNat + i / d.d0) (i % d.d0)).toInt)).1))).coreFmt n fl) ∧
  (∀ (n : Fin 16) (e : MatEng) (set : Bool) (row : BitVec 10) (count : BitVec 11) (s : State), s.coreRuns n = true →
    ∃ t, exec (.matClear n e set row count) s = .next t ∧ { t with cores := s.cores } = s ∧ (∀ m, m ≠ n.val → t.core m = s.core m) ∧
      (∀ e', e' ≠ e → (t.core n).mat e' = (s.core n).mat e') ∧
      (∀ r c, c < 128 → (((t.core n).mat e).set set).get r c =
        if row.toNat ≤ r ∧ r < row.toNat + count.toNat then 0 else (((s.core n).mat e).set set).get r c)) ∧
  (∀ (n : Fin 16) (dst src : BitVec 8) (aux : BitVec 18) (s : State), s.coreRuns n = true →
    ∃ t, exec (.xferScaleBind n dst src aux) s = .next t ∧ { t with cores := s.cores } = s ∧
      let e := if aux.getLsbD 17 then MatEng.b else .a
      (∀ e', e' ≠ e → (t.core n).mat e' = (s.core n).mat e') ∧
      (aux.toNat / 2 ^ 15 % 4 = 0 → ((t.core n).mat e).bindMul = some (s.desc n src.toNat)) ∧
      (aux.toNat / 2 ^ 15 % 4 = 1 → ((t.core n).mat e).bindLoad = some (s.desc n src.toNat)) ∧
      (2 ≤ aux.toNat / 2 ^ 15 % 4 → ((t.core n).mat e).bindDrain = some (s.desc n src.toNat)))

/-- On a core that executes, each of ADD to SLTU, ADDI to SARI, LIH, EXTS, EXTU, DGET and the S1 integer operations completes; register RD of the core's context takes the value that R217 gives from RA and RB, or from RA and the sign-extended immediate; every other register, every other part of the core, every other core and all the rest of the state are unchanged. Arithmetic is modulo 2^64, shifts take the low 6 bits of their count, MIN, MAX and SLT compare signed and SLTU unsigned; LIH replaces the 16-bit field that IMM[17:16] names; EXTS and EXTU take a field of 1, 2, 4 or 8 bytes at the byte offset IMM[2:0]. (R215, R217, R218) -/
def Obligations.ScalarIntegerOperations : Prop :=
  (∀ (n : Fin 16) (rd ra rb : BitVec 6) (s : State), s.coreRuns n = true →
    let a := (s.ctx n).getG ra.toNat
    let b := (s.ctx n).getG rb.toNat
    (∃ t, exec (.s0Add n rd ra rb) s = .next t ∧ PutsG n rd.toNat (a + b) s t) ∧
    (∃ t, exec (.s0Sub n rd ra rb) s = .next t ∧ PutsG n rd.toNat (a - b) s t) ∧
    (∃ t, exec (.s0And n rd ra rb) s = .next t ∧ PutsG n rd.toNat (a &&& b) s t) ∧
    (∃ t, exec (.s0Or n rd ra rb) s = .next t ∧ PutsG n rd.toNat (a ||| b) s t) ∧
    (∃ t, exec (.s0Xor n rd ra rb) s = .next t ∧ PutsG n rd.toNat (a ^^^ b) s t) ∧
    (∃ t, exec (.s0Shl n rd ra rb) s = .next t ∧ PutsG n rd.toNat (a <<< (b.toNat % 64)) s t) ∧
    (∃ t, exec (.s0Shr n rd ra rb) s = .next t ∧ PutsG n rd.toNat (a >>> (b.toNat % 64)) s t) ∧
    (∃ t, exec (.s0Sar n rd ra rb) s = .next t ∧ PutsG n rd.toNat (a.sshiftRight (b.toNat % 64)) s t) ∧
    (∃ t, exec (.s0Mul n rd ra rb) s = .next t ∧ PutsG n rd.toNat (a * b) s t) ∧
    (∃ t, exec (.s0Min n rd ra rb) s = .next t ∧ PutsG n rd.toNat (if a.toInt < b.toInt then a else b) s t) ∧
    (∃ t, exec (.s0Max n rd ra rb) s = .next t ∧ PutsG n rd.toNat (if a.toInt < b.toInt then b else a) s t) ∧
    (∃ t, exec (.s0Slt n rd ra rb) s = .next t ∧ PutsG n rd.toNat (if a.toInt < b.toInt then 1 else 0) s t) ∧
    (∃ t, exec (.s0Sltu n rd ra rb) s = .next t ∧ PutsG n rd.toNat (if a.toNat < b.toNat then 1 else 0) s t) ∧
    (∀ op, ∃ t, exec (.s1IntegerOp n op rd ra rb) s = .next t ∧ PutsG n rd.toNat (intOp op a b) s t)) ∧
  (∀ (n : Fin 16) (rd ra : BitVec 6) (imm : BitVec 18) (s : State), s.coreRuns n = true →
    let a := (s.ctx n).getG ra.toNat
    let i : Word := imm.signExtend 64
    (∃ t, exec (.s0Addi n rd ra imm) s = .next t ∧ PutsG n rd.toNat (a + i) s t) ∧
    (∃ t, exec (.s0Andi n rd ra imm) s = .next t ∧ PutsG n rd.toNat (a &&& i) s t) ∧
    (∃ t, exec (.s0Ori n rd ra imm) s = .next t ∧ PutsG n rd.toNat (a ||| i) s t) ∧
    (∃ t, exec (.s0Xori n rd ra imm) s = .next t ∧ PutsG n rd.toNat (a ^^^ i) s t) ∧
    (∃ t, exec (.s0Shli n rd ra imm) s = .next t ∧ PutsG n rd.toNat (a <<< (imm.toNat % 64)) s t) ∧
    (∃ t, exec (.s0Shri n rd ra imm) s = .next t ∧ PutsG n rd.toNat (a >>> (imm.toNat % 64)) s t) ∧
    (∃ t, exec (.s0Sari n rd ra imm) s = .next t ∧ PutsG n rd.toNat (a.sshiftRight (imm.toNat % 64)) s t) ∧
    (∃ t v, exec (.s0Lih n rd ra imm) s = .next t ∧ PutsG n rd.toNat v s t ∧
      ∀ k, k < 64 → v.getLsbD k = if k / 16 = imm.toNat / 65536 then imm.getLsbD (k % 16) else a.getLsbD k) ∧
    (∃ t, exec (.s0Exts n rd ra imm) s = .next t ∧
      PutsG n rd.toNat (BitVec.ofInt 64 (signExt (8 * 2 ^ (imm.toNat / 8 % 4)) (a.toNat / 2 ^ (8 * (imm.toNat % 8))))) s t) ∧
    (∃ t, exec (.s0Extu n rd ra imm) s = .next t ∧
      PutsG n rd.toNat (BitVec.ofNat 64 (a.toNat / 2 ^ (8 * (imm.toNat % 8)) % 2 ^ (8 * 2 ^ (imm.toNat / 8 % 4)))) s t)) ∧
  (∀ (n : Fin 16) (g : BitVec 6) (desc : BitVec 8) (word : BitVec 2) (s : State), s.coreRuns n = true →
    ∃ t, exec (.s0Dget n g desc word) s = .next t ∧ PutsG n g.toNat ((s.ctx n).getD desc.toNat word.toNat) s t)

/-- On a core that executes: a taken branch moves the program counter by OFF bundles; one not taken, outside a loop's last bundle, to the next; at the last bundle of the innermost loop with passes left, back to its first bundle with one pass less. LOOP with a count starts a loop of the next IMM bundles. DSET and DADD write a descriptor word, SRSTREAM takes the low 32 bits of RA. An FP64 operation joins the pipeline with its result, slow for FDIV and FSQRT; FP64_RESULT_WRITE writes the oldest of its kind to its register. LD and LDF of a reachable bank join the pending loads; of any other address they write 0. LOAD_DATA_RETURN of a load with no earlier one to its bank, of good bytes of the core's own, writes them. ST and STF with no pending load store 8 bytes, least significant first, at an address whose bytes the core may write, and leave all other memory and every register alone. (R184, R199, R215, R216, R217, R218, R249) -/
def Obligations.ScalarControlAndPipelines : Prop :=
  (∀ (n : Fin 16) (ra rb : BitVec 6) (off : BitVec 18) (s : State), s.coreRuns n = true →
    let moved (p : Prop) (t : State) : Prop :=
      (p → PutsCtx n { s.ctx n with pc := (((s.ctx n).pc : Int) + off.toInt).toNat } s t) ∧
      (¬ p → (∀ l ∈ (s.ctx n).loops.head?, l.last ≠ (s.ctx n).pc) → PutsCtx n { s.ctx n with pc := (s.ctx n).pc + 1 } s t) ∧
      (¬ p → ∀ l r, (s.ctx n).loops = l :: r → l.last = (s.ctx n).pc → 1 < l.left →
        PutsCtx n { s.ctx n with pc := l.first, loops := { l with left := l.left - 1 } :: r } s t)
    (∃ t, exec (.s0Beq n ra rb off) s = .next t ∧ moved ((s.ctx n).getG ra.toNat = (s.ctx n).getG rb.toNat) t) ∧
    (∃ t, exec (.s0Bne n ra rb off) s = .next t ∧ moved ((s.ctx n).getG ra.toNat ≠ (s.ctx n).getG rb.toNat) t) ∧
    (∃ t, exec (.s0Blt n ra rb off) s = .next t ∧ moved (((s.ctx n).getG ra.toNat).toInt < ((s.ctx n).getG rb.toNat).toInt) t) ∧
    (∃ t, exec (.s0Bge n ra rb off) s = .next t ∧ moved (((s.ctx n).getG rb.toNat).toInt ≤ ((s.ctx n).getG ra.toNat).toInt) t) ∧
    (∃ t, exec (.s0Jmp n off) s = .next t ∧ moved True t)) ∧
  (∀ (n : Fin 16) (ra : BitVec 6) (imm : BitVec 18) (s : State), s.coreRuns n = true →
    (∃ t, exec (.s0Loop n ra imm) s = .next t ∧ ((s.ctx n).getG ra.toNat ≠ 0 →
      PutsCtx n { s.ctx n with pc := (s.ctx n).pc + 1
                               loops := ⟨(s.ctx n).pc + 1, (s.ctx n).pc + imm.toNat, ((s.ctx n).getG ra.toNat).toNat⟩ :: (s.ctx n).loops } s t)) ∧
    (∃ t, exec (.s0Srstream n ra) s = .next t ∧ PutsCtx n { s.ctx n with srStream := ((s.ctx n).getG ra.toNat).setWidth 32 } s t)) ∧
  (∀ (n : Fin 16) (g : BitVec 6) (desc : BitVec 8) (word : BitVec 2) (s : State), s.coreRuns n = true →
    (∃ t, exec (.s0Dset n g desc word) s = .next t ∧ CoreOnly n s t ∧ (t.ctx n).getD desc.toNat word.toNat = (s.ctx n).getG g.toNat ∧
      { t.core n with ctx := { t.ctx n with desc := (s.ctx n).desc } } = s.core n ∧
      ∀ d w, w < 4 → (d ≠ desc.toNat ∨ w ≠ word.toNat) → (t.ctx n).getD d w = (s.ctx n).getD d w) ∧
    (∃ t, exec (.s0Dadd n g desc) s = .next t ∧ CoreOnly n s t ∧
      (t.ctx n).getD desc.toNat 0 = (s.ctx n).getD desc.toNat 0 + (s.ctx n).getG g.toNat ∧
      { t.core n with ctx := { t.ctx n with desc := (s.ctx n).desc } } = s.core n ∧
      ∀ d w, w < 4 → (d ≠ desc.toNat ∨ w ≠ 0) → (t.ctx n).getD d w = (s.ctx n).getD d w)) ∧
  (∀ (n : Fin 16) (fd fa fb fc : BitVec 5) (gr : BitVec 6) (s : State), s.coreRuns n = true →
    let a := (s.ctx n).getF fa.toNat
    let b := (s.ctx n).getF fb.toNat
    let g := (s.ctx n).getG gr.toNat
    (∃ t, exec (.s1Fadd n fd fa fb) s = .next t ∧ Issues n true fd.toNat (f64Add a b) false s t) ∧
    (∃ t, exec (.s1Fsub n fd fa fb) s = .next t ∧ Issues n true fd.toNat (f64Sub a b) false s t) ∧
    (∃ t, exec (.s1Fmul n fd fa fb) s = .next t ∧ Issues n true fd.toNat (f64Mul a b) false s t) ∧
    (∃ t, exec (.s1Fdiv n fd fa fb) s = .next t ∧ Issues n true fd.toNat (f64Div a b) true s t) ∧
    (∃ t, exec (.s1Fmin n fd fa fb) s = .next t ∧ Issues n true fd.toNat (f64Min a b) false s t) ∧
    (∃ t, exec (.s1Fmax n fd fa fb) s = .next t ∧ Issues n true fd.toNat (f64Max a b) false s t) ∧
    (∃ t, exec (.s1Fma n fd fa fb fc) s = .next t ∧ Issues n true fd.toNat (f64Fma a b ((s.ctx n).getF fc.toNat)) false s t) ∧
    (∃ t, exec (.s1Fsqrt n fd fa) s = .next t ∧ Issues n true fd.toNat (f64Sqrt a) true s t) ∧
    (∃ t, exec (.s1FcvtFi n fd gr) s = .next t ∧ Issues n true fd.toNat (f64OfInt g) false s t) ∧
    (∃ t, exec (.s1FcvtIf n gr fa) s = .next t ∧ Issues n false gr.toNat (f64ToInt a) false s t) ∧
    (∃ t, exec (.s1FcvtFs n fd gr) s = .next t ∧ Issues n true fd.toNat (f32ToF64 g) false s t) ∧
    (∃ t u, exec (.s1FcvtSf n gr fa) s = .next t ∧ Issues n false gr.toNat (f64ToF32 a).1 false s u ∧ t = u.coreFmt n (f64ToF32 a).2) ∧
    (∃ t, exec (.s1Fmovfg n fd gr) s = .next t ∧ Issues n true fd.toNat g false s t) ∧
    (∃ t, exec (.s1Fmovgf n gr fa) s = .next t ∧ Issues n false gr.toNat a false s t) ∧
    (∃ t, exec (.s1Fcmplt n gr fa fb) s = .next t ∧ Issues n false gr.toNat (if f64Lt a b then 1 else 0) false s t)) ∧
  (∀ (n : Fin 16) (slow : Bool) (l r : List PendFp) (p : PendFp) (s : State), (s.core n).fps = l ++ p :: r → (∀ x ∈ l, x.slow ≠ slow) → p.slow = slow →
    ∃ t, exec (.fp64ResultWrite n slow) s = .next t ∧ CoreOnly n s t ∧ (t.core n).fps = l ++ r ∧
      (if p.isF then (t.ctx n).getF p.rd = p.val else (t.ctx n).getG p.rd = p.val)) ∧
  (∀ (n : Fin 16) (rd ra : BitVec 6) (imm : BitVec 18) (s : State), s.coreRuns n = true →
    let a := ((s.ctx n).getG ra.toNat + imm.signExtend 64 * 8).toNat
    ((s.scalarBank n a).isSome = true →
      (∃ t, exec (.s0Ld n rd ra imm) s = .next t ∧ CoreOnly n s t ∧ t.core n = { s.core n with loads := (s.core n).loads ++ [⟨false, rd.toNat, a⟩] }) ∧
      (∃ t, exec (.s0Ldf n rd ra imm) s = .next t ∧ CoreOnly n s t ∧ t.core n = { s.core n with loads := (s.core n).loads ++ [⟨true, rd.toNat % 32, a⟩] })) ∧
    (s.scalarBank n a = none →
      (∃ t, exec (.s0Ld n rd ra imm) s = .next t ∧ (t.ctx n).getG rd.toNat = 0 ∧ (t.reg (R.CORE_ERR n)).getLsbD 5 = true) ∧
      (∃ t, exec (.s0Ldf n rd ra imm) s = .next t ∧ (t.ctx n).getF rd.toNat = 0 ∧ (t.reg (R.CORE_ERR n)).getLsbD 5 = true))) ∧
  (∀ (n : Fin 16) (k : Nat) (p : PendLoad) (s : State), (s.core n).loads[k]? = some p →
    (∀ j x, j < k → (s.core n).loads[j]? = some x → s.scalarBank n x.addr ≠ s.scalarBank n p.addr) →
    (∀ i, i < 8 → ∃ x, s.hit (s.coreAgent n) false (p.addr + i) = .ok x ∧ s.poisoned x 1 = false ∧ s.wordErr x = 0) →
    ∃ t, exec (.loadDataReturn n k) s = .next t ∧ SameMem s t ∧ (t.core n).loads = (s.core n).loads.eraseIdx k ∧
      ∃ v : Word, (if p.isF then (t.ctx n).getF p.rd = v else (t.ctx n).getG p.rd = v) ∧
        ∀ i x, i < 8 → s.hit (s.coreAgent n) false (p.addr + i) = .ok x → v.toNat / 256 ^ i % 256 = (s.rd x).toNat) ∧
  (∀ (n : Fin 16) (rs ra : BitVec 6) (imm : BitVec 18) (k : Nat) (s : State), s.coreRuns n = true → (s.core n).loads = [] →
    let a := ((s.ctx n).getG ra.toNat + imm.signExtend 64 * 8).toNat
    (s.scalarBank n a).isSome = true → (∀ i, i < 8 → s.hit (s.coreAgent n) true (a + i) = .ok (k + i)) →
    let stored (v : Word) (t : State) : Prop := SameRegs [] s t ∧ (∀ i, i < 8 → (t.rd (k + i)).toNat = v.toNat / 256 ^ i % 256) ∧
      ∀ x, (x < k ∨ k + 8 ≤ x) → t.rd x = s.rd x
    (∃ t, exec (.s0St n rs ra imm) s = .next t ∧ stored ((s.ctx n).getG rs.toNat) t) ∧
    (∃ t, exec (.s0Stf n rs ra imm) s = .next t ∧ stored ((s.ctx n).getF rs.toNat) t))

/-- On a core that executes, where the checks of the operands pass and reading them meets no bad word and reports nothing: ADD, MUL, MIN, MAX and FMA give element i of the destination the sum, product, smaller, larger, or product plus present element of the sources' elements i, the first replaced by its magnitude with ABS1, the second negated with NEG2 and taken from row i / DIM0 with ROW2; MAX with SRC2 = 0xFF takes +0 as its second source. CVT and the elementary functions give the function of the source's element, at zeros, infinities and NaN the results of IEEE 754-2019, elsewhere the published algorithm's (a value outside the spec, log 2). Each result is rounded once, with its own stochastic draw. No other state changes but format flags of the running command and the engine's busy count. (R183, R184, R185, R187, R210, R211, R212) -/
def Obligations.VectorElementwiseOperations : Prop :=
  (∀ (n : Fin 16) (dst src1 src2 : BitVec 8) (imm : BitVec 6) (rnd : Rnd) (f : Fmt) (s : State), s.coreRuns n = true →
    let d := descOf (s.desc n dst.toNat)
    let a := descOf (s.desc n src1.toNat)
    let b := descOf (s.desc n src2.toNat)
    let k := d.elems
    let k2 := if imm.getLsbD 1 then d.rows else k
    d.format = some f → s.checkOperand n d vecWrites d.rows = .go → s.vecCheck n a k = .go → s.quietRead n a (a.rowsFor k) →
    let u (i : Nat) : Val := let x := (s.vecVals n a k).getD i valZero; if imm.getLsbD 2 then x.abs else x
    (s.vecCheck n b k2 = .go → (imm.getLsbD 1 = true → b.d0 = 1) → s.quietRead n b (b.rowsFor k2) → s.quietRead n d (d.rowsFor k) →
      let v (i : Nat) : Val := let y := (s.vecVals n b k2).getD (if imm.getLsbD 1 then i / d.d0 else i) valZero; if imm.getLsbD 0 then y.neg else y
      let w (i : Nat) : Val := (s.vecVals n d k).getD i valZero
      let out (op : Val → Val → Val → Val) : List Nat := s.vecCodes n f rnd ((List.range k).map (fun i => op (u i) (v i) (w i)))
      (∃ t, exec (.vecAdd n dst src1 src2 imm rnd) s = .next t ∧ VecWrote n d (out (fun x y _ => x.add y)) s t) ∧
      (∃ t, exec (.vecMul n dst src1 src2 imm rnd) s = .next t ∧ VecWrote n d (out (fun x y _ => x.mul y)) s t) ∧
      (∃ t, exec (.vecMin n dst src1 src2 imm rnd) s = .next t ∧ VecWrote n d (out (fun x y _ => x.min y)) s t) ∧
      (src2 ≠ 0xFF → (∃ t, exec (.vecMax n dst src1 src2 imm rnd) s = .next t ∧ VecWrote n d (out (fun x y _ => x.max y)) s t)) ∧
      (∃ t, exec (.vecFma n dst src1 src2 imm rnd) s = .next t ∧ VecWrote n d (out (fun x y z => (x.mul y).add z)) s t)) ∧
    (src2 = 0xFF → (∃ t, exec (.vecMax n dst src1 src2 imm rnd) s = .next t ∧ VecWrote n d (s.vecCodes n f rnd ((List.range k).map (fun i => let x := u i; x.max valZero))) s t)) ∧
    (∃ t, exec (.vecCvt n dst src1 src2 imm rnd) s = .next t ∧ VecWrote n d (s.vecCodes n f rnd ((List.range k).map (fun i => let x := u i; x))) s t) ∧
      (∃ t, exec (.vecExp n dst src1 src2 imm rnd) s = .next t ∧ VecWrote n d (s.vecCodes n f rnd ((List.range k).map (fun i => let x := u i; fnExp x))) s t) ∧
      (∃ t, exec (.vecLog n dst src1 src2 imm rnd) s = .next t ∧ VecWrote n d (s.vecCodes n f rnd ((List.range k).map (fun i => let x := u i; fnLog x))) s t) ∧
      (∃ t, exec (.vecRecip n dst src1 src2 imm rnd) s = .next t ∧ VecWrote n d (s.vecCodes n f rnd ((List.range k).map (fun i => let x := u i; fnRecip x))) s t) ∧
      (∃ t, exec (.vecRsqrt n dst src1 src2 imm rnd) s = .next t ∧ VecWrote n d (s.vecCodes n f rnd ((List.range k).map (fun i => let x := u i; fnRsqrt x))) s t) ∧
      (∃ t, exec (.vecTanh n dst src1 src2 imm rnd) s = .next t ∧ VecWrote n d (s.vecCodes n f rnd ((List.range k).map (fun i => let x := u i; fnTanh x))) s t) ∧
      (∃ t, exec (.vecSigmoid n dst src1 src2 imm rnd) s = .next t ∧ VecWrote n d (s.vecCodes n f rnd ((List.range k).map (fun i => let x := u i; fnSigmoid x))) s t) ∧
      (∃ t, exec (.vecGelu n dst src1 src2 imm rnd) s = .next t ∧ VecWrote n d (s.vecCodes n f rnd ((List.range k).map (fun i => let x := u i; fnGelu x))) s t))

/-- On a core that executes, where the checks of the operands pass and reading them meets no bad word and reports nothing: RSUM and RMAX give element i of the destination the sum, in the order of R213, or the maximum of row i of the source, with ACC combined with the present element. SMSTAT replaces each row's statistics (m, l) and writes each row's factor to the tensor that its AUX names. SMLSE writes m + log(l), minus infinity where l is 0. NSTAT writes each row's mean and sum of squares. BQUANT writes each row's blocks of 32 as codes and their scales to the tensor that its AUX names. The pair layouts of SMSTAT, SMLSE and NSTAT are the model's choice (log 29). No other state changes but format flags of the running command and the engine's busy count. (R189, R210, R211, R213, R214, R199) -/
def Obligations.VectorReductionsAndStatistics : Prop :=
  (∀ (n : Fin 16) (dst src1 src2 : BitVec 8) (imm : BitVec 6) (rnd : Rnd) (f : Fmt) (s : State), s.coreRuns n = true →
    let d := descOf (s.desc n dst.toNat)
    let a := descOf (s.desc n src1.toNat)
    let k := d.elems
    let row (i : Nat) : List Val := ((s.vecVals n a (k * a.d0)).drop (i * a.d0)).take a.d0
    let old (i : Nat) : Val := (s.vecVals n d k).getD i valZero
    d.format = some f → s.checkOperand n d vecWrites d.rows = .go → s.checkOperand n a vecReads k = .go →
    s.quietRead n a (a.rowsFor (k * a.d0)) → s.quietRead n d (d.rowsFor k) →
    (∃ t, exec (.vecRsum n dst src1 src2 imm rnd) s = .next t ∧ VecWrote n d (s.vecCodes n f rnd ((List.range k).map (fun i =>
      if imm.getLsbD 0 then (old i).add (vecSum (row i)).1 else (vecSum (row i)).1))) s t) ∧
    (∃ t, exec (.vecRmax n dst src1 src2 imm rnd) s = .next t ∧ VecWrote n d (s.vecCodes n f rnd ((List.range k).map (fun i =>
      if imm.getLsbD 0 then (old i).max (vecMaxOf (row i)) else vecMaxOf (row i)))) s t)) ∧
  (∀ (n : Fin 16) (dst src1 src2 : BitVec 8) (imm : BitVec 6) (rnd : Rnd) (f : Fmt) (s : State), s.coreRuns n = true →
    let d := descOf (s.desc n dst.toNat)
    let a := descOf (s.desc n src1.toNat)
    let k := d.elems
    let pair (i : Nat) : Val × Val := ((s.vecVals n a (2 * k)).getD (2 * i) valZero, (s.vecVals n a (2 * k)).getD (2 * i + 1) valZero)
    d.format = some f → a.f32Pairs = true → s.checkOperand n d vecWrites d.rows = .go → s.checkOperand n a vecReads k = .go →
    s.quietRead n a (a.rowsFor (2 * k)) →
    ∃ t, exec (.vecSmlse n dst src1 src2 imm rnd) s = .next t ∧ VecWrote n d (s.vecCodes n f rnd ((List.range k).map (fun i =>
      if (pair i).2.isZero then .inf true else (pair i).1.add (fnLog (pair i).2)))) s t) ∧
  (∀ (n : Fin 16) (dst src1 src2 : BitVec 8) (imm : BitVec 6) (rnd : Rnd) (f : Fmt) (s : State), s.coreRuns n = true →
    let d := descOf (s.desc n dst.toNat)
    let a := descOf (s.desc n src1.toNat)
    let k := d.rows
    let row (i : Nat) : List Val := ((s.vecVals n a (k * a.d0)).drop (i * a.d0)).take a.d0
    d.format = some f → d.d0 = 2 → s.checkOperand n d vecWrites k = .go → s.checkOperand n a vecReads k = .go →
    s.quietRead n a (a.rowsFor (k * a.d0)) →
    (∃ t, exec (.vecNstat n dst src1 src2 imm rnd) s = .next t ∧ VecWrote n d (s.vecCodes n f rnd ((List.range k).flatMap (fun i =>
      [(vecSum (row i)).1.div (.ofInt a.d0), (vecSum ((row i).map (fun v => roundF32 (v.mul v)))).1]))) s t) ∧
    (∀ w, s.auxDesc n (s.desc n dst.toNat) = some w → d.format = some .fp32 → (descOf w).format = some .fp32 → (descOf w).elems = k →
      s.checkOperand n (descOf w) (fun _ => true) (descOf w).rows = .go → s.quietRead n d (d.rowsFor (2 * k)) →
      let st (i : Nat) : Val × Val := ((s.vecVals n d (2 * k)).getD (2 * i) valZero, (s.vecVals n d (2 * k)).getD (2 * i + 1) valZero)
      let new (i : Nat) : Val × Val × Val := (smRow (st i).1 (st i).2 (row i)).1
      ∃ t, exec (.vecSmstat n dst src1 src2 imm rnd) s = .next t ∧ 
        VecWrote n (descOf w) ((List.range k).map (fun i => toF32 (new i).2.2))
          (s.writeOperand n d k ((List.range k).flatMap (fun i => [toF32 (new i).1, toF32 (new i).2.1]))) t)) ∧
  (∀ (n : Fin 16) (dst src1 src2 : BitVec 8) (imm : BitVec 6) (rnd : Rnd) (f : Fmt) (w : List Word) (s : State), s.coreRuns n = true →
    let d := descOf (s.desc n dst.toNat)
    let a := descOf (s.desc n src1.toNat)
    let sc := descOf w
    let nb := (d.d0 + 31) / 32
    let row (i : Nat) : List Val := ((s.vecVals n a d.elems).drop (i * d.d0)).take d.d0
    d.format = some f → s.checkOperand n d isBlock d.rows = .go →
    s.checkOperand n a (fun f => f == .fp32 || f == .bf16 || f == .fp16) (a.rowsFor d.elems) = .go → s.quietRead n a (a.rowsFor d.elems) →
    s.auxDesc n (s.desc n dst.toNat) = some w → sc.format = some .e8m0 → sc.layout = 0 → sc.d0 = nb → sc.d1 = d.d1 → sc.d2 = d.d2 → sc.d3 = d.d3 →
    s.checkOperand n sc (fun _ => true) d.rows = .go →
    let bs : List (Nat × List Nat × FmtFlags) := (List.range d.rows).flatMap (fun i =>
      quantRow f rnd (s.core n).seed ((s.ctx n).srStream.setWidth 64) (i * d.d0) (row i) nb)
    ∃ t, exec (.vecBquant n dst src1 src2 imm rnd) s = .next t ∧ ∃ fl c, t = (((s.writeOperand n d d.rows (bs.flatMap (fun b => b.2.1))).writeOperand n sc d.rows
      (bs.map (fun b => b.1))).coreFmt n fl).satAdd (R.CORE_PERF_VX n) F.CORE_PERF_VX_VEC_BUSY c)

/-- On a core that executes, a vector element-wise, elementary or reducing operation whose destination's check finds a format, layout or shape that the engine does not accept sets FMT_ILLEGAL in CORE_ERR; one whose destination names an address outside the core's own banks, where no illegal operand is recorded before or by it, sets ACCESS_DENIED there, and CORE_ERR_ADDR takes the address if neither address error was recorded before. No byte of memory and no core's state changes. (R182, R201, R222, R226) -/
def Obligations.EnginesStopOnIllegalOperands : Prop :=
  ∀ (n : Fin 16) (dst src1 src2 : BitVec 8) (imm : BitVec 6) (rnd : Rnd) (s : State), s.coreRuns n = true →
    let d := descOf (s.desc n dst.toNat)
    let stopped (t : State) : Prop := SameMem s t ∧ t.cores = s.cores ∧
      (s.checkOperand n d vecWrites d.rows = .illegal → (t.reg (R.CORE_ERR n)).getLsbD 4 = true) ∧
      (∀ x, s.checkOperand n d vecWrites d.rows = .denied x → (s.reg (R.CORE_ERR n)).getLsbD 4 = false → (t.reg (R.CORE_ERR n)).getLsbD 4 = false →
        (t.reg (R.CORE_ERR n)).getLsbD 5 = true ∧
        ((s.reg (R.CORE_ERR n)).getLsbD 5 = false → (s.reg (R.CORE_ERR n)).getLsbD 6 = false → (t.reg (R.CORE_ERR_ADDR n)).toNat = x % 2 ^ 48))
    s.checkOperand n d vecWrites d.rows ≠ .go → s.checkOperand n d vecWrites d.rows ≠ .wait →
    (∃ t, exec (.vecAdd n dst src1 src2 imm rnd) s = .next t ∧ stopped t) ∧
    (∃ t, exec (.vecMul n dst src1 src2 imm rnd) s = .next t ∧ stopped t) ∧
    (∃ t, exec (.vecFma n dst src1 src2 imm rnd) s = .next t ∧ stopped t) ∧
    (∃ t, exec (.vecMax n dst src1 src2 imm rnd) s = .next t ∧ stopped t) ∧
    (∃ t, exec (.vecMin n dst src1 src2 imm rnd) s = .next t ∧ stopped t) ∧
    (∃ t, exec (.vecCvt n dst src1 src2 imm rnd) s = .next t ∧ stopped t) ∧
    (∃ t, exec (.vecExp n dst src1 src2 imm rnd) s = .next t ∧ stopped t) ∧
    (∃ t, exec (.vecLog n dst src1 src2 imm rnd) s = .next t ∧ stopped t) ∧
    (∃ t, exec (.vecRecip n dst src1 src2 imm rnd) s = .next t ∧ stopped t) ∧
    (∃ t, exec (.vecRsqrt n dst src1 src2 imm rnd) s = .next t ∧ stopped t) ∧
    (∃ t, exec (.vecTanh n dst src1 src2 imm rnd) s = .next t ∧ stopped t) ∧
    (∃ t, exec (.vecSigmoid n dst src1 src2 imm rnd) s = .next t ∧ stopped t) ∧
    (∃ t, exec (.vecGelu n dst src1 src2 imm rnd) s = .next t ∧ stopped t) ∧
    (∃ t, exec (.vecRsum n dst src1 src2 imm rnd) s = .next t ∧ stopped t) ∧
    (∃ t, exec (.vecRmax n dst src1 src2 imm rnd) s = .next t ∧ stopped t)

/-- On a core that executes, with no read of its transfer operations outstanding: COPY and FILL of one run of 8-bit elements that the core may read and write, of good words, give byte i of the destination byte i of the source, or byte i mod 8 of the pattern in the G register that SRC names (the pattern starts anew with each run: log 53), and leave every other byte of memory alone. Where reading the whole source from near memory meets no bad word, no handover and reports nothing, and the destination passes the checks and meets no handover: COPY of any shape writes the elements read in order; IM2COL writes element k of row m from the tap and channel that R282 names, or the pad value; ZCOMP writes the zero-run stream of the source; ZDECOMP of a well-formed stream writes its elements. No other state changes but the beats counted. (R176, R217, R219, R220, R277, R281, R282, R288, R289, R290, R291, R650) -/
def Obligations.TransferOperationsMoveTensors : Prop :=
  (∀ (n : Fin 16) (dst src : BitVec 8) (k : Nat) (f : Fmt) (s : State), s.coreRuns n = true → s.opReads n = false →
    let d := descOf (s.desc n dst.toNat)
    let x := descOf (s.desc n src.toNat)
    d.format = some f → f.bits = 8 → d.layout = 0 → d.d1 = 1 → d.d2 = 1 → d.d3 = 1 →
    (∀ i, i < d.d0 → s.hit (s.coreAgent n) true (d.base + i) = .ok (k + i)) →
    (∃ t, exec (.xferFill n dst src) s = .next t ∧ SameRegs [R.CORE_PERF_VX n] s t ∧
      (∀ i, i < d.d0 → (t.rd (k + i)).toNat = ((s.ctx n).getG src.toNat).toNat / 256 ^ (i % 8) % 256) ∧
      ∀ a, (a < k ∨ k + d.d0 ≤ a) → t.rd a = s.rd a) ∧
    (∀ (j : Nat) (e : Fmt), x.format = some e → e.bits = 8 → x.layout = 0 → x.d1 = 1 → x.d2 = 1 → x.d3 = 1 → d.d0 ≤ x.d0 →
      (∀ i, i < d.d0 → s.hit (s.coreAgent n) false (x.base + i) = .ok (j + i) ∧ s.poisoned (j + i) 1 = false ∧ s.wordErr (j + i) = 0) →
      ∃ t, exec (.xferCopy n dst src) s = .next t ∧ SameRegs [R.CORE_PERF_VX n] s t ∧ (∀ i, i < d.d0 → t.rd (k + i) = s.rd (j + i)) ∧
        ∀ a, (a < k ∨ k + d.d0 ≤ a) → t.rd a = s.rd a)) ∧
  (∀ (n : Fin 16) (dst src : BitVec 8) (f e : Fmt) (y : XRead) (u : State) (s : State), s.coreRuns n = true → s.opReads n = false →
    s.setCore n (s.core n) = s →
    let d := descOf (s.desc n dst.toNat)
    let x := descOf (s.desc n src.toNat)
    s.xferShape d true = some f → s.xferShape x true = some e → f.bits = e.bits → d.elems ≤ x.elems →
    s.xferGather n f.bits d.elems (x.runsFor f.bits ((d.elems + x.d0 - 1) / x.d0)) 0 = (y, s) → y.wait = false → y.bad = none → y.far = [] →
    s.xferParts n f.bits (d.runs f.bits) y.parts = (u, false) →
    ∃ t, exec (.xferCopy n dst src) s = .next t ∧ t = u.xferBeats n ((partsLen y.parts * f.bits + 7) / 8)) ∧
  (∀ (n : Fin 16) (dst src : BitVec 8) (aux : BitVec 18) (f : Fmt) (cb : Nat) (y : XRead) (u : State) (s : State), s.coreRuns n = true →
    s.opReads n = false → s.setCore n (s.core n) = s →
    let d := { descOf (s.desc n dst.toNat) with d2 := 1, d3 := 1 }
    let x := { descOf (s.desc n src.toNat) with d3 := 1 }
    let cp := (x.d0 + cb - 1) / cb * cb
    let kh := aux.toNat / 2 ^ 14 % 16 + 1
    let kw := aux.toNat / 2 ^ 10 % 16 + 1
    let g := ((s.ctx n).getG (aux.toNat % 64)).toNat
    d.format = some f → s.xferShape x false = some f → x.cb = some cb → (d.layout = 0 ∨ d.layout = 3) → kh * kw * cp ≤ d.d0 →
    ((runsSpan (d.runs f.bits)).2 ≤ (runsSpan (x.runs f.bits)).1 ∨ (runsSpan (x.runs f.bits)).2 ≤ (runsSpan (d.runs f.bits)).1) →
    s.xferGather n f.bits (runsElems (x.wholeRuns f.bits)) (x.wholeRuns f.bits) 0 = (y, s) → y.wait = false → y.bad = none → y.far = [] →
    let codes := (List.range d.d1).flatMap (fun m => (List.range d.d0).map (fun k => im2colElem x cb aux.toNat g (gathered y.parts) (g % 2 ^ 16 % 2 ^ f.bits) m k))
    s.xferParts n f.bits (d.runs f.bits) [(0, codes)] = (u, false) →
    ∃ t, exec (.xferIm2col n dst src aux) s = .next t ∧ t = u.xferBeats n ((d.d1 * d.d0 * f.bits + 7) / 8)) ∧
  (∀ (n : Fin 16) (dst src : BitVec 8) (aux : BitVec 18) (f : Fmt) (y : XRead) (u : State) (s : State), s.coreRuns n = true → s.opReads n = false →
    s.setCore n (s.core n) = s →
    let d := descOf (s.desc n dst.toNat)
    let x := descOf (s.desc n src.toNat)
    let l := x.wholeRuns f.bits
    s.xferShape x false = some f → d.isBytes = true → 16 + (runsElems l + 31) / 32 * (4 + 4 * f.bits) ≤ d.d0 →
    s.xferGather n f.bits (runsElems l) l 0 = (y, s) → y.wait = false → y.bad = none → y.far = [] →
    let out := zStream x.fmt f.bits (aux.toNat % 2 ^ 16 % 2 ^ f.bits) (gathered y.parts)
    s.xferWrite n d.base out = (u, false) →
    ∃ t, exec (.xferZcomp n dst src aux) s = .next t ∧ t = u.xferBeats n out.length) ∧
  (∀ (n : Fin 16) (dst src : BitVec 8) (aux : BitVec 18) (f : Fmt) (y : XRead) (codes : List Nat) (u : State) (s : State), s.coreRuns n = true →
    s.opReads n = false → s.setCore n (s.core n) = s →
    let d := descOf (s.desc n dst.toNat)
    let x := descOf (s.desc n src.toNat)
    let k := runsElems (d.wholeRuns f.bits)
    s.xferShape d false = some f → x.isBytes = true →
    s.xferGather n 8 (runsElems (x.runs 8)) (x.runs 8) 0 = (y, s) → y.wait = false → y.bad = none → y.far = [] →
    let bytes := (gathered y.parts).map (fun c => BitVec.ofNat 8 c)
    16 ≤ bytes.length → sliceN bytes 14 1 = d.fmt → sliceN bytes 8 6 = k → leNat (bytes.take 8) ≤ bytes.length →
    zExpand f.bits (aux.toNat % 2 ^ 16 % 2 ^ f.bits) ((bytes.take (leNat (bytes.take 8))).drop 16) k ((k + 31) / 32) = (codes, false) →
    s.xferParts n f.bits (d.wholeRuns f.bits) [(0, codes)] = (u, false) →
    ∃ t, exec (.xferZdecomp n dst src aux) s = .next t ∧ t = u.xferBeats n ((codes.length * f.bits + 7) / 8))

/-- Where the bank is mapped and ON: a read alone at the head, of good words and with no new error, by a port of the owner's core, returns the bytes of its word or line and changes nothing else; a write alone stores its data there and nothing elsewhere. Of two writes of one word in a step, the lower-numbered port's stands, the other is discarded whole and counts in the bank's COLLISIONS. A read and a write of one word in a step: the read returns the bytes as they stood before the write. (R253, R254, R255, R262, R265, R267) -/
def Obligations.BanksServeOneLineAStep : Prop :=
  (∀ (b : Fin 1280) (x : BankAccess) (s : State), x.wdata = none → x.ecc = [] → x.port ≠ 5 → s.headHeld b x = false →
    (b.val < 1024 → s.coreActive (b.val / 64) = true) → s.fld (R.SPD_BANK_PWR b) F.SPD_BANK_PWR_STATE = 0 →
    (∀ i, i < (accSpan x).2 / 8 → s.poisoned (bankBase b + (accSpan x).1 + i * 8) 1 = false ∧
      Store.get (fun _ => 0) s.spd.ecc (bankBase b + (accSpan x).1 + i * 8) = 0) →
    ∃ t, exec (.bankAccessServe b [x]) s = .next t ∧
      t = s.emit (.memData x.req (bankBase b + (accSpan x).1) (s.rdBytes (bankBase b + (accSpan x).1) (accSpan x).2) false)) ∧
  (∀ (b : Fin 1280) (x : BankAccess) (d : List Byte) (s : State), x.wdata = some d → x.ecc = [] → x.port ≠ 5 → s.headHeld b x = false →
    (b.val < 1024 → s.coreActive (b.val / 64) = true) → s.fld (R.SPD_BANK_PWR b) F.SPD_BANK_PWR_STATE = 0 → d.length = (accSpan x).2 →
    ∃ t, exec (.bankAccessServe b [x]) s = .next t ∧ SameRegs [] s t ∧ t.cores = s.cores ∧ t.out = s.out ∧
      (∀ i, i < d.length → t.rd (bankBase b + (accSpan x).1 + i) = d.getD i 0) ∧
      ∀ a, (a < bankBase b + (accSpan x).1 ∨ bankBase b + (accSpan x).1 + d.length ≤ a) → t.rd a = s.rd a) ∧
  (∀ (b : Fin 1280) (x y : BankAccess) (d e : List Byte) (s : State), x.wdata = some d → y.wdata = some e → x.ecc = [] → y.ecc = [] →
    x.port < y.port → y.port ≠ 5 → x.port ≠ 5 → s.headHeld b x = false → s.headHeld b y = false → x.age < 6 → y.age < 6 → accTouches x y = true →
    x.off.toNat / 256 = y.off.toNat / 256 → d.length = (accSpan x).2 →
    (b.val < 1024 → s.coreActive (b.val / 64) = true) → s.fld (R.SPD_BANK_PWR b) F.SPD_BANK_PWR_STATE = 0 →
    ∃ t, exec (.bankAccessServe b [x, y]) s = .next t ∧
      (∀ i, i < d.length → t.rd (bankBase b + (accSpan x).1 + i) = d.getD i 0) ∧
      (∀ a, (a < bankBase b + (accSpan x).1 ∨ bankBase b + (accSpan x).1 + d.length ≤ a) → t.rd a = s.rd a) ∧
      t.fld (R.SPD_BANK_STAT b) F.SPD_BANK_STAT_COLLISIONS =
        min (2 ^ F.SPD_BANK_STAT_COLLISIONS.w - 1) (s.fld (R.SPD_BANK_STAT b) F.SPD_BANK_STAT_COLLISIONS + 1))

/-- A write of SPD_BANK_OWNER that is taken, with a code the bank may have and no handover, transition or COMMIT in progress: of the present owner it changes SHARED_WRITE alone; of another it gives every bank of the region the new owner, the old one as PREV_OWNER, and PENDING. HANDOVER_COMPLETE clears PENDING of the region. A taken write of SPD_BANK_PWR with a valid TARGET sets the region's TARGET and its TRANSITION where STATE differs; an invalid one or one in progress sets PWR_REJECT. When the transition is done every bank of the region takes its TARGET as STATE; a bank that leaves or enters OFF reads as zeros, and no other bank's memory changes. CORE_INJECT with ARM set arms an error in the engine and column it names. (R209, R257, R258, R259, R264, R266) -/
def Obligations.BankOwnershipAndPower : Prop :=
  (∀ (b : Fin 1280) (r : Req) (h : Half) (v : Word) (s : State), s.takesWrite r (R.SPD_BANK_OWNER b) = true →
    let old := s.fld (R.SPD_BANK_OWNER b) F.SPD_BANK_OWNER_OWNER
    let code := if h = .high then old else F.SPD_BANK_OWNER_OWNER.get v
    let sw := if h = .low then s.fld (R.SPD_BANK_OWNER b) F.SPD_BANK_OWNER_SHARED_WRITE else F.SPD_BANK_OWNER_SHARED_WRITE.get v
    s.ownerAllowed b code = true → s.bankBusy b = false →
    ∃ t, exec (.spdBankOwnerWrite b r h v) s = .next t ∧ RegsOnly ((s.regionBanks b).map R.SPD_BANK_OWNER) s t ∧
      ∀ i ∈ s.regionBanks b, t.fld (R.SPD_BANK_OWNER i) F.SPD_BANK_OWNER_SHARED_WRITE = sw ∧
        (code = old → t.fld (R.SPD_BANK_OWNER i) F.SPD_BANK_OWNER_OWNER = s.fld (R.SPD_BANK_OWNER i) F.SPD_BANK_OWNER_OWNER ∧
          t.bit (R.SPD_BANK_OWNER i) F.SPD_BANK_OWNER_PENDING = s.bit (R.SPD_BANK_OWNER i) F.SPD_BANK_OWNER_PENDING) ∧
        (code ≠ old → t.fld (R.SPD_BANK_OWNER i) F.SPD_BANK_OWNER_OWNER = code ∧ t.fld (R.SPD_BANK_OWNER i) F.SPD_BANK_OWNER_PREV_OWNER = old ∧
          t.bit (R.SPD_BANK_OWNER i) F.SPD_BANK_OWNER_PENDING = true)) ∧
  (∀ (b : Fin 1280) (s : State), ∃ t, exec (.handoverComplete b) s = .next t ∧ RegsOnly ((s.regionBanks b).map R.SPD_BANK_OWNER) s t ∧
    ∀ i ∈ s.regionBanks b, t.bit (R.SPD_BANK_OWNER i) F.SPD_BANK_OWNER_PENDING = false ∧
      t.fld (R.SPD_BANK_OWNER i) F.SPD_BANK_OWNER_OWNER = s.fld (R.SPD_BANK_OWNER i) F.SPD_BANK_OWNER_OWNER) ∧
  (∀ (b : Fin 1280) (r : Req) (h : Half) (v : Word) (s : State), s.takesWrite r (R.SPD_BANK_PWR b) = true → h ≠ .high →
    let x := F.SPD_BANK_PWR_TARGET.get v
    ∃ t, exec (.spdBankPwrWrite b r h v) s = .next t ∧
      (if x = 3 ∨ s.bankBusy b = true then RegsOnly [R.SPD_STAT] s t ∧ t.bit R.SPD_STAT F.SPD_STAT_PWR_REJECT = true
      else RegsOnly ((s.regionBanks b).map R.SPD_BANK_PWR) s t ∧ ∀ i ∈ s.regionBanks b, t.fld (R.SPD_BANK_PWR i) F.SPD_BANK_PWR_TARGET = x ∧
        t.fld (R.SPD_BANK_PWR i) F.SPD_BANK_PWR_STATE = s.fld (R.SPD_BANK_PWR i) F.SPD_BANK_PWR_STATE ∧
        t.bit (R.SPD_BANK_PWR i) F.SPD_BANK_PWR_TRANSITION = decide (s.fld (R.SPD_BANK_PWR i) F.SPD_BANK_PWR_STATE ≠ x))) ∧
  (∀ (b : Fin 1280) (s : State), s.bit (R.SPD_BANK_PWR b) F.SPD_BANK_PWR_TRANSITION = true →
    ∃ t, exec (.bankPowerTransitionDone b) s = .next t ∧ SameRegs ((s.regionBanks b).map R.SPD_BANK_PWR) s t ∧
      (∀ i ∈ s.regionBanks b, t.fld (R.SPD_BANK_PWR i) F.SPD_BANK_PWR_STATE = s.fld (R.SPD_BANK_PWR i) F.SPD_BANK_PWR_TARGET ∧
        t.bit (R.SPD_BANK_PWR i) F.SPD_BANK_PWR_TRANSITION = false ∧
        (s.fld (R.SPD_BANK_PWR i) F.SPD_BANK_PWR_STATE = 2 ∨ s.fld (R.SPD_BANK_PWR i) F.SPD_BANK_PWR_TARGET = 2 →
          ∀ o, o < 0x80000 → t.rd (bankBase i + o) = 0)) ∧
      ∀ a, (∀ i ∈ s.regionBanks b, a < bankBase i ∨ bankBase i + 0x80000 ≤ a) → t.rd a = s.rd a) ∧
  (∀ (n : Fin 16) (r : Req) (h : Half) (v : Word) (s : State), s.takesWrite r (R.CORE_INJECT n) = true → h ≠ .high → v.getLsbD 8 = true →
    ∃ t, exec (.coreInjectWrite n r h v) s = .next t ∧ CoreOnly n s t ∧
      t.core n = { s.core n with inject := some (if v.getLsbD 7 then MatEng.b else .a, F.CORE_INJECT_COLUMN.get v) })

/-- In a state in order, ECC_WRITEBACK of a line whose waiting words all hold a single-bit error clears these errors and their waiting, and changes nothing else. PATROL_SCRUB_LINE over a scratchpad without errors changes nothing but PASSES, which counts up at the last line; a lone single-bit error of an ON bank, whose column stays below the threshold, is cleared and counts in ECC_CORR. COLUMN_REPAIR_LINE of a repair in progress clears the single-bit errors of its next line and counts the line. COLUMN_REPAIR_DONE after 2,048 lines counts a spare column, drops the repair, and starts the next one that waits or clears ACTIVE. No byte of memory changes. (R267, R268, R269, R547, R556) -/
def Obligations.ScratchpadMaintenanceCorrects : Prop :=
  (∀ (b : Fin 1280) (line : Fin 2048) (s : State), s.wf = true →
    (∀ w ∈ s.badWords b line, w ∈ s.spd.wb → Store.get (fun _ => 0) s.spd.ecc w % 2 = 1) →
    ∃ t, exec (.eccWriteback b line) s = .next t ∧ { t with spd := s.spd } = s ∧
      (∀ w ∈ s.badWords b line, w ∈ s.spd.wb → Store.get (fun _ => 0) t.spd.ecc w = 0 ∧ w ∉ t.spd.wb) ∧
      ∀ w, (w ∉ s.badWords b line ∨ w ∉ s.spd.wb) → Store.get (fun _ => 0) t.spd.ecc w = Store.get (fun _ => 0) s.spd.ecc w ∧ (w ∈ t.spd.wb ↔ w ∈ s.spd.wb)) ∧
  (∀ (line : Fin 2048) (s : State), s.spd.ecc = [] → ∃ t, exec (.patrolScrubLine line) s = .next t ∧ RegsOnly [R.SPD_SCRUB] s t ∧
    t.fld R.SPD_SCRUB F.SPD_SCRUB_PASSES = (if line.val = 2047 then (s.fld R.SPD_SCRUB F.SPD_SCRUB_PASSES + 1) % 2 ^ F.SPD_SCRUB_PASSES.w
      else s.fld R.SPD_SCRUB F.SPD_SCRUB_PASSES)) ∧
  (∀ (line : Fin 2048) (w e : Nat) (s : State), s.spd.ecc = [(w, e)] → e % 2 = 1 → (w - bankBase (bankOfKey w)) / 256 = line.val → bankOfKey w < 1280 →
    s.patrolled (bankOfKey w) = true →
    Store.get (fun _ => 0) s.rep.cols (bankOfKey w * 4096 + (e - 1) / 2) + 1 ≠ max 1 (s.fld R.FLT_POLICY F.FLT_POLICY_COLUMN_THRESH) →
    ∃ t, exec (.patrolScrubLine line) s = .next t ∧ SameMem s t ∧ t.spd.ecc = [] ∧ w ∉ t.spd.wb ∧
      t.fld (R.SPD_BANK_STAT (bankOfKey w)) F.SPD_BANK_STAT_ECC_CORR =
        min (2 ^ F.SPD_BANK_STAT_ECC_CORR.w - 1) (s.fld (R.SPD_BANK_STAT (bankOfKey w)) F.SPD_BANK_STAT_ECC_CORR + 1)) ∧
  (∀ (s : State), let n := s.fld R.SPD_REPAIR F.SPD_REPAIR_LINES
    s.bit R.SPD_REPAIR F.SPD_REPAIR_ACTIVE = true → n < 2048 →
    ∃ t, exec .columnRepairLine s = .next t ∧ SameRegs [R.SPD_REPAIR] s t ∧ SameMem s t ∧ t.fld R.SPD_REPAIR F.SPD_REPAIR_LINES = n + 1 ∧
      ∀ w ∈ s.badWords (s.fld R.SPD_REPAIR F.SPD_REPAIR_BANK) n, Store.get (fun _ => 0) s.spd.ecc w % 2 = 1 → Store.get (fun _ => 0) t.spd.ecc w = 0) ∧
  (∀ (b col : Nat) (rest : List (Nat × Nat)) (s : State), s.rep.colq = (b, col) :: rest → b < 1280 → s.bit R.SPD_REPAIR F.SPD_REPAIR_ACTIVE = true →
    s.fld R.SPD_REPAIR F.SPD_REPAIR_LINES = 2048 →
    ∃ t, exec .columnRepairDone s = .next t ∧ SameRegs ([R.SPD_BANK_STAT b, R.SPD_REPAIR] ++ s.eventRegs) s t ∧ SameMem s t ∧ t.rep.colq = rest ∧
      t.fld (R.SPD_BANK_STAT b) F.SPD_BANK_STAT_SPARE_COLS =
        min (2 ^ F.SPD_BANK_STAT_SPARE_COLS.w - 1) (s.fld (R.SPD_BANK_STAT b) F.SPD_BANK_STAT_SPARE_COLS + 1) ∧
      t.bit R.SPD_REPAIR F.SPD_REPAIR_ACTIVE = !rest.isEmpty ∧
      ∀ k c r, rest = (k, c) :: r → k < 1280 → t.fld R.SPD_REPAIR F.SPD_REPAIR_BANK = k ∧ t.fld R.SPD_REPAIR F.SPD_REPAIR_LINES = 0)

/-- A read within HBM that meets no error and no poison returns the bytes and changes nothing else; a write within HBM stores its bytes, leaves all other memory and all registers alone and takes the poison from the 32-byte units it covers whole. A scrub read of a pseudo-channel with no poison in its unit moves that scrubber on by one unit, back to 0 after the last, and changes nothing else but HBM_SCRUB. A 64-bit write of HBM_RETIRE_REQ from host software or the management processor with an HBM address whose row is neither retired nor held, and with a spare row free, holds the row; at HBM_ROW_RETIRE_DONE the oldest held row joins the remapped ones, sets RETIRED, counts for its stack, and its fuse record waits to be burnt, where a record is free. (R465, R466, R467, R468, R469, R471, R475, R538) -/
def Obligations.MemoryControllersServeAndRetire : Prop :=
  (∀ (addr : BitVec 48) (len : BitVec 9) (s : State), addr.toNat + min 256 len.toNat ≤ s.hbmBytes → s.poisonIn addr.toNat (min 256 len.toNat) = [] →
    ∃ t, exec (.hbmAccess (.read addr len [])) s = .next t ∧
      t = s.emit (.memData .other addr.toNat (s.rdBytes addr.toNat (min 256 len.toNat)) false)) ∧
  (∀ (addr : BitVec 48) (l : List Byte) (s : State), l.length ≤ 256 → addr.toNat + l.length ≤ s.hbmBytes →
    ∃ t, exec (.hbmAccess (.write addr l)) s = .next t ∧ SameRegs [] s t ∧ { t with mem := s.mem, poison := s.poison } = s ∧
      (∀ i, i < l.length → t.rd (addr.toNat + i) = l.getD i 0) ∧ (∀ a, (a < addr.toNat ∨ addr.toNat + l.length ≤ a) → t.rd a = s.rd a) ∧
      ∀ u, u ∈ t.poison ↔ u ∈ s.poison ∧ ¬ (addr.toNat ≤ u ∧ u + 32 ≤ addr.toNat + l.length)) ∧
  (∀ (pc : Fin 128) (s : State), let i := Store.get (fun _ => 0) s.hbm.scrub pc
    pc.val < 2 ^ s.pcBits → s.poisonIn (s.hbmAddr pc i) 256 = [] →
    ∃ t, exec (.hbmPatrolScrub pc) s = .next t ∧ SameRegs [R.HBM_SCRUB] s t ∧ SameMem s t ∧ t.hbm.rows = s.hbm.rows ∧ t.hbm.held = s.hbm.held ∧
      Store.get (fun _ => 0) t.hbm.scrub pc = (if i + 1 = 4718592 then 0 else i + 1) ∧
      (∀ k, k ≠ pc.val → Store.get (fun _ => 0) t.hbm.scrub k = Store.get (fun _ => 0) s.hbm.scrub k) ∧
      (i + 1 ≠ 4718592 → t.reg R.HBM_SCRUB = s.reg R.HBM_SCRUB)) ∧
  (∀ (r : Req) (v : Word) (s : State), (r = .host ∨ r = .bar2 ∨ r = .mgt) → s.hears r R.HBM_RETIRE_REQ = true →
    let a := F.HBM_RETIRE_REQ_ADDR.get v
    a < s.hbmBytes → s.hbmRow a ∉ s.hbm.rows → s.hbmRow a ∉ s.hbm.held →
    ((s.hbm.rows ++ s.hbm.held).filter (fun x => x / 2097152 == s.hbmRow a / 2097152)).length < 128 →
    ∃ t, exec (.hbmRetireReqWrite r .full v) s = .next t ∧ { t with hbm := s.hbm } = s ∧ t.hbm.held = s.hbm.held ++ [s.hbmRow a] ∧ t.hbm.rows = s.hbm.rows) ∧
  (∀ (row : Nat) (rest : List Nat) (s : State), s.hbm.held = row :: rest → row < 2 ^ 28 → s.fusesFull = false →
    let k := row / 2097152 / 32
    ∃ t, exec .hbmRowRetireDone s = .next t ∧ SameRegs ([R.HBM_STAT, R.HBM_STACK_STAT k] ++ s.eventRegs) s t ∧ SameMem s t ∧
      t.hbm.held = rest ∧ t.hbm.rows = s.hbm.rows ++ [row] ∧ t.bit R.HBM_STAT F.HBM_STAT_RETIRED = true ∧
      t.fld (R.HBM_STACK_STAT k) F.HBM_STACK_STAT_RETIRED = (s.fld (R.HBM_STACK_STAT k) F.HBM_STACK_STAT_RETIRED + 1) % 2 ^ F.HBM_STACK_STAT_RETIRED.w ∧
      t.rep.burns = s.rep.burns ++ [rowRec k (row / 2097152 % 32) (row % 2097152)])

/-- A taken write of HBM_RETRAIN_CTL with REQ set and a channel that is present starts its retrain when none is in progress. A parity error of a present channel counts in LINK_ERR; with AUTO off nothing else but the channel's error times changes. A retrain that ends with none waiting clears RETRAINING and counts in RETRAINS. A temperature reading of the stacks present stores each temperature and its refresh code, and sets HOT exactly when one is above 105 degrees. (R472, R473, R476) -/
def Obligations.RetrainingAndTemperatures : Prop :=
  (∀ (r : Req) (h : Half) (v : Word) (s : State), s.takesWrite r R.HBM_RETRAIN_CTL = true → h ≠ .high → F.HBM_RETRAIN_CTL_REQ.get v = 1 →
    s.hbm.retrain = none → ∀ ch, (s.writeFields R.HBM_RETRAIN_CTL h v).fld R.HBM_RETRAIN_CTL F.HBM_RETRAIN_CTL_CH = ch →
    ch < s.fld R.GLB_CAPS F.GLB_CAPS_HBM_STACKS * 16 →
    ∃ t, exec (.hbmRetrainReq r h v) s = .next t ∧ SameRegs [R.HBM_RETRAIN_CTL, R.HBM_STAT] s t ∧ SameMem s t ∧ t.hbm.retrain = some ch ∧
      t.bit R.HBM_STAT F.HBM_STAT_RETRAINING = true) ∧
  (∀ (ch : Fin 64) (s : State), s.hbmChannel ch = true →
    ∃ t, exec (.hbmLinkError ch) s = .next t ∧ SameMem s t ∧
      t.fld (R.HBM_STACK_ECC (ch.val / 16)) F.HBM_STACK_ECC_LINK_ERR =
        min (2 ^ F.HBM_STACK_ECC_LINK_ERR.w - 1) (s.fld (R.HBM_STACK_ECC (ch.val / 16)) F.HBM_STACK_ECC_LINK_ERR + 1) ∧
      (s.bit R.HBM_RETRAIN_CTL F.HBM_RETRAIN_CTL_AUTO = false → SameRegs [R.HBM_STACK_ECC (ch.val / 16)] s t ∧ t.hbm.retrain = s.hbm.retrain) ∧
      (s.bit R.HBM_RETRAIN_CTL F.HBM_RETRAIN_CTL_AUTO = true → s.hbm.retrain = none → ch.val ∉ s.hbm.retrainq →
        s.fld R.HBM_RETRAIN_CTL F.HBM_RETRAIN_CTL_LINK_THRESH ≤
          ((Store.get (fun _ => ([] : List Nat)) s.hbm.link ch).filter (fun x => decide (s.time.ticks < x + 250000))).length + 1 →
        t.hbm.retrain = some ch.val ∧ t.bit R.HBM_STAT F.HBM_STAT_RETRAINING = true)) ∧
  (∀ (ch : Nat) (s : State), s.hbm.retrain = some ch → ch < 64 → s.hbm.retrainq = [] →
    ∃ t, exec .hbmRetrainDone s = .next t ∧ SameRegs [R.HBM_STAT, R.HBM_STACK_STAT (ch / 16)] s t ∧ SameMem s t ∧ t.hbm.retrain = none ∧
      t.bit R.HBM_STAT F.HBM_STAT_RETRAINING = false ∧ t.fld (R.HBM_STACK_STAT (ch / 16)) F.HBM_STACK_STAT_RETRAINS =
        (s.fld (R.HBM_STACK_STAT (ch / 16)) F.HBM_STACK_STAT_RETRAINS + 1) % 2 ^ F.HBM_STACK_STAT_RETRAINS.w) ∧
  (∀ (temps : List (BitVec 8)) (s : State), let n := min temps.length (s.fld R.GLB_CAPS F.GLB_CAPS_HBM_STACKS)
    n ≤ 4 → ∃ t, exec (.hbmTempRead temps) s = .next t ∧ SameMem s t ∧ SameRegs (R.HBM_STAT :: (List.range n).map R.HBM_STACK_STAT) s t ∧
      (∀ k, k < n → let x := (temps.getD k 0).toInt
        t.fld (R.HBM_STACK_STAT k) F.HBM_STACK_STAT_TEMP = (temps.getD k 0).toNat ∧
        t.fld (R.HBM_STACK_STAT k) F.HBM_STACK_STAT_REFRESH = (if x ≤ 85 then 0 else if x ≤ 95 then 1 else 2)) ∧
      (t.bit R.HBM_STAT F.HBM_STAT_HOT = true ↔ ∃ k, k < n ∧ 105 < (temps.getD k 0).toInt))

/-- For a command that its edge engine executes and that is not cut: where the parameter block reads good and breaks no check, no VALID format field differs, every operand lies in HBM or in shared banks the engine owns, the reads meet no handover, no poison and no ECC error and the writes no handover, then the command ends DONE, the memory is that of the outputs written in descriptor order, each the value that R297, R301 or R302 gives for its pixel and channel (a free value where the spec states none), and LAST_ROWS is the number of output rows. No other canton's command, no core and no other queue's command changes. (R292, R293, R295, R297, R299, R301, R302, R304, R305) -/
def Obligations.EdgeCommandsComputeTheirLayer : Prop :=
  ∀ (q : BitVec 16) (c : Cmd) (s : State), s.atUnit q.toNat 3 c = true → s.qInst q.toNat < 2 → c.phase = .running → s.poison = [] → s.spd.ecc = [] →
    let g := edgeAgent (s.qInst q.toNat) (s.qCanton q.toNat)
    let a := c.pl 0 8
    let p := edgeP (s.readMem g a 128).bytes
    let fi := p.i.format.getD .int8
    let fo := p.o.format.getD .int8
    let fw := p.w.format.getD .int8
    let ir := ({ p.i with d3 := 1 } : Desc).runs fi.bits
    a % 8 = 0 → s.unitSpan g a 128 = true → zeroBytes c.desc 32 32 = true → (s.readMem g a 128).wait = false →
    c.fmtDiffers 0 p.i.fmt = false → c.fmtDiffers 2 p.o.fmt = false → s.unitRuns g ir = true → (s.readRuns g fi.bits ir).wait = false →
    let layer (conv : Bool) (at' : Nat → Nat → Nat → Nat → EdgeOut) (o : Out) : Prop :=
      let od := p.outDesc conv
      let total := od.d1 * od.d2
      s.unitRuns g (od.runsFor fo.bits total) = true →
      let outs := (List.range (total * od.d0)).map (fun k =>
        at' (srDraw c.seed (c.seq.setWidth 64) (BitVec.ofNat 64 k)) (k / od.d0 % od.d1) (k / od.d0 / od.d1) (k % od.d0))
      let w := s.writeRuns g fo.bits (od.runsFor fo.bits total) (edgeCodes s.freeCtr fo.bits 0 outs)
      w.wait = false → ∃ t, o = .next t ∧ Ended q.toNat c stDone s t ∧ t.mem = w.state.mem ∧ t.cores = s.cores ∧
        (∀ r, r ≠ q.toNat → t.queue r = s.queue r) ∧
        t.fld (R.EDGE_STAT (s.qInst q.toNat)) F.EDGE_STAT_LAST_ROWS = od.d2 % 2 ^ F.EDGE_STAT_LAST_ROWS.w
    let codes := (s.readRuns g fi.bits ir).codes
    (c.opcode = 1 → p.badConv = false → c.fmtDiffers 1 p.w.fmt = false → s.unitRuns g (p.w.runs fw.bits) = true →
      (p.req ≠ 0 → s.unitSpan g p.req (8 * p.reqN) = true ∧ (s.readMem g p.req (8 * p.reqN)).wait = false) → (s.readRuns g fw.bits (p.w.runs fw.bits)).wait = false →
      layer true (fun d x y k => p.convAt codes (s.readRuns g fw.bits (p.w.runs fw.bits)).codes
        (if p.req = 0 then [] else (s.readMem g p.req (8 * p.reqN)).bytes) d x y k) (exec (.edgeConv q 0 .none) s)) ∧
    (c.opcode = 2 → p.badPool = false → layer false (fun d x y k => p.poolAt codes d x y k) (exec (.edgePool q 0) s)) ∧
    (c.opcode = 3 → p.badResize = false → layer false (fun d x y k => p.resizeAt codes d x y k) (exec (.edgeResize q 0) s))

/-- For a command that its edge engine executes and whose block reads good: parameters that break a check of its operation end it REJECTED with LAST_STATUS showing it; where they break none and the operands are the engine's own, an ECC fault sets ECC_UNCORR, a residue fault sets RESIDUE and counts, and the command ends INTEGRITY. No byte of memory changes. (R294, R296, R300, R304, R437, R442) -/
def Obligations.EdgeFaultsStopTheCommand : Prop :=
  ∀ (q : BitVec 16) (c : Cmd) (done : Nat) (s : State), s.atUnit q.toNat 3 c = true → s.poison = [] → s.spd.ecc = [] → s.qInst q.toNat < 2 →
    let e := s.qInst q.toNat
    let g := edgeAgent e (s.qCanton q.toNat)
    let a := c.pl 0 8
    let p := edgeP (s.readMem g a 128).bytes
    a % 8 = 0 → s.unitSpan g a 128 = true → zeroBytes c.desc 32 32 = true → (s.readMem g a 128).wait = false →
    let rejected (o : Out) : Prop := ∃ t d, o = .next t ∧ SameMem s t ∧ t.head q.toNat = some d ∧ d.phase = .ended ∧ d.status = worse stRejected c.status ∧
      t.fld (R.EDGE_STAT e) F.EDGE_STAT_LAST_STATUS = 3
    (c.opcode = 1 → p.badConv = true → ∀ f, rejected (exec (.edgeConv q done f) s)) ∧
    (c.opcode = 2 → p.badPool = true → rejected (exec (.edgePool q done) s)) ∧
    (c.opcode = 3 → p.badResize = true → rejected (exec (.edgeResize q done) s)) ∧
    (let od := p.outDesc true
     let fo := p.o.format.getD .int8
     c.opcode = 1 → p.badConv = false → c.fmtDiffers 0 p.i.fmt = false → c.fmtDiffers 1 p.w.fmt = false → c.fmtDiffers 2 p.o.fmt = false →
      s.unitRuns g (({ p.i with d3 := 1 } : Desc).runs (p.i.format.getD .int8).bits) = true → s.unitRuns g (p.w.runs (p.w.format.getD .int8).bits) = true →
      s.unitRuns g (od.runsFor fo.bits (od.d1 * od.d2)) = true → (p.req ≠ 0 → s.unitSpan g p.req (8 * p.reqN) = true) →
      (∃ t, exec (.edgeConv q done .ecc) s = .next t ∧ SameMem s t ∧ Ended q.toNat c stIntegrity s t ∧ t.bit (R.EDGE_STAT e) F.EDGE_STAT_ECC_UNCORR = true) ∧
      (∃ t, exec (.edgeConv q done .residue) s = .next t ∧ SameMem s t ∧ Ended q.toNat c stIntegrity s t ∧ t.bit (R.EDGE_STAT e) F.EDGE_STAT_RESIDUE = true ∧
        t.fld (R.EDGE_CNT e) F.EDGE_CNT_RESIDUE_CNT = min (2 ^ F.EDGE_CNT_RESIDUE_CNT.w - 1) (s.fld (R.EDGE_CNT e) F.EDGE_CNT_RESIDUE_CNT + 1)))

/-- For a command that the manager executes and that is not cut, on a context open and with every descriptor behind its entries readable: OPEN of a closed context takes the lowest free block of the map's size, shows the context's registers and empties its lists; CLOSE clears the context's registers; APPEND of committed tokens that fit writes them behind the lists; FORK takes the source's entries below TOKENS with one more reference each; TRUNCATE cuts the lists; SCORE decays and feeds the pages' scores; PIN sets or clears PINNED; EVICT releases pages in the order of R327 until CHARGE is at most its target; VERIFY_COMMIT keeps the accepted nodes of every pending list. Each ends DONE or with a worse condition of its own, and the lists stand as computed. No register outside KV, the pool's and the context's changes for OPEN and CLOSE. (R313, R316, R319, R321, R322, R324, R325, R326, R327, R330, R442) -/
def Obligations.KvCommandsWorkOnTheirContext : Prop :=
  (∀ (q : BitVec 16) (c : Cmd) (a : Nat) (s : State), s.atUnit q.toNat 4 c = true → c.opcode = 1 →
    let x := c.context
    let n := s.qCanton q.toNat
    let layers := c.pl 2 2
    let len := c.pl 4 2
    s.bit (R.KV_CTX_STAT x) F.KV_CTX_STAT_OPEN = false → c.pl 0 1 < 8 → (s.kvClass n (c.pl 0 1)).heads ≠ 0 → c.pl 1 1 = 0 → c.pl 6 2 = 0 →
    1 ≤ layers → layers ≤ 256 → 1 ≤ len → len ≤ 4096 → valZero.lt (ofF32 (c.pl 12 4)) = true → valOne.lt (ofF32 (c.pl 12 4)) = false →
    zeroBytes c.desc 40 24 = true → c.fmtDiffers 0 (s.kvClass n (c.pl 0 1)).fmt = false →
    (s.kvBegin q.toNat c 0).freeBlock n (mapBytes layers len) = some a → a < 2 ^ 40 →
    ∃ t, exec (.kvOpen q) s = .next t ∧ Ended q.toNat c stDone s t ∧ t.bit (R.KV_CTX_STAT x) F.KV_CTX_STAT_OPEN = true ∧
      t.fld (R.KV_CTX_STAT x) F.KV_CTX_STAT_CANTON = n % 2 ^ F.KV_CTX_STAT_CANTON.w ∧ t.fld (R.KV_CTX_STAT x) F.KV_CTX_STAT_CLASS = c.pl 0 1 ∧
      t.fld (R.KV_CTX_STAT x) F.KV_CTX_STAT_LAYERS = layers ∧ t.fld (R.KV_CTX_STAT x) F.KV_CTX_STAT_LIST_LEN = len ∧
      t.fld (R.KV_CTX_MAP x) F.KV_CTX_MAP_ADDR = a / 4096 % 2 ^ F.KV_CTX_MAP_ADDR.w ∧ (∀ i, i < 8 * layers → t.rd (a + i) = 0) ∧
      ∀ i, (i < a ∨ a + 8 * layers ≤ i) → t.rd i = s.rd i) ∧
  (∀ (q : BitVec 16) (c : Cmd) (refetch : Nat) (s : State), s.atUnit q.toNat 4 c = true → c.phase = .running →
    s.bit (R.KV_CTX_STAT c.context) F.KV_CTX_STAT_OPEN = true →
    let n := q.toNat
    let b := s.kvBegin n c refetch
    let k := b.kvCtx c.context
    let w : KvWork := { s := b, ls := b.kvLists k }
    let lo := c.pl 0 2
    let cnt := c.pl 2 2
    (∀ p ∈ w.entries 0 w.ls.length, b.descBadKv p.2 = none) →
    (c.opcode = 2 → zeroBytes c.desc 24 40 = true →
      ∃ t, exec (.kvClose q 0 refetch) s = .next t ∧ Ended n c stDone s t ∧ t.reg (R.KV_CTX_STAT c.context) = 0 ∧ t.reg (R.KV_CTX_MAP c.context) = 0 ∧
        t.reg (R.KV_CTX_CHARGE c.context) = 0 ∧ t.reg (R.KV_CTX_PARAM c.context) = 0) ∧
    (∀ u, c.opcode = 3 → lo + cnt ≤ k.layers → 1 ≤ c.pl 4 2 → c.pl 4 2 ≤ 4096 → 4 ≤ c.pl 6 1 → c.pl 6 1 ≤ 12 → c.pl 7 1 = 0 → s.srcBad (c.pl 8 8) = false →
      c.pl 16 8 = 0 → zeroBytes c.desc 48 16 = true → c.fmtDiffers 0 (s.kvClass k.canton k.cls).fmt = false → s.poison = [] → s.spd.ecc = [] →
      (∀ i, i < cnt → (w.list (lo + i)).spec = 0 ∧ (w.list (lo + i)).ents.length + (w.list (lo + i)).newPages (c.pl 4 2) (c.pl 6 1) ≤ k.listLen) →
      let x := b.readMem (kvAgent k.canton) (c.pl 8 8) (cnt * c.pl 4 2 * k.tb)
      x.wait = false →
      w.appendLists k lo (c.pl 6 1) (c.pl 4 2) false (fun i j => (x.bytes.drop ((i * c.pl 4 2 + j) * k.tb)).take k.tb) cnt (cnt * c.pl 4 2) = some u →
      u.fits k = true →
      ∃ t, exec (.kvAppend q 0 refetch) s = .next t ∧ Ended n c stDone s t ∧ t = ({ u with s := u.s.cmdFlags n (0 ||| x.flags) } : KvWork).finish k n stDone) ∧
    (let y := c.pl 0 2
     let src := s.kvCtx y
     let lists := (s.kvLists src).map (fun l => l.forked (c.pl 4 4))
     c.opcode = 4 → y < 4096 → c.pl 2 2 = 0 → zeroBytes c.desc 32 32 = true → s.bit (R.KV_CTX_STAT y) F.KV_CTX_STAT_OPEN = true →
     src.canton = k.canton → src.cls = k.cls → src.layers = k.layers → (∀ l ∈ s.kvLists k, l.ents = []) → (∀ l ∈ s.kvLists src, c.pl 4 4 ≤ l.len) →
     (∀ l ∈ s.kvLists src, ∀ e ∈ l.ents, b.descBadKv e = none) → b.refTooHigh (lists.flatMap (fun l => l.ents)) = false →
     (∀ l ∈ lists, l.ents.length ≤ k.listLen) → ({ w with ls := lists } : KvWork).fits k = true →
     ∃ t, exec (.kvFork q 0 refetch) s = .next t ∧ Ended n c stDone s t ∧
       t = ({ w with s := b.refAll (lists.flatMap (fun l => l.ents)), ls := lists ++ w.ls.drop k.layers } : KvWork).finish k n stDone) ∧
    (c.opcode = 5 → lo + cnt ≤ k.layers → zeroBytes c.desc 32 32 = true → (∀ i, i < cnt → c.pl 4 4 ≤ (s.kvList k (lo + i)).len) →
      ∃ t, exec (.kvTruncate q 0 refetch) s = .next t ∧ Ended n c stDone s t ∧
        t = ((List.range cnt).foldl (fun (v : KvWork) i => v.cutList k (lo + i) (c.pl 4 4) (min (v.list (lo + i)).len (c.pl 4 4))) w).finish k n stDone) ∧
    (c.opcode = 7 → (lo = 0xFFFF ∨ lo < k.layers) → c.pl 6 1 ≤ 1 → c.pl 7 1 = 0 → zeroBytes c.desc 32 32 = true →
      ∃ t, exec (.kvPin q 0 refetch) s = .next t ∧ Ended n c stDone s t ∧
        t = ({ w with s := ((pinEntries c w).filter (fun p => !p.2.hole)).foldl (fun (u : State) (p : Nat × KvEnt) =>
          u.putDesc p.2.idx { u.kvDesc p.2.idx with pinned := c.pl 6 1 == 1 }) b } : KvWork).finish k n stDone) ∧
    (c.opcode = 8 → zeroBytes c.desc 28 36 = true →
      let r := evictTo k (c.pl 0 4) w.order w
      ∃ t, exec (.kvEvict q 0 refetch) s = .next t ∧ Ended n c stDone s t ∧ t = (if r.2 then r.1.flag kvFull else r.1).finish k n stDone) ∧
    (let rs := (List.range cnt).map (fun i => b.readMem (kvAgent k.canton) (c.pl 8 8 + i * k.listLen * 4) (4 * (w.list (lo + i)).ents.length))
     c.opcode = 6 → lo + cnt ≤ k.layers → c.pl 4 4 = 0 → s.srcBad (c.pl 8 8) = false → zeroBytes c.desc 40 24 = true → s.poison = [] → s.spd.ecc = [] →
     (∀ r ∈ rs, r.wait = false) →
     ∃ t fl, exec (.kvScore q 0 refetch) s = .next t ∧ Ended n c stDone s t ∧
       t = (({ w with s := b.cmdFlags n fl } : KvWork).scorePages (s.fld (R.KV_CTX_PARAM k.x) F.KV_CTX_PARAM_DECAY)
         ((List.range cnt).flatMap (fun i => ((w.list (lo + i)).ents.zip (List.range (w.list (lo + i)).ents.length)).filterMap (fun p =>
           if p.1.hole then none else some (p.1, sliceN ((rs.getD i {}).bytes) (4 * p.2) 4))))).finish k n stDone) ∧
    (∀ u, let node := c.pl 0 1
     let row := if node = 0xFF then 0 else (Store.get (fun _ => []) s.kv.masks k.x).getD node 0
     c.opcode = 9 → (node = 0xFF ∨ node < s.fld (R.KV_CTX_STAT k.x) F.KV_CTX_STAT_SPEC_N) → zeroBytes c.desc 25 39 = true →
     Store.get (fun _ => none) s.kv.commit k.x = none → c.fmtDiffers 0 (s.kvClass k.canton k.cls).fmt = false →
     w.commitLists k ((List.range 16).filter (fun i => row.testBit i)) ((List.range w.ls.length).filter (fun l => decide (0 < (w.list l).spec))) = some u →
     ∃ t, exec (.kvVerifyCommit q 0 refetch) s = .next t ∧ Ended n c stDone s t ∧ t = u.finish k n stDone))

/-- For a solve that the array executes with no other solve in it, whose parameter block and start data read good and break no check: SOLVE_DENSE and SOLVE_BA take their problems as R353 and R354 start them, show their count as ACTIVE, post one evaluation RUN on the solver-fed queue with the descriptor of R345 and wait for it. When that RUN has completed DONE, every active problem takes its rows; if none is active after that the solve ends and the array is free, else the next evaluation is posted. A solve told to stop with no evaluation outstanding ends with the results of its problems written. (R341, R343, R345, R346, R347, R348, R353, R354, R356, R357, R360, R361) -/
def Obligations.SolverStartsIteratesAndEnds : Prop :=
  (∀ (q : BitVec 16) (c : Cmd) (ba : Bool) (s : State), s.atUnit q.toNat 5 c = true → c.opcode = (if ba then 2 else 1) → s.sol.run = none →
    s.poison = [] → s.spd.ecc = [] →
    let n := s.qCanton q.toNat
    let g := solAgent n
    let pa := c.pl 0 8
    let par := (s.readMem g pa 128).bytes
    let a := solP ba par
    let x := s.readMem g a.x0 (a.count * a.n * a.b)
    let o := s.readMem g a.slot (8 * a.no)
    let sl := s.readMem g a.slot (544 * a.count)
    let obs := obsOf o.bytes a.no
    pa % 8 = 0 → s.unitSpan g pa 128 = true → zeroBytes c.desc 32 32 = true → (s.readMem g pa 128).wait = false → a.bad = false →
    s.solAreasBad g a = false → s.solverFedOf a.queue n = true → a.queue < 2048 → c.fmtDiffers 0 (if a.prec = 1 then 1 else 0) = false → x.wait = false →
    (ba = false → a.slot ≠ 0 → sl.wait = false) →
    (ba = true → o.wait = false ∧ obs.2 = true ∧ obsSorted obs.1 = true ∧ ∀ p ∈ obs.1, p.1 < a.np ∧ p.2 < a.nc) →
    let started (r : Out) : Prop := ∃ t d, r = .next t ∧ t.sol.run = some q.toNat ∧ t.sol.out = true ∧ t.sol.written = false ∧ t.sol.par = par ∧
      t.sol.probs = (List.range a.count).map (startProb a x.bytes (if ba = false ∧ a.slot ≠ 0 then sl.bytes else [])) ∧
      t.sol.obs = (if ba then obs.1 else []) ∧ t.fld R.SOL_STAT F.SOL_STAT_ACTIVE = a.count % 2 ^ F.SOL_STAT_ACTIVE.w ∧
      t.bit R.SOL_STAT F.SOL_STAT_EVAL_WAIT = true ∧ t.fld R.SOL_PROGRESS F.SOL_PROGRESS_EVALS = 1 ∧
      (t.queue a.queue).cmds = (s.queue a.queue).cmds ++ [d] ∧
      d.desc = evalDesc c a (s.fld (R.QUE_SEQ a.queue) F.QUE_SEQ_LAST_ACCEPTED_SEQ + 1) 0
    s.fld (R.QUE_SEQ a.queue) F.QUE_SEQ_LAST_ACCEPTED_SEQ + 1 < 2 ^ 32 →
    (ba = false → started (exec (.solveDense q) s)) ∧ (ba = true → started (exec (.solveBa q) s))) ∧
  (∀ (q : Nat) (c : Cmd) (s : State), s.sol.run = some q → s.sol.result = some stDone → s.sol.out = true → s.sol.written = false → s.head q = some c →
    c.cut = false →
    let a := solP (c.opcode == 2) s.sol.par
    let ps := s.solReturn (solAgent (s.qCanton q)) a false []
    ∃ t, exec (.solverEvalReturn []) s = .next t ∧
      ((∀ p ∈ ps, p.active = false) → t.sol = {} ∧ ∃ d, t.head q = some d ∧ d.phase = .ended ∧ d.seq = c.seq ∧ d.stop = s.now) ∧
      ((∃ p ∈ ps, p.active = true) → t.sol.run = some q ∧ t.sol.out = true ∧ t.sol.evalNo = s.sol.evalNo + 1 ∧ t.sol.probs = ps ∧
        t.bit R.SOL_STAT F.SOL_STAT_EVAL_WAIT = true)) ∧
  (∀ (q : BitVec 16) (c : Cmd) (s : State), s.atUnit q.toNat 5 c = true → c.phase = .stopping → s.sol.run = some q.toNat → s.sol.written = false →
    s.sol.out = false →
    let ended (r : Out) : Prop := ∃ t d, r = .next t ∧ t.sol = {} ∧ t.head q.toNat = some d ∧ d.phase = .ended ∧ d.seq = c.seq ∧ d.stop = s.now
    (c.opcode = 1 → ended (exec (.solveDense q) s)) ∧ (c.opcode = 2 → ended (exec (.solveBa q) s)))

/-- A snapshot of a fired group moves its sample to the evaluation and takes each slot's staged inputs and coefficients; in any other phase nothing happens. The evaluation of a group of one bound-to-nothing slot computes the control law: the seven products added exactly while no partial sum leaves 64 bits, the sum rounded at bit 29, saturated to 32 bits, limited, and shifted into the histories; a port still acquiring holds it back. The hand-off queues the result unless the sample overran; the latch of a sample that is due publishes each slot's y and code, counts SAMPLES, keeps the fire stamp, and puts a code into effect at once outside the PWM modes or, off a valley, leaves it waiting and counts it in LATE_APPLY; a sample not handed off by its time counts in OVERRUNS and sets OVERRUN. A taken write of CTL_SLOT_IN stages the halves it covers. A taken DISABLE with ABANDON drops the sample, without it lets it finish; ENABLE clears both bits of state. ARM clears a set and arms it, FORCE triggers an armed one, a trace configuration write that breaks no rule writes its fields, and what is refused sets CFG_REJECT alone. (R369, R371, R374, R375, R379, R380, R381, R383, R387, R388, R389, R394) -/
def Obligations.ControlSamplesRunTheirSequence : Prop :=
  (∀ (g : Fin 8) (s : State), ((s.grp g).phase ≠ .fired → exec (.ctlSnapshot g) s = .next s) ∧ ((s.grp g).phase = .fired →
    ∃ t, exec (.ctlSnapshot g) s = .next t ∧ SameMem s t ∧ t.grp g = { s.grp g with phase := .snapped, snap := s.now } ∧
      SameRegs ((s.groupSlots g).flatMap (fun i => [R.CTL_SLOT_IN i, R.CTL_SLOT_FLAGS i])) s t ∧
      ∀ i ∈ s.groupSlots g, (t.slot i).stA = none ∧ (t.slot i).stB = none ∧ (t.slot i).stCoef = none ∧ (t.slot i).stY = none ∧
        (t.slot i).coef = (s.slot i).stCoef.getD (s.slot i).coef ∧
        t.fld (R.CTL_SLOT_IN i) F.CTL_SLOT_IN_IN_A = ((s.slot i).stA.map BitVec.toNat).getD (s.fld (R.CTL_SLOT_IN i) F.CTL_SLOT_IN_IN_A) ∧
        t.fld (R.CTL_SLOT_IN i) F.CTL_SLOT_IN_IN_B = ((s.slot i).stB.map BitVec.toNat).getD (s.fld (R.CTL_SLOT_IN i) F.CTL_SLOT_IN_IN_B))) ∧
  (∀ (g : Fin 8) (i : Nat) (s : State), (s.grp g).phase = .snapped →
    ((∃ p ∈ s.groupPorts g, (s.sport p).acq.isSome = true) → exec (.ctlEvaluate g []) s = .next s) ∧
    ((∀ p ∈ s.groupPorts g, (s.sport p).acq = none) → s.groupSlots g = [i] → s.groupSels g = [] → (s.slot i).faulted = false →
      s.bit (R.CTL_SLOT_CFG i) F.CTL_SLOT_CFG_OUT_BOUND = false →
      let x := s.slot i
      let k (j : Nat) : Int := x.coef.getD j 0
      let e := max (-2147483648) (min 2147483647 ((s.operand i x.opA true).1 - (s.operand i x.opB false).1))
      let terms : List Int := [k 0 * e, k 1 * x.x1, k 2 * x.x2, k 3 * x.x3, -k 4 * x.y1, -k 5 * x.y2, -k 6 * x.y3]
      (∀ j, j ≤ 7 → -9223372036854775808 ≤ (terms.take j).sum ∧ (terms.take j).sum ≤ 9223372036854775807) → x.limLo ≤ x.limHi →
      let raw := max (-2147483648) (min 2147483647 (rneShift terms.sum 29))
      let y := min (max raw x.limLo) x.limHi
      ∃ t, exec (.ctlEvaluate g []) s = .next t ∧ SameRegs [R.CTL_SLOT_FLAGS i] s t ∧ SameMem s t ∧ (t.grp g).phase = .evaluated ∧
        (t.slot i).y = y ∧ (t.slot i).x1 = e ∧ (t.slot i).x2 = x.x1 ∧ (t.slot i).x3 = x.x2 ∧ (t.slot i).y1 = y ∧ (t.slot i).y2 = x.y1 ∧
        (t.slot i).y3 = x.y2 ∧ (t.grp g).res.slots = [(i, y, 0)] ∧ (t.grp g).res.stamp = (s.grp g).t0 ∧ ∀ j, j ≠ i → t.slot j = s.slot j)) ∧
  (∀ (g : Fin 8) (s : State), (s.grp g).phase = .evaluated → (s.grp g).finishing = false →
    (∀ k, k < 4 → s.traceGroup k ≠ g.val ∨ s.traceState k = 0 ∨ s.traceState k = 3) →
    exec (.ctlHandoff g) s = .next (s.setGrp g { s.grp g with
      phase := .idle, ready := if (s.grp g).overran then (s.grp g).ready else (s.grp g).ready ++ [(s.grp g).res] })) ∧
  (∀ (g : Fin 8) (x : Sample) (s : State), (s.grp g).ready.find? (fun x => s.latchDue g x.stamp) = some x → (s.grp g).outage = false →
    (s.grp g).finishing = false → (s.fld R.DET_LS_CFG F.DET_LS_CFG_GROUP_MASK).testBit g = false →
    (x.slots.map (fun p => p.1)).Nodup → (∀ p ∈ x.slots, p.1 < 512) →
    ∃ t, exec (.ctlLatch g) s = .next t ∧ SameMem s t ∧ (t.grp g).ready = (s.grp g).ready.erase x ∧ (t.grp g).latched = true ∧
      t.fld (R.CTL_GROUP_STAT g) F.CTL_GROUP_STAT_SAMPLES = (s.fld (R.CTL_GROUP_STAT g) F.CTL_GROUP_STAT_SAMPLES + 1) % 2 ^ 32 ∧
      t.reg (R.CTL_GROUP_LAST g) = x.stamp ∧
      (∀ p ∈ x.slots, t.fld (R.CTL_SLOT_OUT p.1) F.CTL_SLOT_OUT_Y = toTwos 32 p.2.1 ∧ t.fld (R.CTL_SLOT_OUT p.1) F.CTL_SLOT_OUT_CODE = toTwos 16 p.2.2) ∧
      (x.codes = [] → SameRegs ([R.CTL_GROUP_STAT g, R.CTL_GROUP_LAST g] ++ x.slots.map (fun p => R.CTL_SLOT_OUT p.1)) s t) ∧
      ∀ a code, x.codes = [(a, code)] → a < 48 →
        (pwmMode (s.actMode a) = false → t.fld (R.SIO_ACT_STAT a) F.SIO_ACT_STAT_CODE = toTwos 16 code ∧ (t.act a).code = code) ∧
        (pwmMode (s.actMode a) = true → s.actValley a ≠ s.nowNs → (t.act a).pend = some code ∧ (t.act a).code = (s.act a).code ∧
          t.fld (R.SIO_ACT_STAT a) F.SIO_ACT_STAT_LATE_APPLY =
            min (2 ^ F.SIO_ACT_STAT_LATE_APPLY.w - 1) (s.fld (R.SIO_ACT_STAT a) F.SIO_ACT_STAT_LATE_APPLY + 1))) ∧
  (∀ (g : Fin 8) (s : State), (∀ x ∈ (s.grp g).ready, s.latchDue g x.stamp = false) → (s.grp g).phase ≠ .idle → (s.grp g).overran = false →
    s.latchDue g (s.grp g).t0 = true →
    ∃ t, exec (.ctlLatch g) s = .next t ∧ SameMem s t ∧ SameRegs [R.CTL_GROUP_STAT g, R.CTL_STAT] s t ∧ t.grp g = { s.grp g with overran := true } ∧
      t.fld (R.CTL_GROUP_STAT g) F.CTL_GROUP_STAT_OVERRUNS = min 65535 (s.fld (R.CTL_GROUP_STAT g) F.CTL_GROUP_STAT_OVERRUNS + 1) ∧
      t.bit R.CTL_STAT F.CTL_STAT_OVERRUN = true) ∧
  (∀ (i : Fin 512) (r : Req) (h : Half) (v : Word) (s : State), s.takesWrite r (R.CTL_SLOT_IN i) = true →
    exec (.ctlSlotInWrite i r h v) s = .next (s.setSlot i { s.slot i with
      stA := if h = .low then (s.slot i).stA else some (v.extractLsb' 32 32), stB := if h = .high then (s.slot i).stB else some (v.extractLsb' 0 32) })) ∧
  (∀ (g : Fin 8) (r : Req) (abandon : Bool) (s : State), s.takesWrite r (R.CTL_GROUP_CTL g) = true →
    (∃ t, exec (.ctlGroupDisable g r abandon) s = .next t ∧ SameMem s t ∧
      SameRegs (R.CTL_GROUP_CTL g :: (List.range 48).map R.SIO_ACT_STAT) s t ∧ t.bit (R.CTL_GROUP_CTL g) F.CTL_GROUP_CTL_DISABLE = true ∧
      t.bit (R.CTL_GROUP_CTL g) F.CTL_GROUP_CTL_DISABLE_MODE = abandon ∧
      (abandon = true → (t.grp g).phase = .idle ∧ (t.grp g).ready = [] ∧ (t.grp g).finishing = false) ∧
      (abandon = false → t.grp g = { s.grp g with finishing := decide ((s.grp g).phase ≠ .idle ∨ (s.grp g).ready ≠ []) })) ∧
    (∃ t, exec (.ctlGroupEnable g r) s = .next t ∧ SameMem s t ∧ SameRegs [R.CTL_GROUP_CTL g] s t ∧
      t.bit (R.CTL_GROUP_CTL g) F.CTL_GROUP_CTL_DISABLE = false ∧ t.grp g = { s.grp g with finishing := false })) ∧
  (∀ (k : Fin 4) (r : Req) (s : State), s.hears r (R.CTL_TRACE_CFG k) = true → s.traceMay r (s.traceGroup k) = true →
    let st := s.traceState k
    (st ≠ 1 → st ≠ 2 → ∃ t, exec (.ctlTraceArm k r) s = .next t ∧ SameMem s t ∧ SameRegs [R.CTL_TRACE_STAT k] s t ∧ t.trace k = {} ∧
      t.traceState k = 1 ∧ t.fld (R.CTL_TRACE_STAT k) F.CTL_TRACE_STAT_RECORDED = 0) ∧
    (st = 1 ∨ st = 2 → ∃ t, exec (.ctlTraceArm k r) s = .next t ∧ RegsOnly [R.CTL_STAT] s t ∧ t.bit R.CTL_STAT F.CTL_STAT_CFG_REJECT = true) ∧
    (st = 1 → exec (.ctlTraceForce k r) s = .next (s.setTrace k { s.trace k with force := true })) ∧
    (st ≠ 1 → exec (.ctlTraceForce k r) s = .next s)) ∧
  (∀ (k : Fin 4) (r : Req) (h : Half) (v : Word) (s : State), s.hears r (R.CTL_TRACE_TRIG k) = true → s.traceMay r (s.traceGroup k) = true →
    let st := s.traceState k
    let off := BitVec.ofNat 26 (R.CTL_TRACE_TRIG k)
    (st ≠ 1 → st ≠ 2 → s.channelsFit k (s.traceGroup k) = true →
      exec (.traceConfigWrite r off h v) s = .next (s.writeFields (R.CTL_TRACE_TRIG k) h v)) ∧
    (st = 1 ∨ st = 2 → ∃ t, exec (.traceConfigWrite r off h v) s = .next t ∧ RegsOnly [R.CTL_STAT] s t ∧ t.bit R.CTL_STAT F.CTL_STAT_CFG_REJECT = true))

/-- While a port acquires and its class is not replayed, a received frame that shows no fault ends the acquisition, stores the frame with the fire stamp and delivers every enabled word, the others keeping what they held; a fault reported by the port, and a missing start bit of a BiSS-C port, counts in FAULTS, shows in LAST_FAULT and leaves every word as it was. With the recorder disabled no other register and no byte of memory changes. At a valley of a PWM output a waiting code takes effect: its active ticks clamped to the period, CODE shows it, and CLIPPED counts a clamp that changed it. A carry of a STEP_DIR accumulator moves POS by one in the direction held, unless it comes within 2 x MIN_ON ticks of the pulse before, which counts in CLIPPED. (R399, R400, R402, R404, R405, R406, R407, R408, R425) -/
def Obligations.SensorsAndActuators : Prop :=
  (∀ (p : Fin 24) (stamp : Word) (s : State), (s.sport p).acq = some stamp → s.replays 3 = false → s.bit R.DET_REC_CTL F.DET_REC_CTL_ENABLE = false →
    (∀ (raw : Word) (delay : BitVec 8), let r := raw.toNat % 2 ^ s.spBits p
      s.spCheck p r delay.toNat = 0 →
      ∃ t, exec (.sensorFrameComplete p (.good raw delay)) s = .next t ∧ SameMem s t ∧
        SameRegs [R.SIO_SP_STAT p, R.SIO_SP_RAW p, R.SIO_SP_STAMP p, R.SIO_SP_VAL0 p, R.SIO_SP_VAL1 p] s t ∧
        t.sport p = { acq := none, faulty := false } ∧ t.reg (R.SIO_SP_RAW p) = BitVec.ofNat 64 r ∧ t.reg (R.SIO_SP_STAMP p) = stamp ∧
        ∀ i, i < 8 → let w := s.wordSpec p i
          (w.testBit 11 = false → t.sensorWord p i = s.sensorWord p i) ∧
          (w.testBit 11 = true → t.sensorWord p i = signExt 16 (toTwos 16 (wordOf (s.spData p r) (w % 64) (w / 64 % 16 + 1) (w.testBit 10))))) ∧
    (∀ (code : BitVec 3) (raw : Word), ∃ t, exec (.sensorFrameComplete p (.fault code raw)) s = .next t ∧ SameMem s t ∧
        SameRegs [R.SIO_SP_STAT p, R.SIO_SP_RAW p, R.SIO_SP_STAMP p] s t ∧ t.sport p = { acq := none, faulty := true } ∧
        t.fld (R.SIO_SP_STAT p) F.SIO_SP_STAT_LAST_FAULT = code.toNat % 2 ^ F.SIO_SP_STAT_LAST_FAULT.w ∧
        t.fld (R.SIO_SP_STAT p) F.SIO_SP_STAT_FAULTS = min (2 ^ F.SIO_SP_STAT_FAULTS.w - 1) (s.fld (R.SIO_SP_STAT p) F.SIO_SP_STAT_FAULTS + 1)) ∧
    (s.spMode p = 1 → ∃ t, exec (.sensorNoStartTimeout p) s = .next t ∧ SameMem s t ∧ SameRegs [R.SIO_SP_STAT p] s t ∧
        t.sport p = { acq := none, faulty := true } ∧ t.fld (R.SIO_SP_STAT p) F.SIO_SP_STAT_LAST_FAULT = 2 ∧
        t.fld (R.SIO_SP_STAT p) F.SIO_SP_STAT_FAULTS = min (2 ^ F.SIO_SP_STAT_FAULTS.w - 1) (s.fld (R.SIO_SP_STAT p) F.SIO_SP_STAT_FAULTS + 1))) ∧
  (∀ (a : Fin 48) (code : Int) (s : State), s.bit (R.SIO_ACT_CFG a) F.SIO_ACT_CFG_ACTIVE = true → pwmMode (s.actMode a) = true →
    (s.actMode a ≠ 1 → a.val % 2 = 0) → s.actBase a = a → s.actPeriod a ≠ 0 → (∀ w, (s.act a).valley = some w → w < s.actValley a) →
    (s.act a).pend = some code →
    let n := actTicks (s.actMode a) (s.actFS a) (s.actPeriod a) code
    ∃ t, exec (.pwmValley a) s = .next t ∧ SameMem s t ∧ SameRegs [R.SIO_ACT_STAT a, R.SIO_ACT_STAT (a + 1), R.SIO_ACT_POS (a + 1)] s t ∧
      (t.act a).pend = none ∧ (t.act a).code = code ∧ (t.act a).c = min (s.actPeriod a) n ∧ (t.act a).valley = some (s.actValley a) ∧
      t.fld (R.SIO_ACT_STAT a) F.SIO_ACT_STAT_CODE = toTwos 16 code ∧
      (actClips (s.actMode a) (s.actFS a) (s.actPeriod a) code = true → t.fld (R.SIO_ACT_STAT a) F.SIO_ACT_STAT_CLIPPED =
        min (2 ^ F.SIO_ACT_STAT_CLIPPED.w - 1) (s.fld (R.SIO_ACT_STAT a) F.SIO_ACT_STAT_CLIPPED + 1)) ∧
      (actClips (s.actMode a) (s.actFS a) (s.actPeriod a) code = false →
        t.fld (R.SIO_ACT_STAT a) F.SIO_ACT_STAT_CLIPPED = s.fld (R.SIO_ACT_STAT a) F.SIO_ACT_STAT_CLIPPED)) ∧
  (∀ (a : Fin 48) (s : State), s.bit (R.SIO_ACT_CFG a) F.SIO_ACT_CFG_ACTIVE = true → s.actMode a = 4 → a.val % 2 = 0 → 2 ^ 40 ≤ s.stepAcc a →
    (∃ t, exec (.stepPulseCarry a) s = .next t ∧ SameMem s t ∧ (t.act a).acc = s.stepAcc a - 2 ^ 40 ∧ (t.act a).accTick = s.time.ticks ∧
      ((∃ w, (s.act a).lastPulse = some w ∧ s.time.ticks < w + 2 * s.actMinOn a) → t.fld (R.SIO_ACT_POS a) F.SIO_ACT_POS_POS =
          s.fld (R.SIO_ACT_POS a) F.SIO_ACT_POS_POS ∧ t.fld (R.SIO_ACT_STAT a) F.SIO_ACT_STAT_CLIPPED =
          min (2 ^ F.SIO_ACT_STAT_CLIPPED.w - 1) (s.fld (R.SIO_ACT_STAT a) F.SIO_ACT_STAT_CLIPPED + 1)) ∧
      ((∀ w, (s.act a).lastPulse = some w → w + 2 * s.actMinOn a ≤ s.time.ticks) → (s.act a).holdTo ≤ s.time.ticks →
        (t.act a).lastPulse = some s.time.ticks ∧ ((t.fld (R.SIO_ACT_POS a) F.SIO_ACT_POS_POS : Nat) : Int) =
          (((s.fld (R.SIO_ACT_POS a) F.SIO_ACT_POS_POS : Nat) : Int) + (if (s.act a).neg then -1 else 1)) % 2 ^ 32)))

/-- For a control command that its queue executes, with legal parameters, no error in its source and entries that name slots of its canton: WRITE_INPUTS stages the value of the last entry that names a slot and operand, SET_COEF the last coefficient set named for a slot, RESET_STATE the last preset; every slot not named stays as it was, and so do all registers but the unit's BUSY and CTL_STAT, and all memory. TRACE_READ of a set that is DONE writes its bytes at the destination and changes no other byte. Each ends DONE, with its opcode in LAST_OP. (R382, R383, R385, R389, R390, R442) -/
def Obligations.ControlCommandsStageAndTrace : Prop :=
  (∀ (q : BitVec 16) (c : Cmd) (s : State), s.atUnit q.toNat 6 c = true → zeroBytes c.desc 34 30 = true → 1 ≤ c.pl 8 2 → c.pl 8 2 ≤ 512 →
    s.ctlAddrBad (c.pl 0 8) = false → s.poison = [] → s.spd.ecc = [] →
    let size := if c.opcode = 2 then 40 else 8
    let g := ctlAgent (s.qCanton q.toNat)
    let x := s.readMem g (c.pl 0 8) (c.pl 8 2 * size)
    let e (k : Nat) : List Byte := (x.bytes.drop (k * size)).take size
    let named (k i : Nat) : Prop := k < c.pl 8 2 ∧ sliceN (e k) 0 2 = i
    x.wait = false → (∀ k, k < c.pl 8 2 → s.slotOf (s.qCanton q.toNat) (sliceN (e k) 0 2) = true) →
    let runs (r : Out) (p : State → Prop) : Prop := ∃ t, r = .next t ∧ Ended q.toNat c stDone s t ∧ SameMem s t ∧
      SameRegs [R.CTL_STAT] s t ∧ t.fld R.CTL_STAT F.CTL_STAT_LAST_OP = c.opcode % 2 ^ F.CTL_STAT_LAST_OP.w ∧
      (∀ i, (∀ k, ¬ named k i) → t.slot i = s.slot i) ∧ p t
    (c.opcode = 1 → c.fmtDiffers 0 1 = false → (∀ k, k < c.pl 8 2 → sliceN (e k) 2 1 ≤ 1 ∧ sliceN (e k) 3 1 = 0) →
      runs (exec (.ctlWriteInputs q) s) (fun t => ∀ i k op, named k i → sliceN (e k) 2 1 = op →
        (∀ j, k < j → ¬ (named j i ∧ sliceN (e j) 2 1 = op)) →
        (if op = 0 then (t.slot i).stA else (t.slot i).stB) = some (BitVec.ofNat 32 (sliceN (e k) 4 4)))) ∧
    (c.opcode = 2 → c.fmtDiffers 0 0x11 = false → (∀ k, k < c.pl 8 2 → sliceN (e k) 2 2 = 0 ∧ sliceN (e k) 32 8 = 0) →
      runs (exec (.ctlSetCoef q) s) (fun t => ∀ i k, named k i → (∀ j, k < j → ¬ named j i) →
        t.slot i = { s.slot i with stCoef := some ((List.range 7).map (fun m => signExt 32 (sliceN (e k) (4 + 4 * m) 4))) })) ∧
    (c.opcode = 3 → c.fmtDiffers 0 1 = false → (∀ k, k < c.pl 8 2 → sliceN (e k) 2 2 = 0) →
      runs (exec (.ctlResetState q) s) (fun t => ∀ i k, named k i → (∀ j, k < j → ¬ named j i) →
        t.slot i = { s.slot i with stY := some (BitVec.ofNat 32 (sliceN (e k) 4 4)) }))) ∧
  (∀ (q : BitVec 16) (c : Cmd) (s : State), s.atUnit q.toNat 6 c = true → c.opcode = 4 → zeroBytes c.desc 25 7 = true → zeroBytes c.desc 40 24 = true →
    c.pl 0 1 ≤ 3 → s.ctlAddrBad (c.pl 8 8) = false → c.fmtDiffers 0 0x0B = false → s.traceState (c.pl 0 1) = 3 →
    let l := s.traceBytes (c.pl 0 1)
    let a := c.pl 8 8
    s.unitSpan (ctlAgent (s.qCanton q.toNat)) a l.length = true → (∀ i, i < l.length → s.hit (ctlAgent (s.qCanton q.toNat)) true (a + i) = .ok (a + i)) →
    ∃ t, exec (.ctlTraceRead q) s = .next t ∧ Ended q.toNat c stDone s t ∧ SameRegs [R.CTL_STAT] s t ∧
      (∀ i, i < l.length → t.rd (a + i) = l.getD i 0) ∧ ∀ i, (i < a ∨ a + l.length ≤ i) → t.rd i = s.rd i)

/-- A frame received on the bus, its class not replayed and the recorder disabled, is stored in the lowest-numbered buffer that takes it, which sets NEW, counts UPDATE by two and OVERWRITE where NEW stood, or without such a buffer counts in NOMATCH; REC of at most 127 falls by one. A taken REQ of an enabled transmit buffer not Plumb's sets REQ and nothing else; an ABORT of a request not on the bus clears it with TX_FAIL, one on the bus is only marked. A completed transmission sends the frame of the request that goes before all others, clears its REQ, stamps it and lowers TEC by one; a transmission error adds 8 to TEC and names itself in LAST_ERR, and beyond 255 the controller goes bus-off and counts it; the request stays unless it is ONESHOT or being aborted. A reception error adds one to REC. RECOVER starts recovery from bus-off and its end clears both counters; DISABLE with no frame in progress takes the controller off the bus, with ABANDON failing every request but Plumb's; ENABLE starts integration, and its end puts the controller on the bus in the state its counters give. (R411, R412, R413, R414, R415, R416, R426) -/
def Obligations.CanControllersSendReceiveAndRecover : Prop :=
  (∀ (k : Fin 8) (f : CanFrame) (sof : BitVec 32) (s : State), s.canOn k = true → (f.fdf = true → s.bit (R.CAN_CFG k) F.CAN_CFG_FD_EN = true) →
    s.replays 2 = false → s.bit R.DET_REC_CTL F.DET_REC_CTL_ENABLE = false → (s.can k).leaving = false → s.canRec k ≤ 127 →
    ∃ t, exec (.canFrameReceived k f sof) s = .next t ∧ SameMem s t ∧ t.canRec k = s.canRec k - 1 ∧ t.canTec k = s.canTec k ∧
      ((∀ m, m < 64 → s.mbTakes k f m = false) → SameRegs [R.CAN_STAT k] s t ∧
        t.fld (R.CAN_STAT k) F.CAN_STAT_NOMATCH = min 65535 (s.fld (R.CAN_STAT k) F.CAN_STAT_NOMATCH + 1)) ∧
      (∀ m, m < 64 → s.mbTakes k f m = true → (∀ j, j < m → s.mbTakes k f j = false) →
        SameRegs ([R.CAN_STAT k, R.CAN_MB_CTRL k m, R.CAN_MB_ID k m, R.CAN_MB_STAMP k m] ++ (List.range 8).map (R.CAN_MB_DATA k m)) s t ∧
        t.mb k m F.CAN_MB_CTRL_NEW = 1 ∧ t.mb k m F.CAN_MB_CTRL_UPDATE = (s.mb k m F.CAN_MB_CTRL_UPDATE + 2) % 65536 ∧ t.mbId k m = f.id.toNat ∧
        t.mb k m F.CAN_MB_CTRL_DLC = f.dlc.toNat ∧ t.fld (R.CAN_MB_STAMP k m) F.CAN_MB_STAMP_SOF = sof.toNat ∧
        (t.mb k m F.CAN_MB_CTRL_FDF = 1 ↔ f.fdf = true) ∧ (t.mb k m F.CAN_MB_CTRL_RTR = 1 ↔ f.rtr = true) ∧
        (s.mb k m F.CAN_MB_CTRL_NEW = 1 → t.mb k m F.CAN_MB_CTRL_OVERWRITE = 1) ∧
        ∀ j, j < 64 → (t.mbBytes k m 64).getD j 0 = f.data.getD j 0)) ∧
  (∀ (k : Fin 8) (m : Fin 64) (r : Req) (s : State), s.takesWrite r (R.CAN_MB_CTRL k m) = true → ¬ (s.canPlumb k = true ∧ m.val = 63) →
    (s.mb k m F.CAN_MB_CTRL_DIR = 1 → s.mb k m F.CAN_MB_CTRL_ENABLE = 1 →
      exec (.canTxRequest k m r) s = .next (s.setFld (R.CAN_MB_CTRL k m) F.CAN_MB_CTRL_REQ 1)) ∧
    (s.mb k m F.CAN_MB_CTRL_REQ = 1 →
      (∃ t, exec (.canTxAbort k m r false) s = .next t ∧ SameMem s t ∧ SameRegs [R.CAN_MB_CTRL k m] s t ∧ t.mb k m F.CAN_MB_CTRL_REQ = 0 ∧
        t.mb k m F.CAN_MB_CTRL_TX_FAIL = 1) ∧
      (∃ t, exec (.canTxAbort k m r true) s = .next t ∧ SameMem s t ∧ SameRegs [] s t ∧ m.val ∈ (t.can k).aborting))) ∧
  (∀ (k : Fin 8) (m : Fin 64) (s : State), s.canOn k = true → s.bit (R.CAN_CFG k) F.CAN_CFG_LISTEN = false → (s.can k).leaving = false →
    s.mbReq k m = true → (∀ b, b < 64 → b ≠ m.val → s.mbReq k b = true → s.mbBefore k m b = true) →
    (∀ sof : BitVec 32, ∃ t, exec (.canTxComplete k sof) s = .next t ∧ SameMem s t ∧ t.out = s.out ++ [.can k (s.mbFrame k m)] ∧
      SameRegs [R.CAN_STAT k, R.CAN_MB_CTRL k m, R.CAN_MB_STAMP k m] s t ∧ t.mb k m F.CAN_MB_CTRL_REQ = 0 ∧ t.canTec k = s.canTec k - 1 ∧
      t.fld (R.CAN_MB_STAMP k m) F.CAN_MB_STAMP_SOF = sof.toNat) ∧
    (∀ (e : CanErr) (code : Nat), canErrCode e = some code → (e = .ack → s.canState k = 0) →
      ∃ t, exec (.canTxError k e) s = .next t ∧ SameMem s t ∧ SameRegs [R.CAN_STAT k, R.CAN_MB_CTRL k m] s t ∧
        t.fld (R.CAN_STAT k) F.CAN_STAT_LAST_ERR = code ∧ t.canTec k = min 255 (s.canTec k + 8) ∧
        (255 < s.canTec k + 8 → t.canState k = 2 ∧ t.fld (R.CAN_STAT k) F.CAN_STAT_BUSOFF_CNT = min 65535 (s.fld (R.CAN_STAT k) F.CAN_STAT_BUSOFF_CNT + 1)) ∧
        (s.mb k m F.CAN_MB_CTRL_ONESHOT = 1 → t.mb k m F.CAN_MB_CTRL_REQ = 0 ∧ t.mb k m F.CAN_MB_CTRL_TX_FAIL = 1) ∧
        (s.mb k m F.CAN_MB_CTRL_ONESHOT = 0 → m.val ∉ (s.can k).aborting → t.reg (R.CAN_MB_CTRL k m) = s.reg (R.CAN_MB_CTRL k m)))) ∧
  (∀ (k : Fin 8) (e : CanErr) (code : Nat) (s : State), s.canOn k = true → (s.can k).leaving = false → canErrCode e = some code →
    ∃ t, exec (.canRxError k e) s = .next t ∧ RegsOnly [R.CAN_STAT k] s t ∧ t.fld (R.CAN_STAT k) F.CAN_STAT_LAST_ERR = code ∧
      t.canRec k = min 255 (s.canRec k + 1) ∧ t.canTec k = s.canTec k) ∧
  (∀ (k : Fin 8) (r : Req) (s : State), s.takesWrite r (R.CAN_CTL k) = true →
    (exec (.canRecover k r) s = .next (if s.canState k = 2 then s.setCan k { s.can k with recovering := true } else s)) ∧
    (s.canActive k = true → ∀ abandon, ∃ t, exec (.canDisable k r abandon false) s = .next t ∧ SameMem s t ∧ t.canState k = 3 ∧ t.can k = {} ∧
      SameRegs ([R.CAN_STAT k, R.CAN_CTL k] ++ (List.range 64).map (R.CAN_MB_CTRL k)) s t ∧ t.bit (R.CAN_CTL k) F.CAN_CTL_DISABLE = true ∧
      (abandon = false → ∀ m, m < 64 → t.reg (R.CAN_MB_CTRL k m) = s.reg (R.CAN_MB_CTRL k m)) ∧
      (abandon = true → ∀ m, m < 64 → s.mbReq k m = true → ¬ (s.canPlumb k = true ∧ m = 63) →
        t.mbReq k m = false ∧ t.mb k m F.CAN_MB_CTRL_TX_FAIL = 1)) ∧
    (s.canActive k = true → s.bit (R.CAN_CTL k) F.CAN_CTL_DISABLE = true → ∃ t, exec (.canEnable k r) s = .next t ∧ SameMem s t ∧
      SameRegs [R.CAN_STAT k, R.CAN_CTL k] s t ∧ t.bit (R.CAN_CTL k) F.CAN_CTL_DISABLE = false ∧ t.canState k = 3 ∧ (t.can k).integrating = true)) ∧
  (∀ (k : Fin 8) (s : State), s.canState k = 2 → (s.can k).recovering = true →
    ∃ t, exec (.canRecoveryDone k) s = .next t ∧ SameMem s t ∧ SameRegs [R.CAN_STAT k] s t ∧ t.canState k = 0 ∧ t.canTec k = 0 ∧ t.canRec k = 0 ∧
      (t.can k).recovering = false) ∧
  (∀ (k : Fin 8) (s : State), (s.can k).integrating = true →
    ∃ t, exec (.canBusIntegrationDone k) s = .next t ∧ SameMem s t ∧ SameRegs [R.CAN_STAT k] s t ∧ (t.can k).integrating = false ∧
      t.canState k = (if 128 ≤ s.canTec k ∨ 128 ≤ s.canRec k then 1 else 0))

/-- On an active port with its link up, a frame with a bad FCS counts in CRC_ERR and one beyond the MTU in RX_DROP, with no other effect. With its class not replayed and the recorder disabled, an ARP request for the port's address is answered and nothing else happens; a frame of no protocol that the port handles itself and addressed to it or to a group is written behind a record of 32 bytes at the ring's slot and counts in RX_PROD, or without a ring counts in RX_DROP. A TX_FRAME with legal parameters on a port with its link up is fetched; when the frame has left the wire its bytes are sent and the command ends DONE at the transmit timestamp; with the link down it ends ABORTED_DISABLED. A link that comes up or goes down shows in LINK, a loss counts in LINK_DOWN, and ends every TX_FRAME of the port that has not started on the wire. (R418, R419, R420, R421, R422, R428, R442) -/
def Obligations.EthernetPortsReceiveAndSend : Prop :=
  (∀ (e : Fin 4) (stamp : Word) (bytes : List Byte) (s : State), s.ethActive e = true → s.ethLink e = true →
    (∃ t, exec (.ethFrameReceived e false stamp bytes) s = .next t ∧ RegsOnly [R.ETH_STAT e] s t ∧
      t.fld (R.ETH_STAT e) F.ETH_STAT_CRC_ERR = min 65535 (s.fld (R.ETH_STAT e) F.ETH_STAT_CRC_ERR + 1)) ∧
    (s.fld (R.ETH_CFG e) F.ETH_CFG_MTU < bytes.length + 4 → ∃ t, exec (.ethFrameReceived e true stamp bytes) s = .next t ∧ RegsOnly [R.ETH_STAT e] s t ∧
      t.fld (R.ETH_STAT e) F.ETH_STAT_RX_DROP = min 65535 (s.fld (R.ETH_STAT e) F.ETH_STAT_RX_DROP + 1)) ∧
    (bytes.length + 4 ≤ s.fld (R.ETH_CFG e) F.ETH_CFG_MTU → s.replays 1 = false → s.bit R.DET_REC_CTL F.DET_REC_CTL_ENABLE = false →
      (∀ r, s.arpReply e bytes = some r → exec (.ethFrameReceived e true stamp bytes) s = .next { s with out := s.out ++ [.eth e r] }) ∧
      (s.arpReply e bytes = none → s.ndReply e bytes = none → s.carrierOf e bytes = none → ptpOf bytes = none → frameType bytes ≠ 0x8808 →
        (frameDst bytes = s.ethMac e ∨ frameDst bytes / 2 ^ 40 % 2 = 1) →
        let base := s.fld (R.ETH_RX e) F.ETH_RX_BASE * 4096
        let slot := 2 ^ s.fld (R.ETH_RX e) F.ETH_RX_LOG2_SLOT
        let a := base + s.fld (R.ETH_STAT e) F.ETH_STAT_RX_PROD % 2 ^ s.fld (R.ETH_RX e) F.ETH_RX_LOG2_SLOTS * slot
        let n := 32 + bytes.length
        ((base = 0 ∨ slot < n) → ∃ t, exec (.ethFrameReceived e true stamp bytes) s = .next t ∧ RegsOnly [R.ETH_STAT e] s t ∧
          t.fld (R.ETH_STAT e) F.ETH_STAT_RX_DROP = min 65535 (s.fld (R.ETH_STAT e) F.ETH_STAT_RX_DROP + 1)) ∧
        (base ≠ 0 → n ≤ slot → (∀ i, i < n → s.hit (unitAgent 0x100 (s.fld (R.ETH_CFG e) F.ETH_CFG_CANTON)) true (a + i) = .ok (a + i)) →
          ∃ t, exec (.ethFrameReceived e true stamp bytes) s = .next t ∧ SameRegs [R.ETH_STAT e] s t ∧
            t.fld (R.ETH_STAT e) F.ETH_STAT_RX_PROD = (s.fld (R.ETH_STAT e) F.ETH_STAT_RX_PROD + 1) % 65536 ∧
            (∀ i, i < bytes.length → t.rd (a + 32 + i) = bytes.getD i 0) ∧ (∀ i, (i < a ∨ a + n ≤ i) → t.rd i = s.rd i) ∧
            leNat (t.rdBytes a 8) = stamp.toNat ∧ leNat (t.rdBytes (a + 8) 2) = bytes.length % 65536)))) ∧
  (∀ (q : BitVec 16) (c : Cmd) (s : State), s.atUnit q.toNat 7 c = true → c.done = 0 → c.opcode = 1 → s.txBad (s.qInst q.toNat) c = false →
    (s.ethLink (s.qInst q.toNat) = false → ∃ t, exec (.ethTxFrame q) s = .next t ∧ Ended q.toNat c stAborted s t ∧ SameRegs [] s t ∧ SameMem s t) ∧
    (s.ethLink (s.qInst q.toNat) = true → c.cut = false → s.poison = [] → s.spd.ecc = [] →
      let x := s.readMem (unitAgent 0x100 (s.qCanton q.toNat)) (c.pl 0 8) (c.pl 8 2)
      x.wait = false → ∃ t, exec (.ethTxFrame q) s = .next t ∧ SameRegs [] s t ∧ SameMem s t ∧
        Store.get (fun _ => none) t.io.ethTx (s.qInst q.toNat) = some (q.toNat, x.bytes))) ∧
  (∀ (e : Fin 4) (stamp : Word) (q : Nat) (l : List Byte) (c : Cmd) (s : State), Store.get (fun _ => none) s.io.ethTx e = some (q, l) → s.head q = some c →
    ∃ t, exec (.ethTxDone e stamp) s = .next t ∧ SameRegs [] s t ∧ SameMem s t ∧ t.out = s.out ++ [.eth e (s.txBytes c stamp l)] ∧
      Store.get (fun _ => none) t.io.ethTx e = none ∧
      t.head q = some { c with phase := .ended, status := worse stDone c.status, stop := stamp }) ∧
  (∀ (e : Fin 4) (s : State), s.ethActive e = true → ∃ t, exec (.ethLinkUp e) s = .next t ∧ RegsOnly [R.ETH_CFG e] s t ∧ t.ethLink e = true) ∧
  (∀ (e : Fin 4) (s : State), s.ethLink e = true → ∃ t, exec (.ethLinkDown e) s = .next t ∧ SameMem s t ∧
    SameRegs [R.ETH_CFG e, R.ETH_STAT e] s t ∧ t.ethLink e = false ∧
    t.fld (R.ETH_STAT e) F.ETH_STAT_LINK_DOWN = min 65535 (s.fld (R.ETH_STAT e) F.ETH_STAT_LINK_DOWN + 1) ∧
    ∀ q c, s.atUnit q 7 c = true → s.qInst q = e → c.done = 0 →
      t.head q = some { c with phase := .ended, status := worse stAborted c.status, stop := s.now })

/-- A taken half of QUE_DOORBELL of a bound queue with rings set takes its count when the ring holds it, else sets DB_ERR, and changes nothing else. A fetch the queue may make from device memory appends one command with the 64 bytes at CMD_CONS and advances CMD_CONS: poisoned it ends INTEGRITY with the expected number, out of sequence SEQ_GAP, a refused one REJECTED, and an accepted one waits with its acceptance stamp; only an expected number moves LAST_ACCEPTED_SEQ. A ring in host memory is read over the link. COMMAND_COMPLETE does nothing unless the oldest command has ended; then its record of 32 bytes stands in the completion ring, RING_PROD advances, the command leaves the queue, its number is the last retired and its energy is counted. DISABLE stops fetching, with ABANDON every waiting command ends ABORTED_DISABLED with equal stamps; the drain's time-out does the same; ENABLE clears it. A regulator request is admitted against a bucket that is not negative, which drains, or else is counted. (R433, R434, R435, R439, R440, R441, R442, R454, R455, R456, R593) -/
def Obligations.QueuesFetchCompleteAndDisable : Prop :=
  (∀ (q : BitVec 16) (r : Req) (v : Word) (n : Nat) (s : State), s.takesWrite r (R.QUE_DOORBELL q.toNat) = true → s.qBound q.toNat = true →
    let k := q.toNat
    let hi : BitVec 32 := v.extractLsb' 32 32
    let lo : BitVec 32 := v.extractLsb' 0 32
    (ringSlots (s.reg (R.QUE_CMD_RING k)) = some n → ∃ t, exec (.queDoorbellWrite q r .high v) s = .next t ∧
      let fits := decide ((hi - BitVec.ofNat 32 (s.fld (R.QUE_RING k) F.QUE_RING_CMD_CONS)).toNat ≤ n)
      (fits = true → t = s.setQueue k { s.queue k with cmdProd := hi }) ∧
      (fits = false → RegsOnly [R.QUE_CTL k] s t ∧ t.bit (R.QUE_CTL k) F.QUE_CTL_DB_ERR = true)) ∧
    (ringSlots (s.reg (R.QUE_CPL_RING k)) = some n → ∃ t, exec (.queDoorbellWrite q r .low v) s = .next t ∧
      let fits := decide ((BitVec.ofNat 32 (s.fld (R.QUE_RING k) F.QUE_RING_RING_PROD) - lo).toNat ≤ n)
      (fits = true → t = s.setQueue k { s.queue k with cplCons := lo }) ∧
      (fits = false → RegsOnly [R.QUE_CTL k] s t ∧ t.bit (R.QUE_CTL k) F.QUE_CTL_DB_ERR = true))) ∧
  (∀ (q : BitVec 16) (s : State), s.mayFetch q.toNat = true →
    let k := q.toNat
    let a := s.descAddr k
    let d := s.rdBytes a 64
    let last := s.fld (R.QUE_SEQ k) F.QUE_SEQ_LAST_ACCEPTED_SEQ
    let inSeq := decide (sliceN d 4 4 = (last + 1) % 2 ^ 32)
    (inHostWindow a = true → s.canMaster = true → ∃ t, exec (.descriptorFetch q) s = .next t ∧ SameRegs [] s t ∧ SameMem s t ∧
      t.out = s.out ++ [.hostRead (s.fld R.GLB_HOST_WIN F.GLB_HOST_WIN_BASE * 2 ^ 44 + (a - 0x300000000000)) 64] ∧ t.queue k = s.queue k) ∧
    (inHostWindow a = false → ∃ t x, exec (.descriptorFetch q) s = .next t ∧ SameMem s t ∧ (t.queue k).cmds = (s.queue k).cmds ++ [x] ∧
      t.fld (R.QUE_RING k) F.QUE_RING_CMD_CONS = (s.fld (R.QUE_RING k) F.QUE_RING_CMD_CONS + 1) % 2 ^ 32 ∧ x.acc = s.now ∧ x.desc = d ∧
      (s.poisoned a 64 = true → x.phase = .ended ∧ x.status = stIntegrity ∧ x.seq.toNat = (last + 1) % 2 ^ 32 ∧ SameRegs [R.QUE_RING k] s t) ∧
      (s.poisoned a 64 = false → s.qSolverFed k = false → x.seq.toNat = sliceN d 4 4 ∧
        (inSeq = false → x.phase = .ended ∧ x.status = stSeqGap ∧ SameRegs [R.QUE_RING k, R.QUE_CTL k] s t ∧
          t.fld (R.QUE_CTL k) F.QUE_CTL_SEQ_GAPS = min (2 ^ F.QUE_CTL_SEQ_GAPS.w - 1) (s.fld (R.QUE_CTL k) F.QUE_CTL_SEQ_GAPS + 1)) ∧
        (inSeq = true → t.fld (R.QUE_SEQ k) F.QUE_SEQ_LAST_ACCEPTED_SEQ = (last + 1) % 2 ^ 32 ∧ x.accepted = true ∧
          (s.unitAbsent k d = true → x.phase = .ended ∧ x.status = stNotPresent) ∧
          (s.unitAbsent k d = false → s.descBad k d = true → x.phase = .ended ∧ x.status = stRejected) ∧
          (s.unitAbsent k d = false → s.descBad k d = false → x.phase = .waiting ∧ x.status = stDone ∧
            SameRegs [R.QUE_RING k, R.QUE_SEQ k, R.SCH_CTX_STAT x.context] s t))))) ∧
  (∀ (q : BitVec 16) (c : Cmd) (n : Nat) (s : State), s.head q.toNat = some c →
    let k := q.toNat
    let p := s.fld (R.QUE_RING k) F.QUE_RING_RING_PROD
    let a := ringBase (s.reg (R.QUE_CPL_RING k)) + 32 * (p % n)
    (c.phase ≠ .ended → exec (.commandComplete q) s = .next s) ∧
    (c.phase = .ended → ringSlots (s.reg (R.QUE_CPL_RING k)) = some n → a + 32 ≤ s.hbmBytes → (∀ i, i < 32 → s.hit hostAgent true (a + i) = .ok (a + i)) →
      s.sol.run = none → s.bit R.DET_LS_CFG F.DET_LS_CFG_ENABLE = false → c.accepted = true →
      ∃ t, exec (.commandComplete q) s = .next t ∧ (t.queue k).cmds = (s.queue k).cmds.drop 1 ∧
        t.fld (R.QUE_SEQ k) F.QUE_SEQ_LAST_RETIRED_SEQ = c.seq.toNat ∧ t.fld (R.QUE_RING k) F.QUE_RING_RING_PROD = (p + 1) % 2 ^ 32 ∧
        t.rdBytes a 32 = recordBytes c.seq (s.completion k c) (c.flags ||| s.phaseBit k) c.start c.stop (min 0xFFFFFFFF c.energy) (s.cmdCount k c) ∧
        (∀ i, (i < a ∨ a + 32 ≤ i) → t.rd i = s.rd i) ∧
        t.fld (R.QUE_ENERGY k) F.QUE_ENERGY_UJ = (s.fld (R.QUE_ENERGY k) F.QUE_ENERGY_UJ + c.energy) % 2 ^ F.QUE_ENERGY_UJ.w ∧
        SameRegs [R.QUE_SEQ k, R.QUE_RING k, R.QUE_CTL k, R.QUE_ENERGY k, R.SCH_CANTON_ENERGY (s.qCanton k), R.SCH_CTX_STAT c.context] s t)) ∧
  (∀ (q : BitVec 16) (s : State), let k := q.toNat
    let abandons (t : State) : Prop := (t.queue k).cmds.length = (s.queue k).cmds.length ∧ ∀ (i : Nat) (c : Cmd), (s.queue k).cmds[i]? = some c →
      ∃ d, (t.queue k).cmds[i]? = some d ∧ d.seq = c.seq ∧ (c.phase = .ended → d = c) ∧
        (c.phase = .waiting → d.phase = .ended ∧ d.status = worse stAborted c.status ∧ d.start = c.acc ∧ d.stop = c.acc) ∧
        (c.phase = .suspended → d.phase = .ended ∧ d.status = worse stAborted c.status ∧ d.stop = s.now)
    (∀ r, s.takesWrite r (R.QUE_CTL k) = true → s.qBound k = true →
      (∃ t, exec (.queueDisable q r false) s = .next t ∧ RegsOnly [R.QUE_CTL k] s t ∧ t.qDisabled k = true ∧
        t.bit (R.QUE_CTL k) F.QUE_CTL_DISABLE_MODE = false ∧ t.bit (R.QUE_CTL k) F.QUE_CTL_IDLE = (s.queue k).cmds.isEmpty) ∧
      (∃ t, exec (.queueDisable q r true) s = .next t ∧ SameMem s t ∧ t.qDisabled k = true ∧ t.bit (R.QUE_CTL k) F.QUE_CTL_DISABLE_MODE = true ∧ abandons t ∧
        ((∀ c ∈ (s.queue k).cmds, c.phase = .waiting ∨ c.phase = .ended) → SameRegs [R.QUE_CTL k] s t)) ∧
      (∃ t, exec (.queueEnable q r) s = .next t ∧ RegsOnly [R.QUE_CTL k] s t ∧ t.qDisabled k = false ∧ t.bit (R.QUE_CTL k) F.QUE_CTL_IDLE = false)) ∧
    (s.qDisabled k = true → s.bit (R.QUE_CTL k) F.QUE_CTL_DISABLE_MODE = false →
      ∃ t, exec (.queueDrainTimeout q) s = .next t ∧ SameMem s t ∧ abandons t)) ∧
  (∀ (c : Fin 8) (k : Fin 7) (size : BitVec 32) (idle : Bool) (s : State),
    (0 ≤ s.tokens c k → exec (.regulatorAdmit c k size idle) s =
      .next (s.setTokens c k (s.tokens c k - ((size.toNat * (if k.val = 2 then 16384000 else 250) : Nat) : Int)))) ∧
    (s.tokens c k < 0 → (idle = false ∨ s.bit (R.SCH_REG c k) F.SCH_REG_SOAK = false) → ∃ t, exec (.regulatorAdmit c k size idle) s = .next t ∧
      RegsOnly [R.SCH_CANTON_THROTTLE c] s t ∧ t.fld (R.SCH_CANTON_THROTTLE c) (throttleFld k) =
        min (2 ^ (throttleFld k).w - 1) (s.fld (R.SCH_CANTON_THROTTLE c) (throttleFld k) + 1)))

/-- A chip-level unit that is free starts the command that goes before every other waiting one, with its start stamp; one whose deadline has passed with DROP_IF_LATE is dropped LATE, with NOT_STARTED, and counted. A canton's cores take the first command whose context is free, on the lowest-numbered idle core it may use: the core takes the context and its seed, CORE_STATUS and the context record show it; with no idle core the lowest-ranked runner is asked to suspend. A quantum that has passed is kept for the next yield point. The end of a save with no read outstanding leaves the command suspended with its state kept, the core free and the context SUSPENDED, and counts the switch; the end of a restore with no cancelled reads puts that state back. A running command whose deadline has passed, or whose steps have reached its budget, takes BUDGET_CUT and the status LATE; a suspended one whose deadline passes ends LATE and its saved state is dropped. (R51, R53, R54, R55, R446, R447, R448, R449, R450, R453, R461) -/
def Obligations.SchedulerStartsSuspendsAndCuts : Prop :=
  (∀ (c : Fin 8) (u : CmdUnit) (inst : Fin 4) (q : Nat) (d : Cmd) (s : State), ¬ (s.fab.phase.isSome = true ∧ s.fab.canton = some c.val) →
    let ws := s.waitingQueues (unitCode u) inst c
    s.head q = some d →
    (u ≠ .core → s.unitBusy (unitCode u) inst = false → q ∈ ws → (∀ p ∈ ws, p = q ∨ s.before q p = true) →
      (s.deadlinePassed d = true → d.dropIfLate = true → ∃ t, exec (.commandDispatch c u inst) s = .next t ∧ SameMem s t ∧ SameRegs [R.QUE_CTL q] s t ∧
        t.head q = some { d with phase := .ended, status := stLate, flags := d.flags ||| flagBit fgNotStarted, start := d.acc, stop := d.acc } ∧
        t.fld (R.QUE_CTL q) F.QUE_CTL_LATE_DROPS = min (2 ^ F.QUE_CTL_LATE_DROPS.w - 1) (s.fld (R.QUE_CTL q) F.QUE_CTL_LATE_DROPS + 1)) ∧
      (s.deadlinePassed d = false → ∃ t e, exec (.commandDispatch c u inst) s = .next t ∧ SameMem s t ∧
        SameRegs [R.EDGE_STAT (s.qInst q), R.KV_STAT, R.SOL_STAT, R.CTL_STAT] s t ∧ t.head q = some e ∧ e.phase = .running ∧ e.start = s.now ∧
        e.seq = d.seq ∧ e.status = d.status ∧ e.flags = d.flags ∧ ∀ p, p ≠ q → t.queue p = s.queue p)) ∧
    (u = .core → q ∈ ws → s.ctxBusy d.context q = false →
      (∀ p ∈ ws, p = q ∨ s.before q p = true ∨ ∃ e, s.head p = some e ∧ s.ctxBusy e.context p = true) →
      (s.qLC q = true ∨ ∀ p ∈ ws, s.qLC p = false) → d.phase = .waiting → ¬ (s.deadlinePassed d = true ∧ d.dropIfLate = true) →
      (∀ n, (s.allowedCores q).find? (fun n => s.coreIdle n) = some n → ∃ t e, exec (.commandDispatch c u inst) s = .next t ∧ SameMem s t ∧
        SameRegs [R.CORE_STATUS n, R.SCH_CTX_STAT d.context] s t ∧ t.head q = some e ∧ e.phase = .running ∧ e.start = s.now ∧ e.core = some n ∧
        (t.core n).running = some q ∧ (t.core n).context = d.context ∧ (t.core n).seed = s.reg (R.SCH_CTX_SEED d.context) ∧ (t.core n).restoring = false ∧
        t.fld (R.CORE_STATUS n) F.CORE_STATUS_STATE = 2 ∧ t.fld (R.SCH_CTX_STAT d.context) F.SCH_CTX_STAT_STATE = 2 ∧
        (∀ m, m ≠ n → t.core m = s.core m) ∧ ∀ p, p ≠ q → t.queue p = s.queue p) ∧
      (∀ n r, (∀ m ∈ s.allowedCores q, s.coreIdle m = false) → n ∈ s.allowedCores q → s.coreRank n = some r → s.qRank q < r →
        (∀ m ∈ s.allowedCores q, m = n ∨ ∀ k, s.coreRank m = some k → k < r ∨ (k = r ∧ n < m)) → (s.allowedCores q).Nodup →
        exec (.commandDispatch c u inst) s = .next (s.setCore n { s.core n with suspendReq := true })))) ∧
  (∀ (n : Fin 16) (q : Nat) (s : State), (s.core n).running = some q →
    (exec (.quantumExpiry n) s = .next (s.setCore n { s.core n with quantumPassed := true })) ∧
    (∀ d, (s.core n).saving = true → s.readsOut n = false → s.head q = some d →
      ∃ t, exec (.contextSaveDone n) s = .next t ∧ SameMem s t ∧ t.head q = some { d with phase := .suspended, core := some n.val } ∧
        (∃ v, t.savedOf q = some v ∧ v.ctx = (s.core n).ctx ∧ v.image = (s.core n).image ∧ v.seed = (s.core n).seed ∧ v.xfer = (s.core n).qXfer ∧
          v.reads = (s.core n).cancelled) ∧ (t.core n).running = none ∧ (t.core n).saving = false ∧
        ((s.core n).context < 4096 → t.fld (R.SCH_CTX_STAT (s.core n).context) F.SCH_CTX_STAT_STATE = 3 ∧
          t.fld (R.SCH_CTX_CNT (s.core n).context) F.SCH_CTX_CNT_SWITCHES =
            (s.fld (R.SCH_CTX_CNT (s.core n).context) F.SCH_CTX_CNT_SWITCHES + 1) % 2 ^ F.SCH_CTX_CNT_SWITCHES.w) ∧
        SameRegs [R.SCH_CTX_STAT (s.core n).context, R.SCH_CTX_CNT (s.core n).context, R.SCH_CANTON_LOAD (s.qCanton q), R.CORE_STATUS n] s t) ∧
    (∀ v d, (s.core n).restoring = true → s.savedOf q = some v → v.reads = [] → s.head q = some d →
      ∃ t, exec (.contextRestoreDone n) s = .next t ∧ SameMem s t ∧ SameRegs [] s t ∧ (t.core n).ctx = v.ctx ∧ (t.core n).image = v.image ∧
        (t.core n).seed = v.seed ∧ (t.core n).restoring = false ∧ t.savedOf q = none ∧ ∀ m, m ≠ n.val → t.core m = s.core m)) ∧
  (∀ (q : BitVec 16) (d : Cmd) (s : State), s.head q.toNat = some d →
    let cut (r : Out) : Prop := ∃ t, r = .next t ∧ { t with queues := s.queues } = s ∧ (∀ p, p ≠ q.toNat → t.queue p = s.queue p) ∧
      t.head q.toNat = some { d with phase := .stopping, status := worse stLate d.status, flags := d.flags ||| flagBit fgBudgetCut }
    (d.phase = .running → s.deadlinePassed d = true → s.qUnit q.toNat ≠ 6 → ¬ (s.qUnit q.toNat = 7 ∧ d.done ≠ 0) → cut (exec (.deadlineExpiry q) s)) ∧
    (d.phase = .running → s.qUnit q.toNat ≠ 1 → s.qUnit q.toNat ≠ 6 → s.qUnit q.toNat ≠ 7 → d.budget.isSome = true →
      cut (exec (.stepBudgetExhausted q) s)) ∧
    (∀ n, d.phase = .running → s.qUnit q.toNat = 1 → d.opcode = 1 → d.core = some n → (s.core n).image.isSome = true → (s.core n).bound ≤ d.steps →
      ¬ ((s.core n).endPending = true ∧ d.steps = (s.core n).bound) → (s.core n).boundIsMax = false → cut (exec (.stepBudgetExhausted q) s)) ∧
    (d.phase = .suspended → s.deadlinePassed d = true → ∃ t, exec (.suspendedDeadlinePass q) s = .next t ∧ SameMem s t ∧
      SameRegs [R.SCH_CTX_STAT d.context] s t ∧ t.savedOf q.toNat = none ∧ t.head q.toNat =
        some { d with phase := .ended, status := worse stLate d.status, flags := d.flags ||| flagBit fgBudgetCut, stop := s.now }))

/-- On a port that is up with nothing waiting to be sent: an ACK releases every unacknowledged frame up to the one it names; a NAK does so and sends the rest again in order, counted once when there is a rest; a CREDIT frame returns credits, at most 64 of each channel. A corrupt frame is answered by a NAK that names the last good one, and an FEC failure counts; an unknown kind counts in BAD_KIND. After 16 frames or 250 ticks an ACK leaves, and the buffers freed since leave with it. No acknowledgement for 2,500 ticks retrains the port and keeps what was not acknowledged; a link that falls loses and counts it; a link that comes up starts at sequence 0, or after a retrain sends the unacknowledged frames again. A TIME frame of a child is stamped, one of the parent counts as a sync and is answered, and the first exchange steps the clock by the offset; every 15,625 ticks a TIME frame leaves on each down port that is up. (R482, R484, R485, R489) -/
def Obligations.ChordLinksAcknowledgeAndReplay : Prop :=
  (∀ (p : Fin 4) (f : ChordFrame) (s : State), s.chdUp p = true → (s.chdPort p).waiting = [] →
    let x := s.chdPort p
    (∀ a g r, x.unacked = a ++ g :: r → g.lseq.toNat = f.addr.toNat % 4096 → (∀ y ∈ a, y.lseq.toNat ≠ f.addr.toNat % 4096) →
      (f.kind = 0 → exec (.chordAck p f) s = .next (s.setChdPort p { x with unacked := r, advTick := s.time.ticks })) ∧
      (f.kind = 1 → ∃ t, exec (.chordNak p f) s = .next t ∧ SameMem s t ∧ SameRegs [R.CHD_PORT_STAT p] s t ∧ t.out = s.out ++ r.map (.chord p) ∧
        t.chdPort p = { x with unacked := r, advTick := s.time.ticks } ∧
        t.fld (R.CHD_PORT_STAT p) F.CHD_PORT_STAT_REPLAYS = (if r = [] then s.fld (R.CHD_PORT_STAT p) F.CHD_PORT_STAT_REPLAYS
          else min 65535 (s.fld (R.CHD_PORT_STAT p) F.CHD_PORT_STAT_REPLAYS + 1)))) ∧
    (∀ a b c, f.kind = 2 → x.credits = [a, b, c] → exec (.chordCredit p f) s = .next (s.setChdPort p { x with credits :=
      [min 64 (a + f.addr.toNat % 256), min 64 (b + f.addr.toNat / 256 % 256), min 64 (c + f.addr.toNat / 65536 % 256)] }))) ∧
  (∀ (p : Fin 4) (s : State), s.chdUp p = true → let x := s.chdPort p
    (∀ fec, ∃ t, exec (.chordFrameCorrupt p fec) s = .next t ∧ SameMem s t ∧ SameRegs [R.CHD_PORT_STAT p] s t ∧ t.chdPort p = x ∧
      t.out = s.out ++ [.chord p (s.chdFrame 1 0 ((x.rxSeq + 4095) % 4096) [])] ∧ t.fld (R.CHD_PORT_STAT p) F.CHD_PORT_STAT_FEC_UNCORR =
        (if fec then min 65535 (s.fld (R.CHD_PORT_STAT p) F.CHD_PORT_STAT_FEC_UNCORR + 1) else s.fld (R.CHD_PORT_STAT p) F.CHD_PORT_STAT_FEC_UNCORR)) ∧
    (∀ f : ChordFrame, 10 < f.kind.toNat → ∃ t, exec (.chordBadKind p f) s = .next t ∧ RegsOnly [R.CHD_PORT_CNT p] s t ∧
      t.fld (R.CHD_PORT_CNT p) F.CHD_PORT_CNT_BAD_KIND = min 65535 (s.fld (R.CHD_PORT_CNT p) F.CHD_PORT_CNT_BAD_KIND + 1)) ∧
    ((16 ≤ x.rxCount ∨ x.ackTick + 250 ≤ s.time.ticks) → ∃ t, exec (.chordAckSend p) s = .next t ∧ SameMem s t ∧ SameRegs [] s t ∧
      t.chdPort p = { x with rxCount := 0, ackTick := s.time.ticks, freed := [0, 0, 0] } ∧
      (x.freed = [0, 0, 0] → t.out = s.out ++ [.chord p (s.chdFrame 0 0 ((x.rxSeq + 4095) % 4096) [])]) ∧
      (∀ a b c, x.freed = [a, b, c] → x.freed ≠ [0, 0, 0] → t.out = s.out ++ [.chord p (s.chdFrame 0 0 ((x.rxSeq + 4095) % 4096) []),
        .chord p (s.chdFrame 2 0 (a + 256 * b + 65536 * c) [])])) ∧
    (x.unacked ≠ [] → x.advTick + 2500 ≤ s.time.ticks → ∃ t, exec (.chordAckTimeout p) s = .next t ∧ SameMem s t ∧ SameRegs [R.CHD_PORT_STAT p] s t ∧
      t.chdState p = 1 ∧ t.chdPort p = { x with retraining := true })) ∧
  (∀ (p : Fin 4) (s : State), s.hasChords = true → let x := s.chdPort p
    (s.chdState p ≠ 0 → ∃ t, exec (.chordLinkDown p) s = .next t ∧ SameMem s t ∧ SameRegs [R.CHD_PORT_STAT p, R.CHD_PORT_CNT p] s t ∧ t.chdState p = 0 ∧
      t.chdPort p = {} ∧ t.fld (R.CHD_PORT_STAT p) F.CHD_PORT_STAT_LINK_DOWNS = min 65535 (s.fld (R.CHD_PORT_STAT p) F.CHD_PORT_STAT_LINK_DOWNS + 1) ∧
      t.fld (R.CHD_PORT_CNT p) F.CHD_PORT_CNT_LOST = min 65535 (s.fld (R.CHD_PORT_CNT p) F.CHD_PORT_CNT_LOST + (x.unacked.length + x.waiting.length))) ∧
    (s.chdState p ≠ 2 → x.waiting = [] → ∃ t, exec (.chordLinkUp p) s = .next t ∧ SameMem s t ∧ SameRegs [R.CHD_PORT_STAT p] s t ∧ t.chdState p = 2 ∧
      (x.retraining = false → t.out = s.out ∧ t.chdPort p = { ackTick := s.time.ticks, advTick := s.time.ticks }) ∧
      (x.retraining = true → t.out = s.out ++ x.unacked.map (.chord p) ∧ t.chdPort p = { x with retraining := false, advTick := s.time.ticks })) ∧
    ((∀ d, s.chd.timeTick = some d → d + 15625 ≤ s.time.ticks) → ∃ t, exec .chordTimeSend s = .next t ∧ SameMem s t ∧ SameRegs [] s t ∧
      t.chd.timeTick = some s.time.ticks ∧ t.out = s.out ++ (((List.range 4).filter (fun p => s.chdRole p == 2)).filter (fun p => s.chdUp p)).map
        (fun p => .chord p (s.chdFrame 3 0 0 (timePayload s.now (s.chdPort p).t4))))) ∧
  (∀ (p : Fin 4) (f : ChordFrame) (rx : Word) (s : State), s.chdUp p = true → f.kind = 3 → let x := s.chdPort p
    let a : Word := BitVec.ofNat 64 (sliceN f.payload 0 8)
    let b : Word := BitVec.ofNat 64 (sliceN f.payload 8 8)
    (s.chdRole p = 2 → exec (.chordTime p f rx) s = .next (s.setChdPort p { x with t4 := rx })) ∧
    (s.chdRole p = 1 → s.chordSource = true → x.t12 = none ∨ b = 0 → ∃ t, exec (.chordTime p f rx) s = .next t ∧ SameMem s t ∧ SameRegs [] s t ∧
      t.time.lastSync = s.nowNs ∧ (t.chdPort p).t12 = some (a, rx) ∧ (t.chdPort p).t3 = s.now ∧
      t.out = s.out ++ [.chord p (s.chdFrame 3 0 0 (timePayload s.now rx))]) ∧
    (∀ t1 t2, s.chdRole p = 1 → s.chordSource = true → x.t12 = some (t1, t2) → b ≠ 0 → let d2 := stampDiff t2 t1 - stampDiff b x.t3
      ∃ t, exec (.chordTime p f rx) s = .next t ∧ SameMem s t ∧ SameRegs [R.CHD_TSYNC, R.TIME_STAT] s t ∧
        t.fld R.CHD_TSYNC F.CHD_TSYNC_OFFSET_PS = toTwos 32 (d2 * 500) ∧ (t.chdPort p).t12 = some (a, rx) ∧
        (s.bit R.TIME_STAT F.TIME_STAT_STEP_USED = false → t.time.stepPend = some (-(d2 / 2)) ∧ t.bit R.TIME_STAT F.TIME_STAT_VALID = true ∧
          t.bit R.TIME_STAT F.TIME_STAT_STEP_USED = true) ∧
        (s.bit R.TIME_STAT F.TIME_STAT_STEP_USED = true → t.time.stepPend = s.time.stepPend)))

/-- A routed frame out of sequence changes nothing and draws a NAK; one in sequence for another position is taken and sent on. In sequence and for this device: a READ of memory without errors is answered by the bytes under its TSEQ; a WRITE stores its bytes and changes nothing else in memory; a response that no read waits for counts as stale, and one for a BAR2 read gives it its data; a first fragment of a relayed message that is not the last is kept; an ARM on a worker that is locked and has time left closes every enabled gate and enters ARMED; a partner's signature with no own one is kept, with an equal own one it counts in MATCHES. ENUMERATE by the host on a manager clears the roles and offers position 1 on the lowest port that is up, or with none ends the walk; the first offer gives a worker its position, depth and up port; an offer beyond depth 4 or position 63 is returned as not reached; a return gives the port its range. A BAR2 read that times out gives poisoned zeros, a core's ends REMOTE_TIMEOUT at its rank. (R479, R480, R486, R487, R488, R491, R494, R602) -/
def Obligations.ChordFramesActAtTheirDestination : Prop :=
  (∀ (p : Fin 4) (f : ChordFrame) (s : State), s.chdUp p = true → let x := s.chdPort p
    let u := s.setChdPort p { x with rxSeq := (x.rxSeq + 1) % 4096, rxCount := x.rxCount + 1, freed := x.freed.modify f.vc.toNat (· + 1) }
    let early (r : Out) (k : BitVec 4) : Prop := f.kind = k →
      (f.lseq.toNat ≠ x.rxSeq → r = .next (s.emit (.chord p (s.chdFrame 1 0 ((x.rxSeq + 4095) % 4096) [])))) ∧
      (f.lseq.toNat = x.rxSeq → s.ownPosition ≠ some f.dst.toNat → r = .next (u.chdSend f))
    (early (exec (.chordRead p f) s) 4 ∧ (∀ b, early (exec (.chordReadResp p f b) s) 5) ∧ early (exec (.chordWrite p f) s) 6 ∧
      early (exec (.chordHalyard p f) s) 7 ∧ early (exec (.chordDet p f) s) 8 ∧ early (exec (.chordSig p f) s) 9) ∧
    (f.lseq.toNat = x.rxSeq → s.ownPosition = some f.dst.toNat →
      let n := 8 * min 32 f.len.toNat
      let a := f.addr.toNat
      let g := s.reqAgent (.chord p)
      (f.kind = 4 → a + n ≤ s.hbmBytes → s.poison = [] → s.spd.ecc = [] → (∀ i, i < n → s.hit g false (a + i) = .ok (a + i)) →
        exec (.chordRead p f) s = .next (u.chdSend { s.chdFrame 5 f.src.toNat a (s.rdBytes a n) with tseq := f.tseq })) ∧
      (f.kind = 6 → f.poison = false → f.payload.length ≤ 256 → a + f.payload.length ≤ s.hbmBytes →
        (∀ i, i < f.payload.length → s.hit g true (a + i) = .ok (a + i)) →
        ∃ t, exec (.chordWrite p f) s = .next t ∧ SameRegs [] s t ∧ t.chdPort p = u.chdPort p ∧ (∀ i, i < f.payload.length → t.rd (a + i) = f.payload.getD i 0) ∧
          ∀ i, (i < a ∨ a + f.payload.length ≤ i) → t.rd i = s.rd i) ∧
      (f.kind = 5 → (∀ o ∈ s.host.reads, inHostWindow o.addr = true ∨ o.tseq ≠ f.tseq.toNat) → ∀ b, ∃ t, exec (.chordReadResp p f b) s = .next t ∧ SameMem s t ∧
        SameRegs [R.CHD_PORT_CNT p] s t ∧ t.fld (R.CHD_PORT_CNT p) F.CHD_PORT_CNT_STALE_RESP =
          min 65535 (s.fld (R.CHD_PORT_CNT p) F.CHD_PORT_CNT_STALE_RESP + 1)) ∧
      (∀ o y b, f.kind = 5 → s.host.reads = [o] → inHostWindow o.addr = false → o.tseq = f.tseq.toNat → o.what = .bar2 y →
        o.addr % 8 + o.len ≤ f.payload.length → ∃ t, exec (.chordReadResp p f b) s = .next t ∧ SameMem s t ∧ SameRegs [] s t ∧ t.host.reads = [] ∧
          t.out = s.out ++ [.bar2Data y ((f.payload.drop (o.addr % 8)).take o.len) f.poison]) ∧
      (f.kind = 7 → a / 2 ^ 32 % 2 = 0 → a % 65536 = 0 → ∃ t, exec (.chordHalyard p f) s = .next t ∧ SameMem s t ∧ SameRegs [] s t ∧ t.out = s.out ∧
        Store.get (fun _ => []) t.chd.frags (f.src.toNat * 65536 + a / 65536 % 65536) = f.payload) ∧
      (f.kind = 8 → s.isManager = false → sliceN f.payload 0 1 = 1 → s.bit R.CHD_TSYNC F.CHD_TSYNC_LOCKED = true →
        0 ≤ stampDiff (BitVec.ofNat 64 (sliceN f.payload 8 8)) s.now → ∃ t, exec (.chordDet p f) s = .next t ∧ SameMem s t ∧ t.launchState = 1 ∧
          SameRegs (R.DET_LAUNCH_STAT :: (List.range 64).map R.DET_GATE) s t ∧ t.launchId = sliceN f.payload 1 1 ∧
          t.det.launchAt = BitVec.ofNat 64 (sliceN f.payload 8 8) ∧
          ∀ i, i < 64 → s.bit (R.DET_GATE i) F.DET_GATE_ENABLE = true → t.bit (R.DET_GATE i) F.DET_GATE_CLOSED = true) ∧
      (let y : LsSig := { src := sliceN f.payload 0 1, k := sliceN f.payload 4 4, sig := BitVec.ofNat 64 (sliceN f.payload 8 8), tick := s.time.ticks }
       f.kind = 9 → s.bit R.DET_LS_CFG F.DET_LS_CFG_ENABLE = true → f.src.toNat = s.fld R.DET_LS_CFG F.DET_LS_CFG_PARTNER →
        ∃ t, exec (.chordSig p f) s = .next t ∧ SameMem s t ∧
          (s.det.own = [] → s.det.theirs.length < 512 → SameRegs [] s t ∧ t.det.theirs = s.det.theirs ++ [y]) ∧
          (∀ w, s.det.own = [w] → w.src = y.src → w.k = y.k → w.sig = y.sig → SameRegs [R.DET_LS_MATCHES] s t ∧ t.det.own = [] ∧
            t.fld R.DET_LS_MATCHES F.DET_LS_MATCHES_COUNT = (s.fld R.DET_LS_MATCHES F.DET_LS_MATCHES_COUNT + 1) % 2 ^ F.DET_LS_MATCHES_COUNT.w)))) ∧
  (∀ (r : Req) (s : State), s.takesWrite r R.CHD_CTL = true → isHost r = true → s.bit R.CHD_CFG F.CHD_CFG_MANAGER = true → s.chd.walk = none →
    s.bit R.CHD_CFG F.CHD_CFG_ENUMERATED = false →
    ∃ t, exec (.chdEnumerate r) s = .next t ∧ SameMem s t ∧ (∀ p, p < 4 → t.chdRole p = 0) ∧
      SameRegs ([R.CHD_CFG, R.CHD_ENUM, R.CHD_PRESENT] ++ (List.range 4).map R.CHD_PORT_CFG) s t ∧
      ((∀ p, p < 4 → s.chdUp p = false) → t.chd.walk = none ∧ t.bit R.CHD_CFG F.CHD_CFG_ENUMERATED = true ∧ t.fld R.CHD_ENUM F.CHD_ENUM_WORKERS = 0 ∧
        t.reg R.CHD_PRESENT = 1) ∧
      ∀ p, p < 4 → s.chdUp p = true → (∀ j, j < p → s.chdUp j = false) → t.chd.walk = some { port := p, lo := 1, next := 1, unreached := 0 } ∧
        t.out = s.out ++ [.chord p (s.chdFrame 10 0 (enumAddr 1 1 1 0) [])]) ∧
  (∀ (p : Fin 4) (f : ChordFrame) (s : State), s.chdUp p = true → f.kind = 10 →
    let a := f.addr.toNat
    let pos := a % 256
    let depth := a / 256 % 256
    let next := a / 65536 % 256
    (s.chd.walk = none → s.bit R.CHD_CFG F.CHD_CFG_MANAGER = false → s.bit R.CHD_CFG F.CHD_CFG_ENUMERATED = false →
      (pos < 64 → depth < 5 → ∃ t, exec (.chordEnum p f) s = .next t ∧ SameMem s t ∧ t.bit R.CHD_CFG F.CHD_CFG_ENUMERATED = true ∧
        t.fld R.CHD_CFG F.CHD_CFG_POSITION = pos ∧ t.fld R.CHD_CFG F.CHD_CFG_DEPTH = depth ∧ t.fld R.CHD_CFG F.CHD_CFG_UP_PORT = p ∧ t.chdRole p = 1 ∧
        SameRegs (R.CHD_CFG :: (List.range 4).map R.CHD_PORT_CFG) s t) ∧
      ((64 ≤ pos ∨ 5 ≤ depth) → exec (.chordEnum p f) s = .next (s.emit (.chord p (s.chdFrame 10 0 (enumAddr 0 depth next 1) []))))) ∧
    (∀ w, s.chd.walk = some w → w.port = p → w.lo < next → next ≤ 64 → ∃ t, exec (.chordEnum p f) s = .next t ∧ SameMem s t ∧ t.chdRole p = 2 ∧
      t.fld (R.CHD_PORT_CFG p) F.CHD_PORT_CFG_SUB_LO = w.lo ∧ t.fld (R.CHD_PORT_CFG p) F.CHD_PORT_CFG_SUB_HI = next - 1)) ∧
  (∀ (tseq : BitVec 16) (o : OutRead) (s : State), s.host.reads = [o] → inHostWindow o.addr = false → o.tseq = tseq.toNat →
    o.at' + s.fld R.CHD_CFG F.CHD_CFG_TIMEOUT_US * 250 ≤ s.time.ticks →
    (∀ y, o.what = .bar2 y → ∃ t, exec (.remoteTimeout tseq) s = .next t ∧ SameMem s t ∧ SameRegs [] s t ∧ t.host.reads = [] ∧
      t.out = s.out ++ [.bar2Data y (List.replicate o.len 0) true]) ∧
    (∀ n d k c q h, o.what = .copyOp n d k c → (s.core n).running = some q → s.head q = some h → ∃ t, exec (.remoteTimeout tseq) s = .next t ∧ SameMem s t ∧
      SameRegs [] s t ∧ t.host.reads = [] ∧ t.head q = some { h with status := worse stRemoteTimeout h.status }))

/-- A taken ARM on a manager: while a launch is ARMED or in GO it sets BUSY_REJECT alone; with less than MARGIN_US left it ends LATE with cause 2; otherwise the launch takes ID and the stamp, closes every enabled gate when the mask names the manager, and is ARMED, or in GO at once when no worker takes part. A taken ABORT of a launch under way ends it LATE with cause 5; RELEASE opens every enabled gate and changes nothing else. In GO with the launch stamp reached the device is FIRED, and one that takes part opens its gates and keeps the tick. The margin's expiry ends a manager's launch LATE with cause 1 and the lowest position that did not acknowledge; a worker still ARMED MARGIN_US after the stamp ends LATE with cause 4 and its own position. No memory changes, and no register but DET_LAUNCH_STAT, the gates and DET_LAUNCH_FIRED. (R490, R491, R492) -/
def Obligations.LaunchesStepThroughTheirStates : Prop :=
  (∀ (r : Req) (s : State), s.takesWrite r R.DET_LAUNCH_CTL = true →
    let gates := (List.range 64).map R.DET_GATE
    let l := s.reg R.DET_LAUNCH_AT
    let mask := (s.reg R.DET_LAUNCH_MASK).toNat
    (s.isManager = true → (s.launchState = 1 ∨ s.launchState = 2) → ∃ t, exec (.detLaunchArm r) s = .next t ∧ RegsOnly [R.DET_LAUNCH_STAT] s t ∧
      t.bit R.DET_LAUNCH_STAT F.DET_LAUNCH_STAT_BUSY_REJECT = true ∧ t.launchState = s.launchState) ∧
    (s.isManager = true → s.launchState ≠ 1 → s.launchState ≠ 2 → ∃ t, exec (.detLaunchArm r) s = .next t ∧ SameMem s t ∧
      SameRegs (R.DET_LAUNCH_STAT :: gates) s t ∧ t.det.launchAt = l ∧ t.det.parts = mask ∧ t.launchId = s.fld R.DET_LAUNCH_CTL F.DET_LAUNCH_CTL_ID ∧
      (stampDiff l s.now < s.launchMargin → t.launchState = 4 ∧ t.fld R.DET_LAUNCH_STAT F.DET_LAUNCH_STAT_CAUSE = 2) ∧
      (s.launchMargin ≤ stampDiff l s.now →
        t.launchState = (if mask &&& 1 = mask then 2 else 1) ∧
        ∀ i, i < 64 → t.bit (R.DET_GATE i) F.DET_GATE_CLOSED =
          (if mask.testBit 0 && s.bit (R.DET_GATE i) F.DET_GATE_ENABLE then true else s.bit (R.DET_GATE i) F.DET_GATE_CLOSED))) ∧
    (s.isManager = true → (s.launchState = 1 ∨ s.launchState = 2) → ∃ t, exec (.detLaunchAbort r) s = .next t ∧ SameMem s t ∧
      SameRegs [R.DET_LAUNCH_STAT] s t ∧ t.launchState = 4 ∧ t.fld R.DET_LAUNCH_STAT F.DET_LAUNCH_STAT_CAUSE = 5) ∧
    (∃ t, exec (.detLaunchRelease r) s = .next t ∧ RegsOnly gates s t ∧ ∀ i, i < 64 → t.bit (R.DET_GATE i) F.DET_GATE_CLOSED =
      (!s.bit (R.DET_GATE i) F.DET_GATE_ENABLE && s.bit (R.DET_GATE i) F.DET_GATE_CLOSED))) ∧
  (∀ (s : State), s.launchState = 2 → 0 ≤ stampDiff s.now s.det.launchAt →
    ∃ t, exec .launchFire s = .next t ∧ RegsOnly ([R.DET_LAUNCH_STAT, R.DET_LAUNCH_FIRED] ++ (List.range 64).map R.DET_GATE) s t ∧ t.launchState = 3 ∧
      (s.launchTakes = true → t.reg R.DET_LAUNCH_FIRED = s.now ∧ ∀ i, i < 64 → s.bit (R.DET_GATE i) F.DET_GATE_ENABLE = true →
        t.bit (R.DET_GATE i) F.DET_GATE_CLOSED = false)) ∧
  (∀ (s : State), s.isManager = true → s.launchState = 1 → stampDiff s.det.launchAt s.now < s.launchMargin →
    ∃ t, exec .launchMarginExpiry s = .next t ∧ SameMem s t ∧ SameRegs [R.DET_LAUNCH_STAT] s t ∧ t.launchState = 4 ∧
      t.fld R.DET_LAUNCH_STAT F.DET_LAUNCH_STAT_CAUSE = 1 ∧
      ∀ p, p < 64 → s.det.parts.testBit p = true → s.det.acks.testBit p = false →
        (∀ j, j < p → s.det.parts.testBit j = true → s.det.acks.testBit j = true) → t.fld R.DET_LAUNCH_STAT F.DET_LAUNCH_STAT_POSITION = p) ∧
  (∀ (s : State), s.launchState = 1 → s.launchMargin ≤ stampDiff s.now s.det.launchAt → s.isManager = false →
    ∃ t, exec .launchArmedExpiry s = .next t ∧ SameMem s t ∧ SameRegs [R.DET_LAUNCH_STAT] s t ∧ t.launchState = 4 ∧
      t.fld R.DET_LAUNCH_STAT F.DET_LAUNCH_STAT_CAUSE = 4 ∧
      (s.position < 64 → t.fld R.DET_LAUNCH_STAT F.DET_LAUNCH_STAT_POSITION = s.position))

/-- A taken full write of DET_LS_CFG that sets ENABLE with a present partner, from disabled, starts with empty sources and signatures; clearing it empties them too. A fed word folds into its source, whose interval closes after ITEMS items. An own signature that has waited longer than LAG_US leaves the buffer and raises DIVERGE with cause 2 if it is the first, and counts. When the staging buffer has room a GAP entry counts the dropped entries and takes the next number; while older entries wait it waits behind them. A replayed log that has ended sets DONE; a due GAP counts its entries as MISSING and the log goes on; an entry of a class not replayed is passed over; a sensor entry due in time waits for its port. When the block of settings differs from the last one digested, the digest registers take its SHA3-512 and the sequence number advances; else nothing changes. (R493, R494, R495, R496, R497, R498, R500, R505) -/
def Obligations.LockStepRecordsAndReplays : Prop :=
  (∀ (r : Req) (v : Word) (s : State), s.takesWrite r R.DET_LS_CFG = true →
    (v.getLsbD 63 = false → ∃ t, exec (.detLsCfgWrite r .full v) s = .next t ∧ SameMem s t ∧ SameRegs [R.DET_LS_CFG] s t ∧
      t.bit R.DET_LS_CFG F.DET_LS_CFG_ENABLE = false ∧ t.det = { s.det with ls := [], own := [], theirs := [] }) ∧
    (v.getLsbD 63 = true → s.bit R.DET_LS_CFG F.DET_LS_CFG_ENABLE = true → exec (.detLsCfgWrite r .full v) s = .next s) ∧
    (v.getLsbD 63 = true → s.bit R.DET_LS_CFG F.DET_LS_CFG_ENABLE = false → s.lsPresent (F.DET_LS_CFG_PARTNER.get v) = true →
      ∃ t, exec (.detLsCfgWrite r .full v) s = .next t ∧ SameMem s t ∧ SameRegs [R.DET_LS_CFG] s t ∧ t.bit R.DET_LS_CFG F.DET_LS_CFG_ENABLE = true ∧
        t.fld R.DET_LS_CFG F.DET_LS_CFG_PARTNER = F.DET_LS_CFG_PARTNER.get v ∧ t.det = { s.det with ls := [], own := [], theirs := [] })) ∧
  (∀ (f : Fin 8) (r : Req) (v : Word) (s : State), s.takesWrite r (R.DET_LS_FEED f) = true → s.bit R.DET_LS_CFG F.DET_LS_CFG_ENABLE = true →
    let x := s.lsSrc (72 + f)
    let c0 := if x.n = 0 then crc64 0xFFFFFFFFFFFFFFFF (leBytes (72 + f) 1 ++ leBytes x.k 4) else x.c
    let items := if s.fld R.DET_LS_CFG F.DET_LS_CFG_ITEMS = 0 then 65536 else s.fld R.DET_LS_CFG F.DET_LS_CFG_ITEMS
    ∃ t, exec (.detLsFeed f r .full v) s = .next t ∧ SameMem s t ∧
      (x.n + 1 < items → SameRegs [] s t ∧ t.lsSrc (72 + f) = { k := x.k, n := x.n + 1, c := crc64 c0 (leBytes v.toNat 8) }) ∧
      (items ≤ x.n + 1 → t.lsSrc (72 + f) = { k := x.k + 1, n := 0, c := 0 })) ∧
  (∀ (src : Fin 80) (x : LsSig) (l : List LsSig) (s : State), s.det.own = x :: l → x.src = src.val → x ∉ l →
    x.tick + s.fld R.DET_LS_CFG F.DET_LS_CFG_LAG_US * 250 < s.time.ticks → s.bit R.DET_LS_CFG F.DET_LS_CFG_TO_PLUMB = false →
    ∃ t, exec (.lockstepLagTimeout src) s = .next t ∧ SameMem s t ∧ SameRegs (R.DET_LS_STAT :: s.eventRegs) s t ∧ t.det.own = l ∧
      t.bit R.DET_LS_STAT F.DET_LS_STAT_DIVERGE = true ∧ (s.bit R.DET_LS_STAT F.DET_LS_STAT_DIVERGE = false → t.fld R.DET_LS_STAT F.DET_LS_STAT_CAUSE = 2) ∧
      t.fld R.DET_LS_STAT F.DET_LS_STAT_COUNT = min (2 ^ F.DET_LS_STAT_COUNT.w - 1) (s.fld R.DET_LS_STAT F.DET_LS_STAT_COUNT + 1)) ∧
  (∀ (s : State), s.recorder.gap ≠ 0 → s.bit R.DET_REC_CTL F.DET_REC_CTL_ENABLE = true → stagedLen s.recorder.staged + 32 ≤ 1048576 →
    ∃ t, exec .recordGapEntry s = .next t ∧ t.recorder.gap = 0 ∧ t.recorder.seq = s.recorder.seq + 1 ∧
      (s.recorder.staged ≠ [] → SameMem s t ∧ SameRegs [] s t ∧ t.recorder.staged = s.recorder.staged ++
        [(s.nowNs, recEntry s.now s.recorder.seq 0 0 0 (BitVec.ofNat 64 s.recorder.gap) [])])) ∧
  (∀ (s : State), s.bit R.DET_REPLAY_CTL F.DET_REPLAY_CTL_ENABLE = true →
    let len := s.fld R.DET_REPLAY_LEN F.DET_REPLAY_LEN_LEN
    let p := (s.reg R.DET_REPLAY_CONS).toNat
    let e := s.logEntry p
    let due := stampAdd e.stamp (s.reg R.DET_REPLAY_OFFSET).toInt
    let moved (t : State) : Prop := t.reg R.DET_REPLAY_CONS = BitVec.ofNat 64 (p + e.size) ∧
      (len ≤ p + e.size → t.bit R.DET_REPLAY_STAT F.DET_REPLAY_STAT_DONE = true) ∧ SameRegs [R.DET_REPLAY_CONS, R.DET_REPLAY_STAT] s t ∧ SameMem s t
    (len ≤ p → ∃ t, exec .replayInject s = .next t ∧ RegsOnly [R.DET_REPLAY_STAT] s t ∧ t.bit R.DET_REPLAY_STAT F.DET_REPLAY_STAT_DONE = true) ∧
    (p < len → e.kind = 0 → 0 ≤ stampDiff s.now due → ∃ t, exec .replayInject s = .next t ∧ moved t ∧
      t.fld R.DET_REPLAY_STAT F.DET_REPLAY_STAT_MISSING = min (2 ^ F.DET_REPLAY_STAT_MISSING.w - 1) (s.fld R.DET_REPLAY_STAT F.DET_REPLAY_STAT_MISSING + e.aux)) ∧
    (∀ c, p < len → replayClass e.kind = some c → s.replays c = false → ∃ t, exec .replayInject s = .next t ∧ moved t ∧ t.det = s.det) ∧
    (p < len → e.kind = 6 → s.replays 3 = true → 0 ≤ stampDiff s.now due → stampDiff s.now due ≤ 2000 → ∃ t, exec .replayInject s = .next t ∧ moved t ∧
      t.det.replaySens = s.det.replaySens ++ [(e.source, due, e.flags % 8, BitVec.ofNat 64 (sliceN e.payload 0 8))])) ∧
  (∀ (s : State), (s.settingsBlock = s.det.block → exec .settingsDigestRecompute s = .next s) ∧ (s.settingsBlock ≠ s.det.block →
    ∃ t, exec .settingsDigestRecompute s = .next t ∧ SameMem s t ∧ SameRegs (R.DET_SETTINGS_SEQ :: (List.range 8).map R.DET_SETTINGS_DIGEST) s t ∧
      t.det.block = s.settingsBlock ∧ t.fld R.DET_SETTINGS_SEQ F.DET_SETTINGS_SEQ_SEQ =
        (s.fld R.DET_SETTINGS_SEQ F.DET_SETTINGS_SEQ_SEQ + 1) % 2 ^ F.DET_SETTINGS_SEQ_SEQ.w ∧
      ∀ i, i < 8 → (t.reg (R.DET_SETTINGS_DIGEST i)).toNat = sliceN (sha3_512 s.settingsBlock) (8 * i) 8))

/-- A full write by its own core, or by host software on inbox 16, enters the inbox, or with 512 words waiting is lost and counted; any other requester's is ignored. At its start frame k of a registration opens with nothing arrived, unless FORCE_SAFE makes it disagree with FORCED; an open frame whose deadline passes without its input disagrees with DEADLINE, or RESTREAM in the outage of its group. An overrun or a violated rule disagrees; otherwise the frame is plausible: its count rises to at most 15, and N of them make an INVALID registration VALID. A hardware line makes the open frames of every registration it concerns disagree. A time check outside 1 ms plus or minus 0.1 percent sets TIME_FAULT and latches every registration; within it nothing but the check's own state changes. A Plumb fault shows its source and takes every valid line and OUT_VALID down. An acknowledgement by the host takes the named LATCHED registrations to INVALID with count 0, or with a fault is refused. FORCE_SAFE set makes open frames disagree, cleared it only clears its bits; CLEAR_FIRST rearms the first capture. (R508, R510, R513, R514, R515, R518, R520, R521, R523, R526, R528, R536) -/
def Obligations.PlumbJudgesFramesAndDrivesTheLines : Prop :=
  (∀ (i : Fin 17) (r : Req) (v : Word) (s : State), s.hears r (R.PLB_INBOX i) = true →
    ((∃ n : Fin 16, r = .core n ∧ n.val = i.val) ∨ ((r = .host ∨ r = .bar2) ∧ i.val = 16) →
      ∃ t, exec (.plbInboxWrite i r .full v) s = .next t ∧ SameMem s t ∧ SameRegs [R.PLB_STAT] s t ∧
        ((s.inbox i).fifo.length < 512 → t.inbox i = { s.inbox i with fifo := (s.inbox i).fifo ++ [((s.inbox i).lost, v)], lost := 0 } ∧ SameRegs [] s t) ∧
        (512 ≤ (s.inbox i).fifo.length → t.inbox i = { s.inbox i with lost := (s.inbox i).lost + 1 } ∧
          t.fld R.PLB_STAT F.PLB_STAT_INBOX_DROP = min 65535 (s.fld R.PLB_STAT F.PLB_STAT_INBOX_DROP + 1))) ∧
    ((r = .mgt ∨ ∃ n : Fin 16, r = .core n ∧ n.val ≠ i.val) → exec (.plbInboxWrite i r .full v) s = .next s)) ∧
  (∀ (f : Fin 64) (s : State), s.plActive f = true → (s.plReg f).period ≠ 0 → (s.plReg f).phase ≤ s.nowNs →
    let x := s.plReg f
    let k := (s.nowNs - x.phase) / x.period
    (∀ j, x.frame = some j → j < k ∧ (x.arrived = true ∨ x.cause.isSome = true)) →
      let u := s.setPlReg f { x with frame := some k, start := x.phase + k * x.period, arrived := false, input := none, judged := false, cause := none }
      (s.bit R.PLB_CTL F.PLB_CTL_FORCE_SAFE = false → exec (.plumbFrameStart f) s = .next u) ∧
      (s.bit R.PLB_CTL F.PLB_CTL_FORCE_SAFE = true → ∃ t, exec (.plumbFrameStart f) s = .next t ∧ Disagreed f pcForced k u t)) ∧
  (∀ (f : Fin 64) (k : Nat) (s : State), s.openFrame f k →
    (s.plReg f).arrived = false → (s.plReg f).due ≤ s.nowNs → ∃ t, exec (.plumbFrameDeadline f) s = .next t ∧
      Disagreed f (if s.plLatchKind f && (s.grp (s.fld (R.PLB_REG_CFG f) F.PLB_REG_CFG_GROUP)).outage then pcRestream else pcDeadline) k s t) ∧
  (∀ (f : Fin 64) (k : Nat) (i : PlInput) (s : State), s.openFrame f k → (s.plReg f).input = some i →
    (∀ codes flags, i = .latch codes flags true → ∃ t, exec (.plumbJudgementEnd f) s = .next t ∧ Disagreed f pcOverrun k s t) ∧
    ((∀ codes flags, i ≠ .latch codes flags true) →
      ((∃ r ∈ s.plumb.rules, r.reg = f.val ∧ s.violates (s.plReg f) i r = true) →
        ∃ t, exec (.plumbJudgementEnd f) s = .next t ∧ Disagreed f pcRule k s t) ∧
      ((∀ r ∈ s.plumb.rules, r.reg = f.val → s.violates (s.plReg f) i r = false) → ∃ t, exec (.plumbJudgementEnd f) s = .next t ∧ SameMem s t ∧
        SameRegs (plumbRegs f) s t ∧ (t.plReg f).judged = true ∧ (t.plReg f).cause = none ∧ (t.plReg f).input = none ∧
        let n := s.fld (R.PLB_REG_STAT f) F.PLB_REG_STAT_COUNT + 1
        t.fld (R.PLB_REG_STAT f) F.PLB_REG_STAT_COUNT = min 15 n ∧
        t.plState f = (if s.plState f = 0 ∧ s.fld (R.PLB_REG_CFG f) F.PLB_REG_CFG_N ≤ n then 1 else s.plState f) ∧
        t.bit (R.PLB_VERDICT f) F.PLB_VERDICT_VALID = decide (t.plState f = 1)))) ∧
  (∀ (d : HwDetect) (c : Nat) (s : State), s.plumb.lines = [(d, c)] → ∃ t, exec (.plumbHwDetect d) s = .next t ∧ SameMem s t ∧ t.plumb.lines = [] ∧
    ∀ f k, f < 64 → s.openFrame f k → (s.concerns d c f = true → (t.plReg f).cause = some (lineCause d) ∧ t.plState f ≠ 1) ∧
      (s.concerns d c f = false → t.plReg f = s.plReg f ∧ t.plState f = s.plState f)) ∧
  (∀ (p : Nat) (s : State), s.plumb.checkNs = some p → let adv : Int := (s.nowNs : Int) - (p : Int) - s.plumb.stepSum
    ∃ t, exec .plumbTimeCheck s = .next t ∧ SameMem s t ∧ t.plumb.checkNs = some s.nowNs ∧ t.plumb.stepSum = 0 ∧
      (999000 ≤ adv → adv ≤ 1001000 → SameRegs [] s t ∧ t.plumb.timeBad = false) ∧
      ((adv < 999000 ∨ 1001000 < adv) → t.plumb.timeBad = true ∧ t.bit R.PLB_STAT F.PLB_STAT_TIME_FAULT = true ∧
        ∀ f, f < 64 → s.plActive f = true → t.plState f = 2)) ∧
  (∀ (s : State), s.bit R.PLB_STAT F.PLB_STAT_PLUMB_FAULT = false →
    let down (r : Out) (src : Nat) : Prop := ∃ t, r = .next t ∧ SameMem s t ∧
      SameRegs ([R.PLB_STAT, R.PLB_VALID, R.PLB_LATCHED, R.PLB_ACT_VALID] ++ (List.range 48).map R.SIO_ACT_STAT) s t ∧
      t.bit R.PLB_STAT F.PLB_STAT_PLUMB_FAULT = true ∧ t.fld R.PLB_STAT F.PLB_STAT_FAULT_SRC = src ∧ t.reg R.PLB_ACT_VALID = 0 ∧
      t.bit R.PLB_STAT F.PLB_STAT_OUT_VALID = false
    down (exec (.plumbFault .comparator) s) 1 ∧ down (exec (.plumbFault .sram) s) 2 ∧ down (exec (.plumbFault .supply) s) 3 ∧
      down (exec (.plumbFault .oscillator) s) 4 ∧ down (exec .plumbWatchdogTimeout s) 5) ∧
  (∀ (h : Half) (v : Word) (s : State), s.hears .host R.PLB_ACK = true →
    ((s.bit R.PLB_STAT F.PLB_STAT_PLUMB_FAULT = true ∨ s.plumb.timeBad = true) → ∃ t, exec (.plbAck .host h v) s = .next t ∧ RegsOnly [R.PLB_STAT] s t ∧
      t.bit R.PLB_STAT F.PLB_STAT_ACK_REFUSED = true) ∧
    (s.bit R.PLB_STAT F.PLB_STAT_PLUMB_FAULT = false → s.plumb.timeBad = false → ∃ t, exec (.plbAck .host h v) s = .next t ∧ SameMem s t ∧
      ∀ f, f < 64 → s.plActive f = true → t.plState f = (if (v &&& halfMask h).getLsbD f = true ∧ s.plState f = 2 then 0 else s.plState f) ∧
        ((v &&& halfMask h).getLsbD f = true → s.plState f = 2 → t.fld (R.PLB_REG_STAT f) F.PLB_REG_STAT_COUNT = 0))) ∧
  (∀ (s : State), s.hears .host R.PLB_CTL = true →
    (s.bit R.PLB_CTL F.PLB_CTL_FORCE_SAFE = false → ∃ t, exec (.plbForceSafe .host true) s = .next t ∧ SameMem s t ∧
      t.bit R.PLB_CTL F.PLB_CTL_FORCE_SAFE = true ∧ t.bit R.PLB_STAT F.PLB_STAT_FORCED = true ∧
      ∀ f k, f < 64 → s.openFrame f k → (t.plReg f).cause = some pcForced ∧ t.plState f ≠ 1) ∧
    (∃ t, exec (.plbForceSafe .host false) s = .next t ∧ SameMem s t ∧ t.bit R.PLB_CTL F.PLB_CTL_FORCE_SAFE = false ∧
      t.bit R.PLB_STAT F.PLB_STAT_FORCED = false ∧ ∀ f, f < 64 → t.plState f = s.plState f) ∧
    (∃ t, exec (.plbClearFirst .host) s = .next t ∧ SameMem s t ∧ SameRegs [R.PLB_STAT, R.PLB_FIRST_STAMP] s t ∧ t.plumb.captured = false ∧
      t.fld R.PLB_STAT F.PLB_STAT_FIRST_REG = 0 ∧ t.fld R.PLB_STAT F.PLB_STAT_FIRST_CAUSE = 0 ∧ t.reg R.PLB_FIRST_STAMP = 0))

/-- With the controller of CAN_CTRL error-active or error-passive the oldest safety message leaves as a classical frame of its 8 bytes, and shows in buffer 63; a repetition queues the last message of every LATCHED registration that is due, and sets its next time. A pennant frame inside a window begins with no extra runs and shows the window. A run that is picked for a ready core with slack is under way; its end puts three words into the core's inbox, and a running core that ran nothing else is IDLE again. Judging the oldest report counts it and marks the pattern as run in its window; a CRC that differs counts as a mismatch. INSTALL of an image whose checks pass writes it to the inactive slot and is BUSY; one that fails a check shows its status alone; at its end VERSION shows the library and BUSY clears. (R525, R529, R530, R531, R532, R536, R553, R555) -/
def Obligations.SafetyMessagesAndPennants : Prop :=
  (∀ (m : SafeMsg) (l : List SafeMsg) (s : State), s.plumb.msgs = m :: l → let k := s.fld R.PLB_CFG F.PLB_CFG_CAN_CTRL
    (k < 8 ∧ s.fld (R.CAN_STAT k) F.CAN_STAT_STATE < 2 → ∃ t, exec .plumbSafetyMessage s = .next t ∧ SameMem s t ∧ t.plumb.msgs = l ∧
      t.out = s.out ++ [.can k (s.safeFrame m)] ∧ (s.safeFrame m).data = m.data ∧ (s.safeFrame m).fdf = false ∧
      SameRegs [R.CAN_MB_ID k 63, R.CAN_MB_DATA k 63 0, R.CAN_MB_STAMP k 63, R.CAN_MB_CTRL k 63, R.PLB_STAT] s t ∧
      t.fld R.PLB_STAT F.PLB_STAT_SAFE_MSG_LATE = (if m.queued + 500000 < s.nowNs then min 65535 (s.fld R.PLB_STAT F.PLB_STAT_SAFE_MSG_LATE + 1)
        else s.fld R.PLB_STAT F.PLB_STAT_SAFE_MSG_LATE)) ∧
    ((8 ≤ k ∨ 2 ≤ s.fld (R.CAN_STAT k) F.CAN_STAT_STATE) → exec .plumbSafetyMessage s = .next s)) ∧
  (∀ (s : State), let ms := s.fld R.PLB_CAN F.PLB_CAN_REPEAT_MS
    let l := s.plActives.filter (fun f => s.plState f == 2 && s.plFlag f 1 && decide (Store.get (fun _ => 0) s.plumb.repeatAt f ≤ s.nowNs))
    ms ≠ 0 → s.fld R.PLB_CFG F.PLB_CFG_CAN_CTRL ≠ 0xFF → s.plumb.msgs.length + l.length ≤ 16 →
    ∃ t, exec .plumbSafetyRepeat s = .next t ∧ SameMem s t ∧ SameRegs [] s t ∧ t.plumb.msgs = s.plumb.msgs ++ l.map s.lastMsg ∧
      ∀ f ∈ l, Store.get (fun _ => 0) t.plumb.repeatAt f = s.nowNs + ms * 1000000) ∧
  (∀ (s : State), s.penPeriod ≠ 0 → let p := s.nowNs / s.penPeriod
    p % 64 ≠ 0 → (∀ b, s.plumb.boundary = some b → b < p) → s.bit R.PLB_CFG F.PLB_CFG_COV_INVALIDATES = false →
    ∃ t, exec .pennantFrameBoundary s = .next t ∧ SameMem s t ∧ t.plumb.boundary = some p ∧ t.plumb.extra = [] ∧ t.plumb.cov = s.plumb.cov ∧
      t.fld R.PLB_COVERAGE F.PLB_COVERAGE_WINDOW = p / 64 % 65536 ∧ SameRegs ([R.PLB_PENNANT, R.PLB_COVERAGE, R.PLB_STAT] ++ s.eventRegs) s t) ∧
  (∀ (phys : Fin 18) (e : PenEngine) (p n c pat : Nat) (extra : Bool) (s : State), s.plumb.boundary = some p → s.logicalOf phys = some n →
    s.cantonOfCore n = some c → s.penPick phys (penEngCode e) p = some (pat, extra) → s.penCoreReady n c = true →
    s.slackOk (some c) (floorNs (s.penSteps pat) + 2000) = true → (∀ r ∈ s.plumb.runs, ¬ (r.core = phys.val ∧ r.eng = penEngCode e)) →
    ∃ t, exec (.pennantRunStart phys e) s = .next t ∧ SameMem s t ∧ SameRegs [R.CORE_STATUS n] s t ∧
      t.plumb.runs = s.plumb.runs ++ [{ core := phys, eng := penEngCode e, pattern := pat, frame := p }]) ∧
  (∀ (phys : Fin 18) (e : PenEngine) (crc : BitVec 32) (r : PenRun) (n : Nat) (s : State), s.plumb.runs = [r] → r.core = phys.val → r.eng = penEngCode e →
    s.logicalOf phys = some n → (s.inbox n).fifo.length ≤ 509 → (s.inbox n).lost = 0 →
    ∃ t, exec (.pennantRunDone phys e crc) s = .next t ∧ SameMem s t ∧ SameRegs [R.CORE_STATUS n] s t ∧ t.plumb.runs = [] ∧
      (t.inbox n).fifo = (s.inbox n).fifo ++ (penReportWords r crc).map (fun w => (0, w)) ∧
      ((s.core n).running = none → s.fld (R.CORE_STATUS n) F.CORE_STATUS_STATE = 2 → t.fld (R.CORE_STATUS n) F.CORE_STATUS_STATE = 1)) ∧
  (∀ (r : PenReport) (l : List PenReport) (s : State), s.plumb.reports = r :: l → ∃ t, exec .pennantReportJudge s = .next t ∧
    t.fld R.PLB_PENNANT F.PLB_PENNANT_RUNS = (s.fld R.PLB_PENNANT F.PLB_PENNANT_RUNS + 1) % 2 ^ 32 ∧
    (r.crc = s.penCrc r.pattern r.eng → SameMem s t ∧ SameRegs [R.PLB_PENNANT] s t ∧ t.plumb.reports = l ∧
      (s.plumb.boundary.getD 0 / 64 = r.frame / 64 → r.pattern < 64 → (t.penCov r.phys r.eng).ran.getLsbD r.pattern = true)) ∧
    (r.crc ≠ s.penCrc r.pattern r.eng → t.fld R.PLB_PENNANT F.PLB_PENNANT_MISMATCHES = min 65535 (s.fld R.PLB_PENNANT F.PLB_PENNANT_MISMATCHES + 1))) ∧
  (∀ (r : Req) (older : Bool) (s : State), s.takesWrite r R.FLT_PEN_CMD = true → s.bit R.FLT_PEN_STAT F.FLT_PEN_STAT_BUSY = false → s.sec.op = none →
    let a := s.fld R.FLT_PEN_STAGE F.FLT_PEN_STAGE_ADDR * 4096
    let n := min 0x800000 (sliceN (s.rdBytes (a + 16) 8) 0 8)
    let st := s.penCheck (s.rdBytes a n) n older
    let base := s.penSlot s.penInactive
    ∃ t, exec (.fltPenInstall r older) s = .next t ∧ SameRegs [R.FLT_PEN_STAT] s t ∧
      (st ≠ stDone → SameMem s t ∧ t.fld R.FLT_PEN_STAT F.FLT_PEN_STAT_LAST_STATUS = st.toNat) ∧
      (st = stDone → t.bit R.FLT_PEN_STAT F.FLT_PEN_STAT_BUSY = true ∧ t.rep.install.isSome = true ∧
        let len := min n (sliceN (s.rdBytes a n) 16 8)
        (∀ i, i < len → t.rd (base + i) = s.rd (a + i)) ∧ ∀ i, (i < base ∨ base + len ≤ i) → t.rd i = s.rd i)) ∧
  (∀ (version signer : Nat) (s : State), s.rep.install = some (version, signer, 0) → s.sec.waiting = [] →
    ∃ t, exec .pennantInstallDone s = .next t ∧ SameMem s t ∧ t.rep.install = none ∧ t.bit R.FLT_PEN_STAT F.FLT_PEN_STAT_BUSY = false ∧
      t.fld R.FLT_PEN_STAT F.FLT_PEN_STAT_VERSION = version % 2 ^ F.FLT_PEN_STAT_VERSION.w ∧ SameRegs (R.FLT_PEN_STAT :: s.eventRegs) s t)

/-- A burn that reads back good stands in the next record and leaves the queue; one that does not makes that record VOID and stays. A furl by the host or the management processor of an active core not yet fenced fences it, counts, ends its command FENCED, and starts the copy to the lowest free spare, or with none takes the core out of service. A planned swap whose conditions hold starts its copy; a finished copy of a furl puts the logical number on its spare, idle, with one spare fewer. The rolling test takes the next spare in order; the end of its pause lets it go on; a spare that passes frees the tester. A test request in sequence is queued, a wrong number is recorded SEQ_GAP; the head request of a spare starts when nothing else is under way, and ends BUSY_NO_SLACK when its deadline can no longer be met. A thermal segment is followed by the next group's, or its request is DONE. (R22, R538, R539, R541, R542, R543, R544, R545, R548, R549, R551, R552) -/
def Obligations.RepairBurnsFurlsSwapsAndTests : Prop :=
  (∀ (r : Nat) (l : List Nat) (s : State), s.rep.burns = r :: l → s.fld R.FLT_STAT F.FLT_STAT_FUSES_USED < 127 → r < 2 ^ 32 →
    let i := s.fld R.FLT_STAT F.FLT_STAT_FUSES_USED
    ∀ good, ∃ t, exec (.fuseBurnDone good) s = .next t ∧ SameMem s t ∧ SameRegs [R.FLT_FUSE_REC i, R.FLT_STAT] s t ∧
      t.fld (R.FLT_FUSE_REC i) F.FLT_FUSE_REC_RECORD = (if good then r else 7 * 2 ^ 29) ∧ t.rep.burns = (if good then l else r :: l) ∧
      t.fld R.FLT_STAT F.FLT_STAT_FUSES_USED = i + 1) ∧
  (∀ (r : Req) (n : Fin 16) (s : State), (r = .host ∨ r = .bar2 ∨ r = .mgt) → s.hears r R.FLT_CMD = true → s.coreActive n = true →
    s.fld (R.CORE_STATUS n) F.CORE_STATUS_STATE ≠ 4 → (s.core n).saving = false → s.rep.swap = none → s.rep.furls = [] → s.rep.test = none →
    ∃ t, exec (.fltCmdFurl r n) s = .next t ∧ t.fld R.FLT_STAT F.FLT_STAT_FURLS =
        min (2 ^ F.FLT_STAT_FURLS.w - 1) (s.fld R.FLT_STAT F.FLT_STAT_FURLS + 1) ∧ t.rep.burns = s.rep.burns ∧
      (∀ q c, (s.core n).running = some q → s.head q = some c → c.phase ≠ .suspended → t.head q =
        some { c with phase := .ended, status := worse stFenced c.status, stop := s.now }) ∧ (t.core n).running = none ∧
      (∀ p, s.freeSpare = some p → t.fld (R.CORE_STATUS n) F.CORE_STATUS_STATE = 4 ∧ t.coreActive n = true ∧
        t.rep.swap = some { planned := false, n := n, src := s.physOf n, dst := p, cause := 4, copying := true, back := false }) ∧
      (s.freeSpare = none → t.rep.swap = none ∧ t.coreActive n = false)) ∧
  (∀ (n : Fin 16) (x : CoreTest) (p : Nat) (s : State), s.rep.test = some x → x.logical = some n.val → s.rep.swap = none →
    s.fld R.FLT_ROLL_STAT F.FLT_ROLL_STAT_STATE = 1 → s.freeSpare = some p → s.swapOk n = true →
    ∃ t, exec (.plannedSwapStart n) s = .next t ∧ SameMem s t ∧ SameRegs [] s t ∧
      t.rep.swap = some { planned := true, n := n, src := s.physOf n, dst := p, cause := 0, copying := (s.core n).running.isNone, back := false }) ∧
  (∀ (w : Swap) (s : State), s.rep.swap = some w → w.copying = true → w.planned = false → s.isSpare w.dst = true → w.src ≠ w.dst → w.dst < 18 → w.n < 16 → s.rep.furls = [] →
    ∃ t, exec .swapCopyDone s = .next t ∧ SameMem s t ∧ t.rep.swap = none ∧ t.physOf w.n = w.dst ∧ t.isSpare w.dst = false ∧
      t.fld (R.CORE_STATUS w.n) F.CORE_STATUS_STATE = 1 ∧ t.fld R.GLB_CAPS F.GLB_CAPS_SPARES_LEFT = s.fld R.GLB_CAPS F.GLB_CAPS_SPARES_LEFT - 1 ∧
      SameRegs ([R.CORE_STATUS w.n, R.FLT_MAP, R.FLT_STAT, R.GLB_CAPS] ++ (List.range 64).map (fun k => R.SPD_BANK_STAT (w.n * 64 + k))) s t) ∧
  (∀ (p : Nat) (s : State), s.bit R.FLT_ROLL_CTL F.FLT_ROLL_CTL_ENABLE = true → s.bit R.GLB_BUDGET_MODE F.GLB_BUDGET_MODE_LOCKED = true →
    s.rep.test = none → s.rep.rollPause = false → s.rep.tests = [] → s.rep.thermal = none → s.rep.rollFirst = [] → s.rep.rollPos ≤ p → p < 18 →
    (∀ i, s.rep.rollPos ≤ i → i < p → s.isSpare i = false ∧ s.logicalOf i = none) → s.isSpare p = true → s.logicalOf p = none →
    ∃ t, exec .rollingTestNext s = .next t ∧ SameMem s t ∧ SameRegs [R.FLT_ROLL_STAT] s t ∧ t.fld R.FLT_ROLL_STAT F.FLT_ROLL_STAT_STATE = 2 ∧
      t.fld R.FLT_ROLL_STAT F.FLT_ROLL_STAT_PHYS = p ∧ t.rep.test = some { phys := p, logical := none, req := none }) ∧
  (∀ (s : State), exec .rollingIntervalExpiry s = .next { s with rep := { s.rep with rollPause := false } }) ∧
  (∀ (bank : BitVec 11) (x : CoreTest) (s : State), s.rep.test = some x → s.fld R.FLT_ROLL_STAT F.FLT_ROLL_STAT_STATE = 2 → x.logical = none → x.req = none →
    s.rep.rollFirst = [] → ∃ t, exec (.coreTestDone 0 bank []) s = .next t ∧ SameMem s t ∧ t.rep.test = none ∧ t.rep.rollPos = x.phys + 1 ∧
      t.fld R.FLT_ROLL_STAT F.FLT_ROLL_STAT_STATE = 0 ∧ t.fld R.FLT_TEST_STAT F.FLT_TEST_STAT_FAIL_UNIT = 0 ∧
      SameRegs ([R.FLT_ROLL_STAT, R.FLT_TEST_STAT] ++ s.eventRegs) s t) ∧
  (∀ (r : Req) (v : Word) (s : State), (r = .host ∨ r = .bar2 ∨ r = .mgt) → s.hears r R.FLT_TEST_REQ = true → F.FLT_TEST_REQ_KIND.get v ≠ 0 →
    let x := s.testCopy (r == .mgt)
    let q : TestReq := ⟨r == .mgt, F.FLT_TEST_REQ_KIND.get v, F.FLT_TEST_REQ_TARGET.get v, x.deadline, x.addr.toNat, BitVec.ofNat 32 (F.FLT_TEST_REQ_SEQ.get v)⟩
    (q.seq = x.lastSeq + 1 → s.rep.tests.length < 8 → s.testBad q.kind q.target = false → ∃ t, exec (.fltTestReq r .full v) s = .next t ∧ SameMem s t ∧
      SameRegs [R.FLT_TEST_STAT] s t ∧ t.rep.tests = s.rep.tests ++ [q] ∧ (t.testCopy (r == .mgt)).lastSeq = q.seq) ∧
    (q.seq ≠ x.lastSeq + 1 → ∃ t, exec (.fltTestReq r .full v) s = .next t ∧ t.rep.tests = s.rep.tests ∧
      (t.testCopy (r == .mgt)).lastStatus = stSeqGap ∧ (t.testCopy (r == .mgt)).lastSeq = x.lastSeq)) ∧
  (∀ (q : TestReq) (l : List TestReq) (s : State), s.rep.tests = q :: l →
    (s.rep.test = none → s.rep.thermal = none → s.testLate q = false → q.kind = 2 → s.testBad 2 q.target = false → s.logicalOf q.target = none →
      ∃ t, exec .testRequestStart s = .next t ∧ SameMem s t ∧ SameRegs [R.FLT_TEST_STAT, R.FLT_ROLL_STAT] s t ∧ t.rep.tests = l ∧
        t.rep.test = some { phys := q.target, logical := none, req := some q } ∧ t.fld R.FLT_ROLL_STAT F.FLT_ROLL_STAT_STATE = 2) ∧
    (s.testLate q = true → ∃ t, exec .testRequestNoSlack s = .next t ∧ t.rep.tests = l ∧ (t.testCopy q.mgt).lastStatus = stBusyNoSlack) ∧
    (s.testLate q = false → exec .testRequestNoSlack s = .next s)) ∧
  (∀ (g : Nat) (gs : List Nat) (q : TestReq) (s : State), s.rep.thermal = some (g, gs, q) →
    (∀ h l, gs = h :: l → exec .thermalCalSegmentDone s = .next { s with rep := { s.rep with thermal := some (h, l, q) } }) ∧
    (gs = [] → ∃ t, exec .thermalCalSegmentDone s = .next t ∧ t.rep.thermal = none ∧ (t.testCopy q.mgt).lastStatus = stDone))

/-- A whole write of PWR_CFG, PWR_VDD, PWR_THERM_CFG or a domain's B_MAX by the host over BAR0 or by the management processor takes each field clamped to its range and changes nothing else but CFG_REJECT, which a field out of range sets; a reserved ORDER refuses the whole write of PWR_CFG. That a field out of range that clamps is 0 or above the range, GAIN and B_MAX among them, is the model's reading (log 64). TARGET_MV is rounded down to 5 mV and sent to the regulator. The same write through the register mirror changes CFG_REJECT alone. A transfer that is not acknowledged is sent again, and its tenth failure ends it with CFG_REJECT; with none in progress nothing changes. (R564, R571, R575, R634) -/
def Obligations.PowerSettingsClampAndSend : Prop :=
  (∀ (r : Req) (h : Half) (v : Word) (k : Fin 3) (s : State), s.hears r R.PWR_CFG = true → isMirror r = true →
    let rejects (o : Out) : Prop := ∃ t, o = .next t ∧ RegsOnly [R.PWR_STAT] s t ∧ t.reg R.PWR_STAT = F.PWR_STAT_CFG_REJECT.set (s.reg R.PWR_STAT) 1
    rejects (exec (.pwrCfgWrite r h v) s) ∧ rejects (exec (.pwrVddWrite r h v) s) ∧ rejects (exec (.pwrThermCfgWrite r h v) s) ∧
      rejects (exec (.pwrDomainBmaxWrite k r h v) s)) ∧
  (∀ (r : Req) (v : Word) (s : State), s.hears r R.PWR_CFG = true → isMirror r = false →
    let cl (lo hi x : Nat) : Nat := max lo (min hi x)
    let inR (lo hi x : Nat) : Prop := lo ≤ x ∧ x ≤ hi
    (6 ≤ F.PWR_CFG_ORDER.get v → ∃ t, exec (.pwrCfgWrite r .full v) s = .next t ∧ RegsOnly [R.PWR_STAT] s t ∧ t.bit R.PWR_STAT F.PWR_STAT_CFG_REJECT = true) ∧
    (F.PWR_CFG_ORDER.get v < 6 → ∃ t, exec (.pwrCfgWrite r .full v) s = .next t ∧ RegsOnly [R.PWR_CFG, R.PWR_STAT] s t ∧
      t.fld R.PWR_CFG F.PWR_CFG_CAP_W = cl 120 450 (F.PWR_CFG_CAP_W.get v) ∧ t.fld R.PWR_CFG F.PWR_CFG_ICC_MAX_A = cl 100 520 (F.PWR_CFG_ICC_MAX_A.get v) ∧
      t.fld R.PWR_CFG F.PWR_CFG_ORDER = F.PWR_CFG_ORDER.get v ∧ t.fld R.PWR_CFG F.PWR_CFG_GAIN = cl 1 64 (F.PWR_CFG_GAIN.get v) ∧
      let ok : Prop := inR 120 450 (F.PWR_CFG_CAP_W.get v) ∧ inR 100 520 (F.PWR_CFG_ICC_MAX_A.get v) ∧ inR 1 64 (F.PWR_CFG_GAIN.get v)
      (ok → t.reg R.PWR_STAT = s.reg R.PWR_STAT) ∧ (¬ ok → t.reg R.PWR_STAT = F.PWR_STAT_CFG_REJECT.set (s.reg R.PWR_STAT) 1)) ∧
    (∃ t, exec (.pwrVddWrite r .full v) s = .next t ∧ SameRegs [R.PWR_VDD, R.PWR_STAT] s t ∧ SameMem s t ∧
      let mv := cl 600 850 (F.PWR_VDD_TARGET_MV.get v) / 5 * 5
      t.fld R.PWR_VDD F.PWR_VDD_TARGET_MV = mv ∧ t.out = s.out ++ [.vrTarget mv] ∧ t.pwr = { s.pwr with vr := some (mv, 0) } ∧
      (inR 600 850 (F.PWR_VDD_TARGET_MV.get v) → t.reg R.PWR_STAT = s.reg R.PWR_STAT) ∧
      (¬ inR 600 850 (F.PWR_VDD_TARGET_MV.get v) → t.bit R.PWR_STAT F.PWR_STAT_CFG_REJECT = true)) ∧
    (∃ t, exec (.pwrThermCfgWrite r .full v) s = .next t ∧ RegsOnly [R.PWR_THERM_CFG, R.PWR_STAT] s t ∧
      t.fld R.PWR_THERM_CFG F.PWR_THERM_CFG_THROTTLE_C = cl 95 114 (F.PWR_THERM_CFG_THROTTLE_C.get v) ∧
      t.fld R.PWR_THERM_CFG F.PWR_THERM_CFG_HYST_C = cl 1 20 (F.PWR_THERM_CFG_HYST_C.get v) ∧
      t.fld R.PWR_THERM_CFG F.PWR_THERM_CFG_ALERT_C = cl 60 124 (F.PWR_THERM_CFG_ALERT_C.get v) ∧
      let ok : Prop := inR 95 114 (F.PWR_THERM_CFG_THROTTLE_C.get v) ∧ inR 1 20 (F.PWR_THERM_CFG_HYST_C.get v) ∧ inR 60 124 (F.PWR_THERM_CFG_ALERT_C.get v)
      (ok → t.reg R.PWR_STAT = s.reg R.PWR_STAT) ∧ (¬ ok → t.reg R.PWR_STAT = F.PWR_STAT_CFG_REJECT.set (s.reg R.PWR_STAT) 1)) ∧
    (∀ k : Fin 3, ∃ t, exec (.pwrDomainBmaxWrite k r .full v) s = .next t ∧ RegsOnly [R.PWR_DOMAIN k, R.PWR_STAT] s t ∧
      t.fld (R.PWR_DOMAIN k) F.PWR_DOMAIN_B_MAX = cl 0 64 (F.PWR_DOMAIN_B_MAX.get v) ∧
      t.fld (R.PWR_DOMAIN k) F.PWR_DOMAIN_RATIO = s.fld (R.PWR_DOMAIN k) F.PWR_DOMAIN_RATIO ∧
      (inR 0 64 (F.PWR_DOMAIN_B_MAX.get v) → t.reg R.PWR_STAT = s.reg R.PWR_STAT) ∧
      (¬ inR 0 64 (F.PWR_DOMAIN_B_MAX.get v) → t.bit R.PWR_STAT F.PWR_STAT_CFG_REJECT = true))) ∧
  (∀ (s : State), (s.pwr.vr = none → exec .vrTransferRetry s = .next s) ∧
    ∀ mv n, s.pwr.vr = some (mv, n) →
      (n < 9 → exec .vrTransferRetry s = .next { s with out := s.out ++ [.vrTarget mv], pwr := { s.pwr with vr := some (mv, n + 1) } }) ∧
      (9 ≤ n → ∃ t, exec .vrTransferRetry s = .next t ∧ SameRegs [R.PWR_STAT] s t ∧ SameMem s t ∧ t.out = s.out ∧ t.pwr = { s.pwr with vr := none } ∧
        t.reg R.PWR_STAT = F.PWR_STAT_CFG_REJECT.set (s.reg R.PWR_STAT) 1))

/-- A sample shows the current, the mean of the last four powers (of the samples so far when there are fewer, the model's choice, log 65) and the next SEQ; each sensor that is not held shows its reading and whether it is valid. Tj_max is the largest valid reading, and 115 degrees with eight or more invalid ones. ALERT is set from ALERT_C upwards and cleared below ALERT_C less HYST_C. A sensor whose valid readings reach 125 degrees in two successive samples sets TRIP. The demand is the largest of its terms, at least 0 and at most the sum of the three B_MAX; each domain from the lowest rank upwards takes what those below leave, rounded to 1/64; TRIP puts every domain at its B_MAX, and a hot HBM the memory domain. PWR_ENERGY grows by the sample's energy, a running command by its share and nobody by the rest. Only the PWR registers and SCH_STAT change. (R456, R563, R564, R565, R567, R568, R569, R570, R577) -/
def Obligations.PowerSamplesMeasureAndThrottle : Prop :=
  ∀ (x : PowerSample) (s : State), ∃ t, exec (.powerSample x) s = .next t ∧ SameMem s t ∧
    SameRegs ([R.PWR_MEAS, R.PWR_STAT, R.PWR_ENERGY, R.SCH_STAT] ++ (List.range 64).map R.PWR_TEMP ++ (List.range 3).map R.PWR_DOMAIN) s t ∧
    let ring := (x.power.toNat :: s.pwr.ring).take 4
    let p := ring.foldl (fun (a : Nat) w => a + w) 0
    let temps := (List.range 64).map (fun i => s.tempNow x.temps i)
    let bad := (temps.filter (fun y => !y.2)).length
    let tj : Int := if 8 ≤ bad then 460 else ((hottest temps).getD (0, 0)).2
    let dem := s.demand p ring.length x.icc.toNat tj
    let d : Rat := min dem.1 (max 0 (max dem.2.1 (max dem.2.2.1 dem.2.2.2)))
    let o := pwrOrder (s.fld R.PWR_CFG F.PWR_CFG_ORDER)
    t.fld R.PWR_MEAS F.PWR_MEAS_ICC_DA = x.icc.toNat ∧ t.fld R.PWR_MEAS F.PWR_MEAS_P_DW = p / ring.length % 65536 ∧
    t.fld R.PWR_MEAS F.PWR_MEAS_SEQ = (s.fld R.PWR_MEAS F.PWR_MEAS_SEQ + 1) % 256 ∧ t.fld R.PWR_MEAS F.PWR_MEAS_TJ_MAX = toTwos 16 tj ∧
    (∀ i, i < 64 → s.tempHeld i = false → t.fld (R.PWR_TEMP i) F.PWR_TEMP_TEMP = (x.temps.getD i 0).toNat ∧
      t.bit (R.PWR_TEMP i) F.PWR_TEMP_VALID = readingOk ((List.range 8).map (fun j => (x.temps.getD (i / 8 * 8 + j) 0).toInt)) (x.temps.getD i 0).toInt) ∧
    (∀ i, i < 64 → s.tempHeld i = true → t.fld (R.PWR_TEMP i) F.PWR_TEMP_TEMP = s.fld (R.PWR_TEMP i) F.PWR_TEMP_TEMP ∧
      t.bit (R.PWR_TEMP i) F.PWR_TEMP_HELD = true) ∧
    t.fld R.PWR_STAT F.PWR_STAT_FAILED_SENSORS = bad ∧ (bad ≠ 0 → t.bit R.PWR_STAT F.PWR_STAT_SENSOR_FAIL = true) ∧
    (4 * (s.fld R.PWR_THERM_CFG F.PWR_THERM_CFG_ALERT_C : Int) ≤ tj → t.bit R.PWR_STAT F.PWR_STAT_ALERT = true) ∧
    (tj < 4 * ((s.fld R.PWR_THERM_CFG F.PWR_THERM_CFG_ALERT_C : Int) - (s.fld R.PWR_THERM_CFG F.PWR_THERM_CFG_HYST_C : Int)) → t.bit R.PWR_STAT F.PWR_STAT_ALERT = false) ∧
    t.bit R.PWR_STAT F.PWR_STAT_TRIP = (s.bit R.PWR_STAT F.PWR_STAT_TRIP ||
      s.pwr.hot.any (fun i => decide (i < 64) && (s.tempNow x.temps i).2 && decide (500 ≤ (s.tempNow x.temps i).1))) ∧
    (∀ i k : Nat, o[i]? = some k → t.ratio k =
      (if t.bit R.PWR_STAT F.PWR_STAT_TRIP = true ∨ (s.bit R.HBM_STAT F.HBM_STAT_HOT = true ∧ k = 1) then s.bMax k
       else round64 (min ((s.bMax k : Rat) / 64) (max 0 (d - (((o.take i).map s.bMax).sum : Rat) / 64))))) ∧
    (dem.1 ≤ dem.2.1 → t.bit R.PWR_STAT F.PWR_STAT_CAP_UNMET = true) ∧
    t.fld R.PWR_ENERGY F.PWR_ENERGY_UJ = (s.fld R.PWR_ENERGY F.PWR_ENERGY_UJ + x.energy.toNat) % 2 ^ 64 ∧ t.pwr.unattr = s.pwr.unattr + x.idle.toNat ∧
    (∀ (q : BitVec 16) (e : BitVec 32) (c : Cmd), x.shares = [(q, e)] → s.executing q.toNat = true → s.head q.toNat = some c →
      t.head q.toNat = some { c with energy := c.energy + e.toNat }) ∧
    (x.shares = [] → t.queues = s.queues)

/-- A taken write of a register without an action of its own sets the covered RW bits, clears the covered W1C bits written with 1 and changes nothing else; an offset that is no multiple of 8 names no register. A BAR0 request that is no aligned access of 4 or 8 bytes sets BAD_BAR0 when the endpoint answers, and a read of it completes with Unsupported Request. A BAR2 read of HBM returns its bytes, flagged when a byte is poisoned; of the host window or an unmapped address zeros; a register's half is read and written as BAR0's with the requester BAR2. A BAR2 write stores the bytes that HBM takes and nothing else, a partial word of a scratchpad is discarded and counted, and the host window takes none. A completion of a descriptor read gives the queue its descriptor, and a failed one or a completion timeout an INTEGRITY record; with no read outstanding nothing changes. (R9, R10, R36, R466, R589, R590, R593) -/
def Obligations.RegisterWritesAndWindowAccesses : Prop :=
  (∀ (r : Req) (o : Nat) (h : Half) (v : Word) (d : RegDesc) (s : State),
    o ∈ [R.GLB_BAR2_BASE, R.GLB_HOST_WIN, R.GLB_IRQ_CFG, R.GLB_HOST_STAT, R.GLB_IRQ_STAT, R.FAB_STAGE_BASE, R.FAB_STAGE_LEN, R.TIME_STAT, R.SPD_STAT, R.HBM_STAT, R.FLT_STAT] →
    regAt o = some d → s.takesWrite r o = true → ∃ t, exec (.genericRegisterWrite r (BitVec.ofNat 26 o) h v) s = .next t ∧ RegsOnly [o] s t ∧
      ∀ i, i < 64 → (t.reg o).getLsbD i = (if (halfMask h).getLsbD i = true ∧ d.rw.getLsbD i = true then v.getLsbD i
        else if (halfMask h).getLsbD i = true ∧ d.w1c.getLsbD i = true ∧ v.getLsbD i = true then false else (s.reg o).getLsbD i)) ∧
  (∀ (r : Req) (o : BitVec 26) (h : Half) (v : Word) (s : State), o.toNat % 8 ≠ 0 → exec (.genericRegisterWrite r o h v) s = .next s) ∧
  (∀ (w : Bool) (s : State),
    (s.host.d3hot = false → s.bootAnswers = true → exec (.bar0BadAccess w) s =
      .next { s.setFld R.GLB_HOST_STAT F.GLB_HOST_STAT_BAD_BAR0 1 with out := s.out ++ (if w then [] else [.unsupported]) }) ∧
    ((s.host.d3hot = true ∨ s.bootAnswers = false) → exec (.bar0BadAccess w) s = .next { s with out := s.out ++ (if w then [] else [.unsupported]) })) ∧
  (∀ (x : BitVec 32) (len : BitVec 13) (s : State), s.host.d3hot = false → s.bootAnswers = true → 1 ≤ len.toNat → len.toNat ≤ 4096 →
    let n := len.toNat
    let a := s.bar2Addr x.toNat
    (a + n ≤ s.hbmBytes → s.spd.ecc = [] → (s.poison = [] → exec (.bar2Read x len) s = .next (s.emit (.bar2Data x.toNat (s.rdBytes a n) false))) ∧
      (s.poisoned a n = true → ∃ t, exec (.bar2Read x len) s = .next t ∧ SameMem s t ∧ t.out.getLast? = some (.bar2Data x.toNat (s.rdBytes a n) true))) ∧
    ((inHostWindow a = true ∨ s.place a = .unmapped) → exec (.bar2Read x len) s = .next (s.emit (.bar2Data x.toNat (List.replicate n 0) false))) ∧
    (n = 8 → a = 0x200000000000 + R.GLB_HOST_WIN → exec (.bar2Read x len) s =
      .next (s.emit (.bar2Data x.toNat (leBytes (s.reg R.GLB_HOST_WIN).toNat 8) false)))) ∧
  (∀ (x : BitVec 32) (l : List Byte) (s : State), s.host.d3hot = false → s.bootServes = true → 1 ≤ l.length → l.length ≤ 512 →
    let a := s.bar2Addr x.toNat
    (a + l.length ≤ s.hbmBytes → (∀ i, i < l.length → s.hit hostAgent true (a + i) = .ok (a + i)) → ∃ t, exec (.bar2Write x l) s = .next t ∧ SameRegs [] s t ∧
      (∀ i, i < l.length → t.rd (a + i) = l.getD i 0) ∧ ∀ b, (b < a ∨ a + l.length ≤ b) → t.rd b = s.rd b) ∧
    (∀ b o, s.place a = .spd b o → (a % 8 ≠ 0 ∨ l.length % 8 ≠ 0) → ∃ t, exec (.bar2Write x l) s = .next t ∧ RegsOnly [R.GLB_HOST_STAT] s t ∧
      t.fld R.GLB_HOST_STAT F.GLB_HOST_STAT_PARTIAL_DROP = min (2 ^ F.GLB_HOST_STAT_PARTIAL_DROP.w - 1) (s.fld R.GLB_HOST_STAT F.GLB_HOST_STAT_PARTIAL_DROP + 1)) ∧
    ((inHostWindow a = true ∨ s.place a = .unmapped) → exec (.bar2Write x l) s = .next s) ∧
    (∀ o, s.place a = .mirror o → o % 8 = 0 → l.length = 8 → exec (.bar2Write x l) s = .next (s.busWrite .bar2 o .full (BitVec.ofNat 64 (leNat l))))) ∧
  (∀ (data : List Byte) (q : Nat) (o : OutRead) (s : State), s.host.reads.find? (fun o => inHostWindow o.addr) = some o → o.what = .desc q → o.len = 64 → s.qBound q = true →
    let got (c : Out) (bad : Bool) (d : List Byte) : Prop := ∃ t x, c = .next t ∧ SameMem s t ∧ t.host.reads = s.host.reads.erase o ∧
      (t.queue q).cmds = (s.queue q).cmds ++ [x] ∧ x.desc = d ∧ (bad = true → x.phase = .ended ∧ x.status = stIntegrity) ∧
      t.fld (R.QUE_RING q) F.QUE_RING_CMD_CONS = (s.fld (R.QUE_RING q) F.QUE_RING_CMD_CONS + 1) % 2 ^ 32
    (data.length = 64 → got (exec (.hostReadCompletion data true) s) false data ∧ got (exec (.hostReadCompletion data false) s) true data) ∧
    got (exec .completionTimeout s) true (List.replicate 64 0)) ∧
  (∀ (data : List Byte) (ok : Bool) (s : State), s.host.reads.find? (fun o => inHostWindow o.addr) = none →
    exec (.hostReadCompletion data ok) s = .next s ∧ exec .completionTimeout s = .next s)

/-- Clearing a vector's mask, or the function's, sends the message of a vector that is pending where the endpoint can master the link, and clears its pending bit; nothing pending, only the mask changes. A write of GLB_IRQ_MASK takes the covered bits, and every bit it clears while its cause reads 1 sends the message of vector BASE + i where MSI-X is enabled and the vector not masked; with no such bit nothing is sent. The link up shows LINK_UP and sends the vectors that waited (that they wait while the endpoint cannot master the link is the model's choice, log 16). The link down clears LINK_UP; an outstanding read of the host window returns zeros and counts in HOST_DROPS. PERST does the same and leaves the endpoint's configuration and the MSI-X table as after reset (that the table is reset with them is the model's choice, log 4), and the rest of the device as it was. Configuration writes set D3hot, Bus Master Enable and MSI-X enable and mask when the endpoint answers. (R36, R587, R593, R594, R595, R604) -/
def Obligations.VectorsAndTheLink : Prop :=
  (∀ (v : Fin 2048) (s : State), let a := s.msixWord (2 * v.val)
    let w := s.msixWord (2 * v.val + 1)
    let pend := Store.get (fun _ => false) s.host.pba v.val
    ∃ t, exec (.msixUnmask (some v)) s = .next t ∧ SameRegs [] s t ∧ SameMem s t ∧ t.msixWord (2 * v.val + 1) = w &&& 0xFFFFFFFF ∧
      (∀ k, k ≠ 2 * v.val + 1 → t.msixWord k = s.msixWord k) ∧
      (pend = false → t.out = s.out ∧ t.host.waiting = s.host.waiting) ∧
      (pend = true → s.host.msixEnable = true → s.host.msixFnMask = false → s.canMaster = true →
        t.out = s.out ++ [.msix v.val a (w &&& 0xFFFFFFFF)] ∧ Store.get (fun _ => false) t.host.pba v.val = false)) ∧
  (∀ (s : State), (s.host.pba = [] → exec (.msixUnmask none) s = .next { s with host := { s.host with msixFnMask := false } }) ∧
    ∀ v, s.host.pba = [(v, true)] → s.host.msixEnable = true → s.canMaster = true → (s.msixWord (2 * v + 1)).getLsbD 32 = false →
      ∃ t, exec (.msixUnmask none) s = .next t ∧ SameRegs [] s t ∧ SameMem s t ∧ t.host.msixFnMask = false ∧
        t.out = s.out ++ [.msix v (s.msixWord (2 * v)) (BitVec.ofNat 64 ((s.msixWord (2 * v + 1)).toNat % 2 ^ 32))]) ∧
  (∀ (r : Req) (h : Half) (v : Word) (s : State), s.takesWrite r R.GLB_IRQ_MASK = true →
    let base := s.fld R.GLB_IRQ_CFG F.GLB_IRQ_CFG_BASE
    ∃ t, exec (.glbIrqMaskWrite r h v) s = .next t ∧ SameRegs [R.GLB_IRQ_MASK] s t ∧ SameMem s t ∧
      t.reg R.GLB_IRQ_MASK = (s.reg R.GLB_IRQ_MASK &&& ~~~ halfMask h) ||| (v &&& halfMask h) ∧ s.out <+: t.out ∧
      (∀ i, i < 64 → (s.reg R.GLB_IRQ_MASK).getLsbD i = true → (t.reg R.GLB_IRQ_MASK).getLsbD i = false → s.cause i = true →
        s.host.msixEnable = true → s.vecMasked (base + i) = false → s.canMaster = true → base + i ≤ 2047 →
        .msix (base + i) (s.msixWord (2 * (base + i))) (BitVec.ofNat 64 ((s.msixWord (2 * (base + i) + 1)).toNat % 2 ^ 32)) ∈ t.out.drop s.out.length) ∧
      ((∀ i, i < 64 → (s.reg R.GLB_IRQ_MASK).getLsbD i = true → (t.reg R.GLB_IRQ_MASK).getLsbD i = false → s.cause i = false) → t.out = s.out ∧ t.host = s.host)) ∧
  (∀ (s : State), ∃ t, exec .pcieLinkUp s = .next t ∧ SameRegs [R.GLB_HOST_STAT] s t ∧ SameMem s t ∧ t.bit R.GLB_HOST_STAT F.GLB_HOST_STAT_LINK_UP = true ∧
    ((s.host.busMaster = false ∨ s.host.d3hot = true) → t.out = s.out ∧ t.host = s.host) ∧
    (s.host.busMaster = true → s.host.d3hot = false → t.host.waiting = [] ∧ (s.host.waiting = [] → t.out = s.out) ∧
      ∀ v, s.host.waiting = [v] → s.vecMasked v = false →
        t.out = s.out ++ [.msix v (s.msixWord (2 * v)) (BitVec.ofNat 64 ((s.msixWord (2 * v + 1)).toNat % 2 ^ 32))])) ∧
  (∀ (s : State), ((∀ o ∈ s.host.reads, inHostWindow o.addr = false) →
      (∃ t, exec .pcieLinkDown s = .next t ∧ RegsOnly [R.GLB_HOST_STAT] s t ∧ t.bit R.GLB_HOST_STAT F.GLB_HOST_STAT_LINK_UP = false) ∧
      (∃ t, exec .perstAssert s = .next t ∧ SameRegs [R.GLB_HOST_STAT] s t ∧ t.bit R.GLB_HOST_STAT F.GLB_HOST_STAT_LINK_UP = false ∧
        { t with regs := s.regs, host := s.host } = s ∧ t.host = { reads := s.host.reads })) ∧
    ∀ q a, s.host.reads = [{ what := .desc q, addr := a, len := 64, tseq := 0 }] → inHostWindow a = true → s.qBound q = true →
      ∃ t x, exec .pcieLinkDown s = .next t ∧ SameMem s t ∧ t.host.reads = [] ∧ t.bit R.GLB_HOST_STAT F.GLB_HOST_STAT_LINK_UP = false ∧
        t.fld R.GLB_HOST_STAT F.GLB_HOST_STAT_HOST_DROPS = min (2 ^ F.GLB_HOST_STAT_HOST_DROPS.w - 1) (s.fld R.GLB_HOST_STAT F.GLB_HOST_STAT_HOST_DROPS + 1) ∧
        (t.queue q).cmds = (s.queue q).cmds ++ [x] ∧ x.desc = List.replicate 64 0) ∧
  (∀ (s : State), (s.bootAnswers = false → ∀ w, exec (.pcieConfigWrite w) s = .next s) ∧
    (s.bootAnswers = true → s.host.waiting = [] →
      (∀ b, exec (.pcieConfigWrite (.power b)) s = .next { s with host := { s.host with d3hot := b } }) ∧
      (∀ b, exec (.pcieConfigWrite (.busMaster b)) s = .next { s with host := { s.host with busMaster := b } }) ∧
      (s.host.pba = [] → ∀ en fm, exec (.pcieConfigWrite (.msix en fm)) s = .next { s with host := { s.host with msixEnable := en, msixFnMask := fm } })))

/-- For a message for this device while the firmware runs: a HELLO of another session with SEQ 0 opens it, its ACK takes what it covers out of the window, an ACK of 0 answers it and the rest of the window is sent again under the new session; with another SEQ it changes nothing. An ACK of the current session takes what it covers out of the window. A sequenced message of another session changes nothing (the model's reading, log 66), one of the current session with a number other than the next is answered by an ACK of the last accepted number. In sequence a LIB_CHUNK stores its bytes at OFFSET of the staging area; a LIB_INSTALL above 8 MiB, during an installation, or whose checks fail is answered by a RESULT with its status, one that passes is copied to the inactive slot and BUSY, and one during a key operation waits. Bytes with a wrong field, length or CRC count in BAD_RX. The management link shows in LINK. (R555, R597, R598, R599, R600, R601, R606, R620) -/
def Obligations.StationMessagesActInSequence : Prop :=
  let here (m : HalMsg) (s : State) : Prop := s.mgtRuns = true ∧ (m.toDevice = false ∨ m.position.toNat = s.position)
  let result (m : HalMsg) (st : BitVec 8) (s t : State) : Prop := SameMem s t ∧ t.mgt.rxSeq = m.seq ∧ t.fld R.MGT_HAL_STATE F.MGT_HAL_STATE_TX_SEQ = (s.txSeq + 1).toNat ∧
    ∃ x, t.mgt.unacked = [x] ∧ x.type = 7 ∧ x.seq = s.txSeq + 1 ∧ x.payload = leBytes m.seq.toNat 4 ++ leBytes st.toNat 1 ++ leBytes 0 3
  (∀ (m : HalMsg) (s : State), m.type = 1 → here m s → s.mgt.session ≠ some m.session →
    (m.seq ≠ 0 → exec (.halyardHello m) s = .next s) ∧
    (m.seq = 0 → s.halWorker = false → s.bit R.MGT_STAT F.MGT_STAT_LINK = true →
      let l := (s.mgt.unacked.filter (fun x => decide ((m.ack - x.seq).toInt < 0))).map (fun x => { x with session := m.session, ack := 0, stamp := s.now, position := BitVec.ofNat 8 s.position })
      ∃ t a, exec (.halyardHello m) s = .next t ∧ SameMem s t ∧ SameRegs [R.MGT_STAT, R.MGT_HAL_STATE] s t ∧ t.mgt.session = some m.session ∧ t.mgt.rxSeq = 0 ∧
        t.bit R.MGT_STAT F.MGT_STAT_SESSION_OPEN = true ∧ t.mgt.unacked = l ∧ t.fld R.MGT_HAL_STATE F.MGT_HAL_STATE_TX_SEQ = s.fld R.MGT_HAL_STATE F.MGT_HAL_STATE_TX_SEQ ∧
        t.out = s.out ++ .halyard a :: l.map .halyard ∧ a.type = 2 ∧ a.session = m.session ∧ a.ack = 0 ∧ a.payload = [])) ∧
  (∀ (m : HalMsg) (s : State), m.type = 2 → here m s →
    (s.mgt.session ≠ some m.session → exec (.halyardAck m) s = .next s) ∧
    (s.mgt.session = some m.session → ∃ t, exec (.halyardAck m) s = .next t ∧ SameMem s t ∧ SameRegs [R.MGT_HAL_STATE] s t ∧ t.out = s.out ∧
      t.mgt = { s.mgt with unacked := s.mgt.unacked.filter (fun x => decide ((m.ack - x.seq).toInt < 0)) } ∧
      (t.mgt.unacked.length < s.mgt.unacked.length → t.fld R.MGT_HAL_STATE F.MGT_HAL_STATE_TX_ACKED = m.ack.toNat))) ∧
  (∀ (m : HalMsg) (i : Instr) (s : State), (i = .halyardHello m ∧ m.type = 1 ∧ s.mgt.session = some m.session) ∨ (i = .halyardLibChunk m ∧ m.type = 5) ∨ (i = .halyardLibInstall m ∧ m.type = 6) →
    here m s → (s.mgt.session ≠ some m.session → exec i s = .next s) ∧
    (s.mgt.session = some m.session → m.seq ≠ s.mgt.rxSeq + 1 → s.halWorker = false → s.bit R.MGT_STAT F.MGT_STAT_LINK = true → ∃ t a, exec i s = .next t ∧ SameMem s t ∧
      SameRegs [R.MGT_HAL_STATE] s t ∧ t.mgt.rxSeq = s.mgt.rxSeq ∧ t.mgt.staging = s.mgt.staging ∧ t.rep = s.rep ∧ t.out = s.out ++ [.halyard a] ∧ a.type = 2 ∧ a.ack = s.mgt.rxSeq)) ∧
  (∀ (m : HalMsg) (s : State), here m s → s.mgt.session = some m.session → m.seq = s.mgt.rxSeq + 1 → s.mgt.unacked = [] →
    (m.type = 5 → let o := sliceN m.payload 0 4
      ∃ t, exec (.halyardLibChunk m) s = .next t ∧ t.regs = s.regs ∧ SameMem s t ∧ t.mgt.rxSeq = m.seq ∧ t.mgt.ackDue = true ∧
        (∀ j, j + 4 < m.payload.length → t.stageByte (o + j) = m.payload.getD (4 + j) 0) ∧
        ∀ j, (j < o ∨ o + m.payload.length ≤ j + 4) → t.stageByte j = s.stageByte j) ∧
    (m.type = 6 → let len := sliceN m.payload 0 8
      let l := (List.range len).map s.stageByte
      let st := s.penCheck l len (sliceN m.payload 8 1 == 1)
      let base := s.penSlot s.penInactive
      let n := sliceN l 16 8
      (s.keyBusy = true → ∃ t, exec (.halyardLibInstall m) s = .next t ∧ t.regs = s.regs ∧ SameMem s t ∧ t.mgt.rxSeq = m.seq ∧
        t.sec = { s.sec with waiting := s.sec.waiting ++ [.library m.seq len (sliceN m.payload 8 1 == 1)] }) ∧
      (s.keyBusy = false →
        (0x800000 < len → ∃ t, exec (.halyardLibInstall m) s = .next t ∧ result m stRejected s t) ∧
        (len ≤ 0x800000 → s.bit R.FLT_PEN_STAT F.FLT_PEN_STAT_BUSY = true → ∃ t, exec (.halyardLibInstall m) s = .next t ∧ result m stBusyNoSlack s t) ∧
        (len ≤ 0x800000 → s.bit R.FLT_PEN_STAT F.FLT_PEN_STAT_BUSY = false →
          (st ≠ stDone → ∃ t, exec (.halyardLibInstall m) s = .next t ∧ result m st s t ∧ t.fld R.FLT_PEN_STAT F.FLT_PEN_STAT_LAST_STATUS = st.toNat) ∧
          (st = stDone → ∃ t, exec (.halyardLibInstall m) s = .next t ∧ SameRegs [R.FLT_PEN_STAT] s t ∧ t.bit R.FLT_PEN_STAT F.FLT_PEN_STAT_BUSY = true ∧
            t.rep.install = some (sliceN l 4 4, sliceN l 8 1, m.seq.toNat + 1) ∧ (∀ i, i < n → i < len → t.rd (base + i) = s.stageByte i) ∧
            ∀ a, (a < base ∨ base + n ≤ a) → t.rd a = s.rd a))))) ∧
  (∀ (l : List Byte) (s : State), s.mgtRuns = true → let len := sliceN l 6 2
    (l.length ≠ 36 + len ∨ 1404 < len ∨ sliceN l 0 2 ≠ 0x4C48 ∨ sliceN l 2 1 ≠ 1 ∨ sliceN l 20 4 ≠ 0 ∨ 2 ≤ sliceN l 5 1 ∨
      sliceN l (32 + len) 4 ≠ (crc32 (l.take (32 + len))).toNat ∨ sliceN l 3 1 ∉ [1, 2, 5, 6]) →
    ∃ t, exec (.halyardBadRx l) s = .next t ∧ RegsOnly [R.MGT_STAT] s t ∧ t.fld R.MGT_STAT F.MGT_STAT_BAD_RX = min 65535 (s.fld R.MGT_STAT F.MGT_STAT_BAD_RX + 1)) ∧
  (∀ (s : State), (∃ t, exec .mgtLinkUp s = .next t ∧ RegsOnly [R.MGT_STAT] s t ∧ t.reg R.MGT_STAT = F.MGT_STAT_LINK.set (s.reg R.MGT_STAT) 1) ∧
    ∃ t, exec .mgtLinkDown s = .next t ∧ RegsOnly [R.MGT_STAT] s t ∧ t.reg R.MGT_STAT = F.MGT_STAT_LINK.set (s.reg R.MGT_STAT) 0)

/-- With the firmware running, fewer than 64 messages unacknowledged and an event not yet reported, an ERROR_REPORT with the next number carries that event's 32 bytes; with a full window or no event nothing changes. At the end of a telemetry interval a sample with the telemetry count is sent, or an overloaded processor sheds it, shows SATURATED and counts it as a gap; before it nothing changes. After RETX_MS, 0 taken as 1, every unacknowledged message is sent again with the current acknowledgement. An acknowledgement that is due is sent alone. A posted mailbox message whose SEQ is not the next is answered SEQ_GAP and has no effect; in sequence ECHO returns words 1 to 7, SEND queues a HOST_NOTE or is answered BUSY_NO_SLACK with a full window, TELEM sets the interval, STATE returns the three counters and any other opcode is REJECTED; the IN side is free, OUT is FULL. Without a posted message, or with OUT full, nothing changes. RELEASE frees OUT. (R440, R556, R557, R598, R599, R603, R606) -/
def Obligations.ReportsTelemetryAndTheMailbox : Prop :=
  (∀ (s : State), s.mgtRuns = true → let prod := s.fld R.FLT_EVT_PROD F.FLT_EVT_PROD_PROD
    let next := max s.mgt.evtNext (prod - 256)
    ((64 ≤ s.mgt.unacked.length ∨ prod ≤ next) → exec .halyardErrorReport s = .next s) ∧
    (s.mgt.unacked.length < 64 → next < prod → ∃ t x, exec .halyardErrorReport s = .next t ∧ SameMem s t ∧ SameRegs [R.MGT_HAL_STATE] s t ∧
      t.mgt.unacked = s.mgt.unacked ++ [x] ∧ x.type = 3 ∧ x.seq = s.txSeq + 1 ∧ t.txSeq = s.txSeq + 1 ∧ t.mgt.evtNext = next + 1 ∧
      x.payload = (List.range 4).flatMap (fun w => leBytes (s.reg (R.FLT_EVT (next % 256) w)).toNat 8) ∧
      (s.mgt.session.isSome = true → s.halWorker = false → s.bit R.MGT_STAT F.MGT_STAT_LINK = true → t.out = s.out ++ [.halyard x]))) ∧
  (∀ (shed : Bool) (s : State), s.mgtRuns = true →
    let due := s.mgt.telemAt + s.mgt.interval * 1000000
    ((s.mgt.interval = 0 ∨ s.nowNs < due) → exec (.halyardTelemetry shed) s = .next s) ∧
    (s.mgt.interval ≠ 0 → due ≤ s.nowNs →
      (shed = true → ∃ t, exec (.halyardTelemetry shed) s = .next t ∧ SameMem s t ∧ SameRegs [R.FLT_STAT, R.MGT_STAT] s t ∧ t.out = s.out ∧
        t.bit R.MGT_STAT F.MGT_STAT_SATURATED = true ∧ t.bit R.FLT_STAT F.FLT_STAT_MGT_SATURATED = true ∧
        t.mgt = { s.mgt with telemSeq := s.mgt.telemSeq + 1, telemAt := s.nowNs, minRate := 0xFFFF, shed := s.mgt.shed + 1 }) ∧
      (shed = false → s.mgt.shed = 0 → s.mgt.session.isSome = true → s.halWorker = false → s.bit R.MGT_STAT F.MGT_STAT_LINK = true →
        ∃ x, exec (.halyardTelemetry shed) s = .next { s with
            out := s.out ++ [.halyard x], mgt := { s.mgt with telemSeq := s.mgt.telemSeq + 1, telemAt := s.nowNs, minRate := 0xFFFF } } ∧
          x.type = 4 ∧ x.seq = s.mgt.telemSeq ∧ x.ack = s.mgt.rxSeq ∧ x.payload.length = 96 ∧ sliceN x.payload 0 8 = (s.reg R.PWR_MEAS).toNat ∧
          sliceN x.payload 24 8 = (s.reg R.PWR_ENERGY).toNat ∧ sliceN x.payload 88 8 = (s.reg (R.SCH_CANTON_ENERGY 7)).toNat))) ∧
  (∀ (s : State), s.mgtRuns = true → s.mgt.unacked ≠ [] → let due := s.mgt.retxAt + max 1 (s.fld R.MGT_CFG F.MGT_CFG_RETX_MS) * 1000000
    (s.nowNs < due → exec .halyardRetransmit s = .next s) ∧
    (due ≤ s.nowNs → ∀ n, s.mgt.session = some n → s.halWorker = false → s.bit R.MGT_STAT F.MGT_STAT_LINK = true →
      let l := s.mgt.unacked.map (fun x => { x with session := n, ack := s.mgt.rxSeq, stamp := s.now, position := BitVec.ofNat 8 s.position })
      exec .halyardRetransmit s = .next { s with out := s.out ++ l.map .halyard, mgt := { s.mgt with retxAt := s.nowNs, unacked := l } })) ∧
  (∀ (s : State), s.mgtRuns = true → (s.mgt.ackDue = false → exec .halyardAckSend s = .next s) ∧
    (s.mgt.ackDue = true → s.mgt.session.isSome = true → s.halWorker = false → s.bit R.MGT_STAT F.MGT_STAT_LINK = true →
      ∃ x, exec .halyardAckSend s = .next { s with out := s.out ++ [.halyard x], mgt := { s.mgt with ackDue := false } } ∧ x.type = 2 ∧ x.ack = s.mgt.rxSeq ∧ x.payload = [])) ∧
  (∀ (s : State), let posted := s.mgtRuns = true ∧ s.bit R.MGT_MBOX_IN_CTL F.MGT_MBOX_IN_CTL_BUSY = true ∧ s.bit R.MGT_MBOX_OUT_CTL F.MGT_MBOX_OUT_CTL_FULL = false
    let regs := [R.MGT_MBOX_IN_CTL, R.MGT_MBOX_OUT_CTL] ++ (List.range 8).map R.MGT_MBOX_OUT
    let answers (o : Out) (st : BitVec 8) (words : List Word) (t : State) : Prop := o = .next t ∧ SameMem s t ∧
      t.reg (R.MGT_MBOX_OUT 0) = BitVec.ofNat 64 (s.mboxOp + st.toNat * 256 + s.mboxSeq.toNat * 2 ^ 32) ∧ (∀ i, i < 7 → t.reg (R.MGT_MBOX_OUT (i + 1)) = words.getD i 0) ∧
      t.bit R.MGT_MBOX_IN_CTL F.MGT_MBOX_IN_CTL_BUSY = false ∧ t.bit R.MGT_MBOX_OUT_CTL F.MGT_MBOX_OUT_CTL_FULL = true
    let op (n : Nat) : Instr := if n = 1 then .mboxEcho else if n = 2 then .mboxSend else if n = 3 then .mboxTelem else if n = 4 then .mboxState else .mboxUnknownOpcode
    let last := s.fld R.MGT_MBOX_IN_CTL F.MGT_MBOX_IN_CTL_LAST_SEQ
    (¬ posted → ∀ n, exec (op n) s = .next s) ∧
    (posted → s.mboxSeq.toNat ≠ (last + 1) % 2 ^ 32 → ∃ t, answers (exec (op s.mboxOp) s) stSeqGap [] t ∧ SameRegs regs s t ∧ t.mgt = s.mgt ∧
      t.fld R.MGT_MBOX_IN_CTL F.MGT_MBOX_IN_CTL_LAST_SEQ = last) ∧
    (posted → s.mboxSeq.toNat = (last + 1) % 2 ^ 32 →
      (s.mboxOp = 1 → ∃ t, answers (exec .mboxEcho s) stDone ((List.range 7).map (fun i => s.reg (R.MGT_MBOX_IN (i + 1)))) t ∧ SameRegs regs s t ∧ t.mgt = s.mgt ∧
        t.fld R.MGT_MBOX_IN_CTL F.MGT_MBOX_IN_CTL_LAST_SEQ = s.mboxSeq.toNat) ∧
      (s.mboxOp = 2 → s.mgt.unacked.length < 64 → s.halWorker = false → ∃ t x, answers (exec .mboxSend s) stDone [] t ∧ SameRegs (R.MGT_HAL_STATE :: regs) s t ∧
        t.mgt = { s.mgt with unacked := s.mgt.unacked ++ [x] } ∧ x.type = 8 ∧ x.seq = s.txSeq + 1 ∧
        x.payload = (List.range 7).flatMap (fun i => leBytes (s.reg (R.MGT_MBOX_IN (i + 1))).toNat 8)) ∧
      (s.mboxOp = 2 → 64 ≤ s.mgt.unacked.length → ∃ t, answers (exec .mboxSend s) stBusyNoSlack [] t ∧ SameRegs regs s t ∧ t.mgt = s.mgt) ∧
      (s.mboxOp = 3 → ∃ t, answers (exec .mboxTelem s) stDone [] t ∧ SameRegs regs s t ∧
        t.mgt = { s.mgt with interval := (s.reg (R.MGT_MBOX_IN 1)).toNat % 65536, telemAt := s.nowNs }) ∧
      (s.mboxOp = 4 → ∃ t, answers (exec .mboxState s) stDone
          [BitVec.ofNat 64 (s.mgt.session.getD 0).toNat, BitVec.ofNat 64 s.mgt.rxSeq.toNat, BitVec.ofNat 64 s.txAcked.toNat] t ∧ SameRegs regs s t ∧ t.mgt = s.mgt) ∧
      ((s.mboxOp = 0 ∨ 4 < s.mboxOp) → ∃ t, answers (exec .mboxUnknownOpcode s) stRejected [] t ∧ SameRegs regs s t ∧ t.mgt = s.mgt))) ∧
  (∀ (r : Req) (s : State), s.takesWrite r R.MGT_MBOX_OUT_CTL = true → ∃ t, exec (.mboxRelease r) s = .next t ∧ RegsOnly [R.MGT_MBOX_OUT_CTL] s t ∧
    t.bit R.MGT_MBOX_OUT_CTL F.MGT_MBOX_OUT_CTL_FULL = false)

/-- After a power-on reset every register stands at its reset value but the fuse windows, which keep theirs, SEC_RESULT, SEC_BOOT_STAT and FAB_STATUS; memory reads zero, time is zero, the boot stands at its first stage with the straps sampled, and FAB_STATUS in FULL_LOAD. A brownout outside a reset, a SEC_CTL.WARM_RESET of the host with its confirmation, and RESET_N keep memory for the boot to fill, device time, TIME_RATE, PWR_STAT's TRIP and BROWNOUT and the fuse windows, move SESSION on, and show the cause; any other SEC_CTL write of that kind changes nothing. When the reset ends the boot stands at its first stage; only RESET_N samples the straps. A power-on reset in force goes on. What both resets keep beyond the rules' table, the fuse windows and what has left the device, is the model's reading (log 67). (R101, R108, R569, R573, R608, R609, R610, R624) -/
def Obligations.ResetsClearAndKeep : Prop :=
  let kept (s t : State) : Prop := t.pending = s.pending ∧ t.out = s.out ∧ t.freeCtr = s.freeCtr ∧ t.sec.seed = s.sec.seed ∧ t.rep.failed = s.rep.failed ∧
    t.queues = [] ∧ t.cores = [] ∧ t.staged = none ∧ ∀ off, isFuseReg off = true → t.reg off = s.reg off
  let warm (s t : State) (cause : Nat) : Prop := kept s t ∧ SameMem s t ∧ t.time.sec = s.time.sec ∧ t.time.ns = s.time.ns ∧ t.time.frac = s.time.frac ∧
    t.reg R.TIME_RATE = s.reg R.TIME_RATE ∧ t.bit R.PWR_STAT F.PWR_STAT_TRIP = s.bit R.PWR_STAT F.PWR_STAT_TRIP ∧
    t.bit R.TIME_STAT F.TIME_STAT_VALID = s.bit R.TIME_STAT F.TIME_STAT_VALID ∧ t.fld R.TIME_STAT F.TIME_STAT_SESSION = s.fld R.TIME_STAT F.TIME_STAT_SESSION % 65535 + 1 ∧
    t.fld R.SEC_BOOT_STAT F.SEC_BOOT_STAT_RESET_CAUSE = cause ∧ t.hbm.rows = s.hbm.rows ∧
    ∀ off, isFuseReg off = false → off ∉ [R.TIME_RATE, R.TIME_STAT, R.PWR_STAT, R.SEC_BOOT_STAT, R.SEC_RESULT, R.FAB_STATUS] → t.reg off = resetVal off
  let left (t : State) (st : Straps) : Prop := t.sec.inReset = false ∧ t.sec.straps = st ∧ t.bootStage = 1 ∧ t.fabState = 4 ∧
    t.fld R.SEC_BOOT_STAT F.SEC_BOOT_STAT_BOOT_SRC = st.bootSrc.toNat ∧ t.bit R.SEC_BOOT_STAT F.SEC_BOOT_STAT_ROLE = st.manager
  (∀ (st : Straps) (s : State), ∃ t, exec (.powerOnReset st) s = .next t ∧ kept s t ∧ left t st ∧ (∀ a, t.rd a = 0) ∧ t.nowNs = 0 ∧ t.hbm.rows = [] ∧
    ∀ off, isFuseReg off = false → off ∉ [R.SEC_BOOT_STAT, R.SEC_RESULT, R.FAB_STATUS] → t.reg off = resetVal off) ∧
  (∀ (s : State), (s.sec.inReset = true → exec .brownout s = .next s) ∧
    (s.sec.inReset = false → ∃ t, exec .brownout s = .next t ∧ warm s t 2 ∧ t.bit R.PWR_STAT F.PWR_STAT_BROWNOUT = true ∧ t.sec.inReset = true ∧ t.bootStage = 0)) ∧
  (∀ (r : Req) (c : BitVec 8) (s : State), (r = .host ∧ s.hears .host R.SEC_CTL = true ∧ c = 0xA5 → ∃ t, exec (.secWarmReset r c) s = .next t ∧ warm s t 3 ∧
      t.bit R.PWR_STAT F.PWR_STAT_BROWNOUT = s.bit R.PWR_STAT F.PWR_STAT_BROWNOUT ∧ t.sec.inReset = true) ∧
    (¬ (r = .host ∧ s.hears .host R.SEC_CTL = true ∧ c = 0xA5) → exec (.secWarmReset r c) s = .next s)) ∧
  (∀ (cause : WarmCause) (st : Straps) (s : State),
    (s.sec.inReset = true → s.sec.warm = false → exec (.warmReset cause st) s = .next s) ∧
    (s.sec.inReset = true → s.sec.warm = true → ∃ t, exec (.warmReset cause st) s = .next t ∧ SameRegs [R.SEC_BOOT_STAT, R.FAB_STATUS] s t ∧ SameMem s t ∧
      t.time = s.time ∧ left t (if cause = .resetN then st else s.sec.straps)) ∧
    (s.sec.inReset = false → ∃ t, exec (.warmReset cause st) s = .next t ∧ warm s t (warmCode cause) ∧ left t (if cause = .resetN then st else s.sec.straps)))

/-- With fuses read, time counts, PLL_LOCK is set and the healthy cores take logical numbers in ascending order, up to 16 of them, the rest are spares; FUSES_USED counts the records and every scratchpad byte reads 0. An uncorrectable map stops at FUSE_FAIL. Trained stacks show in TRAINED; with all of them HBM reads 0 and BOOT_SRC picks the fetch, WAIT_STREAM or STRAP_FAIL, otherwise the boot stops at HBM_FAIL. A fetch counts an attempt; a good header puts STREAM_LENGTH bytes at HBM address 0 and the boot goes on to verify, a bad one or too few bytes is rejected: finally with source xSPI, to the host path with source xSPI then host. The application of the verified stream ends with LOCKED, OPERATIONAL, the stream's digest in FAB_CONFIG_DIGEST, FAB_STATUS DONE and idle, and the firmware running. At any other stage each of these changes nothing (the model's choice, log 8). (R40, R61, R64, R80, R270, R474, R538, R540, R611, R613, R614) -/
def Obligations.BootRunsItsSteps : Prop :=
  (∀ (ok : Bool) (s : State), (s.bootStage ≠ 1 ∨ s.sec.inReset = true → exec (.bootFusesDone ok) s = .next s) ∧
    (s.bootStage = 1 → s.sec.inReset = false → ∃ t, exec (.bootFusesDone ok) s = .next t ∧ t.time.running = true ∧ t.bit R.TIME_STAT F.TIME_STAT_PLL_LOCK = true ∧
      (ok = false → t.bootStage = 8 ∧ SameMem s t ∧ SameRegs [R.TIME_STAT, R.SEC_BOOT_STAT] s t) ∧
      (ok = true → t.bootStage = 2 ∧ (∀ a, t.rd a = if a < 0x100000000000 then s.rd a else 0) ∧ t.spd = {} ∧
        let ps := (List.range 18).filter (fun p => !s.retiredByFuse p)
        (∀ n, t.coreActive n = decide (n < 16 ∧ n < ps.length)) ∧ t.grade = Config.fuseGrade.val + 1 ∧
        t.fld R.GLB_CAPS F.GLB_CAPS_CORES_ACTIVE = min 16 ps.length ∧ t.fld R.GLB_CAPS F.GLB_CAPS_SPARES_LEFT = ps.length - 16 ∧
        (∀ n p : Nat, n < 16 → ps[n]? = some p → t.fld (R.CORE_STATUS n) F.CORE_STATUS_PHYS = p ∧ t.bit (R.CORE_STATUS n) F.CORE_STATUS_ACTIVE = true) ∧
        t.fld R.FLT_STAT F.FLT_STAT_FUSES_USED = recsUsed s.fuseRecs))) ∧
  (∀ (ok : BitVec 4) (ppr : BitVec 128) (s : State), let n := s.fld R.GLB_CAPS F.GLB_CAPS_HBM_STACKS
    let all := ok.toNat % 2 ^ n = 2 ^ n - 1
    (s.bootStage ≠ 2 → exec (.hbmTrainingDone ok ppr) s = .next s) ∧
    (s.bootStage = 2 → n ≤ 4 → (s.sec.warm = true ∨ ∀ r ∈ s.fuseRecs, recKind r ≠ 3) →
      ∃ t, exec (.hbmTrainingDone ok ppr) s = .next t ∧ SameRegs [R.HBM_STAT, R.SEC_BOOT_STAT] s t ∧ t.fld R.HBM_STAT F.HBM_STAT_TRAINED = ok.toNat % 2 ^ n ∧
        (¬ all → t.bootStage = 9 ∧ SameMem s t) ∧
        (all → (∀ a, t.rd a = if a < 0x100000000000 then 0 else s.rd a) ∧ t.poison = [] ∧
          let src := s.fld R.SEC_BOOT_STAT F.SEC_BOOT_STAT_BOOT_SRC
          t.bootStage = (if src = 1 then 3 else if src = 3 then 10 else 4)))) ∧
  (∀ (l : List Byte) (s : State), (s.bootStage ≠ 4 → exec (.xspiFetchDone l) s = .next s) ∧
    (s.bootStage = 4 → let src := s.fld R.SEC_BOOT_STAT F.SEC_BOOT_STAT_BOOT_SRC
      let att (t : State) : Prop := t.fld R.SEC_BOOT_STAT F.SEC_BOOT_STAT_ATTEMPTS = min 255 (s.fld R.SEC_BOOT_STAT F.SEC_BOOT_STAT_ATTEMPTS + 1)
      let bad := ∀ x y, cutSect 0 (l.take 168) = some (x, y) → headerBad x (sliceN x.payload 12 4) (sliceN x.payload 16 8) = true ∨ l.length < sliceN x.payload 16 8
      (bad → ∃ t, exec (.xspiFetchDone l) s = .next t ∧ SameMem s t ∧ SameRegs [R.SEC_BOOT_STAT, R.FAB_STATUS] s t ∧ att t ∧ t.staged = none ∧
        t.fld R.FAB_STATUS F.FAB_STATUS_CHECK = ckFormat ∧ t.fld R.FAB_STATUS F.FAB_STATUS_LAST_STATUS = stRejected.toNat ∧
        (src = 0 → t.bootStage = 11) ∧ (src = 2 → s.bit R.SEC_BOOT_STAT F.SEC_BOOT_STAT_FALLBACK = false → t.bootStage = 3 ∧ t.bit R.SEC_BOOT_STAT F.SEC_BOOT_STAT_FALLBACK = true)) ∧
      (∀ x y, cutSect 0 (l.take 168) = some (x, y) → let len := sliceN x.payload 16 8
        headerBad x (sliceN x.payload 12 4) len = false → len ≤ l.length → ∃ t, exec (.xspiFetchDone l) s = .next t ∧ SameRegs [R.SEC_BOOT_STAT] s t ∧ att t ∧
          t.bootStage = 5 ∧ t.staged = some ⟨0, len⟩ ∧ ∀ a, t.rd a = if a < len then l.getD a 0 else s.rd a))) ∧
  (∀ (s : State), (s.bootStage ≠ 6 → exec .bootApplyDone s = .next s) ∧
    (s.bootStage = 6 → ∃ t, exec .bootApplyDone s = .next t ∧ t.bootStage = 7 ∧ t.bit R.GLB_BUDGET_MODE F.GLB_BUDGET_MODE_LOCKED = true ∧
      t.digest R.FAB_CONFIG_DIGEST = finalDigest s.stagedSects ∧ t.staged = none ∧ t.fabState = 0 ∧ t.fld R.FAB_STATUS F.FAB_STATUS_LAST_STATUS = stDone.toNat ∧
      t.bit R.FAB_STATUS F.FAB_STATUS_DONE_EVT = true ∧ t.mgtRuns = true ∧
      t.fld R.SEC_BOOT_STAT F.SEC_BOOT_STAT_BOOT_MS = (s.nowNs - s.sec.resetAt) / 1000000 % 2 ^ 32))

/-- A taken write of SEC_CMD while BUSY sets CMD_REJECT alone; otherwise BUSY is set and the command holds its operation and tag. A key operation is REJECTED while a stream is staging, staged, committing or in full load or a library installs, when its key state is not the current one, or when its slot is not in the state the operation asks for; ATTEST is REJECTED before OPERATIONAL and NOT_PRESENT without a seed. At its end BUSY clears, SEC_RESULT shows status, tag and operation, and SEC_KEY_STATE the digest of the slots; a status other than DONE changes no slot and no memory. PROVISION makes its slot ACTIVE with the hash, REVOKE makes it REVOKED, FLEET_SEED keeps the seed and sets FLEET_PRESENT, a bad burn ends INTEGRITY with BURN_FAIL; ATTEST writes the 7,512 bytes of its report above the challenge. That addresses and challenge are taken when the command starts, and what a bad burn leaves, is the model's reading (log 68). (R617, R618, R619, R620, R621, R622, R624, R625) -/
def Obligations.SecurityCommandsCheckAndAct : Prop :=
  (∀ (k : Nat) (r : Req) (tag : BitVec 16) (s : State), 1 ≤ k → k ≤ 4 → s.takesWrite r R.SEC_CMD = true →
    let o : Out := if k = 1 then exec (.secProvision r tag) s else if k = 2 then exec (.secRevoke r tag) s else if k = 3 then exec (.secFleetSeed r tag) s else exec (.secAttest r tag) s
    let a := s.secArg
    (s.bit R.SEC_RESULT F.SEC_RESULT_BUSY = true → ∃ t, o = .next t ∧ RegsOnly [R.SEC_RESULT] s t ∧ t.reg R.SEC_RESULT = F.SEC_RESULT_CMD_REJECT.set (s.reg R.SEC_RESULT) 1) ∧
    (s.bit R.SEC_RESULT F.SEC_RESULT_BUSY = false → ∃ t x, o = .next t ∧ SameRegs [R.SEC_RESULT] s t ∧ SameMem s t ∧ t.bit R.SEC_RESULT F.SEC_RESULT_BUSY = true ∧
      t.sec = { s.sec with op := some x } ∧ x.op = k ∧ x.tag = tag.toNat ∧
      (k = 4 → x.slot = a ∧ x.payload = s.rdBytes a 64 ∧ x.status = (if s.bootStage ≠ 7 then stRejected else if s.sec.seed = none then stNotPresent
        else if s.poisoned a 64 = true then stIntegrity else stDone)) ∧
      (k ≠ 4 → x.slot = (s.rd (a + 1)).toNat ∧ x.payload = s.rdBytes (a + 72) 64 ∧
        ((1 ≤ s.fabState ∧ s.fabState ≤ 4) ∨ s.bit R.FLT_PEN_STAT F.FLT_PEN_STAT_BUSY = true → x.status = stRejected) ∧
        (s.poison = [] → s.rdBytes (a + 8) 64 ≠ s.digest R.SEC_KEY_STATE → x.status = stRejected) ∧
        (s.poison = [] → k = 1 → s.keySlot x.slot ≠ 0 → x.status = stRejected) ∧ (s.poison = [] → k = 2 → s.keySlot x.slot ≠ 1 → x.status = stRejected) ∧
        (s.poison = [] → k = 3 → s.bit R.SEC_RESULT F.SEC_RESULT_FLEET_PRESENT = true → x.status = stRejected) ∧
        (x.status = stDone → k = 1 → s.allEmpty = true → x.slot = 0) ∧
        (x.status = stDone → ¬ (k = 1 ∧ s.allEmpty = true) → s.slotHolds (s.rd (a + 2)).toNat (s.rdBytes (a + 136) 2592) = true ∧
          sigOk (s.rdBytes (a + 136) 2592) "keyslot" (sha3_512 (s.rdBytes a 136)) (s.rdBytes (a + 2728) 4627) = true)))) ∧
  (∀ (b : Bool) (s : State), s.sec.op = none → exec (.secCommandDone b) s = .next s) ∧
  (∀ (b : Bool) (x : SecOp) (s : State), s.sec.op = some x → s.sec.waiting = [] → 1 ≤ x.op → x.op ≤ 4 → x.payload.length = 64 → (x.op ≠ 4 → x.slot < 4) →
    ∃ t, exec (.secCommandDone b) s = .next t ∧ t.sec.op = none ∧ t.bit R.SEC_RESULT F.SEC_RESULT_BUSY = false ∧ t.digest R.SEC_KEY_STATE = t.keyState ∧
      t.fld R.SEC_RESULT F.SEC_RESULT_TAG = x.tag % 65536 ∧ t.fld R.SEC_RESULT F.SEC_RESULT_LAST_OP = x.op ∧
      let status := t.fld R.SEC_RESULT F.SEC_RESULT_LAST_STATUS
      let regs := R.SEC_RESULT :: (List.range 8).map R.SEC_KEY_STATE
      (x.status ≠ stDone → status = x.status.toNat ∧ SameRegs regs s t ∧ SameMem s t ∧ t.sec.seed = s.sec.seed) ∧
      (x.status = stDone → x.op ≠ 4 → SameMem s t ∧ status = (if b then stDone else stIntegrity).toNat ∧ (b = false → t.bit R.SEC_RESULT F.SEC_RESULT_BURN_FAIL = true) ∧
        (x.op = 1 → SameRegs (regs ++ [R.SEC_KEY_SLOT x.slot] ++ (List.range 8).map (R.SEC_KEY_HASH x.slot)) s t ∧ (b = true → t.keySlot x.slot = 1 ∧ t.keyHash x.slot = x.payload) ∧
          (b = false → t.keySlot x.slot = 2)) ∧
        (x.op = 2 → SameRegs (regs ++ [R.SEC_KEY_SLOT x.slot]) s t ∧ t.keySlot x.slot = 2) ∧
        (x.op = 3 → SameRegs regs s t ∧ t.bit R.SEC_RESULT F.SEC_RESULT_FLEET_PRESENT = true ∧ (b = true → t.sec.seed = some (x.payload.take 32)))) ∧
      (∀ seed, x.status = stDone → x.op = 4 → s.sec.seed = some seed → (∀ i, i < 7512 → s.hit hostAgent true (x.slot + 64 + i) = .ok (x.slot + 64 + i)) →
        status = stDone.toNat ∧ SameRegs regs s t ∧ t.rdBytes (x.slot + 64) 7512 = s.attestReport seed x.payload ∧
          ∀ i, (i < x.slot + 64 ∨ x.slot + 64 + 7512 ≤ i) → t.rd i = s.rd i))

/-- For a taken write of FAB_CMD: STAGE while IDLE and OPERATIONAL takes the range of FAB_STAGE_BASE and FAB_STAGE_LEN into STAGING; in the full load at WAIT_STREAM it counts an attempt and verification begins; during a key operation it waits. COMMIT while STAGED enters COMMITTING with the drain; with a CONTROL_GRAPH section the canton's rate groups are in outage from there. DISCARD but while COMMITTING or in the full load releases the range (that one with nothing staged is DONE is the model's reading, log 69). In any other state each reports COMMAND_STATE and leaves the operation in progress as it was (that TAG stays too is the model's reading, log 69). A stream that passes is STAGED with its digest, one that fails is released with its check and section; in the full load the passed one is applied, and a rejection goes where BOOT_SRC says. (R73, R78, R79, R83, R85, R90, R96, R98, R612, R613, R614, R620) -/
def Obligations.FabCommandsStageCheckAndRelease : Prop :=
  let refused (s : State) (o : Out) : Prop := ∃ t, o = .next t ∧ SameRegs [R.FAB_STATUS] s t ∧ SameMem s t ∧ t.staged = s.staged ∧ t.fab = s.fab ∧ t.fabState = s.fabState ∧
    t.fld R.FAB_STATUS F.FAB_STATUS_CHECK = ckCommandState ∧ t.fld R.FAB_STATUS F.FAB_STATUS_LAST_STATUS = stRejected.toNat ∧
    t.bit R.FAB_STATUS F.FAB_STATUS_DONE_EVT = true ∧ t.fld R.FAB_STATUS F.FAB_STATUS_TAG = s.fld R.FAB_STATUS F.FAB_STATUS_TAG
  let reports (t : State) (check sect : Nat) : Prop := t.fld R.FAB_STATUS F.FAB_STATUS_CHECK = check % 256 ∧ t.fld R.FAB_STATUS F.FAB_STATUS_SECTION = sect % 65536 ∧
    t.fld R.FAB_STATUS F.FAB_STATUS_LAST_STATUS = (checkStatus check).toNat ∧ t.bit R.FAB_STATUS F.FAB_STATUS_DONE_EVT = true
  (∀ (r : Req) (tag : BitVec 16) (s : State), s.takesWrite r R.FAB_CMD = true →
    let range : FabOwn := ⟨s.fld R.FAB_STAGE_BASE F.FAB_STAGE_BASE_ADDR * 4096, s.fld R.FAB_STAGE_LEN F.FAB_STAGE_LEN_LEN⟩
    (s.keyBusy = true → exec (.fabStage r tag) s = .next { s with sec := { s.sec with waiting := s.sec.waiting ++ [.stage tag.toNat] } }) ∧
    (s.keyBusy = false →
      (s.fabState = 0 → s.bootStage = 7 → ∃ t, exec (.fabStage r tag) s = .next t ∧ { t with regs := s.regs, staged := s.staged } = s ∧ SameRegs [R.FAB_STATUS] s t ∧
        t.staged = some range ∧ t.fabState = 1 ∧ t.fld R.FAB_STATUS F.FAB_STATUS_TAG = tag.toNat) ∧
      (s.fabState = 4 → (s.bootStage = 3 ∨ (s.bootStage = 11 ∧ s.fld R.SEC_BOOT_STAT F.SEC_BOOT_STAT_BOOT_SRC ≠ 0)) → ∃ t, exec (.fabStage r tag) s = .next t ∧
        { t with regs := s.regs, staged := s.staged } = s ∧ SameRegs [R.FAB_STATUS, R.SEC_BOOT_STAT] s t ∧ t.staged = some range ∧ t.fabState = 4 ∧ t.bootStage = 5 ∧
        t.fld R.SEC_BOOT_STAT F.SEC_BOOT_STAT_ATTEMPTS = min 255 (s.fld R.SEC_BOOT_STAT F.SEC_BOOT_STAT_ATTEMPTS + 1)) ∧
      ((s.fabState = 1 ∨ s.fabState = 2 ∨ s.fabState = 3 ∨ (s.fabState = 4 ∧ s.bootStage ≠ 3 ∧ s.bootStage ≠ 11)) → refused s (exec (.fabStage r tag) s))) ∧
    (s.fabState ≠ 2 → refused s (exec (.fabCommit r tag) s)) ∧
    (s.fabState = 2 → ∃ t, exec (.fabCommit r tag) s = .next t ∧ SameMem s t ∧ t.staged = s.staged ∧ t.fabState = 3 ∧ t.fld R.FAB_STATUS F.FAB_STATUS_TAG = tag.toNat ∧
      t.fab = { s.fab with phase := some .drain, since := s.nowNs, fail := none } ∧
      (carries s.stagedSects tyControlGraph = false → SameRegs [R.FAB_STATUS] s t ∧ ∀ g, t.grp g = s.grp g) ∧
      ∀ c g, carries s.stagedSects tyControlGraph = true → s.fab.canton = some c → g < 8 → s.groupActive g = true →
        (t.grp g).outage = (if s.fld (R.CTL_GROUP_CFG g) F.CTL_GROUP_CFG_CANTON = c then true else (s.grp g).outage)) ∧
    ((s.fabState = 3 ∨ s.fabState = 4) → refused s (exec (.fabDiscard r tag) s)) ∧
    (s.fabState ≠ 3 → s.fabState ≠ 4 → ∃ t, exec (.fabDiscard r tag) s = .next t ∧ SameMem s t ∧ SameRegs (R.FAB_STATUS :: (List.range 8).map R.FAB_STAGED_DIGEST) s t ∧
      t.staged = none ∧ t.fabState = 0 ∧ reports t 0 0 ∧ t.fld R.FAB_STATUS F.FAB_STATUS_TAG = tag.toNat ∧ t.digest R.FAB_STAGED_DIGEST = List.replicate 64 0)) ∧
  (∀ (s : State), let digest := (List.range 8).map R.FAB_STAGED_DIGEST
    (s.fabState = 1 →
      (s.streamErr false = none → ∃ t, exec .fabStageDone s = .next t ∧ SameMem s t ∧ SameRegs (R.FAB_STATUS :: digest) s t ∧ t.staged = s.staged ∧ t.fabState = 2 ∧
        reports t 0 0 ∧ t.digest R.FAB_STAGED_DIGEST = finalDigest s.stagedSects ∧ t.fab = { s.fab with canton := streamCanton s.stagedSects }) ∧
      (∀ k, s.streamErr false = some k → ∃ t, exec .fabStageDone s = .next t ∧ SameMem s t ∧ SameRegs (R.FAB_STATUS :: digest) s t ∧ t.staged = none ∧ t.fabState = 0 ∧
        reports t k.1 k.2)) ∧
    (s.fabState = 4 → s.bootStage = 5 → let src := s.fld R.SEC_BOOT_STAT F.SEC_BOOT_STAT_BOOT_SRC
      (s.streamErr true = none → ∃ t, exec .fabStageDone s = .next t ∧ SameMem s t ∧ SameRegs (R.SEC_BOOT_STAT :: digest) s t ∧ t.staged = s.staged ∧ t.bootStage = 6) ∧
      (∀ k, s.streamErr true = some k → ∃ t, exec .fabStageDone s = .next t ∧ SameMem s t ∧ SameRegs [R.FAB_STATUS, R.SEC_BOOT_STAT] s t ∧ t.staged = none ∧ reports t k.1 k.2 ∧
        (src = 0 → t.bootStage = 11 ∧ t.fabState = 0) ∧ (src = 1 → t.bootStage = 11 ∧ t.fabState = 4) ∧
        (src = 2 → s.bit R.SEC_BOOT_STAT F.SEC_BOOT_STAT_FALLBACK = false → t.bootStage = 3 ∧ t.fabState = 4) ∧
        (src = 2 → s.bit R.SEC_BOOT_STAT F.SEC_BOOT_STAT_FALLBACK = true → t.bootStage = 11 ∧ t.fabState = 4))) ∧
    (s.fabState ≠ 1 → ¬ (s.fabState = 4 ∧ s.bootStage = 5) → exec .fabStageDone s = .next s))

/-- At the drain's limit a chip-unit command of the canton that still runs ends ABORTED_DISABLED or is told to stop with that status; a control-engine command and a frame on the wire are exempt. The drain ends when no chip unit runs a command of the canton and no core of it runs one that is not being saved, the save when none of its cores runs any. A live check that fails keeps the configuration and is reported at the end; otherwise the canton is switched to the stream. At the resume FAB_LAST_OUTAGE shows the time from the COMMIT, the range is released and FAB_STATUS reports; a stream that was applied counts in RESTREAMS and enters FAB_CONFIG_DIGEST. Outside its phase, or while a furl of the canton is under way or waits, each of these changes nothing. (R80, R83, R84, R91, R96, R97, R99, R455) -/
def Obligations.CommitRunsItsPhases : Prop :=
  (∀ (c : Nat) (s : State), s.fab.canton = some c →
    (s.fab.phase ≠ some .drain → exec .commitUnitDrainTimeout s = .next s) ∧
    (∀ q d, s.fab.phase = some .drain → s.chipQueues c = [q] → s.head q = some d →
      (∀ k, k < 128 → s.bit (R.IMG_SRC_CFG k) F.IMG_SRC_CFG_ACTIVE = true → s.fld (R.IMG_SRC_CFG k) F.IMG_SRC_CFG_CANTON ≠ c) →
      (s.executing q = false → exec .commitUnitDrainTimeout s = .next s) ∧
      (s.executing q = true → (d.phase = .running ∨ d.phase = .stopping) → ∃ t e, exec .commitUnitDrainTimeout s = .next t ∧ SameRegs [] s t ∧ SameMem s t ∧ t.head q = some e ∧
        (s.qUnit q = 6 ∨ (s.qUnit q = 7 ∧ d.done ≠ 0) → e = d) ∧
        (s.qUnit q = 7 → d.done = 0 → e = { d with phase := .ended, status := worse stAborted d.status, stop := s.now }) ∧
        (s.qUnit q ≠ 6 → s.qUnit q ≠ 7 → e = { d with phase := .stopping, status := worse stAborted d.status })))) ∧
  (∀ (c : Nat) (s : State), s.fab.canton = some c →
    let stays (p : ComPhase) (i : Instr) : Prop := (s.fab.phase ≠ some p ∨ s.furlIn c = true) → exec i s = .next s
    stays .drain .commitDrainDone ∧ stays .save .commitSaveDone ∧ stays .verify .commitVerifyDone ∧ stays .rebind .commitRebindDone ∧ stays .resume .commitResumeDone) ∧
  (∀ (c : Nat) (s : State), s.fab.canton = some c → s.furlIn c = false →
    let goes (o : Out) (p : ComPhase) : Prop := o = .next { s with fab := { s.fab with phase := some p } }
    let idle := (s.chipQueues c).any (fun q => s.executing q) = false ∧ ∀ n ∈ s.cantonCores c, (s.core n).running = none ∨ (s.core n).saving = true
    let saved := ∀ n ∈ s.cantonCores c, (s.core n).running = none
    (s.fab.phase = some .drain → (idle → goes (exec .commitDrainDone s) .save) ∧ (¬ idle → exec .commitDrainDone s = .next s)) ∧
    (s.fab.phase = some .save → (saved → goes (exec .commitSaveDone s) .verify) ∧ (¬ saved → exec .commitSaveDone s = .next s)) ∧
    (s.fab.phase = some .verify →
      (∀ k, s.liveErr = some k → exec .commitVerifyDone s = .next { s with fab := { s.fab with phase := some .rebind, fail := some k } }) ∧
      (s.liveErr = none → ∃ t, exec .commitVerifyDone s = .next t ∧ t.fab.phase = some .rebind ∧ t.fab.cfg = s.fab.cfg.after (some c) s.stagedSects)) ∧
    (s.fab.phase = some .rebind → goes (exec .commitRebindDone s) .resume)) ∧
  (∀ (c : Fin 8) (s : State), s.fab.canton = some c.val → s.furlIn c = false → s.fab.phase = some .resume →
    let k := s.fab.fail.getD (0, 0)
    let digest := (List.range 8).map R.FAB_CONFIG_DIGEST
    ∃ t, exec .commitResumeDone s = .next t ∧ SameMem s t ∧ t.staged = none ∧ t.fabState = 0 ∧ t.fab = { cfg := s.fab.cfg, canton := none, phase := none, since := s.fab.since, fail := none } ∧
      SameRegs ([R.FAB_STATUS, R.FAB_LAST_OUTAGE, R.FAB_CANTON c] ++ digest ++ (List.range 8).map R.FAB_STAGED_DIGEST) s t ∧
      t.fld R.FAB_LAST_OUTAGE F.FAB_LAST_OUTAGE_NS = min (2 ^ 40 - 1) (s.nowNs - s.fab.since) ∧
      t.fld R.FAB_STATUS F.FAB_STATUS_CHECK = k.1 % 256 ∧ t.fld R.FAB_STATUS F.FAB_STATUS_SECTION = k.2 % 65536 ∧
      t.fld R.FAB_STATUS F.FAB_STATUS_LAST_STATUS = (checkStatus k.1).toNat ∧ t.bit R.FAB_STATUS F.FAB_STATUS_DONE_EVT = true ∧
      (s.fab.fail = none → t.digest R.FAB_CONFIG_DIGEST = sha3_512 (s.digest R.FAB_CONFIG_DIGEST ++ finalDigest s.stagedSects) ∧
        t.fld (R.FAB_CANTON c) F.FAB_CANTON_RESTREAMS = (s.fld (R.FAB_CANTON c) F.FAB_CANTON_RESTREAMS + 1) % 256) ∧
      (s.fab.fail ≠ none → t.digest R.FAB_CONFIG_DIGEST = s.digest R.FAB_CONFIG_DIGEST ∧ t.reg (R.FAB_CANTON c) = s.reg (R.FAB_CANTON c)))

/-- For every command c and state, a step with c at the front of the queue of waiting commands is exec of c on that state with the queue's rest, which is the model's form of a block, not a rule of the manual. No command faults or is refused: each answers a next state. On an empty queue the step answers the state as it is; that idling is the model's choice (log 6). (R9, R433) -/
def Obligations.StepRunsTheFrontCommand : Prop :=
  (∀ (c : Instr) (q : List Instr) (s : State), step { s with pending := c :: q } = exec c { s with pending := q }) ∧
  (∀ (c : Instr) (s : State), ∃ t, exec c s = .next t) ∧
  (∀ (s : State), s.pending = [] → step s = .next s)

/-- The machine after reset holds every register at the reset value of its table, DISABLE set in each queue, masks set in the interrupt mask and in each vector (that one is the model's choice, log 4), the retransmit time at 200 ms and the drain limit at 2,000 microseconds; memory reads zero (before the boot fills it that is the model's choice, log 5), device time is zero, no command waits and nothing has left the device. Its registers, memory and errors stand in their canonical forms. (R10, R97, R270, R462, R474, R594, R606) -/
def Obligations.ResetLeavesStatedValues : Prop :=
  State.reset.wf = true ∧ (∀ off, State.reset.reg off = resetVal off) ∧ (∀ a, State.reset.rd a = 0) ∧ State.reset.pending = [] ∧ State.reset.out = [] ∧
    State.reset.nowNs = 0 ∧ State.reset.queues = [] ∧ State.reset.sec.inReset = true ∧ State.reset.fld R.MGT_CFG F.MGT_CFG_RETX_MS = 200 ∧
    State.reset.fld R.FAB_RESTREAM_CTL F.FAB_RESTREAM_CTL_UNIT_DRAIN_US = 2000 ∧ State.reset.reg R.GLB_IRQ_MASK = 0xFFFFFFFFFFFFFFFF ∧
    State.reset.bit (R.QUE_CTL 65535) F.QUE_CTL_DISABLE = true ∧ (∀ v, State.reset.vecMasked v = true) ∧ State.reset.bootStage = 0

/-- From every state in order, whatever command stands at the front of the queue, the step answers a state in order: registers and memory and the errors of scratchpad words have strictly rising keys and no entry equal to what an unlisted key reads as, so that equal memories are equal data, and TIME_NS stays between 0 and 999,999,999. (R100, R247, R267, R270, R465, R474) -/
def Obligations.StepKeepsTheStateInOrder : Prop :=
  ∀ (s t : State), s.wf = true → step s = .next t → t.wf = true

/-- Whatever a command does, the queue of waiting commands is as it was, what has left the device before stands as the beginning of what has left it after, the counter of free values (the model's own field, log 1) never falls, so that no value the spec leaves open is given twice, and the factory fuse map of failed cores is as it was, resets included. (R9, R538, R592, R594) -/
def Obligations.CommandsKeepQueueAndOutputs : Prop :=
  ∀ (c : Instr) (s t : State), exec c s = .next t → t.pending = s.pending ∧ s.out <+: t.out ∧ s.freeCtr ≤ t.freeCtr ∧ t.rep.failed = s.rep.failed

/-- A register write of the host, over BAR0 or BAR2, changes nothing in D3hot, nothing before the boot's step 2 has completed, and before WAIT_STREAM nothing in any block but GLB, FAB, SEC and PWR. A write of a register of the PWR, SEC or MGT block, and of PLB_ACK and PLB_CTL, through the register mirror, by a core, over a chord or through BAR2, changes nothing but PWR_STAT, where an ignored power setting sets CFG_REJECT. (R12, R587, R612) -/
def Obligations.HostWritesWaitForTheBoot : Prop :=
  (∀ (r : Req) (off : BitVec 26) (h : Half) (v : Word) (s : State), isHost r = true →
    (s.host.d3hot = true ∨ s.bootAnswers = false ∨ (s.bootServes = false ∧ earlyBlock off.toNat = false)) →
    exec (.genericRegisterWrite r off h v) s = .next s) ∧
  (∀ (r : Req) (off : BitVec 26) (h : Half) (v : Word) (s : State), isMirror r = true →
    ((0x1300000 ≤ off.toNat ∧ off.toNat < 0x1440000) ∨ off.toNat = R.PLB_ACK ∨ off.toNat = R.PLB_CTL) →
    ∃ t, exec (.genericRegisterWrite r off h v) s = .next t ∧ RegsOnly [R.PWR_STAT] s t)

/-- A stamp is malformed exactly when its bits [29:0] hold 1,000,000,000 or more. A 64-bit write of a malformed stamp to TIME_CMP_ARM changes nothing. A command descriptor that a queue accepts, fetched from device memory or returned by the host, whose budget kind is the absolute deadline and whose deadline is malformed, completes REJECTED: it is at its end with that status, where its unit is present. (R104) -/
def Obligations.MalformedStampsAreRefused : Prop :=
  (∀ (w : Word), stampBad w = true ↔ 1000000000 ≤ (w &&& 0x3FFFFFFF).toNat) ∧
  (∀ (n : Fin 64) (r : Req) (v : Word) (s : State), s.takesWrite r (R.TIME_CMP_ARM n) = true → 1000000000 ≤ (v &&& 0x3FFFFFFF).toNat →
    exec (.timeCmpArmWrite n r .full v) s = .next s) ∧
  (∀ (q : BitVec 16) (s : State), s.mayFetch q.toNat = true → let k := q.toNat
    let a := s.descAddr k
    let d := s.rdBytes a 64
    inHostWindow a = false → s.poisoned a 64 = false → s.qSolverFed k = false → s.unitAbsent k d = false →
    sliceN d 4 4 = (s.fld (R.QUE_SEQ k) F.QUE_SEQ_LAST_ACCEPTED_SEQ + 1) % 2 ^ 32 → sliceN d 1 1 % 4 = 0 → 1000000000 ≤ sliceN d 8 8 % 2 ^ 30 →
    ∃ t x, exec (.descriptorFetch q) s = .next t ∧ (t.queue k).cmds = (s.queue k).cmds ++ [x] ∧ x.accepted = true ∧ x.phase = .ended ∧ x.status = stRejected) ∧
  (∀ (k : Nat) (d : List Byte) (o : OutRead) (s : State), s.host.reads.find? (fun o => inHostWindow o.addr) = some o → o.what = .desc k → o.len = 64 → d.length = 64 →
    s.qBound k = true → s.qSolverFed k = false → s.unitAbsent k d = false →
    sliceN d 4 4 = (s.fld (R.QUE_SEQ k) F.QUE_SEQ_LAST_ACCEPTED_SEQ + 1) % 2 ^ 32 → sliceN d 1 1 % 4 = 0 → 1000000000 ≤ sliceN d 8 8 % 2 ^ 30 →
    ∃ t x, exec (.hostReadCompletion d true) s = .next t ∧ (t.queue k).cmds = (s.queue k).cmds ++ [x] ∧ x.accepted = true ∧ x.phase = .ended ∧ x.status = stRejected)

/-- A served read of TIME_NOW returns the lanes it covers of the short stamp of the present tick and latches the full 48-bit seconds for its requester. From then on a served read of TIME_LATCH by the same requester returns those seconds, and by another requester what that one's own last TIME_NOW read latched. Host software over either BAR is one requester, the management processor one, each core one, and every other together one. (R102) -/
def Obligations.TimeNowLatchesTheSeconds : Prop :=
  let shared (r : Req) : Prop := r = .other ∨ ∃ p, r = .chord p
  let same (r r' : Req) : Prop := (isHost r = true ∧ isHost r' = true) ∨ (r = .mgt ∧ r' = .mgt) ∨ (∃ n, r = .core n ∧ r' = .core n) ∨ (shared r ∧ shared r')
  (∀ (r : Req) (h : Half) (s : State), s.takesRead r R.TIME_NOW = true → ∃ t, exec (.timeNowRead r h) s = .next t ∧
    t.out = s.out ++ [.readData r R.TIME_NOW (s.now &&& halfMask h)] ∧ (∀ r', same r r' → t.timeLatch r' = s.time.sec.setWidth 64) ∧
    ∀ r', ¬ same r r' → t.timeLatch r' = s.timeLatch r') ∧
  (∀ (r : Req) (h : Half) (s : State), s.takesRead r R.TIME_LATCH = true → exec (.genericRegisterRead r (BitVec.ofNat 26 R.TIME_LATCH) h) s =
    .next { s with out := s.out ++ [.readData r R.TIME_LATCH (s.timeLatch r &&& halfMask h)] })

/-- In every state in order, where TIME_NS lies below 1,000,000,000, the short stamp of the present tick has the low 34 bits of TIME_SEC in [63:30] and TIME_NS in [29:0]. (R103) -/
def Obligations.ShortStampsHoldSecondsAndNanoseconds : Prop :=
  ∀ (s : State), s.time.ns < 1000000000 → s.now.extractLsb' 30 34 = s.time.sec.setWidth 34 ∧ s.now.extractLsb' 0 30 = BitVec.ofNat 30 s.time.ns ∧ (s.now.extractLsb' 0 30).toNat = s.time.ns

/-- For every two stamps the difference is the one of the rule's function, seconds difference taken as signed modulo 2 to the 34. Of the stamps of two times in nanoseconds that lie less than 2 to the 33 seconds apart it is their difference exactly, so a time is at or after another exactly when it is not negative. A CAN stamp is the low 32 bits of the time in nanoseconds. (R103, R105, R106) -/
def Obligations.StampDifferenceIsExact : Prop :=
  (∀ (a b : Word), let ds : Nat := ((a >>> 30).toNat + 2 ^ 34 - (b >>> 30).toNat) % 2 ^ 34
    stampDiff a b = (if 2 ^ 33 ≤ ds then (ds : Int) - 2 ^ 34 else (ds : Int)) * 1000000000 + (((a &&& 0x3FFFFFFF).toNat : Int) - ((b &&& 0x3FFFFFFF).toNat : Int))) ∧
  (∀ (x y : Nat), ((x : Int) - (y : Int)).natAbs < 2 ^ 33 * 1000000000 - 1000000000 →
    stampDiff (stampOfNs x) (stampOfNs y) = (x : Int) - (y : Int) ∧ (0 ≤ stampDiff (stampOfNs x) (stampOfNs y) ↔ y ≤ x)) ∧
  (∀ (x : Nat), (canStampOfNs x).toNat = x % 2 ^ 32)
end

