-- ==== Sys2Proof/Laws/Store.lean ====
section
/-! SUPPORT. The laws of the canonical store: what a read gives after a write, and that writes and filters keep the form. -/

namespace Sys2Proof.Machine

/-- Keys of a store lie above a bound. -/
def Store.above {α : Type} (b : Nat) (m : List (Nat × α)) : Prop := ∀ p ∈ m, b < p.1

/-- The form, entry by entry: an entry differs from its default and lies below every later one. -/
theorem Store.wf_cons {α : Type} [DecidableEq α] (d : Nat → α) (k : Nat) (v : α) (r : List (Nat × α)) :
    Store.wf d ((k, v) :: r) = true ↔ v ≠ d k ∧ Store.above k r ∧ Store.wf d r = true := by
  induction r generalizing k v with
  | nil => simp [Store.wf, Store.above]
  | cons p r ih =>
    obtain ⟨k', v'⟩ := p
    have h := ih k' v'
    constructor
    · intro hw
      simp only [Store.wf, Bool.and_eq_true, decide_eq_true_eq, Bool.not_eq_true', decide_eq_false_iff_not] at hw
      obtain ⟨⟨h1, h2⟩, h3⟩ := hw
      refine ⟨h1, ?_, h3⟩
      intro p hp
      rcases List.mem_cons.mp hp with rfl | hp
      · exact h2
      · exact lt_trans h2 ((h.mp h3).2.1 p hp)
    · rintro ⟨h1, h2, h3⟩
      have := h2 (k', v') (by simp)
      simp [Store.wf, h1, h3, this]

theorem Store.wf_nil {α : Type} [DecidableEq α] (d : Nat → α) : Store.wf d [] = true := rfl

/-- Leaving entries out keeps the form. -/
theorem Store.wf_filter {α : Type} [DecidableEq α] (d : Nat → α) (f : Nat × α → Bool) (m : List (Nat × α))
    (h : Store.wf d m = true) : Store.wf d (m.filter f) = true := by
  induction m with
  | nil => simpa using h
  | cons p r ih =>
    obtain ⟨k, v⟩ := p
    obtain ⟨h1, h2, h3⟩ := (Store.wf_cons d k v r).mp h
    by_cases hf : f (k, v) = true
    · rw [List.filter_cons_of_pos hf, Store.wf_cons]
      exact ⟨h1, fun p hp => h2 p (List.mem_filter.mp hp).1, ih h3⟩
    · rw [List.filter_cons_of_neg hf]
      exact ih h3

theorem Store.wf_erase {α : Type} [DecidableEq α] (d : Nat → α) (m : List (Nat × α)) (k : Nat)
    (h : Store.wf d m = true) : Store.wf d (Store.erase m k) = true := Store.wf_filter d _ m h

theorem Store.above_insert {α : Type} (b k : Nat) (v : α) (m : List (Nat × α)) (h : Store.above b m) (hk : b < k) :
    Store.above b (Store.insert k v m) := by
  induction m with
  | nil => intro p hp; simp only [Store.insert, List.mem_singleton] at hp; subst hp; exact hk
  | cons p r ih =>
    obtain ⟨k', v'⟩ := p
    have hr : Store.above b r := fun p hp => h p (List.mem_cons_of_mem _ hp)
    unfold Store.insert
    split
    · intro p hp
      rcases List.mem_cons.mp hp with rfl | hp
      · exact hk
      · exact h p hp
    · intro p hp
      rcases List.mem_cons.mp hp with rfl | hp
      · exact h _ (by simp)
      · exact ih hr p hp

theorem Store.wf_insert {α : Type} [DecidableEq α] (d : Nat → α) (k : Nat) (v : α) (m : List (Nat × α))
    (h : Store.wf d m = true) (hv : v ≠ d k) (hk : ∀ p ∈ m, p.1 ≠ k) : Store.wf d (Store.insert k v m) = true := by
  induction m with
  | nil => simp [Store.insert, Store.wf, hv]
  | cons p r ih =>
    obtain ⟨k', v'⟩ := p
    obtain ⟨h1, h2, h3⟩ := (Store.wf_cons d k' v' r).mp h
    unfold Store.insert
    split
    · rename_i hlt
      rw [Store.wf_cons]
      refine ⟨hv, ?_, h⟩
      intro p hp
      rcases List.mem_cons.mp hp with rfl | hp
      · exact hlt
      · exact lt_trans hlt (h2 p hp)
    · rename_i hlt
      have hne : k' ≠ k := hk (k', v') (by simp)
      rw [Store.wf_cons]
      exact ⟨h1, Store.above_insert k' k v r h2 (by omega), ih h3 (fun p hp => hk p (List.mem_cons_of_mem _ hp))⟩

/-- A write keeps the canonical form. -/
theorem Store.wf_set {α : Type} [DecidableEq α] (d : Nat → α) (m : List (Nat × α)) (k : Nat) (v : α)
    (h : Store.wf d m = true) : Store.wf d (Store.set d m k v) = true := by
  unfold Store.set
  split
  · exact Store.wf_erase d m k h
  · rename_i hv
    refine Store.wf_insert d k v _ (Store.wf_erase d m k h) hv ?_
    intro p hp
    have := (List.mem_filter.mp hp).2
    simpa using this

theorem Store.get_erase_same {α : Type} (d : Nat → α) (m : List (Nat × α)) (k : Nat) :
    Store.get d (Store.erase m k) k = d k := by
  induction m with
  | nil => rfl
  | cons p r ih =>
    obtain ⟨k', v'⟩ := p
    by_cases h : k' = k
    · simpa [Store.erase, List.filter_cons, h] using ih
    · simpa [Store.erase, List.filter_cons, h, Store.get] using ih

theorem Store.get_erase_ne {α : Type} (d : Nat → α) (m : List (Nat × α)) (k j : Nat) (h : j ≠ k) :
    Store.get d (Store.erase m k) j = Store.get d m j := by
  induction m with
  | nil => rfl
  | cons p r ih =>
    obtain ⟨k', v'⟩ := p
    by_cases h1 : k' = k
    · subst h1
      have : Store.get d ((k', v') :: r) j = Store.get d r j := by
        simp [Store.get, Ne.symm h]
      rw [this, ← ih]
      simp [Store.erase]
    · by_cases h2 : k' = j
      · subst h2
        simp [Store.erase, h1, Store.get]
      · simpa [Store.erase, List.filter_cons, h1, Store.get, h2] using ih

theorem Store.get_insert_same {α : Type} (d : Nat → α) (k : Nat) (v : α) (m : List (Nat × α)) (hk : ∀ p ∈ m, p.1 ≠ k) :
    Store.get d (Store.insert k v m) k = v := by
  induction m with
  | nil => simp [Store.insert, Store.get]
  | cons p r ih =>
    obtain ⟨k', v'⟩ := p
    unfold Store.insert
    split
    · simp [Store.get]
    · have hne : k' ≠ k := hk (k', v') (by simp)
      simp only [Store.get, hne, if_false]
      exact ih (fun p hp => hk p (List.mem_cons_of_mem _ hp))

theorem Store.get_insert_ne {α : Type} (d : Nat → α) (k j : Nat) (v : α) (m : List (Nat × α)) (h : j ≠ k) :
    Store.get d (Store.insert k v m) j = Store.get d m j := by
  induction m with
  | nil => simp [Store.insert, Store.get, Ne.symm h]
  | cons p r ih =>
    obtain ⟨k', v'⟩ := p
    unfold Store.insert
    split
    · simp [Store.get, Ne.symm h]
    · simp only [Store.get]
      split
      · rfl
      · exact ih

theorem Store.erase_absent {α : Type} (m : List (Nat × α)) (k : Nat) : ∀ p ∈ Store.erase m k, p.1 ≠ k := by
  intro p hp
  have := (List.mem_filter.mp hp).2
  simpa using this

/-- A read of the key just written gives the value written. -/
@[simp] theorem Store.get_set_same {α : Type} [DecidableEq α] (d : Nat → α) (m : List (Nat × α)) (k : Nat) (v : α) :
    Store.get d (Store.set d m k v) k = v := by
  unfold Store.set
  split
  · rename_i h; rw [Store.get_erase_same, h]
  · exact Store.get_insert_same d k v _ (Store.erase_absent m k)

/-- A read of any other key gives what it gave before. -/
theorem Store.get_set_ne {α : Type} [DecidableEq α] (d : Nat → α) (m : List (Nat × α)) (k j : Nat) (v : α) (h : j ≠ k) :
    Store.get d (Store.set d m k v) j = Store.get d m j := by
  unfold Store.set
  split
  · exact Store.get_erase_ne d m k j h
  · rw [Store.get_insert_ne d k j v _ h, Store.get_erase_ne d m k j h]

/-- A read of a filtered store: an entry kept, or the default. -/
theorem Store.get_filter_key {α : Type} (d : Nat → α) (f : Nat → Bool) (m : List (Nat × α)) (k : Nat) :
    Store.get d (m.filter (fun p => f p.1)) k = if f k then Store.get d m k else d k := by
  induction m with
  | nil => simp [Store.get]
  | cons p r ih =>
    obtain ⟨k', v'⟩ := p
    by_cases hf : f k' = true
    · rw [List.filter_cons_of_pos (by simpa using hf)]
      simp only [Store.get]
      by_cases h : k' = k
      · subst h; simp [hf]
      · simp [h, ih]
    · rw [List.filter_cons_of_neg (by simpa using hf), ih]
      by_cases h : k' = k
      · subst h; simp [hf]
      · simp [Store.get, h]

theorem Store.get_not_mem {α : Type} (d : Nat → α) (m : List (Nat × α)) (k : Nat) (h : ∀ p ∈ m, p.1 ≠ k) : Store.get d m k = d k := by
  induction m with
  | nil => rfl
  | cons p r ih =>
    obtain ⟨k', v'⟩ := p
    have hne : k' ≠ k := h (k', v') (by simp)
    simp only [Store.get, hne, if_false]
    exact ih (fun p hp => h p (List.mem_cons_of_mem _ hp))

end Sys2Proof.Machine
end

