-- ==== Sys2Proof/Laws/Reg.lean ====
section
/-! SUPPORT. The laws of registers and their fields: what a read gives after a write, of the same field and of any other. -/

namespace Sys2Proof.Machine

/-- Bit i of a field's value is bit lo + i of the register. -/
theorem Fld.get_testBit (f : Fld) (v : Word) (i : Nat) : (f.get v).testBit i = (decide (i < f.w) && v.getLsbD (f.lo + i)) := by
  unfold Fld.get
  rw [Nat.testBit_mod_two_pow, Nat.testBit_div_two_pow, BitVec.getLsbD, Nat.add_comm]

theorem Fld.get_lt (f : Fld) (v : Word) : f.get v < 2 ^ f.w := Nat.mod_lt _ (Nat.two_pow_pos _)

/-- Bit i of a field's mask. -/
theorem Fld.mask_bit (f : Fld) (i : Nat) : f.mask.getLsbD i = (decide (i < 64) && decide (f.lo ≤ i) && decide (i < f.lo + f.w)) := by
  unfold Fld.mask
  rw [BitVec.getLsbD_shiftLeft]
  by_cases h1 : i < 64 <;> by_cases h2 : i < f.lo
  · simp [h1, h2]
  · have h3 : i - f.lo < 64 := by omega
    simp only [h1, h2, BitVec.getLsbD_ofNat, h3, Nat.testBit_two_pow_sub_one]
    by_cases h4 : i < f.lo + f.w
    · simp [h4]; omega
    · simp [h4]; omega
  · simp [h1]
  · simp [h1]

/-- Bit i of a register after a field has been set. -/
theorem Fld.set_bit (f : Fld) (v : Word) (x i : Nat) (h : i < 64) :
    (f.set v x).getLsbD i = if f.lo ≤ i ∧ i < f.lo + f.w then x.testBit (i - f.lo) else v.getLsbD i := by
  unfold Fld.set
  rw [BitVec.getLsbD_or, BitVec.getLsbD_and, BitVec.getLsbD_not, Fld.mask_bit, BitVec.getLsbD_shiftLeft, BitVec.getLsbD_ofNat,
    Nat.testBit_mod_two_pow]
  by_cases h1 : f.lo ≤ i <;> by_cases h2 : i < f.lo + f.w
  · have h3 : i - f.lo < f.w := by omega
    have h4 : i - f.lo < 64 := by omega
    have h5 : ¬ i < f.lo := by omega
    simp [h, h1, h2, h3, h4, h5]
  · have h3 : ¬ i - f.lo < f.w := by omega
    simp [h, h1, h2, h3]
  · have h5 : i < f.lo := by omega
    simp [h, h1, h2, h5]
  · have h5 : i < f.lo := by omega
    simp [h, h1, h2, h5]

/-- A field that lies within the register reads the value written, cut to its width. -/
theorem Fld.get_set_same (f : Fld) (v : Word) (x : Nat) (h : f.lo + f.w ≤ 64) : f.get (f.set v x) = x % 2 ^ f.w := by
  apply Nat.eq_of_testBit_eq
  intro i
  rw [Fld.get_testBit, Nat.testBit_mod_two_pow]
  by_cases hi : i < f.w
  · rw [Fld.set_bit f v x _ (by omega)]
    simp [hi]
  · simp [hi]

/-- A field that does not overlap the one written reads as before. -/
theorem Fld.get_set_other (f g : Fld) (v : Word) (x : Nat) (hg : g.lo + g.w ≤ 64) (h : g.lo + g.w ≤ f.lo ∨ f.lo + f.w ≤ g.lo) :
    g.get (f.set v x) = g.get v := by
  apply Nat.eq_of_testBit_eq
  intro i
  rw [Fld.get_testBit, Fld.get_testBit]
  by_cases hi : i < g.w
  · have h1 : ¬ (f.lo ≤ g.lo + i ∧ g.lo + i < f.lo + f.w) := by omega
    rw [Fld.set_bit f v x _ (by omega), if_neg h1]
  · simp [hi]

/-- The last write of a field stands. -/
theorem Fld.set_set (f : Fld) (v : Word) (x y : Nat) : f.set (f.set v x) y = f.set v y := by
  apply BitVec.eq_of_getLsbD_eq
  intro i hi
  rw [Fld.set_bit _ _ _ _ hi, Fld.set_bit _ _ _ _ hi, Fld.set_bit _ _ _ _ hi]
  split <;> rfl

@[simp] theorem State.reg_setReg_same (s : State) (off : Nat) (v : Word) : (s.setReg off v).reg off = v := Store.get_set_same _ _ _ _

theorem State.reg_setReg_ne (s : State) (off o : Nat) (v : Word) (h : o ≠ off) : (s.setReg off v).reg o = s.reg o :=
  Store.get_set_ne _ _ _ _ _ h

theorem State.reg_setReg (s : State) (off o : Nat) (v : Word) : (s.setReg off v).reg o = if o = off then v else s.reg o := by
  split
  · rename_i h; subst h; exact s.reg_setReg_same _ v
  · rename_i h; exact s.reg_setReg_ne off o v h

@[simp] theorem State.reg_setFld_same (s : State) (off : Nat) (f : Fld) (x : Nat) : (s.setFld off f x).reg off = f.set (s.reg off) x :=
  s.reg_setReg_same off _

theorem State.reg_setFld_ne (s : State) (off o : Nat) (f : Fld) (x : Nat) (h : o ≠ off) : (s.setFld off f x).reg o = s.reg o :=
  s.reg_setReg_ne off o _ h

theorem State.reg_setFld (s : State) (off o : Nat) (f : Fld) (x : Nat) :
    (s.setFld off f x).reg o = if o = off then f.set (s.reg off) x else s.reg o := s.reg_setReg off o _

theorem State.fld_setFld_same (s : State) (off : Nat) (f : Fld) (x : Nat) (h : f.lo + f.w ≤ 64) :
    (s.setFld off f x).fld off f = x % 2 ^ f.w := by
  unfold State.fld
  rw [s.reg_setFld_same, f.get_set_same _ _ h]

theorem State.fld_setFld_other (s : State) (off : Nat) (f g : Fld) (x : Nat) (hg : g.lo + g.w ≤ 64)
    (h : g.lo + g.w ≤ f.lo ∨ f.lo + f.w ≤ g.lo) : (s.setFld off f x).fld off g = s.fld off g := by
  unfold State.fld
  rw [s.reg_setFld_same, f.get_set_other g _ _ hg h]

theorem State.fld_setFld_ne (s : State) (off o : Nat) (f g : Fld) (x : Nat) (h : o ≠ off) : (s.setFld off f x).fld o g = s.fld o g := by
  unfold State.fld
  rw [s.reg_setFld_ne _ _ _ _ h]

theorem State.fld_setReg_ne (s : State) (off o : Nat) (g : Fld) (v : Word) (h : o ≠ off) : (s.setReg off v).fld o g = s.fld o g := by
  unfold State.fld
  rw [s.reg_setReg_ne _ _ _ h]

theorem State.bit_setFld_ne (s : State) (off o : Nat) (f g : Fld) (x : Nat) (h : o ≠ off) : (s.setFld off f x).bit o g = s.bit o g := by
  unfold State.bit
  rw [s.fld_setFld_ne _ _ _ _ _ h]

theorem State.bit_setFld_same (s : State) (off : Nat) (f : Fld) (x : Nat) (h : f.lo + f.w ≤ 64) :
    (s.setFld off f x).bit off f = (x % 2 ^ f.w == 1) := by
  unfold State.bit
  rw [s.fld_setFld_same off f x h]

/-- A counter that saturates never passes its top. -/
theorem State.fld_satAdd_same (s : State) (off : Nat) (f : Fld) (n : Nat) (h : f.lo + f.w ≤ 64) :
    (s.satAdd off f n).fld off f = min (2 ^ f.w - 1) (s.fld off f + n) := by
  unfold State.satAdd
  rw [s.fld_setFld_same off f _ h]
  have := Nat.two_pow_pos f.w
  exact Nat.mod_eq_of_lt (by omega)

theorem State.fld_wrapAdd_same (s : State) (off : Nat) (f : Fld) (n : Nat) (h : f.lo + f.w ≤ 64) :
    (s.wrapAdd off f n).fld off f = (s.fld off f + n) % 2 ^ f.w := by
  unfold State.wrapAdd
  rw [s.fld_setFld_same off f _ h, Nat.mod_mod]

theorem State.reg_satAdd_ne (s : State) (off o : Nat) (f : Fld) (n : Nat) (h : o ≠ off) : (s.satAdd off f n).reg o = s.reg o :=
  s.reg_setFld_ne off o f _ h

theorem State.reg_wrapAdd_ne (s : State) (off o : Nat) (f : Fld) (n : Nat) (h : o ≠ off) : (s.wrapAdd off f n).reg o = s.reg o :=
  s.reg_setFld_ne off o f _ h

theorem State.reg_setBit_ne (s : State) (off o : Nat) (f : Fld) (b : Bool) (h : o ≠ off) : (s.setBit off f b).reg o = s.reg o :=
  s.reg_setFld_ne off o f _ h

/-- A byte just written reads back. -/
@[simp] theorem State.rd_wr_same (s : State) (a : Nat) (b : Byte) : (s.wr a b).rd a = b := Store.get_set_same _ _ _ _

/-- A write leaves every other byte alone. -/
theorem State.rd_wr_ne (s : State) (a c : Nat) (b : Byte) (h : c ≠ a) : (s.wr a b).rd c = s.rd c := Store.get_set_ne _ _ _ _ _ h

/-- A write of bytes leaves every byte outside them alone. -/
theorem State.rd_wrBytes_out (l : List Byte) : ∀ (s : State) (a c : Nat), (c < a ∨ a + l.length ≤ c) → (s.wrBytes a l).rd c = s.rd c := by
  induction l with
  | nil => intro s a c _; rfl
  | cons b r ih =>
    intro s a c h
    simp only [State.wrBytes]
    rw [ih _ _ _ (by simp only [List.length_cons] at h; omega), State.rd_wr_ne _ _ _ _ (by simp only [List.length_cons] at h; omega)]

/-- The bytes written read back. -/
theorem State.rd_wrBytes_in (l : List Byte) : ∀ (s : State) (a i : Nat) (h : i < l.length), (s.wrBytes a l).rd (a + i) = l[i] := by
  induction l with
  | nil => intro s a i h; simp at h
  | cons b r ih =>
    intro s a i h
    simp only [State.wrBytes]
    cases i with
    | zero => rw [State.rd_wrBytes_out _ _ _ _ (by omega)]; simp
    | succ j =>
      have := ih (s.wr a b) (a + 1) j (by simpa using h)
      rw [show a + (j + 1) = a + 1 + j by omega, this]; simp

end Sys2Proof.Machine
end

