-- ==== Sys2Proof/Laws/State.lean ====
section
/-! SUPPORT. One law for each field under each named update of the state: an update changes its own part alone. -/

namespace Sys2Proof.Machine

/-! State.setReg changes regs alone. -/

@[simp] theorem State.setReg_mem (s : State) (off : Nat) (v : Word) : (s.setReg off v).mem = s.mem := rfl
@[simp] theorem State.setReg_poison (s : State) (off : Nat) (v : Word) : (s.setReg off v).poison = s.poison := rfl
@[simp] theorem State.setReg_time (s : State) (off : Nat) (v : Word) : (s.setReg off v).time = s.time := rfl
@[simp] theorem State.setReg_queues (s : State) (off : Nat) (v : Word) : (s.setReg off v).queues = s.queues := rfl
@[simp] theorem State.setReg_sched (s : State) (off : Nat) (v : Word) : (s.setReg off v).sched = s.sched := rfl
@[simp] theorem State.setReg_cores (s : State) (off : Nat) (v : Word) : (s.setReg off v).cores = s.cores := rfl
@[simp] theorem State.setReg_host (s : State) (off : Nat) (v : Word) : (s.setReg off v).host = s.host := rfl
@[simp] theorem State.setReg_windows (s : State) (off : Nat) (v : Word) : (s.setReg off v).windows = s.windows := rfl
@[simp] theorem State.setReg_spd (s : State) (off : Nat) (v : Word) : (s.setReg off v).spd = s.spd := rfl
@[simp] theorem State.setReg_ctl (s : State) (off : Nat) (v : Word) : (s.setReg off v).ctl = s.ctl := rfl
@[simp] theorem State.setReg_io (s : State) (off : Nat) (v : Word) : (s.setReg off v).io = s.io := rfl
@[simp] theorem State.setReg_plumb (s : State) (off : Nat) (v : Word) : (s.setReg off v).plumb = s.plumb := rfl
@[simp] theorem State.setReg_rep (s : State) (off : Nat) (v : Word) : (s.setReg off v).rep = s.rep := rfl
@[simp] theorem State.setReg_recorder (s : State) (off : Nat) (v : Word) : (s.setReg off v).recorder = s.recorder := rfl
@[simp] theorem State.setReg_staged (s : State) (off : Nat) (v : Word) : (s.setReg off v).staged = s.staged := rfl
@[simp] theorem State.setReg_hbm (s : State) (off : Nat) (v : Word) : (s.setReg off v).hbm = s.hbm := rfl
@[simp] theorem State.setReg_fab (s : State) (off : Nat) (v : Word) : (s.setReg off v).fab = s.fab := rfl
@[simp] theorem State.setReg_kv (s : State) (off : Nat) (v : Word) : (s.setReg off v).kv = s.kv := rfl
@[simp] theorem State.setReg_sol (s : State) (off : Nat) (v : Word) : (s.setReg off v).sol = s.sol := rfl
@[simp] theorem State.setReg_chd (s : State) (off : Nat) (v : Word) : (s.setReg off v).chd = s.chd := rfl
@[simp] theorem State.setReg_det (s : State) (off : Nat) (v : Word) : (s.setReg off v).det = s.det := rfl
@[simp] theorem State.setReg_img (s : State) (off : Nat) (v : Word) : (s.setReg off v).img = s.img := rfl
@[simp] theorem State.setReg_tok (s : State) (off : Nat) (v : Word) : (s.setReg off v).tok = s.tok := rfl
@[simp] theorem State.setReg_pwr (s : State) (off : Nat) (v : Word) : (s.setReg off v).pwr = s.pwr := rfl
@[simp] theorem State.setReg_mgt (s : State) (off : Nat) (v : Word) : (s.setReg off v).mgt = s.mgt := rfl
@[simp] theorem State.setReg_sec (s : State) (off : Nat) (v : Word) : (s.setReg off v).sec = s.sec := rfl
@[simp] theorem State.setReg_out (s : State) (off : Nat) (v : Word) : (s.setReg off v).out = s.out := rfl
@[simp] theorem State.setReg_freeCtr (s : State) (off : Nat) (v : Word) : (s.setReg off v).freeCtr = s.freeCtr := rfl
@[simp] theorem State.setReg_pending (s : State) (off : Nat) (v : Word) : (s.setReg off v).pending = s.pending := rfl
@[simp] theorem State.setReg_rd (s : State) (off : Nat) (v : Word) (a0 : Nat) : (s.setReg off v).rd a0 = s.rd a0 := rfl

/-! State.setFld changes regs alone. -/

@[simp] theorem State.setFld_mem (s : State) (off : Nat) (f : Fld) (x : Nat) : (s.setFld off f x).mem = s.mem := rfl
@[simp] theorem State.setFld_poison (s : State) (off : Nat) (f : Fld) (x : Nat) : (s.setFld off f x).poison = s.poison := rfl
@[simp] theorem State.setFld_time (s : State) (off : Nat) (f : Fld) (x : Nat) : (s.setFld off f x).time = s.time := rfl
@[simp] theorem State.setFld_queues (s : State) (off : Nat) (f : Fld) (x : Nat) : (s.setFld off f x).queues = s.queues := rfl
@[simp] theorem State.setFld_sched (s : State) (off : Nat) (f : Fld) (x : Nat) : (s.setFld off f x).sched = s.sched := rfl
@[simp] theorem State.setFld_cores (s : State) (off : Nat) (f : Fld) (x : Nat) : (s.setFld off f x).cores = s.cores := rfl
@[simp] theorem State.setFld_host (s : State) (off : Nat) (f : Fld) (x : Nat) : (s.setFld off f x).host = s.host := rfl
@[simp] theorem State.setFld_windows (s : State) (off : Nat) (f : Fld) (x : Nat) : (s.setFld off f x).windows = s.windows := rfl
@[simp] theorem State.setFld_spd (s : State) (off : Nat) (f : Fld) (x : Nat) : (s.setFld off f x).spd = s.spd := rfl
@[simp] theorem State.setFld_ctl (s : State) (off : Nat) (f : Fld) (x : Nat) : (s.setFld off f x).ctl = s.ctl := rfl
@[simp] theorem State.setFld_io (s : State) (off : Nat) (f : Fld) (x : Nat) : (s.setFld off f x).io = s.io := rfl
@[simp] theorem State.setFld_plumb (s : State) (off : Nat) (f : Fld) (x : Nat) : (s.setFld off f x).plumb = s.plumb := rfl
@[simp] theorem State.setFld_rep (s : State) (off : Nat) (f : Fld) (x : Nat) : (s.setFld off f x).rep = s.rep := rfl
@[simp] theorem State.setFld_recorder (s : State) (off : Nat) (f : Fld) (x : Nat) : (s.setFld off f x).recorder = s.recorder := rfl
@[simp] theorem State.setFld_staged (s : State) (off : Nat) (f : Fld) (x : Nat) : (s.setFld off f x).staged = s.staged := rfl
@[simp] theorem State.setFld_hbm (s : State) (off : Nat) (f : Fld) (x : Nat) : (s.setFld off f x).hbm = s.hbm := rfl
@[simp] theorem State.setFld_fab (s : State) (off : Nat) (f : Fld) (x : Nat) : (s.setFld off f x).fab = s.fab := rfl
@[simp] theorem State.setFld_kv (s : State) (off : Nat) (f : Fld) (x : Nat) : (s.setFld off f x).kv = s.kv := rfl
@[simp] theorem State.setFld_sol (s : State) (off : Nat) (f : Fld) (x : Nat) : (s.setFld off f x).sol = s.sol := rfl
@[simp] theorem State.setFld_chd (s : State) (off : Nat) (f : Fld) (x : Nat) : (s.setFld off f x).chd = s.chd := rfl
@[simp] theorem State.setFld_det (s : State) (off : Nat) (f : Fld) (x : Nat) : (s.setFld off f x).det = s.det := rfl
@[simp] theorem State.setFld_img (s : State) (off : Nat) (f : Fld) (x : Nat) : (s.setFld off f x).img = s.img := rfl
@[simp] theorem State.setFld_tok (s : State) (off : Nat) (f : Fld) (x : Nat) : (s.setFld off f x).tok = s.tok := rfl
@[simp] theorem State.setFld_pwr (s : State) (off : Nat) (f : Fld) (x : Nat) : (s.setFld off f x).pwr = s.pwr := rfl
@[simp] theorem State.setFld_mgt (s : State) (off : Nat) (f : Fld) (x : Nat) : (s.setFld off f x).mgt = s.mgt := rfl
@[simp] theorem State.setFld_sec (s : State) (off : Nat) (f : Fld) (x : Nat) : (s.setFld off f x).sec = s.sec := rfl
@[simp] theorem State.setFld_out (s : State) (off : Nat) (f : Fld) (x : Nat) : (s.setFld off f x).out = s.out := rfl
@[simp] theorem State.setFld_freeCtr (s : State) (off : Nat) (f : Fld) (x : Nat) : (s.setFld off f x).freeCtr = s.freeCtr := rfl
@[simp] theorem State.setFld_pending (s : State) (off : Nat) (f : Fld) (x : Nat) : (s.setFld off f x).pending = s.pending := rfl
@[simp] theorem State.setFld_rd (s : State) (off : Nat) (f : Fld) (x : Nat) (a0 : Nat) : (s.setFld off f x).rd a0 = s.rd a0 := rfl

/-! State.satAdd changes regs alone. -/

@[simp] theorem State.satAdd_mem (s : State) (off : Nat) (f : Fld) (x : Nat) : (s.satAdd off f x).mem = s.mem := rfl
@[simp] theorem State.satAdd_poison (s : State) (off : Nat) (f : Fld) (x : Nat) : (s.satAdd off f x).poison = s.poison := rfl
@[simp] theorem State.satAdd_time (s : State) (off : Nat) (f : Fld) (x : Nat) : (s.satAdd off f x).time = s.time := rfl
@[simp] theorem State.satAdd_queues (s : State) (off : Nat) (f : Fld) (x : Nat) : (s.satAdd off f x).queues = s.queues := rfl
@[simp] theorem State.satAdd_sched (s : State) (off : Nat) (f : Fld) (x : Nat) : (s.satAdd off f x).sched = s.sched := rfl
@[simp] theorem State.satAdd_cores (s : State) (off : Nat) (f : Fld) (x : Nat) : (s.satAdd off f x).cores = s.cores := rfl
@[simp] theorem State.satAdd_host (s : State) (off : Nat) (f : Fld) (x : Nat) : (s.satAdd off f x).host = s.host := rfl
@[simp] theorem State.satAdd_windows (s : State) (off : Nat) (f : Fld) (x : Nat) : (s.satAdd off f x).windows = s.windows := rfl
@[simp] theorem State.satAdd_spd (s : State) (off : Nat) (f : Fld) (x : Nat) : (s.satAdd off f x).spd = s.spd := rfl
@[simp] theorem State.satAdd_ctl (s : State) (off : Nat) (f : Fld) (x : Nat) : (s.satAdd off f x).ctl = s.ctl := rfl
@[simp] theorem State.satAdd_io (s : State) (off : Nat) (f : Fld) (x : Nat) : (s.satAdd off f x).io = s.io := rfl
@[simp] theorem State.satAdd_plumb (s : State) (off : Nat) (f : Fld) (x : Nat) : (s.satAdd off f x).plumb = s.plumb := rfl
@[simp] theorem State.satAdd_rep (s : State) (off : Nat) (f : Fld) (x : Nat) : (s.satAdd off f x).rep = s.rep := rfl
@[simp] theorem State.satAdd_recorder (s : State) (off : Nat) (f : Fld) (x : Nat) : (s.satAdd off f x).recorder = s.recorder := rfl
@[simp] theorem State.satAdd_staged (s : State) (off : Nat) (f : Fld) (x : Nat) : (s.satAdd off f x).staged = s.staged := rfl
@[simp] theorem State.satAdd_hbm (s : State) (off : Nat) (f : Fld) (x : Nat) : (s.satAdd off f x).hbm = s.hbm := rfl
@[simp] theorem State.satAdd_fab (s : State) (off : Nat) (f : Fld) (x : Nat) : (s.satAdd off f x).fab = s.fab := rfl
@[simp] theorem State.satAdd_kv (s : State) (off : Nat) (f : Fld) (x : Nat) : (s.satAdd off f x).kv = s.kv := rfl
@[simp] theorem State.satAdd_sol (s : State) (off : Nat) (f : Fld) (x : Nat) : (s.satAdd off f x).sol = s.sol := rfl
@[simp] theorem State.satAdd_chd (s : State) (off : Nat) (f : Fld) (x : Nat) : (s.satAdd off f x).chd = s.chd := rfl
@[simp] theorem State.satAdd_det (s : State) (off : Nat) (f : Fld) (x : Nat) : (s.satAdd off f x).det = s.det := rfl
@[simp] theorem State.satAdd_img (s : State) (off : Nat) (f : Fld) (x : Nat) : (s.satAdd off f x).img = s.img := rfl
@[simp] theorem State.satAdd_tok (s : State) (off : Nat) (f : Fld) (x : Nat) : (s.satAdd off f x).tok = s.tok := rfl
@[simp] theorem State.satAdd_pwr (s : State) (off : Nat) (f : Fld) (x : Nat) : (s.satAdd off f x).pwr = s.pwr := rfl
@[simp] theorem State.satAdd_mgt (s : State) (off : Nat) (f : Fld) (x : Nat) : (s.satAdd off f x).mgt = s.mgt := rfl
@[simp] theorem State.satAdd_sec (s : State) (off : Nat) (f : Fld) (x : Nat) : (s.satAdd off f x).sec = s.sec := rfl
@[simp] theorem State.satAdd_out (s : State) (off : Nat) (f : Fld) (x : Nat) : (s.satAdd off f x).out = s.out := rfl
@[simp] theorem State.satAdd_freeCtr (s : State) (off : Nat) (f : Fld) (x : Nat) : (s.satAdd off f x).freeCtr = s.freeCtr := rfl
@[simp] theorem State.satAdd_pending (s : State) (off : Nat) (f : Fld) (x : Nat) : (s.satAdd off f x).pending = s.pending := rfl
@[simp] theorem State.satAdd_rd (s : State) (off : Nat) (f : Fld) (x : Nat) (a0 : Nat) : (s.satAdd off f x).rd a0 = s.rd a0 := rfl

/-! State.wrapAdd changes regs alone. -/

@[simp] theorem State.wrapAdd_mem (s : State) (off : Nat) (f : Fld) (x : Nat) : (s.wrapAdd off f x).mem = s.mem := rfl
@[simp] theorem State.wrapAdd_poison (s : State) (off : Nat) (f : Fld) (x : Nat) : (s.wrapAdd off f x).poison = s.poison := rfl
@[simp] theorem State.wrapAdd_time (s : State) (off : Nat) (f : Fld) (x : Nat) : (s.wrapAdd off f x).time = s.time := rfl
@[simp] theorem State.wrapAdd_queues (s : State) (off : Nat) (f : Fld) (x : Nat) : (s.wrapAdd off f x).queues = s.queues := rfl
@[simp] theorem State.wrapAdd_sched (s : State) (off : Nat) (f : Fld) (x : Nat) : (s.wrapAdd off f x).sched = s.sched := rfl
@[simp] theorem State.wrapAdd_cores (s : State) (off : Nat) (f : Fld) (x : Nat) : (s.wrapAdd off f x).cores = s.cores := rfl
@[simp] theorem State.wrapAdd_host (s : State) (off : Nat) (f : Fld) (x : Nat) : (s.wrapAdd off f x).host = s.host := rfl
@[simp] theorem State.wrapAdd_windows (s : State) (off : Nat) (f : Fld) (x : Nat) : (s.wrapAdd off f x).windows = s.windows := rfl
@[simp] theorem State.wrapAdd_spd (s : State) (off : Nat) (f : Fld) (x : Nat) : (s.wrapAdd off f x).spd = s.spd := rfl
@[simp] theorem State.wrapAdd_ctl (s : State) (off : Nat) (f : Fld) (x : Nat) : (s.wrapAdd off f x).ctl = s.ctl := rfl
@[simp] theorem State.wrapAdd_io (s : State) (off : Nat) (f : Fld) (x : Nat) : (s.wrapAdd off f x).io = s.io := rfl
@[simp] theorem State.wrapAdd_plumb (s : State) (off : Nat) (f : Fld) (x : Nat) : (s.wrapAdd off f x).plumb = s.plumb := rfl
@[simp] theorem State.wrapAdd_rep (s : State) (off : Nat) (f : Fld) (x : Nat) : (s.wrapAdd off f x).rep = s.rep := rfl
@[simp] theorem State.wrapAdd_recorder (s : State) (off : Nat) (f : Fld) (x : Nat) : (s.wrapAdd off f x).recorder = s.recorder := rfl
@[simp] theorem State.wrapAdd_staged (s : State) (off : Nat) (f : Fld) (x : Nat) : (s.wrapAdd off f x).staged = s.staged := rfl
@[simp] theorem State.wrapAdd_hbm (s : State) (off : Nat) (f : Fld) (x : Nat) : (s.wrapAdd off f x).hbm = s.hbm := rfl
@[simp] theorem State.wrapAdd_fab (s : State) (off : Nat) (f : Fld) (x : Nat) : (s.wrapAdd off f x).fab = s.fab := rfl
@[simp] theorem State.wrapAdd_kv (s : State) (off : Nat) (f : Fld) (x : Nat) : (s.wrapAdd off f x).kv = s.kv := rfl
@[simp] theorem State.wrapAdd_sol (s : State) (off : Nat) (f : Fld) (x : Nat) : (s.wrapAdd off f x).sol = s.sol := rfl
@[simp] theorem State.wrapAdd_chd (s : State) (off : Nat) (f : Fld) (x : Nat) : (s.wrapAdd off f x).chd = s.chd := rfl
@[simp] theorem State.wrapAdd_det (s : State) (off : Nat) (f : Fld) (x : Nat) : (s.wrapAdd off f x).det = s.det := rfl
@[simp] theorem State.wrapAdd_img (s : State) (off : Nat) (f : Fld) (x : Nat) : (s.wrapAdd off f x).img = s.img := rfl
@[simp] theorem State.wrapAdd_tok (s : State) (off : Nat) (f : Fld) (x : Nat) : (s.wrapAdd off f x).tok = s.tok := rfl
@[simp] theorem State.wrapAdd_pwr (s : State) (off : Nat) (f : Fld) (x : Nat) : (s.wrapAdd off f x).pwr = s.pwr := rfl
@[simp] theorem State.wrapAdd_mgt (s : State) (off : Nat) (f : Fld) (x : Nat) : (s.wrapAdd off f x).mgt = s.mgt := rfl
@[simp] theorem State.wrapAdd_sec (s : State) (off : Nat) (f : Fld) (x : Nat) : (s.wrapAdd off f x).sec = s.sec := rfl
@[simp] theorem State.wrapAdd_out (s : State) (off : Nat) (f : Fld) (x : Nat) : (s.wrapAdd off f x).out = s.out := rfl
@[simp] theorem State.wrapAdd_freeCtr (s : State) (off : Nat) (f : Fld) (x : Nat) : (s.wrapAdd off f x).freeCtr = s.freeCtr := rfl
@[simp] theorem State.wrapAdd_pending (s : State) (off : Nat) (f : Fld) (x : Nat) : (s.wrapAdd off f x).pending = s.pending := rfl
@[simp] theorem State.wrapAdd_rd (s : State) (off : Nat) (f : Fld) (x : Nat) (a0 : Nat) : (s.wrapAdd off f x).rd a0 = s.rd a0 := rfl

/-! State.setBit changes regs alone. -/

@[simp] theorem State.setBit_mem (s : State) (off : Nat) (f : Fld) (b : Bool) : (s.setBit off f b).mem = s.mem := rfl
@[simp] theorem State.setBit_poison (s : State) (off : Nat) (f : Fld) (b : Bool) : (s.setBit off f b).poison = s.poison := rfl
@[simp] theorem State.setBit_time (s : State) (off : Nat) (f : Fld) (b : Bool) : (s.setBit off f b).time = s.time := rfl
@[simp] theorem State.setBit_queues (s : State) (off : Nat) (f : Fld) (b : Bool) : (s.setBit off f b).queues = s.queues := rfl
@[simp] theorem State.setBit_sched (s : State) (off : Nat) (f : Fld) (b : Bool) : (s.setBit off f b).sched = s.sched := rfl
@[simp] theorem State.setBit_cores (s : State) (off : Nat) (f : Fld) (b : Bool) : (s.setBit off f b).cores = s.cores := rfl
@[simp] theorem State.setBit_host (s : State) (off : Nat) (f : Fld) (b : Bool) : (s.setBit off f b).host = s.host := rfl
@[simp] theorem State.setBit_windows (s : State) (off : Nat) (f : Fld) (b : Bool) : (s.setBit off f b).windows = s.windows := rfl
@[simp] theorem State.setBit_spd (s : State) (off : Nat) (f : Fld) (b : Bool) : (s.setBit off f b).spd = s.spd := rfl
@[simp] theorem State.setBit_ctl (s : State) (off : Nat) (f : Fld) (b : Bool) : (s.setBit off f b).ctl = s.ctl := rfl
@[simp] theorem State.setBit_io (s : State) (off : Nat) (f : Fld) (b : Bool) : (s.setBit off f b).io = s.io := rfl
@[simp] theorem State.setBit_plumb (s : State) (off : Nat) (f : Fld) (b : Bool) : (s.setBit off f b).plumb = s.plumb := rfl
@[simp] theorem State.setBit_rep (s : State) (off : Nat) (f : Fld) (b : Bool) : (s.setBit off f b).rep = s.rep := rfl
@[simp] theorem State.setBit_recorder (s : State) (off : Nat) (f : Fld) (b : Bool) : (s.setBit off f b).recorder = s.recorder := rfl
@[simp] theorem State.setBit_staged (s : State) (off : Nat) (f : Fld) (b : Bool) : (s.setBit off f b).staged = s.staged := rfl
@[simp] theorem State.setBit_hbm (s : State) (off : Nat) (f : Fld) (b : Bool) : (s.setBit off f b).hbm = s.hbm := rfl
@[simp] theorem State.setBit_fab (s : State) (off : Nat) (f : Fld) (b : Bool) : (s.setBit off f b).fab = s.fab := rfl
@[simp] theorem State.setBit_kv (s : State) (off : Nat) (f : Fld) (b : Bool) : (s.setBit off f b).kv = s.kv := rfl
@[simp] theorem State.setBit_sol (s : State) (off : Nat) (f : Fld) (b : Bool) : (s.setBit off f b).sol = s.sol := rfl
@[simp] theorem State.setBit_chd (s : State) (off : Nat) (f : Fld) (b : Bool) : (s.setBit off f b).chd = s.chd := rfl
@[simp] theorem State.setBit_det (s : State) (off : Nat) (f : Fld) (b : Bool) : (s.setBit off f b).det = s.det := rfl
@[simp] theorem State.setBit_img (s : State) (off : Nat) (f : Fld) (b : Bool) : (s.setBit off f b).img = s.img := rfl
@[simp] theorem State.setBit_tok (s : State) (off : Nat) (f : Fld) (b : Bool) : (s.setBit off f b).tok = s.tok := rfl
@[simp] theorem State.setBit_pwr (s : State) (off : Nat) (f : Fld) (b : Bool) : (s.setBit off f b).pwr = s.pwr := rfl
@[simp] theorem State.setBit_mgt (s : State) (off : Nat) (f : Fld) (b : Bool) : (s.setBit off f b).mgt = s.mgt := rfl
@[simp] theorem State.setBit_sec (s : State) (off : Nat) (f : Fld) (b : Bool) : (s.setBit off f b).sec = s.sec := rfl
@[simp] theorem State.setBit_out (s : State) (off : Nat) (f : Fld) (b : Bool) : (s.setBit off f b).out = s.out := rfl
@[simp] theorem State.setBit_freeCtr (s : State) (off : Nat) (f : Fld) (b : Bool) : (s.setBit off f b).freeCtr = s.freeCtr := rfl
@[simp] theorem State.setBit_pending (s : State) (off : Nat) (f : Fld) (b : Bool) : (s.setBit off f b).pending = s.pending := rfl
@[simp] theorem State.setBit_rd (s : State) (off : Nat) (f : Fld) (b : Bool) (a0 : Nat) : (s.setBit off f b).rd a0 = s.rd a0 := rfl

/-! State.emit changes out alone. -/

@[simp] theorem State.emit_regs (s : State) (o : Output) : (s.emit o).regs = s.regs := rfl
@[simp] theorem State.emit_mem (s : State) (o : Output) : (s.emit o).mem = s.mem := rfl
@[simp] theorem State.emit_poison (s : State) (o : Output) : (s.emit o).poison = s.poison := rfl
@[simp] theorem State.emit_time (s : State) (o : Output) : (s.emit o).time = s.time := rfl
@[simp] theorem State.emit_queues (s : State) (o : Output) : (s.emit o).queues = s.queues := rfl
@[simp] theorem State.emit_sched (s : State) (o : Output) : (s.emit o).sched = s.sched := rfl
@[simp] theorem State.emit_cores (s : State) (o : Output) : (s.emit o).cores = s.cores := rfl
@[simp] theorem State.emit_host (s : State) (o : Output) : (s.emit o).host = s.host := rfl
@[simp] theorem State.emit_windows (s : State) (o : Output) : (s.emit o).windows = s.windows := rfl
@[simp] theorem State.emit_spd (s : State) (o : Output) : (s.emit o).spd = s.spd := rfl
@[simp] theorem State.emit_ctl (s : State) (o : Output) : (s.emit o).ctl = s.ctl := rfl
@[simp] theorem State.emit_io (s : State) (o : Output) : (s.emit o).io = s.io := rfl
@[simp] theorem State.emit_plumb (s : State) (o : Output) : (s.emit o).plumb = s.plumb := rfl
@[simp] theorem State.emit_rep (s : State) (o : Output) : (s.emit o).rep = s.rep := rfl
@[simp] theorem State.emit_recorder (s : State) (o : Output) : (s.emit o).recorder = s.recorder := rfl
@[simp] theorem State.emit_staged (s : State) (o : Output) : (s.emit o).staged = s.staged := rfl
@[simp] theorem State.emit_hbm (s : State) (o : Output) : (s.emit o).hbm = s.hbm := rfl
@[simp] theorem State.emit_fab (s : State) (o : Output) : (s.emit o).fab = s.fab := rfl
@[simp] theorem State.emit_kv (s : State) (o : Output) : (s.emit o).kv = s.kv := rfl
@[simp] theorem State.emit_sol (s : State) (o : Output) : (s.emit o).sol = s.sol := rfl
@[simp] theorem State.emit_chd (s : State) (o : Output) : (s.emit o).chd = s.chd := rfl
@[simp] theorem State.emit_det (s : State) (o : Output) : (s.emit o).det = s.det := rfl
@[simp] theorem State.emit_img (s : State) (o : Output) : (s.emit o).img = s.img := rfl
@[simp] theorem State.emit_tok (s : State) (o : Output) : (s.emit o).tok = s.tok := rfl
@[simp] theorem State.emit_pwr (s : State) (o : Output) : (s.emit o).pwr = s.pwr := rfl
@[simp] theorem State.emit_mgt (s : State) (o : Output) : (s.emit o).mgt = s.mgt := rfl
@[simp] theorem State.emit_sec (s : State) (o : Output) : (s.emit o).sec = s.sec := rfl
@[simp] theorem State.emit_freeCtr (s : State) (o : Output) : (s.emit o).freeCtr = s.freeCtr := rfl
@[simp] theorem State.emit_pending (s : State) (o : Output) : (s.emit o).pending = s.pending := rfl
@[simp] theorem State.emit_reg (s : State) (o : Output) (off0 : Nat) : (s.emit o).reg off0 = s.reg off0 := rfl
@[simp] theorem State.emit_fld (s : State) (o : Output) (off0 : Nat) (fd0 : Fld) : (s.emit o).fld off0 fd0 = s.fld off0 fd0 := rfl
@[simp] theorem State.emit_bit (s : State) (o : Output) (off0 : Nat) (fd0 : Fld) : (s.emit o).bit off0 fd0 = s.bit off0 fd0 := rfl
@[simp] theorem State.emit_rd (s : State) (o : Output) (a0 : Nat) : (s.emit o).rd a0 = s.rd a0 := rfl

/-! State.setAct changes io alone. -/

@[simp] theorem State.setAct_regs (s : State) (a : Nat) (x : Act) : (s.setAct a x).regs = s.regs := rfl
@[simp] theorem State.setAct_mem (s : State) (a : Nat) (x : Act) : (s.setAct a x).mem = s.mem := rfl
@[simp] theorem State.setAct_poison (s : State) (a : Nat) (x : Act) : (s.setAct a x).poison = s.poison := rfl
@[simp] theorem State.setAct_time (s : State) (a : Nat) (x : Act) : (s.setAct a x).time = s.time := rfl
@[simp] theorem State.setAct_queues (s : State) (a : Nat) (x : Act) : (s.setAct a x).queues = s.queues := rfl
@[simp] theorem State.setAct_sched (s : State) (a : Nat) (x : Act) : (s.setAct a x).sched = s.sched := rfl
@[simp] theorem State.setAct_cores (s : State) (a : Nat) (x : Act) : (s.setAct a x).cores = s.cores := rfl
@[simp] theorem State.setAct_host (s : State) (a : Nat) (x : Act) : (s.setAct a x).host = s.host := rfl
@[simp] theorem State.setAct_windows (s : State) (a : Nat) (x : Act) : (s.setAct a x).windows = s.windows := rfl
@[simp] theorem State.setAct_spd (s : State) (a : Nat) (x : Act) : (s.setAct a x).spd = s.spd := rfl
@[simp] theorem State.setAct_ctl (s : State) (a : Nat) (x : Act) : (s.setAct a x).ctl = s.ctl := rfl
@[simp] theorem State.setAct_plumb (s : State) (a : Nat) (x : Act) : (s.setAct a x).plumb = s.plumb := rfl
@[simp] theorem State.setAct_rep (s : State) (a : Nat) (x : Act) : (s.setAct a x).rep = s.rep := rfl
@[simp] theorem State.setAct_recorder (s : State) (a : Nat) (x : Act) : (s.setAct a x).recorder = s.recorder := rfl
@[simp] theorem State.setAct_staged (s : State) (a : Nat) (x : Act) : (s.setAct a x).staged = s.staged := rfl
@[simp] theorem State.setAct_hbm (s : State) (a : Nat) (x : Act) : (s.setAct a x).hbm = s.hbm := rfl
@[simp] theorem State.setAct_fab (s : State) (a : Nat) (x : Act) : (s.setAct a x).fab = s.fab := rfl
@[simp] theorem State.setAct_kv (s : State) (a : Nat) (x : Act) : (s.setAct a x).kv = s.kv := rfl
@[simp] theorem State.setAct_sol (s : State) (a : Nat) (x : Act) : (s.setAct a x).sol = s.sol := rfl
@[simp] theorem State.setAct_chd (s : State) (a : Nat) (x : Act) : (s.setAct a x).chd = s.chd := rfl
@[simp] theorem State.setAct_det (s : State) (a : Nat) (x : Act) : (s.setAct a x).det = s.det := rfl
@[simp] theorem State.setAct_img (s : State) (a : Nat) (x : Act) : (s.setAct a x).img = s.img := rfl
@[simp] theorem State.setAct_tok (s : State) (a : Nat) (x : Act) : (s.setAct a x).tok = s.tok := rfl
@[simp] theorem State.setAct_pwr (s : State) (a : Nat) (x : Act) : (s.setAct a x).pwr = s.pwr := rfl
@[simp] theorem State.setAct_mgt (s : State) (a : Nat) (x : Act) : (s.setAct a x).mgt = s.mgt := rfl
@[simp] theorem State.setAct_sec (s : State) (a : Nat) (x : Act) : (s.setAct a x).sec = s.sec := rfl
@[simp] theorem State.setAct_out (s : State) (a : Nat) (x : Act) : (s.setAct a x).out = s.out := rfl
@[simp] theorem State.setAct_freeCtr (s : State) (a : Nat) (x : Act) : (s.setAct a x).freeCtr = s.freeCtr := rfl
@[simp] theorem State.setAct_pending (s : State) (a : Nat) (x : Act) : (s.setAct a x).pending = s.pending := rfl
@[simp] theorem State.setAct_reg (s : State) (a : Nat) (x : Act) (off0 : Nat) : (s.setAct a x).reg off0 = s.reg off0 := rfl
@[simp] theorem State.setAct_fld (s : State) (a : Nat) (x : Act) (off0 : Nat) (fd0 : Fld) : (s.setAct a x).fld off0 fd0 = s.fld off0 fd0 := rfl
@[simp] theorem State.setAct_bit (s : State) (a : Nat) (x : Act) (off0 : Nat) (fd0 : Fld) : (s.setAct a x).bit off0 fd0 = s.bit off0 fd0 := rfl
@[simp] theorem State.setAct_rd (s : State) (a : Nat) (x : Act) (a0 : Nat) : (s.setAct a x).rd a0 = s.rd a0 := rfl

/-! State.setCamPort changes img alone. -/

@[simp] theorem State.setCamPort_regs (s : State) (p : Nat) (x : CamPort) : (s.setCamPort p x).regs = s.regs := rfl
@[simp] theorem State.setCamPort_mem (s : State) (p : Nat) (x : CamPort) : (s.setCamPort p x).mem = s.mem := rfl
@[simp] theorem State.setCamPort_poison (s : State) (p : Nat) (x : CamPort) : (s.setCamPort p x).poison = s.poison := rfl
@[simp] theorem State.setCamPort_time (s : State) (p : Nat) (x : CamPort) : (s.setCamPort p x).time = s.time := rfl
@[simp] theorem State.setCamPort_queues (s : State) (p : Nat) (x : CamPort) : (s.setCamPort p x).queues = s.queues := rfl
@[simp] theorem State.setCamPort_sched (s : State) (p : Nat) (x : CamPort) : (s.setCamPort p x).sched = s.sched := rfl
@[simp] theorem State.setCamPort_cores (s : State) (p : Nat) (x : CamPort) : (s.setCamPort p x).cores = s.cores := rfl
@[simp] theorem State.setCamPort_host (s : State) (p : Nat) (x : CamPort) : (s.setCamPort p x).host = s.host := rfl
@[simp] theorem State.setCamPort_windows (s : State) (p : Nat) (x : CamPort) : (s.setCamPort p x).windows = s.windows := rfl
@[simp] theorem State.setCamPort_spd (s : State) (p : Nat) (x : CamPort) : (s.setCamPort p x).spd = s.spd := rfl
@[simp] theorem State.setCamPort_ctl (s : State) (p : Nat) (x : CamPort) : (s.setCamPort p x).ctl = s.ctl := rfl
@[simp] theorem State.setCamPort_io (s : State) (p : Nat) (x : CamPort) : (s.setCamPort p x).io = s.io := rfl
@[simp] theorem State.setCamPort_plumb (s : State) (p : Nat) (x : CamPort) : (s.setCamPort p x).plumb = s.plumb := rfl
@[simp] theorem State.setCamPort_rep (s : State) (p : Nat) (x : CamPort) : (s.setCamPort p x).rep = s.rep := rfl
@[simp] theorem State.setCamPort_recorder (s : State) (p : Nat) (x : CamPort) : (s.setCamPort p x).recorder = s.recorder := rfl
@[simp] theorem State.setCamPort_staged (s : State) (p : Nat) (x : CamPort) : (s.setCamPort p x).staged = s.staged := rfl
@[simp] theorem State.setCamPort_hbm (s : State) (p : Nat) (x : CamPort) : (s.setCamPort p x).hbm = s.hbm := rfl
@[simp] theorem State.setCamPort_fab (s : State) (p : Nat) (x : CamPort) : (s.setCamPort p x).fab = s.fab := rfl
@[simp] theorem State.setCamPort_kv (s : State) (p : Nat) (x : CamPort) : (s.setCamPort p x).kv = s.kv := rfl
@[simp] theorem State.setCamPort_sol (s : State) (p : Nat) (x : CamPort) : (s.setCamPort p x).sol = s.sol := rfl
@[simp] theorem State.setCamPort_chd (s : State) (p : Nat) (x : CamPort) : (s.setCamPort p x).chd = s.chd := rfl
@[simp] theorem State.setCamPort_det (s : State) (p : Nat) (x : CamPort) : (s.setCamPort p x).det = s.det := rfl
@[simp] theorem State.setCamPort_tok (s : State) (p : Nat) (x : CamPort) : (s.setCamPort p x).tok = s.tok := rfl
@[simp] theorem State.setCamPort_pwr (s : State) (p : Nat) (x : CamPort) : (s.setCamPort p x).pwr = s.pwr := rfl
@[simp] theorem State.setCamPort_mgt (s : State) (p : Nat) (x : CamPort) : (s.setCamPort p x).mgt = s.mgt := rfl
@[simp] theorem State.setCamPort_sec (s : State) (p : Nat) (x : CamPort) : (s.setCamPort p x).sec = s.sec := rfl
@[simp] theorem State.setCamPort_out (s : State) (p : Nat) (x : CamPort) : (s.setCamPort p x).out = s.out := rfl
@[simp] theorem State.setCamPort_freeCtr (s : State) (p : Nat) (x : CamPort) : (s.setCamPort p x).freeCtr = s.freeCtr := rfl
@[simp] theorem State.setCamPort_pending (s : State) (p : Nat) (x : CamPort) : (s.setCamPort p x).pending = s.pending := rfl
@[simp] theorem State.setCamPort_reg (s : State) (p : Nat) (x : CamPort) (off0 : Nat) : (s.setCamPort p x).reg off0 = s.reg off0 := rfl
@[simp] theorem State.setCamPort_fld (s : State) (p : Nat) (x : CamPort) (off0 : Nat) (fd0 : Fld) : (s.setCamPort p x).fld off0 fd0 = s.fld off0 fd0 := rfl
@[simp] theorem State.setCamPort_bit (s : State) (p : Nat) (x : CamPort) (off0 : Nat) (fd0 : Fld) : (s.setCamPort p x).bit off0 fd0 = s.bit off0 fd0 := rfl
@[simp] theorem State.setCamPort_rd (s : State) (p : Nat) (x : CamPort) (a0 : Nat) : (s.setCamPort p x).rd a0 = s.rd a0 := rfl

/-! State.setCan changes io alone. -/

@[simp] theorem State.setCan_regs (s : State) (k : Nat) (x : CanSt) : (s.setCan k x).regs = s.regs := rfl
@[simp] theorem State.setCan_mem (s : State) (k : Nat) (x : CanSt) : (s.setCan k x).mem = s.mem := rfl
@[simp] theorem State.setCan_poison (s : State) (k : Nat) (x : CanSt) : (s.setCan k x).poison = s.poison := rfl
@[simp] theorem State.setCan_time (s : State) (k : Nat) (x : CanSt) : (s.setCan k x).time = s.time := rfl
@[simp] theorem State.setCan_queues (s : State) (k : Nat) (x : CanSt) : (s.setCan k x).queues = s.queues := rfl
@[simp] theorem State.setCan_sched (s : State) (k : Nat) (x : CanSt) : (s.setCan k x).sched = s.sched := rfl
@[simp] theorem State.setCan_cores (s : State) (k : Nat) (x : CanSt) : (s.setCan k x).cores = s.cores := rfl
@[simp] theorem State.setCan_host (s : State) (k : Nat) (x : CanSt) : (s.setCan k x).host = s.host := rfl
@[simp] theorem State.setCan_windows (s : State) (k : Nat) (x : CanSt) : (s.setCan k x).windows = s.windows := rfl
@[simp] theorem State.setCan_spd (s : State) (k : Nat) (x : CanSt) : (s.setCan k x).spd = s.spd := rfl
@[simp] theorem State.setCan_ctl (s : State) (k : Nat) (x : CanSt) : (s.setCan k x).ctl = s.ctl := rfl
@[simp] theorem State.setCan_plumb (s : State) (k : Nat) (x : CanSt) : (s.setCan k x).plumb = s.plumb := rfl
@[simp] theorem State.setCan_rep (s : State) (k : Nat) (x : CanSt) : (s.setCan k x).rep = s.rep := rfl
@[simp] theorem State.setCan_recorder (s : State) (k : Nat) (x : CanSt) : (s.setCan k x).recorder = s.recorder := rfl
@[simp] theorem State.setCan_staged (s : State) (k : Nat) (x : CanSt) : (s.setCan k x).staged = s.staged := rfl
@[simp] theorem State.setCan_hbm (s : State) (k : Nat) (x : CanSt) : (s.setCan k x).hbm = s.hbm := rfl
@[simp] theorem State.setCan_fab (s : State) (k : Nat) (x : CanSt) : (s.setCan k x).fab = s.fab := rfl
@[simp] theorem State.setCan_kv (s : State) (k : Nat) (x : CanSt) : (s.setCan k x).kv = s.kv := rfl
@[simp] theorem State.setCan_sol (s : State) (k : Nat) (x : CanSt) : (s.setCan k x).sol = s.sol := rfl
@[simp] theorem State.setCan_chd (s : State) (k : Nat) (x : CanSt) : (s.setCan k x).chd = s.chd := rfl
@[simp] theorem State.setCan_det (s : State) (k : Nat) (x : CanSt) : (s.setCan k x).det = s.det := rfl
@[simp] theorem State.setCan_img (s : State) (k : Nat) (x : CanSt) : (s.setCan k x).img = s.img := rfl
@[simp] theorem State.setCan_tok (s : State) (k : Nat) (x : CanSt) : (s.setCan k x).tok = s.tok := rfl
@[simp] theorem State.setCan_pwr (s : State) (k : Nat) (x : CanSt) : (s.setCan k x).pwr = s.pwr := rfl
@[simp] theorem State.setCan_mgt (s : State) (k : Nat) (x : CanSt) : (s.setCan k x).mgt = s.mgt := rfl
@[simp] theorem State.setCan_sec (s : State) (k : Nat) (x : CanSt) : (s.setCan k x).sec = s.sec := rfl
@[simp] theorem State.setCan_out (s : State) (k : Nat) (x : CanSt) : (s.setCan k x).out = s.out := rfl
@[simp] theorem State.setCan_freeCtr (s : State) (k : Nat) (x : CanSt) : (s.setCan k x).freeCtr = s.freeCtr := rfl
@[simp] theorem State.setCan_pending (s : State) (k : Nat) (x : CanSt) : (s.setCan k x).pending = s.pending := rfl
@[simp] theorem State.setCan_reg (s : State) (k : Nat) (x : CanSt) (off0 : Nat) : (s.setCan k x).reg off0 = s.reg off0 := rfl
@[simp] theorem State.setCan_fld (s : State) (k : Nat) (x : CanSt) (off0 : Nat) (fd0 : Fld) : (s.setCan k x).fld off0 fd0 = s.fld off0 fd0 := rfl
@[simp] theorem State.setCan_bit (s : State) (k : Nat) (x : CanSt) (off0 : Nat) (fd0 : Fld) : (s.setCan k x).bit off0 fd0 = s.bit off0 fd0 := rfl
@[simp] theorem State.setCan_rd (s : State) (k : Nat) (x : CanSt) (a0 : Nat) : (s.setCan k x).rd a0 = s.rd a0 := rfl

/-! State.setChdPort changes chd alone. -/

@[simp] theorem State.setChdPort_regs (s : State) (p : Nat) (x : ChdPort) : (s.setChdPort p x).regs = s.regs := rfl
@[simp] theorem State.setChdPort_mem (s : State) (p : Nat) (x : ChdPort) : (s.setChdPort p x).mem = s.mem := rfl
@[simp] theorem State.setChdPort_poison (s : State) (p : Nat) (x : ChdPort) : (s.setChdPort p x).poison = s.poison := rfl
@[simp] theorem State.setChdPort_time (s : State) (p : Nat) (x : ChdPort) : (s.setChdPort p x).time = s.time := rfl
@[simp] theorem State.setChdPort_queues (s : State) (p : Nat) (x : ChdPort) : (s.setChdPort p x).queues = s.queues := rfl
@[simp] theorem State.setChdPort_sched (s : State) (p : Nat) (x : ChdPort) : (s.setChdPort p x).sched = s.sched := rfl
@[simp] theorem State.setChdPort_cores (s : State) (p : Nat) (x : ChdPort) : (s.setChdPort p x).cores = s.cores := rfl
@[simp] theorem State.setChdPort_host (s : State) (p : Nat) (x : ChdPort) : (s.setChdPort p x).host = s.host := rfl
@[simp] theorem State.setChdPort_windows (s : State) (p : Nat) (x : ChdPort) : (s.setChdPort p x).windows = s.windows := rfl
@[simp] theorem State.setChdPort_spd (s : State) (p : Nat) (x : ChdPort) : (s.setChdPort p x).spd = s.spd := rfl
@[simp] theorem State.setChdPort_ctl (s : State) (p : Nat) (x : ChdPort) : (s.setChdPort p x).ctl = s.ctl := rfl
@[simp] theorem State.setChdPort_io (s : State) (p : Nat) (x : ChdPort) : (s.setChdPort p x).io = s.io := rfl
@[simp] theorem State.setChdPort_plumb (s : State) (p : Nat) (x : ChdPort) : (s.setChdPort p x).plumb = s.plumb := rfl
@[simp] theorem State.setChdPort_rep (s : State) (p : Nat) (x : ChdPort) : (s.setChdPort p x).rep = s.rep := rfl
@[simp] theorem State.setChdPort_recorder (s : State) (p : Nat) (x : ChdPort) : (s.setChdPort p x).recorder = s.recorder := rfl
@[simp] theorem State.setChdPort_staged (s : State) (p : Nat) (x : ChdPort) : (s.setChdPort p x).staged = s.staged := rfl
@[simp] theorem State.setChdPort_hbm (s : State) (p : Nat) (x : ChdPort) : (s.setChdPort p x).hbm = s.hbm := rfl
@[simp] theorem State.setChdPort_fab (s : State) (p : Nat) (x : ChdPort) : (s.setChdPort p x).fab = s.fab := rfl
@[simp] theorem State.setChdPort_kv (s : State) (p : Nat) (x : ChdPort) : (s.setChdPort p x).kv = s.kv := rfl
@[simp] theorem State.setChdPort_sol (s : State) (p : Nat) (x : ChdPort) : (s.setChdPort p x).sol = s.sol := rfl
@[simp] theorem State.setChdPort_det (s : State) (p : Nat) (x : ChdPort) : (s.setChdPort p x).det = s.det := rfl
@[simp] theorem State.setChdPort_img (s : State) (p : Nat) (x : ChdPort) : (s.setChdPort p x).img = s.img := rfl
@[simp] theorem State.setChdPort_tok (s : State) (p : Nat) (x : ChdPort) : (s.setChdPort p x).tok = s.tok := rfl
@[simp] theorem State.setChdPort_pwr (s : State) (p : Nat) (x : ChdPort) : (s.setChdPort p x).pwr = s.pwr := rfl
@[simp] theorem State.setChdPort_mgt (s : State) (p : Nat) (x : ChdPort) : (s.setChdPort p x).mgt = s.mgt := rfl
@[simp] theorem State.setChdPort_sec (s : State) (p : Nat) (x : ChdPort) : (s.setChdPort p x).sec = s.sec := rfl
@[simp] theorem State.setChdPort_out (s : State) (p : Nat) (x : ChdPort) : (s.setChdPort p x).out = s.out := rfl
@[simp] theorem State.setChdPort_freeCtr (s : State) (p : Nat) (x : ChdPort) : (s.setChdPort p x).freeCtr = s.freeCtr := rfl
@[simp] theorem State.setChdPort_pending (s : State) (p : Nat) (x : ChdPort) : (s.setChdPort p x).pending = s.pending := rfl
@[simp] theorem State.setChdPort_reg (s : State) (p : Nat) (x : ChdPort) (off0 : Nat) : (s.setChdPort p x).reg off0 = s.reg off0 := rfl
@[simp] theorem State.setChdPort_fld (s : State) (p : Nat) (x : ChdPort) (off0 : Nat) (fd0 : Fld) : (s.setChdPort p x).fld off0 fd0 = s.fld off0 fd0 := rfl
@[simp] theorem State.setChdPort_bit (s : State) (p : Nat) (x : ChdPort) (off0 : Nat) (fd0 : Fld) : (s.setChdPort p x).bit off0 fd0 = s.bit off0 fd0 := rfl
@[simp] theorem State.setChdPort_rd (s : State) (p : Nat) (x : ChdPort) (a0 : Nat) : (s.setChdPort p x).rd a0 = s.rd a0 := rfl

/-! State.setCore changes cores alone. -/

@[simp] theorem State.setCore_regs (s : State) (n : Nat) (x : Core) : (s.setCore n x).regs = s.regs := rfl
@[simp] theorem State.setCore_mem (s : State) (n : Nat) (x : Core) : (s.setCore n x).mem = s.mem := rfl
@[simp] theorem State.setCore_poison (s : State) (n : Nat) (x : Core) : (s.setCore n x).poison = s.poison := rfl
@[simp] theorem State.setCore_time (s : State) (n : Nat) (x : Core) : (s.setCore n x).time = s.time := rfl
@[simp] theorem State.setCore_queues (s : State) (n : Nat) (x : Core) : (s.setCore n x).queues = s.queues := rfl
@[simp] theorem State.setCore_sched (s : State) (n : Nat) (x : Core) : (s.setCore n x).sched = s.sched := rfl
@[simp] theorem State.setCore_host (s : State) (n : Nat) (x : Core) : (s.setCore n x).host = s.host := rfl
@[simp] theorem State.setCore_windows (s : State) (n : Nat) (x : Core) : (s.setCore n x).windows = s.windows := rfl
@[simp] theorem State.setCore_spd (s : State) (n : Nat) (x : Core) : (s.setCore n x).spd = s.spd := rfl
@[simp] theorem State.setCore_ctl (s : State) (n : Nat) (x : Core) : (s.setCore n x).ctl = s.ctl := rfl
@[simp] theorem State.setCore_io (s : State) (n : Nat) (x : Core) : (s.setCore n x).io = s.io := rfl
@[simp] theorem State.setCore_plumb (s : State) (n : Nat) (x : Core) : (s.setCore n x).plumb = s.plumb := rfl
@[simp] theorem State.setCore_rep (s : State) (n : Nat) (x : Core) : (s.setCore n x).rep = s.rep := rfl
@[simp] theorem State.setCore_recorder (s : State) (n : Nat) (x : Core) : (s.setCore n x).recorder = s.recorder := rfl
@[simp] theorem State.setCore_staged (s : State) (n : Nat) (x : Core) : (s.setCore n x).staged = s.staged := rfl
@[simp] theorem State.setCore_hbm (s : State) (n : Nat) (x : Core) : (s.setCore n x).hbm = s.hbm := rfl
@[simp] theorem State.setCore_fab (s : State) (n : Nat) (x : Core) : (s.setCore n x).fab = s.fab := rfl
@[simp] theorem State.setCore_kv (s : State) (n : Nat) (x : Core) : (s.setCore n x).kv = s.kv := rfl
@[simp] theorem State.setCore_sol (s : State) (n : Nat) (x : Core) : (s.setCore n x).sol = s.sol := rfl
@[simp] theorem State.setCore_chd (s : State) (n : Nat) (x : Core) : (s.setCore n x).chd = s.chd := rfl
@[simp] theorem State.setCore_det (s : State) (n : Nat) (x : Core) : (s.setCore n x).det = s.det := rfl
@[simp] theorem State.setCore_img (s : State) (n : Nat) (x : Core) : (s.setCore n x).img = s.img := rfl
@[simp] theorem State.setCore_tok (s : State) (n : Nat) (x : Core) : (s.setCore n x).tok = s.tok := rfl
@[simp] theorem State.setCore_pwr (s : State) (n : Nat) (x : Core) : (s.setCore n x).pwr = s.pwr := rfl
@[simp] theorem State.setCore_mgt (s : State) (n : Nat) (x : Core) : (s.setCore n x).mgt = s.mgt := rfl
@[simp] theorem State.setCore_sec (s : State) (n : Nat) (x : Core) : (s.setCore n x).sec = s.sec := rfl
@[simp] theorem State.setCore_out (s : State) (n : Nat) (x : Core) : (s.setCore n x).out = s.out := rfl
@[simp] theorem State.setCore_freeCtr (s : State) (n : Nat) (x : Core) : (s.setCore n x).freeCtr = s.freeCtr := rfl
@[simp] theorem State.setCore_pending (s : State) (n : Nat) (x : Core) : (s.setCore n x).pending = s.pending := rfl
@[simp] theorem State.setCore_reg (s : State) (n : Nat) (x : Core) (off0 : Nat) : (s.setCore n x).reg off0 = s.reg off0 := rfl
@[simp] theorem State.setCore_fld (s : State) (n : Nat) (x : Core) (off0 : Nat) (fd0 : Fld) : (s.setCore n x).fld off0 fd0 = s.fld off0 fd0 := rfl
@[simp] theorem State.setCore_bit (s : State) (n : Nat) (x : Core) (off0 : Nat) (fd0 : Fld) : (s.setCore n x).bit off0 fd0 = s.bit off0 fd0 := rfl
@[simp] theorem State.setCore_rd (s : State) (n : Nat) (x : Core) (a0 : Nat) : (s.setCore n x).rd a0 = s.rd a0 := rfl

/-! State.setDue changes time alone. -/

@[simp] theorem State.setDue_regs (s : State) (n : Nat) (d : Option CmpDue) : (s.setDue n d).regs = s.regs := rfl
@[simp] theorem State.setDue_mem (s : State) (n : Nat) (d : Option CmpDue) : (s.setDue n d).mem = s.mem := rfl
@[simp] theorem State.setDue_poison (s : State) (n : Nat) (d : Option CmpDue) : (s.setDue n d).poison = s.poison := rfl
@[simp] theorem State.setDue_queues (s : State) (n : Nat) (d : Option CmpDue) : (s.setDue n d).queues = s.queues := rfl
@[simp] theorem State.setDue_sched (s : State) (n : Nat) (d : Option CmpDue) : (s.setDue n d).sched = s.sched := rfl
@[simp] theorem State.setDue_cores (s : State) (n : Nat) (d : Option CmpDue) : (s.setDue n d).cores = s.cores := rfl
@[simp] theorem State.setDue_host (s : State) (n : Nat) (d : Option CmpDue) : (s.setDue n d).host = s.host := rfl
@[simp] theorem State.setDue_windows (s : State) (n : Nat) (d : Option CmpDue) : (s.setDue n d).windows = s.windows := rfl
@[simp] theorem State.setDue_spd (s : State) (n : Nat) (d : Option CmpDue) : (s.setDue n d).spd = s.spd := rfl
@[simp] theorem State.setDue_ctl (s : State) (n : Nat) (d : Option CmpDue) : (s.setDue n d).ctl = s.ctl := rfl
@[simp] theorem State.setDue_io (s : State) (n : Nat) (d : Option CmpDue) : (s.setDue n d).io = s.io := rfl
@[simp] theorem State.setDue_plumb (s : State) (n : Nat) (d : Option CmpDue) : (s.setDue n d).plumb = s.plumb := rfl
@[simp] theorem State.setDue_rep (s : State) (n : Nat) (d : Option CmpDue) : (s.setDue n d).rep = s.rep := rfl
@[simp] theorem State.setDue_recorder (s : State) (n : Nat) (d : Option CmpDue) : (s.setDue n d).recorder = s.recorder := rfl
@[simp] theorem State.setDue_staged (s : State) (n : Nat) (d : Option CmpDue) : (s.setDue n d).staged = s.staged := rfl
@[simp] theorem State.setDue_hbm (s : State) (n : Nat) (d : Option CmpDue) : (s.setDue n d).hbm = s.hbm := rfl
@[simp] theorem State.setDue_fab (s : State) (n : Nat) (d : Option CmpDue) : (s.setDue n d).fab = s.fab := rfl
@[simp] theorem State.setDue_kv (s : State) (n : Nat) (d : Option CmpDue) : (s.setDue n d).kv = s.kv := rfl
@[simp] theorem State.setDue_sol (s : State) (n : Nat) (d : Option CmpDue) : (s.setDue n d).sol = s.sol := rfl
@[simp] theorem State.setDue_chd (s : State) (n : Nat) (d : Option CmpDue) : (s.setDue n d).chd = s.chd := rfl
@[simp] theorem State.setDue_det (s : State) (n : Nat) (d : Option CmpDue) : (s.setDue n d).det = s.det := rfl
@[simp] theorem State.setDue_img (s : State) (n : Nat) (d : Option CmpDue) : (s.setDue n d).img = s.img := rfl
@[simp] theorem State.setDue_tok (s : State) (n : Nat) (d : Option CmpDue) : (s.setDue n d).tok = s.tok := rfl
@[simp] theorem State.setDue_pwr (s : State) (n : Nat) (d : Option CmpDue) : (s.setDue n d).pwr = s.pwr := rfl
@[simp] theorem State.setDue_mgt (s : State) (n : Nat) (d : Option CmpDue) : (s.setDue n d).mgt = s.mgt := rfl
@[simp] theorem State.setDue_sec (s : State) (n : Nat) (d : Option CmpDue) : (s.setDue n d).sec = s.sec := rfl
@[simp] theorem State.setDue_out (s : State) (n : Nat) (d : Option CmpDue) : (s.setDue n d).out = s.out := rfl
@[simp] theorem State.setDue_freeCtr (s : State) (n : Nat) (d : Option CmpDue) : (s.setDue n d).freeCtr = s.freeCtr := rfl
@[simp] theorem State.setDue_pending (s : State) (n : Nat) (d : Option CmpDue) : (s.setDue n d).pending = s.pending := rfl
@[simp] theorem State.setDue_reg (s : State) (n : Nat) (d : Option CmpDue) (off0 : Nat) : (s.setDue n d).reg off0 = s.reg off0 := rfl
@[simp] theorem State.setDue_fld (s : State) (n : Nat) (d : Option CmpDue) (off0 : Nat) (fd0 : Fld) : (s.setDue n d).fld off0 fd0 = s.fld off0 fd0 := rfl
@[simp] theorem State.setDue_bit (s : State) (n : Nat) (d : Option CmpDue) (off0 : Nat) (fd0 : Fld) : (s.setDue n d).bit off0 fd0 = s.bit off0 fd0 := rfl
@[simp] theorem State.setDue_rd (s : State) (n : Nat) (d : Option CmpDue) (a0 : Nat) : (s.setDue n d).rd a0 = s.rd a0 := rfl

/-! State.setEcc changes spd alone. -/

@[simp] theorem State.setEcc_regs (s : State) (w : Nat) (e : Nat) : (s.setEcc w e).regs = s.regs := rfl
@[simp] theorem State.setEcc_mem (s : State) (w : Nat) (e : Nat) : (s.setEcc w e).mem = s.mem := rfl
@[simp] theorem State.setEcc_poison (s : State) (w : Nat) (e : Nat) : (s.setEcc w e).poison = s.poison := rfl
@[simp] theorem State.setEcc_time (s : State) (w : Nat) (e : Nat) : (s.setEcc w e).time = s.time := rfl
@[simp] theorem State.setEcc_queues (s : State) (w : Nat) (e : Nat) : (s.setEcc w e).queues = s.queues := rfl
@[simp] theorem State.setEcc_sched (s : State) (w : Nat) (e : Nat) : (s.setEcc w e).sched = s.sched := rfl
@[simp] theorem State.setEcc_cores (s : State) (w : Nat) (e : Nat) : (s.setEcc w e).cores = s.cores := rfl
@[simp] theorem State.setEcc_host (s : State) (w : Nat) (e : Nat) : (s.setEcc w e).host = s.host := rfl
@[simp] theorem State.setEcc_windows (s : State) (w : Nat) (e : Nat) : (s.setEcc w e).windows = s.windows := rfl
@[simp] theorem State.setEcc_ctl (s : State) (w : Nat) (e : Nat) : (s.setEcc w e).ctl = s.ctl := rfl
@[simp] theorem State.setEcc_io (s : State) (w : Nat) (e : Nat) : (s.setEcc w e).io = s.io := rfl
@[simp] theorem State.setEcc_plumb (s : State) (w : Nat) (e : Nat) : (s.setEcc w e).plumb = s.plumb := rfl
@[simp] theorem State.setEcc_rep (s : State) (w : Nat) (e : Nat) : (s.setEcc w e).rep = s.rep := rfl
@[simp] theorem State.setEcc_recorder (s : State) (w : Nat) (e : Nat) : (s.setEcc w e).recorder = s.recorder := rfl
@[simp] theorem State.setEcc_staged (s : State) (w : Nat) (e : Nat) : (s.setEcc w e).staged = s.staged := rfl
@[simp] theorem State.setEcc_hbm (s : State) (w : Nat) (e : Nat) : (s.setEcc w e).hbm = s.hbm := rfl
@[simp] theorem State.setEcc_fab (s : State) (w : Nat) (e : Nat) : (s.setEcc w e).fab = s.fab := rfl
@[simp] theorem State.setEcc_kv (s : State) (w : Nat) (e : Nat) : (s.setEcc w e).kv = s.kv := rfl
@[simp] theorem State.setEcc_sol (s : State) (w : Nat) (e : Nat) : (s.setEcc w e).sol = s.sol := rfl
@[simp] theorem State.setEcc_chd (s : State) (w : Nat) (e : Nat) : (s.setEcc w e).chd = s.chd := rfl
@[simp] theorem State.setEcc_det (s : State) (w : Nat) (e : Nat) : (s.setEcc w e).det = s.det := rfl
@[simp] theorem State.setEcc_img (s : State) (w : Nat) (e : Nat) : (s.setEcc w e).img = s.img := rfl
@[simp] theorem State.setEcc_tok (s : State) (w : Nat) (e : Nat) : (s.setEcc w e).tok = s.tok := rfl
@[simp] theorem State.setEcc_pwr (s : State) (w : Nat) (e : Nat) : (s.setEcc w e).pwr = s.pwr := rfl
@[simp] theorem State.setEcc_mgt (s : State) (w : Nat) (e : Nat) : (s.setEcc w e).mgt = s.mgt := rfl
@[simp] theorem State.setEcc_sec (s : State) (w : Nat) (e : Nat) : (s.setEcc w e).sec = s.sec := rfl
@[simp] theorem State.setEcc_out (s : State) (w : Nat) (e : Nat) : (s.setEcc w e).out = s.out := rfl
@[simp] theorem State.setEcc_freeCtr (s : State) (w : Nat) (e : Nat) : (s.setEcc w e).freeCtr = s.freeCtr := rfl
@[simp] theorem State.setEcc_pending (s : State) (w : Nat) (e : Nat) : (s.setEcc w e).pending = s.pending := rfl
@[simp] theorem State.setEcc_reg (s : State) (w : Nat) (e : Nat) (off0 : Nat) : (s.setEcc w e).reg off0 = s.reg off0 := rfl
@[simp] theorem State.setEcc_fld (s : State) (w : Nat) (e : Nat) (off0 : Nat) (fd0 : Fld) : (s.setEcc w e).fld off0 fd0 = s.fld off0 fd0 := rfl
@[simp] theorem State.setEcc_bit (s : State) (w : Nat) (e : Nat) (off0 : Nat) (fd0 : Fld) : (s.setEcc w e).bit off0 fd0 = s.bit off0 fd0 := rfl
@[simp] theorem State.setEcc_rd (s : State) (w : Nat) (e : Nat) (a0 : Nat) : (s.setEcc w e).rd a0 = s.rd a0 := rfl

/-! State.setGrp changes ctl alone. -/

@[simp] theorem State.setGrp_regs (s : State) (g : Nat) (x : Grp) : (s.setGrp g x).regs = s.regs := rfl
@[simp] theorem State.setGrp_mem (s : State) (g : Nat) (x : Grp) : (s.setGrp g x).mem = s.mem := rfl
@[simp] theorem State.setGrp_poison (s : State) (g : Nat) (x : Grp) : (s.setGrp g x).poison = s.poison := rfl
@[simp] theorem State.setGrp_time (s : State) (g : Nat) (x : Grp) : (s.setGrp g x).time = s.time := rfl
@[simp] theorem State.setGrp_queues (s : State) (g : Nat) (x : Grp) : (s.setGrp g x).queues = s.queues := rfl
@[simp] theorem State.setGrp_sched (s : State) (g : Nat) (x : Grp) : (s.setGrp g x).sched = s.sched := rfl
@[simp] theorem State.setGrp_cores (s : State) (g : Nat) (x : Grp) : (s.setGrp g x).cores = s.cores := rfl
@[simp] theorem State.setGrp_host (s : State) (g : Nat) (x : Grp) : (s.setGrp g x).host = s.host := rfl
@[simp] theorem State.setGrp_windows (s : State) (g : Nat) (x : Grp) : (s.setGrp g x).windows = s.windows := rfl
@[simp] theorem State.setGrp_spd (s : State) (g : Nat) (x : Grp) : (s.setGrp g x).spd = s.spd := rfl
@[simp] theorem State.setGrp_io (s : State) (g : Nat) (x : Grp) : (s.setGrp g x).io = s.io := rfl
@[simp] theorem State.setGrp_plumb (s : State) (g : Nat) (x : Grp) : (s.setGrp g x).plumb = s.plumb := rfl
@[simp] theorem State.setGrp_rep (s : State) (g : Nat) (x : Grp) : (s.setGrp g x).rep = s.rep := rfl
@[simp] theorem State.setGrp_recorder (s : State) (g : Nat) (x : Grp) : (s.setGrp g x).recorder = s.recorder := rfl
@[simp] theorem State.setGrp_staged (s : State) (g : Nat) (x : Grp) : (s.setGrp g x).staged = s.staged := rfl
@[simp] theorem State.setGrp_hbm (s : State) (g : Nat) (x : Grp) : (s.setGrp g x).hbm = s.hbm := rfl
@[simp] theorem State.setGrp_fab (s : State) (g : Nat) (x : Grp) : (s.setGrp g x).fab = s.fab := rfl
@[simp] theorem State.setGrp_kv (s : State) (g : Nat) (x : Grp) : (s.setGrp g x).kv = s.kv := rfl
@[simp] theorem State.setGrp_sol (s : State) (g : Nat) (x : Grp) : (s.setGrp g x).sol = s.sol := rfl
@[simp] theorem State.setGrp_chd (s : State) (g : Nat) (x : Grp) : (s.setGrp g x).chd = s.chd := rfl
@[simp] theorem State.setGrp_det (s : State) (g : Nat) (x : Grp) : (s.setGrp g x).det = s.det := rfl
@[simp] theorem State.setGrp_img (s : State) (g : Nat) (x : Grp) : (s.setGrp g x).img = s.img := rfl
@[simp] theorem State.setGrp_tok (s : State) (g : Nat) (x : Grp) : (s.setGrp g x).tok = s.tok := rfl
@[simp] theorem State.setGrp_pwr (s : State) (g : Nat) (x : Grp) : (s.setGrp g x).pwr = s.pwr := rfl
@[simp] theorem State.setGrp_mgt (s : State) (g : Nat) (x : Grp) : (s.setGrp g x).mgt = s.mgt := rfl
@[simp] theorem State.setGrp_sec (s : State) (g : Nat) (x : Grp) : (s.setGrp g x).sec = s.sec := rfl
@[simp] theorem State.setGrp_out (s : State) (g : Nat) (x : Grp) : (s.setGrp g x).out = s.out := rfl
@[simp] theorem State.setGrp_freeCtr (s : State) (g : Nat) (x : Grp) : (s.setGrp g x).freeCtr = s.freeCtr := rfl
@[simp] theorem State.setGrp_pending (s : State) (g : Nat) (x : Grp) : (s.setGrp g x).pending = s.pending := rfl
@[simp] theorem State.setGrp_reg (s : State) (g : Nat) (x : Grp) (off0 : Nat) : (s.setGrp g x).reg off0 = s.reg off0 := rfl
@[simp] theorem State.setGrp_fld (s : State) (g : Nat) (x : Grp) (off0 : Nat) (fd0 : Fld) : (s.setGrp g x).fld off0 fd0 = s.fld off0 fd0 := rfl
@[simp] theorem State.setGrp_bit (s : State) (g : Nat) (x : Grp) (off0 : Nat) (fd0 : Fld) : (s.setGrp g x).bit off0 fd0 = s.bit off0 fd0 := rfl
@[simp] theorem State.setGrp_rd (s : State) (g : Nat) (x : Grp) (a0 : Nat) : (s.setGrp g x).rd a0 = s.rd a0 := rfl

/-! State.setIdx changes kv alone. -/

@[simp] theorem State.setIdx_regs (s : State) (i : Nat) (v : Nat) : (s.setIdx i v).regs = s.regs := rfl
@[simp] theorem State.setIdx_mem (s : State) (i : Nat) (v : Nat) : (s.setIdx i v).mem = s.mem := rfl
@[simp] theorem State.setIdx_poison (s : State) (i : Nat) (v : Nat) : (s.setIdx i v).poison = s.poison := rfl
@[simp] theorem State.setIdx_time (s : State) (i : Nat) (v : Nat) : (s.setIdx i v).time = s.time := rfl
@[simp] theorem State.setIdx_queues (s : State) (i : Nat) (v : Nat) : (s.setIdx i v).queues = s.queues := rfl
@[simp] theorem State.setIdx_sched (s : State) (i : Nat) (v : Nat) : (s.setIdx i v).sched = s.sched := rfl
@[simp] theorem State.setIdx_cores (s : State) (i : Nat) (v : Nat) : (s.setIdx i v).cores = s.cores := rfl
@[simp] theorem State.setIdx_host (s : State) (i : Nat) (v : Nat) : (s.setIdx i v).host = s.host := rfl
@[simp] theorem State.setIdx_windows (s : State) (i : Nat) (v : Nat) : (s.setIdx i v).windows = s.windows := rfl
@[simp] theorem State.setIdx_spd (s : State) (i : Nat) (v : Nat) : (s.setIdx i v).spd = s.spd := rfl
@[simp] theorem State.setIdx_ctl (s : State) (i : Nat) (v : Nat) : (s.setIdx i v).ctl = s.ctl := rfl
@[simp] theorem State.setIdx_io (s : State) (i : Nat) (v : Nat) : (s.setIdx i v).io = s.io := rfl
@[simp] theorem State.setIdx_plumb (s : State) (i : Nat) (v : Nat) : (s.setIdx i v).plumb = s.plumb := rfl
@[simp] theorem State.setIdx_rep (s : State) (i : Nat) (v : Nat) : (s.setIdx i v).rep = s.rep := rfl
@[simp] theorem State.setIdx_recorder (s : State) (i : Nat) (v : Nat) : (s.setIdx i v).recorder = s.recorder := rfl
@[simp] theorem State.setIdx_staged (s : State) (i : Nat) (v : Nat) : (s.setIdx i v).staged = s.staged := rfl
@[simp] theorem State.setIdx_hbm (s : State) (i : Nat) (v : Nat) : (s.setIdx i v).hbm = s.hbm := rfl
@[simp] theorem State.setIdx_fab (s : State) (i : Nat) (v : Nat) : (s.setIdx i v).fab = s.fab := rfl
@[simp] theorem State.setIdx_sol (s : State) (i : Nat) (v : Nat) : (s.setIdx i v).sol = s.sol := rfl
@[simp] theorem State.setIdx_chd (s : State) (i : Nat) (v : Nat) : (s.setIdx i v).chd = s.chd := rfl
@[simp] theorem State.setIdx_det (s : State) (i : Nat) (v : Nat) : (s.setIdx i v).det = s.det := rfl
@[simp] theorem State.setIdx_img (s : State) (i : Nat) (v : Nat) : (s.setIdx i v).img = s.img := rfl
@[simp] theorem State.setIdx_tok (s : State) (i : Nat) (v : Nat) : (s.setIdx i v).tok = s.tok := rfl
@[simp] theorem State.setIdx_pwr (s : State) (i : Nat) (v : Nat) : (s.setIdx i v).pwr = s.pwr := rfl
@[simp] theorem State.setIdx_mgt (s : State) (i : Nat) (v : Nat) : (s.setIdx i v).mgt = s.mgt := rfl
@[simp] theorem State.setIdx_sec (s : State) (i : Nat) (v : Nat) : (s.setIdx i v).sec = s.sec := rfl
@[simp] theorem State.setIdx_out (s : State) (i : Nat) (v : Nat) : (s.setIdx i v).out = s.out := rfl
@[simp] theorem State.setIdx_freeCtr (s : State) (i : Nat) (v : Nat) : (s.setIdx i v).freeCtr = s.freeCtr := rfl
@[simp] theorem State.setIdx_pending (s : State) (i : Nat) (v : Nat) : (s.setIdx i v).pending = s.pending := rfl
@[simp] theorem State.setIdx_reg (s : State) (i : Nat) (v : Nat) (off0 : Nat) : (s.setIdx i v).reg off0 = s.reg off0 := rfl
@[simp] theorem State.setIdx_fld (s : State) (i : Nat) (v : Nat) (off0 : Nat) (fd0 : Fld) : (s.setIdx i v).fld off0 fd0 = s.fld off0 fd0 := rfl
@[simp] theorem State.setIdx_bit (s : State) (i : Nat) (v : Nat) (off0 : Nat) (fd0 : Fld) : (s.setIdx i v).bit off0 fd0 = s.bit off0 fd0 := rfl
@[simp] theorem State.setIdx_rd (s : State) (i : Nat) (v : Nat) (a0 : Nat) : (s.setIdx i v).rd a0 = s.rd a0 := rfl

/-! State.setImgSrc changes img alone. -/

@[simp] theorem State.setImgSrc_regs (s : State) (k : Nat) (x : ImgSrc) : (s.setImgSrc k x).regs = s.regs := rfl
@[simp] theorem State.setImgSrc_mem (s : State) (k : Nat) (x : ImgSrc) : (s.setImgSrc k x).mem = s.mem := rfl
@[simp] theorem State.setImgSrc_poison (s : State) (k : Nat) (x : ImgSrc) : (s.setImgSrc k x).poison = s.poison := rfl
@[simp] theorem State.setImgSrc_time (s : State) (k : Nat) (x : ImgSrc) : (s.setImgSrc k x).time = s.time := rfl
@[simp] theorem State.setImgSrc_queues (s : State) (k : Nat) (x : ImgSrc) : (s.setImgSrc k x).queues = s.queues := rfl
@[simp] theorem State.setImgSrc_sched (s : State) (k : Nat) (x : ImgSrc) : (s.setImgSrc k x).sched = s.sched := rfl
@[simp] theorem State.setImgSrc_cores (s : State) (k : Nat) (x : ImgSrc) : (s.setImgSrc k x).cores = s.cores := rfl
@[simp] theorem State.setImgSrc_host (s : State) (k : Nat) (x : ImgSrc) : (s.setImgSrc k x).host = s.host := rfl
@[simp] theorem State.setImgSrc_windows (s : State) (k : Nat) (x : ImgSrc) : (s.setImgSrc k x).windows = s.windows := rfl
@[simp] theorem State.setImgSrc_spd (s : State) (k : Nat) (x : ImgSrc) : (s.setImgSrc k x).spd = s.spd := rfl
@[simp] theorem State.setImgSrc_ctl (s : State) (k : Nat) (x : ImgSrc) : (s.setImgSrc k x).ctl = s.ctl := rfl
@[simp] theorem State.setImgSrc_io (s : State) (k : Nat) (x : ImgSrc) : (s.setImgSrc k x).io = s.io := rfl
@[simp] theorem State.setImgSrc_plumb (s : State) (k : Nat) (x : ImgSrc) : (s.setImgSrc k x).plumb = s.plumb := rfl
@[simp] theorem State.setImgSrc_rep (s : State) (k : Nat) (x : ImgSrc) : (s.setImgSrc k x).rep = s.rep := rfl
@[simp] theorem State.setImgSrc_recorder (s : State) (k : Nat) (x : ImgSrc) : (s.setImgSrc k x).recorder = s.recorder := rfl
@[simp] theorem State.setImgSrc_staged (s : State) (k : Nat) (x : ImgSrc) : (s.setImgSrc k x).staged = s.staged := rfl
@[simp] theorem State.setImgSrc_hbm (s : State) (k : Nat) (x : ImgSrc) : (s.setImgSrc k x).hbm = s.hbm := rfl
@[simp] theorem State.setImgSrc_fab (s : State) (k : Nat) (x : ImgSrc) : (s.setImgSrc k x).fab = s.fab := rfl
@[simp] theorem State.setImgSrc_kv (s : State) (k : Nat) (x : ImgSrc) : (s.setImgSrc k x).kv = s.kv := rfl
@[simp] theorem State.setImgSrc_sol (s : State) (k : Nat) (x : ImgSrc) : (s.setImgSrc k x).sol = s.sol := rfl
@[simp] theorem State.setImgSrc_chd (s : State) (k : Nat) (x : ImgSrc) : (s.setImgSrc k x).chd = s.chd := rfl
@[simp] theorem State.setImgSrc_det (s : State) (k : Nat) (x : ImgSrc) : (s.setImgSrc k x).det = s.det := rfl
@[simp] theorem State.setImgSrc_tok (s : State) (k : Nat) (x : ImgSrc) : (s.setImgSrc k x).tok = s.tok := rfl
@[simp] theorem State.setImgSrc_pwr (s : State) (k : Nat) (x : ImgSrc) : (s.setImgSrc k x).pwr = s.pwr := rfl
@[simp] theorem State.setImgSrc_mgt (s : State) (k : Nat) (x : ImgSrc) : (s.setImgSrc k x).mgt = s.mgt := rfl
@[simp] theorem State.setImgSrc_sec (s : State) (k : Nat) (x : ImgSrc) : (s.setImgSrc k x).sec = s.sec := rfl
@[simp] theorem State.setImgSrc_out (s : State) (k : Nat) (x : ImgSrc) : (s.setImgSrc k x).out = s.out := rfl
@[simp] theorem State.setImgSrc_freeCtr (s : State) (k : Nat) (x : ImgSrc) : (s.setImgSrc k x).freeCtr = s.freeCtr := rfl
@[simp] theorem State.setImgSrc_pending (s : State) (k : Nat) (x : ImgSrc) : (s.setImgSrc k x).pending = s.pending := rfl
@[simp] theorem State.setImgSrc_reg (s : State) (k : Nat) (x : ImgSrc) (off0 : Nat) : (s.setImgSrc k x).reg off0 = s.reg off0 := rfl
@[simp] theorem State.setImgSrc_fld (s : State) (k : Nat) (x : ImgSrc) (off0 : Nat) (fd0 : Fld) : (s.setImgSrc k x).fld off0 fd0 = s.fld off0 fd0 := rfl
@[simp] theorem State.setImgSrc_bit (s : State) (k : Nat) (x : ImgSrc) (off0 : Nat) (fd0 : Fld) : (s.setImgSrc k x).bit off0 fd0 = s.bit off0 fd0 := rfl
@[simp] theorem State.setImgSrc_rd (s : State) (k : Nat) (x : ImgSrc) (a0 : Nat) : (s.setImgSrc k x).rd a0 = s.rd a0 := rfl

/-! State.setInbox changes plumb alone. -/

@[simp] theorem State.setInbox_regs (s : State) (i : Nat) (x : Inbox) : (s.setInbox i x).regs = s.regs := rfl
@[simp] theorem State.setInbox_mem (s : State) (i : Nat) (x : Inbox) : (s.setInbox i x).mem = s.mem := rfl
@[simp] theorem State.setInbox_poison (s : State) (i : Nat) (x : Inbox) : (s.setInbox i x).poison = s.poison := rfl
@[simp] theorem State.setInbox_time (s : State) (i : Nat) (x : Inbox) : (s.setInbox i x).time = s.time := rfl
@[simp] theorem State.setInbox_queues (s : State) (i : Nat) (x : Inbox) : (s.setInbox i x).queues = s.queues := rfl
@[simp] theorem State.setInbox_sched (s : State) (i : Nat) (x : Inbox) : (s.setInbox i x).sched = s.sched := rfl
@[simp] theorem State.setInbox_cores (s : State) (i : Nat) (x : Inbox) : (s.setInbox i x).cores = s.cores := rfl
@[simp] theorem State.setInbox_host (s : State) (i : Nat) (x : Inbox) : (s.setInbox i x).host = s.host := rfl
@[simp] theorem State.setInbox_windows (s : State) (i : Nat) (x : Inbox) : (s.setInbox i x).windows = s.windows := rfl
@[simp] theorem State.setInbox_spd (s : State) (i : Nat) (x : Inbox) : (s.setInbox i x).spd = s.spd := rfl
@[simp] theorem State.setInbox_ctl (s : State) (i : Nat) (x : Inbox) : (s.setInbox i x).ctl = s.ctl := rfl
@[simp] theorem State.setInbox_io (s : State) (i : Nat) (x : Inbox) : (s.setInbox i x).io = s.io := rfl
@[simp] theorem State.setInbox_rep (s : State) (i : Nat) (x : Inbox) : (s.setInbox i x).rep = s.rep := rfl
@[simp] theorem State.setInbox_recorder (s : State) (i : Nat) (x : Inbox) : (s.setInbox i x).recorder = s.recorder := rfl
@[simp] theorem State.setInbox_staged (s : State) (i : Nat) (x : Inbox) : (s.setInbox i x).staged = s.staged := rfl
@[simp] theorem State.setInbox_hbm (s : State) (i : Nat) (x : Inbox) : (s.setInbox i x).hbm = s.hbm := rfl
@[simp] theorem State.setInbox_fab (s : State) (i : Nat) (x : Inbox) : (s.setInbox i x).fab = s.fab := rfl
@[simp] theorem State.setInbox_kv (s : State) (i : Nat) (x : Inbox) : (s.setInbox i x).kv = s.kv := rfl
@[simp] theorem State.setInbox_sol (s : State) (i : Nat) (x : Inbox) : (s.setInbox i x).sol = s.sol := rfl
@[simp] theorem State.setInbox_chd (s : State) (i : Nat) (x : Inbox) : (s.setInbox i x).chd = s.chd := rfl
@[simp] theorem State.setInbox_det (s : State) (i : Nat) (x : Inbox) : (s.setInbox i x).det = s.det := rfl
@[simp] theorem State.setInbox_img (s : State) (i : Nat) (x : Inbox) : (s.setInbox i x).img = s.img := rfl
@[simp] theorem State.setInbox_tok (s : State) (i : Nat) (x : Inbox) : (s.setInbox i x).tok = s.tok := rfl
@[simp] theorem State.setInbox_pwr (s : State) (i : Nat) (x : Inbox) : (s.setInbox i x).pwr = s.pwr := rfl
@[simp] theorem State.setInbox_mgt (s : State) (i : Nat) (x : Inbox) : (s.setInbox i x).mgt = s.mgt := rfl
@[simp] theorem State.setInbox_sec (s : State) (i : Nat) (x : Inbox) : (s.setInbox i x).sec = s.sec := rfl
@[simp] theorem State.setInbox_out (s : State) (i : Nat) (x : Inbox) : (s.setInbox i x).out = s.out := rfl
@[simp] theorem State.setInbox_freeCtr (s : State) (i : Nat) (x : Inbox) : (s.setInbox i x).freeCtr = s.freeCtr := rfl
@[simp] theorem State.setInbox_pending (s : State) (i : Nat) (x : Inbox) : (s.setInbox i x).pending = s.pending := rfl
@[simp] theorem State.setInbox_reg (s : State) (i : Nat) (x : Inbox) (off0 : Nat) : (s.setInbox i x).reg off0 = s.reg off0 := rfl
@[simp] theorem State.setInbox_fld (s : State) (i : Nat) (x : Inbox) (off0 : Nat) (fd0 : Fld) : (s.setInbox i x).fld off0 fd0 = s.fld off0 fd0 := rfl
@[simp] theorem State.setInbox_bit (s : State) (i : Nat) (x : Inbox) (off0 : Nat) (fd0 : Fld) : (s.setInbox i x).bit off0 fd0 = s.bit off0 fd0 := rfl
@[simp] theorem State.setInbox_rd (s : State) (i : Nat) (x : Inbox) (a0 : Nat) : (s.setInbox i x).rd a0 = s.rd a0 := rfl

/-! State.setKvClasses changes kv alone. -/

@[simp] theorem State.setKvClasses_regs (s : State) (c : Nat) (l : List KvClass) : (s.setKvClasses c l).regs = s.regs := rfl
@[simp] theorem State.setKvClasses_mem (s : State) (c : Nat) (l : List KvClass) : (s.setKvClasses c l).mem = s.mem := rfl
@[simp] theorem State.setKvClasses_poison (s : State) (c : Nat) (l : List KvClass) : (s.setKvClasses c l).poison = s.poison := rfl
@[simp] theorem State.setKvClasses_time (s : State) (c : Nat) (l : List KvClass) : (s.setKvClasses c l).time = s.time := rfl
@[simp] theorem State.setKvClasses_queues (s : State) (c : Nat) (l : List KvClass) : (s.setKvClasses c l).queues = s.queues := rfl
@[simp] theorem State.setKvClasses_sched (s : State) (c : Nat) (l : List KvClass) : (s.setKvClasses c l).sched = s.sched := rfl
@[simp] theorem State.setKvClasses_cores (s : State) (c : Nat) (l : List KvClass) : (s.setKvClasses c l).cores = s.cores := rfl
@[simp] theorem State.setKvClasses_host (s : State) (c : Nat) (l : List KvClass) : (s.setKvClasses c l).host = s.host := rfl
@[simp] theorem State.setKvClasses_windows (s : State) (c : Nat) (l : List KvClass) : (s.setKvClasses c l).windows = s.windows := rfl
@[simp] theorem State.setKvClasses_spd (s : State) (c : Nat) (l : List KvClass) : (s.setKvClasses c l).spd = s.spd := rfl
@[simp] theorem State.setKvClasses_ctl (s : State) (c : Nat) (l : List KvClass) : (s.setKvClasses c l).ctl = s.ctl := rfl
@[simp] theorem State.setKvClasses_io (s : State) (c : Nat) (l : List KvClass) : (s.setKvClasses c l).io = s.io := rfl
@[simp] theorem State.setKvClasses_plumb (s : State) (c : Nat) (l : List KvClass) : (s.setKvClasses c l).plumb = s.plumb := rfl
@[simp] theorem State.setKvClasses_rep (s : State) (c : Nat) (l : List KvClass) : (s.setKvClasses c l).rep = s.rep := rfl
@[simp] theorem State.setKvClasses_recorder (s : State) (c : Nat) (l : List KvClass) : (s.setKvClasses c l).recorder = s.recorder := rfl
@[simp] theorem State.setKvClasses_staged (s : State) (c : Nat) (l : List KvClass) : (s.setKvClasses c l).staged = s.staged := rfl
@[simp] theorem State.setKvClasses_hbm (s : State) (c : Nat) (l : List KvClass) : (s.setKvClasses c l).hbm = s.hbm := rfl
@[simp] theorem State.setKvClasses_fab (s : State) (c : Nat) (l : List KvClass) : (s.setKvClasses c l).fab = s.fab := rfl
@[simp] theorem State.setKvClasses_sol (s : State) (c : Nat) (l : List KvClass) : (s.setKvClasses c l).sol = s.sol := rfl
@[simp] theorem State.setKvClasses_chd (s : State) (c : Nat) (l : List KvClass) : (s.setKvClasses c l).chd = s.chd := rfl
@[simp] theorem State.setKvClasses_det (s : State) (c : Nat) (l : List KvClass) : (s.setKvClasses c l).det = s.det := rfl
@[simp] theorem State.setKvClasses_img (s : State) (c : Nat) (l : List KvClass) : (s.setKvClasses c l).img = s.img := rfl
@[simp] theorem State.setKvClasses_tok (s : State) (c : Nat) (l : List KvClass) : (s.setKvClasses c l).tok = s.tok := rfl
@[simp] theorem State.setKvClasses_pwr (s : State) (c : Nat) (l : List KvClass) : (s.setKvClasses c l).pwr = s.pwr := rfl
@[simp] theorem State.setKvClasses_mgt (s : State) (c : Nat) (l : List KvClass) : (s.setKvClasses c l).mgt = s.mgt := rfl
@[simp] theorem State.setKvClasses_sec (s : State) (c : Nat) (l : List KvClass) : (s.setKvClasses c l).sec = s.sec := rfl
@[simp] theorem State.setKvClasses_out (s : State) (c : Nat) (l : List KvClass) : (s.setKvClasses c l).out = s.out := rfl
@[simp] theorem State.setKvClasses_freeCtr (s : State) (c : Nat) (l : List KvClass) : (s.setKvClasses c l).freeCtr = s.freeCtr := rfl
@[simp] theorem State.setKvClasses_pending (s : State) (c : Nat) (l : List KvClass) : (s.setKvClasses c l).pending = s.pending := rfl
@[simp] theorem State.setKvClasses_reg (s : State) (c : Nat) (l : List KvClass) (off0 : Nat) : (s.setKvClasses c l).reg off0 = s.reg off0 := rfl
@[simp] theorem State.setKvClasses_fld (s : State) (c : Nat) (l : List KvClass) (off0 : Nat) (fd0 : Fld) : (s.setKvClasses c l).fld off0 fd0 = s.fld off0 fd0 := rfl
@[simp] theorem State.setKvClasses_bit (s : State) (c : Nat) (l : List KvClass) (off0 : Nat) (fd0 : Fld) : (s.setKvClasses c l).bit off0 fd0 = s.bit off0 fd0 := rfl
@[simp] theorem State.setKvClasses_rd (s : State) (c : Nat) (l : List KvClass) (a0 : Nat) : (s.setKvClasses c l).rd a0 = s.rd a0 := rfl

/-! State.setPba changes host alone. -/

@[simp] theorem State.setPba_regs (s : State) (v : Nat) (b : Bool) : (s.setPba v b).regs = s.regs := rfl
@[simp] theorem State.setPba_mem (s : State) (v : Nat) (b : Bool) : (s.setPba v b).mem = s.mem := rfl
@[simp] theorem State.setPba_poison (s : State) (v : Nat) (b : Bool) : (s.setPba v b).poison = s.poison := rfl
@[simp] theorem State.setPba_time (s : State) (v : Nat) (b : Bool) : (s.setPba v b).time = s.time := rfl
@[simp] theorem State.setPba_queues (s : State) (v : Nat) (b : Bool) : (s.setPba v b).queues = s.queues := rfl
@[simp] theorem State.setPba_sched (s : State) (v : Nat) (b : Bool) : (s.setPba v b).sched = s.sched := rfl
@[simp] theorem State.setPba_cores (s : State) (v : Nat) (b : Bool) : (s.setPba v b).cores = s.cores := rfl
@[simp] theorem State.setPba_windows (s : State) (v : Nat) (b : Bool) : (s.setPba v b).windows = s.windows := rfl
@[simp] theorem State.setPba_spd (s : State) (v : Nat) (b : Bool) : (s.setPba v b).spd = s.spd := rfl
@[simp] theorem State.setPba_ctl (s : State) (v : Nat) (b : Bool) : (s.setPba v b).ctl = s.ctl := rfl
@[simp] theorem State.setPba_io (s : State) (v : Nat) (b : Bool) : (s.setPba v b).io = s.io := rfl
@[simp] theorem State.setPba_plumb (s : State) (v : Nat) (b : Bool) : (s.setPba v b).plumb = s.plumb := rfl
@[simp] theorem State.setPba_rep (s : State) (v : Nat) (b : Bool) : (s.setPba v b).rep = s.rep := rfl
@[simp] theorem State.setPba_recorder (s : State) (v : Nat) (b : Bool) : (s.setPba v b).recorder = s.recorder := rfl
@[simp] theorem State.setPba_staged (s : State) (v : Nat) (b : Bool) : (s.setPba v b).staged = s.staged := rfl
@[simp] theorem State.setPba_hbm (s : State) (v : Nat) (b : Bool) : (s.setPba v b).hbm = s.hbm := rfl
@[simp] theorem State.setPba_fab (s : State) (v : Nat) (b : Bool) : (s.setPba v b).fab = s.fab := rfl
@[simp] theorem State.setPba_kv (s : State) (v : Nat) (b : Bool) : (s.setPba v b).kv = s.kv := rfl
@[simp] theorem State.setPba_sol (s : State) (v : Nat) (b : Bool) : (s.setPba v b).sol = s.sol := rfl
@[simp] theorem State.setPba_chd (s : State) (v : Nat) (b : Bool) : (s.setPba v b).chd = s.chd := rfl
@[simp] theorem State.setPba_det (s : State) (v : Nat) (b : Bool) : (s.setPba v b).det = s.det := rfl
@[simp] theorem State.setPba_img (s : State) (v : Nat) (b : Bool) : (s.setPba v b).img = s.img := rfl
@[simp] theorem State.setPba_tok (s : State) (v : Nat) (b : Bool) : (s.setPba v b).tok = s.tok := rfl
@[simp] theorem State.setPba_pwr (s : State) (v : Nat) (b : Bool) : (s.setPba v b).pwr = s.pwr := rfl
@[simp] theorem State.setPba_mgt (s : State) (v : Nat) (b : Bool) : (s.setPba v b).mgt = s.mgt := rfl
@[simp] theorem State.setPba_sec (s : State) (v : Nat) (b : Bool) : (s.setPba v b).sec = s.sec := rfl
@[simp] theorem State.setPba_out (s : State) (v : Nat) (b : Bool) : (s.setPba v b).out = s.out := rfl
@[simp] theorem State.setPba_freeCtr (s : State) (v : Nat) (b : Bool) : (s.setPba v b).freeCtr = s.freeCtr := rfl
@[simp] theorem State.setPba_pending (s : State) (v : Nat) (b : Bool) : (s.setPba v b).pending = s.pending := rfl
@[simp] theorem State.setPba_reg (s : State) (v : Nat) (b : Bool) (off0 : Nat) : (s.setPba v b).reg off0 = s.reg off0 := rfl
@[simp] theorem State.setPba_fld (s : State) (v : Nat) (b : Bool) (off0 : Nat) (fd0 : Fld) : (s.setPba v b).fld off0 fd0 = s.fld off0 fd0 := rfl
@[simp] theorem State.setPba_bit (s : State) (v : Nat) (b : Bool) (off0 : Nat) (fd0 : Fld) : (s.setPba v b).bit off0 fd0 = s.bit off0 fd0 := rfl
@[simp] theorem State.setPba_rd (s : State) (v : Nat) (b : Bool) (a0 : Nat) : (s.setPba v b).rd a0 = s.rd a0 := rfl

/-! State.setPenCov changes plumb alone. -/

@[simp] theorem State.setPenCov_regs (s : State) (p : Nat) (e : Nat) (x : PenCov) : (s.setPenCov p e x).regs = s.regs := rfl
@[simp] theorem State.setPenCov_mem (s : State) (p : Nat) (e : Nat) (x : PenCov) : (s.setPenCov p e x).mem = s.mem := rfl
@[simp] theorem State.setPenCov_poison (s : State) (p : Nat) (e : Nat) (x : PenCov) : (s.setPenCov p e x).poison = s.poison := rfl
@[simp] theorem State.setPenCov_time (s : State) (p : Nat) (e : Nat) (x : PenCov) : (s.setPenCov p e x).time = s.time := rfl
@[simp] theorem State.setPenCov_queues (s : State) (p : Nat) (e : Nat) (x : PenCov) : (s.setPenCov p e x).queues = s.queues := rfl
@[simp] theorem State.setPenCov_sched (s : State) (p : Nat) (e : Nat) (x : PenCov) : (s.setPenCov p e x).sched = s.sched := rfl
@[simp] theorem State.setPenCov_cores (s : State) (p : Nat) (e : Nat) (x : PenCov) : (s.setPenCov p e x).cores = s.cores := rfl
@[simp] theorem State.setPenCov_host (s : State) (p : Nat) (e : Nat) (x : PenCov) : (s.setPenCov p e x).host = s.host := rfl
@[simp] theorem State.setPenCov_windows (s : State) (p : Nat) (e : Nat) (x : PenCov) : (s.setPenCov p e x).windows = s.windows := rfl
@[simp] theorem State.setPenCov_spd (s : State) (p : Nat) (e : Nat) (x : PenCov) : (s.setPenCov p e x).spd = s.spd := rfl
@[simp] theorem State.setPenCov_ctl (s : State) (p : Nat) (e : Nat) (x : PenCov) : (s.setPenCov p e x).ctl = s.ctl := rfl
@[simp] theorem State.setPenCov_io (s : State) (p : Nat) (e : Nat) (x : PenCov) : (s.setPenCov p e x).io = s.io := rfl
@[simp] theorem State.setPenCov_rep (s : State) (p : Nat) (e : Nat) (x : PenCov) : (s.setPenCov p e x).rep = s.rep := rfl
@[simp] theorem State.setPenCov_recorder (s : State) (p : Nat) (e : Nat) (x : PenCov) : (s.setPenCov p e x).recorder = s.recorder := rfl
@[simp] theorem State.setPenCov_staged (s : State) (p : Nat) (e : Nat) (x : PenCov) : (s.setPenCov p e x).staged = s.staged := rfl
@[simp] theorem State.setPenCov_hbm (s : State) (p : Nat) (e : Nat) (x : PenCov) : (s.setPenCov p e x).hbm = s.hbm := rfl
@[simp] theorem State.setPenCov_fab (s : State) (p : Nat) (e : Nat) (x : PenCov) : (s.setPenCov p e x).fab = s.fab := rfl
@[simp] theorem State.setPenCov_kv (s : State) (p : Nat) (e : Nat) (x : PenCov) : (s.setPenCov p e x).kv = s.kv := rfl
@[simp] theorem State.setPenCov_sol (s : State) (p : Nat) (e : Nat) (x : PenCov) : (s.setPenCov p e x).sol = s.sol := rfl
@[simp] theorem State.setPenCov_chd (s : State) (p : Nat) (e : Nat) (x : PenCov) : (s.setPenCov p e x).chd = s.chd := rfl
@[simp] theorem State.setPenCov_det (s : State) (p : Nat) (e : Nat) (x : PenCov) : (s.setPenCov p e x).det = s.det := rfl
@[simp] theorem State.setPenCov_img (s : State) (p : Nat) (e : Nat) (x : PenCov) : (s.setPenCov p e x).img = s.img := rfl
@[simp] theorem State.setPenCov_tok (s : State) (p : Nat) (e : Nat) (x : PenCov) : (s.setPenCov p e x).tok = s.tok := rfl
@[simp] theorem State.setPenCov_pwr (s : State) (p : Nat) (e : Nat) (x : PenCov) : (s.setPenCov p e x).pwr = s.pwr := rfl
@[simp] theorem State.setPenCov_mgt (s : State) (p : Nat) (e : Nat) (x : PenCov) : (s.setPenCov p e x).mgt = s.mgt := rfl
@[simp] theorem State.setPenCov_sec (s : State) (p : Nat) (e : Nat) (x : PenCov) : (s.setPenCov p e x).sec = s.sec := rfl
@[simp] theorem State.setPenCov_out (s : State) (p : Nat) (e : Nat) (x : PenCov) : (s.setPenCov p e x).out = s.out := rfl
@[simp] theorem State.setPenCov_freeCtr (s : State) (p : Nat) (e : Nat) (x : PenCov) : (s.setPenCov p e x).freeCtr = s.freeCtr := rfl
@[simp] theorem State.setPenCov_pending (s : State) (p : Nat) (e : Nat) (x : PenCov) : (s.setPenCov p e x).pending = s.pending := rfl
@[simp] theorem State.setPenCov_reg (s : State) (p : Nat) (e : Nat) (x : PenCov) (off0 : Nat) : (s.setPenCov p e x).reg off0 = s.reg off0 := rfl
@[simp] theorem State.setPenCov_fld (s : State) (p : Nat) (e : Nat) (x : PenCov) (off0 : Nat) (fd0 : Fld) : (s.setPenCov p e x).fld off0 fd0 = s.fld off0 fd0 := rfl
@[simp] theorem State.setPenCov_bit (s : State) (p : Nat) (e : Nat) (x : PenCov) (off0 : Nat) (fd0 : Fld) : (s.setPenCov p e x).bit off0 fd0 = s.bit off0 fd0 := rfl
@[simp] theorem State.setPenCov_rd (s : State) (p : Nat) (e : Nat) (x : PenCov) (a0 : Nat) : (s.setPenCov p e x).rd a0 = s.rd a0 := rfl

/-! State.setPlReg changes plumb alone. -/

@[simp] theorem State.setPlReg_regs (s : State) (f : Nat) (x : PlReg) : (s.setPlReg f x).regs = s.regs := rfl
@[simp] theorem State.setPlReg_mem (s : State) (f : Nat) (x : PlReg) : (s.setPlReg f x).mem = s.mem := rfl
@[simp] theorem State.setPlReg_poison (s : State) (f : Nat) (x : PlReg) : (s.setPlReg f x).poison = s.poison := rfl
@[simp] theorem State.setPlReg_time (s : State) (f : Nat) (x : PlReg) : (s.setPlReg f x).time = s.time := rfl
@[simp] theorem State.setPlReg_queues (s : State) (f : Nat) (x : PlReg) : (s.setPlReg f x).queues = s.queues := rfl
@[simp] theorem State.setPlReg_sched (s : State) (f : Nat) (x : PlReg) : (s.setPlReg f x).sched = s.sched := rfl
@[simp] theorem State.setPlReg_cores (s : State) (f : Nat) (x : PlReg) : (s.setPlReg f x).cores = s.cores := rfl
@[simp] theorem State.setPlReg_host (s : State) (f : Nat) (x : PlReg) : (s.setPlReg f x).host = s.host := rfl
@[simp] theorem State.setPlReg_windows (s : State) (f : Nat) (x : PlReg) : (s.setPlReg f x).windows = s.windows := rfl
@[simp] theorem State.setPlReg_spd (s : State) (f : Nat) (x : PlReg) : (s.setPlReg f x).spd = s.spd := rfl
@[simp] theorem State.setPlReg_ctl (s : State) (f : Nat) (x : PlReg) : (s.setPlReg f x).ctl = s.ctl := rfl
@[simp] theorem State.setPlReg_io (s : State) (f : Nat) (x : PlReg) : (s.setPlReg f x).io = s.io := rfl
@[simp] theorem State.setPlReg_rep (s : State) (f : Nat) (x : PlReg) : (s.setPlReg f x).rep = s.rep := rfl
@[simp] theorem State.setPlReg_recorder (s : State) (f : Nat) (x : PlReg) : (s.setPlReg f x).recorder = s.recorder := rfl
@[simp] theorem State.setPlReg_staged (s : State) (f : Nat) (x : PlReg) : (s.setPlReg f x).staged = s.staged := rfl
@[simp] theorem State.setPlReg_hbm (s : State) (f : Nat) (x : PlReg) : (s.setPlReg f x).hbm = s.hbm := rfl
@[simp] theorem State.setPlReg_fab (s : State) (f : Nat) (x : PlReg) : (s.setPlReg f x).fab = s.fab := rfl
@[simp] theorem State.setPlReg_kv (s : State) (f : Nat) (x : PlReg) : (s.setPlReg f x).kv = s.kv := rfl
@[simp] theorem State.setPlReg_sol (s : State) (f : Nat) (x : PlReg) : (s.setPlReg f x).sol = s.sol := rfl
@[simp] theorem State.setPlReg_chd (s : State) (f : Nat) (x : PlReg) : (s.setPlReg f x).chd = s.chd := rfl
@[simp] theorem State.setPlReg_det (s : State) (f : Nat) (x : PlReg) : (s.setPlReg f x).det = s.det := rfl
@[simp] theorem State.setPlReg_img (s : State) (f : Nat) (x : PlReg) : (s.setPlReg f x).img = s.img := rfl
@[simp] theorem State.setPlReg_tok (s : State) (f : Nat) (x : PlReg) : (s.setPlReg f x).tok = s.tok := rfl
@[simp] theorem State.setPlReg_pwr (s : State) (f : Nat) (x : PlReg) : (s.setPlReg f x).pwr = s.pwr := rfl
@[simp] theorem State.setPlReg_mgt (s : State) (f : Nat) (x : PlReg) : (s.setPlReg f x).mgt = s.mgt := rfl
@[simp] theorem State.setPlReg_sec (s : State) (f : Nat) (x : PlReg) : (s.setPlReg f x).sec = s.sec := rfl
@[simp] theorem State.setPlReg_out (s : State) (f : Nat) (x : PlReg) : (s.setPlReg f x).out = s.out := rfl
@[simp] theorem State.setPlReg_freeCtr (s : State) (f : Nat) (x : PlReg) : (s.setPlReg f x).freeCtr = s.freeCtr := rfl
@[simp] theorem State.setPlReg_pending (s : State) (f : Nat) (x : PlReg) : (s.setPlReg f x).pending = s.pending := rfl
@[simp] theorem State.setPlReg_reg (s : State) (f : Nat) (x : PlReg) (off0 : Nat) : (s.setPlReg f x).reg off0 = s.reg off0 := rfl
@[simp] theorem State.setPlReg_fld (s : State) (f : Nat) (x : PlReg) (off0 : Nat) (fd0 : Fld) : (s.setPlReg f x).fld off0 fd0 = s.fld off0 fd0 := rfl
@[simp] theorem State.setPlReg_bit (s : State) (f : Nat) (x : PlReg) (off0 : Nat) (fd0 : Fld) : (s.setPlReg f x).bit off0 fd0 = s.bit off0 fd0 := rfl
@[simp] theorem State.setPlReg_rd (s : State) (f : Nat) (x : PlReg) (a0 : Nat) : (s.setPlReg f x).rd a0 = s.rd a0 := rfl

/-! State.setQueue changes queues alone. -/

@[simp] theorem State.setQueue_regs (s : State) (q : Nat) (x : Queue) : (s.setQueue q x).regs = s.regs := rfl
@[simp] theorem State.setQueue_mem (s : State) (q : Nat) (x : Queue) : (s.setQueue q x).mem = s.mem := rfl
@[simp] theorem State.setQueue_poison (s : State) (q : Nat) (x : Queue) : (s.setQueue q x).poison = s.poison := rfl
@[simp] theorem State.setQueue_time (s : State) (q : Nat) (x : Queue) : (s.setQueue q x).time = s.time := rfl
@[simp] theorem State.setQueue_sched (s : State) (q : Nat) (x : Queue) : (s.setQueue q x).sched = s.sched := rfl
@[simp] theorem State.setQueue_cores (s : State) (q : Nat) (x : Queue) : (s.setQueue q x).cores = s.cores := rfl
@[simp] theorem State.setQueue_host (s : State) (q : Nat) (x : Queue) : (s.setQueue q x).host = s.host := rfl
@[simp] theorem State.setQueue_windows (s : State) (q : Nat) (x : Queue) : (s.setQueue q x).windows = s.windows := rfl
@[simp] theorem State.setQueue_spd (s : State) (q : Nat) (x : Queue) : (s.setQueue q x).spd = s.spd := rfl
@[simp] theorem State.setQueue_ctl (s : State) (q : Nat) (x : Queue) : (s.setQueue q x).ctl = s.ctl := rfl
@[simp] theorem State.setQueue_io (s : State) (q : Nat) (x : Queue) : (s.setQueue q x).io = s.io := rfl
@[simp] theorem State.setQueue_plumb (s : State) (q : Nat) (x : Queue) : (s.setQueue q x).plumb = s.plumb := rfl
@[simp] theorem State.setQueue_rep (s : State) (q : Nat) (x : Queue) : (s.setQueue q x).rep = s.rep := rfl
@[simp] theorem State.setQueue_recorder (s : State) (q : Nat) (x : Queue) : (s.setQueue q x).recorder = s.recorder := rfl
@[simp] theorem State.setQueue_staged (s : State) (q : Nat) (x : Queue) : (s.setQueue q x).staged = s.staged := rfl
@[simp] theorem State.setQueue_hbm (s : State) (q : Nat) (x : Queue) : (s.setQueue q x).hbm = s.hbm := rfl
@[simp] theorem State.setQueue_fab (s : State) (q : Nat) (x : Queue) : (s.setQueue q x).fab = s.fab := rfl
@[simp] theorem State.setQueue_kv (s : State) (q : Nat) (x : Queue) : (s.setQueue q x).kv = s.kv := rfl
@[simp] theorem State.setQueue_sol (s : State) (q : Nat) (x : Queue) : (s.setQueue q x).sol = s.sol := rfl
@[simp] theorem State.setQueue_chd (s : State) (q : Nat) (x : Queue) : (s.setQueue q x).chd = s.chd := rfl
@[simp] theorem State.setQueue_det (s : State) (q : Nat) (x : Queue) : (s.setQueue q x).det = s.det := rfl
@[simp] theorem State.setQueue_img (s : State) (q : Nat) (x : Queue) : (s.setQueue q x).img = s.img := rfl
@[simp] theorem State.setQueue_tok (s : State) (q : Nat) (x : Queue) : (s.setQueue q x).tok = s.tok := rfl
@[simp] theorem State.setQueue_pwr (s : State) (q : Nat) (x : Queue) : (s.setQueue q x).pwr = s.pwr := rfl
@[simp] theorem State.setQueue_mgt (s : State) (q : Nat) (x : Queue) : (s.setQueue q x).mgt = s.mgt := rfl
@[simp] theorem State.setQueue_sec (s : State) (q : Nat) (x : Queue) : (s.setQueue q x).sec = s.sec := rfl
@[simp] theorem State.setQueue_out (s : State) (q : Nat) (x : Queue) : (s.setQueue q x).out = s.out := rfl
@[simp] theorem State.setQueue_freeCtr (s : State) (q : Nat) (x : Queue) : (s.setQueue q x).freeCtr = s.freeCtr := rfl
@[simp] theorem State.setQueue_pending (s : State) (q : Nat) (x : Queue) : (s.setQueue q x).pending = s.pending := rfl
@[simp] theorem State.setQueue_reg (s : State) (q : Nat) (x : Queue) (off0 : Nat) : (s.setQueue q x).reg off0 = s.reg off0 := rfl
@[simp] theorem State.setQueue_fld (s : State) (q : Nat) (x : Queue) (off0 : Nat) (fd0 : Fld) : (s.setQueue q x).fld off0 fd0 = s.fld off0 fd0 := rfl
@[simp] theorem State.setQueue_bit (s : State) (q : Nat) (x : Queue) (off0 : Nat) (fd0 : Fld) : (s.setQueue q x).bit off0 fd0 = s.bit off0 fd0 := rfl
@[simp] theorem State.setQueue_rd (s : State) (q : Nat) (x : Queue) (a0 : Nat) : (s.setQueue q x).rd a0 = s.rd a0 := rfl

/-! State.setSaved changes sched alone. -/

@[simp] theorem State.setSaved_regs (s : State) (q : Nat) (x : Option Saved) : (s.setSaved q x).regs = s.regs := rfl
@[simp] theorem State.setSaved_mem (s : State) (q : Nat) (x : Option Saved) : (s.setSaved q x).mem = s.mem := rfl
@[simp] theorem State.setSaved_poison (s : State) (q : Nat) (x : Option Saved) : (s.setSaved q x).poison = s.poison := rfl
@[simp] theorem State.setSaved_time (s : State) (q : Nat) (x : Option Saved) : (s.setSaved q x).time = s.time := rfl
@[simp] theorem State.setSaved_queues (s : State) (q : Nat) (x : Option Saved) : (s.setSaved q x).queues = s.queues := rfl
@[simp] theorem State.setSaved_cores (s : State) (q : Nat) (x : Option Saved) : (s.setSaved q x).cores = s.cores := rfl
@[simp] theorem State.setSaved_host (s : State) (q : Nat) (x : Option Saved) : (s.setSaved q x).host = s.host := rfl
@[simp] theorem State.setSaved_windows (s : State) (q : Nat) (x : Option Saved) : (s.setSaved q x).windows = s.windows := rfl
@[simp] theorem State.setSaved_spd (s : State) (q : Nat) (x : Option Saved) : (s.setSaved q x).spd = s.spd := rfl
@[simp] theorem State.setSaved_ctl (s : State) (q : Nat) (x : Option Saved) : (s.setSaved q x).ctl = s.ctl := rfl
@[simp] theorem State.setSaved_io (s : State) (q : Nat) (x : Option Saved) : (s.setSaved q x).io = s.io := rfl
@[simp] theorem State.setSaved_plumb (s : State) (q : Nat) (x : Option Saved) : (s.setSaved q x).plumb = s.plumb := rfl
@[simp] theorem State.setSaved_rep (s : State) (q : Nat) (x : Option Saved) : (s.setSaved q x).rep = s.rep := rfl
@[simp] theorem State.setSaved_recorder (s : State) (q : Nat) (x : Option Saved) : (s.setSaved q x).recorder = s.recorder := rfl
@[simp] theorem State.setSaved_staged (s : State) (q : Nat) (x : Option Saved) : (s.setSaved q x).staged = s.staged := rfl
@[simp] theorem State.setSaved_hbm (s : State) (q : Nat) (x : Option Saved) : (s.setSaved q x).hbm = s.hbm := rfl
@[simp] theorem State.setSaved_fab (s : State) (q : Nat) (x : Option Saved) : (s.setSaved q x).fab = s.fab := rfl
@[simp] theorem State.setSaved_kv (s : State) (q : Nat) (x : Option Saved) : (s.setSaved q x).kv = s.kv := rfl
@[simp] theorem State.setSaved_sol (s : State) (q : Nat) (x : Option Saved) : (s.setSaved q x).sol = s.sol := rfl
@[simp] theorem State.setSaved_chd (s : State) (q : Nat) (x : Option Saved) : (s.setSaved q x).chd = s.chd := rfl
@[simp] theorem State.setSaved_det (s : State) (q : Nat) (x : Option Saved) : (s.setSaved q x).det = s.det := rfl
@[simp] theorem State.setSaved_img (s : State) (q : Nat) (x : Option Saved) : (s.setSaved q x).img = s.img := rfl
@[simp] theorem State.setSaved_tok (s : State) (q : Nat) (x : Option Saved) : (s.setSaved q x).tok = s.tok := rfl
@[simp] theorem State.setSaved_pwr (s : State) (q : Nat) (x : Option Saved) : (s.setSaved q x).pwr = s.pwr := rfl
@[simp] theorem State.setSaved_mgt (s : State) (q : Nat) (x : Option Saved) : (s.setSaved q x).mgt = s.mgt := rfl
@[simp] theorem State.setSaved_sec (s : State) (q : Nat) (x : Option Saved) : (s.setSaved q x).sec = s.sec := rfl
@[simp] theorem State.setSaved_out (s : State) (q : Nat) (x : Option Saved) : (s.setSaved q x).out = s.out := rfl
@[simp] theorem State.setSaved_freeCtr (s : State) (q : Nat) (x : Option Saved) : (s.setSaved q x).freeCtr = s.freeCtr := rfl
@[simp] theorem State.setSaved_pending (s : State) (q : Nat) (x : Option Saved) : (s.setSaved q x).pending = s.pending := rfl
@[simp] theorem State.setSaved_reg (s : State) (q : Nat) (x : Option Saved) (off0 : Nat) : (s.setSaved q x).reg off0 = s.reg off0 := rfl
@[simp] theorem State.setSaved_fld (s : State) (q : Nat) (x : Option Saved) (off0 : Nat) (fd0 : Fld) : (s.setSaved q x).fld off0 fd0 = s.fld off0 fd0 := rfl
@[simp] theorem State.setSaved_bit (s : State) (q : Nat) (x : Option Saved) (off0 : Nat) (fd0 : Fld) : (s.setSaved q x).bit off0 fd0 = s.bit off0 fd0 := rfl
@[simp] theorem State.setSaved_rd (s : State) (q : Nat) (x : Option Saved) (a0 : Nat) : (s.setSaved q x).rd a0 = s.rd a0 := rfl

/-! State.setSel changes ctl alone. -/

@[simp] theorem State.setSel_regs (s : State) (m : Nat) (x : Sel) : (s.setSel m x).regs = s.regs := rfl
@[simp] theorem State.setSel_mem (s : State) (m : Nat) (x : Sel) : (s.setSel m x).mem = s.mem := rfl
@[simp] theorem State.setSel_poison (s : State) (m : Nat) (x : Sel) : (s.setSel m x).poison = s.poison := rfl
@[simp] theorem State.setSel_time (s : State) (m : Nat) (x : Sel) : (s.setSel m x).time = s.time := rfl
@[simp] theorem State.setSel_queues (s : State) (m : Nat) (x : Sel) : (s.setSel m x).queues = s.queues := rfl
@[simp] theorem State.setSel_sched (s : State) (m : Nat) (x : Sel) : (s.setSel m x).sched = s.sched := rfl
@[simp] theorem State.setSel_cores (s : State) (m : Nat) (x : Sel) : (s.setSel m x).cores = s.cores := rfl
@[simp] theorem State.setSel_host (s : State) (m : Nat) (x : Sel) : (s.setSel m x).host = s.host := rfl
@[simp] theorem State.setSel_windows (s : State) (m : Nat) (x : Sel) : (s.setSel m x).windows = s.windows := rfl
@[simp] theorem State.setSel_spd (s : State) (m : Nat) (x : Sel) : (s.setSel m x).spd = s.spd := rfl
@[simp] theorem State.setSel_io (s : State) (m : Nat) (x : Sel) : (s.setSel m x).io = s.io := rfl
@[simp] theorem State.setSel_plumb (s : State) (m : Nat) (x : Sel) : (s.setSel m x).plumb = s.plumb := rfl
@[simp] theorem State.setSel_rep (s : State) (m : Nat) (x : Sel) : (s.setSel m x).rep = s.rep := rfl
@[simp] theorem State.setSel_recorder (s : State) (m : Nat) (x : Sel) : (s.setSel m x).recorder = s.recorder := rfl
@[simp] theorem State.setSel_staged (s : State) (m : Nat) (x : Sel) : (s.setSel m x).staged = s.staged := rfl
@[simp] theorem State.setSel_hbm (s : State) (m : Nat) (x : Sel) : (s.setSel m x).hbm = s.hbm := rfl
@[simp] theorem State.setSel_fab (s : State) (m : Nat) (x : Sel) : (s.setSel m x).fab = s.fab := rfl
@[simp] theorem State.setSel_kv (s : State) (m : Nat) (x : Sel) : (s.setSel m x).kv = s.kv := rfl
@[simp] theorem State.setSel_sol (s : State) (m : Nat) (x : Sel) : (s.setSel m x).sol = s.sol := rfl
@[simp] theorem State.setSel_chd (s : State) (m : Nat) (x : Sel) : (s.setSel m x).chd = s.chd := rfl
@[simp] theorem State.setSel_det (s : State) (m : Nat) (x : Sel) : (s.setSel m x).det = s.det := rfl
@[simp] theorem State.setSel_img (s : State) (m : Nat) (x : Sel) : (s.setSel m x).img = s.img := rfl
@[simp] theorem State.setSel_tok (s : State) (m : Nat) (x : Sel) : (s.setSel m x).tok = s.tok := rfl
@[simp] theorem State.setSel_pwr (s : State) (m : Nat) (x : Sel) : (s.setSel m x).pwr = s.pwr := rfl
@[simp] theorem State.setSel_mgt (s : State) (m : Nat) (x : Sel) : (s.setSel m x).mgt = s.mgt := rfl
@[simp] theorem State.setSel_sec (s : State) (m : Nat) (x : Sel) : (s.setSel m x).sec = s.sec := rfl
@[simp] theorem State.setSel_out (s : State) (m : Nat) (x : Sel) : (s.setSel m x).out = s.out := rfl
@[simp] theorem State.setSel_freeCtr (s : State) (m : Nat) (x : Sel) : (s.setSel m x).freeCtr = s.freeCtr := rfl
@[simp] theorem State.setSel_pending (s : State) (m : Nat) (x : Sel) : (s.setSel m x).pending = s.pending := rfl
@[simp] theorem State.setSel_reg (s : State) (m : Nat) (x : Sel) (off0 : Nat) : (s.setSel m x).reg off0 = s.reg off0 := rfl
@[simp] theorem State.setSel_fld (s : State) (m : Nat) (x : Sel) (off0 : Nat) (fd0 : Fld) : (s.setSel m x).fld off0 fd0 = s.fld off0 fd0 := rfl
@[simp] theorem State.setSel_bit (s : State) (m : Nat) (x : Sel) (off0 : Nat) (fd0 : Fld) : (s.setSel m x).bit off0 fd0 = s.bit off0 fd0 := rfl
@[simp] theorem State.setSel_rd (s : State) (m : Nat) (x : Sel) (a0 : Nat) : (s.setSel m x).rd a0 = s.rd a0 := rfl

/-! State.setSlot changes ctl alone. -/

@[simp] theorem State.setSlot_regs (s : State) (i : Nat) (x : Slot) : (s.setSlot i x).regs = s.regs := rfl
@[simp] theorem State.setSlot_mem (s : State) (i : Nat) (x : Slot) : (s.setSlot i x).mem = s.mem := rfl
@[simp] theorem State.setSlot_poison (s : State) (i : Nat) (x : Slot) : (s.setSlot i x).poison = s.poison := rfl
@[simp] theorem State.setSlot_time (s : State) (i : Nat) (x : Slot) : (s.setSlot i x).time = s.time := rfl
@[simp] theorem State.setSlot_queues (s : State) (i : Nat) (x : Slot) : (s.setSlot i x).queues = s.queues := rfl
@[simp] theorem State.setSlot_sched (s : State) (i : Nat) (x : Slot) : (s.setSlot i x).sched = s.sched := rfl
@[simp] theorem State.setSlot_cores (s : State) (i : Nat) (x : Slot) : (s.setSlot i x).cores = s.cores := rfl
@[simp] theorem State.setSlot_host (s : State) (i : Nat) (x : Slot) : (s.setSlot i x).host = s.host := rfl
@[simp] theorem State.setSlot_windows (s : State) (i : Nat) (x : Slot) : (s.setSlot i x).windows = s.windows := rfl
@[simp] theorem State.setSlot_spd (s : State) (i : Nat) (x : Slot) : (s.setSlot i x).spd = s.spd := rfl
@[simp] theorem State.setSlot_io (s : State) (i : Nat) (x : Slot) : (s.setSlot i x).io = s.io := rfl
@[simp] theorem State.setSlot_plumb (s : State) (i : Nat) (x : Slot) : (s.setSlot i x).plumb = s.plumb := rfl
@[simp] theorem State.setSlot_rep (s : State) (i : Nat) (x : Slot) : (s.setSlot i x).rep = s.rep := rfl
@[simp] theorem State.setSlot_recorder (s : State) (i : Nat) (x : Slot) : (s.setSlot i x).recorder = s.recorder := rfl
@[simp] theorem State.setSlot_staged (s : State) (i : Nat) (x : Slot) : (s.setSlot i x).staged = s.staged := rfl
@[simp] theorem State.setSlot_hbm (s : State) (i : Nat) (x : Slot) : (s.setSlot i x).hbm = s.hbm := rfl
@[simp] theorem State.setSlot_fab (s : State) (i : Nat) (x : Slot) : (s.setSlot i x).fab = s.fab := rfl
@[simp] theorem State.setSlot_kv (s : State) (i : Nat) (x : Slot) : (s.setSlot i x).kv = s.kv := rfl
@[simp] theorem State.setSlot_sol (s : State) (i : Nat) (x : Slot) : (s.setSlot i x).sol = s.sol := rfl
@[simp] theorem State.setSlot_chd (s : State) (i : Nat) (x : Slot) : (s.setSlot i x).chd = s.chd := rfl
@[simp] theorem State.setSlot_det (s : State) (i : Nat) (x : Slot) : (s.setSlot i x).det = s.det := rfl
@[simp] theorem State.setSlot_img (s : State) (i : Nat) (x : Slot) : (s.setSlot i x).img = s.img := rfl
@[simp] theorem State.setSlot_tok (s : State) (i : Nat) (x : Slot) : (s.setSlot i x).tok = s.tok := rfl
@[simp] theorem State.setSlot_pwr (s : State) (i : Nat) (x : Slot) : (s.setSlot i x).pwr = s.pwr := rfl
@[simp] theorem State.setSlot_mgt (s : State) (i : Nat) (x : Slot) : (s.setSlot i x).mgt = s.mgt := rfl
@[simp] theorem State.setSlot_sec (s : State) (i : Nat) (x : Slot) : (s.setSlot i x).sec = s.sec := rfl
@[simp] theorem State.setSlot_out (s : State) (i : Nat) (x : Slot) : (s.setSlot i x).out = s.out := rfl
@[simp] theorem State.setSlot_freeCtr (s : State) (i : Nat) (x : Slot) : (s.setSlot i x).freeCtr = s.freeCtr := rfl
@[simp] theorem State.setSlot_pending (s : State) (i : Nat) (x : Slot) : (s.setSlot i x).pending = s.pending := rfl
@[simp] theorem State.setSlot_reg (s : State) (i : Nat) (x : Slot) (off0 : Nat) : (s.setSlot i x).reg off0 = s.reg off0 := rfl
@[simp] theorem State.setSlot_fld (s : State) (i : Nat) (x : Slot) (off0 : Nat) (fd0 : Fld) : (s.setSlot i x).fld off0 fd0 = s.fld off0 fd0 := rfl
@[simp] theorem State.setSlot_bit (s : State) (i : Nat) (x : Slot) (off0 : Nat) (fd0 : Fld) : (s.setSlot i x).bit off0 fd0 = s.bit off0 fd0 := rfl
@[simp] theorem State.setSlot_rd (s : State) (i : Nat) (x : Slot) (a0 : Nat) : (s.setSlot i x).rd a0 = s.rd a0 := rfl

/-! State.setSport changes io alone. -/

@[simp] theorem State.setSport_regs (s : State) (p : Nat) (x : SPort) : (s.setSport p x).regs = s.regs := rfl
@[simp] theorem State.setSport_mem (s : State) (p : Nat) (x : SPort) : (s.setSport p x).mem = s.mem := rfl
@[simp] theorem State.setSport_poison (s : State) (p : Nat) (x : SPort) : (s.setSport p x).poison = s.poison := rfl
@[simp] theorem State.setSport_time (s : State) (p : Nat) (x : SPort) : (s.setSport p x).time = s.time := rfl
@[simp] theorem State.setSport_queues (s : State) (p : Nat) (x : SPort) : (s.setSport p x).queues = s.queues := rfl
@[simp] theorem State.setSport_sched (s : State) (p : Nat) (x : SPort) : (s.setSport p x).sched = s.sched := rfl
@[simp] theorem State.setSport_cores (s : State) (p : Nat) (x : SPort) : (s.setSport p x).cores = s.cores := rfl
@[simp] theorem State.setSport_host (s : State) (p : Nat) (x : SPort) : (s.setSport p x).host = s.host := rfl
@[simp] theorem State.setSport_windows (s : State) (p : Nat) (x : SPort) : (s.setSport p x).windows = s.windows := rfl
@[simp] theorem State.setSport_spd (s : State) (p : Nat) (x : SPort) : (s.setSport p x).spd = s.spd := rfl
@[simp] theorem State.setSport_ctl (s : State) (p : Nat) (x : SPort) : (s.setSport p x).ctl = s.ctl := rfl
@[simp] theorem State.setSport_plumb (s : State) (p : Nat) (x : SPort) : (s.setSport p x).plumb = s.plumb := rfl
@[simp] theorem State.setSport_rep (s : State) (p : Nat) (x : SPort) : (s.setSport p x).rep = s.rep := rfl
@[simp] theorem State.setSport_recorder (s : State) (p : Nat) (x : SPort) : (s.setSport p x).recorder = s.recorder := rfl
@[simp] theorem State.setSport_staged (s : State) (p : Nat) (x : SPort) : (s.setSport p x).staged = s.staged := rfl
@[simp] theorem State.setSport_hbm (s : State) (p : Nat) (x : SPort) : (s.setSport p x).hbm = s.hbm := rfl
@[simp] theorem State.setSport_fab (s : State) (p : Nat) (x : SPort) : (s.setSport p x).fab = s.fab := rfl
@[simp] theorem State.setSport_kv (s : State) (p : Nat) (x : SPort) : (s.setSport p x).kv = s.kv := rfl
@[simp] theorem State.setSport_sol (s : State) (p : Nat) (x : SPort) : (s.setSport p x).sol = s.sol := rfl
@[simp] theorem State.setSport_chd (s : State) (p : Nat) (x : SPort) : (s.setSport p x).chd = s.chd := rfl
@[simp] theorem State.setSport_det (s : State) (p : Nat) (x : SPort) : (s.setSport p x).det = s.det := rfl
@[simp] theorem State.setSport_img (s : State) (p : Nat) (x : SPort) : (s.setSport p x).img = s.img := rfl
@[simp] theorem State.setSport_tok (s : State) (p : Nat) (x : SPort) : (s.setSport p x).tok = s.tok := rfl
@[simp] theorem State.setSport_pwr (s : State) (p : Nat) (x : SPort) : (s.setSport p x).pwr = s.pwr := rfl
@[simp] theorem State.setSport_mgt (s : State) (p : Nat) (x : SPort) : (s.setSport p x).mgt = s.mgt := rfl
@[simp] theorem State.setSport_sec (s : State) (p : Nat) (x : SPort) : (s.setSport p x).sec = s.sec := rfl
@[simp] theorem State.setSport_out (s : State) (p : Nat) (x : SPort) : (s.setSport p x).out = s.out := rfl
@[simp] theorem State.setSport_freeCtr (s : State) (p : Nat) (x : SPort) : (s.setSport p x).freeCtr = s.freeCtr := rfl
@[simp] theorem State.setSport_pending (s : State) (p : Nat) (x : SPort) : (s.setSport p x).pending = s.pending := rfl
@[simp] theorem State.setSport_reg (s : State) (p : Nat) (x : SPort) (off0 : Nat) : (s.setSport p x).reg off0 = s.reg off0 := rfl
@[simp] theorem State.setSport_fld (s : State) (p : Nat) (x : SPort) (off0 : Nat) (fd0 : Fld) : (s.setSport p x).fld off0 fd0 = s.fld off0 fd0 := rfl
@[simp] theorem State.setSport_bit (s : State) (p : Nat) (x : SPort) (off0 : Nat) (fd0 : Fld) : (s.setSport p x).bit off0 fd0 = s.bit off0 fd0 := rfl
@[simp] theorem State.setSport_rd (s : State) (p : Nat) (x : SPort) (a0 : Nat) : (s.setSport p x).rd a0 = s.rd a0 := rfl

/-! State.setTokens changes sched alone. -/

@[simp] theorem State.setTokens_regs (s : State) (c : Nat) (k : Nat) (t : Int) : (s.setTokens c k t).regs = s.regs := rfl
@[simp] theorem State.setTokens_mem (s : State) (c : Nat) (k : Nat) (t : Int) : (s.setTokens c k t).mem = s.mem := rfl
@[simp] theorem State.setTokens_poison (s : State) (c : Nat) (k : Nat) (t : Int) : (s.setTokens c k t).poison = s.poison := rfl
@[simp] theorem State.setTokens_time (s : State) (c : Nat) (k : Nat) (t : Int) : (s.setTokens c k t).time = s.time := rfl
@[simp] theorem State.setTokens_queues (s : State) (c : Nat) (k : Nat) (t : Int) : (s.setTokens c k t).queues = s.queues := rfl
@[simp] theorem State.setTokens_cores (s : State) (c : Nat) (k : Nat) (t : Int) : (s.setTokens c k t).cores = s.cores := rfl
@[simp] theorem State.setTokens_host (s : State) (c : Nat) (k : Nat) (t : Int) : (s.setTokens c k t).host = s.host := rfl
@[simp] theorem State.setTokens_windows (s : State) (c : Nat) (k : Nat) (t : Int) : (s.setTokens c k t).windows = s.windows := rfl
@[simp] theorem State.setTokens_spd (s : State) (c : Nat) (k : Nat) (t : Int) : (s.setTokens c k t).spd = s.spd := rfl
@[simp] theorem State.setTokens_ctl (s : State) (c : Nat) (k : Nat) (t : Int) : (s.setTokens c k t).ctl = s.ctl := rfl
@[simp] theorem State.setTokens_io (s : State) (c : Nat) (k : Nat) (t : Int) : (s.setTokens c k t).io = s.io := rfl
@[simp] theorem State.setTokens_plumb (s : State) (c : Nat) (k : Nat) (t : Int) : (s.setTokens c k t).plumb = s.plumb := rfl
@[simp] theorem State.setTokens_rep (s : State) (c : Nat) (k : Nat) (t : Int) : (s.setTokens c k t).rep = s.rep := rfl
@[simp] theorem State.setTokens_recorder (s : State) (c : Nat) (k : Nat) (t : Int) : (s.setTokens c k t).recorder = s.recorder := rfl
@[simp] theorem State.setTokens_staged (s : State) (c : Nat) (k : Nat) (t : Int) : (s.setTokens c k t).staged = s.staged := rfl
@[simp] theorem State.setTokens_hbm (s : State) (c : Nat) (k : Nat) (t : Int) : (s.setTokens c k t).hbm = s.hbm := rfl
@[simp] theorem State.setTokens_fab (s : State) (c : Nat) (k : Nat) (t : Int) : (s.setTokens c k t).fab = s.fab := rfl
@[simp] theorem State.setTokens_kv (s : State) (c : Nat) (k : Nat) (t : Int) : (s.setTokens c k t).kv = s.kv := rfl
@[simp] theorem State.setTokens_sol (s : State) (c : Nat) (k : Nat) (t : Int) : (s.setTokens c k t).sol = s.sol := rfl
@[simp] theorem State.setTokens_chd (s : State) (c : Nat) (k : Nat) (t : Int) : (s.setTokens c k t).chd = s.chd := rfl
@[simp] theorem State.setTokens_det (s : State) (c : Nat) (k : Nat) (t : Int) : (s.setTokens c k t).det = s.det := rfl
@[simp] theorem State.setTokens_img (s : State) (c : Nat) (k : Nat) (t : Int) : (s.setTokens c k t).img = s.img := rfl
@[simp] theorem State.setTokens_tok (s : State) (c : Nat) (k : Nat) (t : Int) : (s.setTokens c k t).tok = s.tok := rfl
@[simp] theorem State.setTokens_pwr (s : State) (c : Nat) (k : Nat) (t : Int) : (s.setTokens c k t).pwr = s.pwr := rfl
@[simp] theorem State.setTokens_mgt (s : State) (c : Nat) (k : Nat) (t : Int) : (s.setTokens c k t).mgt = s.mgt := rfl
@[simp] theorem State.setTokens_sec (s : State) (c : Nat) (k : Nat) (t : Int) : (s.setTokens c k t).sec = s.sec := rfl
@[simp] theorem State.setTokens_out (s : State) (c : Nat) (k : Nat) (t : Int) : (s.setTokens c k t).out = s.out := rfl
@[simp] theorem State.setTokens_freeCtr (s : State) (c : Nat) (k : Nat) (t : Int) : (s.setTokens c k t).freeCtr = s.freeCtr := rfl
@[simp] theorem State.setTokens_pending (s : State) (c : Nat) (k : Nat) (t : Int) : (s.setTokens c k t).pending = s.pending := rfl
@[simp] theorem State.setTokens_reg (s : State) (c : Nat) (k : Nat) (t : Int) (off0 : Nat) : (s.setTokens c k t).reg off0 = s.reg off0 := rfl
@[simp] theorem State.setTokens_fld (s : State) (c : Nat) (k : Nat) (t : Int) (off0 : Nat) (fd0 : Fld) : (s.setTokens c k t).fld off0 fd0 = s.fld off0 fd0 := rfl
@[simp] theorem State.setTokens_bit (s : State) (c : Nat) (k : Nat) (t : Int) (off0 : Nat) (fd0 : Fld) : (s.setTokens c k t).bit off0 fd0 = s.bit off0 fd0 := rfl
@[simp] theorem State.setTokens_rd (s : State) (c : Nat) (k : Nat) (t : Int) (a0 : Nat) : (s.setTokens c k t).rd a0 = s.rd a0 := rfl

/-! State.setTrace changes ctl alone. -/

@[simp] theorem State.setTrace_regs (s : State) (t : Nat) (x : Trace) : (s.setTrace t x).regs = s.regs := rfl
@[simp] theorem State.setTrace_mem (s : State) (t : Nat) (x : Trace) : (s.setTrace t x).mem = s.mem := rfl
@[simp] theorem State.setTrace_poison (s : State) (t : Nat) (x : Trace) : (s.setTrace t x).poison = s.poison := rfl
@[simp] theorem State.setTrace_time (s : State) (t : Nat) (x : Trace) : (s.setTrace t x).time = s.time := rfl
@[simp] theorem State.setTrace_queues (s : State) (t : Nat) (x : Trace) : (s.setTrace t x).queues = s.queues := rfl
@[simp] theorem State.setTrace_sched (s : State) (t : Nat) (x : Trace) : (s.setTrace t x).sched = s.sched := rfl
@[simp] theorem State.setTrace_cores (s : State) (t : Nat) (x : Trace) : (s.setTrace t x).cores = s.cores := rfl
@[simp] theorem State.setTrace_host (s : State) (t : Nat) (x : Trace) : (s.setTrace t x).host = s.host := rfl
@[simp] theorem State.setTrace_windows (s : State) (t : Nat) (x : Trace) : (s.setTrace t x).windows = s.windows := rfl
@[simp] theorem State.setTrace_spd (s : State) (t : Nat) (x : Trace) : (s.setTrace t x).spd = s.spd := rfl
@[simp] theorem State.setTrace_io (s : State) (t : Nat) (x : Trace) : (s.setTrace t x).io = s.io := rfl
@[simp] theorem State.setTrace_plumb (s : State) (t : Nat) (x : Trace) : (s.setTrace t x).plumb = s.plumb := rfl
@[simp] theorem State.setTrace_rep (s : State) (t : Nat) (x : Trace) : (s.setTrace t x).rep = s.rep := rfl
@[simp] theorem State.setTrace_recorder (s : State) (t : Nat) (x : Trace) : (s.setTrace t x).recorder = s.recorder := rfl
@[simp] theorem State.setTrace_staged (s : State) (t : Nat) (x : Trace) : (s.setTrace t x).staged = s.staged := rfl
@[simp] theorem State.setTrace_hbm (s : State) (t : Nat) (x : Trace) : (s.setTrace t x).hbm = s.hbm := rfl
@[simp] theorem State.setTrace_fab (s : State) (t : Nat) (x : Trace) : (s.setTrace t x).fab = s.fab := rfl
@[simp] theorem State.setTrace_kv (s : State) (t : Nat) (x : Trace) : (s.setTrace t x).kv = s.kv := rfl
@[simp] theorem State.setTrace_sol (s : State) (t : Nat) (x : Trace) : (s.setTrace t x).sol = s.sol := rfl
@[simp] theorem State.setTrace_chd (s : State) (t : Nat) (x : Trace) : (s.setTrace t x).chd = s.chd := rfl
@[simp] theorem State.setTrace_det (s : State) (t : Nat) (x : Trace) : (s.setTrace t x).det = s.det := rfl
@[simp] theorem State.setTrace_img (s : State) (t : Nat) (x : Trace) : (s.setTrace t x).img = s.img := rfl
@[simp] theorem State.setTrace_tok (s : State) (t : Nat) (x : Trace) : (s.setTrace t x).tok = s.tok := rfl
@[simp] theorem State.setTrace_pwr (s : State) (t : Nat) (x : Trace) : (s.setTrace t x).pwr = s.pwr := rfl
@[simp] theorem State.setTrace_mgt (s : State) (t : Nat) (x : Trace) : (s.setTrace t x).mgt = s.mgt := rfl
@[simp] theorem State.setTrace_sec (s : State) (t : Nat) (x : Trace) : (s.setTrace t x).sec = s.sec := rfl
@[simp] theorem State.setTrace_out (s : State) (t : Nat) (x : Trace) : (s.setTrace t x).out = s.out := rfl
@[simp] theorem State.setTrace_freeCtr (s : State) (t : Nat) (x : Trace) : (s.setTrace t x).freeCtr = s.freeCtr := rfl
@[simp] theorem State.setTrace_pending (s : State) (t : Nat) (x : Trace) : (s.setTrace t x).pending = s.pending := rfl
@[simp] theorem State.setTrace_reg (s : State) (t : Nat) (x : Trace) (off0 : Nat) : (s.setTrace t x).reg off0 = s.reg off0 := rfl
@[simp] theorem State.setTrace_fld (s : State) (t : Nat) (x : Trace) (off0 : Nat) (fd0 : Fld) : (s.setTrace t x).fld off0 fd0 = s.fld off0 fd0 := rfl
@[simp] theorem State.setTrace_bit (s : State) (t : Nat) (x : Trace) (off0 : Nat) (fd0 : Fld) : (s.setTrace t x).bit off0 fd0 = s.bit off0 fd0 := rfl
@[simp] theorem State.setTrace_rd (s : State) (t : Nat) (x : Trace) (a0 : Nat) : (s.setTrace t x).rd a0 = s.rd a0 := rfl

/-! State.wr changes mem alone. -/

@[simp] theorem State.wr_regs (s : State) (a : Nat) (b : Byte) : (s.wr a b).regs = s.regs := rfl
@[simp] theorem State.wr_poison (s : State) (a : Nat) (b : Byte) : (s.wr a b).poison = s.poison := rfl
@[simp] theorem State.wr_time (s : State) (a : Nat) (b : Byte) : (s.wr a b).time = s.time := rfl
@[simp] theorem State.wr_queues (s : State) (a : Nat) (b : Byte) : (s.wr a b).queues = s.queues := rfl
@[simp] theorem State.wr_sched (s : State) (a : Nat) (b : Byte) : (s.wr a b).sched = s.sched := rfl
@[simp] theorem State.wr_cores (s : State) (a : Nat) (b : Byte) : (s.wr a b).cores = s.cores := rfl
@[simp] theorem State.wr_host (s : State) (a : Nat) (b : Byte) : (s.wr a b).host = s.host := rfl
@[simp] theorem State.wr_windows (s : State) (a : Nat) (b : Byte) : (s.wr a b).windows = s.windows := rfl
@[simp] theorem State.wr_spd (s : State) (a : Nat) (b : Byte) : (s.wr a b).spd = s.spd := rfl
@[simp] theorem State.wr_ctl (s : State) (a : Nat) (b : Byte) : (s.wr a b).ctl = s.ctl := rfl
@[simp] theorem State.wr_io (s : State) (a : Nat) (b : Byte) : (s.wr a b).io = s.io := rfl
@[simp] theorem State.wr_plumb (s : State) (a : Nat) (b : Byte) : (s.wr a b).plumb = s.plumb := rfl
@[simp] theorem State.wr_rep (s : State) (a : Nat) (b : Byte) : (s.wr a b).rep = s.rep := rfl
@[simp] theorem State.wr_recorder (s : State) (a : Nat) (b : Byte) : (s.wr a b).recorder = s.recorder := rfl
@[simp] theorem State.wr_staged (s : State) (a : Nat) (b : Byte) : (s.wr a b).staged = s.staged := rfl
@[simp] theorem State.wr_hbm (s : State) (a : Nat) (b : Byte) : (s.wr a b).hbm = s.hbm := rfl
@[simp] theorem State.wr_fab (s : State) (a : Nat) (b : Byte) : (s.wr a b).fab = s.fab := rfl
@[simp] theorem State.wr_kv (s : State) (a : Nat) (b : Byte) : (s.wr a b).kv = s.kv := rfl
@[simp] theorem State.wr_sol (s : State) (a : Nat) (b : Byte) : (s.wr a b).sol = s.sol := rfl
@[simp] theorem State.wr_chd (s : State) (a : Nat) (b : Byte) : (s.wr a b).chd = s.chd := rfl
@[simp] theorem State.wr_det (s : State) (a : Nat) (b : Byte) : (s.wr a b).det = s.det := rfl
@[simp] theorem State.wr_img (s : State) (a : Nat) (b : Byte) : (s.wr a b).img = s.img := rfl
@[simp] theorem State.wr_tok (s : State) (a : Nat) (b : Byte) : (s.wr a b).tok = s.tok := rfl
@[simp] theorem State.wr_pwr (s : State) (a : Nat) (b : Byte) : (s.wr a b).pwr = s.pwr := rfl
@[simp] theorem State.wr_mgt (s : State) (a : Nat) (b : Byte) : (s.wr a b).mgt = s.mgt := rfl
@[simp] theorem State.wr_sec (s : State) (a : Nat) (b : Byte) : (s.wr a b).sec = s.sec := rfl
@[simp] theorem State.wr_out (s : State) (a : Nat) (b : Byte) : (s.wr a b).out = s.out := rfl
@[simp] theorem State.wr_freeCtr (s : State) (a : Nat) (b : Byte) : (s.wr a b).freeCtr = s.freeCtr := rfl
@[simp] theorem State.wr_pending (s : State) (a : Nat) (b : Byte) : (s.wr a b).pending = s.pending := rfl
@[simp] theorem State.wr_reg (s : State) (a : Nat) (b : Byte) (off0 : Nat) : (s.wr a b).reg off0 = s.reg off0 := rfl
@[simp] theorem State.wr_fld (s : State) (a : Nat) (b : Byte) (off0 : Nat) (fd0 : Fld) : (s.wr a b).fld off0 fd0 = s.fld off0 fd0 := rfl
@[simp] theorem State.wr_bit (s : State) (a : Nat) (b : Byte) (off0 : Nat) (fd0 : Fld) : (s.wr a b).bit off0 fd0 = s.bit off0 fd0 := rfl

/-! A table read back: the entry just set, and every other one. -/

@[simp] theorem State.queue_setQueue (s : State) (k : Nat) (x : Queue) : (s.setQueue k x).queue k = x := Store.get_set_same _ _ _ _
theorem State.queue_setQueue_ne (s : State) (k j : Nat) (x : Queue) (h : j ≠ k) : (s.setQueue k x).queue j = s.queue j := Store.get_set_ne _ _ _ _ _ h
@[simp] theorem State.core_setCore (s : State) (k : Nat) (x : Core) : (s.setCore k x).core k = x := Store.get_set_same _ _ _ _
theorem State.core_setCore_ne (s : State) (k j : Nat) (x : Core) (h : j ≠ k) : (s.setCore k x).core j = s.core j := Store.get_set_ne _ _ _ _ _ h
@[simp] theorem State.slot_setSlot (s : State) (k : Nat) (x : Slot) : (s.setSlot k x).slot k = x := Store.get_set_same _ _ _ _
theorem State.slot_setSlot_ne (s : State) (k j : Nat) (x : Slot) (h : j ≠ k) : (s.setSlot k x).slot j = s.slot j := Store.get_set_ne _ _ _ _ _ h
@[simp] theorem State.grp_setGrp (s : State) (k : Nat) (x : Grp) : (s.setGrp k x).grp k = x := Store.get_set_same _ _ _ _
theorem State.grp_setGrp_ne (s : State) (k j : Nat) (x : Grp) (h : j ≠ k) : (s.setGrp k x).grp j = s.grp j := Store.get_set_ne _ _ _ _ _ h
@[simp] theorem State.sel_setSel (s : State) (k : Nat) (x : Sel) : (s.setSel k x).sel k = x := Store.get_set_same _ _ _ _
theorem State.sel_setSel_ne (s : State) (k j : Nat) (x : Sel) (h : j ≠ k) : (s.setSel k x).sel j = s.sel j := Store.get_set_ne _ _ _ _ _ h
@[simp] theorem State.act_setAct (s : State) (k : Nat) (x : Act) : (s.setAct k x).act k = x := Store.get_set_same _ _ _ _
theorem State.act_setAct_ne (s : State) (k j : Nat) (x : Act) (h : j ≠ k) : (s.setAct k x).act j = s.act j := Store.get_set_ne _ _ _ _ _ h
@[simp] theorem State.can_setCan (s : State) (k : Nat) (x : CanSt) : (s.setCan k x).can k = x := Store.get_set_same _ _ _ _
theorem State.can_setCan_ne (s : State) (k j : Nat) (x : CanSt) (h : j ≠ k) : (s.setCan k x).can j = s.can j := Store.get_set_ne _ _ _ _ _ h
@[simp] theorem State.sport_setSport (s : State) (k : Nat) (x : SPort) : (s.setSport k x).sport k = x := Store.get_set_same _ _ _ _
theorem State.sport_setSport_ne (s : State) (k j : Nat) (x : SPort) (h : j ≠ k) : (s.setSport k x).sport j = s.sport j := Store.get_set_ne _ _ _ _ _ h
@[simp] theorem State.trace_setTrace (s : State) (k : Nat) (x : Trace) : (s.setTrace k x).trace k = x := Store.get_set_same _ _ _ _
theorem State.trace_setTrace_ne (s : State) (k j : Nat) (x : Trace) (h : j ≠ k) : (s.setTrace k x).trace j = s.trace j := Store.get_set_ne _ _ _ _ _ h
@[simp] theorem State.imgSrc_setImgSrc (s : State) (k : Nat) (x : ImgSrc) : (s.setImgSrc k x).imgSrc k = x := Store.get_set_same _ _ _ _
theorem State.imgSrc_setImgSrc_ne (s : State) (k j : Nat) (x : ImgSrc) (h : j ≠ k) : (s.setImgSrc k x).imgSrc j = s.imgSrc j := Store.get_set_ne _ _ _ _ _ h
@[simp] theorem State.camPort_setCamPort (s : State) (k : Nat) (x : CamPort) : (s.setCamPort k x).camPort k = x := Store.get_set_same _ _ _ _
theorem State.camPort_setCamPort_ne (s : State) (k j : Nat) (x : CamPort) (h : j ≠ k) : (s.setCamPort k x).camPort j = s.camPort j := Store.get_set_ne _ _ _ _ _ h
@[simp] theorem State.chdPort_setChdPort (s : State) (k : Nat) (x : ChdPort) : (s.setChdPort k x).chdPort k = x := Store.get_set_same _ _ _ _
theorem State.chdPort_setChdPort_ne (s : State) (k j : Nat) (x : ChdPort) (h : j ≠ k) : (s.setChdPort k x).chdPort j = s.chdPort j := Store.get_set_ne _ _ _ _ _ h

end Sys2Proof.Machine
end

