-- ==== Sys2Proof/Laws/Access.lean ====
section
/-! SUPPORT. What a guarded access does when it is served, and what it can do at all; the frames of the register updates. -/

namespace Sys2Proof.Machine

theorem State.guardW_takes (s : State) (r : Req) (off : Nat) (f : State → State) (h : s.takesWrite r off = true) : s.guardW r off f = f s := by
  simp only [State.takesWrite, Bool.and_eq_true] at h
  simp [State.guardW, h.1.1, h.1.2, h.2]

theorem State.guardR_takes (s : State) (r : Req) (off : Nat) (h : Half) (f : State → State) (ht : s.takesRead r off = true) :
    s.guardR r off h f = f s := by
  simp only [State.takesRead, Bool.and_eq_true, Bool.not_eq_true'] at ht
  obtain ⟨⟨⟨h1, h2⟩, h3⟩, h4⟩ := ht
  simp [State.guardR, h1, h2, h3, h4]

theorem SameRegs.refl (l : List Nat) (s : State) : SameRegs l s s := fun _ _ => rfl

theorem SameRegs.trans {l : List Nat} {s t u : State} (h1 : SameRegs l s t) (h2 : SameRegs l t u) : SameRegs l s u :=
  fun off h => (h2 off h).trans (h1 off h)

theorem SameRegs.setReg {l : List Nat} {s t : State} (off : Nat) (v : Word) (h : SameRegs l s t) (hm : off ∈ l) : SameRegs l s (t.setReg off v) := by
  intro o ho
  have hne : o ≠ off := fun e => ho (by rw [e]; exact hm)
  rw [State.reg_setReg_ne t off o v hne]
  exact h o ho

theorem SameRegs.setFld {l : List Nat} {s t : State} (off : Nat) (f : Fld) (x : Nat) (h : SameRegs l s t) (hm : off ∈ l) : SameRegs l s (t.setFld off f x) :=
  h.setReg off _ hm

theorem SameRegs.satAdd {l : List Nat} {s t : State} (off : Nat) (f : Fld) (x : Nat) (h : SameRegs l s t) (hm : off ∈ l) : SameRegs l s (t.satAdd off f x) :=
  h.setReg off _ hm

theorem SameRegs.wrapAdd {l : List Nat} {s t : State} (off : Nat) (f : Fld) (x : Nat) (h : SameRegs l s t) (hm : off ∈ l) : SameRegs l s (t.wrapAdd off f x) :=
  h.setReg off _ hm

theorem SameRegs.setBit {l : List Nat} {s t : State} (off : Nat) (f : Fld) (b : Bool) (h : SameRegs l s t) (hm : off ∈ l) : SameRegs l s (t.setBit off f b) :=
  h.setReg off _ hm

theorem RegsOnly.of {l : List Nat} {s t : State} (h1 : { t with regs := s.regs } = s) (h2 : SameRegs l s t) : RegsOnly l s t := ⟨h1, h2⟩

theorem RegsOnly.mem {l : List Nat} {s t : State} (h : RegsOnly l s t) : SameMem s t := by
  intro a
  have := h.1
  rw [← this]
  rfl

/-- Raising a vector touches no register and no memory. -/
theorem State.sendVec_frame (s : State) (v : Nat) : (s.sendVec v).regs = s.regs ∧ (s.sendVec v).mem = s.mem := by
  unfold State.sendVec
  split
  · exact ⟨rfl, rfl⟩
  · split <;> exact ⟨rfl, rfl⟩

theorem State.raiseVec_frame (s : State) (v : Nat) : (s.raiseVec v).regs = s.regs ∧ (s.raiseVec v).mem = s.mem := by
  unfold State.raiseVec
  split
  · exact ⟨rfl, rfl⟩
  · split
    · exact ⟨rfl, rfl⟩
    · exact s.sendVec_frame v

theorem State.irqEdge_frame (s : State) (i : Nat) (b : Bool) : (s.irqEdge i b).regs = s.regs ∧ (s.irqEdge i b).mem = s.mem := by
  unfold State.irqEdge
  split
  · exact s.raiseVec_frame _
  · exact ⟨rfl, rfl⟩

@[simp] theorem State.irqEdge_reg (s : State) (i : Nat) (b : Bool) (o : Nat) : (s.irqEdge i b).reg o = s.reg o := by
  unfold State.reg; rw [(s.irqEdge_frame i b).1]

@[simp] theorem State.irqEdge_rd (s : State) (i : Nat) (b : Bool) (a : Nat) : (s.irqEdge i b).rd a = s.rd a := by
  unfold State.rd; rw [(s.irqEdge_frame i b).2]

/-- An effect that may set a cause changes registers and memory as the effect alone does. -/
@[simp] theorem State.withCause_reg (s : State) (i : Nat) (f : State → State) (o : Nat) : (s.withCause i f).reg o = (f s).reg o :=
  State.irqEdge_reg _ _ _ _

@[simp] theorem State.withCause_rd (s : State) (i : Nat) (f : State → State) (a : Nat) : (s.withCause i f).rd a = (f s).rd a :=
  State.irqEdge_rd _ _ _ _

end Sys2Proof.Machine
end

