-- ==== Sys2Proof/Laws/Memory.lean ====
section
/-! SUPPORT. The laws of memory: every operation over it keeps the canonical form, and what reads and writes as a unit report and change. -/

namespace Sys2Proof.Machine

/-! ### The canonical form -/

theorem State.wr_wf (s : State) (a : Nat) (b : Byte) (h : Memory.wf s.mem = true) : Memory.wf (s.wr a b).mem = true :=
  Store.wf_set _ _ _ _ h

theorem State.wrBytes_wf (l : List Byte) : ∀ (s : State) (a : Nat), Memory.wf s.mem = true → Memory.wf (s.wrBytes a l).mem = true := by
  induction l with
  | nil => intro s a h; exact h
  | cons b r ih => intro s a h; exact ih _ _ (s.wr_wf a b h)

theorem State.wrN_wf (s : State) (a n x : Nat) (h : Memory.wf s.mem = true) : Memory.wf (s.wrN a n x).mem = true :=
  State.wrBytes_wf _ s a h

theorem State.putByte_mem (s : State) (k : Nat) (b : Byte) : (s.putByte k b).mem = (s.wr k b).mem := by
  unfold State.putByte
  simp only
  split <;> rfl

theorem State.writeByte_mem (s : State) (g : Agent) (a : Nat) (b : Byte) :
    (s.writeByte g a b).state.mem = match s.hit g true a with
      | .ok k => (s.wr k b).mem
      | _ => s.mem := by
  unfold State.writeByte
  cases s.hit g true a <;> simp [State.putByte_mem]

theorem State.writeByte_wf (s : State) (g : Agent) (a : Nat) (b : Byte) (h : Memory.wf s.mem = true) :
    Memory.wf (s.writeByte g a b).state.mem = true := by
  rw [State.writeByte_mem]
  split
  · exact s.wr_wf _ b h
  · exact h

theorem State.writeBytes_wf (g : Agent) (l : List Byte) : ∀ (s : State) (a : Nat), Memory.wf s.mem = true →
    Memory.wf (s.writeBytes g a l).state.mem = true := by
  induction l with
  | nil => intro s a h; exact h
  | cons b r ih => intro s a h; exact ih _ _ (s.writeByte_wf g a b h)

theorem State.writeMem_wf (s : State) (g : Agent) (a : Nat) (l : List Byte) (h : Memory.wf s.mem = true) :
    Memory.wf (s.writeMem g a l).state.mem = true := by
  unfold State.writeMem
  simp only
  split
  · exact State.writeBytes_wf g l s a h
  · exact State.writeBytes_wf g l s a h

theorem State.writeRuns_wf (g : Agent) (bits : Nat) (l : List Run) : ∀ (s : State) (c : List Nat), Memory.wf s.mem = true →
    Memory.wf (s.writeRuns g bits l c).state.mem = true := by
  induction l with
  | nil => intro s c h; exact h
  | cons r rest ih => intro s c h; exact ih _ _ (s.writeMem_wf g r.addr _ h)

/-! ### Reads as a unit -/

theorem State.readMem_length (s : State) (g : Agent) (n : Nat) : ∀ a, (s.readMem g a n).bytes.length = n := by
  induction n with
  | zero => intro a; rfl
  | succ n ih =>
    intro a
    have h : (s.readByte g a).bytes.length = 1 := by
      unfold State.readByte; cases s.hit g false a <;> rfl
    simp [State.readMem, MemRead.append, ih, h, Nat.add_comm]

/-- Where nothing is poisoned and no scratchpad word has an error, no read is bad. -/
theorem State.readMem_clean (s : State) (g : Agent) (hp : s.poison = []) (he : s.spd.ecc = []) (n : Nat) :
    ∀ a, (s.readMem g a n).bad = false := by
  have hb : ∀ k, s.badByte k = false := by
    intro k; simp [State.badByte, State.poisoned, State.wordErr, hp, he, Store.get]
  have h1 : ∀ a, (s.readByte g a).bad = false := by
    intro a; unfold State.readByte; cases s.hit g false a <;> simp [hb]
  induction n with
  | zero => intro a; rfl
  | succ n ih => intro a; simp [State.readMem, MemRead.append, ih, h1]

theorem State.readRuns_clean (s : State) (g : Agent) (bits : Nat) (hp : s.poison = []) (he : s.spd.ecc = []) (l : List Run) :
    (s.readRuns g bits l).bad = false := by
  induction l with
  | nil => rfl
  | cons r rest ih => simp [State.readRuns, ih, s.readMem_clean g hp he]

theorem State.readOperand_clean (s : State) (n : Nat) (d : Desc) (rows : Nat) (hp : s.poison = []) (he : s.spd.ecc = []) :
    (s.readOperand n d rows).1.bad = false := by
  unfold State.readOperand
  cases d.format with
  | none => rfl
  | some f => exact s.readRuns_clean _ _ hp he _

/-- Where nothing is poisoned and no scratchpad word has an error, a read reports nothing on memory. -/
theorem State.noteRead_clean (s : State) (g : Agent) (a n : Nat) (hp : s.poison = []) (he : s.spd.ecc = []) : s.noteRead g a n = s := by
  unfold State.noteRead
  rw [if_pos ⟨he, hp⟩]

/-- On a core that runs no command, a clean read of an operand changes nothing. -/
theorem State.readOperand_quiet (s : State) (n : Nat) (d : Desc) (rows : Nat) (hp : s.poison = []) (he : s.spd.ecc = [])
    (hr : (s.core n).running = none) : (s.readOperand n d rows).2 = s := by
  have hn : ∀ (g : Agent) (l : List Run), s.noteRuns g l = s := by
    intro g l
    unfold State.noteRuns
    induction l with
    | nil => rfl
    | cons r rest ih => simp only [List.foldl_cons, s.noteRead_clean g _ _ hp he]; exact ih
  unfold State.readOperand
  cases d.format with
  | none => rfl
  | some f => simp [hn, State.coreFlags, hr]

/-- Where every byte of a span is the core's own and in no handover, the span passes. -/
theorem State.ownSpan_ok (s : State) (core : Nat) (n : Nat) : ∀ a, (∀ i, i < n → s.ownHit core (a + i) = .ok (a + i)) →
    s.ownSpan core a n = (none, false) := by
  induction n with
  | zero => intro a _; rfl
  | succ n ih =>
    intro a h
    have h0 := h 0 (by omega)
    simp only [Nat.add_zero] at h0
    have hr := ih (a + 1) (fun i hi => by have := h (i + 1) (by omega); rwa [show a + 1 + i = a + (i + 1) by omega])
    simp [State.ownSpan, h0, hr]

theorem State.ownRuns_ok (s : State) (core : Nat) (l : List Run)
    (h : ∀ r ∈ l, ∀ i, i < r.bytes → s.ownHit core (r.addr + i) = .ok (r.addr + i)) : s.ownRuns core l = (none, false) := by
  induction l with
  | nil => rfl
  | cons r rest ih =>
    have h1 := s.ownSpan_ok core r.bytes r.addr (h r (by simp))
    simp [State.ownRuns, h1, ih (fun x hx => h x (by simp [hx]))]

/-- A byte at offset o of core n's scratchpad, in bank B, which stands alone and belongs to the core, is the core's own. -/
theorem State.ownHit_lone (s : State) (n a o B : Nat) (h1 : 0x100000000000 ≤ a) (h2 : a < 0x100040000000)
    (hn : (a - 0x100000000000) / 0x4000000 = n) (hm : (a - 0x100000000000) % 0x4000000 = o) (ho : o < 0x2000000)
    (hB : n * 64 + o / 0x80000 = B) (hact : s.coreActive n = true) (has : s.bit (R.SPD_BANK_CFG B) F.SPD_BANK_CFG_ASSIGNED = false)
    (how : s.fld (R.SPD_BANK_OWNER B) F.SPD_BANK_OWNER_OWNER = n)
    (hpe : s.bit (R.SPD_BANK_OWNER B) F.SPD_BANK_OWNER_PENDING = false) (hlt : B / 64 = n ∧ B < 1024) :
    s.ownHit n a = .ok a := by
  have hpl : s.place a = .spd B (o % 0x80000) := by
    unfold State.place State.localPlace
    rw [if_pos (by omega), if_neg (by omega), if_pos (by omega)]
    simp only [hn, hm, hact, ho, hB, and_self, if_true]
  have hb : ∀ O, (s.bankByte B O).1 = B := by
    intro O
    unfold State.bankByte unitPlace State.region State.diagonal
    simp [has, Nat.mod_one]
  unfold State.ownHit
  simp only [hpl, hb, how, hpe, hlt, and_self, if_true, Bool.false_eq_true, if_false]

/-- An operand of a legal format and a dense layout whose runs pass is the engine's to use. -/
theorem State.checkOperand_go (s : State) (core : Nat) (d : Desc) (ok : Fmt → Bool) (rows : Nat) (f : Fmt) (hf : d.format = some f) (hok : ok f = true)
    (hl : layoutTakes d.layout f = true) (h3 : d.layout ≠ 3) (ho : s.ownRuns core (d.runsFor f.bits rows) = (none, false)) :
    s.checkOperand core d ok rows = .go := by
  simp only [State.checkOperand, hf, hok, hl, ho, h3, Bool.not_true, Bool.or_self, Bool.false_eq_true, if_false, false_and]

end Sys2Proof.Machine
end

