-- ==== Sys2Proof/Laws/Keeps.lean ====
section
/-! SUPPORT. What every named operation on the state keeps: the operations that commands are built from, one after another, over lists, and behind the access checks. -/

namespace Sys2Proof.Machine

theorem Keeps.refl (s : State) : Keeps s s := ⟨id, rfl, List.prefix_refl _, Nat.le_refl _, rfl⟩

theorem Keeps.trans {s t u : State} (h : Keeps s t) (k : Keeps t u) : Keeps s u :=
  ⟨fun w => k.wf (h.wf w), k.pending.trans h.pending, h.out.trans k.out, Nat.le_trans h.free k.free, k.failed.trans h.failed⟩

/-- A state in order, part by part. -/
theorem State.wf_iff (s : State) : s.wf = true ↔
    Registers.wf s.regs = true ∧ Memory.wf s.mem = true ∧ Store.wf (fun _ => 0) s.spd.ecc = true ∧ s.time.ns < 1000000000 := by
  simp [State.wf, and_assoc]

/-- An update that leaves alone what Keeps speaks of keeps it. -/
theorem Keeps.same {s t : State} (hr : t.regs = s.regs) (hm : t.mem = s.mem) (he : t.spd.ecc = s.spd.ecc) (hn : t.time.ns = s.time.ns)
    (hp : t.pending = s.pending) (ho : t.out = s.out) (hf : t.freeCtr = s.freeCtr) (hx : t.rep.failed = s.rep.failed) : Keeps s t := by
  refine ⟨fun w => ?_, hp, by rw [ho], by rw [hf], hx⟩
  rw [State.wf_iff] at w ⊢
  rw [hr, hm, he, hn]
  exact w

theorem Keeps.setReg (s : State) (off : Nat) (v : Word) : Keeps s (s.setReg off v) := by
  refine ⟨fun w => ?_, rfl, List.prefix_refl _, Nat.le_refl _, rfl⟩
  rw [State.wf_iff] at w ⊢
  exact ⟨Store.wf_set _ _ _ _ w.1, w.2⟩

theorem Keeps.setFld (s : State) (off : Nat) (f : Fld) (x : Nat) : Keeps s (s.setFld off f x) := Keeps.setReg s off _
theorem Keeps.setBit (s : State) (off : Nat) (f : Fld) (b : Bool) : Keeps s (s.setBit off f b) := Keeps.setFld s off f _
theorem Keeps.satAdd (s : State) (off : Nat) (f : Fld) (n : Nat) : Keeps s (s.satAdd off f n) := Keeps.setFld s off f _
theorem Keeps.wrapAdd (s : State) (off : Nat) (f : Fld) (n : Nat) : Keeps s (s.wrapAdd off f n) := Keeps.setFld s off f _

theorem Keeps.wr (s : State) (a : Nat) (b : Byte) : Keeps s (s.wr a b) := by
  refine ⟨fun w => ?_, rfl, List.prefix_refl _, Nat.le_refl _, rfl⟩
  rw [State.wf_iff] at w ⊢
  exact ⟨w.1, Store.wf_set _ _ _ _ w.2.1, w.2.2⟩

theorem Keeps.wrBytes (l : List Byte) : ∀ (s : State) (a : Nat), Keeps s (s.wrBytes a l) := by
  induction l with
  | nil => exact fun s _ => Keeps.refl s
  | cons b r ih => exact fun s a => (Keeps.wr s a b).trans (ih _ _)

theorem Keeps.wrN (s : State) (a n x : Nat) : Keeps s (s.wrN a n x) := Keeps.wrBytes _ s a

theorem Keeps.emit (s : State) (o : Output) : Keeps s (s.emit o) := by
  refine ⟨fun w => ?_, rfl, List.prefix_append _ _, Nat.le_refl _, rfl⟩
  rw [State.wf_iff] at w ⊢
  exact w

theorem Keeps.free' (s : State) : Keeps s s.free.2 := by
  refine ⟨fun w => ?_, rfl, List.prefix_refl _, Nat.le_succ _, rfl⟩
  rw [State.wf_iff] at w ⊢
  exact w

/-- A choice between two updates keeps what both keep. -/
theorem Keeps.ite {s t u : State} (p : Prop) [Decidable p] (h : p → Keeps s t) (k : ¬ p → Keeps s u) : Keeps s (if p then t else u) := by
  split
  · exact h ‹_›
  · exact k ‹_›

/-- An update over a list keeps what each of its steps keeps. -/
theorem Keeps.foldl {α : Type} (f : State → α → State) (h : ∀ (s : State) (x : α), Keeps s (f s x)) (l : List α) : ∀ s, Keeps s (l.foldl f s) := by
  induction l with
  | nil => exact fun s => Keeps.refl s
  | cons x r ih => exact fun s => (h s x).trans (ih _)

theorem Keeps.setPba (s : State) (v : Nat) (b : Bool) : Keeps s (s.setPba v b) := Keeps.same rfl rfl rfl rfl rfl rfl rfl rfl

theorem Keeps.sendVec (s : State) (v : Nat) : Keeps s (s.sendVec v) := by
  unfold State.sendVec
  split
  · exact Keeps.emit _ _
  · split
    · exact Keeps.refl s
    · exact Keeps.same rfl rfl rfl rfl rfl rfl rfl rfl

theorem Keeps.raiseVec (s : State) (v : Nat) : Keeps s (s.raiseVec v) := by
  unfold State.raiseVec
  split
  · exact Keeps.refl s
  · split
    · exact Keeps.setPba _ _ _
    · exact Keeps.sendVec _ _

theorem Keeps.irqEdge (s : State) (i : Nat) (b : Bool) : Keeps s (s.irqEdge i b) := by
  unfold State.irqEdge
  split
  · exact Keeps.raiseVec _ _
  · exact Keeps.refl s

theorem Keeps.withCause (s : State) (i : Nat) (f : State → State) (h : Keeps s (f s)) : Keeps s (s.withCause i f) := h.trans (Keeps.irqEdge _ _ _)

theorem Keeps.event (s : State) (kind source : Nat) (d0 d1 : Word) : Keeps s (s.event kind source d0 d1) := by
  unfold State.event
  refine Keeps.trans ?_ (Keeps.withCause _ _ _ (Keeps.setFld _ _ _ _))
  refine Keeps.trans ?_ (Keeps.wrapAdd _ _ _ _)
  refine Keeps.trans ?_ (Keeps.setReg _ _ _)
  refine Keeps.trans ?_ (Keeps.setReg _ _ _)
  refine Keeps.trans ?_ (Keeps.setReg _ _ _)
  exact Keeps.setReg _ _ _

theorem Keeps.answer (s : State) (r : Req) (off : Nat) (h : Half) (v : Word) : Keeps s (s.answer r off h v) := Keeps.emit _ _

theorem Keeps.partialWrite (s : State) (r : Req) : Keeps s (s.partialWrite r) := Keeps.ite _ (fun _ => Keeps.setFld _ _ _ _) (fun _ => Keeps.refl s)

theorem Keeps.writeFields (s : State) (off : Nat) (h : Half) (v : Word) : Keeps s (s.writeFields off h v) := by
  unfold State.writeFields
  split
  · exact Keeps.refl s
  · exact Keeps.setReg _ _ _

theorem Keeps.clearRC (s : State) (off : Nat) (h : Half) : Keeps s (s.clearRC off h) := by
  unfold State.clearRC
  split
  · exact Keeps.refl s
  · exact Keeps.ite _ (fun _ => Keeps.refl s) (fun _ => Keeps.setReg _ _ _)

end Sys2Proof.Machine
end

