-- ==== Sys2Proof/Laws/PerInstr.lean ====
section
/-! SUPPORT. Facts of each command as syntax, one lemma per constructor. OnTable: the operation table gives no row a word, so no word spells the command. -/

namespace Sys2Proof.Laws.OnTable

/-- No word of any length spells the command: the table gives no row any bits. -/
def Statement (i : Instr) : Prop := ∀ nbits w : Nat, decodeTableWord nbits w ≠ some i

/-- Whatever the word, the answer is none. -/
theorem never (i : Instr) : Statement i := fun _ _ h => nomatch h

theorem genericRegisterWrite (r : Req) (off : BitVec 26) (h : Half) (v : Word) : Statement (.genericRegisterWrite r off h v) := never _
theorem bar0BadAccess (write : Bool) : Statement (.bar0BadAccess write) := never _
theorem stepRateWindow (rate : BitVec 16) : Statement (.stepRateWindow rate) := never _
theorem stepRateRead (r : Req) (h : Half) : Statement (.stepRateRead r h) := never _
theorem deadlineExpiry (q : BitVec 16) : Statement (.deadlineExpiry q) := never _
theorem stepBudgetExhausted (q : BitVec 16) : Statement (.stepBudgetExhausted q) := never _
theorem suspendedDeadlinePass (q : BitVec 16) : Statement (.suspendedDeadlinePass q) := never _
theorem fabStage (r : Req) (tag : BitVec 16) : Statement (.fabStage r tag) := never _
theorem fabStageDone : Statement (.fabStageDone) := never _
theorem fabCommit (r : Req) (tag : BitVec 16) : Statement (.fabCommit r tag) := never _
theorem fabDiscard (r : Req) (tag : BitVec 16) : Statement (.fabDiscard r tag) := never _
theorem commitUnitDrainTimeout : Statement (.commitUnitDrainTimeout) := never _
theorem commitDrainDone : Statement (.commitDrainDone) := never _
theorem commitSaveDone : Statement (.commitSaveDone) := never _
theorem commitVerifyDone : Statement (.commitVerifyDone) := never _
theorem commitRebindDone : Statement (.commitRebindDone) := never _
theorem commitResumeDone : Statement (.commitResumeDone) := never _
theorem timeTick : Statement (.timeTick) := never _
theorem timeNowRead (r : Req) (h : Half) : Statement (.timeNowRead r h) := never _
theorem timeStepWrite (r : Req) (h : Half) (v : Word) : Statement (.timeStepWrite r h v) := never _
theorem timeRateWrite (r : Req) (h : Half) (v : Word) : Statement (.timeRateWrite r h v) := never _
theorem timeCtlNewSession (r : Req) : Statement (.timeCtlNewSession r) := never _
theorem timeCtlDeclareValid (r : Req) : Statement (.timeCtlDeclareValid r) := never _
theorem timeCtlEndHoldover (r : Req) : Statement (.timeCtlEndHoldover r) := never _
theorem timeCtlSwitchAlt (r : Req) : Statement (.timeCtlSwitchAlt r) := never _
theorem timeAltCtlWrite (r : Req) (h : Half) (v : Word) : Statement (.timeAltCtlWrite r h v) := never _
theorem timeAltRateWrite (r : Req) (h : Half) (v : Word) : Statement (.timeAltRateWrite r h v) := never _
theorem timeAltOffsetWrite (r : Req) (h : Half) (v : Word) : Statement (.timeAltOffsetWrite r h v) := never _
theorem syncLossTimeout : Statement (.syncLossTimeout) := never _
theorem refLoss : Statement (.refLoss) := never _
theorem refReturn : Statement (.refReturn) := never _
theorem ppsOutRise : Statement (.ppsOutRise) := never _
theorem ppsOutFall : Statement (.ppsOutFall) := never _
theorem timeCompareFire (n : Fin 64) : Statement (.timeCompareFire n) := never _
theorem convStartPulseEnd (q : Fin 16) : Statement (.convStartPulseEnd q) := never _
theorem timeCmpArmWrite (n : Fin 64) (r : Req) (h : Half) (v : Word) : Statement (.timeCmpArmWrite n r h v) := never _
theorem eventCapture (k : Fin 17) (rising : Bool) (sampled : Word) : Statement (.eventCapture k rising sampled) := never _
theorem timeEvtStampRead (k : Fin 17) (r : Req) (h : Half) : Statement (.timeEvtStampRead k r h) := never _
theorem csi2FrameStart (p : Fin 16) (vc : Fin 4) : Statement (.csi2FrameStart p vc) := never _
theorem csi2LinePacket (p : Fin 16) (vc : Fin 4) (dt : BitVec 6) (hdr : HdrEcc) (crcOk : Bool) (overrun : Bool) (payload : List Byte) : Statement (.csi2LinePacket p vc dt hdr crcOk overrun payload) := never _
theorem csi2FrameEnd (p : Fin 16) (vc : Fin 4) (ecc : Bool) : Statement (.csi2FrameEnd p vc ecc) := never _
theorem csi2FrameEndTimeout (p : Fin 16) (vc : Fin 4) : Statement (.csi2FrameEndTimeout p vc) := never _
theorem sampleRecordWrite (src : Fin 128) : Statement (.sampleRecordWrite src) := never _
theorem imgSrcRelease (src : Fin 128) (r : Req) (h : Half) (v : Word) : Statement (.imgSrcRelease src r h v) := never _
theorem imgPortDisable (p : Fin 16) (r : Req) (abandon : Bool) : Statement (.imgPortDisable p r abandon) := never _
theorem imgPortEnable (p : Fin 16) (r : Req) : Statement (.imgPortEnable p r) := never _
theorem portDisableDrainTimeout (p : Fin 16) : Statement (.portDisableDrainTimeout p) := never _
theorem carrierDatagram (e : Fin 4) (stamp : Word) (bytes : List Byte) : Statement (.carrierDatagram e stamp bytes) := never _
theorem reassemblyTimeout (src : Fin 128) (slot : Fin 2) : Statement (.reassemblyTimeout src slot) := never _
theorem decoderStart (d : Fin 8) : Statement (.decoderStart d) := never _
theorem decodeComplete (d : Fin 8) (ecc : Bool) : Statement (.decodeComplete d ecc) := never _
theorem decodeBudgetExpiry (d : Fin 8) : Statement (.decodeBudgetExpiry d) := never _
theorem tokenize (q : BitVec 16) (done : Nat) (ecc : List (BitVec 17)) : Statement (.tokenize q done ecc) := never _
theorem coreRun (q : BitVec 16) : Statement (.coreRun q) := never _
theorem coreCopy (q : BitVec 16) (done : Nat) : Statement (.coreCopy q done) := never _
theorem coreFill (q : BitVec 16) (done : Nat) : Statement (.coreFill q done) := never _
theorem bundleIssue (n : Fin 16) (ecc : Bool) : Statement (.bundleIssue n ecc) := never _
theorem yieldPoint (n : Fin 16) : Statement (.yieldPoint n) := never _
theorem programEnd (n : Fin 16) : Statement (.programEnd n) := never _
theorem engineOperationComplete (n : Fin 16) (e : Engine) : Statement (.engineOperationComplete n e) := never _
theorem matWload (n : Fin 16) (e : MatEng) (x : BitVec 8) : Statement (.matWload n e x) := never _
theorem matMatmul (n : Fin 16) (e : MatEng) (x : BitVec 8) (set : Bool) (row : BitVec 10) (count : BitVec 11) (init : Bool) (swap : Bool) (fault : MatFault) : Statement (.matMatmul n e x set row count init swap fault) := never _
theorem matDrain (n : Fin 16) (e : MatEng) (x : BitVec 8) (q : BitVec 8) (set : Bool) (row : BitVec 10) (count : BitVec 11) (rnd : Rnd) : Statement (.matDrain n e x q set row count rnd) := never _
theorem matClear (n : Fin 16) (e : MatEng) (set : Bool) (row : BitVec 10) (count : BitVec 11) : Statement (.matClear n e set row count) := never _
theorem vecAdd (n : Fin 16) (dst : BitVec 8) (src1 : BitVec 8) (src2 : BitVec 8) (imm : BitVec 6) (rnd : Rnd) : Statement (.vecAdd n dst src1 src2 imm rnd) := never _
theorem vecMul (n : Fin 16) (dst : BitVec 8) (src1 : BitVec 8) (src2 : BitVec 8) (imm : BitVec 6) (rnd : Rnd) : Statement (.vecMul n dst src1 src2 imm rnd) := never _
theorem vecFma (n : Fin 16) (dst : BitVec 8) (src1 : BitVec 8) (src2 : BitVec 8) (imm : BitVec 6) (rnd : Rnd) : Statement (.vecFma n dst src1 src2 imm rnd) := never _
theorem vecMax (n : Fin 16) (dst : BitVec 8) (src1 : BitVec 8) (src2 : BitVec 8) (imm : BitVec 6) (rnd : Rnd) : Statement (.vecMax n dst src1 src2 imm rnd) := never _
theorem vecMin (n : Fin 16) (dst : BitVec 8) (src1 : BitVec 8) (src2 : BitVec 8) (imm : BitVec 6) (rnd : Rnd) : Statement (.vecMin n dst src1 src2 imm rnd) := never _
theorem vecCvt (n : Fin 16) (dst : BitVec 8) (src1 : BitVec 8) (src2 : BitVec 8) (imm : BitVec 6) (rnd : Rnd) : Statement (.vecCvt n dst src1 src2 imm rnd) := never _
theorem vecBquant (n : Fin 16) (dst : BitVec 8) (src1 : BitVec 8) (src2 : BitVec 8) (imm : BitVec 6) (rnd : Rnd) : Statement (.vecBquant n dst src1 src2 imm rnd) := never _
theorem vecExp (n : Fin 16) (dst : BitVec 8) (src1 : BitVec 8) (src2 : BitVec 8) (imm : BitVec 6) (rnd : Rnd) : Statement (.vecExp n dst src1 src2 imm rnd) := never _
theorem vecLog (n : Fin 16) (dst : BitVec 8) (src1 : BitVec 8) (src2 : BitVec 8) (imm : BitVec 6) (rnd : Rnd) : Statement (.vecLog n dst src1 src2 imm rnd) := never _
theorem vecRecip (n : Fin 16) (dst : BitVec 8) (src1 : BitVec 8) (src2 : BitVec 8) (imm : BitVec 6) (rnd : Rnd) : Statement (.vecRecip n dst src1 src2 imm rnd) := never _
theorem vecRsqrt (n : Fin 16) (dst : BitVec 8) (src1 : BitVec 8) (src2 : BitVec 8) (imm : BitVec 6) (rnd : Rnd) : Statement (.vecRsqrt n dst src1 src2 imm rnd) := never _
theorem vecTanh (n : Fin 16) (dst : BitVec 8) (src1 : BitVec 8) (src2 : BitVec 8) (imm : BitVec 6) (rnd : Rnd) : Statement (.vecTanh n dst src1 src2 imm rnd) := never _
theorem vecSigmoid (n : Fin 16) (dst : BitVec 8) (src1 : BitVec 8) (src2 : BitVec 8) (imm : BitVec 6) (rnd : Rnd) : Statement (.vecSigmoid n dst src1 src2 imm rnd) := never _
theorem vecGelu (n : Fin 16) (dst : BitVec 8) (src1 : BitVec 8) (src2 : BitVec 8) (imm : BitVec 6) (rnd : Rnd) : Statement (.vecGelu n dst src1 src2 imm rnd) := never _
theorem vecRsum (n : Fin 16) (dst : BitVec 8) (src1 : BitVec 8) (src2 : BitVec 8) (imm : BitVec 6) (rnd : Rnd) : Statement (.vecRsum n dst src1 src2 imm rnd) := never _
theorem vecRmax (n : Fin 16) (dst : BitVec 8) (src1 : BitVec 8) (src2 : BitVec 8) (imm : BitVec 6) (rnd : Rnd) : Statement (.vecRmax n dst src1 src2 imm rnd) := never _
theorem vecSmstat (n : Fin 16) (dst : BitVec 8) (src1 : BitVec 8) (src2 : BitVec 8) (imm : BitVec 6) (rnd : Rnd) : Statement (.vecSmstat n dst src1 src2 imm rnd) := never _
theorem vecSmlse (n : Fin 16) (dst : BitVec 8) (src1 : BitVec 8) (src2 : BitVec 8) (imm : BitVec 6) (rnd : Rnd) : Statement (.vecSmlse n dst src1 src2 imm rnd) := never _
theorem vecNstat (n : Fin 16) (dst : BitVec 8) (src1 : BitVec 8) (src2 : BitVec 8) (imm : BitVec 6) (rnd : Rnd) : Statement (.vecNstat n dst src1 src2 imm rnd) := never _
theorem s0Add (n : Fin 16) (rd : BitVec 6) (ra : BitVec 6) (rb : BitVec 6) : Statement (.s0Add n rd ra rb) := never _
theorem s0Sub (n : Fin 16) (rd : BitVec 6) (ra : BitVec 6) (rb : BitVec 6) : Statement (.s0Sub n rd ra rb) := never _
theorem s0And (n : Fin 16) (rd : BitVec 6) (ra : BitVec 6) (rb : BitVec 6) : Statement (.s0And n rd ra rb) := never _
theorem s0Or (n : Fin 16) (rd : BitVec 6) (ra : BitVec 6) (rb : BitVec 6) : Statement (.s0Or n rd ra rb) := never _
theorem s0Xor (n : Fin 16) (rd : BitVec 6) (ra : BitVec 6) (rb : BitVec 6) : Statement (.s0Xor n rd ra rb) := never _
theorem s0Shl (n : Fin 16) (rd : BitVec 6) (ra : BitVec 6) (rb : BitVec 6) : Statement (.s0Shl n rd ra rb) := never _
theorem s0Shr (n : Fin 16) (rd : BitVec 6) (ra : BitVec 6) (rb : BitVec 6) : Statement (.s0Shr n rd ra rb) := never _
theorem s0Sar (n : Fin 16) (rd : BitVec 6) (ra : BitVec 6) (rb : BitVec 6) : Statement (.s0Sar n rd ra rb) := never _
theorem s0Mul (n : Fin 16) (rd : BitVec 6) (ra : BitVec 6) (rb : BitVec 6) : Statement (.s0Mul n rd ra rb) := never _
theorem s0Min (n : Fin 16) (rd : BitVec 6) (ra : BitVec 6) (rb : BitVec 6) : Statement (.s0Min n rd ra rb) := never _
theorem s0Max (n : Fin 16) (rd : BitVec 6) (ra : BitVec 6) (rb : BitVec 6) : Statement (.s0Max n rd ra rb) := never _
theorem s0Slt (n : Fin 16) (rd : BitVec 6) (ra : BitVec 6) (rb : BitVec 6) : Statement (.s0Slt n rd ra rb) := never _
theorem s0Sltu (n : Fin 16) (rd : BitVec 6) (ra : BitVec 6) (rb : BitVec 6) : Statement (.s0Sltu n rd ra rb) := never _
theorem s0Addi (n : Fin 16) (rd : BitVec 6) (ra : BitVec 6) (imm : BitVec 18) : Statement (.s0Addi n rd ra imm) := never _
theorem s0Andi (n : Fin 16) (rd : BitVec 6) (ra : BitVec 6) (imm : BitVec 18) : Statement (.s0Andi n rd ra imm) := never _
theorem s0Ori (n : Fin 16) (rd : BitVec 6) (ra : BitVec 6) (imm : BitVec 18) : Statement (.s0Ori n rd ra imm) := never _
theorem s0Xori (n : Fin 16) (rd : BitVec 6) (ra : BitVec 6) (imm : BitVec 18) : Statement (.s0Xori n rd ra imm) := never _
theorem s0Shli (n : Fin 16) (rd : BitVec 6) (ra : BitVec 6) (imm : BitVec 18) : Statement (.s0Shli n rd ra imm) := never _
theorem s0Shri (n : Fin 16) (rd : BitVec 6) (ra : BitVec 6) (imm : BitVec 18) : Statement (.s0Shri n rd ra imm) := never _
theorem s0Sari (n : Fin 16) (rd : BitVec 6) (ra : BitVec 6) (imm : BitVec 18) : Statement (.s0Sari n rd ra imm) := never _
theorem s0Lih (n : Fin 16) (rd : BitVec 6) (ra : BitVec 6) (imm : BitVec 18) : Statement (.s0Lih n rd ra imm) := never _
theorem s0Exts (n : Fin 16) (rd : BitVec 6) (ra : BitVec 6) (imm : BitVec 18) : Statement (.s0Exts n rd ra imm) := never _
theorem s0Extu (n : Fin 16) (rd : BitVec 6) (ra : BitVec 6) (imm : BitVec 18) : Statement (.s0Extu n rd ra imm) := never _
theorem s0Ld (n : Fin 16) (rd : BitVec 6) (ra : BitVec 6) (imm : BitVec 18) : Statement (.s0Ld n rd ra imm) := never _
theorem s0St (n : Fin 16) (rs : BitVec 6) (ra : BitVec 6) (imm : BitVec 18) : Statement (.s0St n rs ra imm) := never _
theorem s0Ldf (n : Fin 16) (rd : BitVec 6) (ra : BitVec 6) (imm : BitVec 18) : Statement (.s0Ldf n rd ra imm) := never _
theorem s0Stf (n : Fin 16) (rs : BitVec 6) (ra : BitVec 6) (imm : BitVec 18) : Statement (.s0Stf n rs ra imm) := never _
theorem loadDataReturn (n : Fin 16) (k : Nat) : Statement (.loadDataReturn n k) := never _
theorem s0Beq (n : Fin 16) (ra : BitVec 6) (rb : BitVec 6) (off : BitVec 18) : Statement (.s0Beq n ra rb off) := never _
theorem s0Bne (n : Fin 16) (ra : BitVec 6) (rb : BitVec 6) (off : BitVec 18) : Statement (.s0Bne n ra rb off) := never _
theorem s0Blt (n : Fin 16) (ra : BitVec 6) (rb : BitVec 6) (off : BitVec 18) : Statement (.s0Blt n ra rb off) := never _
theorem s0Bge (n : Fin 16) (ra : BitVec 6) (rb : BitVec 6) (off : BitVec 18) : Statement (.s0Bge n ra rb off) := never _
theorem s0Jmp (n : Fin 16) (off : BitVec 18) : Statement (.s0Jmp n off) := never _
theorem s0Loop (n : Fin 16) (ra : BitVec 6) (imm : BitVec 18) : Statement (.s0Loop n ra imm) := never _
theorem s0Dset (n : Fin 16) (g : BitVec 6) (desc : BitVec 8) (word : BitVec 2) : Statement (.s0Dset n g desc word) := never _
theorem s0Dadd (n : Fin 16) (g : BitVec 6) (desc : BitVec 8) : Statement (.s0Dadd n g desc) := never _
theorem s0Dget (n : Fin 16) (g : BitVec 6) (desc : BitVec 8) (word : BitVec 2) : Statement (.s0Dget n g desc word) := never _
theorem s0Srstream (n : Fin 16) (ra : BitVec 6) : Statement (.s0Srstream n ra) := never _
theorem s1IntegerOp (n : Fin 16) (op : IntOp) (rd : BitVec 6) (ra : BitVec 6) (rb : BitVec 6) : Statement (.s1IntegerOp n op rd ra rb) := never _
theorem s1Fadd (n : Fin 16) (fd : BitVec 5) (fa : BitVec 5) (fb : BitVec 5) : Statement (.s1Fadd n fd fa fb) := never _
theorem s1Fsub (n : Fin 16) (fd : BitVec 5) (fa : BitVec 5) (fb : BitVec 5) : Statement (.s1Fsub n fd fa fb) := never _
theorem s1Fmul (n : Fin 16) (fd : BitVec 5) (fa : BitVec 5) (fb : BitVec 5) : Statement (.s1Fmul n fd fa fb) := never _
theorem s1Fma (n : Fin 16) (fd : BitVec 5) (fa : BitVec 5) (fb : BitVec 5) (fc : BitVec 5) : Statement (.s1Fma n fd fa fb fc) := never _
theorem s1Fdiv (n : Fin 16) (fd : BitVec 5) (fa : BitVec 5) (fb : BitVec 5) : Statement (.s1Fdiv n fd fa fb) := never _
theorem s1Fsqrt (n : Fin 16) (fd : BitVec 5) (fa : BitVec 5) : Statement (.s1Fsqrt n fd fa) := never _
theorem s1Fmin (n : Fin 16) (fd : BitVec 5) (fa : BitVec 5) (fb : BitVec 5) : Statement (.s1Fmin n fd fa fb) := never _
theorem s1Fmax (n : Fin 16) (fd : BitVec 5) (fa : BitVec 5) (fb : BitVec 5) : Statement (.s1Fmax n fd fa fb) := never _
theorem s1FcvtFi (n : Fin 16) (fd : BitVec 5) (gr : BitVec 6) : Statement (.s1FcvtFi n fd gr) := never _
theorem s1FcvtIf (n : Fin 16) (gr : BitVec 6) (fa : BitVec 5) : Statement (.s1FcvtIf n gr fa) := never _
theorem s1FcvtFs (n : Fin 16) (fd : BitVec 5) (gr : BitVec 6) : Statement (.s1FcvtFs n fd gr) := never _
theorem s1FcvtSf (n : Fin 16) (gr : BitVec 6) (fa : BitVec 5) : Statement (.s1FcvtSf n gr fa) := never _
theorem s1Fmovfg (n : Fin 16) (fd : BitVec 5) (gr : BitVec 6) : Statement (.s1Fmovfg n fd gr) := never _
theorem s1Fmovgf (n : Fin 16) (gr : BitVec 6) (fa : BitVec 5) : Statement (.s1Fmovgf n gr fa) := never _
theorem s1Fcmplt (n : Fin 16) (gr : BitVec 6) (fa : BitVec 5) (fb : BitVec 5) : Statement (.s1Fcmplt n gr fa fb) := never _
theorem fp64ResultWrite (n : Fin 16) (slow : Bool) : Statement (.fp64ResultWrite n slow) := never _
theorem xferCopy (n : Fin 16) (dst : BitVec 8) (src : BitVec 8) : Statement (.xferCopy n dst src) := never _
theorem xferFill (n : Fin 16) (dst : BitVec 8) (src : BitVec 8) : Statement (.xferFill n dst src) := never _
theorem xferIm2col (n : Fin 16) (dst : BitVec 8) (src : BitVec 8) (aux : BitVec 18) : Statement (.xferIm2col n dst src aux) := never _
theorem xferZcomp (n : Fin 16) (dst : BitVec 8) (src : BitVec 8) (aux : BitVec 18) : Statement (.xferZcomp n dst src aux) := never _
theorem xferZdecomp (n : Fin 16) (dst : BitVec 8) (src : BitVec 8) (aux : BitVec 18) : Statement (.xferZdecomp n dst src aux) := never _
theorem xferScaleBind (n : Fin 16) (dst : BitVec 8) (src : BitVec 8) (aux : BitVec 18) : Statement (.xferScaleBind n dst src aux) := never _
theorem coreInjectWrite (n : Fin 16) (r : Req) (h : Half) (v : Word) : Statement (.coreInjectWrite n r h v) := never _
theorem bankAccessServe (b : Fin 1280) (heads : List BankAccess) : Statement (.bankAccessServe b heads) := never _
theorem eccWriteback (b : Fin 1280) (line : Fin 2048) : Statement (.eccWriteback b line) := never _
theorem spdBankOwnerWrite (b : Fin 1280) (r : Req) (h : Half) (v : Word) : Statement (.spdBankOwnerWrite b r h v) := never _
theorem handoverComplete (b : Fin 1280) : Statement (.handoverComplete b) := never _
theorem spdBankPwrWrite (b : Fin 1280) (r : Req) (h : Half) (v : Word) : Statement (.spdBankPwrWrite b r h v) := never _
theorem bankPowerTransitionDone (b : Fin 1280) : Statement (.bankPowerTransitionDone b) := never _
theorem patrolScrubLine (line : Fin 2048) : Statement (.patrolScrubLine line) := never _
theorem columnRepairLine : Statement (.columnRepairLine) := never _
theorem columnRepairDone : Statement (.columnRepairDone) := never _
theorem edgeConv (q : BitVec 16) (done : Nat) (fault : EdgeFault) : Statement (.edgeConv q done fault) := never _
theorem edgePool (q : BitVec 16) (done : Nat) : Statement (.edgePool q done) := never _
theorem edgeResize (q : BitVec 16) (done : Nat) : Statement (.edgeResize q done) := never _
theorem kvOpen (q : BitVec 16) : Statement (.kvOpen q) := never _
theorem kvClose (q : BitVec 16) (done : Nat) (refetch : Nat) : Statement (.kvClose q done refetch) := never _
theorem kvAppend (q : BitVec 16) (done : Nat) (refetch : Nat) : Statement (.kvAppend q done refetch) := never _
theorem kvFork (q : BitVec 16) (done : Nat) (refetch : Nat) : Statement (.kvFork q done refetch) := never _
theorem kvTruncate (q : BitVec 16) (done : Nat) (refetch : Nat) : Statement (.kvTruncate q done refetch) := never _
theorem kvScore (q : BitVec 16) (done : Nat) (refetch : Nat) : Statement (.kvScore q done refetch) := never _
theorem kvPin (q : BitVec 16) (done : Nat) (refetch : Nat) : Statement (.kvPin q done refetch) := never _
theorem kvEvict (q : BitVec 16) (done : Nat) (refetch : Nat) : Statement (.kvEvict q done refetch) := never _
theorem kvVerifyCommit (q : BitVec 16) (done : Nat) (refetch : Nat) : Statement (.kvVerifyCommit q done refetch) := never _
theorem solveDense (q : BitVec 16) : Statement (.solveDense q) := never _
theorem solveBa (q : BitVec 16) : Statement (.solveBa q) := never _
theorem solverEvalReturn (ecc : List (BitVec 13)) : Statement (.solverEvalReturn ecc) := never _
theorem ctlSnapshot (g : Fin 8) : Statement (.ctlSnapshot g) := never _
theorem ctlEvaluate (g : Fin 8) (bad : List (Fin 512)) : Statement (.ctlEvaluate g bad) := never _
theorem ctlHandoff (g : Fin 8) : Statement (.ctlHandoff g) := never _
theorem ctlLatch (g : Fin 8) : Statement (.ctlLatch g) := never _
theorem ctlWriteInputs (q : BitVec 16) : Statement (.ctlWriteInputs q) := never _
theorem ctlSetCoef (q : BitVec 16) : Statement (.ctlSetCoef q) := never _
theorem ctlResetState (q : BitVec 16) : Statement (.ctlResetState q) := never _
theorem ctlTraceRead (q : BitVec 16) : Statement (.ctlTraceRead q) := never _
theorem ctlSlotInWrite (sl : Fin 512) (r : Req) (h : Half) (v : Word) : Statement (.ctlSlotInWrite sl r h v) := never _
theorem ctlGroupDisable (g : Fin 8) (r : Req) (abandon : Bool) : Statement (.ctlGroupDisable g r abandon) := never _
theorem ctlGroupEnable (g : Fin 8) (r : Req) : Statement (.ctlGroupEnable g r) := never _
theorem ctlTraceArm (t : Fin 4) (r : Req) : Statement (.ctlTraceArm t r) := never _
theorem ctlTraceForce (t : Fin 4) (r : Req) : Statement (.ctlTraceForce t r) := never _
theorem traceConfigWrite (r : Req) (off : BitVec 26) (h : Half) (v : Word) : Statement (.traceConfigWrite r off h v) := never _
theorem sensorFrameComplete (p : Fin 24) (res : SensorResult) : Statement (.sensorFrameComplete p res) := never _
theorem sensorNoStartTimeout (p : Fin 24) : Statement (.sensorNoStartTimeout p) := never _
theorem pwmValley (a : Fin 48) : Statement (.pwmValley a) := never _
theorem stepPulseCarry (a : Fin 48) : Statement (.stepPulseCarry a) := never _
theorem canFrameReceived (k : Fin 8) (f : CanFrame) (sof : BitVec 32) : Statement (.canFrameReceived k f sof) := never _
theorem canTxRequest (k : Fin 8) (m : Fin 64) (r : Req) : Statement (.canTxRequest k m r) := never _
theorem canTxAbort (k : Fin 8) (m : Fin 64) (r : Req) (onBus : Bool) : Statement (.canTxAbort k m r onBus) := never _
theorem canTxComplete (k : Fin 8) (sof : BitVec 32) : Statement (.canTxComplete k sof) := never _
theorem canTxError (k : Fin 8) (e : CanErr) : Statement (.canTxError k e) := never _
theorem canRecover (k : Fin 8) (r : Req) : Statement (.canRecover k r) := never _
theorem canRecoveryDone (k : Fin 8) : Statement (.canRecoveryDone k) := never _
theorem canDisable (k : Fin 8) (r : Req) (abandon : Bool) (busy : Bool) : Statement (.canDisable k r abandon busy) := never _
theorem canEnable (k : Fin 8) (r : Req) : Statement (.canEnable k r) := never _
theorem canBusIntegrationDone (k : Fin 8) : Statement (.canBusIntegrationDone k) := never _
theorem ethFrameReceived (e : Fin 4) (fcsOk : Bool) (stamp : Word) (bytes : List Byte) : Statement (.ethFrameReceived e fcsOk stamp bytes) := never _
theorem ethTxFrame (q : BitVec 16) : Statement (.ethTxFrame q) := never _
theorem ethTxDone (e : Fin 4) (stamp : Word) : Statement (.ethTxDone e stamp) := never _
theorem ethLinkUp (e : Fin 4) : Statement (.ethLinkUp e) := never _
theorem ethLinkDown (e : Fin 4) : Statement (.ethLinkDown e) := never _
theorem queDoorbellWrite (q : BitVec 16) (r : Req) (h : Half) (v : Word) : Statement (.queDoorbellWrite q r h v) := never _
theorem descriptorFetch (q : BitVec 16) : Statement (.descriptorFetch q) := never _
theorem commandDispatch (c : Fin 8) (u : CmdUnit) (inst : Fin 4) : Statement (.commandDispatch c u inst) := never _
theorem yieldRemoteTimeout (n : Fin 16) : Statement (.yieldRemoteTimeout n) := never _
theorem contextSaveDone (n : Fin 16) : Statement (.contextSaveDone n) := never _
theorem contextRestoreDone (n : Fin 16) : Statement (.contextRestoreDone n) := never _
theorem quantumExpiry (n : Fin 16) : Statement (.quantumExpiry n) := never _
theorem commandComplete (q : BitVec 16) : Statement (.commandComplete q) := never _
theorem queueDisable (q : BitVec 16) (r : Req) (abandon : Bool) : Statement (.queueDisable q r abandon) := never _
theorem queueEnable (q : BitVec 16) (r : Req) : Statement (.queueEnable q r) := never _
theorem queueDrainTimeout (q : BitVec 16) : Statement (.queueDrainTimeout q) := never _
theorem queSeqRead (q : BitVec 16) (r : Req) (h : Half) : Statement (.queSeqRead q r h) := never _
theorem regulatorAdmit (c : Fin 8) (k : Fin 7) (size : BitVec 32) (idle : Bool) : Statement (.regulatorAdmit c k size idle) := never _
theorem hbmAccess (acc : HbmAccess) : Statement (.hbmAccess acc) := never _
theorem hbmPatrolScrub (pc : Fin 128) : Statement (.hbmPatrolScrub pc) := never _
theorem hbmRetireReqWrite (r : Req) (h : Half) (v : Word) : Statement (.hbmRetireReqWrite r h v) := never _
theorem hbmRowRetireDone : Statement (.hbmRowRetireDone) := never _
theorem hbmRetrainReq (r : Req) (h : Half) (v : Word) : Statement (.hbmRetrainReq r h v) := never _
theorem hbmLinkError (ch : Fin 64) : Statement (.hbmLinkError ch) := never _
theorem hbmTempRead (temps : List (BitVec 8)) : Statement (.hbmTempRead temps) := never _
theorem hbmRetrainDone : Statement (.hbmRetrainDone) := never _
theorem chdEnumerate (r : Req) : Statement (.chdEnumerate r) := never _
theorem chordEnum (p : Fin 4) (f : ChordFrame) : Statement (.chordEnum p f) := never _
theorem chordAck (p : Fin 4) (f : ChordFrame) : Statement (.chordAck p f) := never _
theorem chordNak (p : Fin 4) (f : ChordFrame) : Statement (.chordNak p f) := never _
theorem chordCredit (p : Fin 4) (f : ChordFrame) : Statement (.chordCredit p f) := never _
theorem chordTime (p : Fin 4) (f : ChordFrame) (rx : Word) : Statement (.chordTime p f rx) := never _
theorem chordTimeSend : Statement (.chordTimeSend) := never _
theorem chordRead (p : Fin 4) (f : ChordFrame) : Statement (.chordRead p f) := never _
theorem chordReadResp (p : Fin 4) (f : ChordFrame) (refused : Bool) : Statement (.chordReadResp p f refused) := never _
theorem chordWrite (p : Fin 4) (f : ChordFrame) : Statement (.chordWrite p f) := never _
theorem chordHalyard (p : Fin 4) (f : ChordFrame) : Statement (.chordHalyard p f) := never _
theorem chordDet (p : Fin 4) (f : ChordFrame) : Statement (.chordDet p f) := never _
theorem chordSig (p : Fin 4) (f : ChordFrame) : Statement (.chordSig p f) := never _
theorem chordFrameCorrupt (p : Fin 4) (fec : Bool) : Statement (.chordFrameCorrupt p fec) := never _
theorem chordBadKind (p : Fin 4) (f : ChordFrame) : Statement (.chordBadKind p f) := never _
theorem chordAckTimeout (p : Fin 4) : Statement (.chordAckTimeout p) := never _
theorem chordLinkDown (p : Fin 4) : Statement (.chordLinkDown p) := never _
theorem chordLinkUp (p : Fin 4) : Statement (.chordLinkUp p) := never _
theorem remoteTimeout (tseq : BitVec 16) : Statement (.remoteTimeout tseq) := never _
theorem detLaunchArm (r : Req) : Statement (.detLaunchArm r) := never _
theorem detLaunchAbort (r : Req) : Statement (.detLaunchAbort r) := never _
theorem detLaunchRelease (r : Req) : Statement (.detLaunchRelease r) := never _
theorem launchFire : Statement (.launchFire) := never _
theorem launchMarginExpiry : Statement (.launchMarginExpiry) := never _
theorem launchArmedExpiry : Statement (.launchArmedExpiry) := never _
theorem detLsCfgWrite (r : Req) (h : Half) (v : Word) : Statement (.detLsCfgWrite r h v) := never _
theorem detLsFeed (f : Fin 8) (r : Req) (h : Half) (v : Word) : Statement (.detLsFeed f r h v) := never _
theorem lockstepLagTimeout (src : Fin 80) : Statement (.lockstepLagTimeout src) := never _
theorem recordGapEntry : Statement (.recordGapEntry) := never _
theorem replayInject : Statement (.replayInject) := never _
theorem settingsDigestRecompute : Statement (.settingsDigestRecompute) := never _
theorem plbInboxWrite (i : Fin 17) (r : Req) (h : Half) (v : Word) : Statement (.plbInboxWrite i r h v) := never _
theorem plumbFrameStart (f : Fin 64) : Statement (.plumbFrameStart f) := never _
theorem plumbFrameDeadline (f : Fin 64) : Statement (.plumbFrameDeadline f) := never _
theorem plumbJudgementEnd (f : Fin 64) : Statement (.plumbJudgementEnd f) := never _
theorem plumbHwDetect (d : HwDetect) : Statement (.plumbHwDetect d) := never _
theorem plumbTimeCheck : Statement (.plumbTimeCheck) := never _
theorem plumbFault (src : PlumbFaultSrc) : Statement (.plumbFault src) := never _
theorem plumbWatchdogTimeout : Statement (.plumbWatchdogTimeout) := never _
theorem plumbSafetyMessage : Statement (.plumbSafetyMessage) := never _
theorem plumbSafetyRepeat : Statement (.plumbSafetyRepeat) := never _
theorem plbAck (r : Req) (h : Half) (v : Word) : Statement (.plbAck r h v) := never _
theorem plbForceSafe (r : Req) (on : Bool) : Statement (.plbForceSafe r on) := never _
theorem plbClearFirst (r : Req) : Statement (.plbClearFirst r) := never _
theorem pennantFrameBoundary : Statement (.pennantFrameBoundary) := never _
theorem pennantRunStart (phys : Fin 18) (e : PenEngine) : Statement (.pennantRunStart phys e) := never _
theorem pennantReportJudge : Statement (.pennantReportJudge) := never _
theorem fuseBurnDone (good : Bool) : Statement (.fuseBurnDone good) := never _
theorem fltCmdFurl (r : Req) (core : Fin 16) : Statement (.fltCmdFurl r core) := never _
theorem plannedSwapStart (n : Fin 16) : Statement (.plannedSwapStart n) := never _
theorem swapCopyDone : Statement (.swapCopyDone) := never _
theorem rollingTestNext : Statement (.rollingTestNext) := never _
theorem rollingIntervalExpiry : Statement (.rollingIntervalExpiry) := never _
theorem coreTestDone (fail : BitVec 4) (bank : BitVec 11) (cols : List (BitVec 11 × BitVec 12)) : Statement (.coreTestDone fail bank cols) := never _
theorem fltTestReq (r : Req) (h : Half) (v : Word) : Statement (.fltTestReq r h v) := never _
theorem testRequestStart : Statement (.testRequestStart) := never _
theorem testRequestNoSlack : Statement (.testRequestNoSlack) := never _
theorem thermalCalSegmentDone : Statement (.thermalCalSegmentDone) := never _
theorem fltPenInstall (r : Req) (allowOlder : Bool) : Statement (.fltPenInstall r allowOlder) := never _
theorem pennantInstallDone : Statement (.pennantInstallDone) := never _
theorem powerSample (x : PowerSample) : Statement (.powerSample x) := never _
theorem pwrCfgWrite (r : Req) (h : Half) (v : Word) : Statement (.pwrCfgWrite r h v) := never _
theorem pwrVddWrite (r : Req) (h : Half) (v : Word) : Statement (.pwrVddWrite r h v) := never _
theorem pwrThermCfgWrite (r : Req) (h : Half) (v : Word) : Statement (.pwrThermCfgWrite r h v) := never _
theorem pwrDomainBmaxWrite (k : Fin 3) (r : Req) (h : Half) (v : Word) : Statement (.pwrDomainBmaxWrite k r h v) := never _
theorem vrTransferRetry : Statement (.vrTransferRetry) := never _
theorem brownout : Statement (.brownout) := never _
theorem bar2Read (x : BitVec 32) (len : BitVec 13) : Statement (.bar2Read x len) := never _
theorem bar2Write (x : BitVec 32) (bytes : List Byte) : Statement (.bar2Write x bytes) := never _
theorem hostReadCompletion (data : List Byte) (ok : Bool) : Statement (.hostReadCompletion data ok) := never _
theorem msixUnmask (vec : Option (Fin 2048)) : Statement (.msixUnmask vec) := never _
theorem glbIrqMaskWrite (r : Req) (h : Half) (v : Word) : Statement (.glbIrqMaskWrite r h v) := never _
theorem pcieLinkUp : Statement (.pcieLinkUp) := never _
theorem pcieLinkDown : Statement (.pcieLinkDown) := never _
theorem perstAssert : Statement (.perstAssert) := never _
theorem halyardHello (m : HalMsg) : Statement (.halyardHello m) := never _
theorem halyardAck (m : HalMsg) : Statement (.halyardAck m) := never _
theorem halyardLibChunk (m : HalMsg) : Statement (.halyardLibChunk m) := never _
theorem halyardLibInstall (m : HalMsg) : Statement (.halyardLibInstall m) := never _
theorem halyardBadRx (bytes : List Byte) : Statement (.halyardBadRx bytes) := never _
theorem halyardErrorReport : Statement (.halyardErrorReport) := never _
theorem halyardTelemetry (shed : Bool) : Statement (.halyardTelemetry shed) := never _
theorem halyardRetransmit : Statement (.halyardRetransmit) := never _
theorem halyardAckSend : Statement (.halyardAckSend) := never _
theorem mboxEcho : Statement (.mboxEcho) := never _
theorem mboxSend : Statement (.mboxSend) := never _
theorem mboxTelem : Statement (.mboxTelem) := never _
theorem mboxState : Statement (.mboxState) := never _
theorem mboxRelease (r : Req) : Statement (.mboxRelease r) := never _
theorem powerOnReset (straps : Straps) : Statement (.powerOnReset straps) := never _
theorem warmReset (cause : WarmCause) (straps : Straps) : Statement (.warmReset cause straps) := never _
theorem secWarmReset (r : Req) (confirm : BitVec 8) : Statement (.secWarmReset r confirm) := never _
theorem bootFusesDone (ok : Bool) : Statement (.bootFusesDone ok) := never _
theorem hbmTrainingDone (ok : BitVec 4) (ppr : BitVec 128) : Statement (.hbmTrainingDone ok ppr) := never _
theorem xspiFetchDone (bytes : List Byte) : Statement (.xspiFetchDone bytes) := never _
theorem bootApplyDone : Statement (.bootApplyDone) := never _
theorem secProvision (r : Req) (tag : BitVec 16) : Statement (.secProvision r tag) := never _
theorem secRevoke (r : Req) (tag : BitVec 16) : Statement (.secRevoke r tag) := never _
theorem secFleetSeed (r : Req) (tag : BitVec 16) : Statement (.secFleetSeed r tag) := never _
theorem secAttest (r : Req) (tag : BitVec 16) : Statement (.secAttest r tag) := never _
theorem secCommandDone (burnOk : Bool) : Statement (.secCommandDone burnOk) := never _
theorem genericRegisterRead (r : Req) (off : BitVec 26) (h : Half) : Statement (.genericRegisterRead r off h) := never _
theorem mgtHalStateRead (r : Req) (h : Half) : Statement (.mgtHalStateRead r h) := never _
theorem canRxError (k : Fin 8) (e : CanErr) : Statement (.canRxError k e) := never _
theorem mgtLinkUp : Statement (.mgtLinkUp) := never _
theorem mgtLinkDown : Statement (.mgtLinkDown) := never _
theorem pcieConfigWrite (w : CfgWrite) : Statement (.pcieConfigWrite w) := never _
theorem completionTimeout : Statement (.completionTimeout) := never _
theorem chordAckSend (p : Fin 4) : Statement (.chordAckSend p) := never _
theorem pennantRunDone (phys : Fin 18) (e : PenEngine) (crc : BitVec 32) : Statement (.pennantRunDone phys e crc) := never _
theorem mboxUnknownOpcode : Statement (.mboxUnknownOpcode) := never _

end Sys2Proof.Laws.OnTable
end

