-- ==== Sys2Proof/Tests/Slice0.lean ====
section
/-! SUPPORT. Named tests: a witness for every hypothesis of the statements, the well-formedness smoke tests, and values worked out in the spec. -/

open Sys2Proof
open Sys2Proof.Machine

namespace Sys2Proof.Tests

set_option Elab.async false

/-! ReadsAnswerAndLatch -/

theorem witness_reads_served : State.reset.takesRead .mgt R.TIME_NOW = true ∧ State.reset.takesRead .mgt (R.TIME_EVT_STAMP 16) = true ∧
    State.reset.takesRead .host R.GLB_STEP_RATE = false ∧ State.reset.takesRead .mgt R.GLB_STEP_RATE = true ∧
    State.reset.takesRead .mgt R.MGT_HAL_STATE = true := by decide

/-- A state in which queue q is bound. -/
def queBound (q : Nat) : State := State.reset.setFld (R.QUE_CFG q) F.QUE_CFG_ACTIVE 1

theorem witness_queue_reads_served : (queBound 65535).takesRead .mgt (R.QUE_SEQ 65535) = true ∧
    (queBound 65535).takesRead .mgt (R.QUE_RING 65535) = true := by decide

theorem witness_plain_read_served : State.reset.takesRead .mgt 0x1400000 = true ∧ 0x1400000 % 8 = 0 ∧ 0x1400000 ≠ R.TIME_NOW ∧
    0x1400000 ≠ R.MGT_HAL_STATE ∧ arrIdx 0x1400000 R.TIME_EVT_STAMP 17 = none ∧ 0x1000000 ≤ 0x1400000 := by decide

/-! ServoWritesActOnTime -/

/-- A state whose servo owner is the management processor. -/
def servoMgt : State := State.reset.setFld R.TIME_PTP_CFG F.TIME_PTP_CFG_SERVO 1

theorem witness_servo_writes : servoMgt.isServo .mgt = true ∧ servoMgt.chordSource = false ∧ servoMgt.takesWrite .mgt R.TIME_STEP = true ∧
    servoMgt.takesWrite .mgt R.TIME_RATE = true ∧ servoMgt.takesWrite .mgt R.TIME_CTL = true ∧ servoMgt.takesWrite .mgt R.TIME_ALT_CTL = true ∧
    servoMgt.takesWrite .mgt R.TIME_ALT_RATE = true ∧ servoMgt.takesWrite .mgt R.TIME_ALT_OFFSET = true ∧
    servoMgt.takesWrite .mgt (R.TIME_CMP_ARM 63) = true := by decide

theorem witness_not_servo : State.reset.isServo .mgt = false ∧ State.reset.takesWrite .mgt R.TIME_STEP = true ∧
    State.reset.takesWrite .mgt R.TIME_RATE = true ∧ State.reset.takesWrite .mgt R.TIME_CTL = true ∧
    State.reset.takesWrite .mgt R.TIME_ALT_RATE = true ∧ State.reset.takesWrite .mgt R.TIME_ALT_OFFSET = true := by decide

/-! TimeEventsMoveTime -/

/-- A state in which compare 63 is due for its target, an idle enabled group 0. -/
def cmpIsDue : State :=
  ((State.reset.setReg (R.TIME_CMP_CFG 63) 0x8000200000000000).setFld (R.CTL_GROUP_CFG 0) F.CTL_GROUP_CFG_ACTIVE 1).setDue 63 (some ⟨0, false⟩)

theorem witness_compare_due : cmpIsDue.cmpDue 63 = some ⟨0, false⟩ ∧ cmpIsDue.fld (R.TIME_CMP_CFG 63) F.TIME_CMP_CFG_KIND = 2 ∧
    cmpIsDue.groupActive 0 = true ∧ cmpIsDue.bit (R.CTL_GROUP_CTL 0) F.CTL_GROUP_CTL_DISABLE = false ∧ (cmpIsDue.grp 0).phase = .idle := by decide

/-- A state in which channel 16 captures both edges. -/
def evtBoth : State := State.reset.setFld (R.TIME_EVT_CTL 16) F.TIME_EVT_CTL_EDGE 3

theorem witness_event_captured : evtBoth.replays 4 = false ∧ evtBoth.edgeSelected 16 true = true ∧
    evtBoth.edgeTooClose 16 (evtBoth.captureStamp 16 100) = false := by decide

theorem witness_sync_lost : (State.reset.setReg R.TIME_PTP_CFG 1).syncLost = true := by decide

/-! CameraFramesBecomeSamples -/

/-- A state in which camera port 15 uses channel 3, of a source with two buffers. -/
def camReady : State :=
  ((((State.reset.setReg (R.IMG_PORT_CFG 15) 0x8008000000000000).setReg (R.IMG_SRC_CFG 63) 0x8000000200000000).setReg
    (R.IMG_SRC_LIMIT 63) 0x0050010000000400).setReg R.GLB_CAPS 0x0000001000000000)

theorem witness_frame_start : camReady.replays 0 = false ∧ camReady.camOn 15 3 = true ∧ camReady.camDisabled 15 = false ∧
    (camReady.imgSrc 63).cur = none ∧ camReady.bit (R.IMG_PORT_CFG 15) F.IMG_PORT_CFG_GATED = false ∧
    camReady.committing (camReady.srcCanton 63) = false ∧ camReady.freeBuf 63 = some 0 := by decide

theorem witness_frame_start_gated : (camReady.setFld (R.IMG_PORT_CFG 15) F.IMG_PORT_CFG_GATED 1).camOn 15 3 = true ∧
    (camReady.setFld (R.IMG_PORT_CFG 15) F.IMG_PORT_CFG_GATED 1).bit (R.IMG_PORT_CFG 15) F.IMG_PORT_CFG_GATED = true ∧
    ((camReady.setFld (R.IMG_PORT_CFG 15) F.IMG_PORT_CFG_GATED 1).camPort 15).armed = none := by decide

/-- The same with an open frame of one line of two pixels. -/
def camOpen : State := camReady.setCam 63 (some { buf := 0, seq := 7, stamp := 0, width := some 2, raw := true, lines := [some [[1], [2]]] })

theorem witness_line_and_end : camOpen.bit (R.IMG_PORT_CFG 15) F.IMG_PORT_CFG_ACTIVE = true ∧ (camOpen.imgSrc 63).cur.isSome = true ∧
    1 < camOpen.fld (R.IMG_SRC_LIMIT 63) F.IMG_SRC_LIMIT_MAX_HEIGHT ∧ 2 * (1 + 1) ≤ camOpen.fld (R.IMG_SRC_LIMIT 63) F.IMG_SRC_LIMIT_MAX_PIXELS ∧
    (camOpen.camPort 15).disabledAt = none ∧ (camOpen.setTime (100000000 * fracOne)).nowNs = 100000000 := by decide

theorem witness_sample_waits : ((camOpen.camAbort 63).imgSrc 63).done = [⟨7, 0, stAborted, none, 0, 0, 0⟩] := by decide

theorem witness_release : camReady.takesWrite .mgt (R.IMG_SRC_RELEASE 63) = true ∧ (camReady.setBuf 63 1 2).bufState 63 1 = 2 := by decide

theorem witness_port_control : camReady.takesWrite .mgt (R.IMG_PORT_CTL 15) = true ∧ ((camReady.camDisable 15 false).camPort 15).disabledAt = some 0 := by decide

/-! JpegFramesReachDecoders -/

/-- A command descriptor of an opcode with a payload, and a command that runs it. -/
def cmdDesc (op : Nat) (pl : List Byte) : List Byte := BitVec.ofNat 8 op :: (List.replicate 23 0 ++ pl ++ List.replicate (40 - pl.length) 0)
def cmdOf (op : Nat) (pl : List Byte) (ph : Phase) : Cmd :=
  ⟨cmdDesc op pl, 0, true, 0, 0, none, none, ph, stDone, 0, 0, 0, 0, 0, 0, none, 0, false, 0⟩

/-- A state in which queue 7 of canton 0 belongs to an instance of a unit and has a command at its head. -/
def unitState (unit inst : Nat) (c : Cmd) : State :=
  ((((State.reset.setFld (R.QUE_CFG 7) F.QUE_CFG_ACTIVE 1).setFld (R.QUE_CFG 7) F.QUE_CFG_UNIT unit).setFld (R.QUE_CFG 7) F.QUE_CFG_INSTANCE inst).setQueue 7
    { cmds := [c] }).setFld R.GLB_CAPS F.GLB_CAPS_HBM_STACKS 4

/-- A tokenizer command with a CAPACITY of 4. -/
def tokCmd : Cmd := cmdOf 1 (List.replicate 24 0 ++ leBytes 4 8) .running

theorem witness_tokenize : (unitState 2 0 tokCmd).atUnit 7 2 tokCmd = true ∧ tokCmd.opcode = 1 ∧ tokCmd.pl 24 8 = 4 ∧ zeroBytes tokCmd.desc 56 8 = true ∧
    tokCmd.pl 8 8 = 0 ∧ (List.range 32).all (fun i => (unitState 2 0 tokCmd).hit (unitAgent 0x100 0) true i != .wait) = true := by decide

theorem witness_tokenize_refused : (unitState 2 0 (cmdOf 2 [] .running)).atUnit 7 2 (cmdOf 2 [] .running) = true ∧ (cmdOf 2 [] .running).opcode ≠ 1 := by decide

/-- A reassembly slot with an incomplete frame 9 of source 64, and a decode of it. -/
def reasmOf (full : Bool) : Reasm := { seq := 9, total := 64, spans := [(0, 8)], got := 8, stamp := 0, rx := false, firstNs := 0, complete := full }
def decBusy : State := (State.reset.setSlotR 64 0 (some (reasmOf true))).setDec 7 (some ⟨64, 0, 0⟩)

theorem witness_reassembly : ((State.reset.setSlotR 64 1 (some (reasmOf false))).imgSrc 64).slot 1 = some (reasmOf false) ∧
    (reasmOf false).complete = false ∧ (reasmOf false).firstNs + State.reset.fld (R.IMG_SRC_JPEG 64) F.IMG_SRC_JPEG_REASM_MS * 1000000 ≤ State.reset.nowNs := by decide

theorem witness_decode : decBusy.decRun 7 = some ⟨64, 0, 0⟩ ∧ (decBusy.imgSrc 64).slot 0 = some (reasmOf true) := by decide

theorem witness_no_carrier : State.reset.carrierOf 3 [] = none := by decide

/-! ProgramsRunAndStop -/

/-- A state in which core 15 is active and idle. -/
def coreUp : State := (State.reset.setReg R.FLT_MAP 0x8000).setFld (R.CORE_STATUS 15) F.CORE_STATUS_STATE 1

/-- Queue 7 is a core queue with a command that core 15 runs. -/
def coreCmd (op : Nat) (pl : List Byte) : Cmd := { cmdOf op pl .running with core := some 15 }
def coreWith (op : Nat) (pl : List Byte) (k : Core) : State :=
  ((((coreUp.setFld (R.QUE_CFG 7) F.QUE_CFG_ACTIVE 1).setFld (R.QUE_CFG 7) F.QUE_CFG_UNIT 1).setQueue 7 { cmds := [coreCmd op pl] }).setFld
    R.GLB_CAPS F.GLB_CAPS_HBM_STACKS 4).setCore 15 { k with running := some 7 }

/-- An image of one bundle with one entry of S_MAX 100. -/
def oneImage : Image := ⟨0, 0, 1, [(0, 100)], [], [], 0x8000, 0⟩

theorem witness_run : (coreWith 1 [] { images := [oneImage] }).atUnit 7 1 (coreCmd 1 []) = true ∧ (coreCmd 1 []).core = some 15 ∧
    (coreCmd 1 []).opcode = 1 ∧ (coreWith 1 [] { images := [oneImage] }).coreRuns 15 = true ∧
    ((coreWith 1 [] { images := [oneImage] }).core 15).images.find? (fun i => i.id == (coreCmd 1 []).pl 0 2 &&
      i.canton == (coreWith 1 [] { images := [oneImage] }).qCanton 7) = some oneImage ∧ oneImage.entries[(coreCmd 1 []).pl 2 2]? = some (0, 100) := by decide

theorem witness_bundle : (coreWith 1 [] { image := some oneImage }).issues 15 7 = true ∧
    (coreWith 1 [] { image := some oneImage }).head 7 = some (coreCmd 1 []) ∧ ({ image := some oneImage } : Core).holds 0 = false ∧
    ({ image := some oneImage } : Core).xferHolds 0 = false ∧
    ({ image := some oneImage, qVec := [⟨0, [], 0, 0, 0, false, []⟩] } : Core).holds (2 ^ 250) = true := by decide

theorem witness_yield_and_end : (coreWith 1 [] { yieldOffered := true, endPending := true, saving := true }).swapDue 15 = false ∧
    (coreWith 1 [] { yieldOffered := true, endPending := true, saving := true }).switchDue 15 7 = false ∧
    ((coreWith 1 [] { yieldOffered := true, endPending := true, saving := true }).core 15).endPending = true := by decide

/-- FILL of 16 bytes at address 0, and COPY of 16 bytes from 8 to 0. -/
def fillPl : List Byte := leBytes 0 8 ++ leBytes 16 8 ++ leBytes 5 8
def copyPl : List Byte := leBytes 0 8 ++ leBytes 8 8 ++ leBytes 16 8

theorem witness_fill : (coreWith 3 fillPl {}).atUnit 7 1 (coreCmd 3 fillPl) = true ∧ (coreCmd 3 fillPl).pl 8 8 = 16 ∧
    (coreWith 3 fillPl {}).coreRuns 15 = true ∧
    (List.range 16).all (fun i => (coreWith 3 fillPl {}).place i == .hbm i && (coreWith 3 fillPl {}).hit ((coreWith 3 fillPl {}).coreAgent 15) true i == .ok i) = true := by decide

theorem witness_copy : (coreWith 2 copyPl {}).atUnit 7 1 (coreCmd 2 copyPl) = true ∧ (coreCmd 2 copyPl).pl 16 8 = 16 ∧
    (coreWith 2 copyPl {}).copyReads 7 = false ∧
    (List.range 24).all (fun i => (coreWith 2 copyPl {}).place i == .hbm i && (coreWith 2 copyPl {}).hit ((coreWith 2 copyPl {}).coreAgent 15) false i == .ok i) = true := by decide

theorem witness_engine : (coreWith 1 [] {}).coreRuns 15 = true ∧ (coreWith 1 [] {}).coreHandover 15 = false := by decide

/-! MatrixOperationsCompute -/

/-- The words of a descriptor of a format, with its base, its extents DIM0 and DIM1 and no side tensor. -/
def descWords4 (base fmt d0 d1 : Nat) : List (Nat × Word) :=
  [(0, BitVec.ofNat 64 base), (1, BitVec.ofNat 64 (d0 + d1 * 65536)), (2, 0), (3, BitVec.ofNat 64 (fmt * 2 ^ 32 + 0xFFFF * 2 ^ 48))]

/-- Core 15 owns its first bank, and its descriptor 0 names codes of a format there. -/
def matCore (fmt d0 d1 : Nat) (m : MatSt) : State :=
  (coreUp.setFld (R.SPD_BANK_OWNER 960) F.SPD_BANK_OWNER_OWNER 15).setCore 15
    { ctx := { desc := (descWords4 0x10003C000000 fmt d0 d1).filter (fun p => p.2 != 0) }, matA := m }

def int4Tile : Tile := { valid := true, fmt := .int4, depth := 128, elems := [] }

theorem witness_wload_shape : (let s := matCore 14 128 1 {}
     let d := descOf (s.desc 15 0)
     s.coreRuns 15 = true ∧ ((s.core 15).mat .a).bindLoad = none ∧ d.aux = 0xFFFF ∧ d.format = some .int4 ∧ d.cb = none ∧ weightFmt .int4 = true ∧
     tileDepthOk .int4 d.d0 = true) := by
  decide +kernel

def wloadDesc : Desc := ⟨0x10003C000000, 128, 1, 1, 1, 0, 0, 0, 14, 0, 0xFFFF⟩

theorem wload_state_facts : (matCore 14 128 1 {}).coreActive 15 = true ∧
    (matCore 14 128 1 {}).bit (R.SPD_BANK_CFG 960) F.SPD_BANK_CFG_ASSIGNED = false ∧
    (matCore 14 128 1 {}).fld (R.SPD_BANK_OWNER 960) F.SPD_BANK_OWNER_OWNER = 15 ∧
    (matCore 14 128 1 {}).bit (R.SPD_BANK_OWNER 960) F.SPD_BANK_OWNER_PENDING = false ∧
    descOf ((matCore 14 128 1 {}).desc 15 0) = wloadDesc := by decide +kernel

theorem wload_own (a : Nat) (h1 : 0x10003C000000 ≤ a) (h2 : a < 0x10003C080000) : (matCore 14 128 1 {}).ownHit 15 a = .ok a := by
  obtain ⟨f1, f2, f3, f4, _⟩ := wload_state_facts
  refine State.ownHit_lone _ 15 a (a - 0x10003C000000) 960 (by omega) (by omega) (by omega) (by omega) (by omega) (by omega) f1 f2 f3 f4 (by decide)

theorem witness_wload_checks : ((matCore 14 128 1 {}).checkOperand 15 (descOf ((matCore 14 128 1 {}).desc 15 0)) weightFmt 128).and
    ((matCore 14 128 1 {}).checkSide 15 .int4 128 128 none) = .go := by
  rw [wload_state_facts.2.2.2.2]
  have hr : ∀ r ∈ wloadDesc.runsFor Fmt.int4.bits 128, r.addr = 0x10003C000000 ∧ r.bytes = 64 := by
    decide +kernel
  have ho := State.ownRuns_ok (matCore 14 128 1 {}) 15 (wloadDesc.runsFor Fmt.int4.bits 128) (fun r h i hi => by
    obtain ⟨h1, h2⟩ := hr r h
    exact wload_own _ (by omega) (by omega))
  have hc := State.checkOperand_go (matCore 14 128 1 {}) 15 wloadDesc weightFmt 128 .int4 (by decide) (by decide) (by decide) (by decide) ho
  rw [hc]
  rfl

theorem witness_wload_reads : ((matCore 14 128 1 {}).readOperand 15 (descOf ((matCore 14 128 1 {}).desc 15 0)) 128).1.bad = false ∧
    ((matCore 14 128 1 {}).readOperand 15 (descOf ((matCore 14 128 1 {}).desc 15 0)) 128).2 = matCore 14 128 1 {} :=
  ⟨State.readOperand_clean _ _ _ _ (by decide) (by decide), State.readOperand_quiet _ _ _ _ (by decide) (by decide) (by decide)⟩

/-- As matCore, with blocked codes of one channel. -/
def matCoreC16 (m : MatSt) : State :=
  (coreUp.setFld (R.SPD_BANK_OWNER 960) F.SPD_BANK_OWNER_OWNER 15).setCore 15
    { ctx := { desc := [(0, 0x10003C000000), (1, 0x10001), (3, 0xFFFF010C00000000)] }, matA := m }

theorem witness_matmul : (let s := matCoreC16 { active := int4Tile }
     let d := descOf (s.desc 15 0)
     let m := (s.core 15).mat .a
     s.coreRuns 15 = true ∧ (s.core 15).inject = none ∧ m.bindMul = none ∧ d.aux = 0xFFFF ∧ d.format = some .int8 ∧ actFmt .int8 = true ∧
     m.active.valid = true ∧ pairClass .int8 m.active.fmt = some .int1 ∧ PairClass.int1.depth = m.active.depth ∧
     (s.checkOperand 15 (actDesc d 128) actFmt 1).and (s.checkSide 15 .int8 128 1 none) = .go) := by
  decide +kernel

theorem witness_matmul_reads : ((matCoreC16 { active := int4Tile }).readOperand 15 (actDesc (descOf ((matCoreC16 { active := int4Tile }).desc 15 0)) 128) 1).1.bad
    = false ∧ ((matCoreC16 { active := int4Tile }).readOperand 15 (actDesc (descOf ((matCoreC16 { active := int4Tile }).desc 15 0)) 128) 1).2
    = matCoreC16 { active := int4Tile } :=
  ⟨State.readOperand_clean _ _ _ _ (by decide) (by decide), State.readOperand_quiet _ _ _ _ (by decide) (by decide) (by decide)⟩

theorem witness_drain : (let s := matCore 12 1 1 { set1 := ⟨[], some .int1⟩ }
     let d0 := descOf (s.desc 15 0)
     s.coreRuns 15 = true ∧ ((s.core 15).mat .a).bindDrain = none ∧ (((s.core 15).mat .a).set true).cls = some .int1 ∧ PairClass.int1.isInt = true ∧
     d0.format = some .int8 ∧ drainFmt .int8 = true ∧ 1023 + 1 ≤ 1024 ∧
     s.checkOperand 15 { d0 with d0 := min 128 d0.d0 } (fun _ => true) 1 = .go) := by
  decide +kernel

theorem witness_clear_and_bind : coreUp.coreRuns 15 = true := by decide

/-! ScalarIntegerOperations -/

theorem witness_scalar_runs : coreUp.coreRuns 15 = true := by decide

/-! ScalarControlAndPipelines -/

/-- Core 15 owns its first bank; its register G0 names its first byte; a load of it is pending, and two FP64 results. -/
def scalarCore : State :=
  (coreUp.setFld (R.SPD_BANK_OWNER 960) F.SPD_BANK_OWNER_OWNER 15).setCore 15
    { ctx := { g := [(0, 0x10003C000000)], loops := [⟨0, 0, 2⟩] }, loads := [⟨true, 31, 0x10003C000000⟩], fps := [⟨true, 31, 5, true⟩, ⟨false, 63, 7, false⟩] }

theorem witness_loop_end : (scalarCore.ctx 15).loops = [⟨0, 0, 2⟩] ∧ (scalarCore.ctx 15).pc = 0 ∧ (scalarCore.ctx 15).getG 0 ≠ 0 := by decide

theorem witness_fp_result : (scalarCore.core 15).fps = [⟨true, 31, 5, true⟩] ++ ⟨false, 63, 7, false⟩ :: [] ∧
    (∀ x ∈ [(⟨true, 31, 5, true⟩ : PendFp)], x.slow ≠ false) := by decide

theorem witness_load_reach : scalarCore.scalarBank 15 0x10003C000000 = some 960 ∧ scalarCore.scalarBank 15 0x10003C000004 = none := by decide +kernel

theorem witness_load_return : (scalarCore.core 15).loads[0]? = some ⟨true, 31, 0x10003C000000⟩ ∧ scalarCore.poison = [] ∧ scalarCore.spd.ecc = [] ∧
    ∀ i, i < 8 → scalarCore.hit (scalarCore.coreAgent 15) false (0x10003C000000 + i) = .ok (0x10003C000000 + i) := by decide +kernel

theorem witness_store : (((coreUp.setFld (R.SPD_BANK_OWNER 960) F.SPD_BANK_OWNER_OWNER 15).core 15).loads = [] ∧
    ∀ i, i < 8 → (coreUp.setFld (R.SPD_BANK_OWNER 960) F.SPD_BANK_OWNER_OWNER 15).hit ⟨15, none, false⟩ true (0x10003C000000 + i) = .ok (0x10003C000000 + i)) := by
  decide +kernel

/-! VectorElementwiseOperations -/

/-- Core 15 with descriptors 0 to 3 of one INT16 element each in its first bank, their words in the order R199 gives them. -/
def vecCore : State :=
  (coreUp.setFld (R.SPD_BANK_OWNER 960) F.SPD_BANK_OWNER_OWNER 15).setCore 15
    { ctx := { desc := [(0, 0x10003C000000), (1, 0x1), (3, 0xFFFF000B00000000), (4, 0x10003C000010), (5, 0x1), (7, 0xFFFF000B00000000),
                        (8, 0x10003C000020), (9, 0x1), (11, 0xFFFF000B00000000)] } }

theorem witness_vector : (let s := vecCore
     let d := descOf (s.desc 15 0)
     let a := descOf (s.desc 15 1)
     s.coreRuns 15 = true ∧ d.format = some .int16 ∧ s.checkOperand 15 d vecWrites d.rows = .go ∧ s.vecCheck 15 a d.elems = .go ∧
     s.vecCheck 15 (descOf (s.desc 15 2)) d.elems = .go) := by decide +kernel

theorem witness_vector_quiet (d : Desc) (rows : Nat) : vecCore.quietRead 15 d rows :=
  ⟨State.readOperand_clean _ _ _ _ (by decide) (by decide), State.readOperand_quiet _ _ _ _ (by decide) (by decide) (by decide)⟩

/-! VectorReductionsAndStatistics -/

theorem witness_reduce : (let s := vecCore
     let d := descOf (s.desc 15 0)
     let a := descOf (s.desc 15 1)
     s.coreRuns 15 = true ∧ d.format = some .int16 ∧ s.checkOperand 15 d vecWrites d.rows = .go ∧ s.checkOperand 15 a vecReads d.elems = .go) := by
  decide +kernel

/-- As vecCore: descriptor 0 holds a pair of FP32, descriptor 1 one FP32, descriptor 2 one block code, descriptor 3 one scale; 0 names 1 and 2 names 3. -/
def statCore : State :=
  (coreUp.setFld (R.SPD_BANK_OWNER 960) F.SPD_BANK_OWNER_OWNER 15).setCore 15
    { ctx := { desc := [(0, 0x10003C000000), (1, 0x2), (3, 0x0001000100000000), (4, 0x10003C000010), (5, 0x1), (7, 0xFFFF000100000000),
                        (8, 0x10003C000020), (9, 0x1), (11, 0x0003000400000000), (12, 0x10003C000030), (13, 0x1), (15, 0xFFFF000900000000)] } }

theorem witness_quiet_stat (d : Desc) (rows : Nat) : statCore.quietRead 15 d rows :=
  ⟨State.readOperand_clean _ _ _ _ (by decide) (by decide), State.readOperand_quiet _ _ _ _ (by decide) (by decide) (by decide)⟩

theorem witness_smlse : (let s := statCore
     let d := descOf (s.desc 15 1)
     let a := descOf (s.desc 15 0)
     s.coreRuns 15 = true ∧ d.format = some .fp32 ∧ a.f32Pairs = true ∧ s.checkOperand 15 d vecWrites d.rows = .go ∧
     s.checkOperand 15 a vecReads d.elems = .go) := by decide +kernel

theorem witness_statistics : (let s := statCore
     let d := descOf (s.desc 15 0)
     let a := descOf (s.desc 15 1)
     s.coreRuns 15 = true ∧ d.format = some .fp32 ∧ d.d0 = 2 ∧ s.checkOperand 15 d vecWrites d.rows = .go ∧ s.checkOperand 15 a vecReads d.rows = .go ∧
     s.auxDesc 15 (s.desc 15 0) = some (s.desc 15 1) ∧ a.elems = d.rows ∧ s.checkOperand 15 a (fun _ => true) a.rows = .go) := by decide +kernel

theorem witness_bquant : (let s := statCore
     let d := descOf (s.desc 15 2)
     let a := descOf (s.desc 15 1)
     let sc := descOf (s.desc 15 3)
     d.format = some .e4m3 ∧ s.checkOperand 15 d isBlock d.rows = .go ∧
     s.checkOperand 15 a (fun f => f == .fp32 || f == .bf16 || f == .fp16) (a.rowsFor d.elems) = .go ∧
     s.auxDesc 15 (s.desc 15 2) = some (s.desc 15 3) ∧ sc.format = some .e8m0 ∧ sc.layout = 0 ∧ sc.d0 = (d.d0 + 31) / 32 ∧ sc.d1 = d.d1 ∧
     sc.d2 = d.d2 ∧ sc.d3 = d.d3 ∧ s.checkOperand 15 sc (fun _ => true) d.rows = .go) := by decide +kernel

/-! EnginesStopOnIllegalOperands -/

theorem witness_illegal_destination : coreUp.coreRuns 15 = true ∧
    coreUp.checkOperand 15 (descOf (coreUp.desc 15 0)) vecWrites (descOf (coreUp.desc 15 0)).rows = .illegal ∧
    vecCore.checkOperand 15 { descOf (vecCore.desc 15 0) with base := 0 } vecWrites 1 = .denied 0 := by decide +kernel

/-! TransferOperationsMoveTensors -/

/-- Core 15 owns its first bank. Descriptor 0 holds one byte, 1 the two bytes after it, 2 a blocked pixel of one channel, 3 a row of 16, 4 room for a stream, 5 a stream of one element. -/
def xferCore : State :=
  ((coreUp.setFld (R.SPD_BANK_OWNER 960) F.SPD_BANK_OWNER_OWNER 15).setCore 15
    { ctx := { desc := [(0, 0x10003C000000), (1, 0x1), (3, 0xFFFF000D00000000), (4, 0x10003C000010), (5, 0x2), (7, 0xFFFF000D00000000),
                        (8, 0x10003C000020), (9, 0x1), (11, 0xFFFF010D00000000), (12, 0x10003C000040), (13, 0x10), (15, 0xFFFF000D00000000),
                        (16, 0x10003C000080), (17, 0x34), (19, 0xFFFF000D00000000), (20, 0x10003C0000C0), (21, 0x14), (23, 0xFFFF000D00000000)] } }).wrBytes
    0x10003C0000C0 (zStream 13 8 0 [0])

theorem witness_xfer_bytes : xferCore.coreRuns 15 = true ∧ xferCore.opReads 15 = false ∧ xferCore.setCore 15 (xferCore.core 15) = xferCore ∧
    (let d := descOf (xferCore.desc 15 0)
     let x := descOf (xferCore.desc 15 1)
     d.format = some .uint8 ∧ d.layout = 0 ∧ d.d0 = 1 ∧ d.d1 = 1 ∧ d.d2 = 1 ∧ d.d3 = 1 ∧ x.format = some .uint8 ∧ x.d0 = 2 ∧
     xferCore.hit (xferCore.coreAgent 15) true d.base = .ok d.base ∧ xferCore.hit (xferCore.coreAgent 15) false x.base = .ok x.base) := by
  decide +kernel

theorem witness_xfer_copy : (let s := xferCore
     let d := descOf (s.desc 15 0)
     let x := descOf (s.desc 15 1)
     s.xferShape d true = some .uint8 ∧ s.xferShape x true = some .uint8 ∧ d.elems ≤ x.elems ∧
     (let y := s.xferGather 15 8 d.elems (x.runsFor 8 ((d.elems + x.d0 - 1) / x.d0)) 0
      y.2 = s ∧ y.1.wait = false ∧ y.1.bad = none ∧ y.1.far = [] ∧ (s.xferParts 15 8 (d.runs 8) y.1.parts).2 = false)) := by decide +kernel

theorem witness_im2col : (let s := xferCore
     let d := { descOf (s.desc 15 3) with d2 := 1, d3 := 1 }
     let x := { descOf (s.desc 15 2) with d3 := 1 }
     d.format = some .uint8 ∧ s.xferShape x false = some .uint8 ∧ x.cb = some 16 ∧ d.layout = 0 ∧ 16 ≤ d.d0 ∧
     (runsSpan (x.runs 8)).2 ≤ (runsSpan (d.runs 8)).1 ∧
     (let y := s.xferGather 15 8 (runsElems (x.wholeRuns 8)) (x.wholeRuns 8) 0
      y.2 = s ∧ y.1.wait = false ∧ y.1.bad = none ∧ y.1.far = [] ∧ (s.xferParts 15 8 (d.runs 8) [(0, List.replicate 16 0)]).2 = false)) := by decide +kernel

theorem witness_zcomp : (let s := xferCore
     let d := descOf (s.desc 15 4)
     let x := descOf (s.desc 15 0)
     s.xferShape x false = some .uint8 ∧ d.isBytes = true ∧ 16 + (runsElems (x.wholeRuns 8) + 31) / 32 * (4 + 4 * 8) ≤ d.d0 ∧
     (let y := s.xferGather 15 8 (runsElems (x.wholeRuns 8)) (x.wholeRuns 8) 0
      y.2 = s ∧ y.1.wait = false ∧ y.1.bad = none ∧ y.1.far = [] ∧ (s.xferWrite 15 d.base (zStream x.fmt 8 0 (gathered y.1.parts))).2 = false)) := by
  decide +kernel

theorem witness_zdecomp : (let s := xferCore
     let d := descOf (s.desc 15 0)
     let x := descOf (s.desc 15 5)
     let y := s.xferGather 15 8 (runsElems (x.runs 8)) (x.runs 8) 0
     let bytes : List Byte := (gathered y.1.parts).map (fun c => BitVec.ofNat 8 c)
     s.xferShape d false = some .uint8 ∧ x.isBytes = true ∧ y.2 = s ∧ y.1.wait = false ∧ y.1.bad = none ∧ y.1.far = [] ∧
     16 ≤ bytes.length ∧ sliceN bytes 14 1 = d.fmt ∧ sliceN bytes 8 6 = runsElems (d.wholeRuns 8) ∧ leNat (bytes.take 8) ≤ bytes.length ∧
     (zExpand 8 0 ((bytes.take (leNat (bytes.take 8))).drop 16) 1 1) = ([0], false) ∧ (s.xferParts 15 8 (d.wholeRuns 8) [(0, [0])]).2 = false) := by
  decide +kernel

/-! BanksServeOneLineAStep -/

/-- A narrow access of core 0's transfer engine at offset 8 of bank 0, and one of its matrix engine. -/
def accX (w : Option (List Byte)) : BankAccess := { port := 0, age := 0, req := .core 0, off := 8, wide := false, wdata := w, ecc := [] }
def accY (w : Option (List Byte)) : BankAccess := { port := 7, age := 5, req := .core 0, off := 15, wide := true, wdata := w, ecc := [] }

theorem witness_bank_read : coreUp.headHeld 960 (accX none) = false ∧ coreUp.coreActive 15 = true ∧
    coreUp.fld (R.SPD_BANK_PWR 960) F.SPD_BANK_PWR_STATE = 0 ∧ coreUp.poison = [] ∧ coreUp.spd.ecc = [] := by decide

theorem witness_bank_writes : coreUp.headHeld 1279 (accX (some (List.replicate 8 1))) = false ∧ coreUp.headHeld 1279 (accY (some [])) = false ∧
    coreUp.fld (R.SPD_BANK_PWR 1279) F.SPD_BANK_PWR_STATE = 0 ∧ (List.replicate 8 (1 : Byte)).length = (accSpan (accX none)).2 ∧
    accTouches (accX none) (accY none) = true ∧ (accX none).port < (accY none).port := by decide

/-! BankOwnershipAndPower -/

/-- A state past the boot, with bank 1279 a shared bank of canton 0. -/
def bankState : State :=
  (((coreUp.setFld R.SEC_BOOT_STAT F.SEC_BOOT_STAT_STAGE 3).setFld (R.SPD_BANK_CFG 1279) F.SPD_BANK_CFG_ASSIGNED 1).setFld (R.SPD_BANK_CFG 1279)
    F.SPD_BANK_CFG_REGION_FIRST 1279)

theorem witness_owner_write : bankState.takesWrite .host (R.SPD_BANK_OWNER 1279) = true ∧ bankState.ownerAllowed 1279 0x10 = true ∧
    bankState.bankBusy 1279 = false ∧ bankState.fld (R.SPD_BANK_OWNER 1279) F.SPD_BANK_OWNER_OWNER ≠ 0x10 ∧ bankState.regionBanks 1279 = [1279] := by decide +kernel

theorem witness_power_write : bankState.takesWrite .host (R.SPD_BANK_PWR 1279) = true ∧ bankState.bankBusy 1279 = false ∧
    bankState.takesWrite .host (R.CORE_INJECT 15) = true := by decide +kernel

theorem witness_power_done : (bankState.setFld (R.SPD_BANK_PWR 1279) F.SPD_BANK_PWR_TRANSITION 1).bit (R.SPD_BANK_PWR 1279) F.SPD_BANK_PWR_TRANSITION = true := by
  decide +kernel

/-! ScratchpadMaintenanceCorrects -/

/-- A single-bit error in column 5 of the first word of shared bank 1279's last line, which waits for its write-back. -/
def errWord : Nat := bankBase 1279 + 2047 * 256
def errState : State := { State.reset with spd := { State.reset.spd with ecc := [(errWord, 11)], wb := [errWord] } }

theorem witness_writeback : errState.wf = true ∧ errWord ∈ errState.badWords 1279 2047 ∧ errWord ∈ errState.spd.wb ∧ Store.get (fun _ => 0) errState.spd.ecc errWord % 2 = 1 := by decide

theorem witness_patrol : errState.patrolled (bankOfKey errWord) = true ∧ bankOfKey errWord = 1279 ∧ (errWord - bankBase 1279) / 256 = 2047 ∧
    Store.get (fun _ => 0) (errState.setFld R.FLT_POLICY F.FLT_POLICY_COLUMN_THRESH 2).rep.cols (1279 * 4096 + 5) + 1 ≠
      max 1 ((errState.setFld R.FLT_POLICY F.FLT_POLICY_COLUMN_THRESH 2).fld R.FLT_POLICY F.FLT_POLICY_COLUMN_THRESH) := by decide

/-- A column repair of bank 1279 after all its lines, with another behind it. -/
def repairState : State :=
  { ((errState.setFld R.SPD_REPAIR F.SPD_REPAIR_ACTIVE 1).setFld R.SPD_REPAIR F.SPD_REPAIR_LINES 2048) with
    rep := { errState.rep with colq := [(1279, 5), (0, 7)] } }

theorem witness_repair : repairState.rep.colq = (1279, 5) :: [(0, 7)] ∧ repairState.bit R.SPD_REPAIR F.SPD_REPAIR_ACTIVE = true ∧
    repairState.fld R.SPD_REPAIR F.SPD_REPAIR_LINES = 2048 ∧ (repairState.setFld R.SPD_REPAIR F.SPD_REPAIR_LINES 2047).fld R.SPD_REPAIR F.SPD_REPAIR_LINES < 2048 := by
  decide

/-! MemoryControllersServeAndRetire -/

/-- Four stacks and a booted management of them. -/
def hbmState : State := (State.reset.setFld R.GLB_CAPS F.GLB_CAPS_HBM_STACKS 4).setFld R.SEC_BOOT_STAT F.SEC_BOOT_STAT_STAGE 3

theorem witness_hbm : 0 + min 256 256 ≤ hbmState.hbmBytes ∧ hbmState.poison = [] ∧ (127 : Nat) < 2 ^ hbmState.pcBits ∧
    hbmState.hears .mgt R.HBM_RETIRE_REQ = true ∧ F.HBM_RETIRE_REQ_ADDR.get 1024 < hbmState.hbmBytes ∧ hbmState.hbm.rows = [] ∧ hbmState.hbm.held = [] := by decide +kernel

theorem witness_row_held : { hbmState with hbm := { hbmState.hbm with held := [2 ^ 28 - 1] } }.hbm.held = [2 ^ 28 - 1] ∧ hbmState.fusesFull = false := by decide +kernel

/-! RetrainingAndTemperatures -/

theorem witness_retrain : hbmState.takesWrite .host R.HBM_RETRAIN_CTL = true ∧ hbmState.hbm.retrain = none ∧ hbmState.hbmChannel 63 = true ∧
    { hbmState with hbm := { hbmState.hbm with retrain := some 63 } }.hbm.retrainq = [] ∧ hbmState.fld R.GLB_CAPS F.GLB_CAPS_HBM_STACKS = 4 ∧
    (hbmState.writeFields R.HBM_RETRAIN_CTL .full (2 ^ F.HBM_RETRAIN_CTL_REQ.lo)).fld R.HBM_RETRAIN_CTL F.HBM_RETRAIN_CTL_CH = 0 := by decide +kernel

/-! EdgeCommandsComputeTheirLayer -/

/-- A parameter block at address 4096: a UINT8 image of one pixel and channel, written as the same. -/
def edgeBlock (w : List Byte) (kh kw stride : Byte) : List Byte :=
  let d (base aux : Nat) : List Byte := leBytes base 8 ++ leBytes 0x1000100010001 8 ++ leBytes 0 8 ++ leBytes (aux * 2 ^ 48 + 13 * 2 ^ 32 + 2 ^ 40) 8
  d 8192 0xFFFF ++ d 12288 0xFFFF ++ w ++ leBytes 0 8 ++ [0, kh, kw, stride] ++ leBytes 0 8 ++ leBytes 0 8 ++ leBytes 0 4

/-- A one-tap weight row of INT8 at 16384 and its FP32 output, for CONV. -/
def convBlock : List Byte :=
  let d (base fmt lay : Nat) : List Byte := leBytes base 8 ++ leBytes 0x1000100010001 8 ++ leBytes 0 8 ++ leBytes (0xFFFF * 2 ^ 48 + fmt * 2 ^ 32 + lay * 2 ^ 40) 8
  d 8192 13 1 ++ d 12288 1 1 ++ d 16384 12 0 ++ leBytes 0 8 ++ [0, 1, 1, 1] ++ leBytes 0 8 ++ leBytes 0 8 ++ leBytes 0 4

/-- Queue 8 is bound to edge engine 0 and executes a command with its block at 4096. -/
def edgeCmd (op : Nat) : Cmd := cmdOf op (leBytes 4096 8) .running
def edgeState (op : Nat) (block : List Byte) : State :=
  ((((State.reset.setFld (R.QUE_CFG 8) F.QUE_CFG_ACTIVE 1).setFld (R.QUE_CFG 8) F.QUE_CFG_UNIT 3).setFld R.GLB_CAPS F.GLB_CAPS_HBM_STACKS 4).setQueue 8
    { cmds := [edgeCmd op] }).wrBytes 4096 block

theorem witness_edge_pool : (let s := edgeState 2 (edgeBlock (List.replicate 32 0) 1 1 1)
     let g := edgeAgent (s.qInst 8) (s.qCanton 8)
     let p := edgeP (s.readMem g 4096 128).bytes
     let od := p.outDesc false
     s.atUnit 8 3 (edgeCmd 2) = true ∧ (edgeCmd 2).pl 0 8 = 4096 ∧ s.unitSpan g 4096 128 = true ∧ zeroBytes (edgeCmd 2).desc 32 32 = true ∧
     p.badPool = false ∧ p.badResize = false ∧ s.unitRuns g (({ p.i with d3 := 1 } : Desc).runs 8) = true ∧
     s.unitRuns g (od.runsFor 8 (od.d1 * od.d2)) = true ∧ (edgeCmd 2).fmtDiffers 0 p.i.fmt = false ∧ (edgeCmd 2).fmtDiffers 2 p.o.fmt = false) := by decide +kernel

theorem witness_edge_conv : (let s := edgeState 1 convBlock
     let g := edgeAgent (s.qInst 8) (s.qCanton 8)
     let p := edgeP (s.readMem g 4096 128).bytes
     p.badConv = false ∧ (edgeCmd 1).opcode = 1 ∧ (edgeCmd 1).fmtDiffers 1 p.w.fmt = false ∧ s.unitRuns g (p.w.runs 8) = true ∧ p.req = 0) := by decide +kernel

theorem witness_edge_resize : (let s := edgeState 3 (edgeBlock (List.replicate 32 0) 1 1 1)
     s.qInst 8 < 2 ∧ s.atUnit 8 3 (edgeCmd 3) = true ∧ (edgeCmd 3).opcode = 3) := by decide +kernel

/-! EdgeFaultsStopTheCommand -/

theorem witness_edge_bad : (let s := edgeState 2 (List.replicate 128 0)
     let p := edgeP (s.readMem (edgeAgent (s.qInst 8) (s.qCanton 8)) 4096 128).bytes
     s.qInst 8 < 2 ∧ p.badPool = true ∧ p.badConv = true ∧ p.badResize = true) := by decide +kernel

/-! KvCommandsWorkOnTheirContext -/

/-- Queue 7 drives the KV manager of canton 0, whose class 0 holds INT8 heads and whose pool starts at 2 MiB; context 5 may stand open with one list of 4 entries at its map. -/
def kvCmd (op : Nat) (pl : List Byte) : Cmd := { cmdOf op pl .running with desc := (cmdDesc op pl).set 2 5 }
def kvState (op : Nat) (pl : List Byte) (isOpen : Bool) : State :=
  let s0 := (((unitState 4 0 (kvCmd op pl)).setFld (R.KV_POOL_CFG 0) F.KV_POOL_CFG_BASE 1).setFld (R.KV_POOL_USE 0) F.KV_POOL_USE_LEN_4K 512).setFld
    (R.KV_POOL_USE 0) F.KV_POOL_USE_FREE_4K 512
  let s1 : State := { s0 with kv := { s0.kv with classes := [(0, { ({} : KvClass) with heads := 1, logD := 5, fmt := 12 })] } }
  let s2 := (s1.setFld (R.KV_IDX_CFG 0) F.KV_IDX_CFG_COUNT 16)
  if isOpen then
    (((s2.setFld (R.KV_CTX_STAT 5) F.KV_CTX_STAT_OPEN 1).setFld (R.KV_CTX_STAT 5) F.KV_CTX_STAT_LAYERS 1).setFld (R.KV_CTX_STAT 5) F.KV_CTX_STAT_LIST_LEN 4).setFld
      (R.KV_CTX_MAP 5) F.KV_CTX_MAP_ADDR 512
  else s2

/-- OPEN of one list of 4 entries with a decay of 1. -/
def kvOpenPl : List Byte := leBytes 0 2 ++ leBytes 1 2 ++ leBytes 4 2 ++ leBytes 0 2 ++ leBytes 0 4 ++ leBytes 0x3F800000 4

theorem witness_kv_open : (let s := kvState 1 kvOpenPl false
     let c := kvCmd 1 kvOpenPl
     s.atUnit 7 4 c = true ∧ c.opcode = 1 ∧ c.context = 5 ∧ s.bit (R.KV_CTX_STAT 5) F.KV_CTX_STAT_OPEN = false ∧ (s.kvClass 0 0).heads ≠ 0 ∧ c.pl 2 2 = 1 ∧
     c.pl 4 2 = 4 ∧ valZero.lt (ofF32 (c.pl 12 4)) = true ∧ valOne.lt (ofF32 (c.pl 12 4)) = false ∧ zeroBytes c.desc 40 24 = true ∧
     c.fmtDiffers 0 (s.kvClass 0 0).fmt = false ∧ (s.kvBegin 7 c 0).freeBlock 0 (mapBytes 1 4) = some (2 ^ 21)) := by decide +kernel

theorem witness_kv_empty_context (op : Nat) (h : op ∈ [2, 3, 4, 5, 6, 7, 8, 9]) : (let s := kvState op [] true
     let c := kvCmd op []
     let b := s.kvBegin 7 c 0
     let k := b.kvCtx 5
     s.atUnit 7 4 c = true ∧ c.opcode = op ∧ s.bit (R.KV_CTX_STAT 5) F.KV_CTX_STAT_OPEN = true ∧ k.x = 5 ∧ k.layers = 1 ∧
     (b.kvLists k).all (fun l => l.ents.isEmpty) = true ∧ zeroBytes c.desc 24 40 = true ∧ s.srcBad (c.pl 8 8) = false ∧
     Store.get (fun _ => none) s.kv.commit 5 = none ∧ c.fmtDiffers 0 (s.kvClass k.canton k.cls).fmt = false ∧
     (({ s := b, ls := b.kvLists k } : KvWork).commitLists k [] []).isSome = true) := by
  revert op; decide +kernel

/-- APPEND of one token to one list, pages of 16. -/
def kvAppendPl : List Byte := leBytes 0 2 ++ leBytes 1 2 ++ leBytes 1 2 ++ [4, 0]

theorem witness_kv_source : (let s := kvState 3 kvAppendPl true
     let x := (s.kvBegin 7 (kvCmd 3 kvAppendPl) 0).readMem (kvAgent 0) 0 64
     x.wait = false ∧ x.bytes = List.replicate 64 0 ∧ s.poison = [] ∧ s.spd.ecc = []) := by decide +kernel

theorem witness_kv_append : (let s := kvState 3 kvAppendPl true
     let c := kvCmd 3 kvAppendPl
     let b := s.kvBegin 7 c 0
     let k := b.kvCtx 5
     let w : KvWork := { s := b, ls := b.kvLists k }
     c.pl 4 2 = 1 ∧ c.pl 8 8 = 0 ∧ k.tb = 64 ∧ c.pl 6 1 = 4 ∧ (w.list 0).spec = 0 ∧ (w.list 0).ents.length + (w.list 0).newPages 1 4 ≤ k.listLen ∧
     (match w.appendLists k 0 4 16 false (fun i j => ((List.replicate 64 0).drop ((i * 1 + j) * 64)).take 64) 1 1 with
      | some u => u.fits k
      | none => false) = true) := by decide +kernel

/-! SolverStartsIteratesAndEnds -/

/-- Queue 7 drives the solver of canton 0, queue 9 is its solver-fed queue, and a parameter block stands at 4096. -/
def solCmd (op : Nat) (ph : Phase) : Cmd := cmdOf op (leBytes 4096 8) ph
def solState (op : Nat) (ph : Phase) (block : List Byte) (x : SolSt) : State :=
  let s0 := (((unitState 5 0 (solCmd op ph)).setFld (R.QUE_CFG 9) F.QUE_CFG_ACTIVE 1).setFld (R.QUE_CFG 9) F.QUE_CFG_UNIT 1).setFld (R.QUE_CFG 9) F.QUE_CFG_SOLVER_FED 1
  { s0.wrBytes 4096 block with sol := x }

/-- One problem of one unknown and one residual; and one observation of one point by one camera of 6 parameters. -/
def denseBlock : List Byte :=
  leBytes 8192 8 ++ leBytes 12288 8 ++ leBytes 16384 8 ++ leBytes 20480 8 ++ leBytes 0 8 ++ leBytes 0 8 ++ leBytes 1 2 ++ [1, 0] ++ leBytes 1 2 ++ leBytes 0 6 ++
  [0, 0] ++ leBytes 5 2 ++ leBytes 9 2 ++ List.replicate 62 0
def baBlock : List Byte :=
  leBytes 8192 8 ++ leBytes 12288 8 ++ leBytes 16384 8 ++ leBytes 20480 8 ++ leBytes 24576 8 ++ leBytes (2 ^ 22) 8 ++ leBytes 1 4 ++ leBytes 1 4 ++ leBytes 1 2 ++ [6, 1] ++
  [0, 0] ++ leBytes 5 2 ++ leBytes 9 2 ++ List.replicate 54 0 ++ leBytes 40000 8

theorem witness_solve_dense : (let s := solState 1 .running denseBlock {}
     let c := solCmd 1 .running
     let a := solP false (s.readMem (solAgent 0) 4096 128).bytes
     s.atUnit 7 5 c = true ∧ c.opcode = 1 ∧ s.unitSpan (solAgent 0) 4096 128 = true ∧ zeroBytes c.desc 32 32 = true ∧ a.bad = false ∧ a.queue = 9 ∧
     s.solverFedOf 9 0 = true ∧ c.fmtDiffers 0 0 = false ∧ (s.readMem (solAgent 0) 4096 128).wait = false ∧ a.x0 = 8192 ∧ a.count * a.n * a.b = 8 ∧
     (s.readMem (solAgent 0) 8192 8).wait = false) := by decide +kernel

theorem witness_solve_dense_areas : (let s := solState 1 .running denseBlock {}
     s.areaBad (solAgent 0) false 8192 8 = false ∧ s.areaBad (solAgent 0) true 12288 8 = false ∧ s.areaBad (solAgent 0) true 16384 32 = false ∧
     s.areaBad (solAgent 0) true 20480 257 = false) := by decide +kernel

theorem witness_solve_ba : (let s := solState 2 .running baBlock {}
     let c := solCmd 2 .running
     let a := solP true (s.readMem (solAgent 0) 4096 128).bytes
     s.atUnit 7 5 c = true ∧ c.opcode = 2 ∧ a.bad = false ∧ a.queue = 9 ∧ (obsOf (s.readMem (solAgent 0) a.slot (8 * a.no)).bytes a.no).2 = true ∧
     obsSorted (obsOf (s.readMem (solAgent 0) a.slot (8 * a.no)).bytes a.no).1 = true ∧ a.np = 1 ∧ a.nc = 1) := by decide +kernel

theorem witness_solver_return : (let p : SolProb := { x := [valZero], best := [valZero], lam := valZero }
     let s := solState 1 .running denseBlock { run := some 7, par := denseBlock, out := true, result := some stDone, probs := [p] }
     s.sol.run = some 7 ∧ s.head 7 = some (solCmd 1 .running) ∧ (solCmd 1 .running).cut = false ∧ (solCmd 1 .stopping).cut = true) := by decide +kernel

/-! ControlSamplesRunTheirSequence -/

/-- Group 7 runs on slot 511, an FP32 input slot; its phase and samples as given. -/
def ctlState (x : Grp) : State :=
  (((State.reset.setFld (R.CTL_GROUP_CFG 7) F.CTL_GROUP_CFG_ACTIVE 1).setFld (R.CTL_SLOT_CFG 511) F.CTL_SLOT_CFG_ACTIVE 1).setFld
    (R.CTL_SLOT_CFG 511) F.CTL_SLOT_CFG_GROUP 7).setGrp 7 x

theorem witness_control_sequence : (ctlState { phase := .snapped }).groupSlots 7 = [511] ∧ (ctlState {}).groupSels 7 = [] ∧
    (ctlState {}).groupPorts 7 = [] ∧ (ctlState {}).bit (R.CTL_SLOT_CFG 511) F.CTL_SLOT_CFG_OUT_BOUND = false ∧ ((ctlState {}).slot 511).coef = [] ∧
    (ctlState {}).traceState 3 = 0 ∧ ((ctlState { phase := .fired }).grp 7).phase = .fired ∧
    ((ctlState { phase := .evaluated }).grp 7).phase = .evaluated := by decide +kernel

theorem witness_control_law_sums : ∀ j, j ≤ 7 → -9223372036854775808 ≤ ((List.replicate 7 (0 : Int)).take j).sum ∧
    ((List.replicate 7 (0 : Int)).take j).sum ≤ 9223372036854775807 := by decide

theorem witness_control_latch : ((ctlState { ready := [{ slots := [(511, -5, 0)], codes := [(47, -5)] }] }).grp 7).ready.find?
      (fun x => (ctlState {}).latchDue 7 x.stamp) = some { slots := [(511, -5, 0)], codes := [(47, -5)] } ∧
    pwmMode ((ctlState {}).actMode 47) = false := by decide +kernel

theorem witness_control_latch_waits : (let s := (State.reset.setFld (R.SIO_ACT_CFG 0) F.SIO_ACT_CFG_MODE 1).setFld (R.SIO_ACT_TIMING 0) F.SIO_ACT_TIMING_PERIOD 100
     let t := { s with time := { s.time with ns := 8 } }
     pwmMode (t.actMode 0) = true ∧ t.actValley 0 = 0 ∧ t.nowNs = 8) := by decide +kernel

theorem witness_control_overrun : (ctlState { phase := .snapped }).latchDue 7 0 = true ∧
    (ctlState {}).takesWrite .mgt (R.CTL_SLOT_IN 511) = true ∧ (ctlState {}).takesWrite .mgt (R.CTL_GROUP_CTL 7) = true := by decide +kernel

theorem witness_trace_sets : State.reset.hears .mgt (R.CTL_TRACE_CFG 3) = true ∧ State.reset.traceMay .mgt 0 = true ∧
    State.reset.hears .mgt (R.CTL_TRACE_TRIG 3) = true ∧ State.reset.channelsFit 3 0 = true ∧ isTraceReg (R.CTL_TRACE_TRIG 3) = true ∧
    (State.reset.setFld (R.CTL_TRACE_STAT 3) F.CTL_TRACE_STAT_STATE 2).traceState 3 = 2 := by decide +kernel

/-! SensorsAndActuators -/

/-- A BiSS-C port that acquires a frame for stamp 5. -/
def sensorState : State := (State.reset.setFld (R.SIO_SP_CFG 23) F.SIO_SP_CFG_MODE 1).setSport 23 { acq := some 5 }

theorem witness_sensor : (sensorState.sport 23).acq = some 5 ∧ sensorState.replays 3 = false ∧ sensorState.bit R.DET_REC_CTL F.DET_REC_CTL_ENABLE = false ∧
    sensorState.spMode 23 = 1 ∧ ((sensorState.setFld (R.SIO_SP_CFG 23) F.SIO_SP_CFG_BITS 7).spCheck 23 2 0) = 0 ∧
    ((sensorState.setReg (R.SIO_SP_WORDB 23) 0x0800000000000000).wordSpec 23 7).testBit 11 = true ∧ (sensorState.wordSpec 23 0).testBit 11 = false := by decide +kernel

/-- Output 46 in a mode, with what it holds. -/
def actState (m : Nat) (x : Act) : State :=
  ((((State.reset.setFld (R.SIO_ACT_CFG 46) F.SIO_ACT_CFG_ACTIVE 1).setFld (R.SIO_ACT_CFG 46) F.SIO_ACT_CFG_MODE m).setFld
    (R.SIO_ACT_CFG 46) F.SIO_ACT_CFG_FULL_SCALE 100).setFld (R.SIO_ACT_TIMING 46) F.SIO_ACT_TIMING_PERIOD 100).setAct 46 x

theorem witness_pwm_valley : pwmMode ((actState 2 { pend := some 50 }).actMode 46) = true ∧ (actState 2 { pend := some 50 }).actBase 46 = 46 ∧
    (actState 2 {}).actPeriod 46 = 100 ∧ ((actState 2 { pend := some 50 }).act 46).valley = none ∧ actClips 2 100 100 50 = false ∧
    actClips 1 100 100 101 = true ∧ actClips 2 100 100 (-101) = true := by decide +kernel

theorem witness_step_carry : 2 ^ 40 ≤ (actState 4 { acc := 2 ^ 40 }).stepAcc 46 ∧ (actState 4 {}).actMode 46 = 4 ∧
    ((actState 4 { acc := 2 ^ 40 }).act 46).lastPulse = none ∧ ((actState 4 { lastPulse := some 0 }).setFld (R.SIO_ACT_TIMING 46) F.SIO_ACT_TIMING_MIN_ON 1).actMinOn 46 = 1 := by decide +kernel

/-! ControlCommandsStageAndTrace -/

/-- Queue 7 drives the control engine of canton 0 with a command; slot 511 is active there; entries stand at 4096. -/
def ctlCmd (op : Nat) : Cmd := cmdOf op (if op = 4 then leBytes 3 8 ++ leBytes 8192 8 else leBytes 4096 8 ++ leBytes 1 2) .running
def ctlCmdState (op : Nat) : State :=
  ((unitState 6 0 (ctlCmd op)).setFld (R.CTL_SLOT_CFG 511) F.CTL_SLOT_CFG_ACTIVE 1).wrBytes 4096 (leBytes 511 2)

theorem witness_control_entries : (let s := ctlCmdState 2
     let c := ctlCmd 2
     let x := s.readMem (ctlAgent 0) 4096 40
     s.atUnit 7 6 c = true ∧ zeroBytes c.desc 34 30 = true ∧ c.pl 8 2 = 1 ∧ c.opcode = 2 ∧ s.ctlAddrBad 4096 = false ∧ x.wait = false ∧
     s.qCanton 7 = 0 ∧ s.slotOf 0 (sliceN x.bytes 0 2) = true ∧ sliceN x.bytes 2 2 = 0 ∧ sliceN x.bytes 32 8 = 0 ∧ c.fmtDiffers 0 0x11 = false) := by decide +kernel

theorem witness_control_trace_read : (let s := (ctlCmdState 4).setFld (R.CTL_TRACE_STAT 3) F.CTL_TRACE_STAT_STATE 3
     let c := ctlCmd 4
     s.atUnit 7 6 c = true ∧ zeroBytes c.desc 25 7 = true ∧ zeroBytes c.desc 40 24 = true ∧ c.pl 0 1 = 3 ∧ c.pl 8 8 = 8192 ∧ s.traceState 3 = 3 ∧
     (s.traceBytes 3).length = 32 ∧ s.unitSpan (ctlAgent 0) 8192 32 = true ∧ ∀ i, i < 32 → s.hit (ctlAgent 0) true (8192 + i) = .ok (8192 + i)) := by decide +kernel

/-! CanControllersSendReceiveAndRecover -/

/-- Controller 7 on the bus, buffer 63 set up as given. -/
def canState' (ctrl : Word) (x : CanSt) : State :=
  ((State.reset.setFld (R.CAN_CFG 7) F.CAN_CFG_ACTIVE 1).setReg (R.CAN_MB_CTRL 7 63) ctrl).setCan 7 x

theorem witness_can_receive : (canState' 0x0000800000000000 {}).canOn 7 = true ∧ (canState' 0 {}).replays 2 = false ∧
    (canState' 0x0000800000000000 {}).mbTakes 7 ⟨false, false, false, false, false, 8, 0, []⟩ 63 = true ∧
    (∀ j, j < 63 → (canState' 0x0000800000000000 {}).mbTakes 7 ⟨false, false, false, false, false, 8, 0, []⟩ j = false) ∧
    (canState' 0 {}).mbTakes 7 ⟨false, false, false, false, false, 8, 0, []⟩ 63 = false ∧ (canState' 0 {}).canRec 7 = 0 := by decide +kernel

theorem witness_can_request : (canState' 0x0000C00000000000 {}).takesWrite .mgt (R.CAN_MB_CTRL 7 63) = true ∧ (canState' 0 {}).canPlumb 7 = false ∧
    (canState' 0x0000C00000000000 {}).mb 7 63 F.CAN_MB_CTRL_DIR = 1 ∧ (canState' 0x0000C00000000000 {}).mb 7 63 F.CAN_MB_CTRL_ENABLE = 1 := by decide +kernel

theorem witness_can_transmit : (canState' 0x0000D00000000000 {}).mbReq 7 63 = true ∧ (canState' 0 {}).bit (R.CAN_CFG 7) F.CAN_CFG_LISTEN = false ∧
    (∀ b, b < 63 → (canState' 0x0000D00000000000 {}).mbReq 7 b = false) ∧ canErrCode .crc = some 6 ∧
    ((canState' 0x0000F00000000000 {}).setFld (R.CAN_STAT 7) F.CAN_STAT_TEC 248).canTec 7 + 8 = 256 ∧
    (canState' 0x0000F00000000000 {}).mb 7 63 F.CAN_MB_CTRL_ONESHOT = 1 := by decide +kernel

theorem witness_can_control : (canState' 0 {}).takesWrite .mgt (R.CAN_CTL 7) = true ∧ (canState' 0 {}).canActive 7 = true ∧
    ((canState' 0 {}).setFld (R.CAN_CTL 7) F.CAN_CTL_DISABLE 1).bit (R.CAN_CTL 7) F.CAN_CTL_DISABLE = true ∧
    ((canState' 0 { recovering := true }).setFld (R.CAN_STAT 7) F.CAN_STAT_STATE 2).canState 7 = 2 ∧
    ((canState' 0 { integrating := true }).can 7).integrating = true := by decide +kernel

/-! EthernetPortsReceiveAndSend -/

/-- Port 3 active with its link up, its ring at 4096 with slots of 2048 bytes, and a command at queue 7. -/
def ethState : State :=
  (((((unitState 7 3 (cmdOf 1 (leBytes 4096 8 ++ leBytes 64 2) .running)).setFld (R.ETH_CFG 3) F.ETH_CFG_ACTIVE 1).setFld (R.ETH_CFG 3) F.ETH_CFG_LINK 1).setFld
    (R.ETH_CFG 3) F.ETH_CFG_MTU 1522).setFld (R.ETH_RX 3) F.ETH_RX_BASE 1).setFld (R.ETH_RX 3) F.ETH_RX_LOG2_SLOT 11

/-- A frame of 64 bytes to the group of all stations. -/
def ethFrame : List Byte := List.replicate 6 255 ++ List.replicate 6 1 ++ [0x12, 0x34] ++ List.replicate 50 0

theorem witness_eth_ring : ethState.ethActive 3 = true ∧ ethState.ethLink 3 = true ∧ ethState.arpReply 3 ethFrame = none ∧ ethState.ndReply 3 ethFrame = none ∧
    ethState.carrierOf 3 ethFrame = none ∧ ptpOf ethFrame = none ∧ frameType ethFrame = 0x1234 ∧ frameDst ethFrame / 2 ^ 40 % 2 = 1 ∧
    32 + ethFrame.length ≤ 2 ^ 11 ∧ (∀ i, i < 96 → ethState.hit (unitAgent 0x100 0) true (4096 + i) = .ok (4096 + i)) := by decide +kernel

theorem witness_eth_arp : ((ethState.setFld (R.ETH_IP4 3) F.ETH_IP4_IP4 7).arpReply 3 (List.replicate 6 255 ++ List.replicate 6 1 ++ [8, 6, 0, 1, 8, 0, 6, 4, 0, 1] ++
    List.replicate 16 0 ++ [0, 0, 0, 7] ++ List.replicate 18 0)).isSome = true := by decide +kernel

theorem witness_eth_transmit : (let c := cmdOf 1 (leBytes 4096 8 ++ leBytes 64 2) .running
     ethState.atUnit 7 7 c = true ∧ c.done = 0 ∧ ethState.txBad 3 c = false ∧ ethState.qInst 7 = 3 ∧ c.cut = false ∧
     (ethState.readMem (unitAgent 0x100 0) 4096 64).wait = false ∧ (ethState.setFld (R.ETH_CFG 3) F.ETH_CFG_LINK 0).ethLink 3 = false) := by decide +kernel

/-! QueuesFetchCompleteAndDisable -/

/-- Queue 65535 bound to the tokenizer, its rings of 16 slots at 4096 and 8192, one descriptor waiting, and the commands it holds. -/
def queState (l : List Cmd) : State :=
  (((((((State.reset.setFld (R.QUE_CFG 65535) F.QUE_CFG_ACTIVE 1).setFld (R.QUE_CFG 65535) F.QUE_CFG_UNIT 2).setFld R.GLB_CAPS F.GLB_CAPS_HBM_STACKS 4).setFld
    R.GLB_BUDGET_MODE F.GLB_BUDGET_MODE_LOCKED 1).setReg (R.QUE_CMD_RING 65535) (BitVec.ofNat 64 (2 ^ F.QUE_CMD_RING_BASE.lo + 4 * 2 ^ F.QUE_CMD_RING_LOG2.lo))).setReg
    (R.QUE_CPL_RING 65535) (BitVec.ofNat 64 (2 * 2 ^ F.QUE_CPL_RING_BASE.lo + 4 * 2 ^ F.QUE_CPL_RING_LOG2.lo))).setFld (R.QUE_CTL 65535) F.QUE_CTL_DISABLE 0).setQueue 65535 { cmds := l, cmdProd := 1 }

theorem witness_queue_fetch : (queState []).mayFetch 65535 = true ∧ (queState []).descAddr 65535 = 4096 ∧ inHostWindow 4096 = false ∧
    ringSlots ((queState []).reg (R.QUE_CMD_RING 65535)) = some 16 ∧ (queState []).poisoned 4096 64 = false ∧ (queState []).qSolverFed 65535 = false ∧
    (queState []).unitAbsent 65535 [] = true ∧ (queState []).takesWrite .mgt (R.QUE_DOORBELL 65535) = true ∧ (queState []).qBound 65535 = true ∧
    (queState []).takesWrite .mgt (R.QUE_CTL 65535) = true := by decide +kernel

theorem witness_queue_fetch_host : (let w : Word := BitVec.ofNat 64 (0x300000000 * 2 ^ F.QUE_CMD_RING_BASE.lo + 4 * 2 ^ F.QUE_CMD_RING_LOG2.lo)
     let s := (queState []).setReg (R.QUE_CMD_RING 65535) w
     s.mayFetch 65535 = true ∧ inHostWindow (s.descAddr 65535) = true) := by decide +kernel

theorem witness_queue_complete : (let c : Cmd := { cmdOf 1 [] .ended with phase := .ended }
     let s := queState [c]
     s.head 65535 = some c ∧ c.phase = .ended ∧ c.accepted = true ∧ ringSlots (s.reg (R.QUE_CPL_RING 65535)) = some 16 ∧
     ringBase (s.reg (R.QUE_CPL_RING 65535)) = 8192 ∧ 8192 + 32 ≤ s.hbmBytes ∧ (∀ i, i < 32 → s.hit hostAgent true (8192 + i) = .ok (8192 + i)) ∧
     s.sol.run = none ∧ s.bit R.DET_LS_CFG F.DET_LS_CFG_ENABLE = false) := by decide +kernel

theorem witness_queue_disabled : ((queState []).setFld (R.QUE_CTL 65535) F.QUE_CTL_DISABLE 1).qDisabled 65535 = true ∧ 0 ≤ State.reset.tokens 7 6 ∧
    (State.reset.setTokens 7 6 (-1)).tokens 7 6 < 0 := by decide +kernel

/-! SchedulerStartsSuspendsAndCuts -/

/-- A command that waits, for the tokenizer of queue 65535; and queue 7 of a core that runs or waits. -/
def schedState (unit : Nat) (c : Cmd) (x : Core) : State :=
  ((((unitState unit 0 c).setCore 15 x).setReg (R.CORE_STATUS 15) (BitVec.ofNat 64 (2 ^ F.CORE_STATUS_ACTIVE.lo + 2 ^ F.CORE_STATUS_STATE.lo))).setFld (R.FAB_CANTON 0)
    F.FAB_CANTON_CORE_MASK 0x8000).setFld R.FLT_MAP F.FLT_MAP_ACTIVE 0x8000

theorem witness_dispatch_unit : (let d := cmdOf 1 [] .waiting
     let s := schedState 2 d {}
     s.waitingQueues 2 0 0 = [7] ∧ s.head 7 = some d ∧ s.unitBusy 2 0 = false ∧ s.deadlinePassed d = false ∧ s.fab.phase = none ∧
     s.deadlinePassed { d with deadline := some 0 } = true) := by decide +kernel

theorem witness_dispatch_core : (let d := cmdOf 3 [] .waiting
     let s := schedState 1 d {}
     s.waitingQueues 1 0 0 = [7] ∧ s.ctxBusy d.context 7 = false ∧ s.qLC 7 = false ∧ s.allowedCores 7 = [15] ∧ s.coreIdle 15 = true) := by decide +kernel

theorem witness_dispatch_victim : (let d := cmdOf 3 [] .waiting
     let s := (schedState 1 d { running := some 8 }).setFld (R.QUE_CFG 8) F.QUE_CFG_PRIO 7
     s.coreIdle 15 = false ∧ s.coreRank 15 = some 15 ∧ s.qRank 7 = 8 ∧ s.waitingQueues 1 0 0 = [7]) := by decide +kernel

theorem witness_save_restore : (let d := cmdOf 1 [] .running
     ((schedState 1 d { running := some 7, saving := true }).readsOut 15 = false) ∧
     (schedState 1 d { running := some 7, restoring := true }).head 7 = some d ∧
     ((schedState 1 d { running := some 7, restoring := true }).setSaved 7 (some { ctx := {}, image := none, seed := 0, xfer := [], reads := [] })).savedOf 7 =
       some { ctx := {}, image := none, seed := 0, xfer := [], reads := [] }) := by decide +kernel

theorem witness_cut : (let d : Cmd := { cmdOf 1 [] .running with deadline := some 0, budget := some 5 }
     let s := schedState 2 d {}
     s.head 7 = some d ∧ s.deadlinePassed d = true ∧ d.budget.isSome = true ∧ s.qUnit 7 = 2 ∧ d.done = 0) := by decide +kernel

theorem witness_cut_program : (let d : Cmd := { cmdOf 1 [] .running with core := some 15, steps := 8 }
     let s := schedState 1 d { running := some 7, bound := 8 }
     s.head 7 = some d ∧ d.opcode = 1 ∧ (s.core 15).bound ≤ d.steps ∧ (s.core 15).boundIsMax = false) := by decide +kernel

/-! ChordLinksAcknowledgeAndReplay -/

/-- Port 3 of a device with chords: its STATE, its role, what it holds. -/
def chdState' (st role : Nat) (x : ChdPort) : State :=
  (((State.reset.setFld R.GLB_CAPS F.GLB_CAPS_CHORD 1).setFld (R.CHD_PORT_STAT 3) F.CHD_PORT_STAT_STATE st).setFld (R.CHD_PORT_CFG 3) F.CHD_PORT_CFG_ROLE role).setChdPort 3 x

/-- A frame with a kind, a sequence number and content. -/
def chdF (kind lseq addr : Nat) (l : List Byte) : ChordFrame :=
  ⟨BitVec.ofNat 4 kind, 0, 0, 0, BitVec.ofNat 12 lseq, 0, 32, false, BitVec.ofNat 41 addr, l⟩

theorem witness_chord_links : (chdState' 2 0 { unacked := [chdF 4 4095 0 [], chdF 4 0 0 []] }).chdUp 3 = true ∧
    ((chdState' 2 0 { unacked := [chdF 4 4095 0 [], chdF 4 0 0 []] }).chdPort 3).unacked = [] ++ chdF 4 4095 0 [] :: [chdF 4 0 0 []] ∧
    (chdF 4 4095 0 []).lseq.toNat = (chdF 0 0 4095 []).addr.toNat % 4096 ∧ ((chdState' 2 0 {}).chdPort 3).credits = [64, 64, 64] ∧
    (chdF 11 0 0 []).kind.toNat = 11 ∧ ((chdState' 2 0 { rxCount := 16, freed := [1, 0, 0] }).chdPort 3).rxCount = 16 ∧
    (chdState' 0 0 {}).hasChords = true ∧ (chdState' 0 0 {}).chdState 3 = 0 ∧ (chdState' 1 0 { retraining := true }).chdState 3 = 1 ∧
    (chdState' 0 0 {}).chd.timeTick = none := by decide +kernel

theorem witness_chord_ack_timeout : (let s := chdState' 2 0 { unacked := [chdF 4 0 0 []] }
     let t := { s with time := { s.time with ticks := 2500 } }
     t.chdUp 3 = true ∧ (t.chdPort 3).unacked ≠ [] ∧ (t.chdPort 3).advTick + 2500 ≤ t.time.ticks) := by decide +kernel

theorem witness_chord_time : (chdState' 2 2 {}).chdRole 3 = 2 ∧ (let s := (chdState' 2 1 { t12 := some (5, 9) }).setFld R.TIME_PTP_CFG F.TIME_PTP_CFG_SOURCE 1
     s.chdRole 3 = 1 ∧ s.chordSource = true ∧ (s.chdPort 3).t12 = some (5, 9) ∧ s.bit R.TIME_STAT F.TIME_STAT_STEP_USED = false ∧
     BitVec.ofNat 64 (sliceN (chdF 3 0 0 (timePayload 7 8)).payload 8 8) = (8 : Word)) := by decide +kernel

/-! ChordFramesActAtTheirDestination -/

/-- A manager with port 3 up and four stacks of HBM. -/
def chdMgr : State := ((chdState' 2 0 {}).setFld R.CHD_CFG F.CHD_CFG_MANAGER 1).setFld R.GLB_CAPS F.GLB_CAPS_HBM_STACKS 4

theorem witness_chord_read_write : chdMgr.chdUp 3 = true ∧ chdMgr.ownPosition = some 0 ∧ (chdF 4 0 4096 []).lseq.toNat = (chdMgr.chdPort 3).rxSeq ∧
    4096 + 256 ≤ chdMgr.hbmBytes ∧ chdMgr.poison = [] ∧ (∀ i, i < 256 → chdMgr.hit (chdMgr.reqAgent (.chord 3)) true (4096 + i) = .ok (4096 + i)) ∧
    (∀ i, i < 256 → chdMgr.hit (chdMgr.reqAgent (.chord 3)) false (4096 + i) = .ok (4096 + i)) ∧ (chdF 6 0 4096 (List.replicate 256 1)).poison = false ∧
    chdMgr.host.reads = [] := by decide +kernel

theorem witness_chord_response : (let o : OutRead := { what := .bar2 5, addr := 0x400000000004, len := 4, tseq := 0 }
     let s := { chdMgr with host := { chdMgr.host with reads := [o] } }
     inHostWindow o.addr = false ∧ o.tseq = (chdF 5 0 0 (List.replicate 8 1)).tseq.toNat ∧ s.host.reads = [o] ∧ o.addr % 8 + o.len ≤ 8 ∧
     s.fld R.CHD_CFG F.CHD_CFG_TIMEOUT_US < 65536) := by decide +kernel

/-- A worker with the position 63, port 3 its up port. -/
def chdWorker : State := ((chdState' 2 1 {}).setFld R.CHD_CFG F.CHD_CFG_ENUMERATED 1).setFld R.CHD_CFG F.CHD_CFG_POSITION 63

theorem witness_chord_messages : chdWorker.ownPosition = some 63 ∧ chdWorker.isManager = false ∧
    (chdWorker.setFld R.CHD_TSYNC F.CHD_TSYNC_LOCKED 1).bit R.CHD_TSYNC F.CHD_TSYNC_LOCKED = true ∧
    0 ≤ stampDiff (BitVec.ofNat 64 (sliceN (launchPayload 1 255 0 5) 8 8)) chdWorker.now ∧ sliceN (launchPayload 1 255 0 5) 0 1 = 1 ∧
    (let s := (chdWorker.setFld R.DET_LS_CFG F.DET_LS_CFG_ENABLE 1).setFld R.DET_LS_CFG F.DET_LS_CFG_PARTNER 0
     s.bit R.DET_LS_CFG F.DET_LS_CFG_ENABLE = true ∧ (chdF 9 0 0 []).src.toNat = s.fld R.DET_LS_CFG F.DET_LS_CFG_PARTNER ∧ s.det.own = [] ∧
     s.det.theirs.length < 512) := by decide +kernel

theorem witness_enumerate : chdMgr.takesWrite .host R.CHD_CTL = false ∧ (chdMgr.setFld R.SEC_BOOT_STAT F.SEC_BOOT_STAT_STAGE 3).takesWrite .host R.CHD_CTL = true ∧
    isHost .host = true ∧ chdMgr.bit R.CHD_CFG F.CHD_CFG_MANAGER = true ∧ chdMgr.chd.walk = none ∧ chdMgr.chdUp 0 = false ∧ chdMgr.chdUp 3 = true ∧
    chdMgr.bit R.CHD_CFG F.CHD_CFG_ENUMERATED = false := by decide +kernel

theorem witness_enum_frame : (chdState' 2 0 {}).chd.walk = none ∧ (chdState' 2 0 {}).bit R.CHD_CFG F.CHD_CFG_MANAGER = false ∧
    (chdF 10 0 (enumAddr 63 4 63 0) []).addr.toNat % 256 = 63 ∧ (chdF 10 0 (enumAddr 64 5 64 0) []).addr.toNat % 256 = 64 ∧
    { chdMgr with chd := { chdMgr.chd with walk := some ⟨3, 1, 1, 0⟩ } }.chd.walk = some ⟨3, 1, 1, 0⟩ ∧
    (chdF 10 0 (enumAddr 0 1 64 0) []).addr.toNat / 65536 % 256 = 64 := by decide +kernel

theorem witness_remote_timeout : (let o : OutRead := { what := .copyOp 0 [] 0 1, addr := 0x420000000000, len := 8, tseq := 65535 }
     let s := { (unitState 1 0 (cmdOf 1 [] .running)).setCore 0 { running := some 7 } with time := { State.reset.time with ticks := 16384000 } }
     inHostWindow o.addr = false ∧ o.at' + s.fld R.CHD_CFG F.CHD_CFG_TIMEOUT_US * 250 ≤ s.time.ticks ∧ (s.core 0).running = some 7 ∧
     s.head 7 = some (cmdOf 1 [] .running)) := by decide +kernel

/-! LaunchesStepThroughTheirStates -/

/-- A manager with a launch in a state, gate 63 enabled. -/
def launchMgr (st : Nat) : State := (chdMgr.setFld R.DET_LAUNCH_STAT F.DET_LAUNCH_STAT_STATE st).setFld (R.DET_GATE 63) F.DET_GATE_ENABLE 1

theorem witness_launch : (launchMgr 0).takesWrite .mgt R.DET_LAUNCH_CTL = true ∧ (launchMgr 0).isManager = true ∧ (launchMgr 0).launchState = 0 ∧
    (launchMgr 2).launchState = 2 ∧ (launchMgr 1).launchState = 1 ∧ 0 ≤ stampDiff (launchMgr 2).now (launchMgr 2).det.launchAt ∧
    (launchMgr 0).launchMargin ≤ stampDiff (BitVec.ofNat 64 (2 ^ 40)) (launchMgr 0).now ∧
    (stampDiff (launchMgr 0).now (BitVec.ofNat 64 (2 ^ 40)) < (launchMgr 0).launchMargin) := by decide +kernel

theorem witness_launch_expiries : (let s := { (launchMgr 1).setFld R.DET_LAUNCH_CTL F.DET_LAUNCH_CTL_MARGIN_US 1 with det := { State.reset.det with parts := 2 ^ 63 + 1, acks := 1 } }
     s.isManager = true ∧ stampDiff s.det.launchAt s.now < s.launchMargin ∧ s.det.parts.testBit 63 = true ∧ s.det.acks.testBit 63 = false) ∧
    (let s := (chdWorker.setFld R.DET_LAUNCH_STAT F.DET_LAUNCH_STAT_STATE 1).setFld R.DET_LAUNCH_CTL F.DET_LAUNCH_CTL_MARGIN_US 0
     s.launchState = 1 ∧ s.launchMargin ≤ stampDiff s.now s.det.launchAt ∧ s.isManager = false ∧ s.position = 63) := by decide +kernel

/-! LockStepRecordsAndReplays -/

theorem witness_lockstep : chdMgr.takesWrite .mgt R.DET_LS_CFG = true ∧ (chdMgr.setReg R.CHD_PRESENT 3).lsPresent 1 = true ∧
    (chdMgr.setFld R.DET_LS_CFG F.DET_LS_CFG_ENABLE 1).takesWrite .mgt (R.DET_LS_FEED 7) = true ∧
    (chdMgr.setFld R.DET_LS_CFG F.DET_LS_CFG_ENABLE 1).bit R.DET_LS_CFG F.DET_LS_CFG_ENABLE = true ∧ (chdMgr.lsSrc 79).n = 0 ∧
    (chdMgr.setFld R.DET_LS_CFG F.DET_LS_CFG_ITEMS 0).fld R.DET_LS_CFG F.DET_LS_CFG_ITEMS = 0 ∧
    (chdMgr.setFld R.DET_LS_CFG F.DET_LS_CFG_ITEMS 1).fld R.DET_LS_CFG F.DET_LS_CFG_ITEMS ≤ (chdMgr.lsSrc 79).n + 1 ∧ chdMgr.bit R.DET_LS_CFG F.DET_LS_CFG_TO_PLUMB = false := by decide +kernel

theorem witness_lockstep_lag : (let x : LsSig := { src := 79, k := 0, sig := 1, tick := 0 }
     let s := { chdMgr.setFld R.DET_LS_CFG F.DET_LS_CFG_LAG_US 1 with det := { State.reset.det with own := [x] }, time := { State.reset.time with ticks := 251 } }
     s.det.own = x :: [] ∧ x.tick + s.fld R.DET_LS_CFG F.DET_LS_CFG_LAG_US * 250 < s.time.ticks) := by decide +kernel

theorem witness_record_gap : (let s := { State.reset.setFld R.DET_REC_CTL F.DET_REC_CTL_ENABLE 1 with recorder := { gap := 1, staged := [(0, [1])] } }
     s.recorder.gap ≠ 0 ∧ s.bit R.DET_REC_CTL F.DET_REC_CTL_ENABLE = true ∧ stagedLen s.recorder.staged + 32 ≤ 1048576 ∧ s.recorder.staged ≠ []) := by decide +kernel

/-- A replay of all classes over a log of 64 bytes, whose first entry is of a kind. -/
def replayState (kind : Byte) : State :=
  (((State.reset.setFld R.DET_REPLAY_CTL F.DET_REPLAY_CTL_ENABLE 1).setFld R.DET_REPLAY_CTL F.DET_REPLAY_CTL_CLASS_MASK 31).setFld R.DET_REPLAY_LEN
    F.DET_REPLAY_LEN_LEN 64).wrBytes 16 [8, 0, 0, 0, kind]

theorem witness_replay : ((replayState 0).logEntry 0).kind = 0 ∧ ((replayState 6).logEntry 0).kind = 6 ∧ (replayState 6).replays 3 = true ∧
    (replayState 6).fld R.DET_REPLAY_LEN F.DET_REPLAY_LEN_LEN = 64 ∧ ((replayState 6).reg R.DET_REPLAY_CONS).toNat = 0 ∧
    stampDiff (replayState 6).now (stampAdd ((replayState 6).logEntry 0).stamp 0) = 0 ∧
    ((replayState 6).setFld R.DET_REPLAY_CTL F.DET_REPLAY_CTL_CLASS_MASK 0).replays 3 = false := by decide +kernel

theorem witness_settings : State.reset.settingsBlock ≠ State.reset.det.block ∧
    { State.reset with det := { State.reset.det with block := State.reset.settingsBlock } }.settingsBlock = State.reset.settingsBlock := by decide +kernel

/-! PlumbJudgesFramesAndDrivesTheLines -/

/-- Registration 63 active, of a period of 1 ms, with what it holds. -/
def plState' (x : PlReg) : State :=
  ((State.reset.setFld R.SEC_BOOT_STAT F.SEC_BOOT_STAT_STAGE 3).setFld (R.PLB_REG_CFG 63) F.PLB_REG_CFG_ACTIVE 1).setPlReg 63 x

theorem witness_plumb_inbox : (plState' {}).hears .host (R.PLB_INBOX 16) = true ∧ (plState' {}).hears (.core 15) (R.PLB_INBOX 15) = true ∧
    ((plState' {}).inbox 16).fifo.length < 512 ∧ (((plState' {}).setInbox 0 { fifo := List.replicate 512 (0, 0) }).inbox 0).fifo.length = 512 := by decide +kernel

theorem witness_plumb_frame : (plState' { period := 1000000 }).plActive 63 = true ∧ ((plState' { period := 1000000 }).plReg 63).phase ≤ (plState' {}).nowNs ∧
    ((plState' { period := 1000000 }).plReg 63).frame = none ∧ ((plState' {}).setFld R.PLB_CTL F.PLB_CTL_FORCE_SAFE 1).bit R.PLB_CTL F.PLB_CTL_FORCE_SAFE = true ∧
    ((plState' { frame := some 0 }).plReg 63).due ≤ (plState' {}).nowNs := by decide +kernel

theorem witness_plumb_open : (plState' { frame := some 0 }).openFrame 63 0 := by unfold State.openFrame; decide +kernel

theorem witness_plumb_judge : ((plState' { frame := some 0, input := some (.latch [] [] true) }).plReg 63).input = some (.latch [] [] true) ∧
    (let s := plState' { frame := some 0, input := some (.report []) }
     let r : PlRule := { canton := 0, reg := 63, kind := 6, source := 0, field := 0, lo := 1, hi := 9, param := 0 }
     s.plumb.rules = [] ∧ s.violates (s.plReg 63) (.report []) r = true) ∧ (∀ codes flags, PlInput.report [] ≠ .latch codes flags true) :=
  ⟨by decide +kernel, by decide +kernel, by intro _ _ h; cases h⟩

theorem witness_plumb_lines : (let s := (plState' { frame := some 0 }).assertLine (.edge 3) 7
     s.plumb.lines = [(HwDetect.edge 3, 7)] ∧ s.concerns (.edge 3) 7 63 = false ∧
     (s.setFld (R.PLB_REG_CFG 63) F.PLB_REG_CFG_DEP_CANTONS 128).concerns (.edge 3) 7 63 = true) := by decide +kernel

theorem witness_plumb_checks : (let s := { plState' {} with plumb := { (plState' {}).plumb with checkNs := some 0, stepSum := -1000000 } }
     s.plumb.checkNs = some 0 ∧ (s.nowNs : Int) - (0 : Nat) - s.plumb.stepSum = 1000000) ∧ (plState' {}).bit R.PLB_STAT F.PLB_STAT_PLUMB_FAULT = false ∧
    (plState' {}).hears .host R.PLB_ACK = true ∧ (plState' {}).hears .host R.PLB_CTL = true ∧ (plState' {}).plumb.timeBad = false ∧
    (plState' {}).bit R.PLB_CTL F.PLB_CTL_FORCE_SAFE = false ∧ ((plState' {}).setFld R.PLB_STAT F.PLB_STAT_PLUMB_FAULT 1).bit R.PLB_STAT F.PLB_STAT_PLUMB_FAULT = true := by decide +kernel

/-! SafetyMessagesAndPennants -/

/-- A safety message of registration 63. -/
def safeMsg : SafeMsg := { reg := 63, restored := true, cause := 10, index := 65535, time := 0, queued := 0 }

theorem witness_safety_message : (let s := { plState' {} with plumb := { (plState' {}).plumb with msgs := [safeMsg] } }
     s.plumb.msgs = safeMsg :: [] ∧ (s.setFld R.PLB_CFG F.PLB_CFG_CAN_CTRL 7).fld R.PLB_CFG F.PLB_CFG_CAN_CTRL = 7 ∧
     ((s.setFld R.PLB_CFG F.PLB_CFG_CAN_CTRL 7).setFld (R.CAN_STAT 7) F.CAN_STAT_STATE 1).fld (R.CAN_STAT 7) F.CAN_STAT_STATE < 2) := by decide +kernel

theorem witness_safety_repeat : (let s := ((plState' {}).setFld R.PLB_CAN F.PLB_CAN_REPEAT_MS 100).setFld R.PLB_CFG F.PLB_CFG_CAN_CTRL 7
     s.fld R.PLB_CAN F.PLB_CAN_REPEAT_MS ≠ 0 ∧ s.fld R.PLB_CFG F.PLB_CFG_CAN_CTRL ≠ 0xFF ∧ s.plumb.msgs.length + 1 ≤ 16) := by decide +kernel

/-- Core 15 active on physical core 17, in canton 0, in pennant frame 1. -/
def penState : State :=
  let s := ((((State.reset.setFld R.FLT_MAP F.FLT_MAP_ACTIVE 0x8000).setFld (R.CORE_STATUS 15) F.CORE_STATUS_PHYS 17).setFld (R.CORE_STATUS 15) F.CORE_STATUS_STATE 1).setFld
    (R.FAB_CANTON 0) F.FAB_CANTON_CORE_MASK 0x8000).setFld R.PLB_CFG F.PLB_CFG_PENNANT_PERIOD_US 1
  { s with plumb := { s.plumb with boundary := some 0 }, time := { s.time with ns := 1000 } }

theorem witness_pennant_frame : penState.penPeriod = 1000 ∧ penState.nowNs / penState.penPeriod % 64 = 1 ∧ penState.plumb.boundary = some 0 ∧
    penState.bit R.PLB_CFG F.PLB_CFG_COV_INVALIDATES = false := by decide +kernel

theorem witness_pennant_run : penState.logicalOf 17 = some 15 ∧ penState.penPick 17 (penEngCode .vec) 0 = some (0, false) ∧ penState.plumb.runs = [] := by decide +kernel

theorem witness_pennant_done : (let r : PenRun := { core := 17, eng := 2, pattern := 63, frame := 0 }
     let s := { penState with plumb := { penState.plumb with runs := [r] } }
     s.plumb.runs = [r] ∧ s.logicalOf 17 = some 15 ∧ (s.inbox 15).fifo.length ≤ 509 ∧ (s.inbox 15).lost = 0 ∧ r.eng = penEngCode .vec) := by decide +kernel

theorem witness_pennant_judge : (let r : PenReport := { pattern := 63, phys := 17, eng := 2, frame := 0, crc := 5 }
     let s := { penState with plumb := { penState.plumb with reports := [r], crcs := [(191, 5)] }, rep := { penState.rep with slot := 1 } }
     s.plumb.reports = r :: [] ∧ r.crc = s.penCrc r.pattern r.eng ∧ s.plumb.boundary.getD 0 / 64 = r.frame / 64) := by decide +kernel

theorem witness_pennant_install : State.reset.takesWrite .mgt R.FLT_PEN_CMD = true ∧ State.reset.bit R.FLT_PEN_STAT F.FLT_PEN_STAT_BUSY = false ∧
    State.reset.sec.op = none ∧ State.reset.penCheck [] 0 false = stRejected ∧
    { State.reset with rep := { State.reset.rep with install := some (7, 255, 0) } }.rep.install = some (7, 255, 0) := by decide +kernel

/-! RepairBurnsFurlsSwapsAndTests -/

/-- Core 15 active on physical core 17, physical core 16 a spare. -/
def repState : State :=
  ((((State.reset.setFld R.FLT_MAP F.FLT_MAP_ACTIVE 0x8000).setFld R.FLT_MAP F.FLT_MAP_SPARE_PHYS 0x10000).setFld (R.CORE_STATUS 15) F.CORE_STATUS_PHYS 17).setFld
    (R.CORE_STATUS 15) F.CORE_STATUS_STATE 1).setFld R.GLB_BUDGET_MODE F.GLB_BUDGET_MODE_LOCKED 1

theorem witness_burn : { repState with rep := { repState.rep with burns := [2 ^ 29 + 17] } }.rep.burns = (2 ^ 29 + 17) :: [] ∧
    repState.fld R.FLT_STAT F.FLT_STAT_FUSES_USED < 127 := by decide +kernel

theorem witness_furl : repState.hears .mgt R.FLT_CMD = true ∧ repState.coreActive 15 = true ∧ repState.fld (R.CORE_STATUS 15) F.CORE_STATUS_STATE ≠ 4 ∧
    (repState.core 15).saving = false ∧ repState.rep.swap = none ∧ repState.rep.furls = [] ∧ repState.rep.test = none ∧ repState.freeSpare = some 16 ∧
    State.reset.freeSpare = none := by decide +kernel

theorem witness_planned_swap : (let x : CoreTest := { phys := 17, logical := some 15, req := none }
     let s := { repState.setFld R.FLT_ROLL_STAT F.FLT_ROLL_STAT_STATE 1 with rep := { repState.rep with test := some x } }
     s.rep.test = some x ∧ s.freeSpare = some 16 ∧ s.fld R.FLT_ROLL_STAT F.FLT_ROLL_STAT_STATE = 1 ∧ s.swapOk 15 = true) := by decide +kernel

theorem witness_swap_copied : (let w : Swap := { planned := false, n := 15, src := 17, dst := 16, cause := 4, copying := true, back := false }
     let s := { repState with rep := { repState.rep with swap := some w } }
     s.rep.swap = some w ∧ s.isSpare w.dst = true ∧ s.rep.furls = []) := by decide +kernel

theorem witness_rolling : repState.isSpare 16 = true ∧ repState.logicalOf 16 = none ∧ repState.rep.rollPos = 0 ∧
    (∀ i, i < 16 → repState.isSpare i = false ∧ repState.logicalOf i = none) ∧
    (repState.setFld R.FLT_ROLL_CTL F.FLT_ROLL_CTL_ENABLE 1).bit R.FLT_ROLL_CTL F.FLT_ROLL_CTL_ENABLE = true := by decide +kernel

theorem witness_core_test : (let x : CoreTest := { phys := 16, logical := none, req := none }
     let s := { repState.setFld R.FLT_ROLL_STAT F.FLT_ROLL_STAT_STATE 2 with rep := { repState.rep with test := some x } }
     s.rep.test = some x ∧ s.fld R.FLT_ROLL_STAT F.FLT_ROLL_STAT_STATE = 2 ∧ s.rep.rollFirst = []) := by decide +kernel

theorem witness_test_request : (let v := F.FLT_TEST_REQ_TARGET.set (F.FLT_TEST_REQ_KIND.set 0 1) 15
     repState.hears .mgt R.FLT_TEST_REQ = true ∧ F.FLT_TEST_REQ_KIND.get v = 1 ∧ F.FLT_TEST_REQ_TARGET.get v = 15 ∧
     BitVec.ofNat 32 (F.FLT_TEST_REQ_SEQ.get v) = (repState.testCopy true).lastSeq + 1 ∧ repState.testBad 1 15 = false ∧ repState.rep.tests = []) := by decide +kernel

theorem witness_test_start : (let q : TestReq := { mgt := true, kind := 2, target := 16, deadline := 0, addr := 0, seq := 0 }
     let s := { repState with rep := { repState.rep with tests := [q] } }
     let late : TestReq := { mgt := true, kind := 3, target := 0xFF, deadline := 1, addr := 0, seq := 0 }
     s.rep.tests = q :: [] ∧ s.testLate q = false ∧ s.testBad 2 16 = false ∧ s.logicalOf 16 = none ∧ repState.testLate late = true ∧
     { repState with rep := { repState.rep with thermal := some (0, [7], q) } }.rep.thermal = some (0, [7], q)) := by decide +kernel

/-! PowerSettingsClampAndSend -/

/-- A state past WAIT_STREAM. -/
def openState : State := State.reset.setFld R.SEC_BOOT_STAT F.SEC_BOOT_STAT_STAGE 7

theorem witness_power_requesters : openState.hears (.core 15) R.PWR_CFG = true ∧ isMirror (.core 15) = true ∧ openState.hears .bar2 R.PWR_CFG = true ∧
    isMirror .bar2 = true ∧ openState.hears .mgt R.PWR_CFG = true ∧ isMirror .mgt = false ∧ openState.hears .host R.PWR_CFG = true ∧ isMirror .host = false := by decide +kernel

theorem witness_power_values : 6 ≤ F.PWR_CFG_ORDER.get 0x600 ∧ F.PWR_CFG_ORDER.get 0x500 < 6 ∧ F.PWR_CFG_CAP_W.get (0x1C2#64 <<< 32) = 450 ∧
    F.PWR_CFG_ICC_MAX_A.get (0x208#64 <<< 12) = 520 ∧ F.PWR_CFG_GAIN.get 64 = 64 ∧ F.PWR_VDD_TARGET_MV.get 850 = 850 ∧ F.PWR_VDD_TARGET_MV.get 1023 = 1023 ∧
    F.PWR_THERM_CFG_ALERT_C.get 124 = 124 ∧ F.PWR_DOMAIN_B_MAX.get 65 = 65 := by decide +kernel

theorem witness_power_retry : State.reset.pwr.vr = none ∧ ({ State.reset with pwr := { State.reset.pwr with vr := some (850, 8) } } : State).pwr.vr = some (850, 8) ∧
    ({ State.reset with pwr := { State.reset.pwr with vr := some (600, 9) } } : State).pwr.vr = some (600, 9) := by decide +kernel

/-! PowerSamplesMeasureAndThrottle -/

theorem witness_power_sample : (∃ t, exec (.powerSample { temps := [], icc := 0, power := 0, energy := 1, shares := [], idle := 1 }) State.reset = .next t) ∧
    openState.tempHeld 63 = false ∧ ({ openState with rep := { openState.rep with thermal := some (7, [], { mgt := true, kind := 2, target := 7, deadline := 0, addr := 0, seq := 1 }) } } : State).tempHeld 63 = true := by
  refine ⟨⟨_, rfl⟩, ?_, ?_⟩ <;> decide +kernel

theorem witness_power_share : (unitState 2 0 tokCmd).executing 7 = true ∧ (unitState 2 0 tokCmd).head 7 = some tokCmd := by decide +kernel

/-! RegisterWritesAndWindowAccesses -/

theorem witness_register_write : openState.takesWrite .host R.FLT_STAT = true ∧ (regAt R.FLT_STAT).isSome = true ∧ openState.takesWrite .mgt R.HBM_STAT = true ∧
    (regAt R.HBM_STAT).isSome = true ∧ openState.takesWrite .bar2 R.GLB_BAR2_BASE = true ∧ (regAt R.GLB_BAR2_BASE).isSome = true ∧
    (0x3FFFFFF#26).toNat % 8 ≠ 0 := by decide +kernel

theorem witness_bar2 : openState.host.d3hot = false ∧ openState.bootAnswers = true ∧ openState.bootServes = true ∧ State.reset.bootAnswers = false ∧
    hbmState.bar2Addr 0xFFFFF000 + 4096 ≤ hbmState.hbmBytes ∧ hbmState.spd.ecc = [] ∧ hbmState.poison = [] ∧
    ({ hbmState with poison := [0] } : State).poisoned 0 1 = true ∧
    ((openState.setFld R.GLB_BAR2_BASE F.GLB_BAR2_BASE_ADDR 0x3000).bar2Addr 0 = 0x300000000000) ∧ inHostWindow 0x300000000000 = true ∧ inHostWindow 0x3FFFFFFFFFFF = true ∧
    (openState.setFld R.GLB_BAR2_BASE F.GLB_BAR2_BASE_ADDR 0xFFFF).place 0xFFFF00000000 = .unmapped ∧
    (openState.setFld R.GLB_BAR2_BASE F.GLB_BAR2_BASE_ADDR 0x2000).bar2Addr 0x208 = 0x200000000000 + R.GLB_HOST_WIN := by decide +kernel

theorem witness_bar2_write : (∀ i, i < 32 → hbmState.hit hostAgent true (hbmState.bar2Addr 0 + i) = .ok (hbmState.bar2Addr 0 + i)) ∧
    (openState.setFld R.FLT_MAP F.FLT_MAP_ACTIVE 1).place 0x100000000001 = .spd 0 1 ∧ openState.place 0x200000000208 = .mirror 0x208 := by decide +kernel

theorem witness_host_read : (let o : OutRead := { what := .desc 7, addr := 0x300000000000, len := 64, tseq := 0 }
    let s : State := { unitState 2 0 tokCmd with host := { (unitState 2 0 tokCmd).host with reads := [o] } }
    s.host.reads.find? (fun o => inHostWindow o.addr) = some o ∧ s.qBound 7 = true ∧ State.reset.host.reads.find? (fun o => inHostWindow o.addr) = none) := by decide +kernel

/-! VectorsAndTheLink -/

/-- A link that is up, with MSI-X enabled. -/
def linkState (pba : List (Nat × Bool)) (waiting : List Nat) : State :=
  { openState.setFld R.GLB_HOST_STAT F.GLB_HOST_STAT_LINK_UP 1 with host := { openState.host with msixEnable := true, busMaster := true, pba := pba, waiting := waiting } }

theorem witness_vectors : (linkState [(2047, true)] []).canMaster = true ∧ Store.get (fun _ => false) (linkState [(2047, true)] []).host.pba 2047 = true ∧
    (linkState [] []).host.msixFnMask = false ∧ (linkState [] []).vecMasked 2047 = true ∧
    ((linkState [] [5]).setMsix 11 0).vecMasked 5 = false ∧ ((linkState [] [5]).setMsix 11 0).host.waiting = [5] ∧
    (((linkState [(2047, true)] []).setMsix 4095 0).msixWord 4095).getLsbD 32 = false := by decide +kernel

theorem witness_irq_mask : (let s := ((linkState [] []).setMsix 127 0).setReg R.GLB_IRQ_STAT 0x8000000000000000
    s.takesWrite .host R.GLB_IRQ_MASK = true ∧ s.cause 63 = true ∧ (s.reg R.GLB_IRQ_MASK).getLsbD 63 = true ∧ s.vecMasked (0 + 63) = false ∧ s.canMaster = true ∧
    s.fld R.GLB_IRQ_CFG F.GLB_IRQ_CFG_BASE = 0 ∧ s.cause 0 = false) := by decide +kernel

theorem witness_link_down : (let o : OutRead := { what := .desc 7, addr := 0x3FFFFFFFFFC0, len := 64, tseq := 0 }
    let s : State := { unitState 2 0 tokCmd with host := { (unitState 2 0 tokCmd).host with reads := [o] } }
    s.host.reads = [{ what := .desc 7, addr := 0x3FFFFFFFFFC0, len := 64, tseq := 0 }] ∧ inHostWindow o.addr = true ∧ s.qBound 7 = true) ∧
    openState.host.reads = [] ∧ openState.bootAnswers = true ∧ State.reset.bootAnswers = false ∧ openState.host.waiting = [] ∧ openState.host.pba = [] := by decide +kernel

/-! StationMessagesActInSequence -/

/-- Firmware that runs with its link up and a session. -/
def mgtState (x : MgtSt) : State := { State.reset.setReg R.MGT_STAT 0xF000000000000000 with mgt := x }
def halMsg (type : BitVec 8) (seq : BitVec 32) (pl : List Byte) : HalMsg :=
  { type := type, position := 0xFF, toDevice := false, session := 2, seq := seq, ack := 1205, stamp := 0, payload := pl }

/-- The window of R601's example: SEQ 1,204 to 1,207 unacknowledged. -/
def drillWindow : List HalMsg := [1204, 1205, 1206, 1207].map (fun n => { halMsg 3 n [] with session := 1 })

theorem witness_hello : (mgtState { session := some 1, unacked := drillWindow }).mgtRuns = true ∧ (mgtState {}).halWorker = false ∧
    (mgtState {}).bit R.MGT_STAT F.MGT_STAT_LINK = true ∧ (mgtState { session := some 1 }).mgt.session ≠ some (halMsg 1 0 []).session ∧ (halMsg 1 0 []).seq = 0 := by decide +kernel

theorem witness_sequenced : (mgtState { session := some 2, rxSeq := 7 }).mgt.session = some (halMsg 5 8 []).session ∧ (halMsg 6 9 []).seq ≠ (7 : BitVec 32) + 1 ∧
    (halMsg 5 8 []).seq = (7 : BitVec 32) + 1 ∧ (mgtState { session := some 2 }).keyBusy = false ∧
    ({ mgtState {} with sec := { (mgtState {}).sec with op := some { op := 3, tag := 0, status := 0, slot := 0, payload := [] } } } : State).keyBusy = true ∧
    0x800000 < sliceN (halMsg 6 8 (leBytes 0x800001 8)).payload 0 8 ∧ sliceN (halMsg 6 8 (leBytes 0x800000 8)).payload 0 8 ≤ 0x800000 ∧
    (mgtState {}).bit R.FLT_PEN_STAT F.FLT_PEN_STAT_BUSY = false ∧ ((mgtState {}).setFld R.FLT_PEN_STAT F.FLT_PEN_STAT_BUSY 1).bit R.FLT_PEN_STAT F.FLT_PEN_STAT_BUSY = true ∧
    (mgtState {}).penCheck [] 0 false ≠ stDone := by decide +kernel

theorem witness_bad_rx : ([] : List Byte).length ≠ 36 + sliceN [] 6 2 ∧ (mgtState {}).mgtRuns = true := by decide +kernel

/-! ReportsTelemetryAndTheMailbox -/

theorem witness_report : (mgtState {}).mgt.unacked.length < 64 ∧
    max (mgtState {}).mgt.evtNext (((mgtState {}).setReg R.FLT_EVT_PROD 257).fld R.FLT_EVT_PROD F.FLT_EVT_PROD_PROD - 256) <
      ((mgtState {}).setReg R.FLT_EVT_PROD 257).fld R.FLT_EVT_PROD F.FLT_EVT_PROD_PROD ∧
    64 ≤ (mgtState { unacked := List.replicate 64 (halMsg 3 0 []) }).mgt.unacked.length ∧ (mgtState { session := some 2 }).mgt.session.isSome = true := by decide +kernel

theorem witness_intervals : (let s := { mgtState { interval := 1, ackDue := true, unacked := drillWindow } with time := { (mgtState {}).time with ns := 200000000 } }
    s.mgt.telemAt + s.mgt.interval * 1000000 ≤ s.nowNs ∧ s.mgt.retxAt + max 1 (s.fld R.MGT_CFG F.MGT_CFG_RETX_MS) * 1000000 ≤ s.nowNs) ∧
    (mgtState { interval := 1 }).nowNs < (mgtState { interval := 1 }).mgt.telemAt + (mgtState { interval := 1 }).mgt.interval * 1000000 := by decide +kernel

theorem witness_mailbox : (let s := ((mgtState {}).setReg R.MGT_MBOX_IN_CTL 0x700000002).setReg (R.MGT_MBOX_IN 0) 0x800000004
    s.mgtRuns = true ∧ s.bit R.MGT_MBOX_IN_CTL F.MGT_MBOX_IN_CTL_BUSY = true ∧ s.bit R.MGT_MBOX_OUT_CTL F.MGT_MBOX_OUT_CTL_FULL = false ∧ s.mboxOp = 4 ∧
    s.mboxSeq.toNat = (s.fld R.MGT_MBOX_IN_CTL F.MGT_MBOX_IN_CTL_LAST_SEQ + 1) % 2 ^ 32) ∧ openState.takesWrite .host R.MGT_MBOX_OUT_CTL = true := by decide +kernel

/-! ResetsClearAndKeep -/

theorem witness_resets : State.reset.sec.inReset = true ∧ State.reset.sec.warm = false ∧ openState.hears .host R.SEC_CTL = true ∧
    ({ openState with sec := { openState.sec with inReset := false } } : State).sec.inReset = false ∧
    isFuseReg (R.SEC_KEY_HASH 3 7) = true ∧ isFuseReg R.GLB_CAPS = false ∧ isFuseReg (R.FLT_FUSE_REC 127) = true := by decide +kernel

/-! BootRunsItsSteps -/

/-- The boot at a stage with a boot source, out of reset, with the four stacks of an F grade. -/
def bootState (stage src : Nat) : State :=
  { ((State.reset.setFld R.SEC_BOOT_STAT F.SEC_BOOT_STAT_STAGE stage).setFld R.SEC_BOOT_STAT F.SEC_BOOT_STAT_BOOT_SRC src).setFld
      R.GLB_CAPS F.GLB_CAPS_HBM_STACKS 4 with sec := { State.reset.sec with inReset := false } }

/-- The header section of a full stream of 168 bytes. -/
def headerBytes : List Byte :=
  leBytes 1 2 ++ leBytes 0x0100 2 ++ leBytes 96 4 ++ leBytes 0x4C545353 4 ++ leBytes 1 2 ++ leBytes 0 6 ++ leBytes 2 4 ++ leBytes 168 8 ++ List.replicate 72 0 ++ List.replicate 64 0

theorem witness_boot_stages : (bootState 1 0).bootStage = 1 ∧ (bootState 1 0).sec.inReset = false ∧ State.reset.bootStage ≠ 1 ∧ (bootState 2 3).bootStage = 2 ∧
    (bootState 2 3).fld R.GLB_CAPS F.GLB_CAPS_HBM_STACKS ≤ 4 ∧ (bootState 2 3).fuseRecs.all (fun r => recKind r != 3) = true ∧
    (15#4).toNat % 2 ^ 4 = 2 ^ 4 - 1 ∧ (7#4).toNat % 2 ^ 4 ≠ 2 ^ 4 - 1 ∧ (bootState 4 2).bootStage = 4 ∧
    (bootState 4 2).bit R.SEC_BOOT_STAT F.SEC_BOOT_STAT_FALLBACK = false ∧ (bootState 6 0).bootStage = 6 := by decide +kernel

theorem witness_fetch : cutSect 0 (([] : List Byte).take 168) = none ∧ (cutSect 0 (headerBytes.take 168)).any (fun y =>
    !headerBad y.1 (sliceN y.1.payload 12 4) (sliceN y.1.payload 16 8) && decide (sliceN y.1.payload 16 8 ≤ headerBytes.length)) = true := by decide +kernel

/-! SecurityCommandsCheckAndAct -/

theorem witness_sec_command : openState.takesWrite .host R.SEC_CMD = true ∧ openState.bit R.SEC_RESULT F.SEC_RESULT_BUSY = false ∧
    (openState.setFld R.SEC_RESULT F.SEC_RESULT_BUSY 1).takesWrite .mgt R.SEC_CMD = true ∧ openState.allEmpty = true ∧ openState.bootStage = 7 ∧
    openState.rdBytes (openState.secArg + 8) 64 ≠ (openState.setReg (R.SEC_KEY_STATE 0) 1).digest R.SEC_KEY_STATE := by decide +kernel

/-- A PROVISION of slot 3 whose checks passed, and an ATTEST. -/
def provisionOp : SecOp := { op := 1, tag := 65535, slot := 3, payload := List.replicate 64 1, status := stDone }
def attestOp : SecOp := { op := 4, tag := 1, slot := 0, payload := List.replicate 64 1, status := stDone }

theorem witness_sec_done : provisionOp.slot < 4 ∧ provisionOp.payload.length = 64 ∧ provisionOp.status = stDone ∧ State.reset.sec.waiting = [] ∧
    ({ hbmState with sec := { hbmState.sec with op := some attestOp, seed := some [] } } : State).sec.op = some attestOp ∧
    ((List.range 7512).all (fun i => hbmState.hit hostAgent true (64 + i) == .ok (64 + i))) = true := by decide +kernel

/-! FabCommandsStageCheckAndRelease -/

/-- The loader in a state, with the boot at a stage. -/
def fabSt (state stage : Nat) : State :=
  (State.reset.setFld R.FAB_STATUS F.FAB_STATUS_STATE state).setFld R.SEC_BOOT_STAT F.SEC_BOOT_STAT_STAGE stage

theorem witness_fab_states : (fabSt 0 7).takesWrite .host R.FAB_CMD = true ∧ (fabSt 0 7).fabState = 0 ∧ (fabSt 0 7).bootStage = 7 ∧ (fabSt 0 7).keyBusy = false ∧
    (fabSt 4 3).takesWrite .host R.FAB_CMD = true ∧ (fabSt 4 3).fabState = 4 ∧ (fabSt 4 3).bootStage = 3 ∧ (fabSt 4 2).takesWrite .mgt R.FAB_CMD = true ∧
    (fabSt 4 2).bootStage ≠ 3 ∧ (fabSt 2 7).fabState = 2 ∧ (fabSt 3 7).fabState = 3 ∧ (fabSt 1 7).fabState = 1 ∧
    ({ fabSt 0 7 with sec := { (fabSt 0 7).sec with op := some provisionOp } } : State).keyBusy = true := by decide +kernel

theorem witness_stage_done : (fabSt 1 7).streamErr false ≠ none ∧ (fabSt 4 5).streamErr true ≠ none ∧ carries (fabSt 2 7).stagedSects tyControlGraph = false := by decide +kernel

/-! CommitRunsItsPhases -/

/-- A COMMIT of canton 7 in a phase. -/
def commitSt (p : ComPhase) : State := { fabSt 3 7 with fab := { (fabSt 3 7).fab with canton := some 7, phase := some p } }

theorem witness_commit_phases : (commitSt .drain).fab.canton = some 7 ∧ (commitSt .drain).fab.phase = some .drain ∧ (commitSt .save).furlIn 7 = false ∧
    (commitSt .verify).liveErr = none ∧ (commitSt .drain).chipQueues 7 = [] ∧ (commitSt .save).cantonCores 7 = [] ∧
    ({ commitSt .save with rep := { (commitSt .save).rep with furls := [(15, 0)] } } : State).rep.furls = [(15, 0)] := by decide +kernel

theorem witness_drain_timeout : (let s := { unitState 2 0 tokCmd with fab := { (unitState 2 0 tokCmd).fab with canton := some ((unitState 2 0 tokCmd).qCanton 7), phase := some .drain } }
    s.chipQueues (s.qCanton 7) = [7] ∧ s.head 7 = some tokCmd ∧ s.executing 7 = true ∧ s.qUnit 7 = 2 ∧
    (List.range 128).all (fun k => !s.bit (R.IMG_SRC_CFG k) F.IMG_SRC_CFG_ACTIVE) = true) := by decide +kernel

/-! StepRunsTheFrontCommand -/

theorem witness_idle : State.reset.pending = [] := rfl

/-! ResetLeavesStatedValues -/

theorem witness_reset_values : State.reset.reg R.GLB_IRQ_MASK = 0xFFFFFFFFFFFFFFFF := by decide +kernel

/-! StepKeepsTheStateInOrder -/

theorem witness_order : State.reset.wf = true ∧ openState.wf = true := by decide +kernel

/-! CommandsKeepQueueAndOutputs -/

theorem witness_commands_keep : ∃ t, exec .mgtLinkUp State.reset = .next t := ⟨_, rfl⟩

/-! HostWritesWaitForTheBoot -/

theorem witness_host_gate : isHost .host = true ∧ isHost .bar2 = true ∧ State.reset.bootAnswers = false ∧ (bootState 2 0).bootServes = false ∧
    earlyBlock 0x200000 = false ∧ earlyBlock 0x12FFFFF = false ∧ isMirror (.chord 3) = true ∧ isMirror .bar2 = true ∧
    ({ openState with host := { openState.host with d3hot := true } } : State).host.d3hot = true ∧ (0x143FFF8#26).toNat < 0x1440000 := by decide +kernel

/-! MalformedStampsAreRefused -/

/-- A queue of unit 3 whose ring in HBM holds one descriptor with a malformed deadline, and the same on its way from the host. -/
def badDesc : List Byte := [1, 0, 0, 0, 0, 0, 0, 0] ++ leBytes 1000000000 8 ++ List.replicate 48 0
def badDescState : State :=
  let s := (((((queBound 3).setFld (R.QUE_CFG 3) F.QUE_CFG_UNIT 3).setFld R.GLB_BUDGET_MODE F.GLB_BUDGET_MODE_LOCKED 1).setFld (R.QUE_CTL 3) F.QUE_CTL_DISABLE 0).setReg
    (R.QUE_CMD_RING 3) 0x10004).setReg (R.QUE_CPL_RING 3) 0x20004
  (s.setQueue 3 { s.queue 3 with cmdProd := 1 }).wrBytes (s.descAddr 3) badDesc

theorem witness_bad_arm : openState.takesWrite .host (R.TIME_CMP_ARM 63) = true ∧ 1000000000 ≤ ((1000000000#64) &&& 0x3FFFFFFF).toNat := by decide +kernel

theorem witness_bad_deadline : badDescState.mayFetch 3 = true ∧ badDescState.rdBytes (badDescState.descAddr 3) 64 = badDesc ∧
    inHostWindow (badDescState.descAddr 3) = false ∧ badDescState.poisoned (badDescState.descAddr 3) 64 = false ∧ badDescState.qSolverFed 3 = false ∧
    badDescState.unitAbsent 3 badDesc = false ∧ sliceN badDesc 4 4 = (badDescState.fld (R.QUE_SEQ 3) F.QUE_SEQ_LAST_ACCEPTED_SEQ + 1) % 2 ^ 32 ∧
    sliceN badDesc 1 1 % 4 = 0 ∧ 1000000000 ≤ sliceN badDesc 8 8 % 2 ^ 30 ∧ badDesc.length = 64 ∧ badDescState.qBound 3 = true := by decide +kernel

/-! TimeNowLatchesTheSeconds -/

theorem witness_time_latch : openState.takesRead (.core 15) R.TIME_NOW = true ∧ openState.takesRead .bar2 R.TIME_LATCH = true ∧
    openState.takesRead (.chord 3) R.TIME_LATCH = true := by decide +kernel

/-! ShortStampsHoldSecondsAndNanoseconds -/

theorem witness_stamp_layout : ({ State.reset with time := { State.reset.time with ns := 999999999, sec := 0xFFFFFFFFFFFF } } : State).time.ns < 1000000000 := by decide +kernel

/-! StampDifferenceIsExact -/

theorem witness_stamp_difference : ((17179869183999999999 + 2 : Nat) - (17179869183999999999 : Nat) : Int).natAbs < 2 ^ 33 * 1000000000 - 1000000000 ∧
    stampDiff (stampOfNs (17179869183999999999 + 2)) (stampOfNs 17179869183999999999) = 2 := by decide +kernel

/-! ### Well-formed commands: an ill-formed one for each check -/

theorem test_wf_offset : Instr.wf (.genericRegisterWrite .host 0x201004 .full 0) = false ∧ Instr.wf (.genericRegisterRead .host 0x201001 .low) = false ∧
    Instr.wf (.genericRegisterWrite .host 0x201008 .full 0) = true := by decide

theorem test_wf_trace : Instr.wf (.traceConfigWrite .host 0x831100 .full 0) = false ∧ Instr.wf (.traceConfigWrite .host 0x82FFF8 .full 0) = false ∧
    Instr.wf (.traceConfigWrite .host 0x8310F8 .full 0) = true := by decide

theorem test_wf_rows : Instr.wf (.matClear 0 .a false 0 0) = false ∧ Instr.wf (.matClear 0 .a false 0 1025) = false ∧ Instr.wf (.matClear 0 .a false 0 1024) = true := by decide

theorem test_wf_matmul_drain : Instr.wf (.matMatmul 0 .a 0 false 0 1025 false false .none) = false ∧ Instr.wf (.matDrain 0 .a 0 0xFF false 0 0 .rne) = false := by decide

theorem test_wf_can : CanFrame.wf { id := 0x40001, ide := false, fdf := false, brs := false, esi := false, rtr := false, dlc := 0, data := [] } = false ∧
    CanFrame.wf { id := 0x40000, ide := false, fdf := false, brs := false, esi := false, rtr := false, dlc := 9, data := List.replicate 8 0 } = true ∧
    CanFrame.wf { id := 0x40000, ide := false, fdf := true, brs := true, esi := false, rtr := false, dlc := 9, data := List.replicate 8 0 } = false ∧
    CanFrame.wf { id := 0, ide := true, fdf := true, brs := false, esi := false, rtr := true, dlc := 0, data := [] } = false ∧
    CanFrame.wf { id := 0, ide := true, fdf := false, brs := true, esi := false, rtr := false, dlc := 0, data := [] } = false := by decide

theorem test_wf_hbm : Instr.wf (.hbmAccess (.write 0 [])) = false ∧ Instr.wf (.hbmAccess (.read 0 257 [])) = false ∧ Instr.wf (.hbmAccess (.read 0 256 [])) = true ∧
    Instr.wf (.hbmTempRead [0, 0, 0, 0, 0]) = false := by decide

theorem test_wf_bar2 : Instr.wf (.bar2Read 0 0) = false ∧ Instr.wf (.bar2Read 0 4097) = false ∧ Instr.wf (.bar2Read 0 4096) = true ∧
    Instr.wf (.bar2Write 0 []) = false := by decide

theorem test_wf_power : Instr.wf (.powerSample { temps := List.replicate 65 0, icc := 0, power := 0, energy := 0, shares := [], idle := 0 }) = false := by decide

theorem test_wf_halyard : Instr.wf (.halyardAck (halMsg 2 0 (List.replicate 1405 0))) = false ∧ Instr.wf (.halyardAck (halMsg 2 0 [])) = true := by decide +kernel

theorem test_wf_chord : Instr.wf (.chordAck 0 (chdF 1 0 0 [])) = false ∧ Instr.wf (.chordBadKind 0 (chdF 10 0 0 [])) = false ∧
    ChordFrame.wf (chdF 6 0 0 [0]) = false := by decide

theorem test_wf_bank : BankAccess.wf { port := 7, age := 0, req := .mgt, off := 4, wide := false, wdata := none, ecc := [] } = false ∧
    BankAccess.wf { port := 0, age := 0, req := .mgt, off := 256, wide := true, wdata := some [], ecc := [] } = false ∧
    portsDistinct [{ port := 3, age := 0, req := .mgt, off := 0, wide := false, wdata := none, ecc := [] }, { port := 3, age := 0, req := .mgt, off := 8, wide := false, wdata := none, ecc := [] }] = false := by decide

theorem test_wf_csi2 : Instr.wf (.csi2LinePacket 0 0 0x1E .good true false (List.replicate 65536 0)) = false := by decide +kernel

/-! ### Values worked out in the spec -/

/-- 06_number_formats.md, the example after R185. -/
theorem test_e4m3_rounding : (Fmt.encode .e4m3 .rne 0 (ofF32 0x3E99999A)).1 = 0x2A ∧ (Fmt.encode .e4m3 .rtz 0 (ofF32 0x3E99999A)).1 = 0x29 ∧
    (Fmt.encode .e4m3 .sr 39320 (ofF32 0x3E99999A)).1 = 0x2A ∧ (Fmt.encode .e4m3 .sr 39321 (ofF32 0x3E99999A)).1 = 0x29 := by decide +kernel

/-- 06_number_formats.md, the example after R188: 500.0 is FP32 0x43FA0000. -/
theorem test_500 : Fmt.encode .e4m3 .rne 0 (ofF32 0x43FA0000) = (0x7E, flagSat) ∧ (Fmt.encode .e5m2 .rne 0 (ofF32 0x43FA0000)).1 = 0x60 := by decide +kernel

/-- 06_number_formats.md, the table after R189: the block's scale, its codes, and SAT from 6.25. -/
theorem test_block_quantise : quantBlock .e2m1 .rne 0 0 0 (([0x42C80000, 0x42140000, 0xC0200000, 0x3DCCCCCD, 0x42A00000] : List Nat).map (fun c => (Fmt.decode .fp32 c).1)) =
    (0x83, [7, 4, 8, 0, 6], flagSat) := by decide +kernel

/-- 08_quantisation.md, the worked INT8 layer. -/
theorem test_requant : requant 0x0000F62751EB851F 11680 .int8 (-128) 127 = (19, 0) ∧ requant 0x0000F62751EB851F 200000 .int8 (-128) 127 = (127, flagSat) ∧
    requant 0x0000F62751EB851F (-4000) .int8 (-128) 127 = (-20, 0) ∧ requant 0x0001F62751EB851F (-4000) .int8 (-128) 127 = (-10, 0) := by decide +kernel

/-- R240: ties go away from zero. -/
theorem test_requant_ties : (requant 0x100000001 5 .int8 (-128) 127).1 = 3 ∧ (requant 0x100000001 (-5) .int8 (-128) 127).1 = -3 := by decide +kernel

/-- 13_control_engine.md, the boom joint: acc, the output and the code. -/
theorem test_control_example : (accumulate [(430570471, 32768), (-429496730, 26214), (536870912, 655360)] (0, false)).1 = 354693826801828 ∧
    rneShift 354693826801828 29 = 660669 ∧ rneShift 660669 8 = 2581 := by decide +kernel

/-- 20_power.md, the table after R568: 112 °C and 114 °C. -/
theorem test_thermal_spill : spill (21 / 20) [(0, 56), (1, 56), (2, 56)] = [(0, 56), (1, 11), (2, 0)] ∧
    spill (21 / 10) [(0, 56), (1, 56), (2, 56)] = [(0, 56), (1, 56), (2, 22)] := by decide +kernel

/-- 20_power.md, the example after R566: 0.108 is 7/64. -/
theorem test_power_ratio : round64 (108 / 1000) = 7 := by decide +kernel

/-- 16_hbm.md, the example after R464: A = 0x12345600 is stack 1, pseudo-channel 30, offset 0x246800. -/
theorem test_hbm_address : hbmState.hbmAddr (32 + 30) (0x246800 / 256) = 0x12345600 := by decide +kernel

/-- 09_scratchpad.md, the table after R249: a column of stride 32 units meets one bank of 16 in a linear region and 32 distinct banks in a diagonal one. -/
theorem test_banks : (List.range 32).all (fun i => (unitPlace false 16 (32 * i)).1 == 0) = true ∧
    ((List.range 32).map (fun i => (unitPlace true 32 (32 * i)).1)).eraseDups.length = 32 := by decide +kernel

/-- R328: a chain of three nodes is a tree, a node with two parents is none. -/
theorem test_tree_mask : maskOk [1, 3, 7] 3 = true ∧ maskOk [1, 2, 7] 3 = false ∧ maskOk [1, 2, 5] 3 = true ∧ maskOk [1, 3, 7] 2 = false := by decide +kernel

/-- 04_timekeeping.md, the example after R106. -/
theorem test_can_stamps : ((canStampOfNs 6 - canStampOfNs 4294967290) : BitVec 32).toInt = 12 := by decide +kernel

/-- The CRC-32 of R597 over the nine digits, its published check value. -/
theorem test_crc32 : crc32 (ascii "123456789") = 0xCBF43926 := by decide +kernel

/-- FIPS 202: the SHA3-512 of the empty message begins a6 9f 73 cc. -/
theorem test_sha3 : (sha3_512 []).take 4 = [0xA6, 0x9F, 0x73, 0xCC] := by decide +kernel

/-! ### One step on a small state -/

theorem test_step_front : step { State.reset with pending := [.mgtLinkUp, .mgtLinkDown] } = .next { (State.reset.setFld R.MGT_STAT F.MGT_STAT_LINK 1) with pending := [.mgtLinkDown] } := rfl

theorem test_step_idle : step State.reset = .next State.reset := rfl

/-- R101, R613: the first tick after the lock of the PLL is 4 ns. -/
theorem test_tick : (match exec .timeTick { State.reset with time := { State.reset.time with running := true } } with
    | .next t => t.nowNs
    | _ => 0) = 4 := by decide +kernel

end Sys2Proof.Tests
end

section
/-! SUPPORT. What each function of the model keeps (the structure Keeps), one lemma per function, in the order of the model; at the end every command.
A lemma takes a proof that the state it is applied to keeps an earlier state s₀, and answers that the result keeps s₀ too: a chain such as
hk.setFld'.rest.coreFlags reads as the updates of the model in the order in which they are made. -/

namespace Sys2Proof.Machine

-- The lemmas lean on each other in long chains; elaborated one after another they do not each hold a thread while they wait.
set_option Elab.async false

variable {s₀ : State}

/-- An update of none of the parts that Keeps speaks of. -/
theorem Keeps.rest {t : State} (hk : Keeps s₀ t) {poison : List Nat} {time : TimeSt} {queues : List (Nat × Queue)} {sched : SchedSt}
    {cores : List (Nat × Core)} {host : HostSt} {windows : List (Nat × List Window)} {spd : SpdSt} {ctl : CtlSt} {io : IoSt} {plumb : PlumbSt}
    {rep : RepSt} {recorder : RecSt} {staged : Option FabOwn} {hbm : HbmSt} {fab : FabSt} {kv : KvSt} {sol : SolSt} {chd : ChdSt} {det : DetSt}
    {img : ImgSt} {tok : TokSt} {pwr : PwrSt} {mgt : MgtSt} {sec : SecSt}
    (h : (time.ns, spd.ecc, rep.failed) = (t.time.ns, t.spd.ecc, t.rep.failed) := by rfl) :
    Keeps s₀ ⟨t.regs, t.mem, poison, time, queues, sched, cores, host, windows, spd, ctl, io, plumb, rep, recorder, staged, hbm, fab, kv, sol, chd,
      det, img, tok, pwr, mgt, sec, t.out, t.freeCtr, t.pending⟩ := by
  simp only [Prod.mk.injEq] at h
  obtain ⟨hn, he, hx⟩ := h
  exact hk.trans (.same rfl rfl he hn rfl rfl rfl hx)

/-- An update that keeps each canonical form and the range of TIME_NS, and leaves the rest of what Keeps speaks of alone. -/
theorem Keeps.forms {s t : State} (hk : Keeps s₀ s) (hr : Registers.wf s.regs = true → Registers.wf t.regs = true)
    (hm : Memory.wf s.mem = true → Memory.wf t.mem = true) (he : Store.wf (fun _ => 0) s.spd.ecc = true → Store.wf (fun _ => 0) t.spd.ecc = true)
    (hn : s.time.ns < 1000000000 → t.time.ns < 1000000000)
    (h : (t.pending, t.out, t.freeCtr, t.rep.failed) = (s.pending, s.out, s.freeCtr, s.rep.failed)) : Keeps s₀ t := by
  simp only [Prod.mk.injEq] at h
  obtain ⟨hp, ho, hf, hx⟩ := h
  refine hk.trans ⟨fun w => ?_, hp, by rw [ho], by rw [hf], hx⟩
  rw [State.wf_iff] at w ⊢
  obtain ⟨wr, wm, we, wn⟩ := w
  exact ⟨hr wr, hm wm, he we, hn wn⟩

/-- A choice between two updates keeps what both keep. -/
theorem Keeps.either {t u : State} {p : Prop} [Decidable p] (ht : Keeps s₀ t) (hu : Keeps s₀ u) : Keeps s₀ (if p then t else u) :=
  .ite _ (fun _ => ht) (fun _ => hu)

section
variable {s : State} (hk : Keeps s₀ s)
include hk

theorem Keeps.setReg' {off : Nat} {v : Word} : Keeps s₀ (s.setReg off v) := hk.trans (.setReg ..)
theorem Keeps.setFld' {off : Nat} {f : Fld} {x : Nat} : Keeps s₀ (s.setFld off f x) := hk.trans (.setFld ..)
theorem Keeps.setBit' {off : Nat} {f : Fld} {b : Bool} : Keeps s₀ (s.setBit off f b) := hk.trans (.setBit ..)
theorem Keeps.satAdd' {off n : Nat} {f : Fld} : Keeps s₀ (s.satAdd off f n) := hk.trans (.satAdd ..)
theorem Keeps.wrapAdd' {off n : Nat} {f : Fld} : Keeps s₀ (s.wrapAdd off f n) := hk.trans (.wrapAdd ..)
theorem Keeps.wr' {a : Nat} {b : Byte} : Keeps s₀ (s.wr a b) := hk.trans (.wr ..)
theorem Keeps.wrBytes' {a : Nat} {l : List Byte} : Keeps s₀ (s.wrBytes a l) := hk.trans (.wrBytes ..)
theorem Keeps.wrN' {a n x : Nat} : Keeps s₀ (s.wrN a n x) := hk.trans (.wrN ..)
theorem Keeps.emit' {o : Output} : Keeps s₀ (s.emit o) := hk.trans (.emit ..)
theorem Keeps.draw : Keeps s₀ s.free.2 := hk.trans (.free' s)
theorem Keeps.drawN {n : Nat} : Keeps s₀ { s with freeCtr := s.freeCtr + n } :=
  hk.trans ⟨id, rfl, List.prefix_refl _, Nat.le_add_right _ _, rfl⟩
theorem Keeps.setPba' {v : Nat} {b : Bool} : Keeps s₀ (s.setPba v b) := hk.trans (.setPba ..)
theorem Keeps.sendVec' {v : Nat} : Keeps s₀ (s.sendVec v) := hk.trans (.sendVec ..)
theorem Keeps.raiseVec' {v : Nat} : Keeps s₀ (s.raiseVec v) := hk.trans (.raiseVec ..)
theorem Keeps.irqEdge' {i : Nat} {b : Bool} : Keeps s₀ (s.irqEdge i b) := hk.trans (.irqEdge ..)
theorem Keeps.event' {kind source : Nat} {d0 d1 : Word} : Keeps s₀ (s.event kind source d0 d1) := hk.trans (.event ..)
theorem Keeps.answer' {r : Req} {off : Nat} {h : Half} {v : Word} : Keeps s₀ (s.answer r off h v) := hk.trans (.answer ..)
theorem Keeps.partialWrite' {r : Req} : Keeps s₀ (s.partialWrite r) := hk.trans (.partialWrite ..)
theorem Keeps.writeFields' {off : Nat} {h : Half} {v : Word} : Keeps s₀ (s.writeFields off h v) := hk.trans (.writeFields ..)
theorem Keeps.clearRC' {off : Nat} {h : Half} : Keeps s₀ (s.clearRC off h) := hk.trans (.clearRC ..)

theorem Keeps.withCause' {i : Nat} {f : State → State} (hf : Keeps s₀ s → Keeps s₀ (f s)) : Keeps s₀ (s.withCause i f) := (hf hk).irqEdge'

/-- An update over a list keeps what each of its steps keeps. -/
theorem Keeps.foldl' {α : Type} {f : State → α → State} (hf : ∀ t x, Keeps s₀ t → Keeps s₀ (f t x)) {l : List α} : Keeps s₀ (l.foldl f s) := by
  induction l generalizing s with
  | nil => exact hk
  | cons x r ih => exact ih (hf _ _ hk)

end

/-- What every command does: it answers a next state, which keeps the state before. -/
def Moves (s : State) (o : Out) : Prop := ∃ t, o = .next t ∧ Keeps s t

theorem Moves.next {s t : State} (h : Keeps s t) : Moves s (.next t) := ⟨t, rfl, h⟩

/-! ### Flags -/
theorem Keeps.setQueue {s : State} (hk : Keeps s₀ s) {q : Nat} {x : Queue} : Keeps s₀ (s.setQueue q x) := hk.rest

theorem Keeps.updHead {s : State} (hk : Keeps s₀ s) {q : Nat} {f : Cmd → Cmd} : Keeps s₀ (s.updHead q f) := by
  unfold State.updHead
  split
  · exact hk
  · exact hk.setQueue

theorem Keeps.cmdFlags {s : State} (hk : Keeps s₀ s) {q : Nat} {fl : BitVec 24} : Keeps s₀ (s.cmdFlags q fl) := hk.updHead

theorem Keeps.cmdStatus {s : State} (hk : Keeps s₀ s) {q : Nat} {st : BitVec 8} : Keeps s₀ (s.cmdStatus q st) := hk.updHead

theorem Keeps.endCmd {s : State} (hk : Keeps s₀ s) {q : Nat} {st : BitVec 8} : Keeps s₀ (s.endCmd q st) := hk.updHead

theorem Keeps.setCore {s : State} (hk : Keeps s₀ s) {n : Nat} {x : Core} : Keeps s₀ (s.setCore n x) := hk.rest

theorem Keeps.coreFlags {s : State} (hk : Keeps s₀ s) {n : Nat} {fl : BitVec 24} : Keeps s₀ (s.coreFlags n fl) := by
  unfold State.coreFlags
  split
  · exact hk.cmdFlags
  · exact hk

theorem Keeps.coreFmt {s : State} (hk : Keeps s₀ s) {n : Nat} {fl : FmtFlags} : Keeps s₀ (s.coreFmt n fl) :=
  .either hk hk.coreFlags

theorem Keeps.coreErr {s : State} (hk : Keeps s₀ s) {n bitNo source column : Nat} : Keeps s₀ (s.coreErr n bitNo source column) :=
  hk.withCause' (fun hk => .either hk.setReg'.setReg' hk.setReg')

theorem Keeps.coreErrAddr {s : State} (hk : Keeps s₀ s) {n addr : Nat} : Keeps s₀ (s.coreErrAddr n addr) :=
  .either hk hk.setReg'

theorem Keeps.coreDenied {s : State} (hk : Keeps s₀ s) {n source addr : Nat} : Keeps s₀ (s.coreDenied n source addr) :=
  hk.coreErrAddr.coreErr.coreFlags

theorem Keeps.coreUnmapped {s : State} (hk : Keeps s₀ s) {n source addr : Nat} : Keeps s₀ (s.coreUnmapped n source addr) :=
  hk.coreErrAddr.coreErr.coreFlags

theorem Keeps.coreFmtIllegal {s : State} (hk : Keeps s₀ s) {n source : Nat} : Keeps s₀ (s.coreFmtIllegal n source) := hk.coreErr.coreFmt

/-! ### Access -/
theorem Keeps.refuseAccess {s : State} (hk : Keeps s₀ s) {r : Req} {off : Nat} : Keeps s₀ (s.refuseAccess r off) := by
  unfold State.refuseAccess
  split
  · exact hk.coreDenied
  · exact hk.satAdd'
  · exact hk

/-- A guarded write keeps what its effect keeps. -/
theorem Keeps.guardW {s : State} (hk : Keeps s₀ s) {r : Req} {off : Nat} {f : State → State} (hf : Keeps s₀ s → Keeps s₀ (f s)) :
    Keeps s₀ (s.guardW r off f) :=
  .either hk (.either (hf hk) (.either hk hk.refuseAccess))

/-- A guarded read keeps what its effect keeps. -/
theorem Keeps.guardR {s : State} (hk : Keeps s₀ s) {r : Req} {off : Nat} {h : Half} {f : State → State} (hf : Keeps s₀ s → Keeps s₀ (f s)) :
    Keeps s₀ (s.guardR r off h f) :=
  .either hk.emit' (.either hk.answer' (.either hk.answer' (.either (hf hk) hk.refuseAccess.answer')))

/-! ### Time -/
theorem Keeps.setTime {s : State} (hk : Keeps s₀ s) {t : Nat} : Keeps s₀ (s.setTime t) :=
  hk.forms id id id (fun _ => Nat.mod_lt _ (by decide)) rfl

theorem Keeps.enterHold {s : State} (hk : Keeps s₀ s) {cause : Nat} : Keeps s₀ (s.enterHold cause) := by
  unfold State.enterHold
  refine .either hk ?_
  extract_lets +onlyGivenNames -merge s1 _ s2
  have hs1 : Keeps s₀ s1 := hk.withCause' (fun hk => hk.setFld'.setFld')
  have hs2 : Keeps s₀ s2 := by
    unfold s2
    split
    · exact hs1.rest.setFld'
    · exact hs1
  exact hs2.event'

theorem Keeps.endHold {s : State} (hk : Keeps s₀ s) : Keeps s₀ s.endHold :=
  .either hk.setFld'.setFld'.rest hk

theorem Keeps.rehold {s : State} (hk : Keeps s₀ s) : Keeps s₀ s.rehold :=
  .either (.either hk.rest.enterHold (.either hk.rest.enterHold hk.rest)) hk

theorem Keeps.setDue {s : State} (hk : Keeps s₀ s) {n : Nat} {d : Option CmpDue} : Keeps s₀ (s.setDue n d) := hk.rest

theorem Keeps.setArmed {s : State} (hk : Keeps s₀ s) {n : Nat} {b : Bool} : Keeps s₀ (s.setArmed n b) := hk.rest

theorem Keeps.cmpSetNext {s : State} (hk : Keeps s₀ s) {n : Nat} {w : Word} : Keeps s₀ (s.cmpSetNext n w) := hk.setReg'.setArmed

theorem Keeps.markDue {s : State} (hk : Keeps s₀ s) {prev : Word} {k : Nat} : Keeps s₀ (s.markDue prev k) := by
  induction k generalizing s prev with
  | zero => exact hk
  | succ n ih => exact .either (.setDue (ih hk)) (ih hk)

theorem Keeps.stepCompares {s : State} (hk : Keeps s₀ s) {d : Int} {k : Nat} : Keeps s₀ (s.stepCompares d k) := by
  induction k generalizing s d with
  | zero => exact hk
  | succ n ih =>
    unfold State.stepCompares
    refine .either (ih hk) ?_
    extract_lets +onlyGivenNames -merge nx
    split
    · exact .setReg' (ih hk)
    · exact .either (ih hk) (.either (.either (.setReg' (ih hk)) (ih hk)) (.either (.setDue (ih hk)) (ih hk)))
    · exact .either (.setDue (ih hk)) (ih hk)

theorem Keeps.cmpFired {s : State} (hk : Keeps s₀ s) {n : Nat} {d : CmpDue} : Keeps s₀ (s.cmpFired n d) := by
  unfold State.cmpFired
  extract_lets +onlyGivenNames -merge s1 nx
  have hs1 : Keeps s₀ s1 := hk.wrapAdd'.setDue
  split
  · exact hs1.setReg'
  · exact hs1.satAdd'.setReg'
  · extract_lets +onlyGivenNames -merge s2
    have hs2 : Keeps s₀ s2 := hs1.setReg'.setArmed
    exact .either hs2.setFld' hs2

theorem Keeps.cmpStart {s : State} (hk : Keeps s₀ s) {n : Nat} : Keeps s₀ (s.cmpStart n) :=
  .either hk.setDue.setReg'.setArmed hk.setDue.cmpSetNext

theorem Keeps.applySwitch {s : State} (hk : Keeps s₀ s) : Keeps s₀ s.applySwitch :=
  .either hk.setFld'.setFld'.setFld'.setFld'.setFld'.rest.endHold.setFld'.setFld' hk

theorem Keeps.applyStep {s : State} (hk : Keeps s₀ s) : Keeps s₀ s.applyStep := by
  unfold State.applyStep
  split
  · exact hk
  · exact hk.rest.setTime.stepCompares

theorem Keeps.applyRate {s : State} (hk : Keeps s₀ s) : Keeps s₀ s.applyRate := by
  unfold State.applyRate
  split
  · exact hk
  · exact hk.rest.setFld'

theorem Keeps.altLapse {s : State} (hk : Keeps s₀ s) : Keeps s₀ s.altLapse := by
  unfold State.altLapse
  split
  · exact .either hk.setFld' hk
  · exact hk

theorem Keeps.tickTime {s : State} (hk : Keeps s₀ s) : Keeps s₀ s.tickTime :=
  .either hk.rest.setTime.markDue.applyStep.rehold.applyRate.applySwitch.altLapse hk

theorem Keeps.writeTimeStep {s : State} (hk : Keeps s₀ s) {r : Req} {h : Half} {v : Word} : Keeps s₀ (s.writeTimeStep r h v) :=
  hk.guardW (fun hk => .either hk.partialWrite' (.either hk (.either hk.setFld' hk.setFld'.setFld'.rest)))

theorem Keeps.writeTimeRate {s : State} (hk : Keeps s₀ s) {r : Req} {h : Half} {v : Word} : Keeps s₀ (s.writeTimeRate r h v) :=
  hk.guardW (fun hk => .either hk (.either hk (.either hk.setFld' (.rest (.either hk.setFld' hk)))))

theorem Keeps.writeAltRate {s : State} (hk : Keeps s₀ s) {r : Req} {h : Half} {v : Word} : Keeps s₀ (s.writeAltRate r h v) :=
  hk.guardW (fun hk => .either hk (.setFld' (.either hk.setFld' hk)))

theorem Keeps.writeAltOffset {s : State} (hk : Keeps s₀ s) {r : Req} {h : Half} {v : Word} : Keeps s₀ (s.writeAltOffset r h v) :=
  hk.guardW (fun hk => .either hk.writeFields' hk)

theorem Keeps.writeAltCtl {s : State} (hk : Keeps s₀ s) {r : Req} {h : Half} {v : Word} : Keeps s₀ (s.writeAltCtl r h v) :=
  hk.guardW (fun hk => .either hk (.either (.either hk.setFld' hk) hk.setFld'.setFld'.rest))

theorem Keeps.newSession {s : State} (hk : Keeps s₀ s) : Keeps s₀ s.newSession := hk.setFld'.setFld'.endHold

theorem Keeps.switchAlt {s : State} (hk : Keeps s₀ s) : Keeps s₀ s.switchAlt :=
  .either hk.rest hk.setFld'

theorem Keeps.timeCtl {s : State} (hk : Keeps s₀ s) {r : Req} {f : State → State} (hf : Keeps s₀ s → Keeps s₀ (f s)) : Keeps s₀ (s.timeCtl r f) :=
  hk.guardW (fun hk => .either (hf hk) hk)

theorem Keeps.writeTimeCtl {s : State} (hk : Keeps s₀ s) {r : Req} {h : Half} {v : Word} : Keeps s₀ (s.writeTimeCtl r h v) := by
  unfold State.writeTimeCtl
  refine .either hk (hk.timeCtl (fun hk => ?_))
  extract_lets +onlyGivenNames -merge s1 s2 s3
  have hs1 : Keeps s₀ s1 := .either hk.newSession hk
  have hs2 : Keeps s₀ s2 := .either hs1.setFld' hs1
  have hs3 : Keeps s₀ s3 := .either hs2.endHold hs2
  exact .either hs3.switchAlt hs3

theorem Keeps.writeCmpArm {s : State} (hk : Keeps s₀ s) {n : Nat} {r : Req} {h : Half} {v : Word} : Keeps s₀ (s.writeCmpArm n r h v) :=
  hk.guardW (fun hk => .either hk.partialWrite' (.either hk.cmpSetNext hk))

theorem Keeps.readTimeNow {s : State} (hk : Keeps s₀ s) {r : Req} {h : Half} : Keeps s₀ (s.readTimeNow r h) :=
  hk.guardR (fun hk => hk.rest.answer')

theorem Keeps.setEvtFifo {s : State} (hk : Keeps s₀ s) {k : Nat} {l : List (Bool × Word)} : Keeps s₀ (s.setEvtFifo k l) :=
  hk.rest.setFld'.setFld'

theorem Keeps.readEvtStamp {s : State} (hk : Keeps s₀ s) {k : Nat} {r : Req} {h : Half} : Keeps s₀ (s.readEvtStamp k r h) := by
  unfold State.readEvtStamp
  refine hk.guardR (fun hk => ?_)
  split
  · exact hk.answer'
  · exact hk.setEvtFifo.answer'

theorem Keeps.evtPush {s : State} (hk : Keeps s₀ s) {k : Nat} {rising : Bool} {w : Word} : Keeps s₀ (s.evtPush k rising w) :=
  .either hk.satAdd' hk.setEvtFifo

theorem Moves.timeCtlNewSession {s : State} (hk : Keeps s₀ s) {r : Req} : Moves s₀ (execTimeCtlNewSession r s) :=
  .next (hk.timeCtl (fun hk => hk.newSession))

theorem Moves.timeCtlDeclareValid {s : State} (hk : Keeps s₀ s) {r : Req} : Moves s₀ (execTimeCtlDeclareValid r s) :=
  .next (hk.timeCtl (fun hk => hk.setFld'))

theorem Moves.timeCtlEndHoldover {s : State} (hk : Keeps s₀ s) {r : Req} : Moves s₀ (execTimeCtlEndHoldover r s) :=
  .next (hk.timeCtl (fun hk => hk.endHold))

theorem Moves.timeCtlSwitchAlt {s : State} (hk : Keeps s₀ s) {r : Req} : Moves s₀ (execTimeCtlSwitchAlt r s) :=
  .next (hk.timeCtl (fun hk => hk.switchAlt))

theorem Moves.syncLossTimeout {s : State} (hk : Keeps s₀ s) : Moves s₀ (execSyncLossTimeout s) :=
  .next (.either hk.enterHold hk)

theorem Moves.refLoss {s : State} (hk : Keeps s₀ s) : Moves s₀ (execRefLoss s) :=
  .next (.enterHold (hk.withCause' (fun hk => hk.setFld')))

theorem Moves.ppsOutRise {s : State} (hk : Keeps s₀ s) : Moves s₀ (execPpsOutRise s) :=
  .next (.either hk.rest hk)

theorem Moves.ppsOutFall {s : State} (hk : Keeps s₀ s) : Moves s₀ (execPpsOutFall s) :=
  .next (.either hk.rest hk)

/-! ### Queues -/
theorem Keeps.updIdle {s : State} (hk : Keeps s₀ s) {q : Nat} : Keeps s₀ (s.updIdle q) := hk.setBit'

theorem Keeps.ringCmd {s : State} (hk : Keeps s₀ s) {q : Nat} {p : BitVec 32} : Keeps s₀ (s.ringCmd q p) := by
  unfold State.ringCmd
  split
  · exact .either hk hk.setFld'
  · exact .either hk.setQueue hk.setFld'

theorem Keeps.ringCpl {s : State} (hk : Keeps s₀ s) {q : Nat} {c : BitVec 32} : Keeps s₀ (s.ringCpl q c) := by
  unfold State.ringCpl
  split
  · exact .either hk hk.setFld'
  · exact .either hk.setQueue hk.setFld'

theorem Keeps.writeDoorbell {s : State} (hk : Keeps s₀ s) {q : Nat} {r : Req} {h : Half} {v : Word} : Keeps s₀ (s.writeDoorbell q r h v) := by
  unfold State.writeDoorbell
  refine hk.guardW (fun hk => (.either hk ?_))
  extract_lets +onlyGivenNames -merge s1
  have hs1 : Keeps s₀ s1 := .either hk hk.ringCmd
  exact .either hs1 hs1.ringCpl

theorem Keeps.pushCmd {s : State} (hk : Keeps s₀ s) {q : Nat} {c : Cmd} : Keeps s₀ (s.pushCmd q c) := hk.setQueue

theorem Keeps.ctxState {s : State} (hk : Keeps s₀ s) {x st : Nat} : Keeps s₀ (s.ctxState x st) := hk.setFld'

theorem Keeps.acceptCmd {s : State} (hk : Keeps s₀ s) {q : Nat} {d : List Byte} {seq : BitVec 32} : Keeps s₀ (s.acceptCmd q d seq) := by
  unfold State.acceptCmd
  extract_lets +onlyGivenNames -merge s1 _ s2 o
  have hs2 : Keeps s₀ s2 := hk.setFld'.rest
  refine .either hs2.pushCmd (.either hs2.pushCmd ?_)
  extract_lets +onlyGivenNames -merge c s3
  have hs3 : Keeps s₀ s3 := hs2.pushCmd
  exact .either hs3.ctxState.setFld' hs3

theorem Keeps.takeDescriptor {s : State} (hk : Keeps s₀ s) {q : Nat} {d : List Byte} {poisoned : Bool} : Keeps s₀ (s.takeDescriptor q d poisoned) :=
  .either hk.wrapAdd'.pushCmd (.either hk.wrapAdd'.pushCmd (.either hk.wrapAdd'.acceptCmd hk.wrapAdd'.satAdd'.pushCmd))

theorem Keeps.hostRead {s : State} (hk : Keeps s₀ s) {what : ReadFor} {addr len : Nat} : Keeps s₀ (s.hostRead what addr len) :=
  hk.emit'.rest

theorem Moves.descriptorFetch {s : State} (hk : Keeps s₀ s) {q : BitVec 16} : Moves s₀ (execDescriptorFetch q s) :=
  .next (.either (.either (.either hk.hostRead hk.satAdd'.takeDescriptor) hk.takeDescriptor) hk)

theorem Keeps.readQueSeq {s : State} (hk : Keeps s₀ s) {q : Nat} {r : Req} {h : Half} : Keeps s₀ (s.readQueSeq q r h) :=
  hk.guardR (fun hk => hk.rest.answer')

theorem Keeps.readQueRing {s : State} (hk : Keeps s₀ s) {q : Nat} {r : Req} {h : Half} : Keeps s₀ (s.readQueRing q r h) := by
  unfold State.readQueRing
  refine hk.guardR (fun hk => ?_)
  extract_lets +onlyGivenNames -merge k
  split
  · exact hk.rest.answer'
  · exact hk.answer'

theorem Keeps.dropLate {s : State} (hk : Keeps s₀ s) {q : Nat} : Keeps s₀ (s.dropLate q) := hk.updHead.satAdd'

theorem Keeps.startCmd {s : State} (hk : Keeps s₀ s) {q : Nat} {core : Option Nat} : Keeps s₀ (s.startCmd q core) := hk.updHead

theorem Keeps.giveCore {s : State} (hk : Keeps s₀ s) {q n : Nat} : Keeps s₀ (s.giveCore q n) := by
  unfold State.giveCore
  split
  · exact hk
  · extract_lets +onlyGivenNames -merge resumed s1 k s2 s3 s4
    have hs4 : Keeps s₀ s4 := .setFld' (.setFld' (.ctxState (.setFld' (.setFld' (.setCore (.either hk.updHead hk.startCmd))))))
    exact .either hs4.satAdd' hs4

theorem Keeps.dispatchCore {s : State} (hk : Keeps s₀ s) {q : Nat} : Keeps s₀ (s.dispatchCore q) := by
  unfold State.dispatchCore
  split
  · exact hk
  · extract_lets +onlyGivenNames -merge al
    refine .either hk.endCmd (.either hk.updHead (.either hk.dropLate (.either hk ?_)))
    split
    · exact hk.giveCore
    · split
      · exact hk.setCore
      · exact hk

theorem Keeps.setBusy {s : State} (hk : Keeps s₀ s) {u inst : Nat} {b : Bool} : Keeps s₀ (s.setBusy u inst b) := by
  unfold State.setBusy
  split
  · exact hk.setBit'
  · exact hk.setBit'
  · exact hk.setBit'
  · exact hk.setBit'
  · exact hk

theorem Keeps.dispatchUnit {s : State} (hk : Keeps s₀ s) {q : Nat} : Keeps s₀ (s.dispatchUnit q) := by
  unfold State.dispatchUnit
  split
  · exact hk
  · exact .either hk.dropLate hk.startCmd.setBusy

theorem Moves.commandDispatch {s : State} (hk : Keeps s₀ s) {c : Fin 8} {u : CmdUnit} {inst : Fin 4} : Moves s₀ (execCommandDispatch c u inst s) := by
  unfold execCommandDispatch
  refine .next ?_
  extract_lets +onlyGivenNames -merge k ws
  refine .either hk (.either ?_ ?_)
  · extract_lets +onlyGivenNames -merge ready
    split
    · exact hk
    · exact .either hk hk.dispatchCore
  · refine .either hk ?_
    split
    · exact hk
    · exact hk.dispatchUnit

theorem Keeps.expire {s : State} (hk : Keeps s₀ s) {q : Nat} {extra : BitVec 24} : Keeps s₀ (s.expire q extra) := hk.updHead

theorem Keeps.freeCore {s : State} (hk : Keeps s₀ s) {n : Nat} : Keeps s₀ (s.freeCore n) := by
  unfold State.freeCore
  extract_lets +onlyGivenNames -merge k x _ s0 s1 s2 waits
  have hs1 : Keeps s₀ s1 := hk.rest.setCore
  exact .ctxState (.either hs1 hs1.setFld')

theorem Keeps.endOnCore {s : State} (hk : Keeps s₀ s) {n : Nat} {st : BitVec 8} : Keeps s₀ (s.endOnCore n st) := by
  unfold State.endOnCore
  split
  · exact hk
  · exact hk.endCmd.freeCore

theorem Moves.deadlineExpiry {s : State} (hk : Keeps s₀ s) {q : BitVec 16} : Moves s₀ (execDeadlineExpiry q s) := by
  unfold execDeadlineExpiry
  refine .next ?_
  split
  · exact hk
  · exact .either hk.expire hk

theorem Moves.stepBudgetExhausted {s : State} (hk : Keeps s₀ s) {q : BitVec 16} : Moves s₀ (execStepBudgetExhausted q s) := by
  unfold execStepBudgetExhausted
  refine .next ?_
  split
  · exact hk
  · exact .either (.either (.either hk (.either (.either hk.coreErr.expire hk.expire) hk)) (.either hk.expire hk)) hk

theorem Keeps.setSaved {s : State} (hk : Keeps s₀ s) {q : Nat} {x : Option Saved} : Keeps s₀ (s.setSaved q x) := hk.rest

theorem Keeps.discardSuspended {s : State} (hk : Keeps s₀ s) {q : Nat} {st : BitVec 8} : Keeps s₀ (s.discardSuspended q st) := by
  unfold State.discardSuspended
  split
  · exact hk.endCmd.setSaved.ctxState
  · exact hk

theorem Moves.suspendedDeadlinePass {s : State} (hk : Keeps s₀ s) {q : BitVec 16} : Moves s₀ (execSuspendedDeadlinePass q s) := by
  unfold execSuspendedDeadlinePass
  refine .next ?_
  split
  · exact hk
  · exact .either hk.cmdFlags.discardSuspended hk

theorem Moves.quantumExpiry {s : State} (hk : Keeps s₀ s) {n : Fin 16} : Moves s₀ (execQuantumExpiry n s) :=
  .next (.either hk.setCore hk)

theorem Keeps.suspend {s : State} (hk : Keeps s₀ s) {n q : Nat} {sliced : Bool} : Keeps s₀ (s.suspend n q sliced) :=
  .setFld' (.setCore (.either hk.updHead.rest.satAdd' hk.updHead))

theorem Moves.contextSaveDone {s : State} (hk : Keeps s₀ s) {n : Fin 16} : Moves s₀ (execContextSaveDone n s) := by
  unfold execContextSaveDone
  refine .next ?_
  extract_lets +onlyGivenNames -merge k
  split
  · exact hk
  · exact .either hk.setSaved.updHead.wrapAdd'.setFld'.satAdd'.freeCore.ctxState hk

theorem Keeps.abandon {s : State} (hk : Keeps s₀ s) {q : Nat} : Keeps s₀ (s.abandon q) := by
  unfold State.abandon
  extract_lets +onlyGivenNames -merge hd _ s1
  clear_value hd
  split
  · exact .either hk.setQueue.setSaved.ctxState (.either hk.setQueue.freeCore (.either hk.setQueue.setBusy hk.setQueue))
  · exact hk.setQueue

theorem Keeps.queueDisable {s : State} (hk : Keeps s₀ s) {q : Nat} {r : Req} {abandon : Bool} : Keeps s₀ (s.queueDisable q r abandon) := by
  unfold State.queueDisable
  refine hk.guardW (fun hk => (.either hk ?_))
  extract_lets +onlyGivenNames -merge s1
  have hs1 : Keeps s₀ s1 := hk.setFld'.setBit'
  exact .updIdle (.either hs1.abandon hs1)

theorem Keeps.queueEnable {s : State} (hk : Keeps s₀ s) {q : Nat} {r : Req} : Keeps s₀ (s.queueEnable q r) :=
  hk.guardW (fun hk => .either hk hk.setFld'.updIdle)

theorem Moves.queueDrainTimeout {s : State} (hk : Keeps s₀ s) {q : BitVec 16} : Moves s₀ (execQueueDrainTimeout q s) :=
  .next (.either hk.abandon.updIdle hk)

theorem Keeps.setTokens {s : State} (hk : Keeps s₀ s) {c k : Nat} {t : Int} : Keeps s₀ (s.setTokens c k t) := hk.rest

theorem Moves.regulatorAdmit {s : State} (hk : Keeps s₀ s) {c : Fin 8} {k : Fin 7} {size : BitVec 32} {idle : Bool} :
    Moves s₀ (execRegulatorAdmit c k size idle s) :=
  .next (.either hk.setTokens hk.satAdd')

theorem Keeps.refill {s : State} (hk : Keeps s₀ s) {c k : Nat} : Keeps s₀ (s.refill c k) := by
  induction k generalizing s c with
  | zero => exact hk
  | succ n ih => exact .either (ih hk) (.setTokens (ih hk))

/-! ### Memory -/
theorem Keeps.putByte {s : State} (hk : Keeps s₀ s) {key : Nat} {b : Byte} : Keeps s₀ (s.putByte key b) :=
  .either hk.wr' (hk.wr'.forms id id (Store.wf_set _ _ (key / 8 * 8) 0) id rfl)

theorem Keeps.writeByte {s : State} (hk : Keeps s₀ s) {g : Agent} {a : Nat} {b : Byte} : Keeps s₀ (s.writeByte g a b).state := by
  unfold State.writeByte
  split
  · exact hk.putByte
  · exact hk
  · exact hk

theorem Keeps.writeBytes {s : State} (hk : Keeps s₀ s) {g : Agent} {a : Nat} {l : List Byte} : Keeps s₀ (s.writeBytes g a l).state := by
  induction l generalizing s g a with
  | nil => exact hk
  | cons b r ih => exact ih hk.writeByte

theorem Keeps.unpoison {s : State} (hk : Keeps s₀ s) {a n : Nat} : Keeps s₀ (s.unpoison a n) := hk.rest

theorem Keeps.writeMem {s : State} (hk : Keeps s₀ s) {g : Agent} {a : Nat} {l : List Byte} : Keeps s₀ (s.writeMem g a l).state := by
  unfold State.writeMem
  extract_lets +onlyGivenNames -merge x
  split
  · exact hk.writeBytes.unpoison
  · exact hk.writeBytes

theorem Keeps.addPoison {s : State} (hk : Keeps s₀ s) {a n : Nat} : Keeps s₀ (s.addPoison a n) := hk.rest

/-! ### Record -/
theorem Keeps.ringBytes {s : State} (hk : Keeps s₀ s) {base len p : Nat} {l : List Byte} : Keeps s₀ (s.ringBytes base len p l) := by
  induction l generalizing s base len p with
  | nil => exact hk
  | cons b r ih => exact ih hk.wr'

theorem Keeps.recWrite {s : State} (hk : Keeps s₀ s) {l : List Byte} : Keeps s₀ (s.recWrite l) :=
  .either hk (.either hk.setFld'.setFld' hk.ringBytes.setReg'.setTokens)

theorem Keeps.recDrop {s : State} (hk : Keeps s₀ s) : Keeps s₀ s.recDrop := hk.satAdd'.rest

theorem Keeps.record {s : State} (hk : Keeps s₀ s) {cls kind source flags : Nat} {stamp aux : Word} {payload : List Byte} :
    Keeps s₀ (s.record cls kind source flags stamp aux payload) :=
  .either (.either hk.recDrop (.either hk.rest.recWrite hk.rest)) hk

theorem Keeps.recFlush {s : State} (hk : Keeps s₀ s) : Keeps s₀ s.recFlush := by
  unfold State.recFlush
  split
  · exact hk
  · exact .either hk.rest.recDrop (.either hk.rest.recWrite hk)

theorem Moves.recordGapEntry {s : State} (hk : Keeps s₀ s) : Moves s₀ (execRecordGapEntry s) :=
  .next (.either hk (.either hk.rest.recWrite hk.rest))

theorem Keeps.liveInput {s : State} (hk : Keeps s₀ s) {cls : Nat} {f : State → State} (hf : Keeps s₀ s → Keeps s₀ (f s)) :
    Keeps s₀ (s.liveInput cls f) :=
  .either hk.satAdd' (hf hk)

/-! ### Actuators -/
theorem Keeps.setSlot {s : State} (hk : Keeps s₀ s) {i : Nat} {x : Slot} : Keeps s₀ (s.setSlot i x) := hk.rest

theorem Keeps.setGrp {s : State} (hk : Keeps s₀ s) {g : Nat} {x : Grp} : Keeps s₀ (s.setGrp g x) := hk.rest

theorem Keeps.setSel {s : State} (hk : Keeps s₀ s) {m : Nat} {x : Sel} : Keeps s₀ (s.setSel m x) := hk.rest

theorem Keeps.setAct {s : State} (hk : Keeps s₀ s) {a : Nat} {x : Act} : Keeps s₀ (s.setAct a x) := hk.rest

theorem Keeps.actCheck {s : State} (hk : Keeps s₀ s) {k : Nat} : Keeps s₀ (s.actCheck k) := by
  induction k generalizing s with
  | zero => exact hk
  | succ n ih =>
    unfold State.actCheck
    refine .either ?_ (ih hk)
    extract_lets +onlyGivenNames -merge s2
    have hs2 : Keeps s₀ s2 := .setBit' (ih hk)
    exact .either hs2 hs2.setFld'

theorem Keeps.actStop {s : State} (hk : Keeps s₀ s) : Keeps s₀ s.actStop := hk.actCheck

theorem Keeps.actDrive {s : State} (hk : Keeps s₀ s) {a : Nat} : Keeps s₀ (s.actDrive a) := by
  unfold State.actDrive
  extract_lets +onlyGivenNames -merge s1
  have hs1 : Keeps s₀ s1 := .either hk.setFld' hk
  exact .either hs1.setFld' hs1

theorem Keeps.actMirror {s : State} (hk : Keeps s₀ s) {a : Nat} : Keeps s₀ (s.actMirror a) :=
  .either hk.setFld'.setFld'.setFld'.setReg' hk

theorem Keeps.applyPwm {s : State} (hk : Keeps s₀ s) {a : Nat} {code : Int} {valley : Nat} : Keeps s₀ (s.applyPwm a code valley) := by
  unfold State.applyPwm
  extract_lets +onlyGivenNames -merge m p fs x c on s1 s2
  have hs2 : Keeps s₀ s2 := hk.setAct.setFld'
  exact .either hs2.satAdd' hs2

theorem Moves.pwmValley {s : State} (hk : Keeps s₀ s) {a : Fin 48} : Moves s₀ (execPwmValley a s) := by
  unfold execPwmValley
  refine .next ?_
  extract_lets +onlyGivenNames -merge n x v
  refine .either ?_ hk
  extract_lets +onlyGivenNames -merge _ _ s1
  have hs1 : Keeps s₀ s1 := by
    unfold s1
    split
    · exact hk.applyPwm
    · exact hk.setAct
  exact hs1.actDrive.actMirror

theorem Keeps.actStepped {s : State} (hk : Keeps s₀ s) {k : Nat} : Keeps s₀ (s.actStepped k) := by
  induction k generalizing s with
  | zero => exact hk
  | succ n ih => exact .either (.setAct (ih hk)) (ih hk)

theorem Moves.stepPulseCarry {s : State} (hk : Keeps s₀ s) {a : Fin 48} : Moves s₀ (execStepPulseCarry a s) := by
  unfold execStepPulseCarry
  refine .next ?_
  extract_lets +onlyGivenNames -merge n
  refine .either ?_ hk
  extract_lets +onlyGivenNames -merge x t x1 close
  refine .either hk.setAct.satAdd'.actMirror (.either hk.setAct ?_)
  extract_lets +onlyGivenNames -merge pos s1
  have hs1 : Keeps s₀ s1 := hk.setAct.setFld'
  exact .actMirror (.either hs1.emit' hs1)

theorem Keeps.latchCode {s : State} (hk : Keeps s₀ s) {a : Nat} {code : Int} : Keeps s₀ (s.latchCode a code) :=
  .either (.either hk.applyPwm.actDrive.actMirror hk.setAct.satAdd'.actMirror) hk.setAct.setFld'.actDrive.actMirror

/-! ### Keys -/
theorem Keeps.setDigest {s : State} (hk : Keeps s₀ s) {off : Nat → Nat} {l : List Byte} : Keeps s₀ (s.setDigest off l) :=
  hk.foldl' (fun _ _ hk => hk.setReg')

theorem Keeps.showKeyState {s : State} (hk : Keeps s₀ s) : Keeps s₀ s.showKeyState := hk.setDigest

/-! ### Plumb -/
theorem Keeps.setPlReg {s : State} (hk : Keeps s₀ s) {f : Nat} {x : PlReg} : Keeps s₀ (s.setPlReg f x) := hk.rest

theorem Keeps.plRefresh {s : State} (hk : Keeps s₀ s) : Keeps s₀ s.plRefresh :=
  hk.withCause' (fun hk => hk.setReg'.setReg'.setReg'.setBit'.actStop)

theorem Keeps.plQueueMsg {s : State} (hk : Keeps s₀ s) {m : SafeMsg} : Keeps s₀ (s.plQueueMsg m) := hk.rest

theorem Keeps.plMsg {s : State} (hk : Keeps s₀ s) {f : Nat} {restored : Bool} {cause k : Nat} : Keeps s₀ (s.plMsg f restored cause k) :=
  .either hk.plQueueMsg hk

theorem Keeps.plLatch {s : State} (hk : Keeps s₀ s) {f : Nat} : Keeps s₀ (s.plLatch f) := by
  unfold State.plLatch
  extract_lets +onlyGivenNames -merge s1 ms
  have hs1 : Keeps s₀ s1 := hk.setFld'.satAdd'
  exact .either hs1 hs1.rest

theorem Keeps.plFirst {s : State} (hk : Keeps s₀ s) {f cause : Nat} : Keeps s₀ (s.plFirst f cause) :=
  .either hk hk.setFld'.setFld'.setReg'.rest

theorem Keeps.disagree {s : State} (hk : Keeps s₀ s) {f cause : Nat} : Keeps s₀ (s.disagree f cause) := by
  unfold State.disagree
  extract_lets +onlyGivenNames -merge x
  split
  · exact hk
  · refine .either hk ?_
    extract_lets +onlyGivenNames -merge w h s1 s2 st s3 latch s5 s4 s6
    have hs3 : Keeps s₀ s3 := hk.setPlReg.plFirst.satAdd'.satAdd'.setFld'.setFld'.setFld'
    have hs5 : Keeps s₀ s5 := hs3.setFld'.setFld'
    have hs4 : Keeps s₀ s4 := .either hs3 (.either hs5.plLatch hs5)
    have hs6 : Keeps s₀ s6 := hs4.setFld'.setFld'
    exact .plRefresh (.either hs6.plMsg hs6)

theorem Keeps.disagreeAll {s : State} (hk : Keeps s₀ s) {cause : Nat} {p : Nat → Bool} : Keeps s₀ (s.disagreeAll cause p) :=
  hk.foldl' (fun _ _ hk => hk.disagree)

theorem Keeps.plausible {s : State} (hk : Keeps s₀ s) {f : Nat} : Keeps s₀ (s.plausible f) := by
  unfold State.plausible
  extract_lets +onlyGivenNames -merge x
  split
  · exact hk
  · refine .either hk ?_
    extract_lets +onlyGivenNames -merge n w s1 back s2
    have hs1 : Keeps s₀ s1 := hk.setPlReg.setFld'.setFld'.setFld'
    exact .plRefresh (.setFld' (.setBit' (.either hs1.setFld'.plMsg hs1)))

theorem Keeps.missDeadline {s : State} (hk : Keeps s₀ s) {f : Nat} : Keeps s₀ (s.missDeadline f) :=
  .either hk (.either hk.disagree hk.disagree)

theorem Moves.plumbFrameStart {s : State} (hk : Keeps s₀ s) {f : Fin 64} : Moves s₀ (execPlumbFrameStart f s) := by
  unfold execPlumbFrameStart
  refine .next ?_
  extract_lets +onlyGivenNames -merge x
  refine .either ?_ hk
  extract_lets +onlyGivenNames -merge k
  refine .either hk ?_
  extract_lets +onlyGivenNames -merge s1 x1 s2
  have hs2 : Keeps s₀ s2 := .setPlReg (.either hk.missDeadline hk)
  exact .either hs2.disagree hs2

theorem Moves.plumbFrameDeadline {s : State} (hk : Keeps s₀ s) {f : Fin 64} : Moves s₀ (execPlumbFrameDeadline f s) :=
  .next (.either hk.missDeadline hk)

theorem Moves.plumbJudgementEnd {s : State} (hk : Keeps s₀ s) {f : Fin 64} : Moves s₀ (execPlumbJudgementEnd f s) := by
  unfold execPlumbJudgementEnd
  refine .next ?_
  extract_lets +onlyGivenNames -merge x
  split
  · exact hk
  · exact .either hk.setPlReg.disagree (.either hk.setPlReg.disagree hk.setPlReg.plausible)

theorem Keeps.setInbox {s : State} (hk : Keeps s₀ s) {i : Nat} {x : Inbox} : Keeps s₀ (s.setInbox i x) := hk.rest

theorem Keeps.inboxPush {s : State} (hk : Keeps s₀ s) {i : Nat} {v : Word} : Keeps s₀ (s.inboxPush i v) :=
  .either hk.setInbox hk.setInbox.satAdd'

theorem Keeps.writeInbox {s : State} (hk : Keeps s₀ s) {i : Nat} {r : Req} {h : Half} {v : Word} : Keeps s₀ (s.writeInbox i r h v) :=
  .either hk (.either hk.partialWrite' (.either hk.inboxPush hk))

theorem Keeps.frameReport {s : State} (hk : Keeps s₀ s) {l : List Word} {broken : Bool} : Keeps s₀ (s.frameReport l broken) := by
  unfold State.frameReport
  extract_lets +onlyGivenNames -merge h f x
  split
  · exact hk
  · exact .either hk (.either hk.disagree (.either hk.missDeadline hk.setPlReg))

theorem Keeps.pennantReport {s : State} (hk : Keeps s₀ s) {l : List Word} {broken : Bool} : Keeps s₀ (s.pennantReport l broken) :=
  .either hk (.either hk hk.rest)

theorem Keeps.assemble {s : State} (hk : Keeps s₀ s) {i : Nat} {w : Option Word} : Keeps s₀ (s.assemble i w) := by
  unfold State.assemble
  extract_lets +onlyGivenNames -merge b
  split
  · exact hk
  · exact .either hk hk.setInbox
  · exact .either hk.setInbox (.either hk.setInbox.frameReport hk.setInbox.pennantReport)

theorem Keeps.drainInbox {s : State} (hk : Keeps s₀ s) {i : Nat} : Keeps s₀ (s.drainInbox i) := by
  unfold State.drainInbox
  extract_lets +onlyGivenNames -merge b
  split
  · exact hk
  · exact .assemble (hk.setInbox.foldl' (fun _ _ hk => hk.assemble))

theorem Keeps.plumbTick {s : State} (hk : Keeps s₀ s) : Keeps s₀ s.plumbTick :=
  .either hk.rest (hk.rest.foldl' (fun _ _ hk => hk.drainInbox))

theorem Keeps.assertLine {s : State} (hk : Keeps s₀ s) {d : HwDetect} {c : Nat} : Keeps s₀ (s.assertLine d c) := hk.rest

theorem Moves.plumbHwDetect {s : State} (hk : Keeps s₀ s) {d : HwDetect} : Moves s₀ (execPlumbHwDetect d s) := by
  unfold execPlumbHwDetect
  refine .next ?_
  split
  · exact hk
  · exact hk.rest.disagreeAll

theorem Keeps.timeFault {s : State} (hk : Keeps s₀ s) : Keeps s₀ s.timeFault :=
  hk.setFld'.foldl' (fun _ _ hk => .either hk.disagree hk.disagree.setFld'.setFld'.plLatch.plRefresh)

theorem Moves.plumbTimeCheck {s : State} (hk : Keeps s₀ s) : Moves s₀ (execPlumbTimeCheck s) := by
  unfold execPlumbTimeCheck
  refine .next ?_
  extract_lets +onlyGivenNames -merge _ s1
  split
  · exact hk.rest
  · exact .either hk.rest hk.rest.timeFault

theorem Keeps.plumbFault {s : State} (hk : Keeps s₀ s) {src : Nat} : Keeps s₀ (s.plumbFault src) :=
  .either hk (.plRefresh (.setFld' (hk.withCause' (fun hk => hk.setFld'))))

theorem Moves.plumbSafetyMessage {s : State} (hk : Keeps s₀ s) : Moves s₀ (execPlumbSafetyMessage s) := by
  unfold execPlumbSafetyMessage
  refine .next ?_
  extract_lets +onlyGivenNames -merge k
  split
  · exact hk
  · refine .either ?_ hk
    extract_lets +onlyGivenNames -merge f _ s1 s2 s3 s4
    have hs3 : Keeps s₀ s3 := hk.rest.setFld'.setReg'.setFld'.setBit'.setFld'
    exact .emit' (.either hs3.satAdd' hs3)

theorem Moves.plumbSafetyRepeat {s : State} (hk : Keeps s₀ s) : Moves s₀ (execPlumbSafetyRepeat s) :=
  .next (.either hk (hk.foldl' (fun _ _ hk => hk.plQueueMsg.rest)))

theorem Keeps.plAck {s : State} (hk : Keeps s₀ s) {r : Req} {h : Half} {v : Word} : Keeps s₀ (s.plAck r h v) :=
  .either hk (.either hk.setFld' (.plRefresh (hk.foldl' (fun _ _ hk => hk.setFld'.setFld'))))

theorem Keeps.plForce {s : State} (hk : Keeps s₀ s) {r : Req} {on : Bool} : Keeps s₀ (s.plForce r on) :=
  .either hk (.either (.either hk hk.setFld'.setFld'.disagreeAll.plRefresh) hk.setFld'.setFld'.plRefresh)

theorem Keeps.plClearFirst {s : State} (hk : Keeps s₀ s) {r : Req} : Keeps s₀ (s.plClearFirst r) :=
  .either hk hk.setFld'.setFld'.setReg'.rest

theorem Keeps.plumbLatch {s : State} (hk : Keeps s₀ s) {g : Nat} {stamp : Word} {codes : List (Nat × Int)} {flags : List (Nat × Nat)}
    {overrun : Bool} :
    Keeps s₀ (s.plumbLatch g stamp codes flags overrun) :=
  hk.foldl' (fun _ _ hk => .either hk.setPlReg hk)

theorem Keeps.plumbSensor {s : State} (hk : Keeps s₀ s) {port fireNs : Nat} {raw : Option Word} : Keeps s₀ (s.plumbSensor port fireNs raw) :=
  hk.rest

/-! ### Repair -/
theorem Keeps.hostPost {s : State} (hk : Keeps s₀ s) {x : Nat} {l : List Byte} : Keeps s₀ (s.hostPost x l) :=
  .either hk.emit' hk.satAdd'

theorem Keeps.deviceWrite {s : State} (hk : Keeps s₀ s) {a : Nat} {l : List Byte} : Keeps s₀ (s.deviceWrite a l) := by
  unfold State.deviceWrite
  split
  · exact hk.hostPost
  · exact hk.writeMem

theorem Keeps.setSpare {s : State} (hk : Keeps s₀ s) {p : Nat} {b : Bool} : Keeps s₀ (s.setSpare p b) := hk.setFld'

theorem Keeps.setRetired {s : State} (hk : Keeps s₀ s) {p : Nat} : Keeps s₀ (s.setRetired p) := hk.setFld'

theorem Keeps.lessSpare {s : State} (hk : Keeps s₀ s) : Keeps s₀ s.lessSpare := hk.setFld'

theorem Keeps.fuseFull {s : State} (hk : Keeps s₀ s) : Keeps s₀ s.fuseFull :=
  .either hk hk.setFld'.event'

theorem Keeps.burn {s : State} (hk : Keeps s₀ s) {r : Nat} : Keeps s₀ (s.burn r) :=
  .either hk.fuseFull hk.rest

theorem Moves.fuseBurnDone {s : State} (hk : Keeps s₀ s) {good : Bool} : Moves s₀ (execFuseBurnDone good s) := by
  unfold execFuseBurnDone
  refine .next ?_
  split
  · exact hk
  · extract_lets +onlyGivenNames -merge i
    refine .either hk.rest.fuseFull ?_
    extract_lets +onlyGivenNames -merge s1 _ s2
    have hs2 : Keeps s₀ s2 := hk.setFld'.rest.setFld'
    exact .either hs2.fuseFull hs2

theorem Keeps.retireSpare {s : State} (hk : Keeps s₀ s) {p : Nat} : Keeps s₀ (s.retireSpare p) :=
  hk.setSpare.setRetired.burn.lessSpare

theorem Keeps.loseCore {s : State} (hk : Keeps s₀ s) {n : Nat} : Keeps s₀ (s.loseCore n) := by
  unfold State.loseCore
  extract_lets +onlyGivenNames -merge s1 s2 s3
  have hs3 : Keeps s₀ s3 := hk.setFld'.setFld'.setFld'.setFld'.setFld'
  refine hs3.foldl' (fun _ _ hk => ?_)
  split
  · exact .either hk.discardSuspended hk
  · exact hk

theorem Keeps.nextFurl {s : State} (hk : Keeps s₀ s) : Keeps s₀ s.nextFurl := by
  unfold State.nextFurl
  refine .either hk ?_
  split
  · exact hk
  · extract_lets +onlyGivenNames -merge _ s0 out ev go noTest
    split
    · refine .either hk.rest.setFld'.event'.rest ?_
      split
      · exact hk.rest.event'.rest
      · exact .either hk.rest.setFld'.event'.rest hk.rest.event'.loseCore
    · split
      · exact hk.rest.event'.rest
      · exact hk.rest.event'.loseCore

theorem Keeps.furl {s : State} (hk : Keeps s₀ s) {n cause : Nat} : Keeps s₀ (s.furl n cause) := by
  unfold State.furl
  refine .either hk ?_
  extract_lets +onlyGivenNames -merge p s0 s1 s2 s3 _ s4
  have hs0 : Keeps s₀ s0 := by
    obtain ⟨t, ht, hsave⟩ := Moves.contextSaveDone hk (n := Fin.ofNat 16 n)
    simp only [s0, ht]
    exact .either hsave hk
  have hs2 : Keeps s₀ s2 := hs0.endOnCore.setFld'.setRetired.satAdd'
  have hs4 : Keeps s₀ s4 := .rest (.either hs2 hs2.burn)
  refine .nextFurl (.rest ?_)
  split
  · exact .either (.either hs4.rest hs4.rest.setFld') hs4
  · exact hs4

theorem Keeps.furlWrite {s : State} (hk : Keeps s₀ s) {r : Req} {n : Nat} : Keeps s₀ (s.furlWrite r n) :=
  .either hk.furl hk

theorem Keeps.setTestCopy {s : State} (hk : Keeps s₀ s) {mgt : Bool} {x : TestCopy} : Keeps s₀ (s.setTestCopy mgt x) :=
  hk.rest (by cases mgt <;> rfl)

theorem Keeps.testPending {s : State} (hk : Keeps s₀ s) : Keeps s₀ s.testPending := hk.setFld'

theorem Keeps.testRecord {s : State} (hk : Keeps s₀ s) {q : TestReq} {st : BitVec 8} {start : Word} : Keeps s₀ (s.testRecord q st start) :=
  hk.deviceWrite.setTestCopy

theorem Keeps.finishTest {s : State} (hk : Keeps s₀ s) {t : CoreTest} : Keeps s₀ (s.finishTest t) := by
  unfold State.finishTest
  extract_lets +onlyGivenNames -merge _ s1
  have hs1 : Keeps s₀ s1 := hk.rest.setFld'
  split
  · exact hs1.testRecord
  · exact .either hs1.rest hs1.rest

theorem Keeps.endTest {s : State} (hk : Keeps s₀ s) {st : BitVec 8} {unit bank : Nat} : Keeps s₀ (s.endTest st unit bank) := by
  unfold State.endTest
  split
  · exact hk
  · extract_lets +onlyGivenNames -merge x s1 s2
    have hs2 : Keeps s₀ s2 := hk.event'.setFld'.setFld'
    refine .either ?_ ?_
    · extract_lets +onlyGivenNames -merge s3
      have hs3 : Keeps s₀ s3 := hs2.satAdd'
      split
      · exact hs3.finishTest.furl
      · exact hs3.retireSpare.finishTest
    · split
      · exact hs2.rest.setFld'
      · exact hs2.finishTest

theorem Keeps.detection {s : State} (hk : Keeps s₀ s) {p kind unit : Nat} : Keeps s₀ (s.detection p kind unit) := by
  unfold State.detection
  extract_lets +onlyGivenNames -merge win old _ s1 n th
  refine .either hk.rest.endTest ?_
  split
  · exact .either hk.rest.furl (.either hk.rest hk.rest)
  · exact .either hk.rest.retireSpare (.either hk.rest hk.rest)

theorem Keeps.coreDetect {s : State} (hk : Keeps s₀ s) {n bitNo eng col : Nat} {injected : Bool} : Keeps s₀
    (s.coreDetect n bitNo eng col injected) := by
  unfold State.coreDetect
  extract_lets +onlyGivenNames -merge p s0 s1 s2 s3 s4 s5
  have hs1 : Keeps s₀ s1 := hk.setReg'.coreErr
  have hs5 : Keeps s₀ s5 := .endOnCore (.assertLine (.event' (.satAdd' (.either hs1.coreErr hs1))))
  exact .either hs5 hs5.detection

theorem Keeps.nextRepair {s : State} (hk : Keeps s₀ s) : Keeps s₀ s.nextRepair := by
  unfold State.nextRepair
  split
  · exact hk
  · exact .either hk hk.setFld'.setFld'.setFld'

theorem Keeps.repairColumn {s : State} (hk : Keeps s₀ s) {b col : Nat} : Keeps s₀ (s.repairColumn b col) :=
  .either (.either hk.event'.furl hk.event') (.either hk.fuseFull hk.burn.rest.nextRepair)

theorem Keeps.columnHit {s : State} (hk : Keeps s₀ s) {b col : Nat} : Keeps s₀ (s.columnHit b col) :=
  .either hk.rest.repairColumn hk.rest

theorem Moves.plannedSwapStart {s : State} (hk : Keeps s₀ s) {n : Fin 16} : Moves s₀ (execPlannedSwapStart n s) := by
  unfold execPlannedSwapStart
  refine .next ?_
  split
  · exact hk
  · extract_lets +onlyGivenNames -merge st
    refine .either hk ?_
    extract_lets +onlyGivenNames -merge _ go
    refine .either ?_ (.either (.either hk.rest.setFld' hk.setFld') hk)
    split
    · exact .either hk.rest hk
    · exact hk

theorem Keeps.moveBankStat {s : State} (hk : Keeps s₀ s) {n src dst k : Nat} : Keeps s₀ (s.moveBankStat n src dst k) := by
  induction k generalizing s n src dst with
  | zero => exact hk
  | succ n ih => exact .setReg' (.rest (ih hk))

theorem Keeps.remap {s : State} (hk : Keeps s₀ s) {n src dst : Nat} : Keeps s₀ (s.remap n src dst) := by
  unfold State.remap
  extract_lets +onlyGivenNames -merge s1 s2 s3
  have hs2 : Keeps s₀ s2 := hk.moveBankStat.setFld'.setSpare
  exact .setFld' (.either hs2 hs2.setSpare)

theorem Keeps.freshCov {s : State} (hk : Keeps s₀ s) {p : Nat} : Keeps s₀ (s.freshCov p) := hk.rest

theorem Moves.swapCopyDone {s : State} (hk : Keeps s₀ s) : Moves s₀ (execSwapCopyDone s) := by
  unfold execSwapCopyDone
  refine .next ?_
  split
  · exact hk
  · refine .either hk (.either ?_ ?_)
    · extract_lets +onlyGivenNames -merge _ s0
      refine .either hk.rest.setFld'.setFld' ?_
      split
      · exact hk.rest
      · exact hk.rest.loseCore.nextFurl
    · extract_lets +onlyGivenNames -merge _ s1
      have hs1 : Keeps s₀ s1 := hk.rest.remap
      refine .either ?_ hs1.setFld'.lessSpare.freshCov.nextFurl
      extract_lets +onlyGivenNames -merge s2 s3
      have hs2 : Keeps s₀ s2 := hs1.setFld'
      have hs3 : Keeps s₀ s3 := by
        unfold s3
        refine .either ?_ hs2.setFld'.freshCov
        split
        · exact hs2.finishTest.freshCov
        · exact hs2
      exact hs3.nextFurl

theorem Keeps.beginTest {s : State} (hk : Keeps s₀ s) {p : Nat} {q : Option TestReq} : Keeps s₀ (s.beginTest p q) :=
  hk.setFld'.setBit'.setFld'.rest.setFld'

theorem Moves.rollingTestNext {s : State} (hk : Keeps s₀ s) : Moves s₀ (execRollingTestNext s) := by
  unfold execRollingTestNext
  refine .next (.either hk ?_)
  extract_lets +onlyGivenNames -merge first _ s0 pick
  clear_value pick
  split
  · exact hk.rest.wrapAdd'
  · refine .either ?_ hk.rest.beginTest
    extract_lets +onlyGivenNames -merge s1
    have hs1 : Keeps s₀ s1 := hk.rest.setFld'
    exact .either hs1.rest hs1.rest

theorem Moves.coreTestDone {s : State} (hk : Keeps s₀ s) {fail : BitVec 4} {bank : BitVec 11} {cols : List (BitVec 11 × BitVec 12)} :
    Moves s₀ (execCoreTestDone fail bank cols s) := by
  unfold execCoreTestDone
  refine .next ?_
  split
  · exact hk
  · exact .either hk (.either hk.endTest (.either hk.endTest (.either hk.endTest (.endTest (hk.foldl' (fun _ _ hk => hk.burn.rest.event'))))))

theorem Keeps.testReq {s : State} (hk : Keeps s₀ s) {r : Req} {h : Half} {v : Word} : Keeps s₀ (s.testReq r h v) :=
  .either hk (.either hk.partialWrite' (.either hk (.either hk.testRecord (.either hk.setTestCopy.testRecord hk.setTestCopy.rest.testPending))))

theorem Keeps.popTest {s : State} (hk : Keeps s₀ s) : Keeps s₀ s.popTest := hk.rest.testPending

theorem Moves.testRequestStart {s : State} (hk : Keeps s₀ s) : Moves s₀ (execTestRequestStart s) := by
  unfold execTestRequestStart
  refine .next ?_
  split
  · exact hk
  · exact .either
        hk
        (.either (.either hk hk.popTest.rest) (.either hk.popTest.testRecord (.either hk.popTest.beginTest (.either hk.popTest.beginTest hk))))

theorem Moves.testRequestNoSlack {s : State} (hk : Keeps s₀ s) : Moves s₀ (execTestRequestNoSlack s) := by
  unfold execTestRequestNoSlack
  refine .next ?_
  split
  · exact hk
  · exact .either hk.popTest.testRecord hk

theorem Moves.thermalCalSegmentDone {s : State} (hk : Keeps s₀ s) : Moves s₀ (execThermalCalSegmentDone s) := by
  unfold execThermalCalSegmentDone
  refine .next ?_
  split
  · exact hk
  · exact hk.rest
  · exact hk.rest.testRecord

/-! ### Hbm -/
theorem Keeps.retireRow {s : State} (hk : Keeps s₀ s) {row : Nat} : Keeps s₀ (s.retireRow row) :=
  .either hk (.either hk.setFld'.event' hk.rest)

theorem Moves.hbmRowRetireDone {s : State} (hk : Keeps s₀ s) : Moves s₀ (execHbmRowRetireDone s) := by
  unfold execHbmRowRetireDone
  refine .next ?_
  split
  · exact hk
  · exact hk.rest.setFld'.wrapAdd'.event'.burn

theorem Keeps.retireReq {s : State} (hk : Keeps s₀ s) {r : Req} {h : Half} {v : Word} : Keeps s₀ (s.retireReq r h v) :=
  .either hk (.either hk.partialWrite' (.either hk.retireRow hk))

theorem Keeps.hbmUncorr {s : State} (hk : Keeps s₀ s) {us : List Nat} : Keeps s₀ (s.hbmUncorr us) := by
  unfold State.hbmUncorr
  split
  · exact hk
  · exact .foldl' (.event' (.setFld' (.withCause' (hk.foldl' (fun _ _ hk => hk.satAdd')) (fun hk => hk.setFld')))) (fun _ _ hk => hk.retireRow)

theorem Keeps.hbmCorr {s : State} (hk : Keeps s₀ s) {u : Nat} : Keeps s₀ (s.hbmCorr u) := by
  unfold State.hbmCorr
  extract_lets +onlyGivenNames -merge row n s1 _ s2
  have hs2 : Keeps s₀ s2 := hk.satAdd'.rest
  exact .either hs2.retireRow hs2

theorem Moves.hbmAccess {s : State} (hk : Keeps s₀ s) {acc : HbmAccess} : Moves s₀ (execHbmAccess acc s) := by
  unfold execHbmAccess
  refine .next ?_
  split
  · exact .either hk.emit' (.emit' (.hbmUncorr (.foldl' (hk.foldl' (fun _ _ hk => hk.addPoison)) (fun _ _ hk => hk.hbmCorr))))
  · exact .either hk hk.wrBytes'.unpoison

theorem Moves.hbmPatrolScrub {s : State} (hk : Keeps s₀ s) {pc : Fin 128} : Moves s₀ (execHbmPatrolScrub pc s) := by
  unfold execHbmPatrolScrub
  refine .next ?_
  extract_lets +onlyGivenNames -merge g
  refine .either hk ?_
  extract_lets +onlyGivenNames -merge i a s1 j _ s2
  have hs2 : Keeps s₀ s2 := hk.hbmUncorr.rest
  exact .either hs2 (.either hs2.rest.wrapAdd' hs2.rest)

theorem Keeps.startRetrain {s : State} (hk : Keeps s₀ s) {ch : Nat} : Keeps s₀ (s.startRetrain ch) := hk.setFld'.setFld'.rest

theorem Keeps.autoRetrain {s : State} (hk : Keeps s₀ s) {ch : Nat} : Keeps s₀ (s.autoRetrain ch) :=
  .either hk (.either hk.startRetrain hk.rest)

theorem Keeps.retrainWrite {s : State} (hk : Keeps s₀ s) {r : Req} {h : Half} {v : Word} : Keeps s₀ (s.retrainWrite r h v) :=
  hk.guardW (fun hk => .either hk.writeFields'.startRetrain hk.writeFields')

theorem Moves.hbmLinkError {s : State} (hk : Keeps s₀ s) {ch : Fin 64} : Moves s₀ (execHbmLinkError ch s) :=
  .next (.either hk (.either hk.satAdd'.rest.autoRetrain hk.satAdd'.rest))

theorem Keeps.stackTemp {s : State} (hk : Keeps s₀ s) {k : Nat} {t : Int} : Keeps s₀ (s.stackTemp k t) := by
  unfold State.stackTemp
  extract_lets +onlyGivenNames -merge s1
  have hs1 : Keeps s₀ s1 := hk.setFld'.setFld'
  refine hs1.foldl' (fun _ _ hk => ?_)
  extract_lets +onlyGivenNames -merge ch
  split
  · exact hk.rest
  · exact .either hk.autoRetrain hk

theorem Moves.hbmTempRead {s : State} (hk : Keeps s₀ s) {temps : List (BitVec 8)} : Moves s₀ (execHbmTempRead temps s) :=
  .next (.setBit' (hk.foldl' (fun _ _ hk => hk.stackTemp)))

theorem Moves.hbmRetrainDone {s : State} (hk : Keeps s₀ s) : Moves s₀ (execHbmRetrainDone s) := by
  unfold execHbmRetrainDone
  refine .next ?_
  split
  · exact hk
  · extract_lets +onlyGivenNames -merge k s1 t _ s2
    have hs2 : Keeps s₀ s2 := hk.wrapAdd'.rest.setFld'
    split
    · exact hs2
    · exact hs2.rest.startRetrain

theorem Keeps.setEcc {s : State} (hk : Keeps s₀ s) {w e : Nat} : Keeps s₀ (s.setEcc w e) := hk.forms id id (Store.wf_set _ _ _ _) id rfl

theorem Keeps.eccCorr {s : State} (hk : Keeps s₀ s) {core : Option Nat} {w e : Nat} : Keeps s₀ (s.eccCorr core w e) := by
  unfold State.eccCorr
  extract_lets +onlyGivenNames -merge b s1 s2 _ s3
  have hs2 : Keeps s₀ s2 := by
    unfold s2
    split
    · exact hk.satAdd'.satAdd'
    · exact hk.satAdd'
  exact .columnHit (.either hs2 hs2.rest)

theorem Keeps.eccUncorr {s : State} (hk : Keeps s₀ s) {w e : Nat} : Keeps s₀ (s.eccUncorr w e) :=
  .columnHit (.event' (.setFld' (hk.satAdd'.withCause' (fun hk => hk.setFld'))))

theorem Keeps.eccRead {s : State} (hk : Keeps s₀ s) {core : Option Nat} {w : Nat} : Keeps s₀ (s.eccRead core w) :=
  .either hk (.either hk.eccCorr hk.eccUncorr)

theorem Keeps.noteRead {s : State} (hk : Keeps s₀ s) {g : Agent} {a n : Nat} : Keeps s₀ (s.noteRead g a n) := by
  unfold State.noteRead
  refine .either hk ?_
  split
  · exact hk.hbmUncorr
  · exact hk.foldl' (fun _ _ hk => hk.eccRead)
  · exact hk

/-! ### Pennant -/
theorem Keeps.setPenCov {s : State} (hk : Keeps s₀ s) {p e : Nat} {x : PenCov} : Keeps s₀ (s.setPenCov p e x) := hk.rest

theorem Moves.pennantFrameBoundary {s : State} (hk : Keeps s₀ s) : Moves s₀ (execPennantFrameBoundary s) := by
  unfold execPennantFrameBoundary
  refine .next (.either hk ?_)
  extract_lets +onlyGivenNames -merge p
  refine .either hk ?_
  extract_lets +onlyGivenNames -merge engs used late s1 _ s2 t1 _ _ t2 _ s3 r ms w s4 bad s5 s6
  have hs2 : Keeps s₀ s2 := hk.satAdd'.rest.setFld'
  have ht1 : Keeps s₀ t1 := .either hs2.satAdd' hs2
  have ht2 : Keeps s₀ t2 := by
    unfold t2
    split
    · exact ht1.rest
    · exact ht1
  have hs3 : Keeps s₀ s3 := .either hs2 (ht2.rest.foldl' (fun _ _ hk => hk.setPenCov))
  have hs4 : Keeps s₀ s4 := hs3.setFld'.setFld'.setFld'
  have hs5 : Keeps s₀ s5 := by
    unfold s5
    clear_value bad
    split
    · exact hs4
    · exact .either hs4 hs4.event'
  have hs6 : Keeps s₀ s6 := hs5.setBit'
  exact .either hs6.disagreeAll hs6

theorem Moves.pennantRunStart {s : State} (hk : Keeps s₀ s) {phys : Fin 18} {e : PenEngine} : Moves s₀ (execPennantRunStart phys e s) := by
  unfold execPennantRunStart
  refine .next ?_
  extract_lets +onlyGivenNames -merge k
  split
  · split
    · exact hk
    · split
      · exact hk
      · exact .either (.either hk.rest.setFld' hk.rest) hk
  · exact hk

theorem Moves.pennantRunDone {s : State} (hk : Keeps s₀ s) {phys : Fin 18} {e : PenEngine} {crc : BitVec 32} : Moves s₀
    (execPennantRunDone phys e crc s) := by
  unfold execPennantRunDone
  refine .next ?_
  split
  · exact .foldl' (.either hk.rest.setFld' hk.rest) (fun _ _ hk => hk.inboxPush)
  · exact hk

theorem Moves.pennantReportJudge {s : State} (hk : Keeps s₀ s) : Moves s₀ (execPennantReportJudge s) := by
  unfold execPennantReportJudge
  refine .next ?_
  split
  · exact hk
  · extract_lets +onlyGivenNames -merge _ s1 x s2
    have hs1 : Keeps s₀ s1 := hk.rest.wrapAdd'
    have hs2 : Keeps s₀ s2 := .either hs1.setPenCov hs1
    refine .either hs2 ?_
    extract_lets +onlyGivenNames -merge s3 s4
    have hs3 : Keeps s₀ s3 := hs2.satAdd'
    have hs4 : Keeps s₀ s4 := by
      unfold s4
      split
      · exact hs3.disagreeAll
      · exact hs3
    exact hs4.event'.detection

/-! ### Library -/
theorem Keeps.penStatus {s : State} (hk : Keeps s₀ s) {st : BitVec 8} : Keeps s₀ (s.penStatus st) := hk.setFld'

theorem Keeps.penInstall {s : State} (hk : Keeps s₀ s) {l : List Byte} {avail : Nat} {older : Bool} {req : Nat} : Keeps s₀
    (s.penInstall l avail older req).1 := by
  unfold State.penInstall
  extract_lets +onlyGivenNames -merge st
  split
  · exact hk.penStatus
  · exact hk.wrBytes'.setFld'.rest

theorem Keeps.penCmd {s : State} (hk : Keeps s₀ s) {older : Bool} : Keeps s₀ (s.penCmd older) :=
  .either hk (.either hk.rest hk.penInstall)

theorem Keeps.writePenCmd {s : State} (hk : Keeps s₀ s) {r : Req} {older : Bool} : Keeps s₀ (s.writePenCmd r older) :=
  hk.guardW (fun hk => hk.penCmd)

theorem Keeps.penInstalled {s : State} (hk : Keeps s₀ s) : Keeps s₀ (s.penInstalled).1 := by
  unfold State.penInstalled
  split
  · exact hk
  · exact hk.rest.penStatus.setFld'.setFld'.setFld'.event'

/-! ### Fab -/
theorem Keeps.setFab {s : State} (hk : Keeps s₀ s) {x : Nat} : Keeps s₀ (s.setFab x) := hk.setFld'

theorem Keeps.setBoot {s : State} (hk : Keeps s₀ s) {x : Nat} : Keeps s₀ (s.setBoot x) := hk.setFld'

theorem Keeps.setTag {s : State} (hk : Keeps s₀ s) {tag : Nat} : Keeps s₀ (s.setTag tag) := hk.setFld'

theorem Keeps.fabReport {s : State} (hk : Keeps s₀ s) {check sect : Nat} : Keeps s₀ (s.fabReport check sect) :=
  hk.setFld'.setFld'.setFld'.withCause' (fun hk => hk.setFld')

theorem Keeps.fabRefuse {s : State} (hk : Keeps s₀ s) : Keeps s₀ s.fabRefuse := hk.fabReport

theorem Keeps.attempt {s : State} (hk : Keeps s₀ s) : Keeps s₀ s.attempt := hk.satAdd'

theorem Keeps.stageCmd {s : State} (hk : Keeps s₀ s) {tag : Nat} : Keeps s₀ (s.stageCmd tag) := by
  unfold State.stageCmd
  extract_lets +onlyGivenNames -merge boot full
  refine .either hk.rest (.either hk.fabRefuse (.either hk.fabRefuse ?_))
  extract_lets +onlyGivenNames -merge s1
  have hs1 : Keeps s₀ s1 := hk.rest.setTag
  exact .either hs1.setBoot.attempt hs1.setFab

theorem Keeps.groupOutage {s : State} (hk : Keeps s₀ s) {c : Nat} {on : Bool} : Keeps s₀ (s.groupOutage c on) :=
  .plRefresh (hk.foldl' (fun _ _ hk => hk.setGrp))

theorem Keeps.commitCmd {s : State} (hk : Keeps s₀ s) {tag : Nat} : Keeps s₀ (s.commitCmd tag) := by
  unfold State.commitCmd
  refine .either hk.fabRefuse ?_
  extract_lets +onlyGivenNames -merge s1 _ s2
  have hs2 : Keeps s₀ s2 := hk.setFab.setTag.rest
  split
  · exact .either hs2.groupOutage hs2
  · exact hs2

theorem Keeps.unstage {s : State} (hk : Keeps s₀ s) : Keeps s₀ s.unstage := hk.rest.setFab.setDigest

theorem Keeps.discardCmd {s : State} (hk : Keeps s₀ s) {tag : Nat} : Keeps s₀ (s.discardCmd tag) :=
  .either hk.fabRefuse hk.unstage.setTag.fabReport

theorem Keeps.writeFabCmd {s : State} (hk : Keeps s₀ s) {r : Req} {op tag : Nat} : Keeps s₀ (s.writeFabCmd r op tag) :=
  hk.guardW (fun hk => .either hk.stageCmd (.either hk.commitCmd (.either hk.discardCmd hk)))

/-! ### Chord -/
theorem Keeps.setChdPort {s : State} (hk : Keeps s₀ s) {p : Nat} {x : ChdPort} : Keeps s₀ (s.setChdPort p x) := hk.rest

theorem Keeps.chdLocal {s : State} (hk : Keeps s₀ s) {p : Nat} {f : ChordFrame} : Keeps s₀ (s.chdLocal p f) :=
  .either hk.emit' hk

theorem Keeps.chdPump {s : State} (hk : Keeps s₀ s) {p : Nat} {skip : List Nat} {l : List ChordFrame} : Keeps s₀ (s.chdPump p skip l) := by
  induction l generalizing s p skip with
  | nil => exact hk
  | cons f r ih => exact .either (.setChdPort (ih hk)) (ih hk.setChdPort.emit')

theorem Keeps.chdFlush {s : State} (hk : Keeps s₀ s) {p : Nat} : Keeps s₀ (s.chdFlush p) :=
  .either hk.setChdPort.chdPump hk

theorem Keeps.chdSendOn {s : State} (hk : Keeps s₀ s) {p : Nat} {f : ChordFrame} : Keeps s₀ (s.chdSendOn p f) :=
  .either hk hk.setChdPort.chdFlush

theorem Keeps.chdSend {s : State} (hk : Keeps s₀ s) {f : ChordFrame} : Keeps s₀ (s.chdSend f) := by
  unfold State.chdSend
  split
  · exact hk.chdSendOn
  · exact hk

theorem Keeps.chdNak {s : State} (hk : Keeps s₀ s) {p : Nat} : Keeps s₀ (s.chdNak p) := hk.chdLocal

theorem Keeps.chdTake {s : State} (hk : Keeps s₀ s) {p kind : Nat} {f : ChordFrame} {local' : State → State}
    (hf : ∀ t, Keeps s₀ t → Keeps s₀ (local' t)) : Keeps s₀ (s.chdTake p kind f local') :=
  .either hk (.either hk.chdNak (.either (hf _ hk.setChdPort) hk.setChdPort.chdSend))

theorem Keeps.chdRelease {s : State} (hk : Keeps s₀ s) {p n : Nat} : Keeps s₀ (s.chdRelease p n) :=
  .either hk hk.setChdPort

theorem Keeps.chdReplay {s : State} (hk : Keeps s₀ s) {p : Nat} : Keeps s₀ (s.chdReplay p) :=
  .either hk (hk.satAdd'.foldl' (fun _ _ hk => hk.emit'))

theorem Moves.chordAck {s : State} (hk : Keeps s₀ s) {p : Fin 4} {f : ChordFrame} : Moves s₀ (execChordAck p f s) :=
  .next (.either hk.chdRelease.chdFlush hk)

theorem Moves.chordNak {s : State} (hk : Keeps s₀ s) {p : Fin 4} {f : ChordFrame} : Moves s₀ (execChordNak p f s) :=
  .next (.either hk.chdRelease.chdReplay.chdFlush hk)

theorem Moves.chordCredit {s : State} (hk : Keeps s₀ s) {p : Fin 4} {f : ChordFrame} : Moves s₀ (execChordCredit p f s) :=
  .next (.either hk.setChdPort.chdFlush hk)

theorem Moves.chordFrameCorrupt {s : State} (hk : Keeps s₀ s) {p : Fin 4} {fec : Bool} : Moves s₀ (execChordFrameCorrupt p fec s) :=
  .next (.either (.chdNak (.either hk.satAdd' hk)) hk)

theorem Moves.chordBadKind {s : State} (hk : Keeps s₀ s) {p : Fin 4} {f : ChordFrame} : Moves s₀ (execChordBadKind p f s) :=
  .next (.either hk.satAdd' hk)

theorem Moves.chordAckSend {s : State} (hk : Keeps s₀ s) {p : Fin 4} : Moves s₀ (execChordAckSend p s) :=
  .next (.either (.setChdPort (.either hk.chdLocal hk.chdLocal.chdLocal)) hk)

theorem Moves.chordAckTimeout {s : State} (hk : Keeps s₀ s) {p : Fin 4} : Moves s₀ (execChordAckTimeout p s) :=
  .next (.either hk.setChdPort.setFld' hk)

theorem Moves.chordLinkDown {s : State} (hk : Keeps s₀ s) {p : Fin 4} : Moves s₀ (execChordLinkDown p s) :=
  .next (.either hk.satAdd'.satAdd'.setChdPort.setFld' hk)

theorem Moves.chordLinkUp {s : State} (hk : Keeps s₀ s) {p : Fin 4} : Moves s₀ (execChordLinkUp p s) :=
  .next (.either (.either hk.setFld'.setChdPort.chdReplay.chdFlush hk.setFld'.setChdPort.chdFlush) hk)

theorem Keeps.remoteRead {s : State} (hk : Keeps s₀ s) {what : ReadFor} {addr len : Nat} : Keeps s₀ (s.remoteRead what addr len) := by
  unfold State.remoteRead
  extract_lets +onlyGivenNames -merge t _ _ s1
  split
  · exact hk.rest.chdSend
  · exact hk.rest

theorem Keeps.remoteWriteN {s : State} (hk : Keeps s₀ s) {p o : Nat} {l : List Byte} {k : Nat} : Keeps s₀ (s.remoteWriteN p o l k) := by
  induction k generalizing s p o l with
  | zero => exact hk
  | succ n ih => exact .either hk (ih hk.chdSend)

theorem Keeps.freePad {s : State} (hk : Keeps s₀ s) {n : Nat} : Keeps s₀ (s.freePad n).2 := by
  unfold State.freePad
  split
  · exact hk
  · exact hk.draw

theorem Keeps.remoteWrite {s : State} (hk : Keeps s₀ s) {p o : Nat} {l : List Byte} : Keeps s₀ (s.remoteWrite p o l) :=
  .either hk hk.freePad.freePad.remoteWriteN

theorem Keeps.detQuiet {s : State} (hk : Keeps s₀ s) : Keeps s₀ s.detQuiet := hk.setFld'.setFld'.rest

theorem Keeps.chdVisit {s : State} (hk : Keeps s₀ s) {next unreached : Nat} {ports : List Nat} : Keeps s₀ (s.chdVisit next unreached ports) := by
  unfold State.chdVisit
  extract_lets +onlyGivenNames -merge mgr depth
  split
  · exact hk.rest.chdLocal
  · exact .either hk.rest.setFld'.setFld'.setFld'.setReg' hk.rest.chdLocal

theorem Keeps.chdClearRoles {s : State} (hk : Keeps s₀ s) : Keeps s₀ s.chdClearRoles :=
  hk.foldl' (fun _ _ hk => hk.setReg')

theorem Keeps.chdEnumerate {s : State} (hk : Keeps s₀ s) : Keeps s₀ s.chdEnumerate :=
  .chdVisit (.chdClearRoles (.either hk.detQuiet hk))

theorem Keeps.enumWrite {s : State} (hk : Keeps s₀ s) {r : Req} : Keeps s₀ (s.enumWrite r) :=
  hk.guardW (fun hk => .either hk.chdEnumerate hk)

theorem Moves.chordEnum {s : State} (hk : Keeps s₀ s) {p : Fin 4} {f : ChordFrame} : Moves s₀ (execChordEnum p f s) := by
  unfold execChordEnum
  refine .next (.either hk ?_)
  extract_lets +onlyGivenNames -merge a next
  split
  · exact .either (.chdVisit (.either hk.setFld'.setFld'.setFld' hk)) hk
  · exact .either
        hk
        (.either hk (.either hk.chdLocal (.chdVisit (.setFld' (.chdClearRoles (.setFld' (.setFld' (.setFld' (.setFld' (.either hk.detQuiet hk))))))))))

theorem Moves.chordTimeSend {s : State} (hk : Keeps s₀ s) : Moves s₀ (execChordTimeSend s) :=
  .next (.either (hk.rest.foldl' (fun _ _ hk => hk.chdLocal)) hk)

theorem Keeps.chordServo {s : State} (hk : Keeps s₀ s) {d2 : Int} : Keeps s₀ (s.chordServo d2) := by
  unfold State.chordServo
  extract_lets +onlyGivenNames -merge s0 run _ s1 s2
  have hs1 : Keeps s₀ s1 := hk.setFld'.rest
  have hs2 : Keeps s₀ s2 := .either hs1.setFld' (.either hs1.setFld' hs1)
  exact .either hs2.setFld'.setFld'.rest (.either hs2 hs2.draw.rest)

theorem Moves.chordTime {s : State} (hk : Keeps s₀ s) {p : Fin 4} {f : ChordFrame} {rx : Word} : Moves s₀ (execChordTime p f rx s) := by
  unfold execChordTime
  refine .next (.either hk ?_)
  extract_lets +onlyGivenNames -merge x a b
  refine .either hk.setChdPort (.either ?_ hk)
  extract_lets +onlyGivenNames -merge s1 _ s2 _ s3
  have hs1 : Keeps s₀ s1 := by
    unfold s1
    split
    · exact .either hk hk.chordServo
    · exact hk
  exact hs1.rest.setChdPort.chdLocal

/-! ### LockStep -/
theorem Keeps.diverge {s : State} (hk : Keeps s₀ s) {cause src k : Nat} : Keeps s₀ (s.diverge cause src k) := by
  unfold State.diverge
  extract_lets +onlyGivenNames -merge s1 s2 s3 s4
  have hs4 : Keeps s₀ s4 := .event' (.withCause' (.satAdd' (.either hk hk.setFld'.setFld'.setFld')) (fun hk => hk.setFld'))
  exact .either hs4.assertLine hs4

theorem Keeps.lsCompare {s : State} (hk : Keeps s₀ s) {a b : LsSig} : Keeps s₀ (s.lsCompare a b) :=
  .either hk.wrapAdd' hk.diverge

theorem Keeps.lsOwn {s : State} (hk : Keeps s₀ s) {x : LsSig} : Keeps s₀ (s.lsOwn x) := by
  unfold State.lsOwn
  split
  · exact hk.rest.lsCompare
  · split
    · exact .either hk.rest.diverge hk.rest
    · exact hk.rest

theorem Keeps.lsTheirs {s : State} (hk : Keeps s₀ s) {y : LsSig} : Keeps s₀ (s.lsTheirs y) := by
  unfold State.lsTheirs
  split
  · exact hk.rest.lsCompare
  · exact hk.rest

theorem Keeps.lsItem {s : State} (hk : Keeps s₀ s) {src : Nat} {l : List Byte} : Keeps s₀ (s.lsItem src l) :=
  .either hk (.either hk.rest hk.rest.chdSend.lsOwn)

theorem Keeps.lsRecord {s : State} (hk : Keeps s₀ s) {q : Nat} {item : List Byte} : Keeps s₀ (s.lsRecord q item) :=
  hk.foldl' (fun _ _ hk => hk.lsItem)

theorem Keeps.lsGroup {s : State} (hk : Keeps s₀ s) {g : Nat} {codes : List (Nat × Int)} : Keeps s₀ (s.lsGroup g codes) :=
  .either hk.lsItem hk

theorem Keeps.writeLsCfg {s : State} (hk : Keeps s₀ s) {r : Req} {h : Half} {v : Word} : Keeps s₀ (s.writeLsCfg r h v) := by
  unfold State.writeLsCfg
  refine hk.guardW (fun hk => ?_)
  extract_lets +onlyGivenNames -merge en on o t s1
  have hs1 : Keeps s₀ s1 := .either hk hk.writeFields'.setReg'
  exact .either hs1 (.either (.either hs1 hs1.setFld'.rest) hs1.setFld'.rest)

theorem Keeps.writeFeed {s : State} (hk : Keeps s₀ s) {f : Nat} {r : Req} {h : Half} {v : Word} : Keeps s₀ (s.writeFeed f r h v) :=
  hk.guardW (fun hk => .either hk.lsItem hk.partialWrite')

theorem Moves.chordSig {s : State} (hk : Keeps s₀ s) {p : Fin 4} {f : ChordFrame} : Moves s₀ (execChordSig p f s) :=
  .next (hk.chdTake (fun _ hk => .either hk.lsTheirs hk))

theorem Moves.lockstepLagTimeout {s : State} (hk : Keeps s₀ s) {src : Fin 80} : Moves s₀ (execLockstepLagTimeout src s) := by
  unfold execLockstepLagTimeout
  refine .next ?_
  split
  · exact hk.rest.diverge
  · exact hk

theorem Keeps.setGates {s : State} (hk : Keeps s₀ s) {closed : Bool} : Keeps s₀ (s.setGates closed) :=
  hk.foldl' (fun _ _ hk => .either hk.setBit' hk)

theorem Keeps.launchSend {s : State} (hk : Keeps s₀ s) {dest type cause : Nat} : Keeps s₀ (s.launchSend dest type cause) := hk.chdSend

theorem Keeps.launchAll {s : State} (hk : Keeps s₀ s) {type cause : Nat} : Keeps s₀ (s.launchAll type cause) :=
  hk.foldl' (fun _ _ hk => hk.launchSend)

theorem Keeps.launchLate {s : State} (hk : Keeps s₀ s) {cause pos : Nat} : Keeps s₀ (s.launchLate cause pos) := hk.setFld'.setFld'.setFld'

theorem Keeps.launchAbort {s : State} (hk : Keeps s₀ s) {cause pos : Nat} : Keeps s₀ (s.launchAbort cause pos) := hk.launchAll.launchLate

theorem Keeps.launchTryGo {s : State} (hk : Keeps s₀ s) : Keeps s₀ s.launchTryGo :=
  .either hk.setFld'.launchAll hk

theorem Keeps.launchArm {s : State} (hk : Keeps s₀ s) {r : Req} : Keeps s₀ (s.launchArm r) := by
  unfold State.launchArm
  refine hk.guardW (fun hk => (.either hk (.either hk.setFld' ?_)))
  extract_lets +onlyGivenNames -merge s0 _ s1
  have hs1 : Keeps s₀ s1 := hk.setFld'.setFld'.setFld'.rest
  exact .either hs1.launchLate (.launchTryGo (.launchAll (.setFld' (.either hs1.setGates hs1))))

theorem Keeps.launchAbortWrite {s : State} (hk : Keeps s₀ s) {r : Req} : Keeps s₀ (s.launchAbortWrite r) :=
  hk.guardW (fun hk => .either hk.launchAbort hk)

theorem Keeps.launchRelease {s : State} (hk : Keeps s₀ s) {r : Req} : Keeps s₀ (s.launchRelease r) :=
  hk.guardW (fun hk => hk.setGates)

theorem Keeps.writeLaunchCtl {s : State} (hk : Keeps s₀ s) {r : Req} {h : Half} {v : Word} : Keeps s₀ (s.writeLaunchCtl r h v) := by
  unfold State.writeLaunchCtl
  extract_lets +onlyGivenNames -merge s1
  have hs1 : Keeps s₀ s1 := hk.guardW (fun hk => hk.writeFields')
  refine .either hs1 ?_
  extract_lets +onlyGivenNames -merge s2 s3
  have hs2 : Keeps s₀ s2 := .either hs1.launchRelease hs1
  have hs3 : Keeps s₀ s3 := .either hs2.launchAbortWrite hs2
  exact .either hs3.launchArm hs3

theorem Keeps.launchWorker {s : State} (hk : Keeps s₀ s) {type id cause : Nat} {l : Word} : Keeps s₀ (s.launchWorker type id cause l) := by
  unfold State.launchWorker
  split
  · extract_lets +onlyGivenNames -merge _ _ s1
    have hs1 : Keeps s₀ s1 := hk.setFld'.rest
    exact .either hs1.setGates.setFld'.launchSend hs1.launchSend
  · exact .either (.either hk.launchLate.launchSend hk.setFld') hk
  · exact .either hk.launchLate hk
  · exact hk

theorem Keeps.launchManager {s : State} (hk : Keeps s₀ s) {type id src : Nat} : Keeps s₀ (s.launchManager type id src) := by
  unfold State.launchManager
  refine .either hk ?_
  split
  · exact .either hk.rest.launchTryGo hk
  · exact .either hk.launchAbort hk
  · exact .either hk.setFld'.setFld'.setFld' hk
  · exact hk

theorem Moves.chordDet {s : State} (hk : Keeps s₀ s) {p : Fin 4} {f : ChordFrame} : Moves s₀ (execChordDet p f s) :=
  .next (hk.chdTake (fun _ hk => .either hk.launchManager hk.launchWorker))

theorem Moves.launchFire {s : State} (hk : Keeps s₀ s) : Moves s₀ (execLaunchFire s) :=
  .next (.either (.either hk.setFld'.setGates.setReg' hk.setFld') hk)

theorem Moves.launchMarginExpiry {s : State} (hk : Keeps s₀ s) : Moves s₀ (execLaunchMarginExpiry s) :=
  .next (.either hk.launchAbort hk)

theorem Moves.launchArmedExpiry {s : State} (hk : Keeps s₀ s) : Moves s₀ (execLaunchArmedExpiry s) :=
  .next (.either hk.launchLate.launchSend hk)

theorem Moves.settingsDigestRecompute {s : State} (hk : Keeps s₀ s) : Moves s₀ (execSettingsDigestRecompute s) :=
  .next (.either hk (.rest (.wrapAdd' (hk.foldl' (fun _ _ hk => hk.setReg')))))

/-! ### Operands -/
theorem Keeps.writeRuns {s : State} (hk : Keeps s₀ s) {g : Agent} {bits : Nat} {l : List Run} {l1 : List Nat} : Keeps s₀
    (s.writeRuns g bits l l1).state := by
  induction l generalizing s g bits l1 with
  | nil => exact hk
  | cons r rest ih => exact ih hk.writeMem

theorem Keeps.noteRuns {s : State} (hk : Keeps s₀ s) {g : Agent} {l : List Run} : Keeps s₀ (s.noteRuns g l) :=
  hk.foldl' (fun _ _ hk => hk.noteRead)

theorem Keeps.engineStop {s : State} (hk : Keeps s₀ s) {core source : Nat} {x : Check} : Keeps s₀ (s.engineStop core source x) := by
  unfold State.engineStop
  split
  · exact hk.coreFmtIllegal
  · exact hk.coreDenied
  · exact hk

theorem Keeps.readOperand {s : State} (hk : Keeps s₀ s) {core : Nat} {d : Desc} {rows : Nat} : Keeps s₀ (s.readOperand core d rows).2 := by
  unfold State.readOperand
  split
  · exact hk
  · exact hk.noteRuns.coreFlags

theorem Keeps.engineBad {s : State} (hk : Keeps s₀ s) {core source : Nat} : Keeps s₀ (s.engineBad core source) := hk.coreErr.endOnCore

theorem Keeps.writeOperand {s : State} (hk : Keeps s₀ s) {core : Nat} {d : Desc} {rows : Nat} {codes : List Nat} : Keeps s₀
    (s.writeOperand core d rows codes) := by
  unfold State.writeOperand
  split
  · exact hk
  · exact hk.writeRuns.coreFlags

/-! ### Matrix -/
theorem Keeps.readSide {s : State} (hk : Keeps s₀ s) {core : Nat} {side : Option (List Word)} : Keeps s₀ (s.readSide core side).2 := by
  unfold State.readSide
  split
  · exact hk
  · exact hk.readOperand

theorem Keeps.setMat {s : State} (hk : Keeps s₀ s) {n : Nat} {e : MatEng} {m : MatSt} : Keeps s₀ (s.setMat n e m) := hk.setCore

theorem Keeps.matBusy {s : State} (hk : Keeps s₀ s) {n : Nat} {e : MatEng} {k : Nat} : Keeps s₀ (s.matBusy n e k) := hk.satAdd'

theorem Keeps.matWload {s : State} (hk : Keeps s₀ s) {n : Nat} {e : MatEng} {x : List Word} {side : Option (List Word)} : Keeps s₀
    (s.matWload n e x side) := by
  unfold State.matWload
  extract_lets +onlyGivenNames -merge d src
  split
  · exact hk.engineStop
  · extract_lets +onlyGivenNames -merge chk
    clear_value chk
    split
    · extract_lets +onlyGivenNames -merge t z
      have hz : Keeps s₀ z.2 := hk.readOperand.readSide
      exact .either hz.engineBad hz.setMat.coreFmt.matBusy
    · exact hk
    · exact hk.engineStop

theorem Keeps.freeRows {s : State} (hk : Keeps s₀ s) {row : Nat} {a : AccSet} {k : Nat} : Keeps s₀ (s.freeRows row a k).2 := by
  induction k generalizing s row a with
  | zero => exact hk
  | succ n ih => exact ih hk.draw

theorem Keeps.matStream {s : State} (hk : Keeps s₀ s) {n : Nat} {e : MatEng} {d : Desc} {side : Option (List Word)} {set : Bool} {row count : Nat}
    {init : Bool} {m : MatSt} {fault : MatFault} {src : Nat} :
    Keeps s₀ (s.matStream n e d side set row count init m fault src) := by
  unfold State.matStream
  split
  · exact hk.engineStop
  · extract_lets +onlyGivenNames -merge cls k typed shape fits
    refine .either hk.engineStop (.either hk.freeRows.setMat (.either hk.engineStop ?_))
    extract_lets +onlyGivenNames -merge ad
    split
    · split
      · exact hk.setMat.coreDetect
      · exact hk.setMat.coreDetect
      · extract_lets +onlyGivenNames -merge t z
        have hz : Keeps s₀ z.2 := hk.readOperand.readSide
        exact .either hz.engineBad hz.setMat.coreFmt.matBusy
    · exact hk
    · exact hk.engineStop

theorem Keeps.matMatmul {s : State} (hk : Keeps s₀ s) {n : Nat} {e : MatEng} {x : List Word} {side : Option (List Word)} {set : Bool}
    {row count : Nat} {init swap : Bool} {fault : MatFault} :
    Keeps s₀ (s.matMatmul n e x side set row count init swap fault) := by
  unfold State.matMatmul
  extract_lets +onlyGivenNames -merge d src m0 m inj
  clear_value inj
  split
  · exact .either hk.setCore.coreDetect hk.matStream
  · exact hk.matStream

theorem Keeps.matDrain {s : State} (hk : Keeps s₀ s) {n : Nat} {e : MatEng} {x : List Word} {table : Option (List Word)} {set : Bool}
    {row count : Nat} {rnd : Rnd} {stream : BitVec 32} :
    Keeps s₀ (s.matDrain n e x table set row count rnd stream) := by
  unfold State.matDrain
  extract_lets +onlyGivenNames -merge d0 d src a isInt tabCheck
  split
  · exact hk.engineStop
  · extract_lets +onlyGivenNames -merge okFmt
    refine .either hk.engineStop ?_
    split
    · extract_lets +onlyGivenNames -merge t
      have ht : Keeps s₀ t.2 := by
        unfold t
        split
        · exact hk
        · exact hk.readOperand
      exact .either ht.engineBad ht.writeOperand.coreFmt
    · exact hk
    · exact hk.engineStop

theorem Keeps.matClear {s : State} (hk : Keeps s₀ s) {n : Nat} {e : MatEng} {set : Bool} {row count : Nat} : Keeps s₀
    (s.matClear n e set row count) :=
  hk.setMat

theorem Keeps.takeSide {s : State} (hk : Keeps s₀ s) {n : Nat} {e : MatEng} {role : Nat} {named : Option (List Word)} : Keeps s₀
    (s.takeSide n e role named).2 := by
  unfold State.takeSide
  extract_lets +onlyGivenNames -merge m
  split
  · split
    · exact hk.setMat
    · exact hk
  · split
    · exact hk.setMat
    · exact hk
  · split
    · exact hk.setMat
    · exact hk

theorem Moves.matWload {s : State} (hk : Keeps s₀ s) {n : Fin 16} {e : MatEng} {x : BitVec 8} : Moves s₀ (execMatWload n e x s) :=
  .next (.either hk hk.takeSide.matWload)

theorem Moves.matMatmul {s : State} (hk : Keeps s₀ s) {n : Fin 16} {e : MatEng} {x : BitVec 8} {set : Bool} {row : BitVec 10} {count : BitVec 11}
    {init swap : Bool} {fault : MatFault} :
    Moves s₀ (execMatMatmul n e x set row count init swap fault s) :=
  .next (.either hk hk.takeSide.matMatmul)

theorem Moves.matDrain {s : State} (hk : Keeps s₀ s) {n : Fin 16} {e : MatEng} {x q : BitVec 8} {set : Bool} {row : BitVec 10} {count : BitVec 11}
    {rnd : Rnd} :
    Moves s₀ (execMatDrain n e x q set row count rnd s) :=
  .next (.either hk hk.takeSide.matDrain)

theorem Moves.matClear {s : State} (hk : Keeps s₀ s) {n : Fin 16} {e : MatEng} {set : Bool} {row : BitVec 10} {count : BitVec 11} :
    Moves s₀ (execMatClear n e set row count s) :=
  .next (.either hk hk.matClear)

/-! ### Vector -/
theorem Keeps.vecRead {s : State} (hk : Keeps s₀ s) {n : Nat} {d : Desc} {k : Nat} : Keeps s₀ (s.vecRead n d k).2 := hk.readOperand

theorem Keeps.vecBusy {s : State} (hk : Keeps s₀ s) {n : Nat} {f : Fmt} {slow : Bool} {k : Nat} : Keeps s₀ (s.vecBusy n f slow k) :=
  hk.satAdd'

theorem Keeps.vecWrite {s : State} (hk : Keeps s₀ s) {n : Nat} {d : Desc} {rnd : Rnd} {stream : BitVec 32} {fl : FmtFlags} {vs : List Val} :
    Keeps s₀ (s.vecWrite n d rnd stream fl vs) :=
  hk.writeOperand.coreFmt

theorem Keeps.vecElem {s : State} (hk : Keeps s₀ s) {n : Nat} {dst src1 : List Word} {src2 : Option (List Word)}
    {useDst slow abs1 neg2 row2 : Bool} {rnd : Rnd} {stream : BitVec 32} {op : Val → Val → Val → Val} :
    Keeps s₀ (s.vecElem n dst src1 src2 useDst slow abs1 neg2 row2 rnd stream op) := by
  unfold State.vecElem
  extract_lets +onlyGivenNames -merge d a k chk2
  split
  · extract_lets +onlyGivenNames -merge x y z
    have hy : Keeps s₀ y.2 := by
      unfold y
      split
      · exact hk.vecRead
      · exact hk.vecRead.vecRead
    have hz : Keeps s₀ z.2 := by
      unfold z
      split
      · exact hy.vecRead
      · exact hy
    exact .either hz.engineBad hz.vecWrite.vecBusy
  · exact hk
  · exact hk.engineStop

theorem Keeps.vecTwo {s : State} (hk : Keeps s₀ s) {n : Nat} {dst src1 : List Word} {src2 : Option (List Word)} {useDst : Bool} {imm : BitVec 6}
    {rnd : Rnd} {stream : BitVec 32} {op : Val → Val → Val → Val} :
    Keeps s₀ (s.vecTwo n dst src1 src2 useDst imm rnd stream op) :=
  hk.vecElem

theorem Keeps.vecFun {s : State} (hk : Keeps s₀ s) {n : Nat} {dst src1 : List Word} {imm : BitVec 6} {rnd : Rnd} {stream : BitVec 32}
    {fn : Val → Val} :
    Keeps s₀ (s.vecFun n dst src1 imm rnd stream fn) :=
  hk.vecElem

theorem Keeps.vecAdd {s : State} (hk : Keeps s₀ s) {n : Nat} {dst src1 src2 : List Word} {imm : BitVec 6} {rnd : Rnd} {stream : BitVec 32} :
    Keeps s₀ (s.vecAdd n dst src1 src2 imm rnd stream) :=
  hk.vecTwo

theorem Keeps.vecMul {s : State} (hk : Keeps s₀ s) {n : Nat} {dst src1 src2 : List Word} {imm : BitVec 6} {rnd : Rnd} {stream : BitVec 32} :
    Keeps s₀ (s.vecMul n dst src1 src2 imm rnd stream) :=
  hk.vecTwo

theorem Keeps.vecFma {s : State} (hk : Keeps s₀ s) {n : Nat} {dst src1 src2 : List Word} {imm : BitVec 6} {rnd : Rnd} {stream : BitVec 32} :
    Keeps s₀ (s.vecFma n dst src1 src2 imm rnd stream) :=
  hk.vecTwo

theorem Keeps.vecMax {s : State} (hk : Keeps s₀ s) {n : Nat} {dst src1 : List Word} {src2 : Option (List Word)} {imm : BitVec 6} {rnd : Rnd}
    {stream : BitVec 32} :
    Keeps s₀ (s.vecMax n dst src1 src2 imm rnd stream) :=
  hk.vecTwo

theorem Keeps.vecMin {s : State} (hk : Keeps s₀ s) {n : Nat} {dst src1 src2 : List Word} {imm : BitVec 6} {rnd : Rnd} {stream : BitVec 32} :
    Keeps s₀ (s.vecMin n dst src1 src2 imm rnd stream) :=
  hk.vecTwo

theorem Keeps.vecCvt {s : State} (hk : Keeps s₀ s) {n : Nat} {dst src1 : List Word} {imm : BitVec 6} {rnd : Rnd} {stream : BitVec 32} :
    Keeps s₀ (s.vecCvt n dst src1 imm rnd stream) :=
  hk.vecElem

theorem Keeps.vecBquant {s : State} (hk : Keeps s₀ s) {n : Nat} {dst src1 : List Word} {scale : Option (List Word)} {rnd : Rnd} {stream : BitVec 32} :
    Keeps s₀ (s.vecBquant n dst src1 scale rnd stream) := by
  unfold State.vecBquant
  extract_lets +onlyGivenNames -merge d a k nb chk
  split
  · extract_lets +onlyGivenNames -merge x
    refine .either hk.vecRead.engineBad ?_
    extract_lets +onlyGivenNames -merge f seed bs s1 s2
    have hs1 : Keeps s₀ s1 := hk.vecRead.writeOperand
    have hs2 : Keeps s₀ s2 := by
      unfold s2
      split
      · exact hs1.writeOperand
      · exact hs1
    exact hs2.coreFmt.vecBusy
  · exact hk
  · exact hk.engineStop

theorem Keeps.vecReduce {s : State} (hk : Keeps s₀ s) {n : Nat} {dst src1 : List Word} {acc : Bool} {rnd : Rnd} {stream : BitVec 32}
    {red : List Val → Val × FmtFlags} {comb : Val → Val → Val} :
    Keeps s₀ (s.vecReduce n dst src1 acc rnd stream red comb) := by
  unfold State.vecReduce
  extract_lets +onlyGivenNames -merge d a k
  split
  · extract_lets +onlyGivenNames -merge x z
    have hz : Keeps s₀ z.2 := by
      unfold z
      split
      · exact hk.vecRead.vecRead
      · exact hk.vecRead
    exact .either hz.engineBad hz.vecWrite.vecBusy
  · exact hk
  · exact hk.engineStop

theorem Keeps.vecRsum {s : State} (hk : Keeps s₀ s) {n : Nat} {dst src1 : List Word} {imm : BitVec 6} {rnd : Rnd} {stream : BitVec 32} :
    Keeps s₀ (s.vecRsum n dst src1 imm rnd stream) :=
  hk.vecReduce

theorem Keeps.vecRmax {s : State} (hk : Keeps s₀ s) {n : Nat} {dst src1 : List Word} {imm : BitVec 6} {rnd : Rnd} {stream : BitVec 32} :
    Keeps s₀ (s.vecRmax n dst src1 imm rnd stream) :=
  hk.vecReduce

theorem Keeps.vecSmstat {s : State} (hk : Keeps s₀ s) {n : Nat} {dst src1 : List Word} {fac : Option (List Word)} : Keeps s₀
    (s.vecSmstat n dst src1 fac) := by
  unfold State.vecSmstat
  extract_lets +onlyGivenNames -merge d a k chk
  refine .either hk.engineStop ?_
  split
  · extract_lets +onlyGivenNames -merge x z
    have hz : Keeps s₀ z.2 := hk.vecRead.vecRead
    refine .either hz.engineBad ?_
    extract_lets +onlyGivenNames -merge rs s1 s2
    have hs1 : Keeps s₀ s1 := hz.writeOperand
    have hs2 : Keeps s₀ s2 := by
      unfold s2
      split
      · exact hs1.writeOperand
      · exact hs1
    exact hs2.coreFmt.vecBusy
  · exact hk
  · exact hk.engineStop

theorem Keeps.vecSmlse {s : State} (hk : Keeps s₀ s) {n : Nat} {dst src1 : List Word} {rnd : Rnd} {stream : BitVec 32} :
    Keeps s₀ (s.vecSmlse n dst src1 rnd stream) := by
  unfold State.vecSmlse
  extract_lets +onlyGivenNames -merge d a k
  refine .either hk.engineStop ?_
  split
  · exact .either hk.vecRead.engineBad hk.vecRead.vecWrite.vecBusy
  · exact hk
  · exact hk.engineStop

theorem Keeps.vecNstat {s : State} (hk : Keeps s₀ s) {n : Nat} {dst src1 : List Word} {rnd : Rnd} {stream : BitVec 32} :
    Keeps s₀ (s.vecNstat n dst src1 rnd stream) := by
  unfold State.vecNstat
  extract_lets +onlyGivenNames -merge d a k
  refine .either hk.engineStop ?_
  split
  · exact .either hk.vecRead.engineBad hk.vecRead.vecWrite.vecBusy
  · exact hk
  · exact hk.engineStop

theorem Moves.vecAdd {s : State} (hk : Keeps s₀ s) {n : Fin 16} {dst src1 src2 : BitVec 8} {imm : BitVec 6} {rnd : Rnd} :
    Moves s₀ (execVecAdd n dst src1 src2 imm rnd s) :=
  .next (.either hk hk.vecAdd)

theorem Moves.vecMul {s : State} (hk : Keeps s₀ s) {n : Fin 16} {dst src1 src2 : BitVec 8} {imm : BitVec 6} {rnd : Rnd} :
    Moves s₀ (execVecMul n dst src1 src2 imm rnd s) :=
  .next (.either hk hk.vecMul)

theorem Moves.vecFma {s : State} (hk : Keeps s₀ s) {n : Fin 16} {dst src1 src2 : BitVec 8} {imm : BitVec 6} {rnd : Rnd} :
    Moves s₀ (execVecFma n dst src1 src2 imm rnd s) :=
  .next (.either hk hk.vecFma)

theorem Moves.vecMax {s : State} (hk : Keeps s₀ s) {n : Fin 16} {dst src1 src2 : BitVec 8} {imm : BitVec 6} {rnd : Rnd} :
    Moves s₀ (execVecMax n dst src1 src2 imm rnd s) :=
  .next (.either hk hk.vecMax)

theorem Moves.vecMin {s : State} (hk : Keeps s₀ s) {n : Fin 16} {dst src1 src2 : BitVec 8} {imm : BitVec 6} {rnd : Rnd} :
    Moves s₀ (execVecMin n dst src1 src2 imm rnd s) :=
  .next (.either hk hk.vecMin)

theorem Moves.vecCvt {s : State} (hk : Keeps s₀ s) (src2 : BitVec 8) {n : Fin 16} {dst src1 : BitVec 8} {imm : BitVec 6} {rnd : Rnd} :
    Moves s₀ (execVecCvt n dst src1 src2 imm rnd s) :=
  .next (.either hk hk.vecCvt)

theorem Moves.vecBquant {s : State} (hk : Keeps s₀ s) (src2 : BitVec 8) (imm : BitVec 6) {n : Fin 16} {dst src1 : BitVec 8} {rnd : Rnd} :
    Moves s₀ (execVecBquant n dst src1 src2 imm rnd s) :=
  .next (.either hk hk.vecBquant)

theorem Moves.vecExp {s : State} (hk : Keeps s₀ s) (src2 : BitVec 8) {n : Fin 16} {dst src1 : BitVec 8} {imm : BitVec 6} {rnd : Rnd} :
    Moves s₀ (execVecExp n dst src1 src2 imm rnd s) :=
  .next (.either hk hk.vecFun)

theorem Moves.vecLog {s : State} (hk : Keeps s₀ s) (src2 : BitVec 8) {n : Fin 16} {dst src1 : BitVec 8} {imm : BitVec 6} {rnd : Rnd} :
    Moves s₀ (execVecLog n dst src1 src2 imm rnd s) :=
  .next (.either hk hk.vecFun)

theorem Moves.vecRecip {s : State} (hk : Keeps s₀ s) (src2 : BitVec 8) {n : Fin 16} {dst src1 : BitVec 8} {imm : BitVec 6} {rnd : Rnd} :
    Moves s₀ (execVecRecip n dst src1 src2 imm rnd s) :=
  .next (.either hk hk.vecFun)

theorem Moves.vecRsqrt {s : State} (hk : Keeps s₀ s) (src2 : BitVec 8) {n : Fin 16} {dst src1 : BitVec 8} {imm : BitVec 6} {rnd : Rnd} :
    Moves s₀ (execVecRsqrt n dst src1 src2 imm rnd s) :=
  .next (.either hk hk.vecFun)

theorem Moves.vecTanh {s : State} (hk : Keeps s₀ s) (src2 : BitVec 8) {n : Fin 16} {dst src1 : BitVec 8} {imm : BitVec 6} {rnd : Rnd} :
    Moves s₀ (execVecTanh n dst src1 src2 imm rnd s) :=
  .next (.either hk hk.vecFun)

theorem Moves.vecSigmoid {s : State} (hk : Keeps s₀ s) (src2 : BitVec 8) {n : Fin 16} {dst src1 : BitVec 8} {imm : BitVec 6} {rnd : Rnd} :
    Moves s₀ (execVecSigmoid n dst src1 src2 imm rnd s) :=
  .next (.either hk hk.vecFun)

theorem Moves.vecGelu {s : State} (hk : Keeps s₀ s) (src2 : BitVec 8) {n : Fin 16} {dst src1 : BitVec 8} {imm : BitVec 6} {rnd : Rnd} :
    Moves s₀ (execVecGelu n dst src1 src2 imm rnd s) :=
  .next (.either hk hk.vecFun)

theorem Moves.vecRsum {s : State} (hk : Keeps s₀ s) (src2 : BitVec 8) {n : Fin 16} {dst src1 : BitVec 8} {imm : BitVec 6} {rnd : Rnd} :
    Moves s₀ (execVecRsum n dst src1 src2 imm rnd s) :=
  .next (.either hk hk.vecRsum)

theorem Moves.vecRmax {s : State} (hk : Keeps s₀ s) (src2 : BitVec 8) {n : Fin 16} {dst src1 : BitVec 8} {imm : BitVec 6} {rnd : Rnd} :
    Moves s₀ (execVecRmax n dst src1 src2 imm rnd s) :=
  .next (.either hk hk.vecRmax)

theorem Moves.vecSmstat {s : State} (hk : Keeps s₀ s) (src2 : BitVec 8) (imm : BitVec 6) (rnd : Rnd) {n : Fin 16} {dst src1 : BitVec 8} :
    Moves s₀ (execVecSmstat n dst src1 src2 imm rnd s) :=
  .next (.either hk hk.vecSmstat)

theorem Moves.vecSmlse {s : State} (hk : Keeps s₀ s) (src2 : BitVec 8) (imm : BitVec 6) {n : Fin 16} {dst src1 : BitVec 8} {rnd : Rnd} :
    Moves s₀ (execVecSmlse n dst src1 src2 imm rnd s) :=
  .next (.either hk hk.vecSmlse)

theorem Moves.vecNstat {s : State} (hk : Keeps s₀ s) (src2 : BitVec 8) (imm : BitVec 6) {n : Fin 16} {dst src1 : BitVec 8} {rnd : Rnd} :
    Moves s₀ (execVecNstat n dst src1 src2 imm rnd s) :=
  .next (.either hk hk.vecNstat)

/-! ### Scalar -/
theorem Keeps.updCtx {s : State} (hk : Keeps s₀ s) {n : Nat} {f : CoreCtx → CoreCtx} : Keeps s₀ (s.updCtx n f) := hk.setCore

theorem Keeps.putG {s : State} (hk : Keeps s₀ s) {n i : Nat} {v : Word} : Keeps s₀ (s.putG n i v) := hk.updCtx

theorem Keeps.putReg {s : State} (hk : Keeps s₀ s) {n : Nat} {isF : Bool} {i : Nat} {v : Word} : Keeps s₀ (s.putReg n isF i v) := hk.updCtx

theorem Keeps.intR {s : State} (hk : Keeps s₀ s) {n : Nat} {old : CoreCtx} {op : IntOp} {rd ra rb : Nat} : Keeps s₀ (s.intR n old op rd ra rb) :=
  hk.putG

theorem Keeps.intI {s : State} (hk : Keeps s₀ s) {n : Nat} {old : CoreCtx} {op : IntOp} {rd ra : Nat} {imm : BitVec 18} : Keeps s₀
    (s.intI n old op rd ra imm) :=
  hk.putG

theorem Keeps.serveLoad {s : State} (hk : Keeps s₀ s) {t : State} {n : Nat} {l : PendLoad} (e : s.serveLoad n l = some t) : Keeps s₀ t := by
  unfold State.serveLoad at e
  dsimp only at e
  split_ifs at e <;> cases e
  · exact hk.noteRead.engineBad
  · exact hk.noteRead.coreFlags.putReg
  · exact hk.noteRead.coreDenied.putReg

theorem Keeps.dropLoad {s : State} (hk : Keeps s₀ s) {n i : Nat} : Keeps s₀ (s.dropLoad n i) := hk.setCore

theorem Moves.loadDataReturn {s : State} (hk : Keeps s₀ s) {n : Fin 16} {i : Nat} : Moves s₀ (execLoadDataReturn n i s) := by
  unfold execLoadDataReturn
  refine .next ?_
  split
  · exact hk
  · refine .either hk ?_
    split
    · rename_i e1
      exact hk.dropLoad.serveLoad e1
    · exact hk

theorem Keeps.serveBank {s : State} (hk : Keeps s₀ s) {n b : Nat} {l : List PendLoad} {t : State} (e : s.serveBank n b l = some t) : Keeps s₀ t := by
  induction l generalizing s with
  | nil => cases e; exact hk
  | cons x r ih =>
    unfold State.serveBank at e
    split at e
    · split at e
      · rename_i e1
        exact ih (hk.rest.serveLoad e1) e
      · cases e
    · exact ih hk e

theorem Keeps.scalarLoad {s : State} (hk : Keeps s₀ s) {n : Nat} {old : CoreCtx} {isF : Bool} {rd ra : Nat} {imm : BitVec 18} :
    Keeps s₀ (s.scalarLoad n old isF rd ra imm) := by
  unfold State.scalarLoad
  extract_lets +onlyGivenNames -merge a
  split
  · exact hk.setCore
  · exact hk.coreDenied.putReg

theorem Keeps.scalarStore {s : State} (hk : Keeps s₀ s) {t : State} {n : Nat} {old : CoreCtx} {v : Word} {ra : Nat} {imm : BitVec 18}
    (e : s.scalarStore n old v ra imm = some t) : Keeps s₀ t := by
  unfold State.scalarStore at e
  dsimp only at e
  split at e
  · cases e; exact hk.coreDenied
  · split at e
    · cases e
    · rename_i e1
      split at e <;> cases e
      exact .either (hk.serveBank e1).writeMem.coreFlags (hk.serveBank e1).writeMem.coreDenied

/-- A store that may wait keeps the state. -/
theorem Keeps.storeOrWait {s : State} (hk : Keeps s₀ s) {n : Nat} {old : CoreCtx} {v : Word} {ra : Nat} {imm : BitVec 18} :
    Keeps s₀ ((s.scalarStore n old v ra imm).getD s) := by
  cases e : s.scalarStore n old v ra imm with
  | none => exact hk
  | some t => exact hk.scalarStore e

theorem Keeps.scalarBranch {s : State} (hk : Keeps s₀ s) {n : Nat} {taken : Bool} {off : BitVec 18} : Keeps s₀ (s.scalarBranch n taken off) :=
  hk.updCtx

theorem Keeps.fpIssue {s : State} (hk : Keeps s₀ s) {n : Nat} {isF : Bool} {rd : Nat} {v : Word} {slow : Bool} : Keeps s₀
    (s.fpIssue n isF rd v slow) :=
  hk.setCore

theorem Moves.fp64ResultWrite {s : State} (hk : Keeps s₀ s) {n : Fin 16} {slow : Bool} : Moves s₀ (execFp64ResultWrite n slow s) := by
  unfold execFp64ResultWrite
  refine .next ?_
  extract_lets +onlyGivenNames -merge k
  split
  · exact hk
  · exact hk.setCore.putReg

theorem Keeps.fp2 {s : State} (hk : Keeps s₀ s) {n : Nat} {old : CoreCtx} {f : Word → Word → Word} {fd fa fb : Nat} {slow : Bool} :
    Keeps s₀ (s.fp2 n old f fd fa fb slow) :=
  hk.fpIssue

theorem Moves.s0Add {s : State} (hk : Keeps s₀ s) {n : Fin 16} {rd ra rb : BitVec 6} : Moves s₀ (execS0Add n rd ra rb s) :=
  .next (.either hk hk.intR)

theorem Moves.s0Sub {s : State} (hk : Keeps s₀ s) {n : Fin 16} {rd ra rb : BitVec 6} : Moves s₀ (execS0Sub n rd ra rb s) :=
  .next (.either hk hk.intR)

theorem Moves.s0And {s : State} (hk : Keeps s₀ s) {n : Fin 16} {rd ra rb : BitVec 6} : Moves s₀ (execS0And n rd ra rb s) :=
  .next (.either hk hk.intR)

theorem Moves.s0Or {s : State} (hk : Keeps s₀ s) {n : Fin 16} {rd ra rb : BitVec 6} : Moves s₀ (execS0Or n rd ra rb s) :=
  .next (.either hk hk.intR)

theorem Moves.s0Xor {s : State} (hk : Keeps s₀ s) {n : Fin 16} {rd ra rb : BitVec 6} : Moves s₀ (execS0Xor n rd ra rb s) :=
  .next (.either hk hk.intR)

theorem Moves.s0Shl {s : State} (hk : Keeps s₀ s) {n : Fin 16} {rd ra rb : BitVec 6} : Moves s₀ (execS0Shl n rd ra rb s) :=
  .next (.either hk hk.intR)

theorem Moves.s0Shr {s : State} (hk : Keeps s₀ s) {n : Fin 16} {rd ra rb : BitVec 6} : Moves s₀ (execS0Shr n rd ra rb s) :=
  .next (.either hk hk.intR)

theorem Moves.s0Sar {s : State} (hk : Keeps s₀ s) {n : Fin 16} {rd ra rb : BitVec 6} : Moves s₀ (execS0Sar n rd ra rb s) :=
  .next (.either hk hk.intR)

theorem Moves.s0Mul {s : State} (hk : Keeps s₀ s) {n : Fin 16} {rd ra rb : BitVec 6} : Moves s₀ (execS0Mul n rd ra rb s) :=
  .next (.either hk hk.intR)

theorem Moves.s0Min {s : State} (hk : Keeps s₀ s) {n : Fin 16} {rd ra rb : BitVec 6} : Moves s₀ (execS0Min n rd ra rb s) :=
  .next (.either hk hk.intR)

theorem Moves.s0Max {s : State} (hk : Keeps s₀ s) {n : Fin 16} {rd ra rb : BitVec 6} : Moves s₀ (execS0Max n rd ra rb s) :=
  .next (.either hk hk.intR)

theorem Moves.s0Slt {s : State} (hk : Keeps s₀ s) {n : Fin 16} {rd ra rb : BitVec 6} : Moves s₀ (execS0Slt n rd ra rb s) :=
  .next (.either hk hk.intR)

theorem Moves.s0Sltu {s : State} (hk : Keeps s₀ s) {n : Fin 16} {rd ra rb : BitVec 6} : Moves s₀ (execS0Sltu n rd ra rb s) :=
  .next (.either hk hk.intR)

theorem Moves.s0Addi {s : State} (hk : Keeps s₀ s) {n : Fin 16} {rd ra : BitVec 6} {imm : BitVec 18} : Moves s₀ (execS0Addi n rd ra imm s) :=
  .next (.either hk hk.intI)

theorem Moves.s0Andi {s : State} (hk : Keeps s₀ s) {n : Fin 16} {rd ra : BitVec 6} {imm : BitVec 18} : Moves s₀ (execS0Andi n rd ra imm s) :=
  .next (.either hk hk.intI)

theorem Moves.s0Ori {s : State} (hk : Keeps s₀ s) {n : Fin 16} {rd ra : BitVec 6} {imm : BitVec 18} : Moves s₀ (execS0Ori n rd ra imm s) :=
  .next (.either hk hk.intI)

theorem Moves.s0Xori {s : State} (hk : Keeps s₀ s) {n : Fin 16} {rd ra : BitVec 6} {imm : BitVec 18} : Moves s₀ (execS0Xori n rd ra imm s) :=
  .next (.either hk hk.intI)

theorem Moves.s0Shli {s : State} (hk : Keeps s₀ s) {n : Fin 16} {rd ra : BitVec 6} {imm : BitVec 18} : Moves s₀ (execS0Shli n rd ra imm s) :=
  .next (.either hk hk.intI)

theorem Moves.s0Shri {s : State} (hk : Keeps s₀ s) {n : Fin 16} {rd ra : BitVec 6} {imm : BitVec 18} : Moves s₀ (execS0Shri n rd ra imm s) :=
  .next (.either hk hk.intI)

theorem Moves.s0Sari {s : State} (hk : Keeps s₀ s) {n : Fin 16} {rd ra : BitVec 6} {imm : BitVec 18} : Moves s₀ (execS0Sari n rd ra imm s) :=
  .next (.either hk hk.intI)

theorem Moves.s0Lih {s : State} (hk : Keeps s₀ s) {n : Fin 16} {rd ra : BitVec 6} {imm : BitVec 18} : Moves s₀ (execS0Lih n rd ra imm s) :=
  .next (.either hk hk.putG)

theorem Moves.s0Exts {s : State} (hk : Keeps s₀ s) {n : Fin 16} {rd ra : BitVec 6} {imm : BitVec 18} : Moves s₀ (execS0Exts n rd ra imm s) :=
  .next (.either hk hk.putG)

theorem Moves.s0Extu {s : State} (hk : Keeps s₀ s) {n : Fin 16} {rd ra : BitVec 6} {imm : BitVec 18} : Moves s₀ (execS0Extu n rd ra imm s) :=
  .next (.either hk hk.putG)

theorem Moves.s0Ld {s : State} (hk : Keeps s₀ s) {n : Fin 16} {rd ra : BitVec 6} {imm : BitVec 18} : Moves s₀ (execS0Ld n rd ra imm s) :=
  .next (.either hk hk.scalarLoad)

theorem Moves.s0St {s : State} (hk : Keeps s₀ s) {n : Fin 16} {rs ra : BitVec 6} {imm : BitVec 18} : Moves s₀ (execS0St n rs ra imm s) :=
  .next (.either hk hk.storeOrWait)

theorem Moves.s0Ldf {s : State} (hk : Keeps s₀ s) {n : Fin 16} {rd ra : BitVec 6} {imm : BitVec 18} : Moves s₀ (execS0Ldf n rd ra imm s) :=
  .next (.either hk hk.scalarLoad)

theorem Moves.s0Stf {s : State} (hk : Keeps s₀ s) {n : Fin 16} {rs ra : BitVec 6} {imm : BitVec 18} : Moves s₀ (execS0Stf n rs ra imm s) :=
  .next (.either hk hk.storeOrWait)

theorem Moves.s0Beq {s : State} (hk : Keeps s₀ s) {n : Fin 16} {ra rb : BitVec 6} {off : BitVec 18} : Moves s₀ (execS0Beq n ra rb off s) :=
  .next (.either hk hk.scalarBranch)

theorem Moves.s0Bne {s : State} (hk : Keeps s₀ s) {n : Fin 16} {ra rb : BitVec 6} {off : BitVec 18} : Moves s₀ (execS0Bne n ra rb off s) :=
  .next (.either hk hk.scalarBranch)

theorem Moves.s0Blt {s : State} (hk : Keeps s₀ s) {n : Fin 16} {ra rb : BitVec 6} {off : BitVec 18} : Moves s₀ (execS0Blt n ra rb off s) :=
  .next (.either hk hk.scalarBranch)

theorem Moves.s0Bge {s : State} (hk : Keeps s₀ s) {n : Fin 16} {ra rb : BitVec 6} {off : BitVec 18} : Moves s₀ (execS0Bge n ra rb off s) :=
  .next (.either hk hk.scalarBranch)

theorem Moves.s0Jmp {s : State} (hk : Keeps s₀ s) {n : Fin 16} {off : BitVec 18} : Moves s₀ (execS0Jmp n off s) :=
  .next (.either hk hk.scalarBranch)

theorem Moves.s0Loop {s : State} (hk : Keeps s₀ s) {n : Fin 16} {ra : BitVec 6} {imm : BitVec 18} : Moves s₀ (execS0Loop n ra imm s) :=
  .next (.either hk hk.updCtx)

theorem Moves.s0Dset {s : State} (hk : Keeps s₀ s) {n : Fin 16} {g : BitVec 6} {desc : BitVec 8} {word : BitVec 2} : Moves s₀
    (execS0Dset n g desc word s) :=
  .next (.either hk hk.updCtx)

theorem Moves.s0Dadd {s : State} (hk : Keeps s₀ s) {n : Fin 16} {g : BitVec 6} {desc : BitVec 8} : Moves s₀ (execS0Dadd n g desc s) :=
  .next (.either hk hk.updCtx)

theorem Moves.s0Dget {s : State} (hk : Keeps s₀ s) {n : Fin 16} {g : BitVec 6} {desc : BitVec 8} {word : BitVec 2} : Moves s₀
    (execS0Dget n g desc word s) :=
  .next (.either hk hk.updCtx)

theorem Moves.s0Srstream {s : State} (hk : Keeps s₀ s) {n : Fin 16} {ra : BitVec 6} : Moves s₀ (execS0Srstream n ra s) :=
  .next (.either hk hk.updCtx)

theorem Moves.s1IntegerOp {s : State} (hk : Keeps s₀ s) {n : Fin 16} {op : IntOp} {rd ra rb : BitVec 6} : Moves s₀
    (execS1IntegerOp n op rd ra rb s) :=
  .next (.either hk hk.intR)

theorem Moves.s1Fadd {s : State} (hk : Keeps s₀ s) {n : Fin 16} {fd fa fb : BitVec 5} : Moves s₀ (execS1Fadd n fd fa fb s) :=
  .next (.either hk hk.fp2)

theorem Moves.s1Fsub {s : State} (hk : Keeps s₀ s) {n : Fin 16} {fd fa fb : BitVec 5} : Moves s₀ (execS1Fsub n fd fa fb s) :=
  .next (.either hk hk.fp2)

theorem Moves.s1Fmul {s : State} (hk : Keeps s₀ s) {n : Fin 16} {fd fa fb : BitVec 5} : Moves s₀ (execS1Fmul n fd fa fb s) :=
  .next (.either hk hk.fp2)

theorem Moves.s1Fma {s : State} (hk : Keeps s₀ s) {n : Fin 16} {fd fa fb fc : BitVec 5} : Moves s₀ (execS1Fma n fd fa fb fc s) :=
  .next (.either hk hk.fpIssue)

theorem Moves.s1Fdiv {s : State} (hk : Keeps s₀ s) {n : Fin 16} {fd fa fb : BitVec 5} : Moves s₀ (execS1Fdiv n fd fa fb s) :=
  .next (.either hk hk.fp2)

theorem Moves.s1Fsqrt {s : State} (hk : Keeps s₀ s) {n : Fin 16} {fd fa : BitVec 5} : Moves s₀ (execS1Fsqrt n fd fa s) :=
  .next (.either hk hk.fpIssue)

theorem Moves.s1Fmin {s : State} (hk : Keeps s₀ s) {n : Fin 16} {fd fa fb : BitVec 5} : Moves s₀ (execS1Fmin n fd fa fb s) :=
  .next (.either hk hk.fp2)

theorem Moves.s1Fmax {s : State} (hk : Keeps s₀ s) {n : Fin 16} {fd fa fb : BitVec 5} : Moves s₀ (execS1Fmax n fd fa fb s) :=
  .next (.either hk hk.fp2)

theorem Moves.s1FcvtFi {s : State} (hk : Keeps s₀ s) {n : Fin 16} {fd : BitVec 5} {gr : BitVec 6} : Moves s₀ (execS1FcvtFi n fd gr s) :=
  .next (.either hk hk.fpIssue)

theorem Moves.s1FcvtIf {s : State} (hk : Keeps s₀ s) {n : Fin 16} {gr : BitVec 6} {fa : BitVec 5} : Moves s₀ (execS1FcvtIf n gr fa s) :=
  .next (.either hk hk.fpIssue)

theorem Moves.s1FcvtFs {s : State} (hk : Keeps s₀ s) {n : Fin 16} {fd : BitVec 5} {gr : BitVec 6} : Moves s₀ (execS1FcvtFs n fd gr s) :=
  .next (.either hk hk.fpIssue)

theorem Moves.s1FcvtSf {s : State} (hk : Keeps s₀ s) {n : Fin 16} {gr : BitVec 6} {fa : BitVec 5} : Moves s₀ (execS1FcvtSf n gr fa s) :=
  .next (.either hk hk.fpIssue.coreFmt)

theorem Moves.s1Fmovfg {s : State} (hk : Keeps s₀ s) {n : Fin 16} {fd : BitVec 5} {gr : BitVec 6} : Moves s₀ (execS1Fmovfg n fd gr s) :=
  .next (.either hk hk.fpIssue)

theorem Moves.s1Fmovgf {s : State} (hk : Keeps s₀ s) {n : Fin 16} {gr : BitVec 6} {fa : BitVec 5} : Moves s₀ (execS1Fmovgf n gr fa s) :=
  .next (.either hk hk.fpIssue)

theorem Moves.s1Fcmplt {s : State} (hk : Keeps s₀ s) {n : Fin 16} {gr : BitVec 6} {fa fb : BitVec 5} : Moves s₀ (execS1Fcmplt n gr fa fb s) :=
  .next (.either hk hk.fpIssue)

/-! ### Bundle -/
theorem Moves.coreRun {s : State} (hk : Keeps s₀ s) {q : BitVec 16} : Moves s₀ (execCoreRun q s) := by
  unfold execCoreRun
  refine .next ?_
  split
  · exact hk
  · split
    · exact hk
    · extract_lets +onlyGivenNames -merge k
      refine .either ?_ hk
      split
      · exact hk.endOnCore
      · split
        · exact hk.endOnCore
        · exact hk.setCore

/-- The state an operation of S0 leaves, when it does not wait, keeps the state before. -/
def KeepsWhen (s₀ : State) (o : Option State) : Prop := ∀ t, o = some t → Keeps s₀ t

theorem KeepsWhen.some {t : State} (hk : Keeps s₀ t) : KeepsWhen s₀ (.some t) := by
  intro u e
  cases e
  exact hk

theorem KeepsWhen.bind {o : Option State} {f : State → Option State} (ho : KeepsWhen s₀ o) (hf : ∀ t, Keeps s₀ t → KeepsWhen s₀ (f t)) :
    KeepsWhen s₀ (o.bind f) := by
  intro u e
  obtain ⟨t, ht, hu⟩ := Option.bind_eq_some_iff.mp e
  exact hf t (ho t ht) u hu

theorem KeepsWhen.s0Slot {s : State} (hk : Keeps s₀ s) {n w : Nat} : KeepsWhen s₀ (s.s0Slot n w) := by
  unfold State.s0Slot
  extract_lets old op hi ra rb imm d wd on r i br
  have hon (t : State) (ht : Keeps s₀ t) : KeepsWhen s₀ (on t) := .some ht.updCtx
  have hr (o : IntOp) : KeepsWhen s₀ (r o) := hon _ hk.intR
  have hi' (o : IntOp) : KeepsWhen s₀ (i o) := hon _ hk.intI
  have hbr (b : Bool) : KeepsWhen s₀ (br b) := .some hk.scalarBranch
  have hput {k : Nat} {v : Word} : KeepsWhen s₀ (on (s.putG n k v)) := hon _ hk.putG
  have hload {f : Bool} {k : Nat} : KeepsWhen s₀ (on (s.scalarLoad n old f k ra imm)) := hon _ hk.scalarLoad
  have hstore {v : Word} : KeepsWhen s₀ ((s.scalarStore n old v ra imm).bind on) := .bind (fun _ e => hk.scalarStore e) hon
  have hctx {f : CoreCtx → CoreCtx} : KeepsWhen s₀ (on (s.updCtx n f)) := hon _ hk.updCtx
  clear_value op
  split
  exacts [hr _, hr _, hr _, hr _, hr _, hr _, hr _, hr _, hr _, hr _, hr _, hr _, hr _, hi' _, hi' _, hi' _, hi' _, hi' _, hi' _, hi' _, hput, hput,
    hput, hload, hstore, hload, hstore, hbr _, hbr _, hbr _, hbr _, hbr _, .some hk.updCtx, hctx, hctx, hput, hctx, hon _ hk]

theorem Keeps.s1Slot {s : State} (hk : Keeps s₀ s) {n : Nat} {old : CoreCtx} {w : Nat} : Keeps s₀ (s.s1Slot n old w) := by
  unfold State.s1Slot
  extract_lets +onlyGivenNames -merge op fd fa fb fc gi g toF toG r
  clear_value op
  split
  · exact hk.fpIssue
  · exact hk.fpIssue
  · exact hk.fpIssue
  · exact hk.fpIssue
  · exact hk.fpIssue
  · exact hk.fpIssue
  · exact hk.fpIssue
  · exact hk.fpIssue
  · exact hk.fpIssue
  · exact hk.fpIssue
  · exact hk.fpIssue
  · exact hk.fpIssue.coreFmt
  · exact hk.fpIssue
  · exact hk.fpIssue
  · exact hk.fpIssue
  · exact hk.intR
  · exact hk.intR
  · exact hk.intR
  · exact hk.intR
  · exact hk.intR
  · exact hk.intR
  · exact hk.intR
  · exact hk.intR
  · exact hk.intR
  · exact hk.intR
  · exact hk.intR
  · exact hk.intR
  · exact hk.intR
  · exact hk

theorem Keeps.pushOp {s : State} (hk : Keeps s₀ s) {n : Nat} {e : Engine} {old : CoreCtx} {w : Nat} {descs : List (List Word)} {pattern : Word} :
    Keeps s₀ (s.pushOp n e old w descs pattern) :=
  hk.setCore

theorem Keeps.issueMat {s : State} (hk : Keeps s₀ s) {n : Nat} {m : MatEng} {e : Engine} {old : CoreCtx} {w : Nat} : Keeps s₀
    (s.issueMat n m e old w) := by
  unfold State.issueMat
  extract_lets +onlyGivenNames -merge x
  split
  · exact hk.takeSide.pushOp
  · exact hk.takeSide.pushOp
  · exact hk.takeSide.pushOp
  · exact hk.pushOp
  · exact hk

theorem Keeps.issueVec {s : State} (hk : Keeps s₀ s) {n : Nat} {old : CoreCtx} {w : Nat} : Keeps s₀ (s.issueVec n old w) :=
  .either hk hk.pushOp

theorem Keeps.bindSide {s : State} (hk : Keeps s₀ s) {n : Nat} {e : MatEng} {role : Nat} {w : List Word} : Keeps s₀ (s.bindSide n e role w) :=
  hk.setMat

theorem Keeps.scaleBind {s : State} (hk : Keeps s₀ s) {n aux : Nat} {w : List Word} : Keeps s₀ (s.scaleBind n aux w) := hk.bindSide

theorem Moves.xferScaleBind {s : State} (hk : Keeps s₀ s) (dst : BitVec 8) {n : Fin 16} {src : BitVec 8} {aux : BitVec 18} :
    Moves s₀ (execXferScaleBind n dst src aux s) :=
  .next (.either hk hk.scaleBind)

theorem Keeps.issueXfer {s : State} (hk : Keeps s₀ s) {n : Nat} {old : CoreCtx} {w : Nat} : Keeps s₀ (s.issueXfer n old w) := by
  unfold State.issueXfer
  split
  · exact hk
  · exact hk.scaleBind
  · exact hk.pushOp

theorem Keeps.countStep {s : State} (hk : Keeps s₀ s) {n q : Nat} : Keeps s₀ (s.countStep n q) := hk.updHead.wrapAdd'

theorem Keeps.issueSlots {s : State} (hk : Keeps s₀ s) {t : State} {n b : Nat} (e : s.issueSlots n b = some t) : Keeps s₀ t := by
  unfold State.issueSlots at e
  dsimp only at e
  split at e
  · cases e
  · rename_i e1
    cases e
    have ht := KeepsWhen.s0Slot hk.issueMat.issueMat.issueVec.issueXfer _ e1
    exact .either ht.s1Slot.setCore (.either ht.s1Slot.setCore ht.s1Slot)

theorem Keeps.imemEcc {s : State} (hk : Keeps s₀ s) {n : Nat} : Keeps s₀ (s.imemEcc n) := hk.coreErr.satAdd'

theorem Moves.bundleIssue {s : State} (hk : Keeps s₀ s) {n : Fin 16} {ecc : Bool} : Moves s₀ (execBundleIssue n ecc s) := by
  unfold execBundleIssue
  refine .next ?_
  split
  · exact hk
  · refine .either hk ?_
    extract_lets +onlyGivenNames s0 k b
    have hs0 : Keeps s₀ s0 := .either hk.imemEcc hk
    refine .either hs0.countStep (.either (.either hs0 hs0.countStep) ?_)
    cases e : (s0.countStep n.val _).issueSlots n.val b with
    | none => exact hs0
    | some t => exact hs0.countStep.issueSlots e

theorem Moves.programEnd {s : State} (hk : Keeps s₀ s) {n : Fin 16} : Moves s₀ (execProgramEnd n s) :=
  .next (.either hk.endOnCore hk)

theorem Keeps.yieldClear {s : State} (hk : Keeps s₀ s) {n : Nat} : Keeps s₀ (s.yieldClear n) := hk.setCore

theorem Moves.yieldPoint {s : State} (hk : Keeps s₀ s) {n : Fin 16} : Moves s₀ (execYieldPoint n s) := by
  unfold execYieldPoint
  refine .next ?_
  extract_lets +onlyGivenNames -merge k
  split
  · exact hk
  · exact .either
        hk
        (.either hk.yieldClear.endOnCore (.either hk.yieldClear.rest.cmdFlags.setFld'.setCore (.either hk.yieldClear.suspend hk.yieldClear.setCore)))

theorem Moves.yieldRemoteTimeout {s : State} (hk : Keeps s₀ s) {n : Fin 16} : Moves s₀ (execYieldRemoteTimeout n s) :=
  .next (.either hk.rest.setCore hk)

/-! ### Units -/
theorem Keeps.onUnit {s : State} (hk : Keeps s₀ s) {q unit : Nat} {f : Cmd → Nat → State} (hf : ∀ c i, Keeps s₀ (f c i)) :
    Keeps s₀ (s.onUnit q unit f) := by
  unfold State.onUnit
  split
  · exact hk
  · exact .either (hf _ _) hk

theorem Keeps.endUnit {s : State} (hk : Keeps s₀ s) {q : Nat} {st : BitVec 8} : Keeps s₀ (s.endUnit q st) := hk.endCmd.setBusy

theorem Keeps.rejectUnit {s : State} (hk : Keeps s₀ s) {q : Nat} : Keeps s₀ (s.rejectUnit q) := hk.updHead.setBusy

theorem Keeps.cmdFmt {s : State} (hk : Keeps s₀ s) {q : Nat} {fl : FmtFlags} : Keeps s₀ (s.cmdFmt q fl) := hk.cmdFlags

theorem Keeps.freeSteps {s : State} (hk : Keeps s₀ s) {off : Nat} {f : Fld} : Keeps s₀ (s.freeSteps off f) := hk.draw.wrapAdd'

theorem Keeps.unitRead {s : State} (hk : Keeps s₀ s) {g : Agent} {a n : Nat} : Keeps s₀ (s.unitRead g a n).2 := hk.noteRead

/-! ### Control -/
theorem Keeps.slotFlags {s : State} (hk : Keeps s₀ s) {i fl : Nat} : Keeps s₀ (s.slotFlags i fl) := hk.setFld'.setFld'

theorem Keeps.slotFlagsOr {s : State} (hk : Keeps s₀ s) {i fl : Nat} : Keeps s₀ (s.slotFlagsOr i fl) := hk.slotFlags

theorem Keeps.setSport {s : State} (hk : Keeps s₀ s) {p : Nat} {x : SPort} : Keeps s₀ (s.setSport p x) := hk.rest

theorem Keeps.missedStart {s : State} (hk : Keeps s₀ s) {g : Nat} : Keeps s₀ (s.missedStart g) :=
  hk.satAdd'.withCause' (fun hk => hk.setFld')

theorem Keeps.sportStart {s : State} (hk : Keeps s₀ s) {g p : Nat} {stamp : Word} : Keeps s₀ (s.sportStart g p stamp) :=
  .either hk.missedStart hk.setSport

theorem Keeps.groupFire {s : State} (hk : Keeps s₀ s) {g : Nat} {stamp : Word} : Keeps s₀ (s.groupFire g stamp) :=
  .either hk (.either hk.missedStart (hk.setGrp.foldl' (fun _ _ hk => hk.sportStart)))

theorem Keeps.slotSnap {s : State} (hk : Keeps s₀ s) {i : Nat} : Keeps s₀ (s.slotSnap i) := by
  unfold State.slotSnap
  extract_lets +onlyGivenNames -merge x s1 s2 s3 x1
  have hs1 : Keeps s₀ s1 := by
    unfold s1
    split
    · exact hk.setFld'
    · exact hk
  have hs2 : Keeps s₀ s2 := by
    unfold s2
    split
    · exact hs1.setFld'
    · exact hs1
  exact .setSlot (.either hs2.setFld' hs2)

theorem Moves.ctlSnapshot {s : State} (hk : Keeps s₀ s) {g : Fin 8} : Moves s₀ (execCtlSnapshot g s) :=
  .next (.either (hk.setGrp.foldl' (fun _ _ hk => hk.slotSnap)) hk)

theorem Keeps.slotLaw {s : State} (hk : Keeps s₀ s) {g i : Nat} : Keeps s₀ (s.slotLaw g i) := by
  unfold State.slotLaw
  extract_lets +onlyGivenNames -merge x a b e c k acc yr y bound code fl s1 s2
  have hs2 : Keeps s₀ s2 := hk.setSlot.slotFlags
  exact .either hs2.setGrp hs2

theorem Keeps.slotMemErr {s : State} (hk : Keeps s₀ s) {i : Fin 512} : Keeps s₀ (s.slotMemErr i) :=
  .either hk.slotFlags (.assertLine (.event' (hk.slotFlags.setSlot.withCause' (fun hk => hk.setFld'))))

theorem Keeps.loser {s : State} (hk : Keeps s₀ s) {q0 i : Nat} {v : Int} : Keeps s₀ (s.loser q0 i v) :=
  .either hk.slotFlagsOr.setSlot.slotFlagsOr hk.slotFlagsOr

theorem Keeps.selResolve {s : State} (hk : Keeps s₀ s) {g m : Nat} : Keeps s₀ (s.selResolve g m) := by
  unfold State.selResolve
  extract_lets +onlyGivenNames -merge z q0 vals
  split
  · exact hk
  · extract_lets +onlyGivenNames -merge code s1 s2 s3 s4
    have hs4 : Keeps s₀ s4 := .foldl' (.setFld' (.either hk.setSel.wrapAdd' hk.setSel)) (fun _ _ hk => hk.loser)
    exact .either hs4.setGrp.slotFlagsOr hs4

theorem Keeps.evalSlot {s : State} (hk : Keeps s₀ s) {g : Nat} {bad : List (Fin 512)} {i : Nat} : Keeps s₀ (s.evalSlot g bad i) := by
  unfold State.evalSlot
  extract_lets +onlyGivenNames -merge s1
  have hs1 : Keeps s₀ s1 := by
    unfold s1
    split
    · exact hk.slotMemErr
    · exact .either hk.slotFlags hk.slotLaw
  exact hs1.foldl' (fun _ _ hk => .either hk.selResolve hk)

theorem Moves.ctlEvaluate {s : State} (hk : Keeps s₀ s) {g : Fin 8} {bad : List (Fin 512)} : Moves s₀ (execCtlEvaluate g bad s) :=
  .next (.either (.setGrp (hk.setGrp.foldl' (fun _ _ hk => hk.evalSlot))) hk)

theorem Keeps.setTrace {s : State} (hk : Keeps s₀ s) {t : Nat} {x : Trace} : Keeps s₀ (s.setTrace t x) := hk.rest

theorem Keeps.traceSample {s : State} (hk : Keeps s₀ s) {g t : Nat} : Keeps s₀ (s.traceSample g t) := by
  unfold State.traceSample
  refine .either hk ?_
  extract_lets +onlyGivenNames -merge x
  refine .either hk.setTrace ?_
  extract_lets +onlyGivenNames -merge vals pre before fires buf ch fl s1 s2 s3
  have hs2 : Keeps s₀ s2 := hk.setTrace.setFld'
  have hs3 : Keeps s₀ s3 := .either hs2.setFld'.setReg' hs2
  exact .either hs3.setFld' hs3

theorem Keeps.cfgReject {s : State} (hk : Keeps s₀ s) : Keeps s₀ s.cfgReject := hk.setFld'

theorem Keeps.traceArm {s : State} (hk : Keeps s₀ s) {t : Nat} : Keeps s₀ (s.traceArm t) := hk.setTrace.setFld'.setFld'

theorem Keeps.traceForce {s : State} (hk : Keeps s₀ s) {t : Nat} : Keeps s₀ (s.traceForce t) :=
  .either hk.setTrace hk

theorem Moves.ctlTraceArm {s : State} (hk : Keeps s₀ s) {t : Fin 4} {r : Req} : Moves s₀ (execCtlTraceArm t r s) :=
  .next (.either hk (.either hk.cfgReject hk.traceArm))

theorem Moves.ctlTraceForce {s : State} (hk : Keeps s₀ s) {t : Fin 4} {r : Req} : Moves s₀ (execCtlTraceForce t r s) :=
  .next (.either hk (.either hk.traceForce hk.cfgReject))

theorem Keeps.writeTrace {s : State} (hk : Keeps s₀ s) {r : Req} {off : Nat} {h : Half} {v : Word} : Keeps s₀ (s.writeTrace r off h v) := by
  unfold State.writeTrace
  refine .either hk (.either (.either hk.cfgReject hk.writeFields') ?_)
  extract_lets +onlyGivenNames -merge t forceOnly s1
  refine .either hk.cfgReject (.either (.either hk.traceForce hk.cfgReject) (.either hk.cfgReject ?_))
  extract_lets +onlyGivenNames -merge s2
  have hs2 : Keeps s₀ s2 := .either hk.writeFields'.traceArm hk.writeFields'
  exact .either hs2.traceForce hs2

theorem Moves.traceConfigWrite {s : State} (hk : Keeps s₀ s) {r : Req} {off : BitVec 26} {h : Half} {v : Word} : Moves s₀
    (execTraceConfigWrite r off h v s) :=
  .next (.either hk.writeTrace hk)

theorem Keeps.groupFinish {s : State} (hk : Keeps s₀ s) {g : Nat} : Keeps s₀ (s.groupFinish g) :=
  .either hk.setGrp.actStop hk

theorem Moves.ctlHandoff {s : State} (hk : Keeps s₀ s) {g : Fin 8} : Moves s₀ (execCtlHandoff g s) :=
  .next (.either (.groupFinish (.setGrp (hk.foldl' (fun _ _ hk => hk.traceSample)))) hk)

theorem Keeps.latch {s : State} (hk : Keeps s₀ s) {g : Nat} {x : Sample} : Keeps s₀ (s.latch g x) :=
  .groupFinish
    (.lsGroup
      (.plumbLatch
        (.foldl'
          (.setReg'
            (.wrapAdd'
              (.foldl'
                (.foldl'
                  (.either
                    hk.setGrp.plRefresh
                    hk.setGrp)
                  (fun _ _ hk => hk.setFld'.setFld'))
                (fun _ _ hk => hk.setSel))))
          (fun _ _ hk => hk.latchCode))))

theorem Moves.ctlLatch {s : State} (hk : Keeps s₀ s) {g : Fin 8} : Moves s₀ (execCtlLatch g s) := by
  unfold execCtlLatch
  refine .next ?_
  extract_lets +onlyGivenNames -merge n h
  split
  · exact hk.latch
  · exact .either (.plumbLatch (hk.setGrp.satAdd'.withCause' (fun hk => hk.setFld'))) hk

theorem Keeps.groupDisable {s : State} (hk : Keeps s₀ s) {g : Nat} {r : Req} {abandon : Bool} : Keeps s₀ (s.groupDisable g r abandon) := by
  unfold State.groupDisable
  refine hk.guardW (fun hk => ?_)
  extract_lets +onlyGivenNames -merge x s1 s2
  have hs1 : Keeps s₀ s1 := hk.setFld'.setBit'
  exact .actStop (.either hs1.setGrp hs1.setGrp)

theorem Keeps.groupEnable {s : State} (hk : Keeps s₀ s) {g : Nat} {r : Req} : Keeps s₀ (s.groupEnable g r) :=
  hk.guardW (fun hk => hk.setFld'.setGrp)

theorem Keeps.writeSlotIn {s : State} (hk : Keeps s₀ s) {i : Nat} {r : Req} {h : Half} {v : Word} : Keeps s₀ (s.writeSlotIn i r h v) :=
  hk.guardW (fun hk => hk.setSlot)

theorem Keeps.ctlEnd {s : State} (hk : Keeps s₀ s) {q : Nat} {rejected : Bool} {st : BitVec 8} : Keeps s₀ (s.ctlEnd q rejected st) :=
  .setFld' (.setFld' (.either hk.rejectUnit hk.endUnit))

theorem Keeps.ctlEntries {s : State} (hk : Keeps s₀ s) {q op size fmt : Nat} {c : Cmd} {bad : List Byte → Bool} {apply : State → List Byte → State}
    (hf : ∀ t l, Keeps s₀ t → Keeps s₀ (apply t l)) : Keeps s₀ (s.ctlEntries q c op size fmt bad apply) :=
  .either hk (.either hk.ctlEnd (.either hk (.either hk.unitRead.ctlEnd (.either hk.unitRead.ctlEnd (.ctlEnd (hk.unitRead.cmdFlags.foldl' hf))))))

theorem Moves.ctlWriteInputs {s : State} (hk : Keeps s₀ s) {q : BitVec 16} : Moves s₀ (execCtlWriteInputs q s) :=
  .next (hk.onUnit (fun _ _ => hk.ctlEntries (fun _ _ hk => hk.setSlot)))

theorem Moves.ctlSetCoef {s : State} (hk : Keeps s₀ s) {q : BitVec 16} : Moves s₀ (execCtlSetCoef q s) :=
  .next (hk.onUnit (fun _ _ => hk.ctlEntries (fun _ _ hk => hk.setSlot)))

theorem Moves.ctlResetState {s : State} (hk : Keeps s₀ s) {q : BitVec 16} : Moves s₀ (execCtlResetState q s) :=
  .next (hk.onUnit (fun _ _ => hk.ctlEntries (fun _ _ hk => hk.setSlot)))

theorem Moves.ctlTraceRead {s : State} (hk : Keeps s₀ s) {q : BitVec 16} : Moves s₀ (execCtlTraceRead q s) :=
  .next (hk.onUnit (fun _ _ => .either hk (.either hk.ctlEnd (.either hk hk.writeMem.cmdFlags.ctlEnd))))

/-! ### Sensor -/
theorem Keeps.spRaw {s : State} (hk : Keeps s₀ s) {p raw : Nat} {stamp : Word} : Keeps s₀ (s.spRaw p raw stamp) := hk.setReg'.setReg'

theorem Keeps.spFault {s : State} (hk : Keeps s₀ s) {p code raw : Nat} {frame : Bool} {stamp : Word} : Keeps s₀
    (s.spFault p code raw frame stamp) := by
  unfold State.spFault
  extract_lets +onlyGivenNames -merge s1 s2 s3
  have hs2 : Keeps s₀ s2 := hk.setSport.setFld'.satAdd'
  exact .record (.plumbSensor (.either hs2.spRaw hs2))

theorem Keeps.spGood {s : State} (hk : Keeps s₀ s) {p raw : Nat} {stamp : Word} : Keeps s₀ (s.spGood p raw stamp) :=
  hk.setSport.spRaw.setReg'.setReg'.plumbSensor.record

theorem Keeps.spFrame {s : State} (hk : Keeps s₀ s) {p raw delay : Nat} {stamp : Word} : Keeps s₀ (s.spFrame p raw delay stamp) := by
  unfold State.spFrame
  extract_lets +onlyGivenNames -merge r s1
  have hs1 : Keeps s₀ s1 := .either hk.setFld' hk
  split
  · exact .spGood (.either hs1.setFld' hs1)
  · exact hs1.spFault
  · exact hs1.spFault

theorem Keeps.spReplay {s : State} (hk : Keeps s₀ s) {p : Nat} {stamp : Word} : Keeps s₀ (s.spReplay p stamp) := by
  unfold State.spReplay
  split
  · exact .either hk.rest.spGood hk.rest.spFault
  · exact hk.satAdd'.spFault

theorem Keeps.spTake {s : State} (hk : Keeps s₀ s) {p : Nat} {f : Word → State → State} (hf : ∀ w, Keeps s₀ (f w s)) : Keeps s₀ (s.spTake p f) := by
  unfold State.spTake
  split
  · exact hk
  · exact .either hk.satAdd'.spReplay (hf _)

theorem Moves.sensorFrameComplete {s : State} (hk : Keeps s₀ s) {p : Fin 24} {res : SensorResult} : Moves s₀ (execSensorFrameComplete p res s) := by
  unfold execSensorFrameComplete
  refine .next (hk.spTake (fun _ => ?_))
  split
  · exact hk.spFrame
  · exact hk.spFault

theorem Moves.sensorNoStartTimeout {s : State} (hk : Keeps s₀ s) {p : Fin 24} : Moves s₀ (execSensorNoStartTimeout p s) :=
  .next (hk.spTake (fun _ => .either hk.spFault hk))

/-! ### Can -/
theorem Keeps.setCan {s : State} (hk : Keeps s₀ s) {k : Nat} {x : CanSt} : Keeps s₀ (s.setCan k x) := hk.rest

theorem Keeps.mbSet {s : State} (hk : Keeps s₀ s) {k m : Nat} {f : Fld} {x : Nat} : Keeps s₀ (s.mbSet k m f x) := hk.setFld'

theorem Keeps.canCounts {s : State} (hk : Keeps s₀ s) {k tec rec' : Nat} : Keeps s₀ (s.canCounts k tec rec') := by
  unfold State.canCounts
  extract_lets +onlyGivenNames -merge s1
  have hs1 : Keeps s₀ s1 := hk.setFld'.setFld'
  refine .either ?_ hs1.setFld'
  extract_lets +onlyGivenNames -merge s2
  have hs2 : Keeps s₀ s2 := hs1.setFld'.satAdd'
  exact .either hs2.setCan hs2

theorem Keeps.mbEnd {s : State} (hk : Keeps s₀ s) {k m : Nat} {fail : Bool} : Keeps s₀ (s.mbEnd k m fail) := by
  unfold State.mbEnd
  extract_lets +onlyGivenNames -merge s1 _ s2
  have hs2 : Keeps s₀ s2 := hk.mbSet.setCan
  exact .either hs2.mbSet hs2

theorem Keeps.canFailAll {s : State} (hk : Keeps s₀ s) {k : Nat} {p : Nat → Bool} : Keeps s₀ (s.canFailAll k p) :=
  hk.foldl' (fun _ _ hk => hk.mbEnd)

theorem Keeps.canFrameEnd {s : State} (hk : Keeps s₀ s) {k : Nat} : Keeps s₀ (s.canFrameEnd k) :=
  .either hk.canFailAll.setFld'.setCan hk

theorem Keeps.mbData {s : State} (hk : Keeps s₀ s) {k m : Nat} {l : List Byte} {k1 : Nat} : Keeps s₀ (s.mbData k m l k1) := by
  induction k1 generalizing s k m l with
  | zero => exact hk
  | succ n ih => exact .setReg' (ih hk)

theorem Keeps.mbStore {s : State} (hk : Keeps s₀ s) {k m : Nat} {f : CanFrame} {sof : BitVec 32} : Keeps s₀ (s.mbStore k m f sof) := by
  unfold State.mbStore
  extract_lets +onlyGivenNames -merge b s1 s2 s3 s4 s5
  have hs4 : Keeps s₀ s4 := hk.setFld'.setFld'.mbSet.mbSet.mbSet.mbSet.mbSet.mbData
  exact .wrapAdd' (.mbSet (.either hs4.mbSet hs4))

theorem Keeps.canFilter {s : State} (hk : Keeps s₀ s) {k : Nat} {f : CanFrame} {sof : BitVec 32} {stamp : Word} : Keeps s₀
    (s.canFilter k f sof stamp) := by
  unfold State.canFilter
  split
  · exact hk.mbStore.record
  · exact hk.satAdd'

theorem Keeps.canRecDown {s : State} (hk : Keeps s₀ s) {k : Nat} : Keeps s₀ (s.canRecDown k) :=
  .either hk (.either hk.canCounts hk.draw.canCounts)

theorem Moves.canFrameReceived {s : State} (hk : Keeps s₀ s) {k : Fin 8} {f : CanFrame} {sof : BitVec 32} : Moves s₀
    (execCanFrameReceived k f sof s) :=
  .next (.either (.canFrameEnd (hk.canRecDown.liveInput (fun hk => hk.canFilter))) hk)

theorem Keeps.txRequest {s : State} (hk : Keeps s₀ s) {k m : Nat} : Keeps s₀ (s.txRequest k m) :=
  .either hk (.either hk.mbSet hk)

theorem Moves.canTxRequest {s : State} (hk : Keeps s₀ s) {k : Fin 8} {m : Fin 64} {r : Req} : Moves s₀ (execCanTxRequest k m r s) :=
  .next (hk.guardW (fun hk => hk.txRequest))

theorem Keeps.txAbort {s : State} (hk : Keeps s₀ s) {k m : Nat} {onBus : Bool} : Keeps s₀ (s.txAbort k m onBus) :=
  .either hk (.either hk.setCan hk.mbEnd)

theorem Moves.canTxAbort {s : State} (hk : Keeps s₀ s) {k : Fin 8} {m : Fin 64} {r : Req} {onBus : Bool} : Moves s₀ (execCanTxAbort k m r onBus s) :=
  .next (hk.guardW (fun hk => hk.txAbort))

theorem Keeps.writeMbCtrl {s : State} (hk : Keeps s₀ s) {k m : Nat} {h : Half} {v : Word} {onBus : Bool} : Keeps s₀
    (s.writeMbCtrl k m h v onBus) := by
  unfold State.writeMbCtrl
  refine .either hk ?_
  extract_lets +onlyGivenNames -merge off req _ s1
  have hs1 : Keeps s₀ s1 := .either hk.setReg' hk.writeFields'
  refine .either hs1 ?_
  extract_lets +onlyGivenNames -merge s2
  have hs2 : Keeps s₀ s2 := .either hs1.txRequest hs1
  exact .either hs2.txAbort hs2

theorem Moves.canTxComplete {s : State} (hk : Keeps s₀ s) {k : Fin 8} {sof : BitVec 32} : Moves s₀ (execCanTxComplete k sof s) := by
  unfold execCanTxComplete
  refine .next ?_
  extract_lets +onlyGivenNames -merge n
  refine .either ?_ hk
  split
  · exact hk
  · exact hk.mbEnd.setFld'.canCounts.emit'.canFrameEnd

theorem Moves.canTxError {s : State} (hk : Keeps s₀ s) {k : Fin 8} {e : CanErr} : Moves s₀ (execCanTxError k e s) := by
  unfold execCanTxError
  refine .next ?_
  extract_lets +onlyGivenNames -merge n
  refine .either ?_ hk
  split
  · exact hk
  · extract_lets +onlyGivenNames -merge s1 s2
    have hs1 : Keeps s₀ s1 := .either hk.mbEnd hk
    have hs2 : Keeps s₀ s2 := by
      unfold s2
      split
      · exact hs1
      · extract_lets +onlyGivenNames -merge t
        have ht : Keeps s₀ t := hs1.setFld'
        exact .either ht ht.canCounts
    exact hs2.canFrameEnd

theorem Moves.canRxError {s : State} (hk : Keeps s₀ s) {k : Fin 8} {e : CanErr} : Moves s₀ (execCanRxError k e s) := by
  unfold execCanRxError
  refine .next ?_
  extract_lets +onlyGivenNames -merge n
  refine .either ?_ hk
  split
  · exact hk
  · exact hk.setFld'.canCounts.canFrameEnd

theorem Keeps.canRecover {s : State} (hk : Keeps s₀ s) {k : Nat} : Keeps s₀ (s.canRecover k) :=
  .either hk.setCan hk

theorem Moves.canRecover {s : State} (hk : Keeps s₀ s) {k : Fin 8} {r : Req} : Moves s₀ (execCanRecover k r s) :=
  .next (hk.guardW (fun hk => hk.canRecover))

theorem Moves.canRecoveryDone {s : State} (hk : Keeps s₀ s) {k : Fin 8} : Moves s₀ (execCanRecoveryDone k s) :=
  .next (.either hk.setCan.canCounts hk)

theorem Keeps.canDisable {s : State} (hk : Keeps s₀ s) {k : Nat} {abandon busy : Bool} : Keeps s₀ (s.canDisable k abandon busy) := by
  unfold State.canDisable
  extract_lets +onlyGivenNames -merge s1
  have hs1 : Keeps s₀ s1 := hk.setFld'.setBit'
  exact .either (.setCan (.either hs1.canFailAll hs1)) (.setCan (.setFld' (.either hs1.canFailAll hs1)))

theorem Moves.canDisable {s : State} (hk : Keeps s₀ s) {k : Fin 8} {r : Req} {abandon busy : Bool} : Moves s₀ (execCanDisable k r abandon busy s) :=
  .next (hk.guardW (fun hk => .either hk.canDisable hk))

theorem Keeps.canIntegrate {s : State} (hk : Keeps s₀ s) {k : Nat} : Keeps s₀ (s.canIntegrate k) := hk.setFld'.setCan

theorem Keeps.canEnable {s : State} (hk : Keeps s₀ s) {k : Nat} : Keeps s₀ (s.canEnable k) :=
  .either hk.setFld'.canIntegrate hk

theorem Moves.canEnable {s : State} (hk : Keeps s₀ s) {k : Fin 8} {r : Req} : Moves s₀ (execCanEnable k r s) :=
  .next (hk.guardW (fun hk => .either hk.canEnable hk))

theorem Moves.canBusIntegrationDone {s : State} (hk : Keeps s₀ s) {k : Fin 8} : Moves s₀ (execCanBusIntegrationDone k s) :=
  .next (.either hk.setCan.setFld' hk)

/-! ### Image -/
theorem Keeps.setImgSrc {s : State} (hk : Keeps s₀ s) {k : Nat} {x : ImgSrc} : Keeps s₀ (s.setImgSrc k x) := hk.rest

theorem Keeps.setCamPort {s : State} (hk : Keeps s₀ s) {p : Nat} {x : CamPort} : Keeps s₀ (s.setCamPort p x) := hk.rest

theorem Keeps.setDec {s : State} (hk : Keeps s₀ s) {d : Nat} {x : Option DecRun} : Keeps s₀ (s.setDec d x) := by
  unfold State.setDec
  extract_lets +onlyGivenNames -merge _ s1 s2 s3
  have hs2 : Keeps s₀ s2 := hk.rest.setBit'
  have hs3 : Keeps s₀ s3 := by
    unfold s3
    split
    · exact hs2.setFld'
    · exact hs2
  exact hs3.setFld'

theorem Keeps.setDecQueue {s : State} (hk : Keeps s₀ s) {l : List (Nat × Nat)} : Keeps s₀ (s.setDecQueue l) := hk.rest.setFld'

theorem Keeps.setBuf {s : State} (hk : Keeps s₀ s) {k i st : Nat} : Keeps s₀ (s.setBuf k i st) := hk.setImgSrc.setFld'.setFld'

theorem Keeps.imgAbort {s : State} (hk : Keeps s₀ s) {k : Nat} {buf : Option Nat} {seq : Nat} {stamp : Word} {st : BitVec 8} {flags : Nat} :
    Keeps s₀ (s.imgAbort k buf seq stamp st flags) := by
  unfold State.imgAbort
  extract_lets +onlyGivenNames -merge s1 s2 x
  have hs1 : Keeps s₀ s1 := by
    unfold s1
    split
    · exact hk.setBuf
    · exact hk
  exact .setImgSrc (.either hs1.satAdd' (.either hs1.satAdd'.satAdd' hs1))

theorem Keeps.imgEnd {s : State} (hk : Keeps s₀ s) {k buf seq : Nat} {stamp : Word} {flags w h : Nat} {px : Nat → Nat → List Val × List Nat} :
    Keeps s₀ (s.imgEnd k buf seq stamp flags w h px) :=
  .either hk.imgAbort (.setImgSrc (.either hk.writeMem.satAdd' hk.writeMem))

theorem Moves.sampleRecordWrite {s : State} (hk : Keeps s₀ s) {src : Fin 128} : Moves s₀ (execSampleRecordWrite src s) := by
  unfold execSampleRecordWrite
  refine .next ?_
  extract_lets +onlyGivenNames -merge k x
  split
  · exact hk
  · extract_lets +onlyGivenNames -merge s1 i s2 s3
    have hs3 : Keeps s₀ s3 := hk.setImgSrc.writeMem.wrapAdd'
    split
    · exact hs3.setBuf
    · exact hs3

theorem Keeps.writeRelease {s : State} (hk : Keeps s₀ s) {k : Nat} {r : Req} {h : Half} {v : Word} : Keeps s₀ (s.writeRelease k r h v) :=
  hk.guardW (fun hk => .either hk.setBuf hk)

theorem Keeps.setCam {s : State} (hk : Keeps s₀ s) {k : Nat} {f : Option CamFrame} : Keeps s₀ (s.setCam k f) := hk.setImgSrc

theorem Keeps.camClose {s : State} (hk : Keeps s₀ s) {k : Nat} {truncated ecc : Bool} : Keeps s₀ (s.camClose k truncated ecc) := by
  unfold State.camClose
  split
  · exact hk
  · exact .either hk.setCam.imgAbort hk.setCam.imgEnd

theorem Keeps.camAbort {s : State} (hk : Keeps s₀ s) {k : Nat} : Keeps s₀ (s.camAbort k) := by
  unfold State.camAbort
  split
  · exact hk
  · exact hk.setCam.imgAbort

theorem Keeps.camStart {s : State} (hk : Keeps s₀ s) {k : Nat} {stamp : Word} : Keeps s₀ (s.camStart k stamp) := by
  unfold State.camStart
  extract_lets +onlyGivenNames -merge x s1
  have hs1 : Keeps s₀ s1 := hk.setImgSrc.setFld'
  refine .either hs1.satAdd' ?_
  split
  · exact hs1.satAdd'
  · exact hs1.setBuf.setCam

theorem Keeps.camFrameStart {s : State} (hk : Keeps s₀ s) {p vc : Nat} {stamp : Word} : Keeps s₀ (s.camFrameStart p vc stamp) := by
  unfold State.camFrameStart
  extract_lets +onlyGivenNames -merge k
  refine .either hk ?_
  extract_lets +onlyGivenNames -merge s1
  refine .either hk.camClose.satAdd' (.either ?_ hk.camClose.camStart)
  split
  · exact .either hk.camClose.setCamPort.camStart hk.camClose.satAdd'
  · exact hk.camClose.satAdd'

theorem Keeps.camArm {s : State} (hk : Keeps s₀ s) {p : Nat} {stamp : Word} : Keeps s₀ (s.camArm p stamp) :=
  .setCamPort (.either hk.satAdd' hk)

theorem Keeps.camLine {s : State} (hk : Keeps s₀ s) {p vc dt : Nat} {hdr : HdrEcc} {crcOk overrun : Bool} {payload : List Byte} :
    Keeps s₀ (s.camLine p vc dt hdr crcOk overrun payload) := by
  unfold State.camLine
  extract_lets +onlyGivenNames -merge k
  refine .either hk ?_
  extract_lets +onlyGivenNames -merge s1 lost
  have hs1 : Keeps s₀ s1 := by
    unfold s1
    split
    · exact hk
    · exact hk.satAdd'
    · exact hk.satAdd'
  refine .either hs1 (.either hs1.satAdd' ?_)
  extract_lets +onlyGivenNames -merge s2
  have hs2 : Keeps s₀ s2 := .either hs1.satAdd' hs1
  split
  · exact hs2
  · exact .either hs2.setCam hs2.setCam

theorem Keeps.camFrameEnd {s : State} (hk : Keeps s₀ s) {p vc : Nat} {ecc : Bool} : Keeps s₀ (s.camFrameEnd p vc ecc) := by
  unfold State.camFrameEnd
  split
  · exact .either hk.camAbort hk.camClose
  · exact hk.camClose

theorem Moves.csi2FrameStart {s : State} (hk : Keeps s₀ s) {p : Fin 16} {vc : Fin 4} : Moves s₀ (execCsi2FrameStart p vc s) :=
  .next (hk.liveInput (fun hk => hk.record.camFrameStart))

theorem Moves.csi2LinePacket {s : State} (hk : Keeps s₀ s) {p : Fin 16} {vc : Fin 4} {dt : BitVec 6} {hdr : HdrEcc} {crcOk overrun : Bool}
    {payload : List Byte} :
    Moves s₀ (execCsi2LinePacket p vc dt hdr crcOk overrun payload s) :=
  .next (hk.liveInput (fun hk => hk.record.camLine))

theorem Moves.csi2FrameEnd {s : State} (hk : Keeps s₀ s) {p : Fin 16} {vc : Fin 4} {ecc : Bool} : Moves s₀ (execCsi2FrameEnd p vc ecc s) :=
  .next (hk.liveInput (fun hk => hk.record.camFrameEnd))

theorem Moves.csi2FrameEndTimeout {s : State} (hk : Keeps s₀ s) {p : Fin 16} {vc : Fin 4} : Moves s₀ (execCsi2FrameEndTimeout p vc s) := by
  unfold execCsi2FrameEndTimeout
  refine .next ?_
  split
  · exact hk
  · exact .either hk.camClose hk

theorem Keeps.camDisable {s : State} (hk : Keeps s₀ s) {p : Nat} {abandon : Bool} : Keeps s₀ (s.camDisable p abandon) := by
  unfold State.camDisable
  extract_lets +onlyGivenNames -merge s1 _ s2
  have hs2 : Keeps s₀ s2 := hk.setFld'.setBit'.setCamPort
  exact .either (hs2.foldl' (fun _ _ hk => hk.camAbort)) hs2

theorem Moves.imgPortDisable {s : State} (hk : Keeps s₀ s) {p : Fin 16} {r : Req} {abandon : Bool} : Moves s₀ (execImgPortDisable p r abandon s) :=
  .next (hk.guardW (fun hk => hk.camDisable))

theorem Keeps.camEnable {s : State} (hk : Keeps s₀ s) {p : Nat} : Keeps s₀ (s.camEnable p) := hk.setFld'.setCamPort

theorem Moves.imgPortEnable {s : State} (hk : Keeps s₀ s) {p : Fin 16} {r : Req} : Moves s₀ (execImgPortEnable p r s) :=
  .next (hk.guardW (fun hk => hk.camEnable))

theorem Moves.portDisableDrainTimeout {s : State} (hk : Keeps s₀ s) {p : Fin 16} : Moves s₀ (execPortDisableDrainTimeout p s) := by
  unfold execPortDisableDrainTimeout
  refine .next ?_
  split
  · exact .either (hk.foldl' (fun _ _ hk => hk.camAbort)) hk
  · exact hk

theorem Keeps.setSlotR {s : State} (hk : Keeps s₀ s) {k i : Nat} {r : Option Reasm} : Keeps s₀ (s.setSlotR k i r) := hk.setImgSrc

theorem Keeps.closeSeq {s : State} (hk : Keeps s₀ s) {k seq : Nat} : Keeps s₀ (s.closeSeq k seq) := hk.setImgSrc

theorem Keeps.dropReasm {s : State} (hk : Keeps s₀ s) {k i : Nat} {r : Reasm} : Keeps s₀ (s.dropReasm k i r) :=
  hk.setSlotR.closeSeq.imgAbort

theorem Keeps.putFrag {s : State} (hk : Keeps s₀ s) {a : Nat} {r : Reasm} {o : Nat} {l : List Byte} : Keeps s₀ (s.putFrag a r o l).1 := by
  induction l generalizing s a r o with
  | nil => exact hk
  | cons b r_1 ih =>
    unfold State.putFrag
    split
    · exact ih hk
    · exact ih hk.putByte

theorem Keeps.takeFrag {s : State} (hk : Keeps s₀ s) {e k i : Nat} {r : Reasm} {o : Nat} {l : List Byte} : Keeps s₀ (s.takeFrag e k i r o l) := by
  unfold State.takeFrag
  extract_lets +onlyGivenNames -merge dup x s0 s1 full s2
  have hs0 : Keeps s₀ s0 := hk.putFrag.unpoison
  have hs2 : Keeps s₀ s2 := .setSlotR (.either hs0.satAdd' hs0)
  exact .either hs2.setDecQueue hs2

theorem Keeps.slotFor {s : State} (hk : Keeps s₀ s) {k : Nat} {x : Nat × State} (e : s.slotFor k = some x) : Keeps s₀ x.2 := by
  unfold State.slotFor at e
  dsimp only at e
  split at e
  · cases e; exact hk
  · cases e; exact hk
  · split_ifs at e <;> cases e <;> exact hk.dropReasm

theorem Keeps.carrierFrag {s : State} (hk : Keeps s₀ s) {e k seq total o : Nat} {stampV : Option Word} {rx : Word} {l : List Byte} :
    Keeps s₀ (s.carrierFrag e k seq total o stampV rx l) := by
  unfold State.carrierFrag
  refine .either hk.satAdd' ?_
  split
  · split
    · exact hk.takeFrag
    · exact hk
  · refine .either hk.closeSeq.satAdd' (.either hk.closeSeq.imgAbort ?_)
    split
    · exact hk.satAdd'
    · rename_i e1
      exact (hk.slotFor e1).takeFrag

theorem Keeps.carrier {s : State} (hk : Keeps s₀ s) {e : Nat} {rx : Word} {p : IpPkt} : Keeps s₀ (s.carrier e rx p) :=
  .either hk.satAdd' (.either hk.satAdd' hk.carrierFrag)

theorem Moves.carrierDatagram {s : State} (hk : Keeps s₀ s) {e : Fin 4} {stamp : Word} {bytes : List Byte} : Moves s₀
    (execCarrierDatagram e stamp bytes s) := by
  unfold execCarrierDatagram
  refine .next ?_
  split
  · exact hk
  · exact hk.liveInput (fun hk => hk.record.carrier)

theorem Moves.reassemblyTimeout {s : State} (hk : Keeps s₀ s) {src : Fin 128} {slot : Fin 2} : Moves s₀ (execReassemblyTimeout src slot s) := by
  unfold execReassemblyTimeout
  refine .next ?_
  split
  · exact .either hk.dropReasm hk
  · exact hk

theorem Keeps.endSlot {s : State} (hk : Keeps s₀ s) {k i seq : Nat} : Keeps s₀ (s.endSlot k i seq) := hk.setSlotR.closeSeq

theorem Moves.decoderStart {s : State} (hk : Keeps s₀ s) {d : Fin 8} : Moves s₀ (execDecoderStart d s) := by
  unfold execDecoderStart
  refine .next (.either hk ?_)
  split
  · exact hk
  · extract_lets +onlyGivenNames -merge s1
    split
    · exact hk.setDecQueue
    · extract_lets +onlyGivenNames -merge bs j
      refine .either hk.setDecQueue.endSlot.imgAbort ?_
      split
      · exact hk.setDecQueue.endSlot.imgAbort
      · extract_lets +onlyGivenNames -merge s2
        have hs2 : Keeps s₀ s2 := hk.setDecQueue.setFld'
        split
        · exact hs2.endSlot.satAdd'
        · exact hs2.setBuf.setDec.setFld'

theorem Keeps.endDecode {s : State} (hk : Keeps s₀ s) {d : Nat} {x : DecRun} {seq steps : Nat} : Keeps s₀ (s.endDecode d x seq steps) :=
  hk.setDec.setFld'.endSlot

theorem Moves.decodeComplete {s : State} (hk : Keeps s₀ s) {d : Fin 8} {ecc : Bool} : Moves s₀ (execDecodeComplete d ecc s) := by
  unfold execDecodeComplete
  refine .next ?_
  split
  · exact hk
  · split
    · exact hk
    · exact .either hk.endDecode.imgAbort (.either hk hk.endDecode.imgEnd)

theorem Moves.decodeBudgetExpiry {s : State} (hk : Keeps s₀ s) {d : Fin 8} : Moves s₀ (execDecodeBudgetExpiry d s) := by
  unfold execDecodeBudgetExpiry
  refine .next ?_
  split
  · exact hk
  · split
    · exact hk
    · exact .either hk.endDecode.imgAbort hk

theorem Keeps.imgAbortAll {s : State} (hk : Keeps s₀ s) {k : Nat} : Keeps s₀ (s.imgAbortAll k) := by
  unfold State.imgAbortAll
  extract_lets +onlyGivenNames -merge s1 s2 s3
  have hs1 : Keeps s₀ s1 := hk.camAbort
  have hs2 : Keeps s₀ s2 := by
    unfold s2
    refine hs1.foldl' (fun _ _ hk => ?_)
    split
    · refine .either ?_ hk
      split
      · exact hk.endDecode.imgAbort
      · exact hk
    · exact hk
  have hs3 : Keeps s₀ s3 := hs2.setDecQueue
  refine hs3.foldl' (fun _ _ hk => ?_)
  split
  · exact hk.endSlot.imgAbort
  · exact hk

/-! ### Ether -/
theorem Keeps.primaryGm {s : State} (hk : Keeps s₀ s) {gm : Word} : Keeps s₀ (s.primaryGm gm) := by
  unfold State.primaryGm
  extract_lets +onlyGivenNames -merge _ s1
  split
  · exact .either hk.rest hk.rest.enterHold
  · exact hk.rest

theorem Keeps.ptpTime {s : State} (hk : Keeps s₀ s) {e : Nat} {m : List Byte} : Keeps s₀ (s.ptpTime e m) := by
  unfold State.ptpTime
  extract_lets +onlyGivenNames -merge ty dom gm
  refine .either hk ?_
  extract_lets +onlyGivenNames -merge _ s1
  have hs1 : Keeps s₀ s1 := .either (.either hk.rest (.either hk.primaryGm hk)) hk
  exact .either (.either hs1.rest.setFld' (.either hs1.rest hs1)) hs1

theorem Keeps.ethRing {s : State} (hk : Keeps s₀ s) {e : Nat} {stamp : Word} {l : List Byte} {ptp : Bool} : Keeps s₀ (s.ethRing e stamp l ptp) :=
  .either hk.satAdd' hk.writeMem.wrapAdd'

theorem Keeps.ethTake {s : State} (hk : Keeps s₀ s) {e : Nat} {stamp : Word} {l : List Byte} : Keeps s₀ (s.ethTake e stamp l) := by
  unfold State.ethTake
  split
  · exact hk.emit'
  · split
    · exact hk.emit'
    · split
      · exact hk.carrier
      · split
        · exact .either hk.ptpTime hk.ptpTime.ethRing
        · exact .either hk (.either hk.ethRing hk)

theorem Moves.ethFrameReceived {s : State} (hk : Keeps s₀ s) {e : Fin 4} {fcsOk : Bool} {stamp : Word} {bytes : List Byte} :
    Moves s₀ (execEthFrameReceived e fcsOk stamp bytes s) :=
  .next (.either hk (.either hk.satAdd' (.either hk.satAdd' (hk.liveInput (fun hk => hk.record.ethTake)))))

theorem Moves.ethTxFrame {s : State} (hk : Keeps s₀ s) {q : BitVec 16} : Moves s₀ (execEthTxFrame q s) :=
  .next
    (hk.onUnit
      (fun _ _ => .either
        hk
        (.either
          hk.rejectUnit
          (.either hk.endUnit (.either hk.endUnit (.either hk (.either hk.unitRead.endUnit hk.unitRead.cmdFlags.updHead.rest)))))))

theorem Moves.ethTxDone {s : State} (hk : Keeps s₀ s) {e : Fin 4} {stamp : Word} : Moves s₀ (execEthTxDone e stamp s) := by
  unfold execEthTxDone
  refine .next ?_
  split
  · exact hk
  · extract_lets +onlyGivenNames -merge _ s1
    split
    · exact hk.rest
    · exact hk.rest.emit'.endUnit.updHead

theorem Moves.ethLinkUp {s : State} (hk : Keeps s₀ s) {e : Fin 4} : Moves s₀ (execEthLinkUp e s) :=
  .next (.either hk.setFld' hk)

theorem Moves.ethLinkDown {s : State} (hk : Keeps s₀ s) {e : Fin 4} : Moves s₀ (execEthLinkDown e s) := by
  unfold execEthLinkDown
  refine .next (.either hk ?_)
  extract_lets +onlyGivenNames -merge s1
  have hs1 : Keeps s₀ s1 := hk.setFld'.satAdd'
  refine hs1.foldl' (fun _ _ hk => (.either ?_ hk))
  split
  · exact .either hk.endUnit hk
  · exact hk

/-! ### Power -/
theorem Keeps.pwrGuard {s : State} (hk : Keeps s₀ s) {r : Req} {f : State → State} (hf : Keeps s₀ s → Keeps s₀ (f s)) : Keeps s₀ (s.pwrGuard r f) :=
  .either hk (.either hk.setFld' (hf hk))

theorem Keeps.pwrField {s : State} (hk : Keeps s₀ s) {off : Nat} {f : Fld} {h : Half} {v : Word} {lo hi : Nat} : Keeps s₀
    (s.pwrField off f h v lo hi) :=
  .either (.either hk.setFld'.setFld' hk.setFld') hk

theorem Keeps.writePwrCfg {s : State} (hk : Keeps s₀ s) {r : Req} {h : Half} {v : Word} : Keeps s₀ (s.writePwrCfg r h v) :=
  hk.pwrGuard (fun hk => .either hk.setFld' hk.pwrField.pwrField.pwrField.pwrField)

theorem Keeps.vrSend {s : State} (hk : Keeps s₀ s) : Keeps s₀ s.vrSend := hk.emit'.rest

theorem Keeps.writePwrVdd {s : State} (hk : Keeps s₀ s) {r : Req} {h : Half} {v : Word} : Keeps s₀ (s.writePwrVdd r h v) :=
  hk.pwrGuard (fun hk => .either hk hk.pwrField.setFld'.vrSend)

theorem Keeps.writePwrTherm {s : State} (hk : Keeps s₀ s) {r : Req} {h : Half} {v : Word} : Keeps s₀ (s.writePwrTherm r h v) :=
  hk.pwrGuard (fun hk => hk.pwrField.pwrField.pwrField)

theorem Keeps.writeBmax {s : State} (hk : Keeps s₀ s) {k : Nat} {r : Req} {h : Half} {v : Word} : Keeps s₀ (s.writeBmax k r h v) :=
  hk.pwrGuard (fun hk => hk.pwrField)

theorem Moves.vrTransferRetry {s : State} (hk : Keeps s₀ s) : Moves s₀ (execVrTransferRetry s) := by
  unfold execVrTransferRetry
  refine .next ?_
  split
  · exact hk
  · exact .either hk.rest.setFld' hk.emit'.rest

theorem Keeps.showTemps {s : State} (hk : Keeps s₀ s) {l : List (Int × Bool)} : Keeps s₀ (s.showTemps l) :=
  hk.foldl' (fun _ _ hk => hk.setFld'.setBit'.setBit')

theorem Keeps.applyDemand {s : State} (hk : Keeps s₀ s) {x : ℚ × ℚ × ℚ × ℚ} : Keeps s₀ (s.applyDemand x) := by
  unfold State.applyDemand
  extract_lets +onlyGivenNames -merge d top src bs trip hot s1 s2
  have hs2 : Keeps s₀ s2 := .setBit' (.setFld' (hk.foldl' (fun _ _ hk => hk.setFld')))
  exact .either hs2.setFld' hs2

theorem Keeps.addEnergy {s : State} (hk : Keeps s₀ s) {x : PowerSample} : Keeps s₀ (s.addEnergy x) :=
  .wrapAdd' (.setFld' (.rest (hk.foldl' (fun _ _ hk => .either hk.updHead hk))))

theorem Moves.powerSample {s : State} (hk : Keeps s₀ s) {x : PowerSample} : Moves s₀ (execPowerSample x s) := by
  unfold execPowerSample
  refine .next ?_
  extract_lets +onlyGivenNames -merge temps bad h tj reach trip ring p s0 _ s1 s2 s3 s4 alert hyst s5
  have hs3 : Keeps s₀ s3 := .setFld'
      (.wrapAdd'
        (.setFld'
          (.setFld'
            (.setFld'
              (.setFld'
                (.showTemps
                  (.rest
                    (hk.foldl'
                      (fun _ _ hk => .either hk hk.satAdd')))))))))
  have hs4 : Keeps s₀ s4 := .either hs3 hs3.setFld'
  have hs5 : Keeps s₀ s5 := by
    unfold s5
    refine hs4.withCause' (fun hk => ?_)
    extract_lets +onlyGivenNames -merge t1
    have ht1 : Keeps s₀ t1 := .either hk.setFld' (.either hk.setFld' hk)
    exact .either ht1.setFld' ht1
  exact hs5.applyDemand.addEnergy

/-! ### Kv -/
theorem Keeps.putEnts {s : State} (hk : Keeps s₀ s) {c : KvCtx} {l k : Nat} {l1 : List KvEnt} : Keeps s₀ (s.putEnts c l k l1) := by
  induction l1 generalizing s c l k with
  | nil => exact hk
  | cons v r ih => exact ih hk.wrN'

theorem Keeps.putList {s : State} (hk : Keeps s₀ s) {c : KvCtx} {l : Nat} {k : KvList} : Keeps s₀ (s.putList c l k) :=
  hk.wrN'.wrN'.wrN'.wrN'.putEnts

theorem Keeps.putLists {s : State} (hk : Keeps s₀ s) {c : KvCtx} {k : Nat} {l : List KvList} : Keeps s₀ (s.putLists c k l) := by
  induction l generalizing s c k with
  | nil => exact hk
  | cons k r ih => exact ih hk.putList

theorem Keeps.putDesc {s : State} (hk : Keeps s₀ s) {i : Nat} {d : KvDesc} : Keeps s₀ (s.putDesc i d) := hk.wrN'

theorem Keeps.setIdx {s : State} (hk : Keeps s₀ s) {i v : Nat} : Keeps s₀ (s.setIdx i v) := hk.rest

theorem Keeps.takeBlock {s : State} (hk : Keeps s₀ s) {c a len : Nat} : Keeps s₀ (s.takeBlock c a len) := hk.rest.setFld'

theorem Keeps.freeBlockAt {s : State} (hk : Keeps s₀ s) {c a : Nat} : Keeps s₀ (s.freeBlockAt c a) := hk.rest.setFld'

/-- The page that allocPage takes. allocPage, and below it cow and grow, are unfolded as functions, over any search for a free block: the bounds of the
search are products that the kernel must not evaluate when it compares the two sides of an equation for an application. -/
theorem Keeps.allocPage {s : State} (hk : Keeps s₀ s) {c : KvCtx} {p score : Nat} {pinned : Bool} {x : Nat × State}
    (e : s.allocPage c p score pinned = some x) : Keeps s₀ x.2 := by
  obtain ⟨f, hf⟩ : ∃ f, f = @State.allocPage := ⟨_, rfl⟩
  obtain ⟨search, hs⟩ : ∃ search, search = @State.freeBlock := ⟨_, rfl⟩
  rw [← hf] at e
  delta State.allocPage at hf
  rw [← hs] at hf
  subst hf
  dsimp only at e
  split at e
  · cases e; exact hk.takeBlock.setIdx.putDesc.setFld'
  · cases e

theorem Keeps.unref {s : State} (hk : Keeps s₀ s) {c : KvCtx} {i : Nat} : Keeps s₀ (s.unref c i) :=
  .either hk.putDesc hk.putDesc.freeBlockAt.setIdx.setFld'

theorem Keeps.kvFlag {w : KvWork} (hk : Keeps s₀ w.s) {i : Nat} : Keeps s₀ (w.flag i).s := hk

theorem Keeps.kvSetList {w : KvWork} (hk : Keeps s₀ w.s) {l : Nat} {k : KvList} : Keeps s₀ (w.setList l k).s := hk

/-- Work over a list keeps what each of its steps keeps. -/
theorem Keeps.kvFoldl {α : Type} {w : KvWork} (hk : Keeps s₀ w.s) {f : KvWork → α → KvWork} (hf : ∀ v x, Keeps s₀ v.s → Keeps s₀ (f v x).s)
    {l : List α} : Keeps s₀ (l.foldl f w).s := by
  induction l generalizing w with
  | nil => exact hk
  | cons x r ih => exact ih (hf _ _ hk)

theorem Keeps.kvRelease {w : KvWork} (hk : Keeps s₀ w.s) {c : KvCtx} {e : KvEnt} : Keeps s₀ (w.release c e).s := by
  unfold KvWork.release
  split
  · exact hk
  · exact hk.unref

theorem Keeps.kvReleaseAll {w : KvWork} (hk : Keeps s₀ w.s) {c : KvCtx} {l : List KvEnt} : Keeps s₀ (w.releaseAll c l).s :=
  hk.kvFoldl (fun _ _ hk => hk.kvRelease)

theorem Keeps.kvCutList {w : KvWork} (hk : Keeps s₀ w.s) {c : KvCtx} {l pos len : Nat} : Keeps s₀ (w.cutList c l pos len).s :=
  hk.kvReleaseAll.kvSetList

theorem Keeps.kvEvict {w : KvWork} (hk : Keeps s₀ w.s) {c : KvCtx} {l e : Nat} : Keeps s₀ (w.evict c l e).s := by
  unfold KvWork.evict
  extract_lets +onlyGivenNames -merge k
  split
  · exact hk
  · exact hk.kvRelease.kvSetList.kvFlag.satAdd'.satAdd'

theorem Keeps.kvPlan {w : KvWork} (hk : Keeps s₀ w.s) {c : KvCtx} {body : KvWork → Option KvWork} {v : KvWork} {l : List (Nat × Nat × Nat)}
    (e : kvPlan c body l w = some v) : Keeps s₀ v.s := by
  induction l generalizing w with
  | nil =>
    unfold Machine.kvPlan at e
    split at e
    · cases e; exact hk
    · cases e
  | cons a r ih =>
    unfold Machine.kvPlan at e
    split at e
    · cases e; exact hk
    · exact ih hk.kvEvict e

theorem Keeps.putSlot {s : State} (hk : Keeps s₀ s) {c : KvCtx} {n : Nat} {l : List Nat} {l1 : List Byte} : Keeps s₀ (s.putSlot c n l l1) := by
  induction l generalizing s c n l1 with
  | nil => exact hk
  | cons a r ih => exact ih hk.wrBytes'.unpoison

theorem Keeps.writeSlot {s : State} (hk : Keeps s₀ s) {c : KvCtx} {base p slot : Nat} {l : List Byte} : Keeps s₀ (s.writeSlot c base p slot l) :=
  hk.putSlot

theorem Keeps.copySlots {s : State} (hk : Keeps s₀ s) {c : KvCtx} {from' to' p k : Nat} : Keeps s₀ (s.copySlots c from' to' p k) := by
  induction k generalizing s c from' to' p with
  | zero => exact hk
  | succ n ih => exact .writeSlot (ih hk)

theorem Keeps.kvCow {w : KvWork} (hk : Keeps s₀ w.s) {v : KvWork} {c : KvCtx} {l i written : Nat} (e : w.cow c l i written = some v) :
    Keeps s₀ v.s := by
  have halloc := @Keeps.allocPage s₀ w.s hk
  obtain ⟨f, hf⟩ : ∃ f, f = @KvWork.cow := ⟨_, rfl⟩
  obtain ⟨alloc, ha⟩ : ∃ alloc, alloc = @State.allocPage := ⟨_, rfl⟩
  rw [← hf] at e
  delta KvWork.cow at hf
  rw [← ha] at hf halloc
  subst hf
  dsimp only at e
  split at e
  · cases e; exact hk
  · split at e
    · cases e; exact hk
    · split at e
      · cases e
      · rename_i e1
        cases e
        exact (halloc e1).copySlots.unref.satAdd'

theorem Keeps.kvFill {w : KvWork} (hk : Keeps s₀ w.s) {c : KvCtx} {l pos : Nat} {src : Nat → List Byte} {n : Nat} :
    Keeps s₀ (w.fill c l pos src n).s := by
  induction n with
  | zero => exact hk
  | succ n ih =>
    unfold KvWork.fill
    dsimp only
    split
    · exact ih
    · split
      · exact ih
      · exact ih.writeSlot

/-- A recursion on a number keeps what its base and its step keep. -/
theorem Keeps.brecOn {F : (n : Nat) → Nat.below n → KvWork → Option KvWork} (h0 : ∀ b {w v}, Keeps s₀ w.s → F 0 b w = some v → Keeps s₀ v.s)
    (hs : ∀ n b, (∀ {w v}, Keeps s₀ w.s → b.1 w = some v → Keeps s₀ v.s) → ∀ {w v}, Keeps s₀ w.s → F (n + 1) b w = some v → Keeps s₀ v.s) (n : Nat) :
    ∀ {w v}, Keeps s₀ w.s → Nat.brecOn n F w = some v → Keeps s₀ v.s := by
  induction n with
  | zero => exact h0 _
  | succ n ih => exact hs n _ ih

/-- The pages that grow takes, one below the other; unfolded as a function as well, over any allocator. -/
theorem Keeps.kvGrow {w : KvWork} (hk : Keeps s₀ w.s) {v : KvWork} {c : KvCtx} {l p n : Nat} (e : w.grow c l p n = some v) : Keeps s₀ v.s := by
  have halloc := fun (t : State) (ht : Keeps s₀ t) => @Keeps.allocPage s₀ t ht
  obtain ⟨f, hf⟩ : ∃ f, f = @KvWork.grow := ⟨_, rfl⟩
  obtain ⟨alloc, ha⟩ : ∃ alloc, alloc = @State.allocPage := ⟨_, rfl⟩
  rw [← hf] at e
  delta KvWork.grow KvWork.grow._f at hf
  rw [← ha] at hf halloc
  subst hf
  refine Keeps.brecOn (fun _ _ _ hk e => ?_) (fun n below hrec w v hk e => ?_) n hk e
  · cases e; exact hk
  · dsimp only at e
    split at e
    · cases e
    · rename_i e1
      exact hrec (halloc _ hk e1) e

theorem Keeps.kvAppend {w : KvWork} (hk : Keeps s₀ w.s) {v : KvWork} {c : KvCtx} {l p n : Nat} {spec : Bool} {src : Nat → List Byte}
    (e : w.append c l p n spec src = some v) : Keeps s₀ v.s := by
  unfold KvWork.append at e
  dsimp only at e
  split at e
  · cases e
  · rename_i w1 htouch
    split at e
    · cases e
    · rename_i hgrow
      cases e
      have hw1 : Keeps s₀ w1.s := by
        split at htouch
        · cases htouch; exact hk
        · split at htouch
          · cases htouch; exact hk
          · exact hk.kvCow htouch
      exact (hw1.kvGrow hgrow).kvFill.kvSetList

theorem Keeps.kvBegin {s : State} (hk : Keeps s₀ s) {q : Nat} {c : Cmd} {refetch : Nat} : Keeps s₀ (s.kvBegin q c refetch) := by
  unfold State.kvBegin
  extract_lets +onlyGivenNames -merge s1
  have hs1 : Keeps s₀ s1 := hk.setFld'.setFld'
  exact .either hs1 hs1.setFld'.satAdd'.cmdFlags

theorem Keeps.kvStatus {s : State} (hk : Keeps s₀ s) {q : Nat} : Keeps s₀ (s.kvStatus q) := by
  unfold State.kvStatus
  split
  · exact .either hk.setFld' hk.setFld'.setFld'
  · exact hk

theorem Keeps.endKv {s : State} (hk : Keeps s₀ s) {q : Nat} {st : BitVec 8} : Keeps s₀ (s.endKv q st) := hk.endUnit.kvStatus

theorem Keeps.rejectKv {s : State} (hk : Keeps s₀ s) {q : Nat} {fl : BitVec 24} : Keeps s₀ (s.rejectKv q fl) :=
  hk.cmdFlags.rejectUnit.kvStatus

theorem Keeps.kvStore {w : KvWork} (hk : Keeps s₀ w.s) {c : KvCtx} : Keeps s₀ (w.store c) := by
  unfold KvWork.store
  extract_lets +onlyGivenNames -merge s1 spec s2
  have hs2 : Keeps s₀ s2 := hk.putLists.setFld'.setBit'
  exact .either hs2 hs2.setFld'.rest

theorem Keeps.kvFinish {w : KvWork} (hk : Keeps s₀ w.s) {c : KvCtx} {q : Nat} {st : BitVec 8} : Keeps s₀ (w.finish c q st) :=
  hk.kvStore.cmdFlags.endKv

theorem Keeps.kvLose {w : KvWork} (hk : Keeps s₀ w.s) {c : KvCtx} {i : Nat} : Keeps s₀ (w.lose c i).s :=
  .event' (.setFld' (.satAdd' (.setIdx (.wrN' (hk.setFld'.setFld'.withCause' (fun hk => hk.setFld'))))))

theorem Keeps.kvScan {w : KvWork} (hk : Keeps s₀ w.s) {l : List (Nat × KvEnt)} : Keeps s₀ (w.scan l).1.s := by
  induction l generalizing w with
  | nil => exact hk
  | cons x r ih =>
    unfold KvWork.scan
    split
    · exact ih hk
    · exact hk
    · exact ih hk.kvSetList.kvFlag

/-- A command of the KV manager keeps the state where its effect keeps the state of the work it is handed. -/
theorem Keeps.onKv {s : State} (hk : Keeps s₀ s) {q op refetch : Nat} {bad : Cmd → KvCtx → Bool} {touch : Cmd → KvWork → List (Nat × KvEnt)}
    {f : Cmd → KvCtx → KvWork → State} (hf : ∀ c k w, Keeps s₀ w.s → Keeps s₀ (f c k w)) : Keeps s₀ (s.onKv q op refetch bad touch f) := by
  refine hk.onUnit (fun c i => .either hk (.either hk.kvBegin.rejectKv ?_))
  dsimp only
  split
  · exact hk.kvBegin.kvScan.kvLose.kvFinish
  · exact hf _ _ _ hk.kvBegin.kvScan

theorem Moves.kvOpen {s : State} (hk : Keeps s₀ s) {q : BitVec 16} : Moves s₀ (execKvOpen q s) := by
  unfold execKvOpen
  refine .next (hk.onUnit (fun _ _ => (.either hk ?_)))
  extract_lets +onlyGivenNames -merge n s1 x canton cls layers ll decay dv k
  refine .either hk.kvBegin.rejectKv ?_
  split
  · exact hk.kvBegin.rejectKv
  · exact hk.kvBegin.takeBlock.setReg'.setFld'.setFld'.setFld'.setFld'.setFld'.setFld'.setReg'.setReg'.wrBytes'.endKv

theorem Keeps.kvEmptyLists {w : KvWork} (hk : Keeps s₀ w.s) {c : KvCtx} {k : Nat} : Keeps s₀ (w.emptyLists c k).s := by
  induction k generalizing w c with
  | zero => exact hk
  | succ n ih => exact .kvCutList (ih hk)

theorem Keeps.kvShut {s : State} (hk : Keeps s₀ s) {c : KvCtx} : Keeps s₀ (s.kvShut c) :=
  hk.freeBlockAt.setReg'.setReg'.setReg'.setReg'.rest

theorem Moves.kvClose {s : State} (hk : Keeps s₀ s) {q : BitVec 16} {done refetch : Nat} : Moves s₀ (execKvClose q done refetch s) :=
  .next (hk.onKv (fun _ _ _ hw => .either hw.kvEmptyLists.kvFinish hw.kvEmptyLists.kvShut.cmdFlags.endKv))

theorem Keeps.kvAppendLists {w : KvWork} (hk : Keeps s₀ w.s) {v : KvWork} {c : KvCtx} {lo p tokens n limit : Nat} {spec : Bool}
    {src : Nat → Nat → List Byte} (e : w.appendLists c lo p tokens spec src n limit = some v) : Keeps s₀ v.s := by
  induction n generalizing v with
  | zero => cases e; exact hk
  | succ n ih =>
    unfold KvWork.appendLists at e
    dsimp only at e
    split at e
    · cases e
    · rename_i e1
      split at e
      · cases e; exact ih e1
      · exact (ih e1).kvAppend e

theorem Keeps.kvNoRoom {s : State} (hk : Keeps s₀ s) {q : Nat} : Keeps s₀ (s.kvNoRoom q) := hk.rejectKv

theorem Keeps.kvSetMask {w : KvWork} (hk : Keeps s₀ w.s) {c : KvCtx} {mask : List Nat} {n : Nat} : Keeps s₀ (w.setMask c mask n).s :=
  hk.rest.setFld'

theorem Moves.kvAppend {s : State} (hk : Keeps s₀ s) {q : BitVec 16} {done refetch : Nat} : Moves s₀ (execKvAppend q done refetch s) := by
  unfold execKvAppend
  refine .next (hk.onKv (fun c k w hw => ?_))
  extract_lets +onlyGivenNames n lo cnt tokens p spec g a lists m mask pend badMask
  refine .either hk.rejectKv (.either hk.rejectKv ?_)
  extract_lets +onlyGivenNames x
  have hm : Keeps s₀ m.2 := by
    dsimp only [m]
    split
    · exact hw.unitRead
    · exact hw
  have hx : Keeps s₀ x.2 := hm.unitRead
  refine .either hk (.either hx.endKv ?_)
  extract_lets +onlyGivenNames tb src w0 body all scanned
  have hbody {limit : Nat} {u v : KvWork} (hv : Keeps s₀ v.s) (e : body limit v = some u) : Keeps s₀ u.s := by
    dsimp only [body] at e
    split at e
    · cases e
    · rename_i e1
      split_ifs at e
      cases e
      exact hv.kvAppendLists e1
  have hscanned : Keeps s₀ scanned.1.s := by
    dsimp only [scanned]
    split
    · exact hx
    · exact Keeps.kvScan (w := w0) hx
  split
  · exact hscanned.kvLose.kvFinish
  · split
    · exact hk.kvNoRoom
    · rename_i e1
      split
      · exact hk
      · rename_i u e2
        have hu : Keeps s₀ u.s := hbody (hscanned.kvPlan e1) e2
        extract_lets u1
        have hu1 : Keeps s₀ u1.s := by
          unfold u1
          split
          · exact hu.kvSetMask
          · exact hu
        exact .kvFinish hu1.cmdFlags

theorem Keeps.refAll {s : State} (hk : Keeps s₀ s) {l : List KvEnt} : Keeps s₀ (s.refAll l) := by
  induction l generalizing s with
  | nil => exact hk
  | cons e r ih => exact ih (.either hk hk.putDesc)

theorem Moves.kvFork {s : State} (hk : Keeps s₀ s) {q : BitVec 16} {done refetch : Nat} : Moves s₀ (execKvFork q done refetch s) :=
  .next (hk.onKv (fun _ _ _ hw => .either hk.rejectKv (.either hk.rejectKv (.either hk.kvNoRoom hw.refAll.kvFinish))))

theorem Moves.kvTruncate {s : State} (hk : Keeps s₀ s) {q : BitVec 16} {done refetch : Nat} : Moves s₀ (execKvTruncate q done refetch s) :=
  .next (hk.onKv (fun _ _ _ hw => .kvFinish (hw.kvFoldl (fun _ _ hk => hk.kvCutList))))

theorem Keeps.kvScorePages {w : KvWork} (hk : Keeps s₀ w.s) {decay : Nat} {l : List (KvEnt × Nat)} : Keeps s₀ (w.scorePages decay l).s := by
  induction l generalizing w with
  | nil => exact hk
  | cons x r ih =>
    unfold KvWork.scorePages
    extract_lets d x w1
    have hw1 : Keeps s₀ w1.s := hk.putDesc
    refine ih ?_
    split
    · exact hw1.kvFlag
    · exact hw1

theorem Moves.kvScore {s : State} (hk : Keeps s₀ s) {q : BitVec 16} {done refetch : Nat} : Moves s₀ (execKvScore q done refetch s) := by
  unfold execKvScore
  refine .next (hk.onKv (fun _ _ _ hw => ?_))
  extract_lets +onlyGivenNames -merge g rs s1 ps
  have hs1 : Keeps s₀ s1 := hw.foldl' (fun _ _ hk => hk.noteRead)
  exact .either hk (.either hs1.endKv hs1.cmdFlags.kvScorePages.kvFinish)

theorem Moves.kvPin {s : State} (hk : Keeps s₀ s) {q : BitVec 16} {done refetch : Nat} : Moves s₀ (execKvPin q done refetch s) :=
  .next (hk.onKv (fun _ _ _ hw => .kvFinish (hw.foldl' (fun _ _ hk => hk.putDesc))))

theorem Keeps.evictTo {w : KvWork} (hk : Keeps s₀ w.s) {c : KvCtx} {target : Nat} {l : List (Nat × Nat × Nat)} :
    Keeps s₀ (evictTo c target l w).1.s := by
  induction l generalizing w with
  | nil => exact hk
  | cons a r ih =>
    unfold Machine.evictTo
    split
    · exact hk
    · exact ih hk.kvEvict

theorem Moves.kvEvict {s : State} (hk : Keeps s₀ s) {q : BitVec 16} {done refetch : Nat} : Moves s₀ (execKvEvict q done refetch s) := by
  unfold execKvEvict
  refine .next (hk.onKv (fun _ _ _ hw => ?_))
  extract_lets +onlyGivenNames -merge o r
  have hr : Keeps s₀ r.1.s := hw.evictTo
  refine .kvFinish ?_
  split
  · exact hr.kvFlag
  · exact hr

theorem Keeps.kvMoves {w : KvWork} (hk : Keeps s₀ w.s) {v : KvWork} {c : KvCtx} {l len specN r : Nat} {a : List Nat}
    (e : w.moves c l len specN r a = some v) : Keeps s₀ v.s := by
  induction a generalizing w r with
  | nil => cases e; exact hk
  | cons x rest ih =>
    unfold KvWork.moves at e
    dsimp only at e
    split at e
    · exact ih hk e
    · split at e
      · split at e
        · cases e
        · rename_i e1
          exact ih (hk.kvCow e1).writeSlot e
      · exact ih hk e

theorem Keeps.kvCommitList {w : KvWork} (hk : Keeps s₀ w.s) {v : KvWork} {c : KvCtx} {l : Nat} {acc : List Nat}
    (e : w.commitList c l acc = some v) : Keeps s₀ v.s := by
  unfold KvWork.commitList at e
  dsimp only at e
  split at e
  · cases e
  · rename_i e1
    cases e
    exact (hk.kvMoves e1).kvCutList

theorem Keeps.kvCommitLists {w : KvWork} (hk : Keeps s₀ w.s) {v : KvWork} {c : KvCtx} {acc l : List Nat} (e : w.commitLists c acc l = some v) :
    Keeps s₀ v.s := by
  induction l generalizing w with
  | nil => cases e; exact hk
  | cons l r ih =>
    unfold KvWork.commitLists at e
    split at e
    · cases e
    · rename_i e1
      exact ih (hk.kvCommitList e1) e

theorem Moves.kvVerifyCommit {s : State} (hk : Keeps s₀ s) {q : BitVec 16} {done refetch : Nat} :
    Moves s₀ (execKvVerifyCommit q done refetch s) := by
  unfold execKvVerifyCommit
  refine .next (hk.onKv (fun c k w hw => ?_))
  extract_lets +onlyGivenNames node row acc ls
  split
  · exact hk.kvNoRoom
  · rename_i e1
    split
    · exact hk
    · rename_i u e2
      have hu : Keeps s₀ u.s := (hw.kvPlan e1).kvCommitLists e2
      extract_lets part _ _ u1
      have hu1 : Keeps s₀ u1.s := by
        unfold u1
        split
        · exact hu.rest
        · exact hu
      exact hu1.kvFinish

/-! ### Solver -/
theorem Keeps.solWrite {s : State} (hk : Keeps s₀ s) {q : Nat} {g : Agent} {a : Nat} {l : List Byte} : Keeps s₀ (s.solWrite q g a l) :=
  hk.writeMem.cmdFlags

theorem Keeps.solRead {s : State} (hk : Keeps s₀ s) {q : Nat} {g : Agent} {a n : Nat} : Keeps s₀ (s.solRead q g a n).2 :=
  hk.unitRead.cmdFlags

theorem Keeps.putTrials {s : State} (hk : Keeps s₀ s) {q : Nat} {g : Agent} {a : SolP} {k : Nat} {l : List SolProb} : Keeps s₀
    (s.putTrials q g a k l) := by
  induction l generalizing s q g a k with
  | nil => exact hk
  | cons p r ih => exact ih (.either hk.solWrite hk)

theorem Keeps.postEval {s : State} (hk : Keeps s₀ s) {q : Nat} {a : SolP} : Keeps s₀ (s.postEval q a) := by
  unfold State.postEval
  split
  · exact hk
  · exact hk.acceptCmd.rest.setFld'.satAdd'

theorem Keeps.solPropose {s : State} (hk : Keeps s₀ s) {q : Nat} {g : Agent} {a : SolP} : Keeps s₀ (s.solPropose q g a) :=
  .postEval (.either hk.putTrials hk.putTrials.solWrite)

theorem Keeps.putResults {s : State} (hk : Keeps s₀ s) {q : Nat} {g : Agent} {a : SolP} {k : Nat} {l : List SolProb} : Keeps s₀
    (s.putResults q g a k l) := by
  induction l generalizing s q g a k with
  | nil => exact hk
  | cons p r ih => exact ih (.either hk.solWrite.solWrite.solWrite hk.solWrite.solWrite)

theorem Keeps.solTally {s : State} (hk : Keeps s₀ s) {f : Fld} {t : SolProb → Bool} : Keeps s₀ (s.solTally f t) := hk.satAdd'

theorem Keeps.solResults {s : State} (hk : Keeps s₀ s) {q : Nat} {g : Agent} {a : SolP} : Keeps s₀ (s.solResults q g a) := by
  unfold State.solResults
  extract_lets +onlyGivenNames -merge ps s1 s2 s3 st s4
  have hs2 : Keeps s₀ s2 := hk.putResults.solTally.solTally.solTally.solTally
  exact .setFld' (.rest (.updHead (.cmdFlags (.either hs2.setFld' hs2))))

theorem Keeps.endSol {s : State} (hk : Keeps s₀ s) {q : Nat} {st : BitVec 8} : Keeps s₀ (s.endSol q st) := hk.endUnit.rest.setFld'

theorem Keeps.solSettle {s : State} (hk : Keeps s₀ s) {q : Nat} : Keeps s₀ (s.solSettle q) :=
  .either hk.endSol hk

theorem Keeps.solNext {s : State} (hk : Keeps s₀ s) {q : Nat} {g : Agent} {a : SolP} : Keeps s₀ (s.solNext q g a) := by
  unfold State.solNext
  extract_lets +onlyGivenNames -merge act s1
  have hs1 : Keeps s₀ s1 := hk.setFld'.freeSteps.freeSteps
  exact .either hs1.solResults.solSettle hs1.rest.solPropose

theorem Keeps.solStopAll {s : State} (hk : Keeps s₀ s) {q : Nat} {g : Agent} {a : SolP} {stop : Nat} {st fl : BitVec 8} :
    Keeps s₀ (s.solStopAll q g a stop st fl) :=
  hk.rest.solResults.solSettle

theorem Keeps.rejectSol {s : State} (hk : Keeps s₀ s) {q : Nat} : Keeps s₀ (s.rejectSol q) := hk.rejectUnit.setFld'

theorem Keeps.solStart {s : State} (hk : Keeps s₀ s) {q : Nat} {ba : Bool} {c : Cmd} : Keeps s₀ (s.solStart q ba c) := by
  unfold State.solStart
  extract_lets +onlyGivenNames -merge canton g pa s0
  have hs0 : Keeps s₀ s0 := hk.setFld'.setFld'.setFld'.setReg'
  refine .either hs0.rejectSol ?_
  extract_lets +onlyGivenNames -merge b
  have hb : Keeps s₀ b.2 := hs0.solRead
  refine .either hk (.either hb.endSol ?_)
  extract_lets +onlyGivenNames -merge a
  refine .either hb.rejectSol ?_
  extract_lets +onlyGivenNames -merge o obs x sl
  have ho : Keeps s₀ o.2 := by
    unfold o
    split
    · exact hb.solRead
    · exact hb
  have hx : Keeps s₀ x.2 := ho.solRead
  have hsl : Keeps s₀ sl.2 := by
    unfold sl
    split
    · exact hx.solRead
    · exact hx
  exact .either hk (.either ho.rejectSol (.either hsl.endSol hsl.rest.setFld'.solPropose))

theorem Keeps.solve {s : State} (hk : Keeps s₀ s) {q : Nat} {ba : Bool} : Keeps s₀ (s.solve q ba) := by
  unfold State.solve
  refine hk.onUnit (fun _ _ => (.either hk ?_))
  split
  · exact hk.solStart
  · exact .either hk (.either hk.solStopAll hk.solStopAll)

theorem Keeps.solEcc {s : State} (hk : Keeps s₀ s) : Keeps s₀ s.solEcc :=
  .event' (hk.withCause' (fun hk => hk.setFld'))

theorem Moves.solverEvalReturn {s : State} (hk : Keeps s₀ s) {ecc : List (BitVec 13)} : Moves s₀ (execSolverEvalReturn ecc s) := by
  unfold execSolverEvalReturn
  refine .next ?_
  split
  · refine .either hk ?_
    split
    · exact hk
    · extract_lets +onlyGivenNames -merge a g _ s1
      have hs1 : Keeps s₀ s1 := hk.rest.setFld'
      exact .either
          hs1.solSettle
          (.either
            hs1
            (.either
              (.either hs1.solStopAll hs1.rest.postEval)
              (.either hs1.rest.rejectSol (.either (.solNext (.rest (.either hs1 hs1.solEcc))) hs1.solStopAll))))
  · exact hk

/-! ### Complete -/
theorem Keeps.putRecord {s : State} (hk : Keeps s₀ s) {q : Nat} {l : List Byte} : Keeps s₀ (s.putRecord q l) := by
  unfold State.putRecord
  split
  · exact hk
  · exact hk.deviceWrite.wrapAdd'

theorem Keeps.foldRecord {s : State} (hk : Keeps s₀ s) {q : Nat} {c : Cmd} {st : BitVec 8} {fl : BitVec 24} : Keeps s₀ (s.foldRecord q c st fl) :=
  .either hk hk.lsRecord

theorem Keeps.toSolver {s : State} (hk : Keeps s₀ s) {q : Nat} {c : Cmd} {st : BitVec 8} : Keeps s₀ (s.toSolver q c st) := by
  unfold State.toSolver
  split
  · exact hk
  · split
    · exact hk
    · exact .either hk.rest.updHead hk

theorem Keeps.chargeEnergy {s : State} (hk : Keeps s₀ s) {q : Nat} {c : Cmd} : Keeps s₀ (s.chargeEnergy q c) := hk.wrapAdd'.wrapAdd'

theorem Keeps.ctxSettle {s : State} (hk : Keeps s₀ s) {x : Nat} : Keeps s₀ (s.ctxSettle x) :=
  .either hk.ctxState hk

theorem Keeps.retireCmd {s : State} (hk : Keeps s₀ s) {q : Nat} {c : Cmd} : Keeps s₀ (s.retireCmd q c) := by
  unfold State.retireCmd
  extract_lets +onlyGivenNames -merge st fl s1 s2 s3 _ s4 s5
  have hs4 : Keeps s₀ s4 := .setQueue (.toSolver (.foldRecord (.chargeEnergy (.either hk.putRecord.setFld' hk.putRecord))))
  have hs5 : Keeps s₀ s5 := .updIdle (.either hs4.ctxSettle hs4)
  exact .either hs5.raiseVec' hs5

theorem Keeps.complete {s : State} (hk : Keeps s₀ s) {q : Nat} : Keeps s₀ (s.complete q) := by
  unfold State.complete
  split
  · exact .either hk.retireCmd hk
  · exact hk

/-! ### Scratchpad -/
theorem Keeps.ownerWrite {s : State} (hk : Keeps s₀ s) {b : Nat} {r : Req} {h : Half} {v : Word} : Keeps s₀ (s.ownerWrite b r h v) := by
  unfold State.ownerWrite
  refine hk.guardW (fun hk => ?_)
  extract_lets +onlyGivenNames -merge old code sw bad busy
  refine .either ?_ ?_
  · extract_lets +onlyGivenNames -merge s1
    have hs1 : Keeps s₀ s1 := .either hk.setFld' hk
    exact .either hs1.setFld' hs1
  · exact hk.foldl' (fun _ _ hk => .either hk.setFld' hk.setFld'.setFld'.setFld'.setFld')

theorem Moves.handoverComplete {s : State} (hk : Keeps s₀ s) {b : Fin 1280} : Moves s₀ (execHandoverComplete b s) :=
  .next (hk.foldl' (fun _ _ hk => hk.setFld'))

theorem Keeps.clearBank {s : State} (hk : Keeps s₀ s) {b : Nat} : Keeps s₀ (s.clearBank b) :=
  hk.forms id (Store.wf_filter _ _ _) (Store.wf_filter _ _ _) id rfl

theorem Keeps.powerTo {s : State} (hk : Keeps s₀ s) {b t : Nat} : Keeps s₀ (s.powerTo b t) :=
  hk.foldl' (fun _ _ hk => hk.setFld'.setBit')

theorem Keeps.pwrWrite {s : State} (hk : Keeps s₀ s) {b : Nat} {r : Req} {h : Half} {v : Word} : Keeps s₀ (s.pwrWrite b r h v) :=
  hk.guardW (fun hk => .either hk (.either hk.setFld' hk.powerTo))

theorem Moves.bankPowerTransitionDone {s : State} (hk : Keeps s₀ s) {b : Fin 1280} : Moves s₀ (execBankPowerTransitionDone b s) :=
  .next (.either hk (hk.foldl' (fun _ _ hk => .setFld' (.setFld' (.either hk.clearBank hk)))))

theorem Keeps.headRefused {s : State} (hk : Keeps s₀ s) {b : Nat} {x : BankAccess} {hit : Hit} : Keeps s₀ (s.headRefused b x hit) := by
  unfold State.headRefused
  extract_lets +onlyGivenNames -merge a
  split
  · exact hk.coreDenied
  · exact hk.coreUnmapped
  · exact hk.coreFlags
  · exact hk.satAdd'
  · exact hk

theorem Keeps.headRead {s : State} (hk : Keeps s₀ s) {old : State} {b : Nat} {x : BankAccess} : Keeps s₀ (s.headRead old b x) := by
  unfold State.headRead
  extract_lets +onlyGivenNames -merge lo
  split
  · extract_lets +onlyGivenNames -merge keys bad core s1 s2
    have hs2 : Keeps s₀ s2 := .emit' (hk.foldl' (fun _ _ hk => hk.eccRead))
    split
    · exact .either hs2.coreErr.endOnCore hs2
    · exact hs2
  · exact hk.headRefused.emit'

theorem Keeps.headLost {s : State} (hk : Keeps s₀ s) {b : Nat} {x : BankAccess} : Keeps s₀ (s.headLost b x) := by
  unfold State.headLost
  extract_lets +onlyGivenNames -merge s1
  split
  · extract_lets +onlyGivenNames -merge s2
    have hs2 : Keeps s₀ s2 := hk.satAdd'.coreErr.satAdd'
    split
    · exact hs2.cmdStatus
    · exact hs2
  · exact hk.satAdd'

theorem Keeps.headWrites {s : State} (hk : Keeps s₀ s) {b : Nat} {l l1 : List BankAccess} : Keeps s₀ (s.headWrites b l l1) := by
  induction l generalizing s b l1 with
  | nil => exact hk
  | cons x_2 r ih =>
    unfold State.headWrites
    split
    · exact ih hk
    · split
      · exact .either (ih hk.headLost) (ih (hk.foldl' (fun _ _ hk => hk.putByte)))
      · exact ih hk.headRefused

theorem Moves.bankAccessServe {s : State} (hk : Keeps s₀ s) {b : Fin 1280} {heads : List BankAccess} : Moves s₀ (execBankAccessServe b heads s) := by
  unfold execBankAccessServe
  refine .next ?_
  extract_lets +onlyGivenNames -merge hs
  split
  · exact hk
  · exact .headWrites (.foldl' (hk.foldl' (fun _ _ hk => hk.foldl' (fun _ _ hk => hk.setEcc))) (fun _ _ hk => hk.headRead))

theorem Keeps.fixWord {s : State} (hk : Keeps s₀ s) {w : Nat} : Keeps s₀ (s.fixWord w) :=
  .either hk.rest.setEcc hk.rest

theorem Moves.eccWriteback {s : State} (hk : Keeps s₀ s) {b : Fin 1280} {line : Fin 2048} : Moves s₀ (execEccWriteback b line s) :=
  .next (hk.foldl' (fun _ _ hk => .either hk.fixWord.eccUncorr hk.fixWord))

theorem Moves.patrolScrubLine {s : State} (hk : Keeps s₀ s) {line : Fin 2048} : Moves s₀ (execPatrolScrubLine line s) := by
  unfold execPatrolScrubLine
  refine .next ?_
  extract_lets +onlyGivenNames -merge ws s1
  have hs1 : Keeps s₀ s1 := hk.foldl' (fun _ _ hk => hk.eccRead.fixWord)
  exact .either hs1.wrapAdd' hs1

theorem Moves.columnRepairLine {s : State} (hk : Keeps s₀ s) : Moves s₀ (execColumnRepairLine s) :=
  .next (.either (.setFld' (hk.foldl' (fun _ _ hk => hk.fixWord))) hk)

theorem Moves.columnRepairDone {s : State} (hk : Keeps s₀ s) : Moves s₀ (execColumnRepairDone s) := by
  unfold execColumnRepairDone
  refine .next ?_
  split
  · exact hk
  · exact .either hk.satAdd'.setFld'.rest.event'.nextRepair hk

/-! ### RebindCanton -/
theorem Keeps.resetRange {s : State} (hk : Keeps s₀ s) {lo len : Nat} : Keeps s₀ (s.resetRange lo len) :=
  hk.forms (Store.wf_filter _ _ _) id id id rfl

theorem Keeps.abortQueue {s : State} (hk : Keeps s₀ s) {q : Nat} {p : Cmd → Bool} : Keeps s₀ (s.abortQueue q p) := by
  unfold State.abortQueue
  extract_lets +onlyGivenNames -merge s1
  have hs1 : Keeps s₀ s1 := by
    unfold s1
    split
    · exact .either hk.setSaved.ctxState hk
    · exact hk
  exact hs1.setQueue

theorem Keeps.abortIn {s : State} (hk : Keeps s₀ s) {c : Nat} {p : Nat → Cmd → Bool} : Keeps s₀ (s.abortIn c p) :=
  hk.foldl' (fun _ _ hk => .either hk.abortQueue hk)

theorem Keeps.completeN {s : State} (hk : Keeps s₀ s) {q k : Nat} : Keeps s₀ (s.completeN q k) := by
  induction k generalizing s q with
  | zero => exact hk
  | succ n ih => exact ih hk.complete

theorem Keeps.kvSettle {w : KvWork} (hk : Keeps s₀ w.s) {c : KvCtx} {l : List (Nat × KvEnt)} : Keeps s₀ (w.settle c l).s := by
  induction l generalizing w with
  | nil => exact hk
  | cons x r ih =>
    have hscan := hk.kvScan (l := [x])
    unfold KvWork.settle
    split
    · rename_i e1
      rw [e1] at hscan
      exact ih hscan.kvLose
    · rename_i e1
      rw [e1] at hscan
      exact ih hscan

theorem Keeps.kvClose {s : State} (hk : Keeps s₀ s) {x : Nat} : Keeps s₀ (s.kvClose x) :=
  .either hk.kvSettle.kvEmptyLists.kvShut hk

theorem Keeps.setKvClasses {s : State} (hk : Keeps s₀ s) {c : Nat} {l : List KvClass} : Keeps s₀ (s.setKvClasses c l) := hk.rest

theorem Keeps.putKvRec {s : State} (hk : Keeps s₀ s) {c : Nat} {r : Option KvRec} : Keeps s₀ (s.putKvRec c r) := by
  unfold State.putKvRec
  split
  · exact hk.resetRange.setKvClasses
  · exact hk.setReg'.setReg'.setReg'.setReg'.setKvClasses

theorem Keeps.dropDescs {s : State} (hk : Keeps s₀ s) {lo n : Nat} : Keeps s₀ (s.dropDescs lo n) :=
  hk.foldl' (fun _ _ hk => hk.putDesc.setIdx)

theorem Keeps.switchKv {s : State} (hk : Keeps s₀ s) {c : Nat} {ctxs : List Nat} {old new : Option KvRec} : Keeps s₀ (s.switchKv c ctxs old new) := by
  unfold State.switchKv
  refine .either hk ?_
  extract_lets +onlyGivenNames -merge s1 s2
  have hs1 : Keeps s₀ s1 := hk.foldl' (fun _ _ hk => hk.kvClose)
  have hs2 : Keeps s₀ s2 := by
    unfold s2
    split
    · exact hs1.dropDescs
    · exact hs1
  exact hs2.abortIn.putKvRec

theorem Keeps.dropQueue {s : State} (hk : Keeps s₀ s) {q : Nat} : Keeps s₀ (s.dropQueue q) :=
  hk.abortQueue.completeN.setReg'.updIdle

theorem Keeps.bindQueue {s : State} (hk : Keeps s₀ s) {c : Nat} {e : QEnt} {q : Nat} : Keeps s₀ (s.bindQueue c e q) := by
  unfold State.bindQueue
  extract_lets +onlyGivenNames -merge moved s1 s2
  have hs2 : Keeps s₀ s2 := .setReg' (.either hk.abortQueue hk)
  exact .either hs2.setFld'.updIdle hs2

theorem Keeps.dropCtx {s : State} (hk : Keeps s₀ s) {x : Nat} : Keeps s₀ (s.dropCtx x) := hk.kvClose.resetRange

theorem Keeps.bindCtx {s : State} (hk : Keeps s₀ s) {c : Nat} {m : CMap} {x : Nat} : Keeps s₀ (s.bindCtx c m x) :=
  .setReg' (.either hk hk.setReg')

theorem Keeps.applyMap {s : State} (hk : Keeps s₀ s) {c : Nat} {old m : CMap} : Keeps s₀ (s.applyMap c old m) :=
  .rest
    (.setReg'
      (.setFld'
        (.setFld'
          (.foldl'
            (.foldl'
              (.foldl'
                (.foldl'
                  (.foldl'
                    (hk.abortIn.switchKv.foldl'
                      (fun _ _ hk => hk.dropQueue))
                    (fun _ _ hk => hk.dropCtx))
                  (fun _ _ hk => hk.foldl' (fun _ _ hk => hk.bindQueue)))
                (fun _ _ hk => hk.bindCtx))
              (fun _ _ hk => hk.setFld'))
            (fun _ _ hk => hk.setFld')))))

theorem Keeps.applyRegs {s : State} (hk : Keeps s₀ s) {c : Nat} {es : List RegEnt} : Keeps s₀ (s.applyRegs c es) :=
  hk.foldl' (fun _ _ hk => hk.setReg')

theorem Keeps.layRegion {s : State} (hk : Keeps s₀ s) {c : Nat} {e : BankEnt} : Keeps s₀ (s.layRegion c e) :=
  .powerTo (hk.foldl' (fun _ _ hk => hk.setReg'.setFld'.setBit'.setFld'))

theorem Keeps.freeBank {s : State} (hk : Keeps s₀ s) {b : Nat} : Keeps s₀ (s.freeBank b) := hk.setReg'.setReg'

theorem Keeps.layCores {s : State} (hk : Keeps s₀ s) {c : Nat} {cores : List Nat} {es : List BankEnt} : Keeps s₀ (s.layCores c cores es) :=
  .foldl' (hk.foldl' (fun _ _ hk => hk.layRegion)) (fun _ _ hk => hk.layRegion)

theorem Keeps.applyBanks {s : State} (hk : Keeps s₀ s) {c oldMask mask : Nat} {carried : Bool} {old es : List BankEnt} :
    Keeps s₀ (s.applyBanks c oldMask mask carried old es) := by
  unfold State.applyBanks
  extract_lets +onlyGivenNames -merge gone s1 s2
  have hs2 : Keeps s₀ s2 := .layCores (hk.foldl' (fun _ _ hk => hk.freeBank))
  exact .either (.setFld' (.foldl' (hs2.foldl' (fun _ _ hk => hk.freeBank.clearBank)) (fun _ _ hk => hk.layRegion))) hs2

theorem Keeps.loadCore {s : State} (hk : Keeps s₀ s) {v : LatCfg} {n : Nat} : Keeps s₀ (s.loadCore v n) := hk.setCore.setFld'

/-! ### Tokenizer -/
theorem Keeps.tokRefetch {s : State} (hk : Keeps s₀ s) {i : Nat} : Keeps s₀ (s.tokRefetch i) :=
  .either hk.satAdd'.rest hk.satAdd'.rest

theorem Moves.tokenize {s : State} (hk : Keeps s₀ s) {q : BitVec 16} {done : Nat} {ecc : List (BitVec 17)} : Moves s₀ (execTokenize q done ecc s) :=
  .next
    (hk.onUnit
      (fun _ _ => .either
        hk.rejectUnit.wrapAdd'
        (.either hk (.either hk (.wrapAdd' (.endUnit (.cmdFlags (.writeMem (.unitRead (hk.foldl' (fun _ _ hk => hk.tokRefetch)))))))))))

/-! ### RebindIo -/
theorem Keeps.dropCmp {s : State} (hk : Keeps s₀ s) {n : Nat} : Keeps s₀ (s.dropCmp n) := hk.resetRange.setDue.setArmed

theorem Keeps.putCmp {s : State} (hk : Keeps s₀ s) {e : CmpEnt} : Keeps s₀ (s.putCmp e) :=
  hk.setFld'.setFld'.setFld'.setFld'.setFld'.setReg'.cmpStart

theorem Keeps.applyCmps {s : State} (hk : Keeps s₀ s) {old new : List CmpEnt} : Keeps s₀ (s.applyCmps old new) :=
  .foldl' (hk.foldl' (fun _ _ hk => hk.dropCmp)) (fun _ _ hk => hk.putCmp)

theorem Keeps.dropPin {s : State} (hk : Keeps s₀ s) {k : Nat} : Keeps s₀ (s.dropPin k) := by
  unfold State.dropPin
  extract_lets +onlyGivenNames -merge i
  split
  · exact hk.resetRange.setSport
  · exact hk.resetRange.rest
  · exact hk.resetRange.setAct
  · exact hk.resetRange.setCan
  · exact hk.resetRange

theorem Keeps.putPin {s : State} (hk : Keeps s₀ s) {ctrl : Nat} {e : PinEnt} : Keeps s₀ (s.putPin ctrl e) := by
  unfold State.putPin
  extract_lets +onlyGivenNames -merge i
  split
  · exact hk.setReg'.setReg'.setReg'
  · exact hk.setReg'
  · exact hk.foldl' (fun _ _ hk => hk.setReg'.setReg')
  · extract_lets +onlyGivenNames -merge cfg s1 s2
    have hs2 : Keeps s₀ s2 := hk.setReg'.setReg'.setReg'.resetRange.setCan
    exact .either hs2 hs2.canIntegrate
  · exact hk.setReg'.setReg'.setReg'.setReg'.setReg'.setReg'

theorem Keeps.restPin {s : State} (hk : Keeps s₀ s) {k : Nat} : Keeps s₀ (s.restPin k) := by
  unfold State.restPin
  split
  · exact hk.setSport
  · exact hk.rest
  · exact hk.setAct
  · exact hk

theorem Keeps.applyPins {s : State} (hk : Keeps s₀ s) {ctrl : Nat} {old new : List PinEnt} : Keeps s₀ (s.applyPins ctrl old new) :=
  .foldl' (.foldl' (hk.foldl' (fun _ _ hk => hk.dropPin)) (fun _ _ hk => hk.restPin)) (fun _ _ hk => hk.putPin)

theorem Keeps.regate {s : State} (hk : Keeps s₀ s) {v : LatCfg} : Keeps s₀ (s.regate v) :=
  hk.foldl' (fun _ _ hk => .either hk.setBit' hk)

theorem Keeps.putCam {s : State} (hk : Keeps s₀ s) {e : CamEnt} : Keeps s₀ (s.putCam e) := hk.setReg'.setCamPort

theorem Keeps.putSrc {s : State} (hk : Keeps s₀ s) {e : SrcEnt} : Keeps s₀ (s.putSrc e) :=
  hk.setReg'.setReg'.setReg'.setFld'.setFld'.setImgSrc

theorem Keeps.dropSrc {s : State} (hk : Keeps s₀ s) {k : Nat} : Keeps s₀ (s.dropSrc k) := hk.resetRange.setImgSrc

theorem Keeps.applyInput {s : State} (hk : Keeps s₀ s) {oldC newC : List CamEnt} {oldE newE : List (Nat × Nat)} {oldS newS : List SrcEnt} :
    Keeps s₀ (s.applyInput oldC newC oldE newE oldS newS) :=
  .foldl'
    (.foldl'
      (.foldl'
        (.foldl'
          (.foldl'
            (.foldl'
              (hk.foldl'
                (fun _ _ hk => hk.imgAbortAll))
              (fun _ _ hk => hk.dropSrc))
            (fun _ _ hk => hk.resetRange.setCamPort))
          (fun _ _ hk => hk.resetRange))
        (fun _ _ hk => hk.putCam))
      (fun _ _ hk => hk.setFld'))
    (fun _ _ hk => hk.putSrc)

theorem Keeps.putGroup {s : State} (hk : Keeps s₀ s) {slots : List SlotEnt} {outage : Bool} {e : GrpEnt} : Keeps s₀ (s.putGroup slots outage e) :=
  hk.setReg'.setGrp

theorem Keeps.putCtlSlot {s : State} (hk : Keeps s₀ s) {groups : List GrpEnt} {e : SlotEnt} : Keeps s₀ (s.putCtlSlot groups e) :=
  hk.resetRange.setReg'.setSlot

theorem Keeps.putSel {s : State} (hk : Keeps s₀ s) {e : SelEnt} : Keeps s₀ (s.putSel e) := hk.setReg'.setSel

theorem Keeps.disarm {s : State} (hk : Keeps s₀ s) {gs : List Nat} : Keeps s₀ (s.disarm gs) :=
  hk.foldl' (fun _ _ hk => .either hk.setFld'.setTrace hk)

theorem Keeps.applyControl {s : State} (hk : Keeps s₀ s) {outage : Bool} {og ng : List GrpEnt} {os ns : List SlotEnt} {om nm : List SelEnt} :
    Keeps s₀ (s.applyControl outage og ng os ns om nm) :=
  .foldl'
    (.foldl'
      (.foldl'
        (.foldl'
          (.foldl'
            (hk.disarm.foldl'
              (fun _ _ hk => hk.resetRange.setSlot))
            (fun _ _ hk => hk.setReg'.setSel))
          (fun _ _ hk => hk.resetRange.setGrp))
        (fun _ _ hk => hk.putGroup))
      (fun _ _ hk => hk.putCtlSlot))
    (fun _ _ hk => hk.putSel)

theorem Keeps.putPlHdr {s : State} (hk : Keeps s₀ s) {h : List Byte} : Keeps s₀ (s.putPlHdr h) := hk.setReg'.setReg'

theorem Keeps.dropFrame {s : State} (hk : Keeps s₀ s) {f : Nat} : Keeps s₀ (s.dropFrame f) := hk.resetRange.setPlReg.rest

theorem Keeps.putFrame {s : State} (hk : Keeps s₀ s) {e : FrameEnt} : Keeps s₀ (s.putFrame e) := hk.dropFrame.setReg'.setPlReg

theorem Keeps.putRules {s : State} (hk : Keeps s₀ s) {rules : List PlRule} {touched : List Nat} : Keeps s₀ (s.putRules rules touched) :=
  hk.rest.foldl' (fun _ _ hk => hk.setPlReg)

theorem Keeps.applyFrames {s : State} (hk : Keeps s₀ s) {old new : List FrameEnt} : Keeps s₀ (s.applyFrames old new) :=
  .foldl' (hk.foldl' (fun _ _ hk => hk.dropFrame)) (fun _ _ hk => hk.putFrame)

theorem Keeps.putPower {s : State} (hk : Keeps s₀ s) {l : List Byte} : Keeps s₀ (s.putPower l) :=
  .vrSend (.setFld' (.setFld' (.setFld' (.setFld' (hk.setFld'.setFld'.setFld'.setFld'.foldl' (fun _ _ hk => hk.setFld'))))))

theorem Keeps.putDict {s : State} (hk : Keeps s₀ s) {l : List Byte} : Keeps s₀ (s.putDict l) :=
  hk.rest.setReg'.setReg'.wrBytes'

/-! ### Commit -/
theorem Keeps.bootReject {s : State} (hk : Keeps s₀ s) {k : LoadErr} : Keeps s₀ (s.bootReject k) :=
  .fabReport (.either hk.rest.setBoot.setFld' (.either hk.rest.setBoot.setFab hk.rest.setBoot))

theorem Moves.fabStageDone {s : State} (hk : Keeps s₀ s) : Moves s₀ (execFabStageDone s) := by
  unfold execFabStageDone
  refine .next (.either ?_ ?_)
  · split
    · exact hk.rest.setDigest.setFab.fabReport
    · exact hk.unstage.fabReport
  · refine .either ?_ hk
    split
    · exact hk.setDigest.setBoot
    · exact hk.bootReject

theorem Keeps.setPhase {s : State} (hk : Keeps s₀ s) {p : ComPhase} : Keeps s₀ (s.setPhase p) := hk.rest

theorem Keeps.drainCmd {s : State} (hk : Keeps s₀ s) {q : Nat} : Keeps s₀ (s.drainCmd q) :=
  .either (.either hk.updHead.setBusy hk.updHead) hk

theorem Moves.commitUnitDrainTimeout {s : State} (hk : Keeps s₀ s) : Moves s₀ (execCommitUnitDrainTimeout s) := by
  unfold execCommitUnitDrainTimeout
  refine .next ?_
  split
  · exact .either (.foldl' (hk.foldl' (fun _ _ hk => hk.drainCmd)) (fun _ _ hk => hk.imgAbortAll)) hk
  · exact hk

theorem Moves.commitDrainDone {s : State} (hk : Keeps s₀ s) : Moves s₀ (execCommitDrainDone s) := by
  unfold execCommitDrainDone
  refine .next ?_
  split
  · exact hk
  · exact .either hk hk.setPhase

theorem Moves.commitSaveDone {s : State} (hk : Keeps s₀ s) : Moves s₀ (execCommitSaveDone s) := by
  unfold execCommitSaveDone
  refine .next ?_
  split
  · exact hk
  · exact .either hk hk.setPhase

theorem Keeps.abortRuns {s : State} (hk : Keeps s₀ s) {c : Nat} : Keeps s₀ (s.abortRuns c) := hk.abortIn

theorem Keeps.rebindCanton {s : State} (hk : Keeps s₀ s) {v w : LatCfg} {c : Nat} {has : Nat → Bool} : Keeps s₀ (s.rebindCanton v w c has) := by
  unfold State.rebindCanton
  extract_lets +onlyGivenNames -merge om nm s1 s2
  have hs1 : Keeps s₀ s1 := .either hk.applyMap hk
  have hs2 : Keeps s₀ s2 := .either hs1.applyRegs hs1
  exact .either hs2.applyBanks hs2

theorem Keeps.rebindShared {s : State} (hk : Keeps s₀ s) {v w : LatCfg} {c : Nat} {has : Nat → Bool} : Keeps s₀ (s.rebindShared v w c has) := by
  unfold State.rebindShared
  extract_lets +onlyGivenNames -merge own port s1 s2 s3 s4 s5 s6
  have hs1 : Keeps s₀ s1 := .either hk.applyCmps hk
  have hs2 : Keeps s₀ s2 := .either hs1.applyPins hs1
  have hs4 : Keeps s₀ s4 := .regate (.either hs2.applyInput hs2)
  have hs5 : Keeps s₀ s5 := .either hs4.applyControl hs4
  have hs6 : Keeps s₀ s6 := .either hs5.putRules hs5
  exact .either hs6.applyFrames hs6

theorem Keeps.rebind {s : State} (hk : Keeps s₀ s) {c : Nat} {l : List Sect} : Keeps s₀ (s.rebind c l) := by
  unfold State.rebind
  extract_lets +onlyGivenNames -merge v w has s1 s2 masks s3
  have hs2 : Keeps s₀ s2 := .rebindShared (.rebindCanton (.either hk.abortRuns hk))
  exact .plRefresh (.rest (.either (hs2.foldl' (fun _ _ hk => hk.loadCore)) hs2))

theorem Moves.commitVerifyDone {s : State} (hk : Keeps s₀ s) : Moves s₀ (execCommitVerifyDone s) := by
  unfold execCommitVerifyDone
  refine .next ?_
  split
  · exact hk
  · split
    · exact hk.rest
    · exact hk.rebind.setPhase

theorem Moves.commitRebindDone {s : State} (hk : Keeps s₀ s) : Moves s₀ (execCommitRebindDone s) := by
  unfold execCommitRebindDone
  refine .next ?_
  split
  · exact hk
  · exact hk.setPhase

theorem Keeps.committed {s : State} (hk : Keeps s₀ s) {c : Nat} : Keeps s₀ (s.committed c) := hk.wrapAdd'.setDigest

theorem Moves.commitResumeDone {s : State} (hk : Keeps s₀ s) : Moves s₀ (execCommitResumeDone s) := by
  unfold execCommitResumeDone
  refine .next ?_
  split
  · exact hk
  · exact .fabReport (.rest (.unstage (.setFld' (.either hk.committed hk))))

/-! ### Reset -/
/-- Both resets keep the order of the state: what is left of it is in its canonical form. -/
theorem Keeps.cleared {s : State} (hk : Keeps s₀ s) : Keeps s₀ s.cleared := by
  unfold State.cleared
  extract_lets t
  have ht : Keeps s₀ t := hk.forms (Store.wf_filter _ _ _) (fun _ => rfl) (fun _ => rfl) (fun _ => (by decide : 0 < 1000000000)) rfl
  exact ht.setFld'.setFld'

theorem Keeps.keepFld {t : State} (hk : Keeps s₀ t) {s : State} {off : Nat} {f : Fld} : Keeps s₀ (t.keepFld s off f) := hk.setFld'

theorem Keeps.enterWarm {s : State} (hk : Keeps s₀ s) {cause : Nat} : Keeps s₀ (s.enterWarm cause) := by
  unfold State.enterWarm
  extract_lets +onlyGivenNames -merge tm _ t t1 t2 t3
  have ht : Keeps s₀ t := by
    obtain ⟨_, hpending, hout, hfree, hfailed⟩ := hk.cleared
    refine ⟨fun w => ?_, hpending, hout, hfree, hfailed⟩
    have hs := (State.wf_iff s).mp (hk.wf w)
    have hc := (State.wf_iff s.cleared).mp (hk.cleared.wf w)
    exact (State.wf_iff t).mpr ⟨hc.1, hs.2.1, hc.2.2.1, hs.2.2.2⟩
  exact ht.setReg'.keepFld.keepFld.keepFld.keepFld.newSession.keepFld.keepFld.setFld'.rest

theorem Keeps.leaveReset {s : State} (hk : Keeps s₀ s) {straps : Straps} : Keeps s₀ (s.leaveReset straps) :=
  hk.rest.setFld'.setFld'.setBit'.setFld'

theorem Moves.powerOnReset {s : State} (hk : Keeps s₀ s) {straps : Straps} : Moves s₀ (execPowerOnReset straps s) :=
  .next hk.cleared.leaveReset

theorem Keeps.brownout {s : State} (hk : Keeps s₀ s) : Keeps s₀ s.brownout := hk.enterWarm.setFld'

theorem Keeps.warmFor {s : State} (hk : Keeps s₀ s) {c : WarmCause} : Keeps s₀ (s.warmFor c) := by
  unfold State.warmFor
  split
  · exact hk.brownout
  · exact hk.enterWarm

theorem Moves.warmReset {s : State} (hk : Keeps s₀ s) {cause : WarmCause} {straps : Straps} : Moves s₀ (execWarmReset cause straps s) :=
  .next (.either hk (.leaveReset (.either hk hk.warmFor)))

theorem Moves.brownout {s : State} (hk : Keeps s₀ s) : Moves s₀ (execBrownout s) :=
  .next (.either hk hk.brownout)

theorem Keeps.warmWrite {s : State} (hk : Keeps s₀ s) {r : Req} {confirm : Nat} : Keeps s₀ (s.warmWrite r confirm) :=
  .either hk.enterWarm hk

/-! ### Boot -/
theorem Keeps.mapCores {s : State} (hk : Keeps s₀ s) : Keeps s₀ s.mapCores :=
  hk.setReg'.setReg'.foldl' (fun _ _ hk => hk.setReg')

theorem Keeps.mapColumns {s : State} (hk : Keeps s₀ s) : Keeps s₀ s.mapColumns :=
  hk.foldl' (fun _ _ hk => hk.satAdd')

theorem Moves.bootFusesDone {s : State} (hk : Keeps s₀ s) {ok : Bool} : Moves s₀ (execBootFusesDone ok s) := by
  unfold execBootFusesDone
  refine .next (.either hk ?_)
  extract_lets +onlyGivenNames -merge _ s0
  have hs0 : Keeps s₀ s0 := hk.rest.setFld'
  refine .either hs0.setBoot ?_
  extract_lets n s1 s2 s3
  have hs2 : Keeps s₀ s2 := hs0.mapCores.mapColumns.setFld'.setBit'.setBit'
  have hs3 : Keeps s₀ s3 := hs2.forms id (Store.wf_filter _ _ _) (fun _ => rfl) id rfl
  exact hs3.showKeyState.setBoot

theorem Keeps.pprResult {s : State} (hk : Keeps s₀ s) {i : Nat} {good : Bool} : Keeps s₀ (s.pprResult i good) :=
  .either hk (.either hk.setFld' hk.rest.event')

theorem Keeps.pickSource {s : State} (hk : Keeps s₀ s) : Keeps s₀ s.pickSource := by
  unfold State.pickSource
  split
  · exact hk.setBoot
  · exact hk.setBoot
  · exact hk.setBoot

theorem Moves.hbmTrainingDone {s : State} (hk : Keeps s₀ s) {ok : BitVec 4} {ppr : BitVec 128} : Moves s₀ (execHbmTrainingDone ok ppr s) := by
  unfold execHbmTrainingDone
  refine .next (.either hk ?_)
  extract_lets +onlyGivenNames s1 n good s2
  have hs2 : Keeps s₀ s2 := .setFld' (.setFld' (.either hk (hk.foldl' (fun _ _ hk => hk.pprResult))))
  exact .either hs2.setBoot (.pickSource (hs2.forms id (Store.wf_filter _ _ _) id id rfl))

theorem Moves.xspiFetchDone {s : State} (hk : Keeps s₀ s) {bytes : List Byte} : Moves s₀ (execXspiFetchDone bytes s) := by
  unfold execXspiFetchDone
  refine .next (.either hk ?_)
  extract_lets +onlyGivenNames -merge s1
  split
  · exact hk.attempt.bootReject
  · exact .either hk.attempt.bootReject hk.attempt.wrBytes'.rest.setBoot

theorem Keeps.clearTable {s : State} (hk : Keeps s₀ s) : Keeps s₀ s.clearTable := hk.forms id (Store.wf_filter _ _ _) id id rfl

theorem Keeps.settleBanks {s : State} (hk : Keeps s₀ s) : Keeps s₀ s.settleBanks :=
  .setReg' (hk.foldl' (fun _ _ hk => .either hk.setFld'.powerTo hk.setFld'))

theorem Keeps.loadCantons {s : State} (hk : Keeps s₀ s) {v : LatCfg} : Keeps s₀ (s.loadCantons v) :=
  hk.foldl' (fun _ _ hk => hk.applyMap.applyRegs.applyBanks)

theorem Keeps.loadShared {s : State} (hk : Keeps s₀ s) {v : LatCfg} {l : List Sect} : Keeps s₀ (s.loadShared v l) := by
  unfold State.loadShared
  extract_lets +onlyGivenNames -merge payload s1 s2 s3 s4
  have hs2 : Keeps s₀ s2 := hk.setReg'.applyCmps.applyPins.applyInput.regate
  have hs3 : Keeps s₀ s3 := by
    unfold s3
    split
    · exact hs2.putDict
    · exact hs2
  exact hs3.applyControl.putPlHdr.putRules.applyFrames

theorem Keeps.wakeCores {s : State} (hk : Keeps s₀ s) : Keeps s₀ s.wakeCores :=
  hk.foldl' (fun _ _ hk => .either hk.setFld' hk)

theorem Keeps.fullLoad {s : State} (hk : Keeps s₀ s) {l : List Sect} : Keeps s₀ (s.fullLoad l) := by
  unfold State.fullLoad
  extract_lets +onlyGivenNames -merge v s1 s2 s3 s4 _ _ _ _ s5
  have hs1 : Keeps s₀ s1 := hk.clearTable.setFld'
  have hs2 : Keeps s₀ s2 := by
    unfold s2
    split
    · exact hs1.putPower
    · exact hs1
  exact .plRefresh (.setFld' (.rest (.wakeCores (hs2.loadCantons.settleBanks.loadShared.foldl' (fun _ _ hk => hk.loadCore)))))

theorem Moves.bootApplyDone {s : State} (hk : Keeps s₀ s) : Moves s₀ (execBootApplyDone s) :=
  .next (.either hk hk.fullLoad.setDigest.setFld'.setBoot.setFld'.unstage.fabReport)

/-! ### Halyard -/
theorem Keeps.halFrames {s : State} (hk : Keeps s₀ s) {dst tag off : Nat} {l : List Byte} {k : Nat} : Keeps s₀ (s.halFrames dst tag off l k) := by
  induction k generalizing s dst tag off l with
  | zero => exact hk
  | succ n ih => exact .either hk (ih hk.chdSend)

theorem Keeps.halRelay {s : State} (hk : Keeps s₀ s) {dst : Nat} {l : List Byte} : Keeps s₀ (s.halRelay dst l) := hk.rest.halFrames

theorem Keeps.halOut {s : State} (hk : Keeps s₀ s) {m : HalMsg} : Keeps s₀ (s.halOut m) :=
  .either (.either hk.halRelay hk) (.either hk.emit' hk)

theorem Keeps.halSend {s : State} (hk : Keeps s₀ s) {m : HalMsg} : Keeps s₀ (s.halSend m) :=
  .either hk.halOut hk

theorem Keeps.halSeq {s : State} (hk : Keeps s₀ s) {type : Nat} {payload : List Byte} : Keeps s₀ (s.halSeq type payload) :=
  hk.setFld'.rest.halSend

theorem Keeps.halAck {s : State} (hk : Keeps s₀ s) : Keeps s₀ s.halAck := hk.rest.halSend

theorem Keeps.halAcked {s : State} (hk : Keeps s₀ s) {a : BitVec 32} : Keeps s₀ (s.halAcked a) :=
  .either hk hk.rest.setFld'

theorem Keeps.halResend {s : State} (hk : Keeps s₀ s) : Keeps s₀ s.halResend :=
  hk.rest.foldl' (fun _ _ hk => hk.halSend)

theorem Keeps.halAccept {s : State} (hk : Keeps s₀ s) {m : HalMsg} {f : State → State} (hf : ∀ t, Keeps s₀ t → Keeps s₀ (f t)) :
    Keeps s₀ (s.halAccept m f) :=
  .either hk (.either (hf _ hk.halAcked.rest) hk.halAcked.halAck)

theorem Keeps.halHello {s : State} (hk : Keeps s₀ s) {m : HalMsg} : Keeps s₀ (s.halHello m) :=
  .either (hk.halAccept (fun _ hk => hk)) (.either hk hk.rest.setFld'.halAcked.halAck.halResend)

theorem Keeps.stagePut {s : State} (hk : Keeps s₀ s) {o : Nat} {l : List Byte} : Keeps s₀ (s.stagePut o l) := by
  induction l generalizing s o with
  | nil => exact hk
  | cons b r ih => exact ih hk.rest

theorem Keeps.halResult {s : State} (hk : Keeps s₀ s) {seq : BitVec 32} {st : BitVec 8} : Keeps s₀ (s.halResult seq st) := hk.halSeq

theorem Keeps.halChunk {s : State} (hk : Keeps s₀ s) {m : HalMsg} : Keeps s₀ (s.halChunk m) :=
  hk.halAccept (fun _ hk => hk.stagePut)

theorem Keeps.libInstall {s : State} (hk : Keeps s₀ s) {seq : BitVec 32} {len : Nat} {older : Bool} : Keeps s₀ (s.libInstall seq len older) :=
  .either hk.halResult (.either hk.halResult (.either hk.penInstall hk.penInstall.halResult))

theorem Keeps.halInstall {s : State} (hk : Keeps s₀ s) {m : HalMsg} : Keeps s₀ (s.halInstall m) :=
  hk.halAccept (fun _ hk => .either hk.rest hk.libInstall)

theorem Keeps.halBad {s : State} (hk : Keeps s₀ s) : Keeps s₀ s.halBad := hk.satAdd'

theorem Keeps.halTake {s : State} (hk : Keeps s₀ s) {m : HalMsg} : Keeps s₀ (s.halTake m) := by
  unfold State.halTake
  split
  · exact hk.halHello
  · exact .either hk.halAcked hk
  · exact hk.halChunk
  · exact hk.halInstall
  · exact hk.halBad

theorem Keeps.halRoute {s : State} (hk : Keeps s₀ s) {m : HalMsg} {f : State → State} (hf : Keeps s₀ s → Keeps s₀ (f s)) :
    Keeps s₀ (s.halRoute m f) :=
  .either hk (.either hk.halRelay (hf hk))

theorem Moves.halyardHello {s : State} (hk : Keeps s₀ s) {m : HalMsg} : Moves s₀ (execHalyardHello m s) :=
  .next (.either (hk.halRoute (fun hk => hk.halTake)) hk)

theorem Moves.halyardAck {s : State} (hk : Keeps s₀ s) {m : HalMsg} : Moves s₀ (execHalyardAck m s) :=
  .next (.either (hk.halRoute (fun hk => hk.halTake)) hk)

theorem Moves.halyardLibChunk {s : State} (hk : Keeps s₀ s) {m : HalMsg} : Moves s₀ (execHalyardLibChunk m s) :=
  .next (.either (hk.halRoute (fun hk => hk.halTake)) hk)

theorem Moves.halyardLibInstall {s : State} (hk : Keeps s₀ s) {m : HalMsg} : Moves s₀ (execHalyardLibInstall m s) :=
  .next (.either (hk.halRoute (fun hk => hk.halTake)) hk)

theorem Moves.halyardBadRx {s : State} (hk : Keeps s₀ s) {bytes : List Byte} : Moves s₀ (execHalyardBadRx bytes s) := by
  unfold execHalyardBadRx
  refine .next (.either hk ?_)
  split
  · exact hk.halBad
  · exact .either hk hk.halBad

theorem Moves.chordHalyard {s : State} (hk : Keeps s₀ s) {p : Fin 4} {f : ChordFrame} : Moves s₀ (execChordHalyard p f s) := by
  unfold execChordHalyard
  refine .next (hk.chdTake (fun _ hk => ?_))
  extract_lets +onlyGivenNames -merge a key have' l put
  refine .either hk.rest ?_
  extract_lets +onlyGivenNames -merge s1
  split
  · exact hk.rest
  · exact .either hk.rest (.either (.either hk.rest.halTake hk.rest) (.either hk.rest.emit' hk.rest))

theorem Moves.halyardErrorReport {s : State} (hk : Keeps s₀ s) : Moves s₀ (execHalyardErrorReport s) :=
  .next (.either hk.rest.halSeq hk)

theorem Moves.halyardTelemetry {s : State} (hk : Keeps s₀ s) {shed : Bool} : Moves s₀ (execHalyardTelemetry shed s) := by
  unfold execHalyardTelemetry
  refine .next ?_
  extract_lets +onlyGivenNames -merge ms
  refine .either hk ?_
  extract_lets +onlyGivenNames -merge _ s1
  refine .either hk.rest.setFld'.setFld' ?_
  extract_lets +onlyGivenNames -merge s2
  have hs2 : Keeps s₀ s2 := hk.rest.halSend
  exact .either hs2 hs2.setFld'.setFld'.rest.event'

theorem Moves.halyardRetransmit {s : State} (hk : Keeps s₀ s) : Moves s₀ (execHalyardRetransmit s) :=
  .next (.either hk.halResend hk)

theorem Moves.halyardAckSend {s : State} (hk : Keeps s₀ s) : Moves s₀ (execHalyardAckSend s) :=
  .next (.either hk.halAck hk)

theorem Moves.pennantInstallDone {s : State} (hk : Keeps s₀ s) : Moves s₀ (execPennantInstallDone s) :=
  .next (.either hk.penInstalled hk.penInstalled.halResult)

theorem Keeps.readHalState {s : State} (hk : Keeps s₀ s) {r : Req} {h : Half} : Keeps s₀ (s.readHalState r h) := by
  unfold State.readHalState
  refine hk.guardR (fun hk => ?_)
  extract_lets +onlyGivenNames -merge k v set
  split
  · exact hk.answer'
  · exact hk.rest.answer'
  · exact hk.rest.answer'

theorem Keeps.writeMboxIn {s : State} (hk : Keeps s₀ s) {h : Half} {v : Word} : Keeps s₀ (s.writeMboxIn h v) := by
  unfold State.writeMboxIn
  refine .either hk ?_
  extract_lets +onlyGivenNames -merge s1
  have hs1 : Keeps s₀ s1 := .either hk.setFld' hk
  exact .either (.either hs1.setFld' hs1.setFld') hs1

theorem Keeps.mboxAnswer {s : State} (hk : Keeps s₀ s) {st : BitVec 8} {words : List Word} : Keeps s₀ (s.mboxAnswer st words) := by
  unfold State.mboxAnswer
  extract_lets w0 s1
  have hs1 : Keeps s₀ s1 := hk.setReg'.foldl' (fun _ _ hk => hk.setReg')
  exact hs1.setFld'.withCause' (fun hk => hk.setFld')

theorem Keeps.mboxRun {s : State} (hk : Keeps s₀ s) {takes : Nat → Bool} {f : State → State} (hf : ∀ t, Keeps s₀ t → Keeps s₀ (f t)) :
    Keeps s₀ (s.mboxRun takes f) :=
  .either (.either (hf _ hk.setFld') hk.mboxAnswer) hk

theorem Moves.mboxEcho {s : State} (hk : Keeps s₀ s) : Moves s₀ (execMboxEcho s) :=
  .next (hk.mboxRun (fun _ hk => hk.mboxAnswer))

theorem Moves.mboxSend {s : State} (hk : Keeps s₀ s) : Moves s₀ (execMboxSend s) :=
  .next (hk.mboxRun (fun _ hk => .either hk.halSeq.mboxAnswer hk.mboxAnswer))

theorem Moves.mboxTelem {s : State} (hk : Keeps s₀ s) : Moves s₀ (execMboxTelem s) :=
  .next (hk.mboxRun (fun _ hk => hk.rest.mboxAnswer))

theorem Moves.mboxState {s : State} (hk : Keeps s₀ s) : Moves s₀ (execMboxState s) :=
  .next (hk.mboxRun (fun _ hk => hk.mboxAnswer))

theorem Moves.mboxUnknownOpcode {s : State} (hk : Keeps s₀ s) : Moves s₀ (execMboxUnknownOpcode s) :=
  .next (hk.mboxRun (fun _ hk => hk.mboxAnswer))

theorem Keeps.mboxRelease {s : State} (hk : Keeps s₀ s) : Keeps s₀ s.mboxRelease := hk.setFld'

theorem Moves.mboxRelease {s : State} (hk : Keeps s₀ s) {r : Req} : Moves s₀ (execMboxRelease r s) :=
  .next (hk.guardW (fun hk => hk.mboxRelease))

/-! ### Sec -/
theorem Keeps.secStart {s : State} (hk : Keeps s₀ s) {op tag : Nat} : Keeps s₀ (s.secStart op tag) := hk.rest.setFld'

theorem Keeps.writeSecCmd {s : State} (hk : Keeps s₀ s) {r : Req} {op tag : Nat} : Keeps s₀ (s.writeSecCmd r op tag) :=
  hk.guardW (fun hk => .either hk (.either hk.setFld' hk.secStart))

theorem Keeps.setKeyHash {s : State} (hk : Keeps s₀ s) {slot : Nat} {l : List Byte} : Keeps s₀ (s.setKeyHash slot l) := hk.setDigest

theorem Keeps.setKeySlot {s : State} (hk : Keeps s₀ s) {slot x : Nat} : Keeps s₀ (s.setKeySlot slot x) := hk.setFld'

theorem Keeps.secAct {s : State} (hk : Keeps s₀ s) {x : SecOp} {burnOk : Bool} : Keeps s₀ (s.secAct x burnOk).1 := by
  unfold State.secAct
  extract_lets +onlyGivenNames -merge fail
  split
  · split
    · exact hk.setKeyHash.setKeySlot
    · exact hk.setKeySlot.setFld'
  · split
    · exact hk.setKeySlot
    · exact hk.setKeySlot.setFld'
  · extract_lets +onlyGivenNames -merge s1
    split
    · exact hk.setFld'.rest
    · exact hk.setFld'.setFld'
  · split
    · exact hk.writeMem
    · exact hk

theorem Keeps.runWaiting {s : State} (hk : Keeps s₀ s) {l : List SecWait} : Keeps s₀ (s.runWaiting l) := by
  unfold State.runWaiting
  refine hk.foldl' (fun _ _ hk => ?_)
  split
  · exact hk.stageCmd
  · exact hk.penCmd
  · exact hk.libInstall

theorem Moves.secCommandDone {s : State} (hk : Keeps s₀ s) {burnOk : Bool} : Moves s₀ (execSecCommandDone burnOk s) := by
  unfold execSecCommandDone
  refine .next ?_
  split
  · exact hk
  · extract_lets +onlyGivenNames -merge y s1 s2
    have hy : Keeps s₀ y.1 := by
      unfold y
      split
      · exact hk.secAct
      · exact hk
    exact hy.setFld'.setFld'.setFld'.setFld'.showKeyState.rest.runWaiting

/-! ### StepRate -/
theorem Moves.stepRateWindow {s : State} (hk : Keeps s₀ s) {rate : BitVec 16} : Moves s₀ (execStepRateWindow rate s) := by
  unfold execStepRateWindow
  refine .next ?_
  extract_lets +onlyGivenNames -merge n s1 s2 _ seen s3
  have hseen : Keeps s₀ seen := hk.setFld'.wrapAdd'.setFld'.rest
  have hs3 : Keeps s₀ s3 := .either hseen.setFld' hseen
  exact .either (hs3.withCause' (fun hk => hk.setFld')) hs3

theorem Keeps.readStepRate {s : State} (hk : Keeps s₀ s) {r : Req} {h : Half} : Keeps s₀ (s.readStepRate r h) :=
  hk.guardR (fun hk => hk.answer'.clearRC')

/-! ### Bus -/
theorem Keeps.plainWrite {s : State} (hk : Keeps s₀ s) {r : Req} {off : Nat} {h : Half} {v : Word} : Keeps s₀ (s.plainWrite r off h v) :=
  hk.guardW (fun hk => hk.writeFields')

theorem Keeps.unmasked {s : State} (hk : Keeps s₀ s) {v : Nat} : Keeps s₀ (s.unmasked v) :=
  .either hk.setPba'.sendVec' hk

theorem Keeps.unmaskedAll {s : State} (hk : Keeps s₀ s) : Keeps s₀ s.unmaskedAll :=
  hk.foldl' (fun _ _ hk => hk.unmasked)

theorem Keeps.setMsix {s : State} (hk : Keeps s₀ s) {k : Nat} {w : Word} : Keeps s₀ (s.setMsix k w) := hk.rest

theorem Keeps.writeMsix {s : State} (hk : Keeps s₀ s) {k : Nat} {h : Half} {v : Word} : Keeps s₀ (s.writeMsix k h v) := hk.setMsix.unmasked

theorem Keeps.writeIrqMask {s : State} (hk : Keeps s₀ s) {r : Req} {h : Half} {v : Word} : Keeps s₀ (s.writeIrqMask r h v) :=
  hk.guardW (fun hk => hk.writeFields'.foldl' (fun _ _ hk => .either hk.raiseVec' hk))

theorem Keeps.busGlb {s : State} (hk : Keeps s₀ s) {r : Req} {off : Nat} {h : Half} {v : Word} : Keeps s₀ (s.busGlb r off h v) :=
  .either hk.writeIrqMask (.either hk.writeFabCmd hk.plainWrite)

theorem Keeps.busTime {s : State} (hk : Keeps s₀ s) {r : Req} {off : Nat} {h : Half} {v : Word} : Keeps s₀ (s.busTime r off h v) := by
  unfold State.busTime
  refine .either hk.writeTimeStep ?_
  refine .either hk.writeTimeRate (.either hk.writeTimeCtl (.either hk.writeAltCtl (.either hk.writeAltRate (.either hk.writeAltOffset ?_))))
  split
  · exact hk.writeCmpArm
  · exact hk.plainWrite

theorem Keeps.writePortCtl {s : State} (hk : Keeps s₀ s) {p : Nat} {r : Req} {h : Half} {v : Word} : Keeps s₀ (s.writePortCtl p r h v) :=
  hk.guardW (fun hk => .either hk (.either hk.camDisable hk.camEnable.setBit'))

theorem Keeps.busImg {s : State} (hk : Keeps s₀ s) {r : Req} {off : Nat} {h : Half} {v : Word} : Keeps s₀ (s.busImg r off h v) := by
  unfold State.busImg
  split
  · exact hk.writePortCtl
  · split
    · exact hk.writeRelease
    · exact hk.plainWrite

theorem Keeps.writeInject {s : State} (hk : Keeps s₀ s) {n : Nat} {r : Req} {h : Half} {v : Word} : Keeps s₀ (s.writeInject n r h v) :=
  hk.guardW (fun hk => .either hk.setCore hk)

theorem Keeps.busCore {s : State} (hk : Keeps s₀ s) {r : Req} {off : Nat} {h : Half} {v : Word} : Keeps s₀ (s.busCore r off h v) := by
  unfold State.busCore
  split
  · exact hk.guardW (fun hk => .either hk.writeFields'.setFld' hk.writeFields')
  · split
    · exact hk.writeInject
    · exact hk.plainWrite

theorem Keeps.busSpd {s : State} (hk : Keeps s₀ s) {r : Req} {off : Nat} {h : Half} {v : Word} : Keeps s₀ (s.busSpd r off h v) := by
  unfold State.busSpd
  split
  · exact hk.ownerWrite
  · split
    · exact hk.pwrWrite
    · exact hk.plainWrite

theorem Keeps.busKv {s : State} (hk : Keeps s₀ s) {r : Req} {off : Nat} {h : Half} {v : Word} : Keeps s₀ (s.busKv r off h v) :=
  .either (hk.guardW (fun hk => .either hk.writeFields' hk.writeFields'.setFld')) hk.plainWrite

theorem Keeps.writeGroupCtl {s : State} (hk : Keeps s₀ s) {g : Nat} {r : Req} {h : Half} {v : Word} : Keeps s₀ (s.writeGroupCtl g r h v) :=
  .either hk (.either hk.groupDisable (hk.groupEnable.guardW (fun hk => hk.setBit')))

theorem Keeps.busCtl {s : State} (hk : Keeps s₀ s) {r : Req} {off : Nat} {h : Half} {v : Word} : Keeps s₀ (s.busCtl r off h v) := by
  unfold State.busCtl
  refine .either hk.writeTrace ?_
  split
  · exact hk.writeGroupCtl
  · split
    · exact hk.writeSlotIn
    · exact hk.plainWrite

theorem Keeps.writeCanCtl {s : State} (hk : Keeps s₀ s) {k : Nat} {r : Req} {h : Half} {v : Word} : Keeps s₀ (s.writeCanCtl k r h v) := by
  unfold State.writeCanCtl
  refine hk.guardW (fun hk => (.either hk ?_))
  extract_lets +onlyGivenNames -merge s1
  have hs1 : Keeps s₀ s1 := .either hk.canRecover hk
  exact .either hs1.draw.canDisable hs1.canEnable.setBit'

theorem Keeps.busCan {s : State} (hk : Keeps s₀ s) {r : Req} {off : Nat} {h : Half} {v : Word} : Keeps s₀ (s.busCan r off h v) :=
  .either
    hk.plainWrite
    (.either
      hk.writeCanCtl
      (.either hk.plainWrite (.either (hk.guardW (fun hk => hk.draw.writeMbCtrl)) (hk.guardW (fun hk => .either hk hk.writeFields')))))

theorem Keeps.writeQueCtl {s : State} (hk : Keeps s₀ s) {q : Nat} {r : Req} {h : Half} {v : Word} : Keeps s₀ (s.writeQueCtl q r h v) := by
  unfold State.writeQueCtl
  refine .either hk ?_
  extract_lets +onlyGivenNames -merge s1
  have hs1 : Keeps s₀ s1 := hk.guardW (fun hk => .either hk.setFld' hk)
  exact .either hs1.queueDisable (hs1.queueEnable.guardW (fun hk => hk.setBit'))

theorem Keeps.busQue {s : State} (hk : Keeps s₀ s) {r : Req} {off : Nat} {h : Half} {v : Word} : Keeps s₀ (s.busQue r off h v) :=
  .either hk.writeDoorbell (.either hk.writeQueCtl (hk.guardW (fun hk => .either hk.writeFields' hk)))

theorem Keeps.busHbm {s : State} (hk : Keeps s₀ s) {r : Req} {off : Nat} {h : Half} {v : Word} : Keeps s₀ (s.busHbm r off h v) :=
  .either hk.retireReq (.either hk.retrainWrite hk.plainWrite)

theorem Keeps.writeRecCtl {s : State} (hk : Keeps s₀ s) {r : Req} {h : Half} {v : Word} : Keeps s₀ (s.writeRecCtl r h v) :=
  hk.guardW (fun hk => .either hk.writeFields'.setReg'.rest hk.writeFields')

theorem Keeps.writeReplayCtl {s : State} (hk : Keeps s₀ s) {r : Req} {h : Half} {v : Word} : Keeps s₀ (s.writeReplayCtl r h v) :=
  hk.guardW (fun hk => .either hk.writeFields'.setFld'.setReg'.rest hk.writeFields')

theorem Keeps.busDet {s : State} (hk : Keeps s₀ s) {r : Req} {off : Nat} {h : Half} {v : Word} : Keeps s₀ (s.busDet r off h v) := by
  unfold State.busDet
  refine .either (hk.guardW (fun hk => hk.writeFields'.setFld')) (.either (.either hk.enumWrite hk) ?_)
  refine .either hk.writeLaunchCtl (.either hk.writeLsCfg (.either hk.writeRecCtl (.either hk.writeReplayCtl ?_)))
  split
  · exact hk.writeFeed
  · exact hk.plainWrite

theorem Keeps.writeTestCopy {s : State} (hk : Keeps s₀ s) {r : Req} {off : Nat} {h : Half} {v : Word} : Keeps s₀ (s.writeTestCopy r off h v) :=
  hk.guardW (fun hk => .either hk.setTestCopy hk.setTestCopy)

theorem Keeps.busFlt {s : State} (hk : Keeps s₀ s) {r : Req} {off : Nat} {h : Half} {v : Word} : Keeps s₀ (s.busFlt r off h v) := by
  unfold State.busFlt
  extract_lets +onlyGivenNames -merge w
  refine .either hk.plAck (.either (.either hk (.either hk.plForce.plClearFirst hk.plForce)) ?_)
  refine .either (.either hk.furlWrite hk) (.either hk.testReq (.either hk.writeTestCopy (.either (.either hk.writePenCmd hk) ?_)))
  split
  · exact hk.writeInbox
  · exact hk.plainWrite

theorem Keeps.busPwr {s : State} (hk : Keeps s₀ s) {r : Req} {off : Nat} {h : Half} {v : Word} : Keeps s₀ (s.busPwr r off h v) := by
  unfold State.busPwr
  extract_lets +onlyGivenNames -merge w
  refine .either hk.writePwrCfg (.either hk.writePwrVdd (.either hk.writePwrTherm (.either (.either hk.warmWrite hk) (.either hk.writeSecCmd ?_))))
  split
  · exact hk.writeBmax
  · exact hk.plainWrite

theorem Keeps.busMgt {s : State} (hk : Keeps s₀ s) {r : Req} {off : Nat} {h : Half} {v : Word} : Keeps s₀ (s.busMgt r off h v) := by
  unfold State.busMgt
  refine .either (hk.guardW (fun hk => hk.writeMsix)) ?_
  refine .either (hk.guardW (fun hk => hk.writeMboxIn)) (.either (hk.guardW (fun hk => .either hk.mboxRelease hk)) ?_)
  split
  · exact hk.guardW (fun hk => .either hk hk.writeFields')
  · exact hk.plainWrite

theorem Keeps.busWrite {s : State} (hk : Keeps s₀ s) {r : Req} {off : Nat} {h : Half} {v : Word} : Keeps s₀ (s.busWrite r off h v) := by
  unfold State.busWrite
  refine .either hk ?_
  split
  · exact hk.busGlb
  · exact hk.busGlb
  · exact hk.busTime
  · exact hk.busImg
  · exact hk.busCore
  · exact hk.busSpd
  · exact hk.busKv
  · exact hk.busCtl
  · exact hk.busCan
  · exact hk.busQue
  · exact hk.busQue
  · exact hk.busQue
  · exact hk.busQue
  · exact hk.busHbm
  · exact hk.busDet
  · exact hk.busFlt
  · exact hk.busPwr
  · exact hk.busMgt
  · exact hk.plainWrite

theorem Keeps.plainRead {s : State} (hk : Keeps s₀ s) {r : Req} {off : Nat} {h : Half} : Keeps s₀ (s.plainRead r off h) :=
  hk.guardR (fun hk => hk.answer'.clearRC')

theorem Keeps.busRead {s : State} (hk : Keeps s₀ s) {r : Req} {off : Nat} {h : Half} : Keeps s₀ (s.busRead r off h) := by
  unfold State.busRead
  refine .either hk (.either hk.readTimeNow (.either hk.readHalState ?_))
  split
  · exact hk.readEvtStamp
  · exact .either hk.readQueSeq (.either hk.readQueRing hk.plainRead)

/-- What comes after an output holds more than what came before it. -/
theorem Keeps.longer {s t u : State} {o : Output} (hk : Keeps s t) (hu : Keeps (t.emit o) u) : s.out.length < u.out.length :=
  calc s.out.length ≤ t.out.length := hk.out.length_le
    _ < (t.emit o).out.length := by simp [State.emit]
    _ ≤ u.out.length := hu.out.length_le

theorem State.guardR_longer {s : State} {r : Req} {off : Nat} {h : Half} {f : State → State} (hf : s.out.length < (f s).out.length) :
    s.out.length < (s.guardR r off h f).out.length := by
  unfold State.guardR
  split_ifs
  · exact (Keeps.refl s).longer (.refl _)
  · exact (Keeps.refl s).longer (.refl _)
  · exact (Keeps.refl s).longer (.refl _)
  · exact hf
  · exact (Keeps.refl s).refuseAccess.longer (.refl _)

/-- A read of a register at an aligned offset puts an answer out, whatever the register. -/
theorem State.busRead_longer {s : State} {r : Req} {off : Nat} {h : Half} (ho : off % 8 = 0) : s.out.length < (s.busRead r off h).out.length := by
  have hs := Keeps.refl s
  unfold State.busRead
  rw [if_neg (not_not.mpr ho)]
  split_ifs
  · exact guardR_longer (hs.rest.longer (.refl _))
  · refine guardR_longer ?_
    cases h
    · exact hs.longer (.refl _)
    · exact hs.rest.longer (.refl _)
    · exact hs.rest.longer (.refl _)
  split
  · refine guardR_longer ?_
    split
    · exact hs.longer (.refl _)
    · exact hs.setEvtFifo.longer (.refl _)
  · dsimp only
    split_ifs
    · exact guardR_longer (hs.rest.longer (.refl _))
    · refine guardR_longer ?_
      dsimp only
      split
      · exact hs.rest.longer (.refl _)
      · exact hs.longer (.refl _)
    · exact guardR_longer (hs.longer (Keeps.refl _).clearRC')

/-- A read on behalf of a block takes its own answer out again, and no output from before. -/
theorem Keeps.busGet {s : State} (hk : Keeps s₀ s) {r : Req} {off : Nat} {h : Half} (ho : off % 8 = 0) : Keeps s₀ (s.busGet r off h).2 := by
  obtain ⟨hwf, hpending, hout, hfree, hfailed⟩ := hk.busRead (r := r) (off := off) (h := h)
  have hcut : s₀.out <+: (s.busRead r off h).out.dropLast := by
    refine List.prefix_of_prefix_length_le hout (List.dropLast_prefix _) ?_
    have hlonger := State.busRead_longer (s := s) (r := r) (h := h) ho
    have hlen := hk.out.length_le
    rw [List.length_dropLast]
    omega
  unfold State.busGet
  dsimp only
  split
  · exact ⟨hwf, hpending, hcut, hfree, hfailed⟩
  · exact ⟨hwf, hpending, hcut, hfree, hfailed⟩

theorem Keeps.mirrorRead {s : State} (hk : Keeps s₀ s) {r : Req} {off n fuel : Nat} : Keeps s₀ (s.mirrorRead r off n fuel).2 := by
  induction fuel generalizing s r off n with
  | zero => exact hk
  | succ fuel ih =>
    unfold State.mirrorRead
    split_ifs with hn h8 h4 hlow
    · exact hk
    · exact ih (hk.busGet h8.1)
    · exact ih (hk.busGet hlow)
    · exact ih (hk.busGet (by omega))
    · exact ih hk

theorem Keeps.mirrorWrite {s : State} (hk : Keeps s₀ s) {r : Req} {off : Nat} {l : List Byte} {k : Nat} : Keeps s₀ (s.mirrorWrite r off l k) := by
  induction k generalizing s r off l with
  | zero => exact hk
  | succ n ih => exact .either hk (.either (ih hk.busWrite) (.either (ih (.either hk.busWrite hk.busWrite)) (ih hk)))

/-! ### Edge -/
theorem Keeps.endEdge {s : State} (hk : Keeps s₀ s) {q e rows : Nat} {st : BitVec 8} : Keeps s₀ (s.endEdge q e rows st) :=
  hk.endUnit.setFld'.setFld'.wrapAdd'.freeSteps

theorem Keeps.rejectEdge {s : State} (hk : Keeps s₀ s) {q e : Nat} : Keeps s₀ (s.rejectEdge q e) := hk.rejectUnit.setFld'.wrapAdd'

theorem Keeps.edgeFault {s : State} (hk : Keeps s₀ s) {q e canton : Nat} {f : EdgeFault} : Keeps s₀ (s.edgeFault q e canton f) := by
  unfold State.edgeFault
  split
  · exact hk
  · exact hk.setFld'.endEdge
  · exact hk.setFld'.satAdd'.draw.draw.event'.assertLine.endEdge

theorem Keeps.edgeRun {s : State} (hk : Keeps s₀ s) {q op done : Nat} {fault : EdgeFault} {bad : EdgeP → Bool}
    {at' : EdgeP → List Nat → List Nat → List Byte → Nat → Nat → Nat → Nat → EdgeOut} :
    Keeps s₀ (s.edgeRun q op done fault bad at') := by
  unfold State.edgeRun
  refine hk.onUnit (fun _ _ => ?_)
  extract_lets +onlyGivenNames -merge canton g a s1
  refine .either hk (.either hk.setFld'.rejectEdge ?_)
  extract_lets +onlyGivenNames -merge b
  have hb : Keeps s₀ b.2 := hk.setFld'.unitRead
  refine .either hk (.either hb.endEdge ?_)
  extract_lets +onlyGivenNames -merge p conv
  refine .either hb.rejectEdge ?_
  extract_lets +onlyGivenNames -merge fi fo fw od _ id' ir wr total px
  refine .either hb.rejectEdge (.either hb.edgeFault ?_)
  extract_lets +onlyGivenNames -merge ti tw tt s2
  have htt : Keeps s₀ tt.2 := by
    unfold tt
    split
    · exact hb.unitRead
    · exact hb
  have hs2 : Keeps s₀ s2 := htt.noteRuns.noteRuns
  exact .either hk (.either hs2.endEdge (.either hk hs2.drawN.writeRuns.cmdFlags.cmdFmt.endEdge))

/-! ### Transfer -/
theorem Keeps.xferNote {s : State} (hk : Keeps s₀ s) {n : Nat} {write : Bool} {a k : Nat} {fl : BitVec 24} : Keeps s₀
    (s.xferNote n write a k fl) := by
  unfold State.xferNote
  refine .coreFlags ?_
  split
  · exact hk.coreDenied
  · exact hk.coreUnmapped
  · exact hk

theorem Keeps.hostLost {s : State} (hk : Keeps s₀ s) {n a : Nat} : Keeps s₀ (s.hostLost n a) := hk.satAdd'.coreUnmapped

theorem Keeps.xferWrite {s : State} (hk : Keeps s₀ s) {n a : Nat} {l : List Byte} : Keeps s₀ (s.xferWrite n a l).1 := by
  unfold State.xferWrite
  split
  · exact hk.mirrorWrite
  · exact .either hk.hostPost hk.hostLost
  · exact hk.remoteWrite
  · exact .either hk.writeMem hk.writeMem.xferNote

theorem Keeps.xferOld {s : State} (hk : Keeps s₀ s) {n a k : Nat} : Keeps s₀ (s.xferOld n a k).2 := by
  unfold State.xferOld
  split
  · exact hk.draw
  · exact hk.draw
  · exact hk.draw
  · exact hk

theorem Keeps.putCodes {s : State} (hk : Keeps s₀ s) {n w : Nat} {r : Run} {i : Nat} {codes : List Nat} : Keeps s₀ (s.putCodes n w r i codes).1 := by
  unfold State.putCodes
  extract_lets +onlyGivenNames -merge lo e ends hi
  split
  · exact hk.xferWrite
  · exact hk.xferOld.xferWrite

theorem Keeps.xferPut {s : State} (hk : Keeps s₀ s) {n w first e : Nat} {codes : List Nat} {l : List Run} : Keeps s₀
    (s.xferPut n w first codes l e).1 := by
  induction l generalizing s e with
  | nil => exact hk
  | cons r rest ih =>
    unfold State.xferPut
    dsimp only
    split
    · exact ih hk.putCodes
    · exact ih hk

theorem Keeps.xferParts {s : State} (hk : Keeps s₀ s) {n w : Nat} {l : List Run} {l1 : List (Nat × List Nat)} : Keeps s₀
    (s.xferParts n w l l1).1 := by
  induction l1 generalizing s n w l with
  | nil => exact hk
  | cons p rest ih => exact ih hk.xferPut

theorem Keeps.xferGather {s : State} (hk : Keeps s₀ s) {n w limit : Nat} {l : List Run} {k : Nat} : Keeps s₀ (s.xferGather n w limit l k).2 := by
  induction l generalizing s n w limit k with
  | nil => exact hk
  | cons r rest ih =>
    unfold State.xferGather
    split
    · exact hk
    · extract_lets +onlyGivenNames -merge cnt r onward
      split
      · exact ih hk.mirrorRead
      · split
        · exact ih hk
        · exact ih hk.hostLost
      · exact ih hk
      · extract_lets +onlyGivenNames -merge g x s1
        have hs1 : Keeps s₀ s1 := .either hk hk.xferNote
        split
        · exact hs1.noteRead
        · exact ih hs1.noteRead

theorem Keeps.xferBad {s : State} (hk : Keeps s₀ s) {n : Nat} {spad : Bool} : Keeps s₀ (s.xferBad n spad) :=
  .endOnCore (.either hk.coreErr hk)

theorem Keeps.xferIssue {s : State} (hk : Keeps s₀ s) {n : Nat} {dst : List Word} {l : List (Nat × Run)} : Keeps s₀ (s.xferIssue n dst l) := by
  induction l generalizing s n dst with
  | nil => exact hk
  | cons f rest ih => exact ih (.either hk.hostRead hk.remoteRead)

theorem Keeps.xferBeats {s : State} (hk : Keeps s₀ s) {n k : Nat} : Keeps s₀ (s.xferBeats n k) := hk.satAdd'

/-- What the two ends of an XFER operation leave keeps the state before. -/
def KeepsX (s₀ : State) : XRes → Prop
  | .wait => True
  | .done t => Keeps s₀ t
  | .far t => Keeps s₀ t

theorem KeepsX.either {x y : XRes} {p : Prop} [Decidable p] (hx : KeepsX s₀ x) (hy : KeepsX s₀ y) : KeepsX s₀ (if p then x else y) := by
  split
  · exact hx
  · exact hy

theorem KeepsX.xferIllegal {s : State} (hk : Keeps s₀ s) {n : Nat} : KeepsX s₀ (s.xferIllegal n) := hk.coreFmtIllegal

theorem KeepsX.xferCopy {s : State} (hk : Keeps s₀ s) {n : Nat} {dst src : List Word} : KeepsX s₀ (s.xferCopy n dst src) := by
  unfold State.xferCopy
  extract_lets +onlyGivenNames -merge d x
  split
  · refine .either (.xferIllegal hk) ?_
    extract_lets +onlyGivenNames -merge w y z
    refine .either trivial ?_
    extract_lets +onlyGivenNames -merge t
    have ht : Keeps s₀ t := hk.xferGather.xferParts.xferBeats
    split
    · exact ht.xferBad
    · exact .either ht ht.xferIssue
  · exact .xferIllegal hk

theorem KeepsX.xferFill {s : State} (hk : Keeps s₀ s) {n : Nat} {dst : List Word} {pattern : Word} : KeepsX s₀ (s.xferFill n dst pattern) := by
  unfold State.xferFill
  dsimp only
  split
  · exact .xferIllegal hk
  · exact .either trivial hk.xferParts.xferBeats

theorem KeepsX.xferStore {s : State} (hk : Keeps s₀ s) {n w : Nat} {l : List Run} {codes : List Nat} : KeepsX s₀ (s.xferStore n w l codes) :=
  .either trivial hk.xferParts.xferBeats

/-- An operation over a gathered operand keeps what its effect keeps. -/
theorem KeepsX.xferWhole {s : State} (hk : Keeps s₀ s) {n w : Nat} {l : List Run} {op : EngOp} {f : State → List Nat → XRes}
    (hf : ∀ t codes, Keeps s₀ t → KeepsX s₀ (f t codes)) : KeepsX s₀ (s.xferWhole n w l op f).1 := by
  unfold State.xferWhole
  dsimp only
  split
  · exact .either (hf _ _ hk) hk
  · split
    · trivial
    · split
      · exact hk.xferGather.xferBad
      · split
        · exact hf _ _ hk.xferGather
        · exact hk.xferGather.xferIssue

theorem KeepsX.xferIm2col {s : State} (hk : Keeps s₀ s) {n aux : Nat} {dst src : List Word} {op : EngOp} :
    KeepsX s₀ (s.xferIm2col n dst src aux op).1 := by
  unfold State.xferIm2col
  dsimp only
  split
  · split
    · exact .xferIllegal hk
    · exact .xferWhole hk (fun _ _ hk => .xferStore hk)
  · exact .xferIllegal hk

theorem KeepsX.xferZcomp {s : State} (hk : Keeps s₀ s) {n aux : Nat} {dst src : List Word} {op : EngOp} :
    KeepsX s₀ (s.xferZcomp n dst src aux op).1 := by
  unfold State.xferZcomp
  dsimp only
  split
  · exact .xferIllegal hk
  · split
    · exact .xferIllegal hk
    · exact .xferWhole hk (fun _ _ hk => .either trivial hk.xferWrite.xferBeats)

theorem KeepsX.xferZdecomp {s : State} (hk : Keeps s₀ s) {n aux : Nat} {dst src : List Word} {op : EngOp} :
    KeepsX s₀ (s.xferZdecomp n dst src aux op).1 := by
  unfold State.xferZdecomp
  dsimp only
  split
  · exact .xferIllegal hk
  · split
    · exact .xferIllegal hk
    · exact .xferWhole hk (fun _ _ hk => .either hk.coreFlags (.xferStore (.either hk.coreFlags hk)))

theorem KeepsX.xferOp {s : State} (hk : Keeps s₀ s) {n : Nat} {op : EngOp} : KeepsX s₀ (s.xferOp n op).1 := by
  unfold State.xferOp
  dsimp only
  split
  · exact .either hk (.xferCopy hk)
  · exact .xferFill hk
  · exact .xferIm2col hk
  · exact .xferZcomp hk
  · exact .xferZdecomp hk
  · exact hk

theorem Keeps.xferRun {s : State} (hk : Keeps s₀ s) {n : Nat} {op : EngOp} {rest : List EngOp} : Keeps s₀ (s.xferRun n op rest) := by
  unfold State.xferRun
  refine .either hk ?_
  dsimp only
  have hx := KeepsX.xferOp (hk.setCore (n := n) (x := { s.core n with qXfer := rest })) (n := n) (op := op)
  split
  · exact hk
  · rename_i e
    rw [e] at hx
    exact hx
  · rename_i e
    rw [e] at hx
    exact Keeps.setCore hx

theorem Keeps.xferStart {s : State} (hk : Keeps s₀ s) {n opc : Nat} {dst src : BitVec 8} {aux : Nat} : Keeps s₀ (s.xferStart n opc dst src aux) :=
  .either hk hk.xferRun

theorem Keeps.matOp {s : State} (hk : Keeps s₀ s) {n : Nat} {m : MatEng} {op : EngOp} : Keeps s₀ (s.matOp n m op) := by
  unfold State.matOp
  extract_lets +onlyGivenNames -merge x side set row count
  split
  · exact hk.matWload
  · exact hk.matMatmul
  · exact hk.matDrain
  · exact hk.matClear
  · exact hk

theorem Keeps.vecOp {s : State} (hk : Keeps s₀ s) {n : Nat} {op : EngOp} : Keeps s₀ (s.vecOp n op) := by
  unfold State.vecOp
  extract_lets +onlyGivenNames -merge dst a b aux imm rnd fn
  split
  · exact hk.vecAdd
  · exact hk.vecMul
  · exact hk.vecFma
  · exact hk.vecMax
  · exact hk.vecMin
  · exact hk.vecCvt
  · exact hk.vecBquant
  · exact hk.vecFun
  · exact hk.vecFun
  · exact hk.vecFun
  · exact hk.vecFun
  · exact hk.vecFun
  · exact hk.vecFun
  · exact hk.vecFun
  · exact hk.vecRsum
  · exact hk.vecRmax
  · exact hk.vecSmstat
  · exact hk.vecSmlse
  · exact hk.vecNstat
  · exact hk

theorem Moves.engineOperationComplete {s : State} (hk : Keeps s₀ s) {n : Fin 16} {e : Engine} : Moves s₀ (execEngineOperationComplete n e s) := by
  unfold execEngineOperationComplete
  refine .next ?_
  extract_lets +onlyGivenNames -merge k
  refine .either hk ?_
  split
  · exact hk
  · exact hk.xferRun
  · exact .either hk hk.setCore.matOp
  · exact .either hk hk.setCore.matOp
  · exact .either hk hk.setCore.vecOp

theorem Keeps.copyBeats {s : State} (hk : Keeps s₀ s) {q n k : Nat} : Keeps s₀ (s.copyBeats q n k) := hk.updHead.satAdd'

theorem Keeps.copyGather {s : State} (hk : Keeps s₀ s) {n : Nat} {l : List (Nat × Nat × Nat)} : Keeps s₀ (s.copyGather n l).2 := by
  induction l generalizing s with
  | nil => exact hk
  | cons x rest ih =>
    unfold State.copyGather
    extract_lets onward g y s1
    split
    · exact ih hk.mirrorRead
    · split
      · exact ih hk
      · exact ih hk.hostLost
    · exact ih hk
    · have hs1 : Keeps s₀ s1 := .noteRead (.either hk hk.xferNote)
      split
      · exact hs1
      · exact ih hs1

theorem Keeps.copyPut {s : State} (hk : Keeps s₀ s) {n : Nat} {l : List (Nat × List Byte)} : Keeps s₀ (s.copyPut n l).1 := by
  induction l generalizing s n with
  | nil => exact hk
  | cons x rest ih => exact ih hk.xferWrite

theorem Keeps.copyIssue {s : State} (hk : Keeps s₀ s) {q : Nat} {l : List (Nat × Nat × Nat)} : Keeps s₀ (s.copyIssue q l) := by
  induction l generalizing s q with
  | nil => exact hk
  | cons x rest ih => exact ih (.either hk.hostRead hk.remoteRead)

theorem Keeps.onCopy {s : State} (hk : Keeps s₀ s) {q opc : Nat} {f : Cmd → Nat → State} (hf : ∀ c n, Keeps s₀ (f c n)) :
    Keeps s₀ (s.onCopy q opc f) := by
  unfold State.onCopy
  split
  · exact hk
  · split
    · exact hk
    · exact .either (hf _ _) hk

theorem Moves.coreCopy {s : State} (hk : Keeps s₀ s) {q : BitVec 16} {done : Nat} : Moves s₀ (execCoreCopy q done s) := by
  unfold execCoreCopy
  refine .next (hk.onCopy (fun _ _ => ?_))
  extract_lets +onlyGivenNames -merge p
  refine .either (.either hk.endOnCore hk) ?_
  extract_lets +onlyGivenNames -merge d a len nb m beat order x y
  refine .either hk ?_
  extract_lets +onlyGivenNames -merge t
  have ht : Keeps s₀ t := hk.copyGather.copyPut.copyBeats
  split
  · exact ht.xferBad
  · exact .either ht.endOnCore ht.copyIssue

theorem Moves.coreFill {s : State} (hk : Keeps s₀ s) {q : BitVec 16} {done : Nat} : Moves s₀ (execCoreFill q done s) :=
  .next (hk.onCopy (fun _ _ => .either hk hk.copyPut.copyBeats.endOnCore))

theorem Keeps.copyEnd {s : State} (hk : Keeps s₀ s) {q n : Nat} : Keeps s₀ (s.copyEnd q n) :=
  .either hk hk.endOnCore

theorem Keeps.readReturns {s : State} (hk : Keeps s₀ s) {o : OutRead} {data : List Byte} {bad refused : Bool} : Keeps s₀
    (s.readReturns o data bad refused).1 := by
  unfold State.readReturns
  split
  · exact .either hk.takeDescriptor hk
  · exact hk.emit'
  · split
    · exact hk
    · extract_lets +onlyGivenNames -merge n
      split
      · exact hk.endOnCore
      · exact .copyEnd (.copyBeats (.xferWrite (.either hk.coreDenied hk)))
  · split
    · exact hk.endOnCore
    · extract_lets +onlyGivenNames -merge s1
      have hs1 : Keeps s₀ s1 := .either hk.coreDenied hk
      split
      · split
        · exact hs1
        · exact hs1.setCore
      · exact hs1.xferPut.xferBeats

theorem Keeps.dropRead {s : State} (hk : Keeps s₀ s) {o : OutRead} : Keeps s₀ (s.dropRead o) := hk.rest

theorem Keeps.giveRead {s : State} (hk : Keeps s₀ s) {o : OutRead} {data : List Byte} {bad refused : Bool} : Keeps s₀
    (s.giveRead o data bad refused) :=
  .either hk hk.dropRead.readReturns

theorem Moves.chordReadResp {s : State} (hk : Keeps s₀ s) {p : Fin 4} {f : ChordFrame} {refused : Bool} : Moves s₀
    (execChordReadResp p f refused s) := by
  unfold execChordReadResp
  refine .next (hk.chdTake (fun _ hk => ?_))
  split
  · exact hk.satAdd'
  · exact hk.giveRead

theorem Moves.remoteTimeout {s : State} (hk : Keeps s₀ s) {tseq : BitVec 16} : Moves s₀ (execRemoteTimeout tseq s) := by
  unfold execRemoteTimeout
  refine .next ?_
  extract_lets +onlyGivenNames -merge limit
  split
  · exact hk
  · extract_lets +onlyGivenNames -merge s1
    split
    · exact hk.dropRead
    · exact hk.dropRead.emit'
    · split
      · exact hk.dropRead
      · exact hk.dropRead.cmdStatus.copyEnd
    · split
      · exact hk.dropRead.cmdStatus
      · exact hk.dropRead

theorem Moves.hostReadCompletion {s : State} (hk : Keeps s₀ s) {data : List Byte} {ok : Bool} : Moves s₀ (execHostReadCompletion data ok s) := by
  unfold execHostReadCompletion
  refine .next ?_
  split
  · exact hk
  · exact hk.giveRead

theorem Moves.completionTimeout {s : State} (hk : Keeps s₀ s) : Moves s₀ (execCompletionTimeout s) := by
  unfold execCompletionTimeout
  refine .next ?_
  split
  · exact hk
  · exact hk.giveRead

theorem Keeps.chdDenied {s : State} (hk : Keeps s₀ s) {p : Nat} : Keeps s₀ (s.chdDenied p) := hk.satAdd'

theorem Moves.chordRead {s : State} (hk : Keeps s₀ s) {p : Fin 4} {f : ChordFrame} : Moves s₀ (execChordRead p f s) := by
  unfold execChordRead
  refine .next (hk.chdTake (fun _ hk => ?_))
  extract_lets +onlyGivenNames -merge n off a g answer
  split
  · exact .either hk.mirrorRead.chdSend hk.chdDenied.chdSend
  · exact hk.chdSend
  · exact .chdSend (.noteRead (.either hk hk.chdDenied))

theorem Moves.chordWrite {s : State} (hk : Keeps s₀ s) {p : Fin 4} {f : ChordFrame} : Moves s₀ (execChordWrite p f s) := by
  unfold execChordWrite
  refine .next (hk.chdTake (fun _ hk => ?_))
  extract_lets +onlyGivenNames -merge off a g l
  split
  · exact .either hk.mirrorWrite hk.chdDenied
  · exact hk
  · extract_lets +onlyGivenNames -merge y
    have hy : Keeps s₀ y.state := hk.writeMem
    refine .either ?_ hk.chdDenied
    split
    · exact hy.addPoison
    · refine hy.foldl' (fun _ _ hk => ?_)
      split
      · exact hk.setEcc
      · exact hk
    · exact hy

theorem Moves.contextRestoreDone {s : State} (hk : Keeps s₀ s) {n : Fin 16} : Moves s₀ (execContextRestoreDone n s) := by
  unfold execContextRestoreDone
  refine .next ?_
  extract_lets +onlyGivenNames -merge k
  split
  · exact hk
  · split
    · exact hk.setCore.setSaved.foldl' (fun _ _ hk => hk.remoteRead)
    · exact hk

/-! ### HostPort -/
theorem Moves.bar0BadAccess {s : State} (hk : Keeps s₀ s) {write : Bool} : Moves s₀ (execBar0BadAccess write s) :=
  .next (.either (.either hk hk.emit') (.either hk.setFld' hk.setFld'.emit'))

theorem Keeps.bar2Remote {s : State} (hk : Keeps s₀ s) {x a k k1 : Nat} : Keeps s₀ (s.bar2Remote x a k k1) := by
  induction k1 generalizing s x a k with
  | zero => exact hk
  | succ n ih => exact .either hk (ih hk.remoteRead)

theorem Moves.bar2Read {s : State} (hk : Keeps s₀ s) {x : BitVec 32} {len : BitVec 13} : Moves s₀ (execBar2Read x len s) := by
  unfold execBar2Read
  refine .next ?_
  extract_lets +onlyGivenNames -merge n a
  refine .either hk.emit' ?_
  split
  · split
    · exact (hk.busGet (Nat.mul_mod_left ..)).emit'
    · exact hk.setFld'.emit'
  · exact hk.bar2Remote
  · exact hk.emit'
  · exact hk.emit'
  · exact hk.noteRead.emit'

theorem Moves.bar2Write {s : State} (hk : Keeps s₀ s) {x : BitVec 32} {bytes : List Byte} : Moves s₀ (execBar2Write x bytes s) := by
  unfold execBar2Write
  refine .next ?_
  extract_lets +onlyGivenNames -merge l a
  refine .either hk ?_
  split
  · split
    · exact hk.busWrite
    · exact hk.setFld'
  · exact hk.remoteWrite
  · exact hk
  · exact hk
  · exact .either hk.satAdd' hk.writeMem
  · exact hk.writeMem

theorem Moves.msixUnmask {s : State} (hk : Keeps s₀ s) {vec : Option (Fin 2048)} : Moves s₀ (execMsixUnmask vec s) := by
  unfold execMsixUnmask
  refine .next ?_
  split
  · exact hk.setMsix.unmasked
  · exact hk.rest.unmaskedAll

theorem Keeps.sendWaiting {s : State} (hk : Keeps s₀ s) : Keeps s₀ s.sendWaiting :=
  .either (hk.rest.foldl' (fun _ _ hk => .either hk.setPba' hk.sendVec')) hk

theorem Moves.pcieLinkUp {s : State} (hk : Keeps s₀ s) : Moves s₀ (execPcieLinkUp s) :=
  .next hk.setFld'.sendWaiting

theorem Keeps.lostRead {s : State} (hk : Keeps s₀ s) {o : OutRead} : Keeps s₀ (s.lostRead o) := by
  unfold State.lostRead
  extract_lets +onlyGivenNames -merge s1 s2
  have hs2 : Keeps s₀ s2 := by
    unfold s2
    split
    · exact hk.satAdd'.coreUnmapped
    · split
      · exact hk.satAdd'.coreUnmapped
      · exact hk.satAdd'
    · exact hk.satAdd'
  exact hs2.readReturns

theorem Keeps.linkLost {s : State} (hk : Keeps s₀ s) : Keeps s₀ s.linkLost :=
  hk.rest.setFld'.foldl' (fun _ _ hk => hk.lostRead)

theorem Moves.perstAssert {s : State} (hk : Keeps s₀ s) : Moves s₀ (execPerstAssert s) :=
  .next hk.linkLost.rest

theorem Moves.pcieConfigWrite {s : State} (hk : Keeps s₀ s) {w : CfgWrite} : Moves s₀ (execPcieConfigWrite w s) := by
  unfold execPcieConfigWrite
  refine .next (.either hk ?_)
  split
  · exact hk.rest.sendWaiting
  · exact hk.rest.sendWaiting
  · exact hk.rest.unmaskedAll

/-! ### TimeFire -/
theorem Keeps.stepReaches {s : State} (hk : Keeps s₀ s) {d : Int} : Keeps s₀ (s.stepReaches d) := hk.rest.actStepped

theorem Keeps.tickStep {s : State} (hk : Keeps s₀ s) : Keeps s₀ s.tickStep := by
  unfold State.tickStep
  refine .either ?_ hk
  split
  · exact hk.tickTime.stepReaches
  · exact hk.tickTime

theorem Moves.timeTick {s : State} (hk : Keeps s₀ s) : Moves s₀ (execTimeTick s) :=
  .next (.plumbTick (.recFlush (hk.tickStep.rest.foldl' (fun _ _ hk => hk.refill))))

theorem Keeps.convPulse {s : State} (hk : Keeps s₀ s) {q : Nat} : Keeps s₀ (s.convPulse q) :=
  .either hk.rest hk

theorem Keeps.fireTarget {s : State} (hk : Keeps s₀ s) {kind idx : Nat} {stamp : Word} : Keeps s₀ (s.fireTarget kind idx stamp) := by
  unfold State.fireTarget
  split
  · exact hk.convPulse
  · exact hk.groupFire
  · exact .either hk.camArm hk
  · exact hk.withCause' (fun hk => hk.setReg')
  · exact hk

theorem Keeps.fireOnce {s : State} (hk : Keeps s₀ s) {kind idx : Nat} {stamp : Word} : Keeps s₀ (s.fireOnce kind idx stamp) :=
  .either hk hk.rest.fireTarget

theorem Moves.timeCompareFire {s : State} (hk : Keeps s₀ s) {n : Fin 64} : Moves s₀ (execTimeCompareFire n s) := by
  unfold execTimeCompareFire
  refine .next ?_
  split
  · exact hk
  · exact hk.cmpFired.fireOnce

theorem Moves.convStartPulseEnd {s : State} (hk : Keeps s₀ s) {q : Fin 16} : Moves s₀ (execConvStartPulseEnd q s) := by
  unfold execConvStartPulseEnd
  refine .next ?_
  split
  · exact .either hk.rest hk
  · exact hk

theorem Keeps.capture {s : State} (hk : Keeps s₀ s) {k : Nat} {rising : Bool} {w : Word} : Keeps s₀ (s.capture k rising w) :=
  hk.record.evtPush.rest

theorem Moves.eventCapture {s : State} (hk : Keeps s₀ s) {k : Fin 17} {rising : Bool} {sampled : Word} : Moves s₀
    (execEventCapture k rising sampled s) :=
  .next (.either (hk.liveInput (fun hk => hk.capture)) hk)

/-! ### Replay -/
theorem Keeps.inject {s : State} (hk : Keeps s₀ s) {e : LogEntry} {w : Word} : Keeps s₀ (s.inject e w) := by
  unfold State.inject
  extract_lets +onlyGivenNames -merge vc
  split
  · exact .either hk.camFrameStart hk
  · exact .either hk.camLine hk
  · exact .either hk.camFrameEnd hk
  · exact .either hk.ethTake hk
  · exact .either hk.canFilter hk
  · exact hk.rest
  · exact .either hk.capture hk
  · exact hk

theorem Keeps.replayNext {s : State} (hk : Keeps s₀ s) {p len : Nat} : Keeps s₀ (s.replayNext p len) :=
  .either hk.setReg'.setFld' hk.setReg'

theorem Keeps.replayLate {s : State} (hk : Keeps s₀ s) {due : Word} : Keeps s₀ (s.replayLate due) :=
  .either hk.satAdd' hk

theorem Keeps.replayEntry {s : State} (hk : Keeps s₀ s) {p len : Nat} : Keeps s₀ (s.replayEntry p len) := by
  unfold State.replayEntry
  extract_lets +onlyGivenNames -merge e due early p'
  refine .either (.either hk hk.satAdd'.replayNext) ?_
  split
  · exact hk.replayNext
  · exact .either hk.replayNext (.either hk hk.replayLate.inject.replayNext)

theorem Moves.replayInject {s : State} (hk : Keeps s₀ s) : Moves s₀ (execReplayInject s) :=
  .next (.either hk (.either hk.setFld' hk.replayEntry))

/-! ### Every command -/

/-- Every command answers a next state that keeps the one before. -/
theorem Moves.exec {s : State} (hk : Keeps s₀ s) {c : Instr} : Moves s₀ (exec c s) :=
  match c with
  | .genericRegisterWrite _ _ _ _ => .next hk.busWrite
  | .bar0BadAccess _ => .bar0BadAccess hk
  | .stepRateWindow _ => .stepRateWindow hk
  | .stepRateRead _ _ => .next hk.readStepRate
  | .deadlineExpiry _ => .deadlineExpiry hk
  | .stepBudgetExhausted _ => .stepBudgetExhausted hk
  | .suspendedDeadlinePass _ => .suspendedDeadlinePass hk
  | .fabStage _ _ => .next hk.writeFabCmd
  | .fabStageDone => .fabStageDone hk
  | .fabCommit _ _ => .next hk.writeFabCmd
  | .fabDiscard _ _ => .next hk.writeFabCmd
  | .commitUnitDrainTimeout => .commitUnitDrainTimeout hk
  | .commitDrainDone => .commitDrainDone hk
  | .commitSaveDone => .commitSaveDone hk
  | .commitVerifyDone => .commitVerifyDone hk
  | .commitRebindDone => .commitRebindDone hk
  | .commitResumeDone => .commitResumeDone hk
  | .timeTick => .timeTick hk
  | .timeNowRead _ _ => .next hk.readTimeNow
  | .timeStepWrite _ _ _ => .next hk.writeTimeStep
  | .timeRateWrite _ _ _ => .next hk.writeTimeRate
  | .timeCtlNewSession _ => .timeCtlNewSession hk
  | .timeCtlDeclareValid _ => .timeCtlDeclareValid hk
  | .timeCtlEndHoldover _ => .timeCtlEndHoldover hk
  | .timeCtlSwitchAlt _ => .timeCtlSwitchAlt hk
  | .timeAltCtlWrite _ _ _ => .next hk.writeAltCtl
  | .timeAltRateWrite _ _ _ => .next hk.writeAltRate
  | .timeAltOffsetWrite _ _ _ => .next hk.writeAltOffset
  | .syncLossTimeout => .syncLossTimeout hk
  | .refLoss => .refLoss hk
  | .refReturn => .next hk.setFld'
  | .ppsOutRise => .ppsOutRise hk
  | .ppsOutFall => .ppsOutFall hk
  | .timeCompareFire _ => .timeCompareFire hk
  | .convStartPulseEnd _ => .convStartPulseEnd hk
  | .timeCmpArmWrite _ _ _ _ => .next hk.writeCmpArm
  | .eventCapture _ _ _ => .eventCapture hk
  | .timeEvtStampRead _ _ _ => .next hk.readEvtStamp
  | .csi2FrameStart _ _ => .csi2FrameStart hk
  | .csi2LinePacket _ _ _ _ _ _ _ => .csi2LinePacket hk
  | .csi2FrameEnd _ _ _ => .csi2FrameEnd hk
  | .csi2FrameEndTimeout _ _ => .csi2FrameEndTimeout hk
  | .sampleRecordWrite _ => .sampleRecordWrite hk
  | .imgSrcRelease _ _ _ _ => .next hk.writeRelease
  | .imgPortDisable _ _ _ => .imgPortDisable hk
  | .imgPortEnable _ _ => .imgPortEnable hk
  | .portDisableDrainTimeout _ => .portDisableDrainTimeout hk
  | .carrierDatagram _ _ _ => .carrierDatagram hk
  | .reassemblyTimeout _ _ => .reassemblyTimeout hk
  | .decoderStart _ => .decoderStart hk
  | .decodeComplete _ _ => .decodeComplete hk
  | .decodeBudgetExpiry _ => .decodeBudgetExpiry hk
  | .tokenize _ _ _ => .tokenize hk
  | .coreRun _ => .coreRun hk
  | .coreCopy _ _ => .coreCopy hk
  | .coreFill _ _ => .coreFill hk
  | .bundleIssue _ _ => .bundleIssue hk
  | .yieldPoint _ => .yieldPoint hk
  | .programEnd _ => .programEnd hk
  | .engineOperationComplete _ _ => .engineOperationComplete hk
  | .matWload _ _ _ => .matWload hk
  | .matMatmul _ _ _ _ _ _ _ _ _ => .matMatmul hk
  | .matDrain _ _ _ _ _ _ _ _ => .matDrain hk
  | .matClear _ _ _ _ _ => .matClear hk
  | .vecAdd _ _ _ _ _ _ => .vecAdd hk
  | .vecMul _ _ _ _ _ _ => .vecMul hk
  | .vecFma _ _ _ _ _ _ => .vecFma hk
  | .vecMax _ _ _ _ _ _ => .vecMax hk
  | .vecMin _ _ _ _ _ _ => .vecMin hk
  | .vecCvt _ _ _ src2 _ _ => .vecCvt hk src2
  | .vecBquant _ _ _ src2 imm _ => .vecBquant hk src2 imm
  | .vecExp _ _ _ src2 _ _ => .vecExp hk src2
  | .vecLog _ _ _ src2 _ _ => .vecLog hk src2
  | .vecRecip _ _ _ src2 _ _ => .vecRecip hk src2
  | .vecRsqrt _ _ _ src2 _ _ => .vecRsqrt hk src2
  | .vecTanh _ _ _ src2 _ _ => .vecTanh hk src2
  | .vecSigmoid _ _ _ src2 _ _ => .vecSigmoid hk src2
  | .vecGelu _ _ _ src2 _ _ => .vecGelu hk src2
  | .vecRsum _ _ _ src2 _ _ => .vecRsum hk src2
  | .vecRmax _ _ _ src2 _ _ => .vecRmax hk src2
  | .vecSmstat _ _ _ src2 imm rnd => .vecSmstat hk src2 imm rnd
  | .vecSmlse _ _ _ src2 imm _ => .vecSmlse hk src2 imm
  | .vecNstat _ _ _ src2 imm _ => .vecNstat hk src2 imm
  | .s0Add _ _ _ _ => .s0Add hk
  | .s0Sub _ _ _ _ => .s0Sub hk
  | .s0And _ _ _ _ => .s0And hk
  | .s0Or _ _ _ _ => .s0Or hk
  | .s0Xor _ _ _ _ => .s0Xor hk
  | .s0Shl _ _ _ _ => .s0Shl hk
  | .s0Shr _ _ _ _ => .s0Shr hk
  | .s0Sar _ _ _ _ => .s0Sar hk
  | .s0Mul _ _ _ _ => .s0Mul hk
  | .s0Min _ _ _ _ => .s0Min hk
  | .s0Max _ _ _ _ => .s0Max hk
  | .s0Slt _ _ _ _ => .s0Slt hk
  | .s0Sltu _ _ _ _ => .s0Sltu hk
  | .s0Addi _ _ _ _ => .s0Addi hk
  | .s0Andi _ _ _ _ => .s0Andi hk
  | .s0Ori _ _ _ _ => .s0Ori hk
  | .s0Xori _ _ _ _ => .s0Xori hk
  | .s0Shli _ _ _ _ => .s0Shli hk
  | .s0Shri _ _ _ _ => .s0Shri hk
  | .s0Sari _ _ _ _ => .s0Sari hk
  | .s0Lih _ _ _ _ => .s0Lih hk
  | .s0Exts _ _ _ _ => .s0Exts hk
  | .s0Extu _ _ _ _ => .s0Extu hk
  | .s0Ld _ _ _ _ => .s0Ld hk
  | .s0St _ _ _ _ => .s0St hk
  | .s0Ldf _ _ _ _ => .s0Ldf hk
  | .s0Stf _ _ _ _ => .s0Stf hk
  | .loadDataReturn _ _ => .loadDataReturn hk
  | .s0Beq _ _ _ _ => .s0Beq hk
  | .s0Bne _ _ _ _ => .s0Bne hk
  | .s0Blt _ _ _ _ => .s0Blt hk
  | .s0Bge _ _ _ _ => .s0Bge hk
  | .s0Jmp _ _ => .s0Jmp hk
  | .s0Loop _ _ _ => .s0Loop hk
  | .s0Dset _ _ _ _ => .s0Dset hk
  | .s0Dadd _ _ _ => .s0Dadd hk
  | .s0Dget _ _ _ _ => .s0Dget hk
  | .s0Srstream _ _ => .s0Srstream hk
  | .s1IntegerOp _ _ _ _ _ => .s1IntegerOp hk
  | .s1Fadd _ _ _ _ => .s1Fadd hk
  | .s1Fsub _ _ _ _ => .s1Fsub hk
  | .s1Fmul _ _ _ _ => .s1Fmul hk
  | .s1Fma _ _ _ _ _ => .s1Fma hk
  | .s1Fdiv _ _ _ _ => .s1Fdiv hk
  | .s1Fsqrt _ _ _ => .s1Fsqrt hk
  | .s1Fmin _ _ _ _ => .s1Fmin hk
  | .s1Fmax _ _ _ _ => .s1Fmax hk
  | .s1FcvtFi _ _ _ => .s1FcvtFi hk
  | .s1FcvtIf _ _ _ => .s1FcvtIf hk
  | .s1FcvtFs _ _ _ => .s1FcvtFs hk
  | .s1FcvtSf _ _ _ => .s1FcvtSf hk
  | .s1Fmovfg _ _ _ => .s1Fmovfg hk
  | .s1Fmovgf _ _ _ => .s1Fmovgf hk
  | .s1Fcmplt _ _ _ _ => .s1Fcmplt hk
  | .fp64ResultWrite _ _ => .fp64ResultWrite hk
  | .xferCopy _ _ _ => .next hk.xferStart
  | .xferFill _ _ _ => .next hk.xferStart
  | .xferIm2col _ _ _ _ => .next hk.xferStart
  | .xferZcomp _ _ _ _ => .next hk.xferStart
  | .xferZdecomp _ _ _ _ => .next hk.xferStart
  | .xferScaleBind _ dst _ _ => .xferScaleBind hk dst
  | .coreInjectWrite _ _ _ _ => .next hk.writeInject
  | .bankAccessServe _ _ => .bankAccessServe hk
  | .eccWriteback _ _ => .eccWriteback hk
  | .spdBankOwnerWrite _ _ _ _ => .next hk.ownerWrite
  | .handoverComplete _ => .handoverComplete hk
  | .spdBankPwrWrite _ _ _ _ => .next hk.pwrWrite
  | .bankPowerTransitionDone _ => .bankPowerTransitionDone hk
  | .patrolScrubLine _ => .patrolScrubLine hk
  | .columnRepairLine => .columnRepairLine hk
  | .columnRepairDone => .columnRepairDone hk
  | .edgeConv _ _ _ => .next hk.edgeRun
  | .edgePool _ _ => .next hk.edgeRun
  | .edgeResize _ _ => .next hk.edgeRun
  | .kvOpen _ => .kvOpen hk
  | .kvClose _ _ _ => .kvClose hk
  | .kvAppend _ _ _ => .kvAppend hk
  | .kvFork _ _ _ => .kvFork hk
  | .kvTruncate _ _ _ => .kvTruncate hk
  | .kvScore _ _ _ => .kvScore hk
  | .kvPin _ _ _ => .kvPin hk
  | .kvEvict _ _ _ => .kvEvict hk
  | .kvVerifyCommit _ _ _ => .kvVerifyCommit hk
  | .solveDense _ => .next hk.solve
  | .solveBa _ => .next hk.solve
  | .solverEvalReturn _ => .solverEvalReturn hk
  | .ctlSnapshot _ => .ctlSnapshot hk
  | .ctlEvaluate _ _ => .ctlEvaluate hk
  | .ctlHandoff _ => .ctlHandoff hk
  | .ctlLatch _ => .ctlLatch hk
  | .ctlWriteInputs _ => .ctlWriteInputs hk
  | .ctlSetCoef _ => .ctlSetCoef hk
  | .ctlResetState _ => .ctlResetState hk
  | .ctlTraceRead _ => .ctlTraceRead hk
  | .ctlSlotInWrite _ _ _ _ => .next hk.writeSlotIn
  | .ctlGroupDisable _ _ _ => .next hk.groupDisable
  | .ctlGroupEnable _ _ => .next hk.groupEnable
  | .ctlTraceArm _ _ => .ctlTraceArm hk
  | .ctlTraceForce _ _ => .ctlTraceForce hk
  | .traceConfigWrite _ _ _ _ => .traceConfigWrite hk
  | .sensorFrameComplete _ _ => .sensorFrameComplete hk
  | .sensorNoStartTimeout _ => .sensorNoStartTimeout hk
  | .pwmValley _ => .pwmValley hk
  | .stepPulseCarry _ => .stepPulseCarry hk
  | .canFrameReceived _ _ _ => .canFrameReceived hk
  | .canTxRequest _ _ _ => .canTxRequest hk
  | .canTxAbort _ _ _ _ => .canTxAbort hk
  | .canTxComplete _ _ => .canTxComplete hk
  | .canTxError _ _ => .canTxError hk
  | .canRecover _ _ => .canRecover hk
  | .canRecoveryDone _ => .canRecoveryDone hk
  | .canDisable _ _ _ _ => .canDisable hk
  | .canEnable _ _ => .canEnable hk
  | .canBusIntegrationDone _ => .canBusIntegrationDone hk
  | .ethFrameReceived _ _ _ _ => .ethFrameReceived hk
  | .ethTxFrame _ => .ethTxFrame hk
  | .ethTxDone _ _ => .ethTxDone hk
  | .ethLinkUp _ => .ethLinkUp hk
  | .ethLinkDown _ => .ethLinkDown hk
  | .queDoorbellWrite _ _ _ _ => .next hk.writeDoorbell
  | .descriptorFetch _ => .descriptorFetch hk
  | .commandDispatch _ _ _ => .commandDispatch hk
  | .yieldRemoteTimeout _ => .yieldRemoteTimeout hk
  | .contextSaveDone _ => .contextSaveDone hk
  | .contextRestoreDone _ => .contextRestoreDone hk
  | .quantumExpiry _ => .quantumExpiry hk
  | .commandComplete _ => .next hk.complete
  | .queueDisable _ _ _ => .next hk.queueDisable
  | .queueEnable _ _ => .next hk.queueEnable
  | .queueDrainTimeout _ => .queueDrainTimeout hk
  | .queSeqRead _ _ _ => .next hk.readQueSeq
  | .regulatorAdmit _ _ _ _ => .regulatorAdmit hk
  | .hbmAccess _ => .hbmAccess hk
  | .hbmPatrolScrub _ => .hbmPatrolScrub hk
  | .hbmRetireReqWrite _ _ _ => .next hk.retireReq
  | .hbmRowRetireDone => .hbmRowRetireDone hk
  | .hbmRetrainReq _ _ _ => .next hk.retrainWrite
  | .hbmLinkError _ => .hbmLinkError hk
  | .hbmTempRead _ => .hbmTempRead hk
  | .hbmRetrainDone => .hbmRetrainDone hk
  | .chdEnumerate _ => .next hk.enumWrite
  | .chordEnum _ _ => .chordEnum hk
  | .chordAck _ _ => .chordAck hk
  | .chordNak _ _ => .chordNak hk
  | .chordCredit _ _ => .chordCredit hk
  | .chordTime _ _ _ => .chordTime hk
  | .chordTimeSend => .chordTimeSend hk
  | .chordRead _ _ => .chordRead hk
  | .chordReadResp _ _ _ => .chordReadResp hk
  | .chordWrite _ _ => .chordWrite hk
  | .chordHalyard _ _ => .chordHalyard hk
  | .chordDet _ _ => .chordDet hk
  | .chordSig _ _ => .chordSig hk
  | .chordFrameCorrupt _ _ => .chordFrameCorrupt hk
  | .chordBadKind _ _ => .chordBadKind hk
  | .chordAckTimeout _ => .chordAckTimeout hk
  | .chordLinkDown _ => .chordLinkDown hk
  | .chordLinkUp _ => .chordLinkUp hk
  | .remoteTimeout _ => .remoteTimeout hk
  | .detLaunchArm _ => .next hk.launchArm
  | .detLaunchAbort _ => .next hk.launchAbortWrite
  | .detLaunchRelease _ => .next hk.launchRelease
  | .launchFire => .launchFire hk
  | .launchMarginExpiry => .launchMarginExpiry hk
  | .launchArmedExpiry => .launchArmedExpiry hk
  | .detLsCfgWrite _ _ _ => .next hk.writeLsCfg
  | .detLsFeed _ _ _ _ => .next hk.writeFeed
  | .lockstepLagTimeout _ => .lockstepLagTimeout hk
  | .recordGapEntry => .recordGapEntry hk
  | .replayInject => .replayInject hk
  | .settingsDigestRecompute => .settingsDigestRecompute hk
  | .plbInboxWrite _ _ _ _ => .next hk.writeInbox
  | .plumbFrameStart _ => .plumbFrameStart hk
  | .plumbFrameDeadline _ => .plumbFrameDeadline hk
  | .plumbJudgementEnd _ => .plumbJudgementEnd hk
  | .plumbHwDetect _ => .plumbHwDetect hk
  | .plumbTimeCheck => .plumbTimeCheck hk
  | .plumbFault _ => .next hk.plumbFault
  | .plumbWatchdogTimeout => .next hk.plumbFault
  | .plumbSafetyMessage => .plumbSafetyMessage hk
  | .plumbSafetyRepeat => .plumbSafetyRepeat hk
  | .plbAck _ _ _ => .next hk.plAck
  | .plbForceSafe _ _ => .next hk.plForce
  | .plbClearFirst _ => .next hk.plClearFirst
  | .pennantFrameBoundary => .pennantFrameBoundary hk
  | .pennantRunStart _ _ => .pennantRunStart hk
  | .pennantReportJudge => .pennantReportJudge hk
  | .fuseBurnDone _ => .fuseBurnDone hk
  | .fltCmdFurl _ _ => .next hk.furlWrite
  | .plannedSwapStart _ => .plannedSwapStart hk
  | .swapCopyDone => .swapCopyDone hk
  | .rollingTestNext => .rollingTestNext hk
  | .rollingIntervalExpiry => .next hk.rest
  | .coreTestDone _ _ _ => .coreTestDone hk
  | .fltTestReq _ _ _ => .next hk.testReq
  | .testRequestStart => .testRequestStart hk
  | .testRequestNoSlack => .testRequestNoSlack hk
  | .thermalCalSegmentDone => .thermalCalSegmentDone hk
  | .fltPenInstall _ _ => .next hk.writePenCmd
  | .pennantInstallDone => .pennantInstallDone hk
  | .powerSample _ => .powerSample hk
  | .pwrCfgWrite _ _ _ => .next hk.writePwrCfg
  | .pwrVddWrite _ _ _ => .next hk.writePwrVdd
  | .pwrThermCfgWrite _ _ _ => .next hk.writePwrTherm
  | .pwrDomainBmaxWrite _ _ _ _ => .next hk.writeBmax
  | .vrTransferRetry => .vrTransferRetry hk
  | .brownout => .brownout hk
  | .bar2Read _ _ => .bar2Read hk
  | .bar2Write _ _ => .bar2Write hk
  | .hostReadCompletion _ _ => .hostReadCompletion hk
  | .msixUnmask _ => .msixUnmask hk
  | .glbIrqMaskWrite _ _ _ => .next hk.writeIrqMask
  | .pcieLinkUp => .pcieLinkUp hk
  | .pcieLinkDown => .next hk.linkLost
  | .perstAssert => .perstAssert hk
  | .halyardHello _ => .halyardHello hk
  | .halyardAck _ => .halyardAck hk
  | .halyardLibChunk _ => .halyardLibChunk hk
  | .halyardLibInstall _ => .halyardLibInstall hk
  | .halyardBadRx _ => .halyardBadRx hk
  | .halyardErrorReport => .halyardErrorReport hk
  | .halyardTelemetry _ => .halyardTelemetry hk
  | .halyardRetransmit => .halyardRetransmit hk
  | .halyardAckSend => .halyardAckSend hk
  | .mboxEcho => .mboxEcho hk
  | .mboxSend => .mboxSend hk
  | .mboxTelem => .mboxTelem hk
  | .mboxState => .mboxState hk
  | .mboxRelease _ => .mboxRelease hk
  | .powerOnReset _ => .powerOnReset hk
  | .warmReset _ _ => .warmReset hk
  | .secWarmReset _ _ => .next hk.warmWrite
  | .bootFusesDone _ => .bootFusesDone hk
  | .hbmTrainingDone _ _ => .hbmTrainingDone hk
  | .xspiFetchDone _ => .xspiFetchDone hk
  | .bootApplyDone => .bootApplyDone hk
  | .secProvision _ _ => .next hk.writeSecCmd
  | .secRevoke _ _ => .next hk.writeSecCmd
  | .secFleetSeed _ _ => .next hk.writeSecCmd
  | .secAttest _ _ => .next hk.writeSecCmd
  | .secCommandDone _ => .secCommandDone hk
  | .genericRegisterRead _ _ _ => .next hk.busRead
  | .mgtHalStateRead _ _ => .next hk.readHalState
  | .canRxError _ _ => .canRxError hk
  | .mgtLinkUp => .next hk.setFld'
  | .mgtLinkDown => .next hk.setFld'
  | .pcieConfigWrite _ => .pcieConfigWrite hk
  | .completionTimeout => .completionTimeout hk
  | .chordAckSend _ => .chordAckSend hk
  | .pennantRunDone _ _ _ => .pennantRunDone hk
  | .mboxUnknownOpcode => .mboxUnknownOpcode hk

end Sys2Proof.Machine
end

section
/-! The statements of scope: what no command touches. -/

open Sys2Proof Sys2Proof.Machine

/-- Settles O51: every command answers a next state that keeps the one before (Moves.exec), and Keeps has the five parts. -/
theorem commandsKeepQueueAndOutputs : Obligations.CommandsKeepQueueAndOutputs := by
  unfold Obligations.CommandsKeepQueueAndOutputs
  intro c s t h
  obtain ⟨u, hu, hk⟩ := Moves.exec (Keeps.refl s) (c := c)
  obtain rfl : u = t := Host.Outcome.next.inj (hu.symm.trans h)
  exact ⟨hk.pending, hk.out, hk.free, hk.failed⟩

/-- Settles O48: a step and an idle step by definition, and the answer of every command by Moves.exec. -/
theorem stepRunsTheFrontCommand : Obligations.StepRunsTheFrontCommand := by
  unfold Obligations.StepRunsTheFrontCommand
  refine ⟨fun _ _ _ => rfl, fun c s => ?_, fun s hs => ?_⟩
  · obtain ⟨t, ht, _⟩ := Moves.exec (Keeps.refl s) (c := c)
    exact ⟨t, ht⟩
  · simp [step, hs]

end

section
/-! The state right after reset. -/

namespace Sys2Proof.Machine

/-- Every vector is masked after reset, by its own control word. -/
theorem reset_vecMasked (v : Nat) : State.reset.vecMasked v = true := by
  have hodd : (2 * v + 1) % 2 = 1 := by omega
  simp [State.vecMasked, State.msixWord, State.reset, Store.get, msixReset, hodd]

end Sys2Proof.Machine
end

section
open Sys2Proof Sys2Proof.Machine

/-- Settles O49: nothing is stored right after reset, so every register and every byte shows its default. -/
theorem resetLeavesStatedValues : Obligations.ResetLeavesStatedValues := by
  unfold Obligations.ResetLeavesStatedValues
  exact ⟨by decide, fun _ => rfl, fun _ => rfl, rfl, rfl, rfl, rfl, rfl, by decide, by decide, by decide, by decide, reset_vecMasked, by decide⟩

end

section
/-! Writes that reach no register: of the host while the device does not hear it, and through the mirror to what the mirror only reads. -/

namespace Sys2Proof.Machine

variable {s : State} {r : Req} {off : Nat} {h : Half} {v : Word}

theorem arrIdx_some {R : Nat → Nat} {n i : Nat} (ha : arrIdx off R n = some i) : R i = off := by
  dsimp only [arrIdx] at ha
  split at ha
  next hc => cases ha; exact hc.2.2
  next => cases ha

/-! ### A write that is not heard -/

/-- Only an early block is heard apart from the others (R587). -/
theorem State.hears_congr {a b : Nat} (he : earlyBlock a = earlyBlock b) : s.hears r a = s.hears r b := by
  simp [State.hears, he]

theorem State.guardW_deaf {f : State → State} (hd : s.hears r off = false) : s.guardW r off f = s := by
  simp [State.guardW, hd]

theorem State.busGlb_deaf (hd : s.hears r off = false) : s.busGlb r off h v = s := by
  unfold State.busGlb
  split
  next ho => subst ho; exact State.guardW_deaf hd
  split
  next ho => subst ho; exact State.guardW_deaf hd
  exact State.guardW_deaf hd

theorem State.writeTimeCtl_deaf (hd : s.hears r R.TIME_CTL = false) : s.writeTimeCtl r h v = s := by
  unfold State.writeTimeCtl
  split
  · rfl
  · exact State.guardW_deaf hd

theorem State.busTime_deaf (hd : s.hears r off = false) : s.busTime r off h v = s := by
  unfold State.busTime
  split
  next ho => subst ho; exact State.guardW_deaf hd
  split
  next ho => subst ho; exact State.guardW_deaf hd
  split
  next ho => subst ho; exact State.writeTimeCtl_deaf hd
  split
  next ho => subst ho; exact State.guardW_deaf hd
  split
  next ho => subst ho; exact State.guardW_deaf hd
  split
  next ho => subst ho; exact State.guardW_deaf hd
  split
  next n ha => exact State.guardW_deaf (arrIdx_some ha ▸ hd)
  next => exact State.guardW_deaf hd

theorem State.busImg_deaf (hd : s.hears r off = false) : s.busImg r off h v = s := by
  unfold State.busImg
  split
  next p ha => exact State.guardW_deaf (arrIdx_some ha ▸ hd)
  split
  next k ha => exact State.guardW_deaf (arrIdx_some ha ▸ hd)
  next => exact State.guardW_deaf hd

theorem State.busCore_deaf (hd : s.hears r off = false) : s.busCore r off h v = s := by
  unfold State.busCore
  split
  next => exact State.guardW_deaf hd
  split
  next n ha => exact State.guardW_deaf (arrIdx_some ha ▸ hd)
  next => exact State.guardW_deaf hd

theorem State.busSpd_deaf (hd : s.hears r off = false) : s.busSpd r off h v = s := by
  unfold State.busSpd
  split
  next b ha => exact State.guardW_deaf (arrIdx_some ha ▸ hd)
  split
  next b ha => exact State.guardW_deaf (arrIdx_some ha ▸ hd)
  next => exact State.guardW_deaf hd

theorem State.busKv_deaf (hd : s.hears r off = false) : s.busKv r off h v = s := by
  unfold State.busKv
  split <;> exact State.guardW_deaf hd

theorem State.writeGroupCtl_deaf {g : Nat} (hd : s.hears r (R.CTL_GROUP_CTL g) = false) : s.writeGroupCtl g r h v = s := by
  have hen : s.groupEnable g r = s := State.guardW_deaf hd
  unfold State.writeGroupCtl
  split
  · rfl
  split
  · exact State.guardW_deaf hd
  · rw [hen]; exact State.guardW_deaf hd

theorem State.busCtl_deaf (hd : s.hears r off = false) : s.busCtl r off h v = s := by
  unfold State.busCtl
  split
  · simp [State.writeTrace, hd]
  split
  next g ha => exact State.writeGroupCtl_deaf (arrIdx_some ha ▸ hd)
  split
  next i ha => exact State.guardW_deaf (arrIdx_some ha ▸ hd)
  next => exact State.guardW_deaf hd

theorem State.busCan_deaf (hd : s.hears r off = false) : s.busCan r off h v = s := by
  unfold State.busCan
  extract_lets k m
  split
  · exact State.guardW_deaf hd
  split
  next ho => exact State.guardW_deaf (ho ▸ hd)
  split
  · exact State.guardW_deaf hd
  split <;> exact State.guardW_deaf hd

theorem State.writeQueCtl_deaf {q : Nat} (hd : s.hears r (R.QUE_CTL q) = false) : s.writeQueCtl q r h v = s := by
  have hdis (b : Bool) : s.queueDisable q r b = s := State.guardW_deaf hd
  have hen : s.queueEnable q r = s := State.guardW_deaf hd
  simp [State.writeQueCtl, State.guardW_deaf hd, hdis, hen]

theorem State.busQue_deaf (hd : s.hears r off = false) : s.busQue r off h v = s := by
  unfold State.busQue
  extract_lets q
  split
  next ho => exact State.guardW_deaf (ho ▸ hd)
  split
  next ho => exact State.writeQueCtl_deaf (ho ▸ hd)
  next => exact State.guardW_deaf hd

theorem State.busHbm_deaf (hd : s.hears r off = false) : s.busHbm r off h v = s := by
  unfold State.busHbm
  split
  next ho => subst ho; simp [State.retireReq, hd]
  split
  next ho => subst ho; exact State.guardW_deaf hd
  next => exact State.guardW_deaf hd

theorem State.writeLaunchCtl_deaf (hd : s.hears r R.DET_LAUNCH_CTL = false) : s.writeLaunchCtl r h v = s := by
  simp [State.writeLaunchCtl, State.launchRelease, State.launchAbortWrite, State.launchArm, State.guardW_deaf hd]

theorem State.busDet_deaf (hd : s.hears r off = false) : s.busDet r off h v = s := by
  unfold State.busDet
  split
  · exact State.guardW_deaf hd
  split
  next ho =>
    subst ho
    split
    · exact State.guardW_deaf hd
    · rfl
  split
  next ho => subst ho; exact State.writeLaunchCtl_deaf hd
  split
  next ho => subst ho; exact State.guardW_deaf hd
  split
  next ho => subst ho; exact State.guardW_deaf hd
  split
  next ho => subst ho; exact State.guardW_deaf hd
  split
  next f ha => exact State.guardW_deaf (arrIdx_some ha ▸ hd)
  next => exact State.guardW_deaf hd

theorem State.busFlt_deaf (hd : s.hears r off = false) : s.busFlt r off h v = s := by
  unfold State.busFlt
  extract_lets w s1
  split
  next ho => subst ho; simp [State.plAck, hd]
  split
  next ho =>
    subst ho
    have hforce : s1 = s := by simp [s1, State.plForce, hd]
    simp [hforce, State.plClearFirst, hd]
  split
  next ho => subst ho; simp [State.furlWrite, hd]
  split
  next ho => subst ho; simp [State.testReq, hd]
  split
  · exact State.guardW_deaf hd
  split
  next ho =>
    subst ho
    split
    · exact State.guardW_deaf hd
    · rfl
  split
  next i ha => obtain rfl := arrIdx_some ha; simp [State.writeInbox, hd]
  next => exact State.guardW_deaf hd

/-- The power settings share one guard, of the first of them. -/
theorem State.busPwr_deaf (hd : s.hears r off = false) (hp : s.hears r R.PWR_CFG = false) : s.busPwr r off h v = s := by
  have hg (f : State → State) : s.pwrGuard r f = s := by simp [State.pwrGuard, hp]
  unfold State.busPwr
  extract_lets w
  split
  · exact hg _
  split
  · exact hg _
  split
  · exact hg _
  split
  next ho => subst ho; simp [State.warmWrite, hd]
  split
  next ho => subst ho; exact State.guardW_deaf hd
  split
  · exact hg _
  · exact State.guardW_deaf hd

theorem State.busMgt_deaf (hd : s.hears r off = false) : s.busMgt r off h v = s := by
  unfold State.busMgt
  split
  · exact State.guardW_deaf hd
  split
  · exact State.guardW_deaf hd
  split
  · exact State.guardW_deaf hd
  split <;> exact State.guardW_deaf hd

theorem State.busWrite_deaf (hd : s.hears r off = false) (hp : off / 0x100000 = 19 → s.hears r R.PWR_CFG = false) :
    s.busWrite r off h v = s := by
  unfold State.busWrite
  split
  · rfl
  split
  · exact State.busGlb_deaf hd
  · exact State.busGlb_deaf hd
  · exact State.busTime_deaf hd
  · exact State.busImg_deaf hd
  · exact State.busCore_deaf hd
  · exact State.busSpd_deaf hd
  · exact State.busKv_deaf hd
  · exact State.busCtl_deaf hd
  · exact State.busCan_deaf hd
  · exact State.busQue_deaf hd
  · exact State.busQue_deaf hd
  · exact State.busQue_deaf hd
  · exact State.busQue_deaf hd
  · exact State.busHbm_deaf hd
  · exact State.busDet_deaf hd
  · exact State.busFlt_deaf hd
  next hb => exact State.busPwr_deaf hd (hp hb)
  · exact State.busMgt_deaf hd
  · exact State.guardW_deaf hd

/-! ### A write of what the mirror only reads (R12) -/

theorem State.guardW_readOnly {f : State → State} (hm : isMirror r = true) (ho : mirrorReadOnly off = true) : s.guardW r off f = s := by
  simp [State.guardW, State.mayWrite, hm, ho]

theorem RegsOnly.refl (l : List Nat) (s : State) : RegsOnly l s s := ⟨rfl, SameRegs.refl l s⟩

theorem RegsOnly.setFld {l : List Nat} (s : State) (f : Fld) (x : Nat) (hm : off ∈ l) : RegsOnly l s (s.setFld off f x) :=
  RegsOnly.of rfl ((SameRegs.refl l s).setFld off f x hm)

/-- A setting that the mirror ignores shows in CFG_REJECT. -/
theorem State.pwrGuard_mirror {f : State → State} (hm : isMirror r = true) : RegsOnly [R.PWR_STAT] s (s.pwrGuard r f) := by
  unfold State.pwrGuard
  split
  · exact RegsOnly.refl _ s
  · exact RegsOnly.setFld s _ _ (by simp)

theorem State.busPwr_readOnly (hm : isMirror r = true) (ho : mirrorReadOnly off = true) : RegsOnly [R.PWR_STAT] s (s.busPwr r off h v) := by
  have hg (f : State → State) : RegsOnly [R.PWR_STAT] s (s.guardW r off f) := by
    rw [State.guardW_readOnly hm ho]
    exact RegsOnly.refl _ s
  have hhost : r ≠ .host := by
    rintro rfl
    cases hm
  unfold State.busPwr
  extract_lets w
  split
  · exact State.pwrGuard_mirror hm
  split
  · exact State.pwrGuard_mirror hm
  split
  · exact State.pwrGuard_mirror hm
  split
  · simpa [State.warmWrite, hhost] using RegsOnly.refl _ s
  split
  next hc => subst hc; exact hg _
  split
  · exact State.pwrGuard_mirror hm
  · exact hg _

theorem State.busMgt_readOnly (hm : isMirror r = true) (ho : mirrorReadOnly off = true) : s.busMgt r off h v = s := by
  unfold State.busMgt
  split
  · exact State.guardW_readOnly hm ho
  split
  · exact State.guardW_readOnly hm ho
  split
  · exact State.guardW_readOnly hm ho
  split <;> exact State.guardW_readOnly hm ho

/-- PLB_ACK and PLB_CTL listen to the host's own port alone. -/
theorem State.busWrite_plumb (hhost : r ≠ .host) (ho : off = R.PLB_ACK ∨ off = R.PLB_CTL) : s.busWrite r off h v = s := by
  obtain rfl | rfl := ho
  · simp [State.busWrite, State.busFlt, State.plAck, hhost, R.PLB_ACK]
  · simp [State.busWrite, State.busFlt, State.plForce, State.plClearFirst, hhost, R.PLB_ACK, R.PLB_CTL]

end Sys2Proof.Machine
end

section
open Sys2Proof Sys2Proof.Machine

/-- Settles O52: a write that is not heard is lost in every block, and one that the mirror only reads shows at most in CFG_REJECT. -/
theorem hostWritesWaitForTheBoot : Obligations.HostWritesWaitForTheBoot := by
  unfold Obligations.HostWritesWaitForTheBoot
  constructor
  · intro r off h v s hr hwait
    have hd : s.hears r off.toNat = false := by
      rcases hwait with hw | hw | ⟨hw, he⟩
      · simp [State.hears, hr, hw]
      · simp [State.hears, hr, hw]
      · simp [State.hears, hr, hw, he]
    have hp (hb : off.toNat / 0x100000 = 19) : s.hears r R.PWR_CFG = false := by
      have he : earlyBlock off.toNat = true := by
        simp only [earlyBlock, Bool.or_eq_true, decide_eq_true_eq]
        omega
      rw [State.hears_congr (show earlyBlock R.PWR_CFG = earlyBlock off.toNat by rw [he]; rfl)]
      exact hd
    exact congrArg Host.Outcome.next (State.busWrite_deaf hd hp)
  · intro r off h v s hm hoff
    refine ⟨_, rfl, ?_⟩
    obtain hr | hplb := hoff
    · have ho : mirrorReadOnly off.toNat = true := by simp [mirrorReadOnly, hr]
      have hb : off.toNat / 0x100000 = 19 ∨ off.toNat / 0x100000 = 20 := by omega
      show RegsOnly [R.PWR_STAT] s (s.busWrite r off.toNat h v)
      unfold State.busWrite
      split
      · exact RegsOnly.refl _ s
      obtain hb | hb := hb
      · simpa [hb] using State.busPwr_readOnly hm ho
      · simpa [hb, State.busMgt_readOnly hm ho] using RegsOnly.refl _ s
    · have hhost : r ≠ .host := by
        rintro rfl
        cases hm
      show RegsOnly [R.PWR_STAT] s (s.busWrite r off.toNat h v)
      rw [State.busWrite_plumb hhost hplb]
      exact RegsOnly.refl _ s

end

section
/-! Served reads of registers: what is answered, and what the read leaves behind (R9, R10). -/

namespace Sys2Proof.Machine

variable {s : State} {r : Req} {h : Half} {off k : Nat}

@[simp] theorem State.answer_out (v : Word) : (s.answer r off h v).out = s.out ++ [.readData r off (v &&& halfMask h)] := rfl

@[simp] theorem State.answer_evtFifo (v : Word) (j : Nat) : (s.answer r off h v).evtFifo j = s.evtFifo j := rfl

theorem State.clearRC_regsOnly : RegsOnly [off] s (s.clearRC off h) := by
  unfold State.clearRC
  split
  · exact RegsOnly.refl _ s
  extract_lets m
  split
  · exact RegsOnly.refl _ s
  · exact RegsOnly.of rfl ((SameRegs.refl _ s).setReg off _ (by simp))

@[simp] theorem State.clearRC_out : (s.clearRC off h).out = s.out := by
  unfold State.clearRC
  split
  · rfl
  extract_lets m
  split <;> rfl

@[simp] theorem State.evtFifo_setEvtFifo (l : List (Bool × Word)) : (s.setEvtFifo k l).evtFifo k = l := by
  simp [State.evtFifo, State.setEvtFifo]

@[simp] theorem State.setEvtFifo_out (l : List (Bool × Word)) : (s.setEvtFifo k l).out = s.out := rfl

theorem State.setEvtFifo_sameRegs (l : List (Bool × Word)) : SameRegs [R.TIME_EVT_CTL k] s (s.setEvtFifo k l) :=
  (((SameRegs.refl _ s).setFld _ _ _ (by simp)).setFld _ _ _ (by simp) : SameRegs [R.TIME_EVT_CTL k] s _)

theorem State.readTimeNow_served (ht : s.takesRead r R.TIME_NOW = true) :
    s.readTimeNow r h =
      { s with time := { s.time with latch := Store.set (fun _ => 0) s.time.latch (latchKey r) s.time.sec } }.answer r R.TIME_NOW h s.now :=
  State.guardR_takes _ _ _ _ _ ht

theorem State.timeLatch_set_same (x : BitVec 48) :
    { s with time := { s.time with latch := Store.set (fun _ => 0) s.time.latch (latchKey r) x } }.timeLatch r = x.setWidth 64 := by
  simp [State.timeLatch]

theorem State.timeLatch_set_ne (x : BitVec 48) {r' : Req} (hne : latchKey r' ≠ latchKey r) :
    { s with time := { s.time with latch := Store.set (fun _ => 0) s.time.latch (latchKey r) x } }.timeLatch r' = s.timeLatch r' := by
  simp [State.timeLatch, Store.get_set_ne _ _ _ _ _ hne]

/-- A read of an empty FIFO answers 0, any other removes the head. -/
theorem State.readEvtStamp_served (ht : s.takesRead r (R.TIME_EVT_STAMP k) = true) :
    (s.evtFifo k = [] ∧ s.readEvtStamp k r h = s.answer r (R.TIME_EVT_STAMP k) h 0) ∨
    ∃ e w l, s.evtFifo k = (e, w) :: l ∧ s.readEvtStamp k r h = (s.setEvtFifo k l).answer r (R.TIME_EVT_STAMP k) h w := by
  unfold State.readEvtStamp
  rw [State.guardR_takes _ _ _ _ _ ht]
  cases hf : s.evtFifo k with
  | nil => exact .inl ⟨rfl, rfl⟩
  | cons p l => exact .inr ⟨p.1, p.2, l, rfl, rfl⟩

theorem State.readStepRate_served (ht : s.takesRead r R.GLB_STEP_RATE = true) :
    s.readStepRate r h = (s.answer r R.GLB_STEP_RATE h (s.reg R.GLB_STEP_RATE)).clearRC R.GLB_STEP_RATE h := by
  unfold State.readStepRate
  rw [State.guardR_takes _ _ _ _ _ ht]
  congr 2
  exact BitVec.and_allOnes

/-- MIN_RATE, in the upper half, is the one field of GLB_STEP_RATE that a read puts back (R59). -/
theorem State.clearRC_stepRate : (s.clearRC R.GLB_STEP_RATE h).reg R.GLB_STEP_RATE =
    if h = .low then s.reg R.GLB_STEP_RATE else F.GLB_STEP_RATE_MIN_RATE.set (s.reg R.GLB_STEP_RATE) 0xFFFF := by
  have hd : ∃ d, regAt R.GLB_STEP_RATE = some d ∧ d.rc = 0x0000FFFF00000000 ∧ d.reset = 0x0000FFFF00000000 := ⟨_, rfl, by decide, by decide⟩
  obtain ⟨d, hat, hrc, hreset⟩ := hd
  unfold State.clearRC
  rw [hat]
  cases h <;> simp [hrc, hreset, halfMask, Fld.set, F.GLB_STEP_RATE_MIN_RATE, Fld.mask]

/-- What requester r finds latched of the ring of queue k, and of MGT_HAL_STATE. -/
def State.ringLatched (s : State) (r : Req) (k : Nat) : Option Word := Store.get (fun _ => none) s.sched.ringLatch (latchKey r * 65536 + k)
def State.halLatched (s : State) (r : Req) : Option Word := Store.get (fun _ => none) s.mgt.latch (latchKey r)

theorem State.readQueSeq_served (ht : s.takesRead r (R.QUE_SEQ k) = true) :
    ∃ u : State, s.readQueSeq k r h = u.answer r (R.QUE_SEQ k) h (s.reg (R.QUE_SEQ k)) ∧ u.regs = s.regs ∧ u.mem = s.mem ∧ u.out = s.out ∧
      u.ringLatched r k = some (s.reg (R.QUE_RING k)) :=
  ⟨_, State.guardR_takes _ _ _ _ _ ht, rfl, rfl, rfl, by simp [State.ringLatched]⟩

theorem State.readQueRing_latched {w : Word} (ht : s.takesRead r (R.QUE_RING k) = true)
    (hl : s.ringLatched r k = some w) :
    (s.readQueRing k r h).out = s.out ++ [.readData r (R.QUE_RING k) (w &&& halfMask h)] := by
  unfold State.readQueRing
  rw [State.guardR_takes _ _ _ _ _ ht]
  simp only [State.ringLatched] at hl
  simp only [hl]
  rfl

theorem State.readHalState_high (ht : s.takesRead r R.MGT_HAL_STATE = true) :
    ∃ u : State, s.readHalState r .high = u.answer r R.MGT_HAL_STATE .high (s.reg R.MGT_HAL_STATE) ∧ u.regs = s.regs ∧ u.mem = s.mem ∧ u.out = s.out ∧
      u.halLatched r = some (s.reg R.MGT_HAL_STATE) :=
  ⟨_, State.guardR_takes _ _ _ _ _ ht, rfl, rfl, rfl, by simp [State.halLatched]⟩

theorem State.readHalState_low_latched {w : Word} (ht : s.takesRead r R.MGT_HAL_STATE = true)
    (hl : s.halLatched r = some w) :
    (s.readHalState r .low).out = s.out ++ [.readData r R.MGT_HAL_STATE (w &&& halfMask .low)] := by
  unfold State.readHalState
  rw [State.guardR_takes _ _ _ _ _ ht]
  simp only [State.halLatched] at hl
  simp only [hl]
  rfl

/-- Outside the registers with a read action of their own a read is a plain one. -/
theorem State.busRead_plain (h8 : off % 8 = 0) (hnow : off ≠ R.TIME_NOW) (hhal : off ≠ R.MGT_HAL_STATE)
    (hevt : arrIdx off R.TIME_EVT_STAMP 17 = none) (hque : off < 0xC00000 ∨ 0x1000000 ≤ off) : s.busRead r off h = s.plainRead r off h := by
  have hq : ¬ (0xC00000 ≤ off ∧ off < 0x1000000) := by omega
  simp only [State.busRead, h8, hnow, hhal, hevt, ← and_assoc, hq, false_and, ne_eq, not_true_eq_false, if_false]

theorem State.plainRead_served (ht : s.takesRead r off = true) :
    s.plainRead r off h = (s.answer r off h (s.viewValue r off)).clearRC off h :=
  State.guardR_takes _ _ _ _ _ ht

end Sys2Proof.Machine
end

section
open Sys2Proof Sys2Proof.Machine

/-- Settles O1: each read by the lemma that says what it does when it is served. -/
theorem readsAnswerAndLatch : Obligations.ReadsAnswerAndLatch := by
  unfold Obligations.ReadsAnswerAndLatch
  refine ⟨fun r h s ht => ?_, fun k r h s ht => ?_, fun r h s ht => ?_, fun q r h s ht => ?_, fun r s ht => ?_,
    fun r off h s ht h8 hnow hhal hevt hque => ?_⟩
  · refine ⟨_, congrArg Host.Outcome.next (State.readTimeNow_served ht), rfl, State.timeLatch_set_same _, fun r' hne => ?_,
      SameRegs.refl _ s, fun _ => rfl⟩
    exact State.timeLatch_set_ne _ hne
  · obtain ⟨hf, he⟩ | ⟨e, w, l, hf, he⟩ := State.readEvtStamp_served (h := h) ht
    · exact ⟨_, congrArg Host.Outcome.next he, by simp [hf], by simp [hf], SameRegs.refl _ s, fun _ => rfl⟩
    · exact ⟨_, congrArg Host.Outcome.next he, by simp [hf], by simp [hf],
        State.setEvtFifo_sameRegs l, fun _ => rfl⟩
  · have honly : RegsOnly [R.GLB_STEP_RATE] (s.answer r R.GLB_STEP_RATE h (s.reg R.GLB_STEP_RATE)) _ := State.clearRC_regsOnly (h := h)
    exact ⟨_, congrArg Host.Outcome.next (State.readStepRate_served ht), State.clearRC_out, State.clearRC_stepRate, honly.2, honly.mem⟩
  · obtain ⟨u, he, hregs, hmem, hout, hl⟩ := State.readQueSeq_served (h := h) ht
    exact ⟨_, congrArg Host.Outcome.next he, by simp [hout], fun h' ht' => State.readQueRing_latched ht' hl,
      fun o _ => by simp [State.reg, State.answer, hregs], fun a => by simp [State.rd, State.answer, hmem]⟩
  · obtain ⟨u, he, hregs, hmem, hout, hl⟩ := State.readHalState_high ht
    exact ⟨_, congrArg Host.Outcome.next he, by simp [hout], fun o _ => by simp [State.reg, State.answer, hregs],
      fun a => by simp [State.rd, State.answer, hmem], fun v hv => ⟨_, rfl, State.readHalState_low_latched hv hl⟩⟩
  · have honly : RegsOnly [off.toNat] (s.answer r off.toNat h (s.viewValue r off.toNat)) _ := State.clearRC_regsOnly (h := h)
    exact ⟨_, congrArg Host.Outcome.next ((State.busRead_plain h8 hnow hhal hevt hque).trans (State.plainRead_served ht)),
      State.clearRC_out, honly.2, honly.mem⟩

end

section
/-! Served writes of the servo owner to the time registers (R107 to R118). -/

namespace Sys2Proof.Machine

variable {s : State} {r : Req} {h : Half} {v : Word} {n : Nat}

/-- A bit of the register written that does not overlap the field written reads as before. -/
theorem State.bit_setFld_other (s : State) (off : Nat) (f g : Fld) (x : Nat) (hg : g.lo + g.w ≤ 64)
    (ho : g.lo + g.w ≤ f.lo ∨ f.lo + f.w ≤ g.lo) : (s.setFld off f x).bit off g = s.bit off g := by
  unfold State.bit
  rw [s.fld_setFld_other off f g x hg ho]

theorem SameRegs.setFld_self {l : List Nat} {off : Nat} (s : State) (f : Fld) (x : Nat) (hm : off ∈ l) : SameRegs l s (s.setFld off f x) :=
  (SameRegs.refl l s).setFld off f x hm

theorem clampRate_fst (x : Int) : (clampRate x).1 = max (-549755813) (min 549755813 x) := by
  unfold clampRate clampInt rateMax
  split
  · omega
  split <;> omega

theorem clampRate_snd (x : Int) : (clampRate x).2 = true ↔ x < -549755813 ∨ 549755813 < x := by
  unfold clampRate clampInt rateMax
  split
  · simp; omega
  split <;> simp <;> omega

/-- The clamp of a written rate shows in RATE_CLAMP, and nothing else of the state is touched. -/
def State.noteClamp (s : State) (b : Bool) : State := if b then s.setFld R.TIME_STAT F.TIME_STAT_RATE_CLAMP 1 else s

theorem State.noteClamp_regsOnly (b : Bool) : RegsOnly [R.TIME_STAT] s (s.noteClamp b) := by
  cases b
  · exact RegsOnly.refl _ s
  · exact RegsOnly.setFld s _ _ (by simp)

theorem State.noteClamp_clamped (b : Bool) : (s.noteClamp b).bit R.TIME_STAT F.TIME_STAT_RATE_CLAMP = (b || s.bit R.TIME_STAT F.TIME_STAT_RATE_CLAMP) := by
  cases b
  · rfl
  · exact State.bit_setFld_same s _ _ 1 (by decide)

/-! ### TIME_STEP and TIME_RATE -/

section
variable (hs : s.isServo r = true) (hc : s.chordSource = false)
include hs hc

theorem State.writeTimeStep_refused (ht : s.takesWrite r R.TIME_STEP = true)
    (hno : s.bit R.TIME_STAT F.TIME_STAT_STEP_USED = true ∨ (s.nowNs : Int) + v.toInt < 0) :
    s.writeTimeStep r .full v = s.setFld R.TIME_STAT F.TIME_STAT_STEP_REFUSED 1 := by
  have hno' : (s.bit R.TIME_STAT F.TIME_STAT_STEP_USED || decide ((s.nowNs : Int) + v.toInt < 0)) = true := by simpa using hno
  unfold State.writeTimeStep
  rw [State.guardW_takes _ _ _ _ ht]
  simp [hs, hc, hno']

theorem State.writeTimeStep_taken (ht : s.takesWrite r R.TIME_STEP = true)
    (hno : ¬ (s.bit R.TIME_STAT F.TIME_STAT_STEP_USED = true ∨ (s.nowNs : Int) + v.toInt < 0)) :
    ∃ x : TimeSt, x.stepPend = some v.toInt ∧ s.writeTimeStep r .full v =
      { (s.setFld R.TIME_STAT F.TIME_STAT_STEP_USED 1).setFld R.TIME_STAT F.TIME_STAT_VALID 1 with time := x } := by
  have hno' : (s.bit R.TIME_STAT F.TIME_STAT_STEP_USED || decide ((s.nowNs : Int) + v.toInt < 0)) = false := by simpa using hno
  unfold State.writeTimeStep
  rw [State.guardW_takes _ _ _ _ ht]
  simp only [hs, hc, hno', ne_eq, not_true_eq_false, if_false, Bool.not_true, Bool.or_false, Bool.false_eq_true]
  exact ⟨_, rfl, rfl⟩

theorem State.writeTimeRate_held (ht : s.takesWrite r R.TIME_RATE = true) (hh : s.bit R.TIME_STAT F.TIME_STAT_HOLDOVER = true) :
    s.writeTimeRate r .full v = s.setFld R.TIME_STAT F.TIME_STAT_RATE_IGNORED 1 := by
  unfold State.writeTimeRate
  rw [State.guardW_takes _ _ _ _ ht]
  simp [hs, hc, hh]

theorem State.writeTimeRate_taken (ht : s.takesWrite r R.TIME_RATE = true) (hh : s.bit R.TIME_STAT F.TIME_STAT_HOLDOVER = false) :
    ∃ x : TimeSt, x.ratePend = some (BitVec.ofInt 32 (clampRate (signExt 32 v.toNat)).1) ∧
      s.writeTimeRate r .full v = { s.noteClamp (clampRate (signExt 32 v.toNat)).2 with time := x } := by
  unfold State.writeTimeRate
  rw [State.guardW_takes _ _ _ _ ht]
  simp only [hs, hc, hh, reduceCtorEq, if_false, Bool.not_true, Bool.or_false, Bool.false_eq_true]
  exact ⟨_, rfl, rfl⟩

end

/-! ### TIME_CTL -/

theorem State.timeCtl_servo {f : State → State} (ht : s.takesWrite r R.TIME_CTL = true) (hs : s.isServo r = true) : s.timeCtl r f = f s := by
  unfold State.timeCtl
  rw [State.guardW_takes _ _ _ _ ht, if_pos hs]

/-- The end of holdover clears two fields of TIME_STAT and takes the grandmaster in use for the accepted one. -/
theorem State.endHold_cases (s : State) : (s.bit R.TIME_STAT F.TIME_STAT_HOLDOVER = false ∧ s.endHold = s) ∨
    (s.bit R.TIME_STAT F.TIME_STAT_HOLDOVER = true ∧ ∃ x : TimeSt, x.acceptedGm = s.time.currentGm ∧
      s.endHold = { (s.setFld R.TIME_STAT F.TIME_STAT_HOLDOVER 0).setFld R.TIME_STAT F.TIME_STAT_HOLD_CAUSE 0 with time := x }) := by
  unfold State.endHold
  cases hh : s.bit R.TIME_STAT F.TIME_STAT_HOLDOVER with
  | false => exact .inl ⟨rfl, rfl⟩
  | true => exact .inr ⟨rfl, _, rfl, rfl⟩

theorem State.endHold_sameRegs (s : State) : SameRegs [R.TIME_STAT] s s.endHold := by
  obtain ⟨-, he⟩ | ⟨-, x, -, he⟩ := s.endHold_cases
  · rw [he]; exact SameRegs.refl _ s
  · rw [he]; exact (SameRegs.setFld_self s _ _ (by simp)).setFld R.TIME_STAT _ _ (by simp)

theorem State.endHold_sameMem (s : State) : SameMem s s.endHold := by
  obtain ⟨-, he⟩ | ⟨-, x, -, he⟩ := s.endHold_cases <;> rw [he] <;> exact fun _ => rfl

theorem State.endHold_holdover (s : State) : s.endHold.bit R.TIME_STAT F.TIME_STAT_HOLDOVER = false := by
  obtain ⟨hh, he⟩ | ⟨-, x, -, he⟩ := s.endHold_cases
  · rw [he]; exact hh
  · rw [he]
    calc ((s.setFld R.TIME_STAT F.TIME_STAT_HOLDOVER 0).setFld R.TIME_STAT F.TIME_STAT_HOLD_CAUSE 0).bit R.TIME_STAT F.TIME_STAT_HOLDOVER
        = (s.setFld R.TIME_STAT F.TIME_STAT_HOLDOVER 0).bit R.TIME_STAT F.TIME_STAT_HOLDOVER := State.bit_setFld_other _ _ _ _ _ (by decide) (by decide)
      _ = false := State.bit_setFld_same s _ _ 0 (by decide)

/-- A field of TIME_STAT outside HOLDOVER and HOLD_CAUSE stands at the end of holdover. -/
theorem State.endHold_fld (s : State) {f : Fld} (hf : f.lo + f.w ≤ 64)
    (h1 : f.lo + f.w ≤ F.TIME_STAT_HOLDOVER.lo ∨ F.TIME_STAT_HOLDOVER.lo + F.TIME_STAT_HOLDOVER.w ≤ f.lo)
    (h2 : f.lo + f.w ≤ F.TIME_STAT_HOLD_CAUSE.lo ∨ F.TIME_STAT_HOLD_CAUSE.lo + F.TIME_STAT_HOLD_CAUSE.w ≤ f.lo) :
    s.endHold.fld R.TIME_STAT f = s.fld R.TIME_STAT f := by
  obtain ⟨-, he⟩ | ⟨-, x, -, he⟩ := s.endHold_cases
  · rw [he]
  · rw [he]
    exact (State.fld_setFld_other _ _ _ f _ hf h2).trans (State.fld_setFld_other s _ _ f _ hf h1)

theorem State.newSession_fld (s : State) {f : Fld} (hf : f.lo + f.w ≤ 64)
    (h1 : f.lo + f.w ≤ F.TIME_STAT_HOLDOVER.lo ∨ F.TIME_STAT_HOLDOVER.lo + F.TIME_STAT_HOLDOVER.w ≤ f.lo)
    (h2 : f.lo + f.w ≤ F.TIME_STAT_HOLD_CAUSE.lo ∨ F.TIME_STAT_HOLD_CAUSE.lo + F.TIME_STAT_HOLD_CAUSE.w ≤ f.lo) :
    s.newSession.fld R.TIME_STAT f =
      ((s.setFld R.TIME_STAT F.TIME_STAT_SESSION (s.fld R.TIME_STAT F.TIME_STAT_SESSION % 65535 + 1)).setFld R.TIME_STAT F.TIME_STAT_STEP_USED 0).fld R.TIME_STAT f :=
  State.endHold_fld _ hf h1 h2

theorem State.newSession_session (s : State) :
    s.newSession.fld R.TIME_STAT F.TIME_STAT_SESSION = s.fld R.TIME_STAT F.TIME_STAT_SESSION % 65535 + 1 := by
  rw [s.newSession_fld (by decide) (by decide) (by decide), State.fld_setFld_other _ _ _ _ _ (by decide) (by decide),
    State.fld_setFld_same _ _ _ _ (by decide)]
  exact Nat.mod_eq_of_lt (by simp only [F.TIME_STAT_SESSION]; omega)

theorem State.newSession_stepUsed (s : State) : s.newSession.bit R.TIME_STAT F.TIME_STAT_STEP_USED = false := by
  unfold State.bit
  rw [s.newSession_fld (by decide) (by decide) (by decide), State.fld_setFld_same _ _ _ _ (by decide)]
  rfl

theorem State.newSession_sameRegs (s : State) : SameRegs [R.TIME_STAT] s s.newSession :=
  ((SameRegs.setFld_self s _ _ (by simp)).setFld R.TIME_STAT _ _ (by simp)).trans (State.endHold_sameRegs _)

theorem State.newSession_sameMem (s : State) : SameMem s s.newSession := State.endHold_sameMem _

/-- Within 1 ppb both ways of an enabled alternate the switch waits for the next tick (R115). -/
theorem State.switchAlt_cases (s : State) : s.switchAlt =
    if s.bit R.TIME_ALT_CTL F.TIME_ALT_CTL_ENABLE = true ∧
      (signExt 32 (s.fld R.TIME_ALT_RATE F.TIME_ALT_RATE_RATE) - signExt 32 (s.fld R.TIME_RATE F.TIME_RATE_RATE)).natAbs ≤ 1099 then
      { s with time := { s.time with switchPend := true } }
    else s.setFld R.TIME_STAT F.TIME_STAT_SWITCH_REFUSED 1 := by
  have hd (d : Int) : (-1099 ≤ d ∧ d ≤ 1099) ↔ d.natAbs ≤ 1099 := by omega
  simp only [State.switchAlt, State.rate, Bool.and_eq_true, decide_eq_true_eq, hd]

/-! ### The alternate and the compares -/

theorem State.writeAltCtl_off (ht : s.takesWrite r R.TIME_ALT_CTL = true) (hv : v.getLsbD 0 = false) :
    ∃ x : TimeSt, s.writeAltCtl r .full v =
      { (s.setFld R.TIME_ALT_CTL F.TIME_ALT_CTL_ENABLE 0).setFld R.TIME_STAT F.TIME_STAT_ALT_TRACKING 0 with time := x } := by
  unfold State.writeAltCtl
  rw [State.guardW_takes _ _ _ _ ht]
  simp only [hv, reduceCtorEq, if_false, Bool.false_eq_true]
  exact ⟨_, rfl⟩

theorem State.writeAltCtl_on (ht : s.takesWrite r R.TIME_ALT_CTL = true) (hv : v.getLsbD 0 = true) :
    s.writeAltCtl r .full v =
      if s.bit R.TIME_PTP_CFG F.TIME_PTP_CFG_ALT_PRESENT then s.setFld R.TIME_ALT_CTL F.TIME_ALT_CTL_ENABLE 1 else s := by
  unfold State.writeAltCtl
  rw [State.guardW_takes _ _ _ _ ht]
  simp only [hv, reduceCtorEq, if_false, if_true]

theorem State.writeAltRate_taken (ht : s.takesWrite r R.TIME_ALT_RATE = true) (hs : s.isServo r = true) :
    s.writeAltRate r .full v = (s.noteClamp (clampRate (signExt 32 v.toNat)).2).setFld R.TIME_ALT_RATE F.TIME_ALT_RATE_RATE
      (toTwos 32 (clampRate (signExt 32 v.toNat)).1) := by
  unfold State.writeAltRate
  rw [State.guardW_takes _ _ _ _ ht]
  simp only [hs, reduceCtorEq, Bool.true_eq_false, or_self, if_false]
  rfl

theorem toTwos_eq_ofInt (x : Int) : toTwos 32 x = (BitVec.ofInt 32 x).toNat := rfl

theorem State.writeAltOffset_taken (ht : s.takesWrite r R.TIME_ALT_OFFSET = true) (hs : s.isServo r = true) :
    s.writeAltOffset r h v = s.setReg R.TIME_ALT_OFFSET ((s.reg R.TIME_ALT_OFFSET &&& ~~~ (halfMask h)) ||| (v &&& halfMask h)) := by
  have hd : regAt R.TIME_ALT_OFFSET = some D.TIME_ALT_OFFSET := by decide
  have hrw : D.TIME_ALT_OFFSET.rw = BitVec.allOnes 64 := by decide
  have hw1c : D.TIME_ALT_OFFSET.w1c = 0#64 := rfl
  unfold State.writeAltOffset
  rw [State.guardW_takes _ _ _ _ ht, if_pos hs]
  simp only [State.writeFields, hd, hrw, hw1c, BitVec.allOnes_and, BitVec.and_zero, BitVec.zero_and, BitVec.not_zero, BitVec.and_allOnes]

theorem State.cmpArmed_setArmed (hn : n < 64) : (s.setArmed n true).cmpArmed n = true := by
  show (s.time.armed ||| BitVec.ofNat 64 (2 ^ n)).getLsbD n = true
  rw [BitVec.getLsbD_or, BitVec.getLsbD_ofNat, Nat.testBit_two_pow_self]
  simp [hn]

theorem State.writeCmpArm_full (ht : s.takesWrite r (R.TIME_CMP_ARM n) = true) : s.writeCmpArm n r .full v =
    if s.bit (R.TIME_CMP_CFG n) F.TIME_CMP_CFG_ACTIVE = true ∧ s.fld (R.TIME_CMP_CFG n) F.TIME_CMP_CFG_MODE = 0 ∧ v.toNat % 2 ^ 30 < 1000000000 then
      s.cmpSetNext n v
    else s := by
  unfold State.writeCmpArm
  rw [State.guardW_takes _ _ _ _ ht]
  have hb : stampBad v = false ↔ v.toNat % 2 ^ 30 < 1000000000 := decide_eq_false_iff_not.trans not_le
  simp [State.cmpMode, hb, and_assoc]

/-! ### Any other requester -/

section
variable (hs : s.isServo r = false)
include hs

theorem State.writeTimeStep_stranger (ht : s.takesWrite r R.TIME_STEP = true) : s.writeTimeStep r .full v = s := by
  unfold State.writeTimeStep
  rw [State.guardW_takes _ _ _ _ ht]
  simp [hs]

theorem State.writeTimeRate_stranger (ht : s.takesWrite r R.TIME_RATE = true) : s.writeTimeRate r h v = s := by
  unfold State.writeTimeRate
  rw [State.guardW_takes _ _ _ _ ht]
  simp [hs]

theorem State.timeCtl_stranger {f : State → State} (ht : s.takesWrite r R.TIME_CTL = true) : s.timeCtl r f = s := by
  unfold State.timeCtl
  rw [State.guardW_takes _ _ _ _ ht]
  simp [hs]

theorem State.writeAltRate_stranger (ht : s.takesWrite r R.TIME_ALT_RATE = true) : s.writeAltRate r h v = s := by
  unfold State.writeAltRate
  rw [State.guardW_takes _ _ _ _ ht]
  simp [hs]

theorem State.writeAltOffset_stranger (ht : s.takesWrite r R.TIME_ALT_OFFSET = true) : s.writeAltOffset r h v = s := by
  unfold State.writeAltOffset
  rw [State.guardW_takes _ _ _ _ ht]
  simp [hs]

end

end Sys2Proof.Machine
end

section
open Sys2Proof Sys2Proof.Machine

/-- Settles O2: each write by the equation that says what it does when it is served. -/
theorem servoWritesActOnTime : Obligations.ServoWritesActOnTime := by
  unfold Obligations.ServoWritesActOnTime
  refine ⟨fun r v s ht hs hc => ?_, fun r v s ht hs hc => ?_, fun r s ht hs => ?_, fun r s ht hs => ?_, fun r s ht hs => ?_,
    fun r s ht hs => ?_, fun r v s ht => ?_, fun r v s ht hs => ?_, fun r h v s ht hs => ?_, fun n r v s ht => ?_,
    fun r h v s hs hstep hrate hctl halt hoff => ?_⟩
  case refine_1 =>
    by_cases hno : s.bit R.TIME_STAT F.TIME_STAT_STEP_USED = true ∨ (s.nowNs : Int) + v.toInt < 0
    · refine ⟨_, congrArg Host.Outcome.next (State.writeTimeStep_refused hs hc ht hno), SameRegs.setFld_self s _ _ (by simp), fun _ => rfl, ?_⟩
      rw [if_pos hno]
      exact ⟨rfl, State.reg_setFld_same s _ _ _⟩
    · obtain ⟨x, hx, he⟩ := State.writeTimeStep_taken hs hc ht hno
      refine ⟨_, congrArg Host.Outcome.next he, (SameRegs.setFld_self s _ _ (by simp)).setFld R.TIME_STAT _ _ (by simp), fun _ => rfl, ?_⟩
      rw [if_neg hno]
      exact ⟨hx, (State.bit_setFld_other _ _ _ _ _ (by decide) (by decide)).trans (State.bit_setFld_same s _ _ 1 (by decide)),
        State.bit_setFld_same _ _ _ 1 (by decide)⟩
  case refine_2 =>
    cases hh : s.bit R.TIME_STAT F.TIME_STAT_HOLDOVER with
    | true =>
      refine ⟨_, congrArg Host.Outcome.next (State.writeTimeRate_held hs hc ht hh), SameRegs.setFld_self s _ _ (by simp), fun _ => rfl, ?_⟩
      rw [if_pos rfl]
      exact ⟨rfl, State.bit_setFld_same s _ _ 1 (by decide)⟩
    | false =>
      obtain ⟨x, hx, he⟩ := State.writeTimeRate_taken (v := v) hs hc ht hh
      have honly := State.noteClamp_regsOnly (s := s) (clampRate (signExt 32 v.toNat)).2
      refine ⟨_, congrArg Host.Outcome.next he, honly.2, honly.mem, ?_⟩
      rw [if_neg (by simp)]
      refine ⟨hx.trans (by rw [clampRate_fst]), ?_⟩
      have hbit := State.noteClamp_clamped (s := s) (clampRate (signExt 32 v.toNat)).2
      rw [← or_assoc, ← clampRate_snd, ← Bool.or_eq_true, ← hbit]
      rfl
  case refine_3 =>
    exact ⟨_, congrArg Host.Outcome.next (State.timeCtl_servo ht hs), s.newSession_sameRegs, s.newSession_sameMem, s.newSession_session,
      s.newSession_stepUsed, State.endHold_holdover _⟩
  case refine_4 =>
    exact ⟨_, congrArg Host.Outcome.next (State.timeCtl_servo ht hs), RegsOnly.setFld s _ _ (by simp), State.reg_setFld_same s _ _ _⟩
  case refine_5 =>
    refine ⟨_, congrArg Host.Outcome.next (State.timeCtl_servo ht hs), s.endHold_sameRegs, s.endHold_sameMem, s.endHold_holdover, fun hh => ?_⟩
    obtain ⟨hn, -⟩ | ⟨-, x, hx, he⟩ := s.endHold_cases
    · rw [hh] at hn
      cases hn
    · rw [he]
      exact hx
  case refine_6 =>
    refine ⟨_, congrArg Host.Outcome.next ((State.timeCtl_servo ht hs).trans s.switchAlt_cases), ?_⟩
    split
    · exact ⟨SameRegs.refl _ s, fun _ => rfl, rfl, rfl⟩
    · exact ⟨SameRegs.setFld_self s _ _ (by simp), fun _ => rfl, rfl, State.bit_setFld_same s _ _ 1 (by decide)⟩
  case refine_7 =>
    cases hv : v.getLsbD 0 with
    | false =>
      obtain ⟨x, he⟩ := State.writeAltCtl_off ht hv
      refine ⟨_, congrArg Host.Outcome.next he, (SameRegs.setFld_self s _ _ (by simp)).setFld R.TIME_STAT _ _ (by simp), fun _ => rfl,
        fun _ => ?_, nofun, nofun⟩
      exact (State.bit_setFld_ne _ _ _ _ _ _ (by decide)).trans (State.bit_setFld_same s _ _ 0 (by decide))
    | true =>
      refine ⟨_, congrArg Host.Outcome.next (State.writeAltCtl_on ht hv), ?_⟩
      split
      next hp =>
        exact ⟨SameRegs.setFld_self s _ _ (by simp), fun _ => rfl, nofun, fun _ _ => State.bit_setFld_same s _ _ 1 (by decide),
          fun _ hn => absurd (hp.symm.trans hn) nofun⟩
      next hp => exact ⟨SameRegs.refl _ s, fun _ => rfl, nofun, fun _ hy => absurd hy hp, fun _ _ => rfl⟩
  case refine_8 =>
    have honly := State.noteClamp_regsOnly (s := s) (clampRate (signExt 32 v.toNat)).2
    refine ⟨_, congrArg Host.Outcome.next (State.writeAltRate_taken ht hs), ⟨honly.1, ?_⟩, ?_⟩
    · exact SameRegs.setFld _ _ _ (fun o ho => honly.2 o (by simp at ho ⊢; exact ho.2)) (by simp)
    · rw [State.fld_setFld_same _ _ _ _ (by decide), toTwos_eq_ofInt, clampRate_fst]
      exact Nat.mod_eq_of_lt (BitVec.isLt _)
  case refine_9 =>
    exact ⟨_, congrArg Host.Outcome.next (State.writeAltOffset_taken ht hs),
      RegsOnly.of rfl ((SameRegs.refl _ s).setReg _ _ (by simp)), State.reg_setReg_same s _ _⟩
  case refine_10 =>
    refine ⟨_, congrArg Host.Outcome.next (State.writeCmpArm_full ht), ?_⟩
    split
    · exact ⟨(SameRegs.refl _ s).setReg _ _ (by simp), fun _ => rfl, State.reg_setReg_same s _ _, State.cmpArmed_setArmed n.isLt⟩
    · exact ⟨SameRegs.refl _ s, fun _ => rfl, rfl⟩
  case refine_11 =>
    have hnext {t : State} (he : t = s) : Host.Outcome.next t = (.next s : Out) := congrArg _ he
    exact ⟨hnext (State.writeTimeStep_stranger hs hstep), hnext (State.writeTimeRate_stranger hs hrate), hnext (State.timeCtl_stranger hs hctl),
      hnext (State.timeCtl_stranger hs hctl), hnext (State.timeCtl_stranger hs hctl), hnext (State.timeCtl_stranger hs hctl),
      hnext (State.writeAltRate_stranger hs halt), hnext (State.writeAltOffset_stranger hs hoff)⟩

end

section
/-! Plain register writes, the host's accesses to the windows, and the completion of a descriptor read (R10, R36, R466, R589 to R593). -/

namespace Sys2Proof.Machine

variable {s : State} {r : Req} {off : Nat} {h : Half} {v : Word}

/-! ### Plain register writes -/

/-- Registers, of several blocks, without an action of their own. -/
def plainRegs : List Nat :=
  [R.GLB_BAR2_BASE, R.GLB_HOST_WIN, R.GLB_IRQ_CFG, R.GLB_HOST_STAT, R.GLB_IRQ_STAT, R.FAB_STAGE_BASE, R.FAB_STAGE_LEN, R.TIME_STAT, R.SPD_STAT, R.HBM_STAT, R.FLT_STAT]

theorem State.busWrite_plainRegs (ho : off ∈ plainRegs) : s.busWrite r off h v = s.plainWrite r off h v := by
  simp only [plainRegs, List.mem_cons, List.not_mem_nil, or_false] at ho
  rcases ho with rfl | rfl | rfl | rfl | rfl | rfl | rfl | rfl | rfl | rfl | rfl <;> rfl

theorem plainRegs_toNat (ho : off ∈ plainRegs) : (BitVec.ofNat 26 off).toNat = off := by
  have hlt : ∀ o ∈ plainRegs, o < 2 ^ 26 := by decide
  exact Nat.mod_eq_of_lt (hlt off ho)

theorem plainRegs_disjoint {d : RegDesc} (ho : off ∈ plainRegs) (hd : regAt off = some d) : d.rw &&& d.w1c = 0#64 := by
  have hall : ∀ o ∈ plainRegs, ∀ d ∈ regAt o, d.rw &&& d.w1c = 0#64 := by decide
  exact hall off ho d hd

theorem State.writeFields_regsOnly : RegsOnly [off] s (s.writeFields off h v) := by
  unfold State.writeFields
  split
  · exact RegsOnly.refl _ s
  · exact RegsOnly.of rfl ((SameRegs.refl _ s).setReg off _ (by simp))

/-- No bit is both RW and W1C, so a covered bit takes the value written, is cleared, or stands. -/
theorem State.writeFields_bit {d : RegDesc} {i : Nat} (hd : regAt off = some d) (hdis : d.rw &&& d.w1c = 0#64) (hi : i < 64) :
    ((s.writeFields off h v).reg off).getLsbD i =
      if (halfMask h).getLsbD i = true ∧ d.rw.getLsbD i = true then v.getLsbD i
      else if (halfMask h).getLsbD i = true ∧ d.w1c.getLsbD i = true ∧ v.getLsbD i = true then false else (s.reg off).getLsbD i := by
  have hone : (d.rw.getLsbD i && d.w1c.getLsbD i) = false := by rw [← BitVec.getLsbD_and, hdis, BitVec.getLsbD_zero]
  unfold State.writeFields
  simp only [hd, State.reg_setReg_same, BitVec.getLsbD_and, BitVec.getLsbD_or, BitVec.getLsbD_not, hi, decide_true, Bool.true_and, Bool.and_assoc]
  split
  next hset =>
    obtain ⟨hm, hrw⟩ := hset
    have hw : d.w1c.getLsbD i = false := by simpa [hrw] using hone
    simp [hm, hrw, hw]
  next hset =>
    have hkeep : (d.rw.getLsbD i && (halfMask h).getLsbD i) = false := by
      rw [Bool.and_comm, Bool.eq_false_iff, ne_eq, Bool.and_eq_true]
      exact hset
    split
    next hclr =>
      obtain ⟨hm, hw, hv⟩ := hclr
      simp [hm, hw, hv]
    next hclr =>
      have hstand : (v.getLsbD i && (d.w1c.getLsbD i && (halfMask h).getLsbD i)) = false := by
        rw [Bool.eq_false_iff, ne_eq, Bool.and_eq_true, Bool.and_eq_true]
        exact fun ⟨hv, hw, hm⟩ => hclr ⟨hm, hw, hv⟩
      simp [hkeep, hstand]

/-! ### Where the host's addresses lead -/

theorem State.hbmBytes_le (s : State) : s.hbmBytes ≤ 0x100000000000 := by
  have hw : s.fld R.GLB_CAPS F.GLB_CAPS_HBM_STACKS < 2 ^ 4 := Fld.get_lt _ _
  unfold State.hbmBytes
  omega

theorem State.place_hbm {a : Nat} (ha : a < s.hbmBytes) : s.place a = .hbm a := by
  have hle := s.hbmBytes_le
  unfold State.place State.localPlace
  rw [if_pos (by omega), if_pos (by omega), if_pos ha]

theorem State.place_hostWindow {a : Nat} (ha : inHostWindow a = true) : s.place a = .hostWin (a - 0x300000000000) := by
  have hin : 0x300000000000 ≤ a ∧ a < 0x400000000000 := of_decide_eq_true ha
  unfold State.place
  rw [if_neg (by omega), if_pos hin.2]

theorem State.place_mirror {o : Nat} (ho : o < 0x4000000) : s.place (0x200000000000 + o) = .mirror o := by
  unfold State.place State.localPlace
  rw [if_pos (by omega), if_neg (by omega), if_neg (by omega), if_neg (by omega), if_pos (by omega), Nat.add_sub_cancel_left]

/-! ### Reads of HBM by the host -/

/-- The host reads all of HBM, the page table and the pools too. -/
theorem State.hit_host_read {a : Nat} (ha : a < s.hbmBytes) : s.hit hostAgent false a = .ok a := by
  have hpool : s.poolDenies hostAgent false a = false := by
    unfold State.poolDenies
    split <;> simp [hostAgent]
  unfold State.hit
  rw [State.place_hbm ha]
  simp only [hpool, Bool.false_and, Bool.false_eq_true, if_false]
  split <;> rfl

theorem State.readByte_host {a : Nat} (ha : a < s.hbmBytes) : s.readByte hostAgent a = { bytes := [s.rd a], bad := s.badByte a } := by
  unfold State.readByte
  rw [State.hit_host_read ha]

theorem State.readMem_host_bytes (n : Nat) : ∀ a, a + n ≤ s.hbmBytes → (s.readMem hostAgent a n).bytes = s.rdBytes a n := by
  induction n with
  | zero => intro a _; rfl
  | succ n ih =>
    intro a ha
    simp [State.readMem, MemRead.append, State.rdBytes, State.readByte_host (s := s) (a := a) (by omega), ih (a + 1) (by omega)]

theorem State.badByte_noEcc {a : Nat} (he : s.spd.ecc = []) : s.badByte a = s.poisoned a 1 := by
  simp [State.badByte, State.wordErr, he, Store.get]

theorem State.poisoned_succ (a n : Nat) : s.poisoned a (n + 2) = (s.poisoned a 1 || s.poisoned (a + 1) (n + 1)) := by
  rw [Bool.eq_iff_iff]
  simp only [State.poisoned, Bool.or_eq_true, List.any_eq_true, decide_eq_true_eq, ← exists_or, ← and_or_left]
  exact exists_congr fun u => and_congr_right fun _ => by omega

/-- Where no scratchpad word has an error, a read is bad exactly when it meets poison. -/
theorem State.readMem_host_bad (he : s.spd.ecc = []) (n : Nat) :
    ∀ a, a + (n + 1) ≤ s.hbmBytes → (s.readMem hostAgent a (n + 1)).bad = s.poisoned a (n + 1) := by
  induction n with
  | zero =>
    intro a ha
    simp [State.readMem, MemRead.append, State.readByte_host (s := s) (a := a) (by omega), State.badByte_noEcc he]
  | succ n ih =>
    intro a ha
    rw [State.readMem, State.poisoned_succ]
    simp only [MemRead.append, State.readByte_host (s := s) (a := a) (by omega), State.badByte_noEcc he, ih (a + 1) (by omega)]

theorem SameMem.trans {t u : State} (h1 : SameMem s t) (h2 : SameMem t u) : SameMem s u := fun a => (h2 a).trans (h1 a)

theorem State.setReg_sameMem (o : Nat) (w : Word) : SameMem s (s.setReg o w) := fun _ => rfl

theorem SameMem.withCause {i : Nat} {f : State → State} (hf : SameMem s (f s)) : SameMem s (s.withCause i f) :=
  fun a => (s.withCause_rd i f a).trans (hf a)

theorem State.event_sameMem (kind source : Nat) (d0 d1 : Word) : SameMem s (s.event kind source d0 d1) := by
  unfold State.event
  refine SameMem.trans ?_ (SameMem.withCause (State.setReg_sameMem _ _))
  refine SameMem.trans ?_ (State.setReg_sameMem _ _)
  refine SameMem.trans ?_ (State.setReg_sameMem _ _)
  refine SameMem.trans ?_ (State.setReg_sameMem _ _)
  refine SameMem.trans ?_ (State.setReg_sameMem _ _)
  exact State.setReg_sameMem _ _

theorem State.retireRow_sameMem (row : Nat) : SameMem s (s.retireRow row) := by
  unfold State.retireRow
  split
  · exact fun _ => rfl
  extract_lets g used
  split
  · exact State.event_sameMem (s := s.setFld R.HBM_STAT F.HBM_STAT_SPARES_OUT 1) _ _ _ _
  · exact fun _ => rfl

theorem SameMem.foldl {α : Type} {f : State → α → State} (hf : ∀ (t : State) (x : α), SameMem t (f t x)) (l : List α) :
    ∀ s : State, SameMem s (l.foldl f s) := by
  induction l with
  | nil => exact fun _ _ => rfl
  | cons x l ih => exact fun s => (hf s x).trans (ih _)

theorem State.hbmUncorr_sameMem (us : List Nat) : SameMem s (s.hbmUncorr us) := by
  unfold State.hbmUncorr
  split
  · exact fun _ => rfl
  next u l =>
    extract_lets s1 s2
    have h1 : SameMem s s1 :=
      SameMem.foldl (f := fun t x => t.satAdd (R.HBM_STACK_ECC (t.hbmStack x)) F.HBM_STACK_ECC_UNCORR 1) (fun _ _ _ => rfl) _ s
    have h2 : SameMem s1 s2 := fun a => by simp [s2]
    have h3 : SameMem s2 _ := State.event_sameMem (s := s2) 5 (s2.hbmStack u) (BitVec.ofNat 64 u) 0
    exact ((h1.trans h2).trans h3).trans (SameMem.foldl (fun t x => State.retireRow_sameMem (s := t) _) _ _)

theorem State.noteRead_host_sameMem {a : Nat} (n : Nat) (ha : a < s.hbmBytes) : SameMem s (s.noteRead hostAgent a n) := by
  unfold State.noteRead
  rw [State.place_hbm ha]
  split
  · exact fun _ => rfl
  · exact State.hbmUncorr_sameMem _

/-! ### Writes of memory -/

theorem State.putByte_rd (k a : Nat) (b : Byte) : (s.putByte k b).rd a = if a = k then b else s.rd a := by
  unfold State.rd
  rw [State.putByte_mem]
  split
  next he => subst he; exact s.rd_wr_same a b
  next hne => exact s.rd_wr_ne k a b hne

theorem State.putByte_regs (k : Nat) (b : Byte) : (s.putByte k b).regs = s.regs := by
  unfold State.putByte
  extract_lets s1
  split <;> rfl

theorem State.putByte_hit (k : Nat) (b : Byte) (g : Agent) (w : Bool) (a : Nat) : (s.putByte k b).hit g w a = s.hit g w a := by
  unfold State.putByte
  extract_lets s1
  split <;> rfl

/-- A write whose every byte is served at its own address stores exactly its bytes. -/
theorem State.writeBytes_served (g : Agent) (l : List Byte) : ∀ (s : State) (a : Nat), (∀ i, i < l.length → s.hit g true (a + i) = .ok (a + i)) →
    (s.writeBytes g a l).state.regs = s.regs ∧
      ∀ b, (s.writeBytes g a l).state.rd b = if a ≤ b ∧ b < a + l.length then l.getD (b - a) 0 else s.rd b := by
  induction l with
  | nil => exact fun s a _ => ⟨rfl, fun b => by rw [if_neg (by simp)]; rfl⟩
  | cons c l ih =>
    intro s a hok
    have h0 : s.hit g true a = .ok a := hok 0 (by simp)
    have hx : s.writeByte g a c = ⟨s.putByte a c, 0, false⟩ := by
      unfold State.writeByte
      rw [h0]
    obtain ⟨hregs, hrd⟩ := ih (s.putByte a c) (a + 1) fun i hi => by
      rw [State.putByte_hit, show a + 1 + i = a + (i + 1) by omega]
      exact hok (i + 1) (by simpa using hi)
    simp only [State.writeBytes, hx]
    refine ⟨hregs.trans (State.putByte_regs a c), fun b => ?_⟩
    rw [hrd b, State.putByte_rd, List.length_cons]
    by_cases hb : b = a
    · subst hb
      rw [if_neg (by omega), if_pos rfl, if_pos (by omega), Nat.sub_self]
      rfl
    · rw [if_neg hb]
      by_cases hin : a + 1 ≤ b ∧ b < a + 1 + l.length
      · rw [if_pos hin, if_pos (by omega), show b - a = (b - (a + 1)) + 1 by omega]
        rfl
      · rw [if_neg hin, if_neg (by omega)]

theorem State.writeMem_frame (g : Agent) (a : Nat) (l : List Byte) :
    (s.writeMem g a l).state.regs = (s.writeBytes g a l).state.regs ∧ (s.writeMem g a l).state.mem = (s.writeBytes g a l).state.mem := by
  unfold State.writeMem
  extract_lets x
  split <;> exact ⟨rfl, rfl⟩

/-! ### The halves of BAR2's accesses -/

theorem accHalf_word {o : Nat} (ho : o % 8 = 0) : accHalf o 8 = some .full := by simp [accHalf, ho]

/-- A served plain read through the mirror gives its value and leaves no completion behind. -/
theorem State.busGet_plain {w : Word} {t : State} (hr : s.busRead r off h = t.answer r off h w) : s.busGet r off h = (w &&& halfMask h, t) := by
  unfold State.busGet
  rw [hr]
  simp [State.answer, State.emit]

theorem State.busRead_hostWin (hd3 : s.host.d3hot = false) (hans : s.bootAnswers = true) :
    s.busRead .bar2 R.GLB_HOST_WIN .full = s.answer .bar2 R.GLB_HOST_WIN .full (s.reg R.GLB_HOST_WIN) := by
  have ht : s.takesRead .bar2 R.GLB_HOST_WIN = true := by
    simp [State.takesRead, State.hears, State.regPresent, State.mayRead, isHost, hd3, hans, earlyBlock, R.GLB_HOST_WIN]
  have hat : regAt R.GLB_HOST_WIN = some D.GLB_HOST_WIN := by decide
  have hval : s.viewValue .bar2 R.GLB_HOST_WIN = s.reg R.GLB_HOST_WIN := by
    have hview : s.viewValue .bar2 R.GLB_HOST_WIN = s.readValue R.GLB_HOST_WIN := rfl
    rw [hview, State.readValue, hat]
    exact BitVec.and_allOnes
  rw [State.busRead_plain (by decide) (by decide) (by decide) (by decide) (by decide), State.plainRead_served ht, hval, State.clearRC, hat]
  exact if_pos (by decide)

/-! ### A descriptor that returns -/

/-- Queue q took the descriptor d behind its other commands: as an INTEGRITY record when it came back bad. -/
def TookDesc (q : Nat) (d : List Byte) (bad : Bool) (s t : State) : Prop :=
  SameMem s t ∧ t.host = s.host ∧
    (∃ x, (t.queue q).cmds = (s.queue q).cmds ++ [x] ∧ x.desc = d ∧ (bad = true → x.phase = .ended ∧ x.status = stIntegrity)) ∧
    t.fld (R.QUE_RING q) F.QUE_RING_CMD_CONS = (s.fld (R.QUE_RING q) F.QUE_RING_CMD_CONS + 1) % 2 ^ 32

theorem State.pushCmd_cmds (q : Nat) (c : Cmd) : ((s.pushCmd q c).queue q).cmds = (s.queue q).cmds ++ [c] := by
  simp [State.pushCmd]

theorem State.queue_setFld (q off : Nat) (f : Fld) (n : Nat) : (s.setFld off f n).queue q = s.queue q := rfl

theorem withBudget_desc (c : Cmd) : (withBudget c).desc = c.desc := by
  unfold withBudget
  split <;> rfl

theorem queRing_ne_ctxStat (q : Nat) (c : Cmd) : R.QUE_RING q ≠ R.SCH_CTX_STAT c.context := by
  have hc : c.context < 4096 := Nat.mod_lt _ (by decide)
  unfold R.QUE_RING R.SCH_CTX_STAT
  omega

theorem queRing_ne_queSeq (q : Nat) : R.QUE_RING q ≠ R.QUE_SEQ q := by
  unfold R.QUE_RING R.QUE_SEQ
  omega

theorem queRing_ne_queCtl (q : Nat) : R.QUE_RING q ≠ R.QUE_CTL q := by
  unfold R.QUE_RING R.QUE_CTL
  omega

/-- Accepting a command puts it behind the others of its queue and leaves the ring's registers, memory and the host's side alone. -/
theorem State.acceptCmd_takes (q : Nat) (d : List Byte) (seq : BitVec 32) : SameMem s (s.acceptCmd q d seq) ∧ (s.acceptCmd q d seq).host = s.host ∧
    (s.acceptCmd q d seq).reg (R.QUE_RING q) = s.reg (R.QUE_RING q) ∧
    ∃ x, ((s.acceptCmd q d seq).queue q).cmds = (s.queue q).cmds ++ [x] ∧ x.desc = d := by
  have hring (f : Fld) (n : Nat) : (s.setFld (R.QUE_SEQ q) f n).reg (R.QUE_RING q) = s.reg (R.QUE_RING q) :=
    s.reg_setFld_ne _ _ _ _ (queRing_ne_queSeq q)
  unfold State.acceptCmd
  extract_lets s1 sch s2 o c s3
  split
  · exact ⟨fun _ => rfl, rfl, hring _ _, _, State.pushCmd_cmds (s := s2) q _, rfl⟩
  split
  · exact ⟨fun _ => rfl, rfl, hring _ _, _, State.pushCmd_cmds (s := s2) q _, rfl⟩
  have hc : c.desc = d := withBudget_desc _
  split
  · rw [State.ctxState]
    refine ⟨?mem, ?host, ?ring, c, ?cmds, hc⟩
    case mem =>
      have h3 : SameMem s s3 := fun _ => rfl
      exact SameMem.trans (SameMem.trans h3 (State.setReg_sameMem _ _)) (State.setReg_sameMem _ _)
    case host =>
      rw [State.setFld_host, State.setFld_host]
      rfl
    case ring =>
      rw [State.reg_setFld_ne _ _ _ _ _ (queRing_ne_ctxStat q c), State.reg_setFld_ne _ _ _ _ _ (queRing_ne_ctxStat q c)]
      exact hring _ _
    case cmds =>
      rw [State.queue_setFld, State.queue_setFld]
      exact State.pushCmd_cmds (s := s2) q c
  · exact ⟨fun _ => rfl, rfl, hring _ _, c, State.pushCmd_cmds (s := s2) q c, hc⟩

theorem State.takeDescriptor_took (q : Nat) (d : List Byte) (bad : Bool) : TookDesc q d bad s (s.takeDescriptor q d bad) := by
  have hcons := s.fld_wrapAdd_same (R.QUE_RING q) F.QUE_RING_CMD_CONS 1 (by decide)
  unfold State.takeDescriptor
  extract_lets s1 expected seq
  split
  · exact ⟨fun _ => rfl, rfl, ⟨_, State.pushCmd_cmds (s := s1) q _, rfl, fun _ => ⟨rfl, rfl⟩⟩, hcons⟩
  next hgood =>
  split
  · exact ⟨fun _ => rfl, rfl, ⟨_, State.pushCmd_cmds (s := s1) q _, rfl, fun hb => absurd hb hgood⟩, hcons⟩
  split
  · obtain ⟨hmem, hhost, hring, x, hx, hdesc⟩ := State.acceptCmd_takes (s := s1) q d seq
    exact ⟨hmem, hhost, ⟨x, hx, hdesc, fun hb => absurd hb hgood⟩, (congrArg _ hring).trans hcons⟩
  · exact ⟨fun _ => rfl, rfl, ⟨_, State.pushCmd_cmds (s := s1.satAdd (R.QUE_CTL q) F.QUE_CTL_SEQ_GAPS 1) q _, rfl, fun hb => absurd hb hgood⟩,
      (congrArg F.QUE_RING_CMD_CONS.get (s1.reg_satAdd_ne _ _ _ _ (queRing_ne_queCtl q))).trans hcons⟩

/-- The data of a descriptor read goes to its queue, filled up with zeros to the length asked for. -/
theorem State.giveRead_desc {o : OutRead} {q : Nat} (data : List Byte) (bad : Bool) (ho : o.what = .desc q) (hq : s.qBound q = true) :
    s.giveRead o data bad false = (s.dropRead o).takeDescriptor q ((data ++ List.replicate o.len 0).take o.len) bad := by
  have hq' : (s.dropRead o).qBound q = true := hq
  simp [State.giveRead, State.readReturns, ho, hq']

end Sys2Proof.Machine
end

section
/-! The host's requests, one lemma per command. -/

namespace Sys2Proof.Machine

variable {s : State}

theorem exec_plainRegs {r : Req} {o : Nat} {h : Half} {v : Word} (ho : o ∈ plainRegs) (ht : s.takesWrite r o = true) :
    exec (.genericRegisterWrite r (BitVec.ofNat 26 o) h v) s = .next (s.writeFields o h v) := by
  show (.next (s.busWrite r (BitVec.ofNat 26 o).toNat h v) : Out) = _
  rw [plainRegs_toNat ho, State.busWrite_plainRegs ho, State.plainWrite, State.guardW_takes _ _ _ _ ht]

theorem exec_misalignedWrite {r : Req} {o : BitVec 26} {h : Half} {v : Word} (ho : o.toNat % 8 ≠ 0) :
    exec (.genericRegisterWrite r o h v) s = .next s :=
  congrArg Host.Outcome.next (if_pos ho)

/-! ### BAR0 requests that are no access -/

theorem exec_bar0BadAccess_answered (w : Bool) (hd3 : s.host.d3hot = false) (hans : s.bootAnswers = true) : exec (.bar0BadAccess w) s =
    .next { s.setFld R.GLB_HOST_STAT F.GLB_HOST_STAT_BAD_BAR0 1 with out := s.out ++ (if w then [] else [.unsupported]) } := by
  show execBar0BadAccess w s = _
  cases w <;> simp [execBar0BadAccess, hd3, hans, State.emit, State.setFld, State.setReg]

theorem exec_bar0BadAccess_unanswered (w : Bool) (hoff : s.host.d3hot = true ∨ s.bootAnswers = false) :
    exec (.bar0BadAccess w) s = .next { s with out := s.out ++ (if w then [] else [.unsupported]) } := by
  have hdown : (s.host.d3hot || !s.bootAnswers) = true := by simpa using hoff
  show execBar0BadAccess w s = _
  cases w <;> simp [execBar0BadAccess, hdown, State.emit]

/-! ### BAR2 reads -/

section
variable {x : BitVec 32} {len : BitVec 13} (hd3 : s.host.d3hot = false) (hans : s.bootAnswers = true) (hlen : len.toNat ≤ 4096)
include hd3 hans hlen

theorem exec_bar2Read_hbm (ha : s.bar2Addr x.toNat < s.hbmBytes) : exec (.bar2Read x len) s =
    .next ((s.noteRead hostAgent (s.bar2Addr x.toNat) len.toNat).emit (.bar2Data x.toNat
      (s.readMem hostAgent (s.bar2Addr x.toNat) len.toNat).bytes (s.readMem hostAgent (s.bar2Addr x.toNat) len.toNat).bad)) := by
  show execBar2Read x len s = _
  simp only [execBar2Read, hd3, hans, State.place_hbm ha, Nat.min_eq_right hlen, Bool.not_true, Bool.or_self, Bool.false_eq_true, if_false]

theorem exec_bar2Read_zeros (ha : inHostWindow (s.bar2Addr x.toNat) = true ∨ s.place (s.bar2Addr x.toNat) = .unmapped) :
    exec (.bar2Read x len) s = .next (s.emit (.bar2Data x.toNat (List.replicate len.toNat 0) false)) := by
  show execBar2Read x len s = _
  obtain hw | hu := ha
  · simp only [execBar2Read, hd3, hans, State.place_hostWindow hw, Nat.min_eq_right hlen, Bool.not_true, Bool.or_self, Bool.false_eq_true, if_false]
  · simp only [execBar2Read, hd3, hans, hu, Nat.min_eq_right hlen, Bool.not_true, Bool.or_self, Bool.false_eq_true, if_false]

omit hlen in
theorem exec_bar2Read_hostWin (hn : len.toNat = 8) (ha : s.bar2Addr x.toNat = 0x200000000000 + R.GLB_HOST_WIN) :
    exec (.bar2Read x len) s = .next (s.emit (.bar2Data x.toNat (leBytes (s.reg R.GLB_HOST_WIN).toNat 8) false)) := by
  have hget : s.busGet .bar2 R.GLB_HOST_WIN .full = (s.reg R.GLB_HOST_WIN, s) :=
    (State.busGet_plain (State.busRead_hostWin hd3 hans)).trans (by rw [show halfMask .full = BitVec.allOnes 64 by decide, BitVec.and_allOnes])
  have hplace : s.place (s.bar2Addr x.toNat) = .mirror R.GLB_HOST_WIN := ha ▸ State.place_mirror (by decide)
  have hoff : R.GLB_HOST_WIN / 8 * 8 = R.GLB_HOST_WIN := by decide
  have hbyte : R.GLB_HOST_WIN % 8 = 0 := by decide
  have hmin : min 4096 8 = 8 := by decide
  show execBar2Read x len s = _
  simp only [execBar2Read, hd3, hans, hplace, hn, hmin, accHalf_word hbyte, hoff, hbyte, hget, Bool.not_true, Bool.or_self, Bool.false_eq_true,
    if_false, List.drop_zero]
  rw [List.take_of_length_le (by simp [leBytes])]

end

/-! ### BAR2 writes -/

section
variable {x : BitVec 32} {l : List Byte} (hd3 : s.host.d3hot = false) (hserve : s.bootServes = true) (hlen : l.length ≤ 512)
include hd3 hserve

theorem exec_bar2Write_none (ha : inHostWindow (s.bar2Addr x.toNat) = true ∨ s.place (s.bar2Addr x.toNat) = .unmapped) :
    exec (.bar2Write x l) s = .next s := by
  show execBar2Write x l s = _
  obtain hw | hu := ha
  · simp only [execBar2Write, hd3, hserve, State.place_hostWindow hw, Bool.not_true, Bool.or_self, Bool.false_eq_true, if_false]
  · simp only [execBar2Write, hd3, hserve, hu, Bool.not_true, Bool.or_self, Bool.false_eq_true, if_false]

include hlen

theorem exec_bar2Write_hbm (ha : s.bar2Addr x.toNat < s.hbmBytes) :
    exec (.bar2Write x l) s = .next (s.writeMem hostAgent (s.bar2Addr x.toNat) l).state := by
  show execBar2Write x l s = _
  simp only [execBar2Write, hd3, hserve, State.place_hbm ha, List.take_of_length_le hlen, Bool.not_true, Bool.or_self, Bool.false_eq_true, if_false]

theorem exec_bar2Write_partial {b o : Nat} (hp : s.place (s.bar2Addr x.toNat) = .spd b o) (hpart : s.bar2Addr x.toNat % 8 ≠ 0 ∨ l.length % 8 ≠ 0) :
    exec (.bar2Write x l) s = .next (s.satAdd R.GLB_HOST_STAT F.GLB_HOST_STAT_PARTIAL_DROP 1) := by
  show execBar2Write x l s = _
  simp only [execBar2Write, hd3, hserve, hp, List.take_of_length_le hlen, Bool.not_true, Bool.or_self, Bool.false_eq_true, if_false]
  rw [if_pos hpart]

theorem exec_bar2Write_mirror {o : Nat} (hp : s.place (s.bar2Addr x.toNat) = .mirror o) (ho : o % 8 = 0) (h8 : l.length = 8) :
    exec (.bar2Write x l) s = .next (s.busWrite .bar2 o .full (BitVec.ofNat 64 (leNat l))) := by
  have hoff : o / 8 * 8 = o := by omega
  show execBar2Write x l s = _
  simp only [execBar2Write, hd3, hserve, hp, List.take_of_length_le hlen, h8, accHalf_word ho, hoff, ho, Nat.mul_zero, Nat.pow_zero, Nat.mul_one,
    Bool.not_true, Bool.or_self, Bool.false_eq_true, if_false]

end

/-- A write of the host to HBM, every byte of which is served, stores its bytes and nothing else. -/
theorem State.writeMem_host {a : Nat} {l : List Byte} (hok : ∀ i, i < l.length → s.hit hostAgent true (a + i) = .ok (a + i)) :
    let t := (s.writeMem hostAgent a l).state
    SameRegs [] s t ∧ (∀ i, i < l.length → t.rd (a + i) = l.getD i 0) ∧ ∀ b, (b < a ∨ a + l.length ≤ b) → t.rd b = s.rd b := by
  obtain ⟨hregs, hrd⟩ := State.writeBytes_served hostAgent l s a hok
  obtain ⟨hr, hm⟩ := s.writeMem_frame hostAgent a l
  have hrd' (b : Nat) : (s.writeMem hostAgent a l).state.rd b = if a ≤ b ∧ b < a + l.length then l.getD (b - a) 0 else s.rd b := by
    rw [← hrd b, State.rd, State.rd, hm]
  refine ⟨fun o _ => by rw [State.reg, State.reg, hr, hregs], fun i hi => ?_, fun b hb => ?_⟩
  · rw [hrd', if_pos (by omega), Nat.add_sub_cancel_left]
  · rw [hrd', if_neg (by omega)]

/-! ### Completions of host reads -/

theorem exec_hostReadCompletion_some {o : OutRead} (data : List Byte) (ok : Bool) (ho : s.host.reads.find? (fun o => inHostWindow o.addr) = some o) :
    exec (.hostReadCompletion data ok) s = .next (s.giveRead o data (!ok) false) := by
  show execHostReadCompletion data ok s = _
  rw [execHostReadCompletion, ho]

theorem exec_completionTimeout_some {o : OutRead} (ho : s.host.reads.find? (fun o => inHostWindow o.addr) = some o) :
    exec .completionTimeout s = .next (s.giveRead o [] true false) := by
  show execCompletionTimeout s = _
  rw [execCompletionTimeout, ho]

theorem exec_hostRead_none (data : List Byte) (ok : Bool) (hn : s.host.reads.find? (fun o => inHostWindow o.addr) = none) :
    exec (.hostReadCompletion data ok) s = .next s ∧ exec .completionTimeout s = .next s := by
  constructor
  · show execHostReadCompletion data ok s = _
    rw [execHostReadCompletion, hn]
  · show execCompletionTimeout s = _
    rw [execCompletionTimeout, hn]

/-- A descriptor read that comes back leaves the outstanding reads and gives its queue the bytes. -/
theorem State.giveRead_took {o : OutRead} {q : Nat} {data d : List Byte} (bad : Bool) (ho : o.what = .desc q) (hq : s.qBound q = true)
    (hd : (data ++ List.replicate o.len 0).take o.len = d) : TookDesc q d bad (s.dropRead o) (s.giveRead o data bad false) := by
  rw [State.giveRead_desc data bad ho hq, hd]
  exact State.takeDescriptor_took q d bad

end Sys2Proof.Machine
end

section
open Sys2Proof Sys2Proof.Machine

/-- Settles O39: each request by the equation that says what its command does. -/
theorem registerWritesAndWindowAccesses : Obligations.RegisterWritesAndWindowAccesses := by
  unfold Obligations.RegisterWritesAndWindowAccesses
  refine ⟨fun r o h v d s ho hd ht => ?plain, fun r o h v s ho => exec_misalignedWrite ho,
    fun w s => ⟨exec_bar0BadAccess_answered w, exec_bar0BadAccess_unanswered w⟩, fun x len s hd3 hans hpos hlen => ?read,
    fun x l s hd3 hserve hpos hlen => ?write, fun data q o s hfind hwhat h64 hq => ?desc, fun data ok s => exec_hostRead_none data ok⟩
  case plain =>
    exact ⟨_, exec_plainRegs ho ht, State.writeFields_regsOnly, fun i hi => State.writeFields_bit hd (plainRegs_disjoint ho hd) hi⟩
  case read =>
    refine ⟨fun hin hecc => ?_, exec_bar2Read_zeros hd3 hans hlen, exec_bar2Read_hostWin hd3 hans⟩
    have ha : s.bar2Addr x.toNat < s.hbmBytes := by omega
    have hbytes := State.readMem_host_bytes len.toNat _ hin
    have hexec := exec_bar2Read_hbm hd3 hans hlen ha
    rw [hbytes] at hexec
    refine ⟨fun hp => ?_, fun hp => ⟨_, hexec, State.noteRead_host_sameMem _ ha, ?_⟩⟩
    · rw [hexec, s.noteRead_clean _ _ _ hp hecc, s.readMem_clean _ hp hecc]
    · obtain ⟨n, hn⟩ : ∃ n, len.toNat = n + 1 := ⟨len.toNat - 1, by omega⟩
      have hbad := State.readMem_host_bad hecc n _ (hn ▸ hin)
      rw [← hn, hp] at hbad
      rw [hbad]
      exact List.getLast?_concat
  case write =>
    refine ⟨fun hin hok => ?_, fun b o hp hpart => ?_, exec_bar2Write_none hd3 hserve, fun o => exec_bar2Write_mirror hd3 hserve hlen⟩
    · exact ⟨_, exec_bar2Write_hbm hd3 hserve hlen (by omega), State.writeMem_host hok⟩
    · exact ⟨_, exec_bar2Write_partial hd3 hserve hlen hp hpart, RegsOnly.setFld s _ _ (by simp), s.fld_satAdd_same _ _ 1 (by decide)⟩
  case desc =>
    have hgot {data d : List Byte} (bad : Bool) (hd : (data ++ List.replicate o.len 0).take o.len = d) :=
      State.giveRead_took (s := s) bad hwhat hq hd
    refine ⟨fun hlen => ⟨?_, ?_⟩, ?_⟩
    · obtain ⟨hmem, hhost, ⟨x, hx, hdesc, hbad⟩, hcons⟩ := hgot (data := data) false (List.take_left' (hlen.trans h64.symm))
      exact ⟨_, x, exec_hostReadCompletion_some data true hfind, hmem, congrArg HostSt.reads hhost, hx, hdesc, hbad, hcons⟩
    · obtain ⟨hmem, hhost, ⟨x, hx, hdesc, hbad⟩, hcons⟩ := hgot (data := data) true (List.take_left' (hlen.trans h64.symm))
      exact ⟨_, x, exec_hostReadCompletion_some data false hfind, hmem, congrArg HostSt.reads hhost, hx, hdesc, hbad, hcons⟩
    · obtain ⟨hmem, hhost, ⟨x, hx, hdesc, hbad⟩, hcons⟩ := hgot (data := []) (d := List.replicate 64 0) true (by simp [h64])
      exact ⟨_, x, exec_completionTimeout_some hfind, hmem, congrArg HostSt.reads hhost, hx, hdesc, hbad, hcons⟩

end

section
/-! Vectors: what sending, raising and unmasking them may change, and what they send (R594, R595). -/

namespace Sys2Proof.Machine

variable {s t u : State} {v : Nat}

/-- What t sent beyond s is all that sets them apart, but for the pending bits and the vectors that wait. -/
def SendsOnly (s t : State) : Prop :=
  { t with out := s.out, host := { t.host with pba := s.host.pba, waiting := s.host.waiting } } = s ∧ s.out <+: t.out

theorem SendsOnly.refl (s : State) : SendsOnly s s := ⟨rfl, List.prefix_refl _⟩

theorem SendsOnly.trans (h1 : SendsOnly s t) (h2 : SendsOnly t u) : SendsOnly s u :=
  ⟨(congrArg (fun x : State => { x with out := s.out, host := { x.host with pba := s.host.pba, waiting := s.host.waiting } }) h2.1).trans h1.1,
    h1.2.trans h2.2⟩

section
variable (h : SendsOnly s t)
include h

theorem SendsOnly.regs : t.regs = s.regs := (congrArg State.regs h.1 :)
theorem SendsOnly.reg (o : Nat) : t.reg o = s.reg o := (congrArg (fun x : State => x.reg o) h.1 :)
theorem SendsOnly.sameMem : SameMem s t := fun a => (congrArg (fun x : State => x.rd a) h.1 :)
theorem SendsOnly.sameRegs : SameRegs [] s t := fun o _ => h.reg o
theorem SendsOnly.msixWord (k : Nat) : t.msixWord k = s.msixWord k := (congrArg (fun x : State => x.msixWord k) h.1 :)
theorem SendsOnly.vecMasked (v : Nat) : t.vecMasked v = s.vecMasked v := (congrArg (fun x : State => x.vecMasked v) h.1 :)
theorem SendsOnly.msixEnable : t.host.msixEnable = s.host.msixEnable := (congrArg (fun x : State => x.host.msixEnable) h.1 :)
theorem SendsOnly.msixFnMask : t.host.msixFnMask = s.host.msixFnMask := (congrArg (fun x : State => x.host.msixFnMask) h.1 :)
theorem SendsOnly.canMaster : t.canMaster = s.canMaster := (congrArg State.canMaster h.1 :)

end

theorem SendsOnly.foldl {α : Type} {f : State → α → State} (hf : ∀ (t : State) (x : α), SendsOnly t (f t x)) (l : List α) :
    ∀ s : State, SendsOnly s (l.foldl f s) := by
  induction l with
  | nil => exact SendsOnly.refl
  | cons x l ih => exact fun s => (hf s x).trans (ih _)

theorem State.setPba_sends (v : Nat) (b : Bool) : SendsOnly s (s.setPba v b) := ⟨rfl, List.prefix_refl _⟩

theorem State.pba_setPba (v : Nat) (b : Bool) : Store.get (fun _ => false) (s.setPba v b).host.pba v = b := Store.get_set_same _ _ _ _

theorem State.sendVec_sends (v : Nat) : SendsOnly s (s.sendVec v) := by
  unfold State.sendVec
  split
  · exact ⟨rfl, List.prefix_append _ _⟩
  split
  · exact .refl s
  · exact ⟨rfl, List.prefix_refl _⟩

theorem State.raiseVec_sends (v : Nat) : SendsOnly s (s.raiseVec v) := by
  unfold State.raiseVec
  split
  · exact .refl s
  split
  · exact State.setPba_sends v true
  · exact State.sendVec_sends v

theorem State.unmasked_sends (v : Nat) : SendsOnly s (s.unmasked v) := by
  unfold State.unmasked
  split
  · exact (State.setPba_sends v false).trans (State.sendVec_sends v)
  · exact .refl s

/-- The message of a vector (R594). -/
def State.msixMsg (s : State) (v : Nat) : Output := .msix v (s.msixWord (2 * v)) (BitVec.ofNat 64 ((s.msixWord (2 * v + 1)).toNat % 2 ^ 32))

theorem State.sendVec_master (hc : s.canMaster = true) : s.sendVec v = s.emit (s.msixMsg v) := if_pos hc

theorem State.raiseVec_master (hv : v ≤ 2047) (he : s.host.msixEnable = true) (hm : s.vecMasked v = false) (hc : s.canMaster = true) :
    s.raiseVec v = s.emit (s.msixMsg v) := by
  unfold State.raiseVec
  rw [if_neg (by simp [he, hv]), if_neg (by simp [hm]), State.sendVec_master hc]

theorem State.unmasked_idle (hp : Store.get (fun _ => false) s.host.pba v = false) : s.unmasked v = s := by
  simp [State.unmasked, hp]

theorem State.unmasked_pending (he : s.host.msixEnable = true) (hp : Store.get (fun _ => false) s.host.pba v = true) (hm : s.vecMasked v = false)
    (hc : s.canMaster = true) : s.unmasked v = (s.setPba v false).emit (s.msixMsg v) := by
  unfold State.unmasked
  rw [if_pos (by simp [he, hp, hm])]
  exact State.sendVec_master (s := s.setPba v false) hc

/-! ### MSIX_UNMASK -/

theorem State.msixWord_setMsix_ne {k j : Nat} (w : Word) (hj : j ≠ k) : (s.setMsix k w).msixWord j = s.msixWord j :=
  Store.get_set_ne _ _ _ _ _ hj

/-- The write of a data word without its mask bit keeps the data. -/
theorem State.msixWord_setMsix_data (v : Nat) (w : Word) : (s.setMsix (2 * v + 1) (w &&& 0xFFFFFFFF)).msixWord (2 * v + 1) = w &&& 0xFFFFFFFF := by
  have hodd : (2 * v + 1) % 2 = 1 := by omega
  have hmask : (0xFFFFFFFF : Word) &&& 0x1FFFFFFFF = 0xFFFFFFFF := by decide
  refine (Store.get_set_same _ _ _ _).trans ?_
  rw [if_pos hodd, BitVec.and_assoc]
  exact congrArg (w &&& ·) hmask

theorem dataWord_low (w : Word) : BitVec.ofNat 64 ((w &&& 0xFFFFFFFF).toNat % 2 ^ 32) = w &&& 0xFFFFFFFF := by
  have hlow : (w &&& 0xFFFFFFFF).toNat = w.toNat % 2 ^ 32 := by
    rw [BitVec.toNat_and]
    exact Nat.and_two_pow_sub_one_eq_mod w.toNat 32
  apply BitVec.eq_of_toNat_eq
  rw [BitVec.toNat_ofNat, hlow, Nat.mod_mod]
  omega

/-- With its mask bit cleared a vector is masked by the function alone. -/
theorem State.vecMasked_setMsix_data (v : Nat) (w : Word) : (s.setMsix (2 * v + 1) (w &&& 0xFFFFFFFF)).vecMasked v = s.host.msixFnMask := by
  unfold State.vecMasked
  rw [State.msixWord_setMsix_data]
  simp [State.setMsix]

theorem State.msixMsg_setMsix_data (v : Nat) (w : Word) :
    (s.setMsix (2 * v + 1) (w &&& 0xFFFFFFFF)).msixMsg v = .msix v (s.msixWord (2 * v)) (w &&& 0xFFFFFFFF) := by
  unfold State.msixMsg
  rw [State.msixWord_setMsix_data, State.msixWord_setMsix_ne _ (by omega), dataWord_low]

/-- Software unmasks vector v (R594). -/
theorem exec_msixUnmask_vector (v : Fin 2048) :
    exec (.msixUnmask (some v)) s = .next ((s.setMsix (2 * v.val + 1) (s.msixWord (2 * v.val + 1) &&& 0xFFFFFFFF)).unmasked v.val) := rfl

theorem exec_msixUnmask_function :
    exec (.msixUnmask none) s = .next ({ s with host := { s.host with msixFnMask := false } }.unmaskedAll) := rfl

theorem State.unmaskedAll_one (hp : s.host.pba = [(v, true)]) : s.unmaskedAll = s.unmasked v := by
  simp [State.unmaskedAll, hp]

theorem State.unmaskedAll_none (hp : s.host.pba = []) : s.unmaskedAll = s := by
  simp [State.unmaskedAll, hp]

/-! ### GLB_IRQ_MASK -/

theorem State.writeFields_irqMask (h : Half) (w : Word) :
    s.writeFields R.GLB_IRQ_MASK h w = s.setReg R.GLB_IRQ_MASK ((s.reg R.GLB_IRQ_MASK &&& ~~~ halfMask h) ||| (w &&& halfMask h)) := by
  have hd : regAt R.GLB_IRQ_MASK = some D.GLB_IRQ_MASK := by decide
  have hrw : D.GLB_IRQ_MASK.rw = BitVec.allOnes 64 := by decide
  have hw1c : D.GLB_IRQ_MASK.w1c = 0#64 := rfl
  simp only [State.writeFields, hd, hrw, hw1c, BitVec.allOnes_and, BitVec.and_allOnes, BitVec.and_zero, BitVec.zero_and, BitVec.not_zero]

/-- No cause reads the interrupt mask. -/
theorem State.cause_setReg_irqMask (w : Word) (i : Nat) : (s.setReg R.GLB_IRQ_MASK w).cause i = s.cause i := by
  have hreg (o : Nat) (ho : o ≠ R.GLB_IRQ_MASK) : (s.setReg R.GLB_IRQ_MASK w).reg o = s.reg o := s.reg_setReg_ne _ o w ho
  have hcore (j : Nat) : R.CORE_ERR j ≠ R.GLB_IRQ_MASK := by
    unfold R.CORE_ERR R.GLB_IRQ_MASK
    omega
  have hof : (s.setReg R.GLB_IRQ_MASK w).causeOf i = s.causeOf i := by
    unfold State.causeOf State.bit State.fld
    split <;> simp (disch := decide) only [hreg, hreg _ (hcore _)]
  unfold State.cause
  rw [hof, hreg _ (by decide)]

theorem State.canMaster_setReg_irqMask (w : Word) : (s.setReg R.GLB_IRQ_MASK w).canMaster = s.canMaster := by
  unfold State.canMaster State.bit State.fld
  rw [State.reg_setReg_ne _ _ _ _ (by decide)]
  rfl

/-- Whether mask bit i falls from old to new while cause i reads 1 (R595). -/
def State.unmasks (s : State) (old new : Word) (i : Nat) : Bool := old.getLsbD i && !new.getLsbD i && s.cause i

/-- Raises the vectors of the causes that a new mask uncovers. -/
def State.raiseUncovered (s : State) (old new : Word) (base : Nat) : List Nat → State :=
  List.foldl (fun (t : State) i => if s.unmasks old new i then t.raiseVec (base + i) else t) s

theorem exec_glbIrqMaskWrite {r : Req} {h : Half} {w : Word} (ht : s.takesWrite r R.GLB_IRQ_MASK = true) :
    let new := (s.reg R.GLB_IRQ_MASK &&& ~~~ halfMask h) ||| (w &&& halfMask h)
    exec (.glbIrqMaskWrite r h w) s = .next ((s.setReg R.GLB_IRQ_MASK new).raiseUncovered (s.reg R.GLB_IRQ_MASK) new
      (s.fld R.GLB_IRQ_CFG F.GLB_IRQ_CFG_BASE) (List.range 64)) := by
  intro new
  show (.next (s.writeIrqMask r h w) : Out) = _
  rw [State.writeIrqMask, State.guardW_takes _ _ _ _ ht]
  simp only [State.writeFields_irqMask, State.reg_setReg_same]
  rfl

theorem State.raiseUncovered_sends (old new : Word) (base : Nat) (l : List Nat) : SendsOnly s (s.raiseUncovered old new base l) := by
  refine SendsOnly.foldl (fun t i => ?_) l s
  split
  · exact State.raiseVec_sends _
  · exact .refl t

theorem State.raiseUncovered_none {old new : Word} (base : Nat) (l : List Nat) (hno : ∀ i, s.unmasks old new i = false) :
    s.raiseUncovered old new base l = s :=
  List.foldl_fixed' (fun i => by rw [hno i]; rfl) l

/-- The message of an uncovered cause leaves, whatever is sent before and after it. -/
theorem State.raiseUncovered_msg {old new : Word} {base i : Nat} {l : List Nat} (hi : i ∈ l) (hu : s.unmasks old new i = true)
    (he : s.host.msixEnable = true) (hm : s.vecMasked (base + i) = false) (hc : s.canMaster = true) (hv : base + i ≤ 2047) :
    s.msixMsg (base + i) ∈ (s.raiseUncovered old new base l).out.drop s.out.length := by
  obtain ⟨l1, l2, rfl⟩ := List.append_of_mem hi
  have hpre := State.raiseUncovered_sends (s := s) old new base l1
  set t := s.raiseUncovered old new base l1 with ht
  have hraise : t.raiseVec (base + i) = t.emit (s.msixMsg (base + i)) := by
    rw [State.raiseVec_master hv (hpre.msixEnable.trans he) ((hpre.vecMasked _).trans hm) (hpre.canMaster.trans hc)]
    simp only [State.msixMsg, hpre.msixWord]
  have hall : s.raiseUncovered old new base (l1 ++ i :: l2) =
      l2.foldl (fun (t : State) i => if s.unmasks old new i then t.raiseVec (base + i) else t) (t.emit (s.msixMsg (base + i))) := by
    rw [← hraise]
    simp only [State.raiseUncovered, List.foldl_append, List.foldl_cons, hu, if_true, ht]
  have hpost : (t.emit (s.msixMsg (base + i))).out <+: (s.raiseUncovered old new base (l1 ++ i :: l2)).out := by
    rw [hall]
    refine (SendsOnly.foldl (fun t i => ?_) l2 _).2
    split
    · exact State.raiseVec_sends _
    · exact .refl t
  refine (hpost.drop _).subset ?_
  rw [State.emit, List.drop_append_of_le_length hpre.2.length_le]
  exact List.mem_append_right _ (by simp)

/-! ### The vectors that waited -/

/-- Sends a vector that waited, or keeps it pending where it was masked since (log 16). -/
def State.sendWaited (s : State) (v : Nat) : State := if s.vecMasked v then s.setPba v true else s.sendVec v

theorem State.sendWaited_sends (v : Nat) : SendsOnly s (s.sendWaited v) := by
  unfold State.sendWaited
  split
  · exact State.setPba_sends v true
  · exact State.sendVec_sends v

theorem State.sendWaiting_master (hc : s.canMaster = true) :
    s.sendWaiting = s.host.waiting.foldl State.sendWaited { s with host := { s.host with waiting := [] } } := if_pos hc

theorem State.sendWaiting_idle (hc : s.canMaster = false) : s.sendWaiting = s := by
  simp [State.sendWaiting, hc]

theorem State.sendWaiting_none (hw : s.host.waiting = []) : s.sendWaiting = s := by
  cases hc : s.canMaster with
  | false => exact State.sendWaiting_idle hc
  | true =>
    rw [State.sendWaiting_master hc, hw, List.foldl_nil, ← hw]

theorem State.sendWaiting_sends : SendsOnly s s.sendWaiting := by
  cases hc : s.canMaster with
  | false => rw [State.sendWaiting_idle hc]; exact .refl s
  | true =>
    rw [State.sendWaiting_master hc]
    exact SendsOnly.trans (t := { s with host := { s.host with waiting := [] } }) ⟨rfl, List.prefix_refl _⟩
      (SendsOnly.foldl (fun t v => State.sendWaited_sends v) _ _)

/-- While the endpoint masters the link no vector joins those that wait. -/
theorem State.sendWaited_waiting (hc : s.canMaster = true) : (s.sendWaited v).host.waiting = s.host.waiting := by
  unfold State.sendWaited
  split
  · rfl
  · rw [State.sendVec_master hc]; rfl

theorem State.foldl_sendWaited_waiting (l : List Nat) :
    ∀ s : State, s.canMaster = true → (l.foldl State.sendWaited s).host.waiting = s.host.waiting := by
  induction l with
  | nil => exact fun _ _ => rfl
  | cons v l ih =>
    intro s hc
    exact (ih _ ((State.sendWaited_sends v).canMaster.trans hc)).trans (State.sendWaited_waiting hc)

theorem State.sendWaiting_waiting (hc : s.canMaster = true) : s.sendWaiting.host.waiting = [] := by
  rw [State.sendWaiting_master hc]
  exact State.foldl_sendWaited_waiting _ _ hc

theorem State.sendWaiting_one (hc : s.canMaster = true) (hw : s.host.waiting = [v]) (hm : s.vecMasked v = false) :
    s.sendWaiting.out = s.out ++ [s.msixMsg v] := by
  have hsend : State.sendWaited { s with host := { s.host with waiting := [] } } v =
      ({ s with host := { s.host with waiting := [] } } : State).emit (s.msixMsg v) := by
    unfold State.sendWaited
    rw [if_neg (by simpa [State.vecMasked, State.msixWord] using hm)]
    exact State.sendVec_master hc
  rw [State.sendWaiting_master hc, hw, List.foldl_cons, List.foldl_nil, hsend]
  rfl

end Sys2Proof.Machine
end

section
/-! The link's fall, and the writes of the endpoint's configuration (R587, R593, R604). -/

namespace Sys2Proof.Machine

variable {s : State}

theorem State.linkLost_quiet (hq : ∀ o ∈ s.host.reads, inHostWindow o.addr = false) :
    s.linkLost = s.setFld R.GLB_HOST_STAT F.GLB_HOST_STAT_LINK_UP 0 := by
  have hlost : s.host.reads.filter (fun o => inHostWindow o.addr) = [] := by
    rw [List.filter_eq_nil_iff]
    exact fun o ho => by simp [hq o ho]
  have hkeep : s.host.reads.filter (fun o => !inHostWindow o.addr) = s.host.reads := by
    rw [List.filter_eq_self]
    exact fun o ho => by simp [hq o ho]
  unfold State.linkLost
  rw [hlost, hkeep]
  rfl

/-- The link has fallen with one read outstanding, which is counted (R593). -/
def State.oneReadLost (s : State) : State :=
  ({ s with host := { s.host with reads := [] } }.setFld R.GLB_HOST_STAT F.GLB_HOST_STAT_LINK_UP 0).satAdd R.GLB_HOST_STAT
    F.GLB_HOST_STAT_HOST_DROPS 1

theorem State.qBound_oneReadLost (q : Nat) : s.oneReadLost.qBound q = s.qBound q := by
  have hne : R.QUE_CFG q ≠ R.GLB_HOST_STAT := by
    unfold R.QUE_CFG R.GLB_HOST_STAT
    omega
  unfold State.qBound State.oneReadLost State.satAdd
  rw [State.bit_setFld_ne _ _ _ _ _ _ hne, State.bit_setFld_ne _ _ _ _ _ _ hne]
  rfl

theorem State.linkUp_oneReadLost : s.oneReadLost.bit R.GLB_HOST_STAT F.GLB_HOST_STAT_LINK_UP = false :=
  (State.bit_setFld_other _ _ _ _ _ (by decide) (by decide)).trans (State.bit_setFld_same _ _ _ 0 (by decide))

theorem State.hostDrops_oneReadLost : s.oneReadLost.fld R.GLB_HOST_STAT F.GLB_HOST_STAT_HOST_DROPS =
    min (2 ^ F.GLB_HOST_STAT_HOST_DROPS.w - 1) (s.fld R.GLB_HOST_STAT F.GLB_HOST_STAT_HOST_DROPS + 1) := by
  unfold State.oneReadLost
  rw [State.fld_satAdd_same _ _ _ 1 (by decide), State.fld_setFld_other _ _ _ _ _ (by decide) (by decide)]
  rfl

/-- A single descriptor read that the link's fall ends gives its queue zeros. -/
theorem State.linkLost_desc {o : OutRead} {q : Nat} (hr : s.host.reads = [o]) (hw : inHostWindow o.addr = true) (ho : o.what = .desc q)
    (hq : s.qBound q = true) : s.linkLost = s.oneReadLost.takeDescriptor q (List.replicate o.len 0) false := by
  have hlost : s.host.reads.filter (fun o => inHostWindow o.addr) = [o] := by simp [hr, hw]
  have hkeep : s.host.reads.filter (fun o => !inHostWindow o.addr) = [] := by simp [hr, hw]
  have hread : s.linkLost = (s.oneReadLost.readReturns o (List.replicate o.len 0) false false).1 := by
    unfold State.linkLost
    rw [hlost, hkeep]
    simp only [List.foldl_cons, List.foldl_nil, State.lostRead, ho]
    rfl
  rw [hread]
  simp only [State.readReturns, ho, State.qBound_oneReadLost, hq, if_true]

/-- What a queue takes reaches no register of another block. -/
theorem State.takeDescriptor_reg {off : Nat} (q : Nat) (d : List Byte) (bad : Bool) (hlow : off < R.SCH_CTX_STAT 0) :
    (s.takeDescriptor q d bad).reg off = s.reg off := by
  have hring : off ≠ R.QUE_RING q := by unfold R.SCH_CTX_STAT at hlow; unfold R.QUE_RING; omega
  have hseq : off ≠ R.QUE_SEQ q := by unfold R.SCH_CTX_STAT at hlow; unfold R.QUE_SEQ; omega
  have hctl : off ≠ R.QUE_CTL q := by unfold R.SCH_CTX_STAT at hlow; unfold R.QUE_CTL; omega
  have hctx (x : Nat) : off ≠ R.SCH_CTX_STAT x := by unfold R.SCH_CTX_STAT at hlow ⊢; omega
  have hpush (t : State) (c : Cmd) : (t.pushCmd q c).reg off = t.reg off := rfl
  have hcons : (s.wrapAdd (R.QUE_RING q) F.QUE_RING_CMD_CONS 1).reg off = s.reg off := s.reg_wrapAdd_ne _ _ _ _ hring
  have haccept (t : State) (e : BitVec 32) : (t.acceptCmd q d e).reg off = t.reg off := by
    have hset (n : Nat) : (t.setFld (R.QUE_SEQ q) F.QUE_SEQ_LAST_ACCEPTED_SEQ n).reg off = t.reg off := t.reg_setFld_ne _ _ _ _ hseq
    unfold State.acceptCmd
    extract_lets s1 sch s2 o c s3
    split
    · exact hset _
    split
    · exact hset _
    split
    · rw [State.ctxState, State.reg_setFld_ne _ _ _ _ _ (hctx _), State.reg_setFld_ne _ _ _ _ _ (hctx _)]
      exact hset _
    · exact hset _
  unfold State.takeDescriptor
  extract_lets s1 expected seq
  split
  · exact hcons
  split
  · exact hcons
  split
  · exact (haccept s1 seq).trans hcons
  · rw [hpush, State.reg_satAdd_ne _ _ _ _ _ hctl]
    exact hcons

theorem exec_perstAssert : exec .perstAssert s = .next { s.linkLost with host := { reads := s.linkLost.host.reads } } := rfl

theorem exec_pcieConfigWrite_unanswered (w : CfgWrite) (ha : s.bootAnswers = false) : exec (.pcieConfigWrite w) s = .next s :=
  congrArg Host.Outcome.next (if_pos (by simp [ha]))

/-- A configuration write that the endpoint answers, while no vector waits (R587, R593). -/
theorem exec_pcieConfigWrite_power (b : Bool) (ha : s.bootAnswers = true) (hw : s.host.waiting = []) :
    exec (.pcieConfigWrite (.power b)) s = .next { s with host := { s.host with d3hot := b } } :=
  congrArg Host.Outcome.next ((if_neg (by simp [ha])).trans (State.sendWaiting_none hw))

theorem exec_pcieConfigWrite_busMaster (b : Bool) (ha : s.bootAnswers = true) (hw : s.host.waiting = []) :
    exec (.pcieConfigWrite (.busMaster b)) s = .next { s with host := { s.host with busMaster := b } } :=
  congrArg Host.Outcome.next ((if_neg (by simp [ha])).trans (State.sendWaiting_none hw))

theorem exec_pcieConfigWrite_msix (en fm : Bool) (ha : s.bootAnswers = true) (hp : s.host.pba = []) :
    exec (.pcieConfigWrite (.msix en fm)) s = .next { s with host := { s.host with msixEnable := en, msixFnMask := fm } } :=
  congrArg Host.Outcome.next ((if_neg (by simp [ha])).trans (State.unmaskedAll_none hp))

/-- The endpoint masters the link that has just come up where its configuration lets it (R593). -/
theorem State.canMaster_linkUp : (s.setFld R.GLB_HOST_STAT F.GLB_HOST_STAT_LINK_UP 1).canMaster = (s.host.busMaster && !s.host.d3hot) := by
  unfold State.canMaster
  rw [State.bit_setFld_same _ _ _ 1 (by decide)]
  rfl

end Sys2Proof.Machine
end

section
open Sys2Proof Sys2Proof.Machine

/-- Settles O40: each request by the lemmas that say what sending, raising and unmasking a vector may change and what they send. -/
theorem vectorsAndTheLink : Obligations.VectorsAndTheLink := by
  unfold Obligations.VectorsAndTheLink
  refine ⟨fun v s => ?unmask, fun s => ⟨fun hp => ?clear, fun v hp he hc hm => ?unmaskAll⟩, fun r h w s ht => ?irqMask, fun s => ?up,
    fun s => ⟨fun hq => ⟨?down, ?perst⟩, fun q a hr hw hq => ?lost⟩,
    fun s => ⟨fun ha w => exec_pcieConfigWrite_unanswered w ha, fun ha hw => ?config⟩⟩
  case unmask =>
    set x := s.setMsix (2 * v.val + 1) (s.msixWord (2 * v.val + 1) &&& 0xFFFFFFFF)
    have hsend := State.unmasked_sends (s := x) v.val
    refine ⟨_, exec_msixUnmask_vector v, hsend.sameRegs, hsend.sameMem, (hsend.msixWord _).trans (State.msixWord_setMsix_data _ _),
      fun k hk => (hsend.msixWord k).trans (State.msixWord_setMsix_ne _ hk), fun hp => ?_, fun hp he hf hc => ?_⟩
    · rw [State.unmasked_idle (s := x) hp]
      exact ⟨rfl, rfl⟩
    · have hm : x.vecMasked v.val = false := (State.vecMasked_setMsix_data _ _).trans hf
      rw [State.unmasked_pending (s := x) he hp hm hc, ← State.msixMsg_setMsix_data]
      exact ⟨rfl, State.pba_setPba _ _⟩
  case clear =>
    exact exec_msixUnmask_function.trans (congrArg Host.Outcome.next (State.unmaskedAll_none hp))
  case unmaskAll =>
    set x : State := { s with host := { s.host with msixFnMask := false } } with hx
    have hsend := State.unmasked_sends (s := x) v
    refine ⟨_, exec_msixUnmask_function.trans (congrArg Host.Outcome.next (State.unmaskedAll_one hp)), hsend.sameRegs, hsend.sameMem,
      hsend.msixFnMask, ?_⟩
    have hpend : Store.get (fun _ => false) x.host.pba v = true := by simp [hx, hp, Store.get]
    rw [State.unmasked_pending (s := x) he hpend hm hc]
    rfl
  case irqMask =>
    set new := (s.reg R.GLB_IRQ_MASK &&& ~~~ halfMask h) ||| (w &&& halfMask h)
    set x := s.setReg R.GLB_IRQ_MASK new with hx
    have hsend := State.raiseUncovered_sends (s := x) (s.reg R.GLB_IRQ_MASK) new (s.fld R.GLB_IRQ_CFG F.GLB_IRQ_CFG_BASE) (List.range 64)
    have hmask := (hsend.reg R.GLB_IRQ_MASK).trans (State.reg_setReg_same s _ _)
    have hcause := State.cause_setReg_irqMask (s := s) new
    refine ⟨_, exec_glbIrqMaskWrite ht, ?_, hsend.sameMem, hmask, hsend.2, fun i hi hold hclr hc he hm hmaster hv => ?_, fun hno => ?_⟩
    · exact fun o ho => (hsend.reg o).trans ((SameRegs.refl _ s).setReg _ _ (by simp) o ho)
    · rw [hmask] at hclr
      have hu : x.unmasks (s.reg R.GLB_IRQ_MASK) new i = true := by simp [State.unmasks, hold, hclr, hcause i, hx, hc]
      exact State.raiseUncovered_msg (s := x) (List.mem_range.mpr hi) hu he hm ((State.canMaster_setReg_irqMask new).trans hmaster) hv
    · have hu (i : Nat) : x.unmasks (s.reg R.GLB_IRQ_MASK) new i = false := by
        by_contra hu
        simp only [State.unmasks, Bool.not_eq_false, Bool.and_eq_true, Bool.not_eq_true'] at hu
        obtain ⟨⟨hold, hclr⟩, hc⟩ := hu
        rw [hcause i, hno i (BitVec.lt_of_getLsbD hold) hold (hmask ▸ hclr)] at hc
        cases hc
      rw [State.raiseUncovered_none _ _ hu]
      exact ⟨rfl, rfl⟩
  case up =>
    set x := s.setFld R.GLB_HOST_STAT F.GLB_HOST_STAT_LINK_UP 1
    have hsend := State.sendWaiting_sends (s := x)
    have hmaster : x.canMaster = (s.host.busMaster && !s.host.d3hot) := State.canMaster_linkUp
    refine ⟨x.sendWaiting, rfl, fun o ho => (hsend.reg o).trans (SameRegs.setFld_self s _ _ (by simp) o ho), hsend.sameMem, ?_, fun hoff => ?_,
      fun hbm hd3 => ?_⟩
    · exact (congrArg (F.GLB_HOST_STAT_LINK_UP.get · == 1) (hsend.reg _)).trans (State.bit_setFld_same s _ _ 1 (by decide))
    · rw [State.sendWaiting_idle (hmaster.trans (by rcases hoff with h | h <;> simp [h]))]
      exact ⟨rfl, rfl⟩
    · have hc : x.canMaster = true := hmaster.trans (by simp [hbm, hd3])
      refine ⟨State.sendWaiting_waiting hc, fun hw => ?_, fun v hw hm => State.sendWaiting_one hc hw hm⟩
      rw [State.sendWaiting_none (s := x) hw]
      rfl
  case down =>
    rw [show exec .pcieLinkDown s = .next s.linkLost from rfl, State.linkLost_quiet hq]
    exact ⟨_, rfl, RegsOnly.setFld s _ _ (by simp), State.bit_setFld_same s _ _ 0 (by decide)⟩
  case perst =>
    rw [exec_perstAssert, State.linkLost_quiet hq]
    exact ⟨_, rfl, SameRegs.setFld_self s _ _ (by simp), State.bit_setFld_same s _ _ 0 (by decide), rfl, rfl⟩
  case lost =>
    obtain ⟨hmem, hhost, ⟨c, hcmds, hdesc, -⟩, -⟩ := State.takeDescriptor_took (s := s.oneReadLost) q (List.replicate 64 0) false
    have hstat := State.takeDescriptor_reg (s := s.oneReadLost) q (List.replicate 64 0) false (off := R.GLB_HOST_STAT) (by decide)
    refine ⟨_, c, congrArg Host.Outcome.next (State.linkLost_desc hr hw rfl hq), hmem, congrArg HostSt.reads hhost, ?_, ?_, hcmds, hdesc⟩
    · exact (congrArg (F.GLB_HOST_STAT_LINK_UP.get · == 1) hstat).trans State.linkUp_oneReadLost
    · exact (congrArg F.GLB_HOST_STAT_HOST_DROPS.get hstat).trans State.hostDrops_oneReadLost
  case config =>
    exact ⟨fun b => exec_pcieConfigWrite_power b ha hw, fun b => exec_pcieConfigWrite_busMaster b ha hw,
      fun hp en fm => exec_pcieConfigWrite_msix en fm ha hp⟩

end

section
/-! Registers written one after another, and the digests that eight of them hold (R69). -/

namespace Sys2Proof.Machine

variable {s t u : State} {α : Type}

/-! ### Folds of register writes -/

/-- t differs from s in registers alone. -/
def RegsAlone (s t : State) : Prop := { t with regs := s.regs } = s

theorem RegsAlone.refl (s : State) : RegsAlone s s := rfl

theorem RegsAlone.setReg (off : Nat) (w : Word) : RegsAlone s (s.setReg off w) := rfl

theorem RegsAlone.setFld (off : Nat) (f : Fld) (x : Nat) : RegsAlone s (s.setFld off f x) := rfl

theorem RegsAlone.trans (h1 : RegsAlone s t) (h2 : RegsAlone t u) : RegsAlone s u :=
  (congrArg (fun x : State => { x with regs := s.regs }) h2 :).trans h1

section
variable (h : RegsAlone s t)
include h

theorem RegsAlone.mem : t.mem = s.mem := (congrArg State.mem h :)
theorem RegsAlone.rd (a : Nat) : t.rd a = s.rd a := (congrArg (fun x : State => x.rd a) h :)
theorem RegsAlone.time : t.time = s.time := (congrArg State.time h :)
theorem RegsAlone.spd : t.spd = s.spd := (congrArg State.spd h :)
theorem RegsAlone.staged : t.staged = s.staged := (congrArg State.staged h :)

end

theorem RegsAlone.foldl {f : State → α → State} (hf : ∀ (t : State) (x : α), RegsAlone t (f t x)) (l : List α) : RegsAlone s (l.foldl f s) :=
  List.foldlRecOn l f (motive := RegsAlone s) (.refl s) fun t h x _ => h.trans (hf t x)

theorem State.reg_foldl_ne {f : State → α → State} {o : Nat} {l : List α} (hf : ∀ (t : State), ∀ x ∈ l, (f t x).reg o = t.reg o) :
    (l.foldl f s).reg o = s.reg o :=
  List.foldlRecOn l f (motive := fun t => t.reg o = s.reg o) rfl fun t h x hx => (hf t x hx).trans h

/-- Of writes to registers that differ, each one stands. -/
theorem State.reg_foldl_setReg {off : α → Nat} {w : α → Word} {x : α} (l : List α) (hx : x ∈ l)
    (hoff : ∀ y ∈ l, off y = off x → y = x) :
    ∀ s : State, (l.foldl (fun (t : State) y => t.setReg (off y) (w y)) s).reg (off x) = w x := by
  induction l with
  | nil => cases hx
  | cons y l ih =>
    intro s
    by_cases hin : x ∈ l
    · exact ih hin (fun z hz => hoff z (List.mem_cons_of_mem y hz)) _
    · obtain rfl : x = y := (List.mem_cons.mp hx).resolve_right hin
      rw [List.foldl_cons, State.reg_foldl_ne, State.reg_setReg_same]
      intro t z hz
      refine State.reg_setReg_ne _ _ _ _ fun he => hin ?_
      rwa [← hoff z (List.mem_cons_of_mem x hz) he.symm]

/-! ### Digests -/

theorem State.setDigest_regsAlone (off : Nat → Nat) (l : List Byte) : RegsAlone s (s.setDigest off l) :=
  .foldl (fun _ _ => .setReg _ _) _

theorem State.reg_setDigest_ne {off : Nat → Nat} {o : Nat} (l : List Byte) (ho : ∀ i, i < 8 → o ≠ off i) :
    (s.setDigest off l).reg o = s.reg o :=
  State.reg_foldl_ne fun t i hi => t.reg_setReg_ne _ _ _ (ho i (List.mem_range.mp hi))

theorem State.reg_setDigest {off : Nat → Nat} {i : Nat} (l : List Byte) (hoff : Function.Injective off) (hi : i < 8) :
    (s.setDigest off l).reg (off i) = BitVec.ofNat 64 (sliceN l (8 * i) 8) :=
  State.reg_foldl_setReg (w := fun i => BitVec.ofNat 64 (sliceN l (8 * i) 8)) _ (List.mem_range.mpr hi) (fun _ _ he => hoff he) s

theorem State.digest_congr {off : Nat → Nat} (h : ∀ i, i < 8 → t.reg (off i) = s.reg (off i)) : t.digest off = s.digest off :=
  List.flatMap_congr fun i hi => by rw [h i (List.mem_range.mp hi)]

theorem leNat_lt (l : List Byte) : leNat l < 256 ^ l.length := by
  induction l with
  | nil => decide
  | cons b l ih =>
    have hb := b.isLt
    rw [leNat, List.length_cons, Nat.pow_succ]
    omega

/-- Bytes spelt as a number and back. -/
theorem leBytes_leNat (l : List Byte) : leBytes (leNat l) l.length = l := by
  induction l with
  | nil => rfl
  | cons b l ih =>
    have hb := b.isLt
    have hrest : (b.toNat + 256 * leNat l) / 256 = leNat l := by omega
    have hlow : BitVec.ofNat 8 (b.toNat + 256 * leNat l) = b := by
      apply BitVec.eq_of_toNat_eq
      rw [BitVec.toNat_ofNat]
      omega
    rw [leNat, List.length_cons, leBytes, hrest, hlow, ih]

/-- The slices of k bytes one after another are the list's front. -/
theorem flatMap_slices {β : Type} (l : List β) (k n : Nat) : (List.range n).flatMap (fun i => (l.drop (k * i)).take k) = l.take (k * n) := by
  induction n with
  | zero => simp
  | succ n ih => rw [List.range_succ, List.flatMap_append, ih, List.flatMap_singleton, Nat.mul_succ, List.take_add]

theorem State.digest_setDigest {off : Nat → Nat} {l : List Byte} (hoff : Function.Injective off) (hl : l.length = 64) :
    (s.setDigest off l).digest off = l := by
  have hword {i : Nat} (hi : i < 8) : leBytes ((s.setDigest off l).reg (off i)).toNat 8 = (l.drop (8 * i)).take 8 := by
    have hlen : ((l.drop (8 * i)).take 8).length = 8 := by
      rw [List.length_take, List.length_drop, hl]
      omega
    have hlt := leNat_lt ((l.drop (8 * i)).take 8)
    have hback := leBytes_leNat ((l.drop (8 * i)).take 8)
    rw [hlen] at hlt hback
    have hpow : 256 ^ 8 = 2 ^ 64 := by decide
    rw [State.reg_setDigest l hoff hi, BitVec.toNat_ofNat, sliceN, ← hpow, Nat.mod_eq_of_lt hlt, hback]
  rw [State.digest, List.flatMap_congr fun i hi => hword (List.mem_range.mp hi), flatMap_slices, List.take_of_length_le (by omega)]

theorem keccakRound_length (a : List (BitVec 64)) (rc : BitVec 64) : (keccakRound a rc).length = 25 := by
  simp [keccakRound]

theorem keccakF_length {a : List (BitVec 64)} (ha : a.length = 25) : (keccakF a).length = 25 :=
  List.foldlRecOn keccakRC keccakRound (motive := fun a => a.length = 25) ha fun a _ rc _ => keccakRound_length a rc

theorem absorbAll_length (n : Nat) : ∀ (a : List (BitVec 64)) (l : List (BitVec 8)), a.length = 25 → (absorbAll a l n).length = 25 := by
  induction n with
  | zero => exact fun a l ha => ha
  | succ n ih => exact fun a l _ => ih _ _ (keccakF_length (by simp))

theorem sha3_512_length (l : List (BitVec 8)) : (sha3_512 l).length = 64 := by
  have hlane := absorbAll_length ((sha3Pad l).length / 72) (List.replicate 25 0) (sha3Pad l) List.length_replicate
  have hbytes (w : BitVec 64) : (laneBytes w).length = 8 := by simp [laneBytes]
  simp only [sha3_512, List.length_flatMap, hbytes, List.map_const', List.length_take, hlane, List.sum_replicate, smul_eq_mul]
  decide

theorem finalDigest_length (l : List Sect) : (finalDigest l).length = 64 := by
  have hchain : ∀ (l : List Sect) (d : List Byte), d.length = 64 → (chain d l).1.length = 64 := by
    intro l
    induction l with
    | nil => exact fun d hd => hd
    | cons x l ih =>
      intro d hd
      unfold chain
      extract_lets e
      split
      · exact hd
      split
      · exact ih e (sha3_512_length _)
      · exact sha3_512_length _
  exact hchain l _ (by simp)

/-! ### Bytes written as they stand -/

theorem State.wrBytes_regs (l : List Byte) : ∀ (s : State) (a : Nat), (s.wrBytes a l).regs = s.regs := by
  induction l with
  | nil => exact fun _ _ => rfl
  | cons b l ih => exact fun s a => ih (s.wr a b) (a + 1)

theorem State.reg_wrBytes (a : Nat) (l : List Byte) (o : Nat) : (s.wrBytes a l).reg o = s.reg o := by
  rw [State.reg, State.wrBytes_regs]
  rfl

theorem State.rd_wrBytes_zero (l : List Byte) (a : Nat) : (s.wrBytes 0 l).rd a = if a < l.length then l.getD a 0 else s.rd a := by
  split
  next ha =>
    have h := State.rd_wrBytes_in l s 0 a ha
    rw [Nat.zero_add] at h
    rw [h, List.getD_eq_getElem _ _ ha]
  next ha => exact State.rd_wrBytes_out l s 0 a (by omega)

theorem State.rd_wrBytes_take {l : List Byte} {n : Nat} (hn : n ≤ l.length) (a : Nat) :
    (s.wrBytes 0 (l.take n)).rd a = if a < n then l.getD a 0 else s.rd a := by
  rw [State.rd_wrBytes_zero, List.length_take, Nat.min_eq_left hn]
  split
  next ha => rw [List.getD_eq_getElem?_getD, List.getD_eq_getElem?_getD, List.getElem?_take_of_lt ha]
  next => rfl

/-! ### Raising the vector of a cause -/

theorem State.irqEdge_sends (i : Nat) (b : Bool) : SendsOnly s (s.irqEdge i b) := by
  unfold State.irqEdge
  split
  · exact State.raiseVec_sends _
  · exact .refl s

end Sys2Proof.Machine
end
section
/-! What the boot's steps leave in the registers (R538 to R540, R611 to R614). -/

namespace Sys2Proof.Machine

variable {s t : State} {o : Nat}

/-! ### Reports in FAB_STATUS -/

/-- FAB_STATUS after the report of a check at a section (R96). -/
theorem State.reg_fabReport_status (check sect : Nat) : (s.fabReport check sect).reg R.FAB_STATUS =
    F.FAB_STATUS_DONE_EVT.set (F.FAB_STATUS_SECTION.set (F.FAB_STATUS_CHECK.set (F.FAB_STATUS_LAST_STATUS.set (s.reg R.FAB_STATUS)
      (checkStatus check).toNat) check) sect) 1 := by
  simp only [State.fabReport, State.withCause_reg, State.reg_setFld_same]

theorem State.reg_fabReport_ne (check sect : Nat) (ho : o ≠ R.FAB_STATUS) : (s.fabReport check sect).reg o = s.reg o := by
  simp only [State.fabReport, State.withCause_reg, State.reg_setFld_ne _ _ _ _ _ ho]

theorem State.fabReport_staged (check sect : Nat) : (s.fabReport check sect).staged = s.staged :=
  (congrArg State.staged (State.irqEdge_sends 1 _).1 :)

theorem State.fabReport_sameMem (check sect : Nat) : SameMem s (s.fabReport check sect) := SameMem.withCause (State.setReg_sameMem _ _)

theorem State.fld_fabReport_check (check sect : Nat) : (s.fabReport check sect).fld R.FAB_STATUS F.FAB_STATUS_CHECK = check % 256 := by
  unfold State.fld
  simp (disch := decide) only [State.reg_fabReport_status, Fld.get_set_other, Fld.get_set_same]
  rfl

theorem State.fld_fabReport_status (check sect : Nat) :
    (s.fabReport check sect).fld R.FAB_STATUS F.FAB_STATUS_LAST_STATUS = (checkStatus check).toNat := by
  have hlt := (checkStatus check).isLt
  unfold State.fld
  simp (disch := decide) only [State.reg_fabReport_status, Fld.get_set_other, Fld.get_set_same]
  exact Nat.mod_eq_of_lt hlt

theorem State.bit_fabReport_done (check sect : Nat) : (s.fabReport check sect).bit R.FAB_STATUS F.FAB_STATUS_DONE_EVT = true := by
  unfold State.bit State.fld
  simp (disch := decide) only [State.reg_fabReport_status, Fld.get_set_same]
  rfl

theorem State.fabState_fabReport (check sect : Nat) : (s.fabReport check sect).fabState = s.fabState := by
  unfold State.fabState State.fld
  simp (disch := decide) only [State.reg_fabReport_status, Fld.get_set_other]

/-! ### The fuses (R538, R540) -/

/-- The physical cores that no map retires. -/
def State.healthyCores (s : State) : List Nat := (List.range 18).filter (fun p => !s.retiredByFuse p)

theorem State.healthyCores_length : s.healthyCores.length ≤ 18 := (List.length_filter_le _ _).trans_eq List.length_range

theorem State.healthyCores_lt {p : Nat} (hp : p ∈ s.healthyCores) : p < 18 := List.mem_range.mp (List.mem_of_mem_filter hp)

/-- CORE_STATUS of an active core on a physical one. -/
def coreStatusOf (p : Nat) : Word := wordOfFields [(F.CORE_STATUS_ACTIVE, 1), (F.CORE_STATUS_PHYS, p)]

theorem coreStatusOf_phys (p : Nat) (hp : p < 18) : F.CORE_STATUS_PHYS.get (coreStatusOf p) = p := by
  simp (disch := decide) only [coreStatusOf, wordOfFields, List.foldl_cons, List.foldl_nil, Fld.get_set_same]
  exact Nat.mod_eq_of_lt (hp.trans (by decide))

theorem coreStatusOf_active (p : Nat) : F.CORE_STATUS_ACTIVE.get (coreStatusOf p) = 1 := by
  simp (disch := decide) only [coreStatusOf, wordOfFields, List.foldl_cons, List.foldl_nil, Fld.get_set_same, Fld.get_set_other]
  rfl

/-- The map of cores before CORE_STATUS shows it. -/
def State.mapWritten (s : State) : State :=
  let used := s.healthyCores.take 16
  let spares := s.healthyCores.drop 16
  let mask (l : List Nat) : Nat := l.foldl (fun (a : Nat) p => a + 2 ^ p) 0
  (s.setReg R.FLT_MAP (wordOfFields [(F.FLT_MAP_RETIRED_PHYS, 2 ^ 18 - 1 - mask s.healthyCores), (F.FLT_MAP_SPARE_PHYS, mask spares),
    (F.FLT_MAP_ACTIVE, 2 ^ used.length - 1)])).setReg R.GLB_CAPS
      (capsOf (Config.fuseGrade.val + 1) Config.fuseStepping.toNat used.length spares.length)

theorem State.mapCores_eq : s.mapCores =
    (s.healthyCores.take 16).zipIdx.foldl (fun (t : State) p => t.setReg (R.CORE_STATUS p.2) (coreStatusOf p.1)) s.mapWritten := rfl

theorem State.mapCores_regsAlone : RegsAlone s s.mapCores := by
  rw [State.mapCores_eq]
  exact RegsAlone.trans (t := s.mapWritten) rfl (.foldl (fun _ _ => .setReg _ _) _)

theorem State.reg_mapCores_other (ho : ∀ n, o ≠ R.CORE_STATUS n) : s.mapCores.reg o = s.mapWritten.reg o := by
  rw [State.mapCores_eq]
  exact State.reg_foldl_ne fun t p _ => t.reg_setReg_ne _ _ _ (ho p.2)

theorem State.reg_mapCores_ne (ho : ∀ n, o ≠ R.CORE_STATUS n) (hmap : o ≠ R.FLT_MAP) (hcaps : o ≠ R.GLB_CAPS) :
    s.mapCores.reg o = s.reg o := by
  rw [State.reg_mapCores_other ho, State.mapWritten, State.reg_setReg_ne _ _ _ _ hcaps, State.reg_setReg_ne _ _ _ _ hmap]

theorem coreStatus_injective : Function.Injective R.CORE_STATUS := by
  intro n m h
  unfold R.CORE_STATUS at h
  omega

/-- Logical core n sits on the healthy physical core at place n (R540). -/
theorem State.reg_mapCores_core {n p : Nat} (hn : n < 16) (hp : s.healthyCores[n]? = some p) : s.mapCores.reg (R.CORE_STATUS n) = coreStatusOf p := by
  have hmem : (p, n) ∈ (s.healthyCores.take 16).zipIdx := by
    rw [List.mk_mem_zipIdx_iff_getElem?, List.getElem?_take, if_pos hn, hp]
  refine State.reg_foldl_setReg (off := fun p : Nat × Nat => R.CORE_STATUS p.2) (w := fun p => coreStatusOf p.1) (x := (p, n)) _ hmem ?_ _
  rintro ⟨p', n'⟩ hmem' he
  obtain rfl : n' = n := coreStatus_injective he
  rw [List.mk_mem_zipIdx_iff_getElem?] at hmem hmem'
  rw [Option.some.inj (hmem'.symm.trans hmem)]

theorem State.active_mapCores : s.mapCores.fld R.FLT_MAP F.FLT_MAP_ACTIVE = 2 ^ min 16 s.healthyCores.length - 1 := by
  have hne (n : Nat) : R.FLT_MAP ≠ R.CORE_STATUS n := by
    unfold R.FLT_MAP R.CORE_STATUS
    omega
  have hlt : 2 ^ min 16 s.healthyCores.length - 1 < 2 ^ 16 :=
    (Nat.sub_lt (Nat.two_pow_pos _) Nat.one_pos).trans_le (Nat.pow_le_pow_right (by decide) (Nat.min_le_left _ _))
  rw [State.fld, State.reg_mapCores_other hne, State.mapWritten, State.reg_setReg_ne _ _ _ _ (by decide), State.reg_setReg_same]
  simp (disch := decide) only [wordOfFields, List.foldl_cons, List.foldl_nil, Fld.get_set_same, List.length_take]
  exact Nat.mod_eq_of_lt hlt

theorem State.caps_mapCores : s.mapCores.reg R.GLB_CAPS =
    capsOf (Config.fuseGrade.val + 1) Config.fuseStepping.toNat (min 16 s.healthyCores.length) (s.healthyCores.length - 16) := by
  have hne (n : Nat) : R.GLB_CAPS ≠ R.CORE_STATUS n := by
    unfold R.GLB_CAPS R.CORE_STATUS
    omega
  rw [State.reg_mapCores_other hne, State.mapWritten, State.reg_setReg_same, List.length_take, List.length_drop]

theorem capsOf_fields (grade stepping cores spares : Nat) : F.GLB_CAPS_GRADE.get (capsOf grade stepping cores spares) = grade % 2 ^ 4 ∧
    F.GLB_CAPS_CORES_ACTIVE.get (capsOf grade stepping cores spares) = cores % 2 ^ 8 ∧
    F.GLB_CAPS_SPARES_LEFT.get (capsOf grade stepping cores spares) = spares % 2 ^ 4 := by
  refine ⟨?_, ?_, ?_⟩ <;>
    simp (disch := decide) only [capsOf, wordOfFields, List.foldl_cons, List.foldl_nil, Fld.get_set_same, Fld.get_set_other] <;> rfl

theorem recsUsed_le (l : List Nat) : recsUsed l ≤ l.length := by
  refine List.foldlRecOn l.zipIdx _ (motive := fun n => n ≤ l.length) (Nat.zero_le _) fun n hn p hp => ?_
  split
  · exact hn
  · have := List.snd_lt_of_mem_zipIdx hp
    omega

theorem State.reg_mapColumns_ne (ho : ∀ b, o ≠ R.SPD_BANK_STAT b) : s.mapColumns.reg o = s.reg o :=
  State.reg_foldl_ne fun t _ _ => t.reg_satAdd_ne _ _ _ _ (ho _)

theorem State.mapColumns_regsAlone : RegsAlone s s.mapColumns := .foldl (fun _ _ => .setFld _ _ _) _

end Sys2Proof.Machine
end
section
/-! The steps of the boot, one after another: what each does at its stage, and that it does nothing at another (R612 to R614). -/

namespace Sys2Proof.Machine

variable {s t : State} {o : Nat}

theorem State.bootStage_setBoot {x : Nat} (hx : x < 16) : (s.setBoot x).bootStage = x :=
  (s.fld_setFld_same _ _ x (by decide)).trans (Nat.mod_eq_of_lt hx)

/-! ### BOOT_FUSES_DONE -/

/-- Device time counts, since the PLL has locked (R613). -/
def State.pllLocked (s : State) : State := { s with time := { s.time with running := true } }.setFld R.TIME_STAT F.TIME_STAT_PLL_LOCK 1

theorem State.pllLock_pllLocked : s.pllLocked.bit R.TIME_STAT F.TIME_STAT_PLL_LOCK = true := State.bit_setFld_same _ _ _ 1 (by decide)

theorem State.reg_pllLocked_ne (ho : o ≠ R.TIME_STAT) : s.pllLocked.reg o = s.reg o := by
  rw [State.pllLocked, State.reg_setFld_ne _ _ _ _ _ ho]
  rfl

theorem State.healthyCores_pllLocked : s.pllLocked.healthyCores = s.healthyCores := by
  have hrec (i : Nat) : s.pllLocked.fld (R.FLT_FUSE_REC i) F.FLT_FUSE_REC_RECORD = s.fld (R.FLT_FUSE_REC i) F.FLT_FUSE_REC_RECORD :=
    congrArg _ (State.reg_pllLocked_ne (by unfold R.FLT_FUSE_REC R.TIME_STAT; omega))
  simp only [State.healthyCores, State.retiredByFuse, State.fuseRecs, hrec]
  rfl

/-- The registers that show the fuses, n records of them. -/
def State.fuseRegs (s : State) (n : Nat) : State :=
  let s1 := (s.mapCores.mapColumns.setFld R.FLT_STAT F.FLT_STAT_FUSES_USED n).setBit R.FLT_STAT F.FLT_STAT_FUSE_FULL (n == 128)
  s1.setBit R.CHD_CFG F.CHD_CFG_MANAGER (s1.hasChords && s.sec.straps.manager)

/-- Every bank holds zeros, and no word of it an error (R270). -/
def State.banksZeroed (s : State) : State := { s with mem := s.mem.filter (fun p => decide (p.1 < 0x100000000000)), spd := {} }

theorem RegsAlone.banksZeroed (h : RegsAlone s t) : RegsAlone s.banksZeroed t.banksZeroed := congrArg State.banksZeroed h

theorem State.rd_banksZeroed (a : Nat) : s.banksZeroed.rd a = if a < 0x100000000000 then s.rd a else 0 := by
  rw [State.rd, State.banksZeroed, Store.get_filter_key _ (fun k => decide (k < 0x100000000000))]
  simp only [decide_eq_true_eq]
  rfl

/-- With the fuses applied the boot goes on to HBM. -/
def State.fusesApplied (s : State) (n : Nat) : State := (s.fuseRegs n).banksZeroed.showKeyState.setBoot 2

theorem exec_bootFusesDone_idle (ok : Bool) (hno : s.bootStage ≠ 1 ∨ s.sec.inReset = true) : exec (.bootFusesDone ok) s = .next s :=
  congrArg Host.Outcome.next (if_pos hno)

theorem exec_bootFusesDone_bad (h1 : s.bootStage = 1) (hr : s.sec.inReset = false) :
    exec (.bootFusesDone false) s = .next (s.pllLocked.setBoot 8) :=
  congrArg Host.Outcome.next (if_neg (by simp [h1, hr]))

theorem exec_bootFusesDone_good (h1 : s.bootStage = 1) (hr : s.sec.inReset = false) :
    exec (.bootFusesDone true) s = .next (s.pllLocked.fusesApplied (recsUsed s.fuseRecs)) :=
  congrArg Host.Outcome.next (if_neg (by simp [h1, hr]))

theorem State.fuseRegs_regsAlone (n : Nat) : RegsAlone s (s.fuseRegs n) :=
  .trans (.trans State.mapCores_regsAlone State.mapColumns_regsAlone) rfl

theorem State.fusesApplied_regsAlone (n : Nat) : RegsAlone s.banksZeroed (s.fusesApplied n) :=
  .trans (.trans (s.fuseRegs_regsAlone n).banksZeroed (State.setDigest_regsAlone _ _)) (.setFld _ _ _)

theorem State.rd_fusesApplied (n a : Nat) : (s.fusesApplied n).rd a = if a < 0x100000000000 then s.rd a else 0 :=
  ((s.fusesApplied_regsAlone n).rd a).trans (s.rd_banksZeroed a)

/-- After the map of cores, the registers below the banks' and the map itself are written no more. -/
theorem State.reg_fusesApplied (n : Nat) (ho : o < R.SPD_BANK_STAT 0 ∨ o = R.FLT_MAP) : (s.fusesApplied n).reg o = s.mapCores.reg o := by
  have hbank (b : Nat) : o ≠ R.SPD_BANK_STAT b := by
    unfold R.SPD_BANK_STAT R.FLT_MAP at *
    omega
  have hkey (i : Nat) (_ : i < 8) : o ≠ R.SEC_KEY_STATE i := by
    unfold R.SPD_BANK_STAT R.FLT_MAP at ho
    unfold R.SEC_KEY_STATE
    omega
  have hrest : o ≠ R.FLT_STAT ∧ o ≠ R.CHD_CFG ∧ o ≠ R.SEC_BOOT_STAT := by
    unfold R.SPD_BANK_STAT R.FLT_MAP at ho
    unfold R.FLT_STAT R.CHD_CFG R.SEC_BOOT_STAT
    omega
  obtain ⟨hflt, hchd, hsec⟩ := hrest
  rw [State.fusesApplied, State.setBoot, State.reg_setFld_ne _ _ _ _ _ hsec, State.showKeyState, State.reg_setDigest_ne _ hkey]
  show (s.fuseRegs n).reg o = _
  rw [State.fuseRegs, State.reg_setBit_ne _ _ _ _ _ hchd, State.reg_setBit_ne _ _ _ _ _ hflt, State.reg_setFld_ne _ _ _ _ _ hflt,
    State.reg_mapColumns_ne hbank]

theorem State.fusesUsed_fusesApplied {n : Nat} (hn : n < 256) : (s.fusesApplied n).fld R.FLT_STAT F.FLT_STAT_FUSES_USED = n := by
  have hkey (i : Nat) (_ : i < 8) : R.FLT_STAT ≠ R.SEC_KEY_STATE i := by
    unfold R.FLT_STAT R.SEC_KEY_STATE
    omega
  rw [State.fld, State.fusesApplied, State.setBoot, State.reg_setFld_ne _ _ _ _ _ (by decide), State.showKeyState, State.reg_setDigest_ne _ hkey]
  show (s.fuseRegs n).fld R.FLT_STAT F.FLT_STAT_FUSES_USED = n
  rw [State.fuseRegs, State.fld, State.reg_setBit_ne _ _ _ _ _ (by decide), State.setBit, ← State.fld,
    State.fld_setFld_other _ _ _ _ _ (by decide) (by decide), State.fld_setFld_same _ _ _ _ (by decide)]
  exact Nat.mod_eq_of_lt hn

/-! What the registers show with the fuses applied. -/

theorem State.pllLock_fusesApplied (k : Nat) :
    (s.fusesApplied k).bit R.TIME_STAT F.TIME_STAT_PLL_LOCK = s.bit R.TIME_STAT F.TIME_STAT_PLL_LOCK := by
  have hcore (n : Nat) : R.TIME_STAT ≠ R.CORE_STATUS n := by
    unfold R.TIME_STAT R.CORE_STATUS
    omega
  have hreg : (s.fusesApplied k).reg R.TIME_STAT = s.reg R.TIME_STAT :=
    (State.reg_fusesApplied k (.inl (by decide))).trans (State.reg_mapCores_ne hcore (by decide) (by decide))
  rw [State.bit, State.fld, hreg]
  rfl

theorem State.coreActive_fusesApplied (k n : Nat) : (s.fusesApplied k).coreActive n = decide (n < 16 ∧ n < s.healthyCores.length) := by
  rw [State.coreActive, State.fld, State.reg_fusesApplied k (.inr rfl), ← State.fld, State.active_mapCores, Nat.testBit_two_pow_sub_one]
  simp only [lt_min_iff]

theorem State.caps_fusesApplied (k : Nat) : (s.fusesApplied k).grade = Config.fuseGrade.val + 1 ∧
    (s.fusesApplied k).fld R.GLB_CAPS F.GLB_CAPS_CORES_ACTIVE = min 16 s.healthyCores.length ∧
    (s.fusesApplied k).fld R.GLB_CAPS F.GLB_CAPS_SPARES_LEFT = s.healthyCores.length - 16 := by
  have hlen := s.healthyCores_length
  have hgrade := Config.fuseGrade.isLt
  have hreg : (s.fusesApplied k).reg R.GLB_CAPS = _ := (State.reg_fusesApplied k (.inl (by decide))).trans State.caps_mapCores
  obtain ⟨hg, hc, hs⟩ := capsOf_fields (Config.fuseGrade.val + 1) Config.fuseStepping.toNat (min 16 s.healthyCores.length)
    (s.healthyCores.length - 16)
  rw [State.grade, State.fld, State.fld, State.fld, hreg, hg, hc, hs]
  omega

theorem State.core_fusesApplied (k : Nat) {n p : Nat} (hn : n < 16) (hp : s.healthyCores[n]? = some p) :
    (s.fusesApplied k).fld (R.CORE_STATUS n) F.CORE_STATUS_PHYS = p ∧ (s.fusesApplied k).bit (R.CORE_STATUS n) F.CORE_STATUS_ACTIVE = true := by
  have hlow : R.CORE_STATUS n < R.SPD_BANK_STAT 0 := by
    unfold R.CORE_STATUS R.SPD_BANK_STAT
    omega
  have hreg : (s.fusesApplied k).reg (R.CORE_STATUS n) = coreStatusOf p :=
    (State.reg_fusesApplied k (.inl hlow)).trans (State.reg_mapCores_core hn hp)
  rw [State.bit, State.fld, State.fld, hreg, coreStatusOf_active]
  exact ⟨coreStatusOf_phys p (State.healthyCores_lt (List.mem_of_getElem? hp)), rfl⟩

/-! ### HBM_TRAINING_DONE -/

/-- TRAINED and FAILED show which of n stacks have trained. -/
def State.hbmTrained (s : State) (n good : Nat) : State :=
  (s.setFld R.HBM_STAT F.HBM_STAT_TRAINED good).setFld R.HBM_STAT F.HBM_STAT_FAILED (2 ^ n - 1 - good)

theorem State.trained_hbmTrained {n good : Nat} (hg : good < 16) : (s.hbmTrained n good).fld R.HBM_STAT F.HBM_STAT_TRAINED = good := by
  rw [State.hbmTrained, State.fld_setFld_other _ _ _ _ _ (by decide) (by decide), State.fld_setFld_same _ _ _ _ (by decide)]
  exact Nat.mod_eq_of_lt hg

theorem State.hbmTrained_sameRegs (n good : Nat) : SameRegs [R.HBM_STAT, R.SEC_BOOT_STAT] s (s.hbmTrained n good) :=
  (SameRegs.setFld_self s _ _ (by simp)).setFld _ _ _ (by simp)

theorem State.bootSrc_hbmTrained (n good : Nat) :
    (s.hbmTrained n good).fld R.SEC_BOOT_STAT F.SEC_BOOT_STAT_BOOT_SRC = s.fld R.SEC_BOOT_STAT F.SEC_BOOT_STAT_BOOT_SRC :=
  (State.fld_setFld_ne _ _ _ _ _ _ (by decide)).trans (State.fld_setFld_ne _ _ _ _ _ _ (by decide))

theorem State.pickSource_eq : s.pickSource = s.setBoot
    (if s.fld R.SEC_BOOT_STAT F.SEC_BOOT_STAT_BOOT_SRC = 1 then 3 else if s.fld R.SEC_BOOT_STAT F.SEC_BOOT_STAT_BOOT_SRC = 3 then 10 else 4) := by
  unfold State.pickSource
  split
  next h => rw [h]; rfl
  next h => rw [h]; rfl
  next h1 h3 => rw [if_neg h1, if_neg h3]

/-- Where no record retires a row, post-package repair has nothing to do. -/
theorem State.pprResults_none (ppr : BitVec 128) (hrec : ∀ r ∈ s.fuseRecs, recKind r ≠ 3) :
    (List.range 128).foldl (fun (t : State) i => t.pprResult i (ppr.getLsbD i)) s = s := by
  refine List.foldlRecOn (List.range 128) _ (motive := (· = s)) rfl ?_
  rintro _ rfl i hi
  exact if_pos (.inl (hrec _ (List.mem_map_of_mem hi)))

/-- HBM holds zeros, and no unit of it is poisoned (R474). -/
def State.hbmZeroed (s : State) : State := { s with mem := s.mem.filter (fun p => decide (0x100000000000 ≤ p.1)), poison := [] }

theorem State.rd_hbmZeroed (a : Nat) : s.hbmZeroed.rd a = if a < 0x100000000000 then 0 else s.rd a := by
  rw [State.rd, State.hbmZeroed, Store.get_filter_key _ (fun k => decide (0x100000000000 ≤ k))]
  simp only [decide_eq_true_eq, ← not_lt, ite_not]
  rfl

theorem exec_hbmTrainingDone (ok : BitVec 4) (ppr : BitVec 128) (h2 : s.bootStage = 2)
    (hrec : s.sec.warm = true ∨ ∀ r ∈ s.fuseRecs, recKind r ≠ 3) :
    let n := s.fld R.GLB_CAPS F.GLB_CAPS_HBM_STACKS
    let good := ok.toNat % 2 ^ n
    exec (.hbmTrainingDone ok ppr) s = .next (if good ≠ 2 ^ n - 1 then (s.hbmTrained n good).setBoot 9
      else (s.hbmTrained n good).hbmZeroed.pickSource) := by
  have hppr : (if s.sec.warm then s else (List.range 128).foldl (fun (t : State) i => t.pprResult i (ppr.getLsbD i)) s) = s := by
    split
    next => rfl
    next hw => exact State.pprResults_none ppr (hrec.resolve_left hw)
  intro n good
  show execHbmTrainingDone ok ppr s = _
  rw [execHbmTrainingDone, if_neg (not_not_intro h2)]
  simp only [hppr]
  rfl

end Sys2Proof.Machine
end
section
/-! The steps of the boot that deal with a stream: its fetch, its rejection, and its application (R611 to R614). -/

namespace Sys2Proof.Machine

variable {s t : State} {o : Nat}

/-! ### A stream is rejected -/

/-- Where the boot goes when its stream is rejected: with source xSPI then host to the host path, once; otherwise it ends (R614). -/
def State.bootMoved (s : State) : State :=
  let s1 : State := { s with staged := none }
  if s.fld R.SEC_BOOT_STAT F.SEC_BOOT_STAT_BOOT_SRC = 2 ∧ ¬ s.bit R.SEC_BOOT_STAT F.SEC_BOOT_STAT_FALLBACK then
    (s1.setBoot 3).setFld R.SEC_BOOT_STAT F.SEC_BOOT_STAT_FALLBACK 1
  else if s.fld R.SEC_BOOT_STAT F.SEC_BOOT_STAT_BOOT_SRC = 0 then (s1.setBoot 11).setFab 0
  else s1.setBoot 11

theorem State.bootReject_eq (k : LoadErr) : s.bootReject k = s.bootMoved.fabReport k.1 k.2 := rfl

theorem State.bootMoved_regsAlone : RegsAlone { s with staged := none } s.bootMoved := by
  unfold State.bootMoved
  extract_lets s1
  split
  · rfl
  split <;> rfl

theorem State.bootMoved_sameRegs : SameRegs [R.SEC_BOOT_STAT, R.FAB_STATUS] s s.bootMoved := by
  unfold State.bootMoved
  extract_lets s1
  have h1 : SameRegs [R.SEC_BOOT_STAT, R.FAB_STATUS] s s1 := fun _ _ => rfl
  split
  · exact (h1.setFld _ _ _ (by simp)).setFld _ _ _ (by simp)
  split
  · exact (h1.setFld _ _ _ (by simp)).setFld _ _ _ (by simp)
  · exact h1.setFld _ _ _ (by simp)

theorem State.attempts_bootMoved : s.bootMoved.fld R.SEC_BOOT_STAT F.SEC_BOOT_STAT_ATTEMPTS = s.fld R.SEC_BOOT_STAT F.SEC_BOOT_STAT_ATTEMPTS := by
  unfold State.bootMoved
  extract_lets s1
  have hset (n : Nat) : (s1.setBoot n).fld R.SEC_BOOT_STAT F.SEC_BOOT_STAT_ATTEMPTS = s.fld R.SEC_BOOT_STAT F.SEC_BOOT_STAT_ATTEMPTS :=
    State.fld_setFld_other s1 _ _ _ n (by decide) (by decide)
  split
  · exact (State.fld_setFld_other _ _ _ _ _ (by decide) (by decide)).trans (hset 3)
  split
  · exact (State.fld_setFld_ne _ _ _ _ _ _ (by decide)).trans (hset 11)
  · exact hset 11

/-- Under xSPI alone a rejection is final. -/
theorem State.bootStage_bootMoved_xspi (h0 : s.fld R.SEC_BOOT_STAT F.SEC_BOOT_STAT_BOOT_SRC = 0) : s.bootMoved.bootStage = 11 := by
  unfold State.bootMoved
  rw [if_neg (by simp [h0]), if_pos h0]
  exact (State.fld_setFld_ne _ _ _ _ _ _ (by decide)).trans (State.bootStage_setBoot (by decide))

/-- Under xSPI then host the host path follows. -/
theorem State.bootMoved_fallback (h2 : s.fld R.SEC_BOOT_STAT F.SEC_BOOT_STAT_BOOT_SRC = 2)
    (hf : s.bit R.SEC_BOOT_STAT F.SEC_BOOT_STAT_FALLBACK = false) :
    s.bootMoved.bootStage = 3 ∧ s.bootMoved.bit R.SEC_BOOT_STAT F.SEC_BOOT_STAT_FALLBACK = true := by
  unfold State.bootMoved
  rw [if_pos (by simp [h2, hf])]
  exact ⟨(State.fld_setFld_other _ _ _ _ _ (by decide) (by decide)).trans (State.bootStage_setBoot (by decide)),
    State.bit_setFld_same _ _ _ 1 (by decide)⟩

/-- A rejection shows in FAB_STATUS and in SEC_BOOT_STAT, and releases the stream. -/
theorem State.bootReject_frame (k : LoadErr) :
    SameMem s (s.bootReject k) ∧ SameRegs [R.SEC_BOOT_STAT, R.FAB_STATUS] s (s.bootReject k) ∧ (s.bootReject k).staged = none := by
  rw [State.bootReject_eq]
  refine ⟨SameMem.trans (fun a => s.bootMoved_regsAlone.rd a) (State.fabReport_sameMem _ _), fun o ho => ?_,
    (State.fabReport_staged _ _).trans s.bootMoved_regsAlone.staged⟩
  exact (State.reg_fabReport_ne _ _ (by simp at ho; exact ho.2)).trans (s.bootMoved_sameRegs o ho)

theorem State.bootStat_bootReject (k : LoadErr) : (s.bootReject k).reg R.SEC_BOOT_STAT = s.bootMoved.reg R.SEC_BOOT_STAT := by
  rw [State.bootReject_eq, State.reg_fabReport_ne _ _ (by decide)]

/-! ### XSPI_FETCH_DONE -/

theorem State.attempts_attempt :
    s.attempt.fld R.SEC_BOOT_STAT F.SEC_BOOT_STAT_ATTEMPTS = min 255 (s.fld R.SEC_BOOT_STAT F.SEC_BOOT_STAT_ATTEMPTS + 1) :=
  s.fld_satAdd_same _ _ 1 (by decide)

theorem State.bootSrc_attempt : s.attempt.fld R.SEC_BOOT_STAT F.SEC_BOOT_STAT_BOOT_SRC = s.fld R.SEC_BOOT_STAT F.SEC_BOOT_STAT_BOOT_SRC :=
  s.fld_setFld_other _ _ _ _ (by decide) (by decide)

theorem State.fallback_attempt : s.attempt.bit R.SEC_BOOT_STAT F.SEC_BOOT_STAT_FALLBACK = s.bit R.SEC_BOOT_STAT F.SEC_BOOT_STAT_FALLBACK :=
  s.bit_setFld_other _ _ _ _ (by decide) (by decide)

section
variable {l : List Byte} (h4 : s.bootStage = 4)
include h4

theorem exec_xspiFetchDone_bad (hbad : ∀ x y, cutSect 0 (l.take 168) = some (x, y) →
      headerBad x (sliceN x.payload 12 4) (sliceN x.payload 16 8) = true ∨ l.length < sliceN x.payload 16 8) :
    exec (.xspiFetchDone l) s = .next (s.attempt.bootReject (ckFormat, 0)) := by
  show execXspiFetchDone l s = _
  rw [execXspiFetchDone, if_neg (not_not_intro h4)]
  cases hcut : cutSect 0 (l.take 168) with
  | none => rfl
  | some p => exact congrArg Host.Outcome.next (if_pos (hbad p.1 p.2 hcut))

theorem exec_xspiFetchDone_good {x : Sect} {y : List Byte} (hcut : cutSect 0 (l.take 168) = some (x, y))
    (hhead : headerBad x (sliceN x.payload 12 4) (sliceN x.payload 16 8) = false) (hlen : sliceN x.payload 16 8 ≤ l.length) :
    exec (.xspiFetchDone l) s = .next ({ s.attempt.wrBytes 0 (l.take (sliceN x.payload 16 8)) with
      staged := some ⟨0, sliceN x.payload 16 8⟩ }.setBoot 5) := by
  show execXspiFetchDone l s = _
  rw [execXspiFetchDone, if_neg (not_not_intro h4), hcut]
  exact congrArg Host.Outcome.next (if_neg (by simp [hhead, hlen]))

end

/-! ### BOOT_APPLY_DONE -/

/-- Plumb's refresh writes its own registers and the pins it stops. -/
theorem State.reg_plRefresh_ne (hact : ∀ a, o ≠ R.SIO_ACT_STAT a) (hplb : o ∉ [R.PLB_VALID, R.PLB_LATCHED, R.PLB_ACT_VALID, R.PLB_STAT]) :
    s.plRefresh.reg o = s.reg o := by
  have hcheck (a : Nat) (t : State) : (t.actCheck a).reg o = t.reg o := by
    induction a with
    | zero => rfl
    | succ a ih =>
      have hvalid (b : Bool) : ((t.actCheck a).setBit (R.SIO_ACT_STAT a) F.SIO_ACT_STAT_VALID b).reg o = t.reg o :=
        ((t.actCheck a).reg_setBit_ne _ _ _ b (hact a)).trans ih
      unfold State.actCheck
      extract_lets s1 s2
      split
      · split
        · exact hvalid _
        · exact (s2.reg_setFld_ne _ _ _ 0 (hact a)).trans (hvalid _)
      · exact ih
  simp only [List.mem_cons, List.not_mem_nil, or_false, not_or] at hplb
  obtain ⟨hv, hl, ha, hs⟩ := hplb
  unfold State.plRefresh
  rw [State.withCause_reg, State.actStop, hcheck, State.reg_setBit_ne _ _ _ _ _ hs, State.reg_setReg_ne _ _ _ _ ha,
    State.reg_setReg_ne _ _ _ _ hl, State.reg_setReg_ne _ _ _ _ hv]

/-- The full load ends with the start of the firmware, and Plumb's refresh (R613). -/
theorem State.fullLoad_ends (l : List Sect) : ∃ x : State, s.fullLoad l = (x.setFld R.MGT_STAT F.MGT_STAT_RUNNING 1).plRefresh := ⟨_, rfl⟩

theorem State.mgtRuns_fullLoad (l : List Sect) : (s.fullLoad l).mgtRuns = true := by
  have hact (a : Nat) : R.MGT_STAT ≠ R.SIO_ACT_STAT a := by
    unfold R.MGT_STAT R.SIO_ACT_STAT
    omega
  obtain ⟨x, hx⟩ := s.fullLoad_ends l
  rw [hx, State.mgtRuns, State.bit, State.fld, State.reg_plRefresh_ne hact (by decide), ← State.fld, State.fld_setFld_same _ _ _ 1 (by decide)]
  rfl

/-- The loader holds no stream, and FAB_STATUS shows it idle (R78). -/
theorem State.reg_unstage_ne (hstat : o ≠ R.FAB_STATUS) (hdig : ∀ i, i < 8 → o ≠ R.FAB_STAGED_DIGEST i) : s.unstage.reg o = s.reg o := by
  rw [State.unstage, State.reg_setDigest_ne _ hdig, State.setFab, State.reg_setFld_ne _ _ _ _ _ hstat]
  rfl

theorem State.staged_unstage : s.unstage.staged = none := RegsAlone.staged (State.setDigest_regsAlone _ _)

theorem State.fabState_unstage : s.unstage.fabState = 0 := by
  have hne (i : Nat) (_ : i < 8) : R.FAB_STATUS ≠ R.FAB_STAGED_DIGEST i := by
    unfold R.FAB_STATUS R.FAB_STAGED_DIGEST
    omega
  rw [State.fabState, State.fld, State.unstage, State.reg_setDigest_ne _ hne]
  exact State.fld_setFld_same _ _ _ 0 (by decide)

/-- The release of the stream and its report reach no register but the loader's. -/
theorem State.reg_released_ne (hstat : o ≠ R.FAB_STATUS) (hdig : ∀ i, i < 8 → o ≠ R.FAB_STAGED_DIGEST i) :
    (s.unstage.fabReport 0 0).reg o = s.reg o :=
  (State.reg_fabReport_ne 0 0 hstat).trans (State.reg_unstage_ne hstat hdig)

/-- A full load with digest d, ms milliseconds after the reset, is in force. -/
def State.inForce (s : State) (d : List Byte) (ms : Nat) : State :=
  (((s.setDigest R.FAB_CONFIG_DIGEST d).setFld R.GLB_BUDGET_MODE F.GLB_BUDGET_MODE_LOCKED 1).setBoot 7).setFld R.SEC_BOOT_STAT
    F.SEC_BOOT_STAT_BOOT_MS ms

theorem exec_bootApplyDone (h6 : s.bootStage = 6) : exec .bootApplyDone s = .next (((s.fullLoad s.stagedSects).inForce
    (finalDigest s.stagedSects) ((s.nowNs - s.sec.resetAt) / 1000000)).unstage.fabReport 0 0) := by
  show execBootApplyDone s = _
  rw [execBootApplyDone, if_neg (not_not_intro h6)]
  rfl

theorem configDigest_injective : Function.Injective R.FAB_CONFIG_DIGEST := by
  intro i j h
  unfold R.FAB_CONFIG_DIGEST at h
  omega

theorem configDigest_apart (i : Nat) (hi : i < 8) :
    R.FAB_CONFIG_DIGEST i ≠ R.FAB_STATUS ∧ ∀ j, j < 8 → R.FAB_CONFIG_DIGEST i ≠ R.FAB_STAGED_DIGEST j := by
  unfold R.FAB_CONFIG_DIGEST R.FAB_STATUS R.FAB_STAGED_DIGEST
  exact ⟨by omega, fun j _ => by omega⟩

section
variable (d : List Byte) (ms : Nat)

theorem State.bootStage_inForce : (s.inForce d ms).bootStage = 7 :=
  (State.fld_setFld_other _ _ _ _ _ (by decide) (by decide)).trans (State.bootStage_setBoot (by decide))

theorem State.bootMs_inForce : (s.inForce d ms).fld R.SEC_BOOT_STAT F.SEC_BOOT_STAT_BOOT_MS = ms % 2 ^ 32 := State.fld_setFld_same _ _ _ _ (by decide)

theorem State.locked_inForce : (s.inForce d ms).bit R.GLB_BUDGET_MODE F.GLB_BUDGET_MODE_LOCKED = true := by
  rw [State.inForce, State.bit_setFld_ne _ _ _ _ _ _ (by decide), State.setBoot, State.bit_setFld_ne _ _ _ _ _ _ (by decide),
    State.bit_setFld_same _ _ _ 1 (by decide)]
  rfl

theorem State.digest_inForce (hd : d.length = 64) : (s.inForce d ms).digest R.FAB_CONFIG_DIGEST = d := by
  have hboot (i : Nat) (_ : i < 8) : R.FAB_CONFIG_DIGEST i ≠ R.SEC_BOOT_STAT := by
    unfold R.FAB_CONFIG_DIGEST R.SEC_BOOT_STAT
    omega
  have hmode (i : Nat) : R.FAB_CONFIG_DIGEST i ≠ R.GLB_BUDGET_MODE := by
    unfold R.FAB_CONFIG_DIGEST R.GLB_BUDGET_MODE
    omega
  refine (State.digest_congr fun i hi => ?_).trans (State.digest_setDigest (s := s) configDigest_injective hd)
  rw [State.inForce, State.reg_setFld_ne _ _ _ _ _ (hboot i hi), State.setBoot, State.reg_setFld_ne _ _ _ _ _ (hboot i hi),
    State.reg_setFld_ne _ _ _ _ _ (hmode i)]

theorem State.mgtRuns_inForce : (s.inForce d ms).mgtRuns = s.mgtRuns := by
  have hne (i : Nat) (_ : i < 8) : R.MGT_STAT ≠ R.FAB_CONFIG_DIGEST i := by
    unfold R.MGT_STAT R.FAB_CONFIG_DIGEST
    omega
  unfold State.mgtRuns State.inForce State.setBoot
  rw [State.bit_setFld_ne _ _ _ _ _ _ (by decide), State.bit_setFld_ne _ _ _ _ _ _ (by decide), State.bit_setFld_ne _ _ _ _ _ _ (by decide)]
  unfold State.bit State.fld
  rw [State.reg_setDigest_ne _ hne]

end

end Sys2Proof.Machine
end
section
open Sys2Proof Sys2Proof.Machine

/-- Settles O44: each step of the boot by what it leaves in the registers, in memory and of the staged stream. -/
theorem bootRunsItsSteps : Obligations.BootRunsItsSteps := by
  unfold Obligations.BootRunsItsSteps
  refine ⟨fun ok s => ⟨exec_bootFusesDone_idle ok, fun h1 hr => ?fuses⟩,
    fun ok ppr s => ⟨fun h => congrArg Host.Outcome.next (if_pos h), ?hbm⟩,
    fun l s => ⟨fun h => congrArg Host.Outcome.next (if_pos h), fun h4 => ⟨fun hbad => ?rejected, fun x y hcut hhead hlen => ?fetched⟩⟩,
    fun s => ⟨fun h => congrArg Host.Outcome.next (if_pos h), fun h6 => ?applied⟩⟩
  case fuses =>
    cases ok with
    | false =>
      refine ⟨_, exec_bootFusesDone_bad h1 hr, rfl, ?_, fun _ => ⟨State.bootStage_setBoot (by decide), fun _ => rfl, ?_⟩, nofun⟩
      · exact (State.bit_setFld_ne _ _ _ _ _ _ (by decide)).trans State.pllLock_pllLocked
      · exact (SameRegs.setFld_self (s := { s with time := { s.time with running := true } }) _ _ (by simp)).setFld _ _ _ (by simp)
    | true =>
      have hused : recsUsed s.fuseRecs ≤ 128 := (recsUsed_le _).trans_eq (by simp [State.fuseRecs])
      have halone := s.pllLocked.fusesApplied_regsAlone (recsUsed s.fuseRecs)
      have hactive := State.coreActive_fusesApplied (s := s.pllLocked) (recsUsed s.fuseRecs)
      obtain ⟨hgrade, hcores, hspares⟩ := State.caps_fusesApplied (s := s.pllLocked) (recsUsed s.fuseRecs)
      rw [State.healthyCores_pllLocked] at hcores hspares
      refine ⟨_, exec_bootFusesDone_good h1 hr, by rw [halone.time]; rfl, (State.pllLock_fusesApplied _).trans State.pllLock_pllLocked, nofun,
        fun _ => ⟨State.bootStage_setBoot (by decide), State.rd_fusesApplied _, halone.spd, fun n => ?_, hgrade, hcores, hspares,
          fun n p hn hp => ?_, State.fusesUsed_fusesApplied (by omega)⟩⟩
      · rw [hactive, State.healthyCores_pllLocked]
        rfl
      · exact State.core_fusesApplied (s := s.pllLocked) _ hn (by rw [State.healthyCores_pllLocked]; exact hp)
  case hbm =>
    intro h2 hn hrec
    set n := s.fld R.GLB_CAPS F.GLB_CAPS_HBM_STACKS
    set good := ok.toNat % 2 ^ n
    have hgood : good < 16 := (Nat.mod_lt _ (Nat.two_pow_pos n)).trans_le (Nat.pow_le_pow_right (by decide) hn)
    have hregs := s.hbmTrained_sameRegs n good
    refine ⟨_, exec_hbmTrainingDone ok ppr h2 hrec, ?_⟩
    by_cases hall : good = 2 ^ n - 1
    · rw [if_neg (not_not_intro hall), State.pickSource_eq]
      refine ⟨SameRegs.setFld (t := (s.hbmTrained n good).hbmZeroed) _ _ _ hregs (by simp), ?_, fun hno => absurd hall hno,
        fun _ => ⟨?_, rfl, ?_⟩⟩
      · exact (State.fld_setFld_ne _ _ _ _ _ _ (by decide)).trans (State.trained_hbmTrained hgood)
      · exact State.rd_hbmZeroed
      · rw [State.bootStage_setBoot (by split_ifs <;> decide)]
        exact congrArg (fun src => if src = 1 then 3 else if src = 3 then 10 else 4) (State.bootSrc_hbmTrained n good)
    · rw [if_pos hall]
      refine ⟨hregs.setFld _ _ _ (by simp), ?_, fun _ => ⟨State.bootStage_setBoot (by decide), fun _ => rfl⟩, fun hyes => absurd hyes hall⟩
      exact (State.fld_setFld_ne _ _ _ _ _ _ (by decide)).trans (State.trained_hbmTrained hgood)
  case rejected =>
    obtain ⟨hmem, hregs, hstaged⟩ := s.attempt.bootReject_frame (ckFormat, 0)
    have hstat := s.attempt.bootStat_bootReject (ckFormat, 0)
    have hfld (g : Fld) : (s.attempt.bootReject (ckFormat, 0)).fld R.SEC_BOOT_STAT g = s.attempt.bootMoved.fld R.SEC_BOOT_STAT g :=
      congrArg g.get hstat
    refine ⟨_, exec_xspiFetchDone_bad h4 hbad, SameMem.trans (fun _ => rfl) hmem, SameRegs.trans (SameRegs.setFld_self s _ _ (by simp)) hregs,
      (hfld _).trans (State.attempts_bootMoved.trans State.attempts_attempt), hstaged, State.fld_fabReport_check _ _, State.fld_fabReport_status _ _,
      fun h0 => (hfld _).trans (State.bootStage_bootMoved_xspi (State.bootSrc_attempt.trans h0)), fun h2 hf => ?_⟩
    obtain ⟨hstage, hback⟩ := State.bootMoved_fallback (State.bootSrc_attempt.trans h2) (State.fallback_attempt.trans hf)
    exact ⟨(hfld _).trans hstage, (congrArg (· == 1) (hfld _)).trans hback⟩
  case fetched =>
    refine ⟨_, exec_xspiFetchDone_good h4 hcut hhead hlen, ?_, ?_, State.bootStage_setBoot (by decide), rfl, State.rd_wrBytes_take hlen⟩
    · refine SameRegs.setFld _ _ _ (fun o ho => ?_) (by simp)
      exact (State.reg_wrBytes _ _ _).trans (SameRegs.setFld_self s _ _ (by simp) o ho)
    · refine (State.fld_setFld_other _ _ _ _ _ (by decide) (by decide)).trans ?_
      exact (congrArg F.SEC_BOOT_STAT_ATTEMPTS.get (State.reg_wrBytes _ _ _)).trans State.attempts_attempt
  case applied =>
    set x := (s.fullLoad s.stagedSects).inForce (finalDigest s.stagedSects) ((s.nowNs - s.sec.resetAt) / 1000000)
    have hboot (g : Fld) : (x.unstage.fabReport 0 0).fld R.SEC_BOOT_STAT g = x.fld R.SEC_BOOT_STAT g :=
      congrArg g.get (State.reg_released_ne (by decide) (by decide))
    have hmode : (x.unstage.fabReport 0 0).reg R.GLB_BUDGET_MODE = x.reg R.GLB_BUDGET_MODE := State.reg_released_ne (by decide) (by decide)
    have hmgt : (x.unstage.fabReport 0 0).reg R.MGT_STAT = x.reg R.MGT_STAT := State.reg_released_ne (by decide) (by decide)
    have hdigest : (x.unstage.fabReport 0 0).digest R.FAB_CONFIG_DIGEST = x.digest R.FAB_CONFIG_DIGEST :=
      State.digest_congr fun i hi => State.reg_released_ne (configDigest_apart i hi).1 (configDigest_apart i hi).2
    refine ⟨_, exec_bootApplyDone h6, (hboot _).trans (State.bootStage_inForce _ _), ?_,
      hdigest.trans (State.digest_inForce _ _ (finalDigest_length _)),
      (State.fabReport_staged _ _).trans State.staged_unstage, (State.fabState_fabReport _ _).trans State.fabState_unstage,
      State.fld_fabReport_status _ _, State.bit_fabReport_done _ _, ?_, (hboot _).trans (State.bootMs_inForce _ _)⟩
    · exact (congrArg (F.GLB_BUDGET_MODE_LOCKED.get · == 1) hmode).trans (State.locked_inForce _ _)
    · exact (congrArg (F.MGT_STAT_RUNNING.get · == 1) hmgt).trans ((State.mgtRuns_inForce _ _).trans (State.mgtRuns_fullLoad _))

end
section
/-! The oldest command of a queue, and the records of a context: what changing them leaves alone (R435, R461). -/

namespace Sys2Proof.Machine

variable {s t : State} {q p n : Nat} {c : Cmd} {f : Cmd → Cmd}

/-- t differs from s in the queues alone. -/
def QueuesAlone (s t : State) : Prop := { t with queues := s.queues } = s

section
variable (h : QueuesAlone s t)
include h

theorem QueuesAlone.reg (o : Nat) : t.reg o = s.reg o := (congrArg (fun x : State => x.reg o) h :)
theorem QueuesAlone.rd (a : Nat) : t.rd a = s.rd a := (congrArg (fun x : State => x.rd a) h :)
theorem QueuesAlone.cores : t.cores = s.cores := (congrArg State.cores h :)
theorem QueuesAlone.core (n : Nat) : t.core n = s.core n := (congrArg (fun x : State => x.core n) h :)
theorem QueuesAlone.time : t.time = s.time := (congrArg State.time h :)
theorem QueuesAlone.host : t.host = s.host := (congrArg State.host h :)
theorem QueuesAlone.savedOf (q : Nat) : t.savedOf q = s.savedOf q := (congrArg (fun x : State => x.savedOf q) h :)
theorem QueuesAlone.sameMem : SameMem s t := h.rd
theorem QueuesAlone.sameRegs (l : List Nat) : SameRegs l s t := fun o _ => h.reg o

end

theorem State.updHead_queuesAlone : QueuesAlone s (s.updHead q f) := by
  unfold State.updHead
  split <;> rfl

@[simp] theorem State.updHead_reg (o : Nat) : (s.updHead q f).reg o = s.reg o := State.updHead_queuesAlone.reg o
@[simp] theorem State.updHead_fld (o : Nat) (g : Fld) : (s.updHead q f).fld o g = s.fld o g := congrArg g.get (State.updHead_reg o)
@[simp] theorem State.updHead_rd (a : Nat) : (s.updHead q f).rd a = s.rd a := State.updHead_queuesAlone.rd a
@[simp] theorem State.updHead_cores : (s.updHead q f).cores = s.cores := State.updHead_queuesAlone.cores
@[simp] theorem State.updHead_core (n : Nat) : (s.updHead q f).core n = s.core n := State.updHead_queuesAlone.core n
@[simp] theorem State.updHead_time : (s.updHead q f).time = s.time := State.updHead_queuesAlone.time

theorem State.head_updHead (hc : s.head q = some c) : (s.updHead q f).head q = some (f c) := by
  obtain ⟨r, hr⟩ := List.head?_eq_some_iff.mp hc
  simp [State.updHead, hr, State.head]

theorem State.queue_updHead_ne (hp : p ≠ q) : (s.updHead q f).queue p = s.queue p := by
  unfold State.updHead
  split
  · rfl
  · exact State.queue_setQueue_ne _ _ _ _ hp

/-- Ending a command, with the stamp of the tick (R438). -/
theorem State.ended_endCmd (st : BitVec 8) (hc : s.head q = some c) : Ended q c st s (s.endCmd q st) :=
  ⟨_, State.head_updHead hc, rfl, rfl, rfl, rfl⟩

/-- Only the head of the queue and the tick count for the end of a command. -/
theorem Ended.of_queues {st : BitVec 8} {u : State} (h : Ended q c st s t) (hq : u.queues = t.queues) : Ended q c st s u := by
  obtain ⟨d, hd, hrest⟩ := h
  refine ⟨d, Eq.trans ?_ hd, hrest⟩
  unfold State.head State.queue
  rw [hq]

@[simp] theorem State.head_ctxState (x st q : Nat) : (s.ctxState x st).head q = s.head q := rfl
@[simp] theorem State.savedOf_ctxState (x st q : Nat) : (s.ctxState x st).savedOf q = s.savedOf q := rfl
@[simp] theorem State.core_ctxState (x st n : Nat) : (s.ctxState x st).core n = s.core n := rfl
@[simp] theorem State.rd_ctxState (x st a : Nat) : (s.ctxState x st).rd a = s.rd a := rfl

/-! ### A core is freed -/

/-- Core n without a program: it keeps what no command owns, and no read is outstanding for it. -/
def State.coreVacated (s : State) (n : Nat) : State :=
  let k := s.core n
  ({ s with host := { s.host with reads := s.host.reads.filter (fun o => !s.forCore n o) } }).setCore n
    { images := k.images, imem := k.imem, inject := k.inject, context := k.context, seed := k.seed, bound := k.bound, boundIsMax := k.boundIsMax }

theorem State.freeCore_eq (n : Nat) : ∃ st, s.freeCore n = (if s.fld (R.CORE_STATUS n) F.CORE_STATUS_STATE = 4 then s.coreVacated n
    else (s.coreVacated n).setFld (R.CORE_STATUS n) F.CORE_STATUS_STATE 1).ctxState (s.core n).context st := ⟨_, rfl⟩

theorem State.freeCore_regsAlone (n : Nat) : RegsAlone (s.coreVacated n) (s.freeCore n) := by
  obtain ⟨st, hst⟩ := s.freeCore_eq n
  rw [hst]
  split <;> rfl

theorem State.freeCore_sameRegs (n : Nat) : SameRegs [R.CORE_STATUS n, R.SCH_CTX_STAT (s.core n).context] s (s.freeCore n) := by
  have hvac : SameRegs [R.CORE_STATUS n, R.SCH_CTX_STAT (s.core n).context] s (s.coreVacated n) := fun _ _ => rfl
  obtain ⟨st, hst⟩ := s.freeCore_eq n
  rw [hst]
  split
  · exact hvac.setFld _ _ _ (by simp)
  · exact (hvac.setFld _ _ _ (by simp)).setFld _ _ _ (by simp)

theorem State.freeCore_queues (n : Nat) : (s.freeCore n).queues = s.queues := (congrArg State.queues (s.freeCore_regsAlone n) :)
theorem State.head_freeCore (n q : Nat) : (s.freeCore n).head q = s.head q := by
  rw [State.head, State.queue, State.freeCore_queues]
  rfl
theorem State.freeCore_savedOf (n q : Nat) : (s.freeCore n).savedOf q = s.savedOf q :=
  (congrArg (fun x : State => x.savedOf q) (s.freeCore_regsAlone n) :)
theorem State.freeCore_sameMem (n : Nat) : SameMem s (s.freeCore n) := (s.freeCore_regsAlone n).rd

/-- A core that is freed runs, saves and holds nothing. -/
theorem State.core_freeCore (n : Nat) : ((s.freeCore n).core n).running = none ∧ ((s.freeCore n).core n).saving = false ∧
    ((s.freeCore n).core n).image = none := by
  have hcore : (s.freeCore n).core n = (s.coreVacated n).core n := (congrArg (fun x : State => x.core n) (s.freeCore_regsAlone n) :)
  rw [hcore, State.coreVacated, State.core_setCore]
  exact ⟨rfl, rfl, rfl⟩

/-- The command that a core runs ends, and the core is free (R196, R438). -/
theorem State.endOnCore_ends {st : BitVec 8} (hr : (s.core n).running = some q) (hc : s.head q = some c) :
    Ended q c st s (s.endOnCore n st) ∧ ((s.endOnCore n st).core n).running = none ∧ ((s.endOnCore n st).core n).image = none ∧
      SameMem s (s.endOnCore n st) := by
  have heq : s.endOnCore n st = (s.endCmd q st).freeCore n := by rw [State.endOnCore, hr]
  obtain ⟨hrun, _, himg⟩ := (s.endCmd q st).core_freeCore n
  rw [heq]
  exact ⟨(State.ended_endCmd st hc).of_queues (State.freeCore_queues n), hrun, himg,
    State.updHead_queuesAlone.sameMem.trans (State.freeCore_sameMem n)⟩

end Sys2Proof.Machine
end
section
/-! The order of dispatch, and what starting a command on a unit or on a core leaves behind (R446 to R449, R51). -/

namespace Sys2Proof.Machine

variable {s t : State} {q p n : Nat} {d : Cmd} {l : List Nat}

/-! ### The first in order, and the runner to suspend -/

theorem State.before_asymm {a b : Nat} (h : s.before a b = true) : s.before b a = false := by
  simp only [State.before, Bool.or_eq_true, Bool.and_eq_true, decide_eq_true_eq, beq_iff_eq] at h
  simp only [State.before, Bool.or_eq_false_iff, Bool.and_eq_false_iff, decide_eq_false_iff_not, beq_eq_false_iff_ne]
  omega

theorem State.best_mem (h : s.best l = some p) : p ∈ l := by
  induction l generalizing p with
  | nil => cases h
  | cons a l ih =>
    unfold State.best at h
    split at h
    next => cases h; exact List.mem_cons_self
    next r hr =>
      split at h
      · cases h; exact List.mem_cons_self
      · cases h; exact List.mem_cons_of_mem a (ih hr)

/-- The one of a list that goes before every other is the first (R448). -/
theorem State.best_eq (hq : q ∈ l) (hfirst : ∀ p ∈ l, p = q ∨ s.before q p = true) : s.best l = some q := by
  induction l with
  | nil => cases hq
  | cons a l ih =>
    unfold State.best
    split
    next hr =>
      rcases List.mem_cons.mp hq with rfl | hin
      · rfl
      · rw [ih hin fun p hp => hfirst p (List.mem_cons_of_mem a hp)] at hr
        cases hr
    next r hr =>
      by_cases hin : q ∈ l
      · rw [ih hin fun p hp => hfirst p (List.mem_cons_of_mem a hp)] at hr
        cases hr
        rcases hfirst a List.mem_cons_self with rfl | hqa
        · exact ite_self _
        · rw [State.before_asymm hqa]
          rfl
      · obtain rfl := (List.mem_cons.mp hq).resolve_right hin
        have hmem := State.best_mem hr
        have hne : r ≠ q := fun he => hin (he ▸ hmem)
        rw [(hfirst r (List.mem_cons_of_mem q hmem)).resolve_left hne]
        rfl

theorem State.victim_mem {k m : Nat} (h : s.victim k l = some m) : m ∈ l := by
  induction l generalizing m with
  | nil => cases h
  | cons a l ih =>
    unfold State.victim at h
    dsimp only at h
    split at h
    next => exact List.mem_cons_of_mem a (ih h)
    split at h
    next => exact List.mem_cons_of_mem a (ih h)
    split at h
    next => cases h; exact List.mem_cons_self
    next hr =>
      split at h
      · cases h; exact List.mem_cons_self
      · cases h; exact List.mem_cons_of_mem a (ih hr)

/-- Of cores in rising order, the one of the lowest rank, and of those the lowest-numbered, is the runner to suspend (R449). -/
theorem State.victim_eq {k r : Nat} (hl : l.Pairwise (· < ·)) (hn : n ∈ l) (hr : s.coreRank n = some r) (hk : k < r)
    (hlow : ∀ m ∈ l, m = n ∨ ∀ x, s.coreRank m = some x → x < r ∨ (x = r ∧ n < m)) : s.victim k l = some n := by
  induction l with
  | nil => cases hn
  | cons a l ih =>
    obtain ⟨ha, hl'⟩ := List.pairwise_cons.mp hl
    have hlow' : ∀ m ∈ l, m = n ∨ ∀ x, s.coreRank m = some x → x < r ∨ (x = r ∧ n < m) := fun m hm => hlow m (List.mem_cons_of_mem a hm)
    unfold State.victim
    by_cases hin : n ∈ l
    · rw [ih hl' hin hlow']
      have han := ha n hin
      split
      next => rfl
      next x hx =>
        have hxr : x < r := by
          rcases hlow a List.mem_cons_self with rfl | hother
          · omega
          · rcases hother x hx with h | h <;> omega
        simp only [hr, Option.getD_some, if_neg (Nat.not_le.mpr hxr), ite_self]
    · obtain rfl := (List.mem_cons.mp hn).resolve_right hin
      rw [hr]
      simp only [if_neg (Nat.not_le.mpr hk)]
      split
      next => rfl
      next m hm =>
        refine if_pos ?_
        have hmem := State.victim_mem hm
        have hother := (hlow' m hmem).resolve_left fun he => hin (he ▸ hmem)
        cases hx : s.coreRank m with
        | none => exact Nat.zero_le r
        | some x =>
          have := hother x hx
          simp only [Option.getD_some]
          omega

/-! ### The cores that a command may run on -/

theorem State.allowedCores_sublist (q : Nat) : (s.allowedCores q).Sublist (List.range 16) := by
  unfold State.allowedCores
  split
  next => exact List.nil_sublist _
  extract_lets cs
  have hcs : cs.Sublist (List.range 16) := List.filter_sublist
  split
  next => exact List.filter_sublist.trans hcs
  split
  next =>
    split
    · exact List.filter_sublist.trans hcs
    · exact List.nil_sublist _
  next => exact hcs

theorem State.allowedCores_rising (q : Nat) : (s.allowedCores q).Pairwise (· < ·) :=
  List.Pairwise.sublist (State.allowedCores_sublist q) List.pairwise_lt_range

theorem State.allowedCores_lt (h : n ∈ s.allowedCores q) : n < 16 := List.mem_range.mp ((State.allowedCores_sublist q).subset h)

/-! ### COMMAND_DISPATCH -/

section
variable {c : Fin 8} {u : CmdUnit} {inst : Fin 4} (hfab : ¬ (s.fab.phase.isSome = true ∧ s.fab.canton = some c.val))
include hfab

/-- A free unit takes the first of the commands that wait for it (R448). -/
theorem exec_commandDispatch_unit (hu : u ≠ .core) (hfree : s.unitBusy (unitCode u) inst = false)
    (hq : q ∈ s.waitingQueues (unitCode u) inst c) (hfirst : ∀ p ∈ s.waitingQueues (unitCode u) inst c, p = q ∨ s.before q p = true) :
    exec (.commandDispatch c u inst) s = .next (s.dispatchUnit q) := by
  change execCommandDispatch c u inst s = _
  simp only [execCommandDispatch, hfab, hu, hfree, State.best_eq hq hfirst, if_false, Bool.false_eq_true]

/-- A core set takes the first of the commands that wait for it and whose context is free, of LC work where some waits (R445, R448). -/
theorem exec_commandDispatch_core (hq : q ∈ s.waitingQueues 1 inst c) (hd : s.head q = some d) (hctx : s.ctxBusy d.context q = false)
    (hfirst : ∀ p ∈ s.waitingQueues 1 inst c, p = q ∨ s.before q p = true ∨ ∃ e, s.head p = some e ∧ s.ctxBusy e.context p = true)
    (hlc : s.qLC q = true ∨ ∀ p ∈ s.waitingQueues 1 inst c, s.qLC p = false) :
    exec (.commandDispatch c .core inst) s = .next (s.dispatchCore q) := by
  change execCommandDispatch c .core inst s = _
  have hgate : (!s.qLC q && (s.waitingQueues 1 inst c).any fun p => s.qLC p) = false := by
    rcases hlc with h | h
    · simp [h]
    · have hany : ((s.waitingQueues 1 inst c).any fun p => s.qLC p) = false := by simpa using h
      simp [hany]
  simp only [execCommandDispatch, hfab, if_false, if_true, unitCode]
  rw [State.best_eq (q := q)]
  · simp only [hgate, Bool.false_eq_true, if_false]
  · exact List.mem_filter.mpr ⟨hq, by simp [hd, hctx]⟩
  · intro p hp
    obtain ⟨hpw, hpc⟩ := List.mem_filter.mp hp
    rcases hfirst p hpw with h | h | ⟨e, he, hbusy⟩
    · exact .inl h
    · exact .inr h
    · simp [he, hbusy] at hpc

end

/-! ### A command starts or is dropped -/

theorem State.setBusy_regsAlone (u inst : Nat) (b : Bool) : RegsAlone s (s.setBusy u inst b) := by
  unfold State.setBusy
  split <;> rfl

theorem State.setBusy_sameRegs (u inst : Nat) (b : Bool) :
    SameRegs [R.EDGE_STAT inst, R.KV_STAT, R.SOL_STAT, R.CTL_STAT] s (s.setBusy u inst b) := by
  unfold State.setBusy
  split
  case h_5 => exact .refl _ s
  all_goals exact .setFld_self s _ _ (by simp)

/-- The command that a unit or core starts (R51). -/
def State.started (s : State) (d : Cmd) (core : Option Nat) : Cmd :=
  { d with phase := .running, start := s.now, core := core, seed := s.reg (R.SCH_CTX_SEED d.context) }

theorem State.head_startCmd {core : Option Nat} (hd : s.head q = some d) (hin : s.deadlinePassed d = false) :
    (s.startCmd q core).head q = some (s.started d core) := by
  rw [State.startCmd, State.head_updHead hd]
  simp [hin, State.started]

theorem State.dispatchUnit_starts (hd : s.head q = some d) (hin : s.deadlinePassed d = false) :
    SameMem s (s.dispatchUnit q) ∧ SameRegs [R.EDGE_STAT (s.qInst q), R.KV_STAT, R.SOL_STAT, R.CTL_STAT] s (s.dispatchUnit q) ∧
      (s.dispatchUnit q).head q = some (s.started d none) ∧ ∀ p, p ≠ q → (s.dispatchUnit q).queue p = s.queue p := by
  have heq : s.dispatchUnit q = (s.startCmd q none).setBusy (s.qUnit q) (s.qInst q) true := by
    simp only [State.dispatchUnit, hd, hin, Bool.false_and, Bool.false_eq_true, if_false]
  have hstart : QueuesAlone s (s.startCmd q none) := State.updHead_queuesAlone
  have hbusy : RegsAlone (s.startCmd q none) (s.dispatchUnit q) := heq ▸ State.setBusy_regsAlone _ _ _
  have hqueue (p : Nat) : (s.dispatchUnit q).queue p = (s.startCmd q none).queue p := (congrArg (fun x : State => x.queue p) hbusy :)
  refine ⟨hstart.sameMem.trans hbusy.rd, heq ▸ (hstart.sameRegs _).trans (State.setBusy_sameRegs _ _ _), ?_, fun p hp => ?_⟩
  · rw [State.head, hqueue]
    exact State.head_startCmd hd hin
  · exact (hqueue p).trans (State.queue_updHead_ne hp)

theorem State.dispatchUnit_drops (hd : s.head q = some d) (hpast : s.deadlinePassed d = true) (hdrop : d.dropIfLate = true) :
    s.dispatchUnit q = s.dropLate q := by
  simp only [State.dispatchUnit, hd, hpast, hdrop, Bool.and_self, if_true]

/-- A command dropped before its start is LATE and NOT_STARTED, and counted (R51). -/
theorem State.dropLate_counts (hd : s.head q = some d) : SameMem s (s.dropLate q) ∧ SameRegs [R.QUE_CTL q] s (s.dropLate q) ∧
    (s.dropLate q).head q = some { d with phase := .ended, status := stLate, flags := d.flags ||| flagBit fgNotStarted, start := d.acc, stop := d.acc } ∧
    (s.dropLate q).fld (R.QUE_CTL q) F.QUE_CTL_LATE_DROPS =
      min (2 ^ F.QUE_CTL_LATE_DROPS.w - 1) (s.fld (R.QUE_CTL q) F.QUE_CTL_LATE_DROPS + 1) := by
  refine ⟨State.updHead_queuesAlone.sameMem, (State.updHead_queuesAlone.sameRegs _).satAdd _ _ _ (by simp), State.head_updHead hd, ?_⟩
  rw [State.dropLate, State.fld_satAdd_same _ _ _ _ (by decide), State.updHead_fld]

/-! ### A core takes a command -/

section
variable (hd : s.head q = some d) (hw : d.phase = .waiting) (hrun : ¬ (s.deadlinePassed d = true ∧ d.dropIfLate = true))
  (hctx : s.ctxBusy d.context q = false)
include hd hw hrun hctx

theorem State.dispatchCore_idle (hidle : (s.allowedCores q).find? (fun n => s.coreIdle n) = some n) : s.dispatchCore q = s.giveCore q n := by
  have hne : s.allowedCores q ≠ [] := List.ne_nil_of_mem (List.mem_of_find?_eq_some hidle)
  simp [State.dispatchCore, hd, hw, hrun, hctx, hne, hidle]

theorem State.dispatchCore_busy {r : Nat} (hidle : ∀ m ∈ s.allowedCores q, s.coreIdle m = false) (hn : n ∈ s.allowedCores q)
    (hr : s.coreRank n = some r) (hk : s.qRank q < r)
    (hlow : ∀ m ∈ s.allowedCores q, m = n ∨ ∀ x, s.coreRank m = some x → x < r ∨ (x = r ∧ n < m)) :
    s.dispatchCore q = s.setCore n { s.core n with suspendReq := true } := by
  have hne : s.allowedCores q ≠ [] := List.ne_nil_of_mem hn
  have hnone : (s.allowedCores q).find? (fun n => s.coreIdle n) = none := by simpa using hidle
  simp [State.dispatchCore, hd, hw, hrun, hctx, hne, hnone, State.victim_eq (State.allowedCores_rising q) hn hr hk hlow]

end

/-- Core n with the new command d of queue q (R446). -/
def State.coreTaken (s : State) (q n : Nat) (d : Cmd) : State :=
  (s.startCmd q (some n)).setCore n { s.core n with
    running := some q, context := d.context, seed := s.reg (R.SCH_CTX_SEED d.context), restoring := false, saving := false
    yieldOffered := false, quantumPassed := false, suspendReq := false }

theorem coreStatus_ne_ctxStat (hn : n < 16) (x : Nat) : R.CORE_STATUS n ≠ R.SCH_CTX_STAT x := by
  unfold R.CORE_STATUS R.SCH_CTX_STAT
  omega

section
variable (hd : s.head q = some d) (hw : d.phase = .waiting)
include hd hw

theorem State.giveCore_eq : s.giveCore q n =
    ((((((s.coreTaken q n d).setFld (R.CORE_STATUS n) F.CORE_STATUS_STATE 2).setFld (R.CORE_STATUS n) F.CORE_STATUS_CONTEXT d.context).ctxState
      d.context 2).setFld (R.SCH_CTX_STAT d.context) F.SCH_CTX_STAT_CORE n).setFld (R.SCH_CTX_STAT d.context) F.SCH_CTX_STAT_QUEUE q) := by
  have hnew : (d.phase == .suspended) = false := by rw [hw]; rfl
  have hcore : (s.startCmd q (some n)).core n = s.core n := State.updHead_core n
  simp [State.giveCore, hd, hnew, hcore, State.coreTaken]

theorem State.giveCore_regsAlone : RegsAlone (s.coreTaken q n d) (s.giveCore q n) := by
  rw [State.giveCore_eq hd hw]
  rfl

theorem State.giveCore_sameRegs : SameRegs [R.CORE_STATUS n, R.SCH_CTX_STAT d.context] s (s.giveCore q n) := by
  have htaken : SameRegs [R.CORE_STATUS n, R.SCH_CTX_STAT d.context] s (s.coreTaken q n d) := State.updHead_queuesAlone.sameRegs _
  rw [State.giveCore_eq hd hw]
  exact ((((htaken.setFld _ _ _ (by simp)).setFld _ _ _ (by simp)).setFld _ _ _ (by simp)).setFld _ _ _ (by simp)).setFld _ _ _ (by simp)

/-- CORE_STATUS and the context record show the command that the core took (R446, R461). -/
theorem State.giveCore_shows (hn : n < 16) : (s.giveCore q n).fld (R.CORE_STATUS n) F.CORE_STATUS_STATE = 2 ∧
    (s.giveCore q n).fld (R.SCH_CTX_STAT d.context) F.SCH_CTX_STAT_STATE = 2 := by
  have hne := coreStatus_ne_ctxStat hn d.context
  rw [State.giveCore_eq hd hw, State.ctxState]
  refine ⟨?_, ?_⟩
  · rw [State.fld_setFld_ne _ _ _ _ _ _ hne, State.fld_setFld_ne _ _ _ _ _ _ hne, State.fld_setFld_ne _ _ _ _ _ _ hne,
      State.fld_setFld_other _ _ _ _ _ (by decide) (by decide), State.fld_setFld_same _ _ _ _ (by decide)]
    rfl
  · rw [State.fld_setFld_other _ _ _ _ _ (by decide) (by decide), State.fld_setFld_other _ _ _ _ _ (by decide) (by decide),
      State.fld_setFld_same _ _ _ _ (by decide)]
    rfl

theorem State.head_giveCore : ∃ e, (s.giveCore q n).head q = some e ∧ e.phase = .running ∧ e.start = s.now ∧ e.core = some n := by
  have hqueue : (s.giveCore q n).head q = (s.startCmd q (some n)).head q := (congrArg (fun x : State => x.head q) (State.giveCore_regsAlone hd hw) :)
  exact ⟨_, hqueue.trans (State.head_updHead hd), rfl, rfl, rfl⟩

theorem State.queue_giveCore_ne (hp : p ≠ q) : (s.giveCore q n).queue p = s.queue p :=
  (congrArg (fun x : State => x.queue p) (State.giveCore_regsAlone hd hw) :).trans (State.queue_updHead_ne hp)

theorem State.core_giveCore : (s.giveCore q n).core n = { s.core n with
    running := some q, context := d.context, seed := s.reg (R.SCH_CTX_SEED d.context), restoring := false, saving := false
    yieldOffered := false, quantumPassed := false, suspendReq := false } :=
  (congrArg (fun x : State => x.core n) (State.giveCore_regsAlone hd hw) :).trans (State.core_setCore _ _ _)

theorem State.core_giveCore_ne {m : Nat} (hm : m ≠ n) : (s.giveCore q n).core m = s.core m :=
  (congrArg (fun x : State => x.core m) (State.giveCore_regsAlone hd hw) :).trans
    ((State.core_setCore_ne _ _ _ _ hm).trans (State.updHead_core m))

end

end Sys2Proof.Machine
end
section
/-! Suspension, resumption, deadlines and step budgets (R53 to R55, R449 to R453). -/

namespace Sys2Proof.Machine

variable {s : State} {n q : Nat} {d : Cmd}

/-! ### The end of a save -/

/-- The context of core n, as its save leaves it in the save area (R450). -/
def State.savedCtx (s : State) (n : Nat) : Saved :=
  let k := s.core n
  { ctx := k.ctx, image := k.image, seed := k.seed, xfer := k.qXfer, reads := k.cancelled }

/-- The suspended command of queue q with its state in the save area, its core not yet free. -/
def State.ctxSaved (s : State) (n q : Nat) : State :=
  let x := (s.core n).context
  ((((s.setSaved q (some (s.savedCtx n))).updHead q (fun c => { c with phase := .suspended, core := some n })).wrapAdd
    (R.SCH_CTX_CNT x) F.SCH_CTX_CNT_SWITCHES 1).setFld (R.SCH_CTX_CNT x) F.SCH_CTX_CNT_LAST_S_LIVE (s.sLive n)).satAdd
    (R.SCH_CANTON_LOAD (s.qCanton q)) F.SCH_CANTON_LOAD_SWITCHES 1

theorem State.ctxSaved_regsAlone :
    RegsAlone ((s.setSaved q (some (s.savedCtx n))).updHead q (fun c => { c with phase := .suspended, core := some n })) (s.ctxSaved n q) := rfl

theorem State.core_ctxSaved (m : Nat) : (s.ctxSaved n q).core m = s.core m := State.updHead_core m

theorem State.ctxSaved_sameMem : SameMem s (s.ctxSaved n q) := State.updHead_rd

theorem State.savedOf_setSaved (v : Option Saved) : (s.setSaved q v).savedOf q = v := Store.get_set_same _ _ _ _

theorem State.savedOf_ctxSaved : (s.ctxSaved n q).savedOf q = some (s.savedCtx n) :=
  (State.updHead_queuesAlone.savedOf q).trans (State.savedOf_setSaved _)

theorem State.head_ctxSaved (hd : s.head q = some d) : (s.ctxSaved n q).head q = some { d with phase := .suspended, core := some n } :=
  State.head_updHead (s := s.setSaved q (some (s.savedCtx n))) hd

theorem State.ctxSaved_sameRegs : SameRegs [R.SCH_CTX_STAT (s.core n).context, R.SCH_CTX_CNT (s.core n).context, R.SCH_CANTON_LOAD (s.qCanton q),
    R.CORE_STATUS n] s (s.ctxSaved n q) := by
  have hhead : SameRegs [R.SCH_CTX_STAT (s.core n).context, R.SCH_CTX_CNT (s.core n).context, R.SCH_CANTON_LOAD (s.qCanton q), R.CORE_STATUS n] s
      ((s.setSaved q (some (s.savedCtx n))).updHead q (fun c => { c with phase := .suspended, core := some n })) :=
    State.updHead_queuesAlone.sameRegs (s := s.setSaved q (some (s.savedCtx n))) _
  exact ((hhead.wrapAdd _ _ _ (by simp)).setFld _ _ _ (by simp)).satAdd _ _ _ (by simp)

/-- The record of a context's switches is no other register that a save writes. -/
theorem ctxCnt_apart (x c n : Nat) :
    R.SCH_CTX_CNT x ≠ R.SCH_CANTON_LOAD c ∧ R.SCH_CTX_CNT x ≠ R.SCH_CTX_STAT x ∧ R.SCH_CTX_CNT x ≠ R.CORE_STATUS n := by
  unfold R.SCH_CTX_CNT R.SCH_CANTON_LOAD R.SCH_CTX_STAT R.CORE_STATUS
  omega

theorem State.switches_ctxSaved : (s.ctxSaved n q).fld (R.SCH_CTX_CNT (s.core n).context) F.SCH_CTX_CNT_SWITCHES =
    (s.fld (R.SCH_CTX_CNT (s.core n).context) F.SCH_CTX_CNT_SWITCHES + 1) % 2 ^ F.SCH_CTX_CNT_SWITCHES.w := by
  have hne := (ctxCnt_apart (s.core n).context (s.qCanton q) n).1
  rw [State.ctxSaved, State.satAdd, State.fld_setFld_ne _ _ _ _ _ _ hne, State.fld_setFld_other _ _ _ _ _ (by decide) (by decide),
    State.fld_wrapAdd_same _ _ _ _ (by decide), State.updHead_fld]
  rfl

theorem exec_contextSaveDone {n : Fin 16} (hr : (s.core n).running = some q) (hs : (s.core n).saving = true) (ho : s.readsOut n = false) :
    exec (.contextSaveDone n) s = .next (((s.ctxSaved n q).freeCore n).ctxState (s.core n).context 3) := by
  change execContextSaveDone n s = _
  simp [execContextSaveDone, hr, hs, ho, State.ctxSaved, State.savedCtx]

/-! ### The end of a restore -/

theorem exec_contextRestoreDone {n : Fin 16} {v : Saved} (hr : (s.core n).running = some q) (hs : (s.core n).restoring = true)
    (hv : s.savedOf q = some v) (hno : v.reads = []) (hd : s.head q = some d) :
    ∃ b m, exec (.contextRestoreDone n) s = .next ((s.setCore n { s.core n with
      ctx := v.ctx, image := v.image, seed := v.seed, qXfer := v.xfer, restoring := false, bound := b, boundIsMax := m }).setSaved q none) := by
  change ∃ b m, execContextRestoreDone n s = _
  simp only [execContextRestoreDone, hr, hs, hv, hno, hd, List.foldl_nil]
  exact ⟨_, _, rfl⟩

/-! ### Expiry -/

/-- Cutting a command changes the head of its queue alone (R53). -/
theorem State.expire_cuts (hd : s.head q = some d) : QueuesAlone s (s.expire q 0) ∧ (∀ p, p ≠ q → (s.expire q 0).queue p = s.queue p) ∧
    (s.expire q 0).head q = some { d with phase := .stopping, status := worse stLate d.status, flags := d.flags ||| flagBit fgBudgetCut } := by
  refine ⟨State.updHead_queuesAlone, fun p hp => State.queue_updHead_ne hp, ?_⟩
  rw [State.expire, State.head_updHead hd]
  simp

section
variable {q : BitVec 16} (hd : s.head q.toNat = some d) (hr : d.phase = .running)
include hd hr

theorem exec_deadlineExpiry_cuts (hpast : s.deadlinePassed d = true) (h6 : s.qUnit q.toNat ≠ 6) (h7 : ¬ (s.qUnit q.toNat = 7 ∧ d.done ≠ 0)) :
    exec (.deadlineExpiry q) s = .next (s.expire q.toNat 0) := by
  change execDeadlineExpiry q s = _
  simp only [execDeadlineExpiry, hd]
  rw [if_pos ⟨hr, hpast, h6, h7⟩]

theorem exec_stepBudgetExhausted_unit (h1 : s.qUnit q.toNat ≠ 1) (h6 : s.qUnit q.toNat ≠ 6) (h7 : s.qUnit q.toNat ≠ 7)
    (hb : d.budget.isSome = true) : exec (.stepBudgetExhausted q) s = .next (s.expire q.toNat 0) := by
  change execStepBudgetExhausted q s = _
  simp only [execStepBudgetExhausted, hd]
  rw [if_pos hr, if_neg fun h => h1 h.1, if_pos ⟨hb, h6, h7⟩]

theorem exec_stepBudgetExhausted_program (h1 : s.qUnit q.toNat = 1) (hop : d.opcode = 1) (hn : d.core = some n)
    (him : (s.core n).image.isSome = true) (hb : (s.core n).bound ≤ d.steps) (hend : ¬ ((s.core n).endPending = true ∧ d.steps = (s.core n).bound))
    (hmax : (s.core n).boundIsMax = false) : exec (.stepBudgetExhausted q) s = .next (s.expire q.toNat 0) := by
  change execStepBudgetExhausted q s = _
  simp only [execStepBudgetExhausted, hd, hn, Option.getD_some]
  rw [if_pos hr, if_pos ⟨h1, hop⟩, if_neg hend, if_pos ⟨him, hb⟩, hmax]
  rfl

end

theorem State.head_cmdFlags (fl : BitVec 24) (hd : s.head q = some d) : (s.cmdFlags q fl).head q = some { d with flags := d.flags ||| fl } :=
  State.head_updHead hd

/-- The end of a suspended command: its saved state is dropped, and its context is idle (R55). -/
theorem exec_suspendedDeadlinePass {q : BitVec 16} (hd : s.head q.toNat = some d) (hp : d.phase = .suspended) (hpast : s.deadlinePassed d = true) :
    exec (.suspendedDeadlinePass q) s = .next ((((s.cmdFlags q.toNat (flagBit fgBudgetCut)).endCmd q.toNat stLate).setSaved q.toNat none).ctxState
      d.context 1) := by
  change execSuspendedDeadlinePass q s = _
  simp only [execSuspendedDeadlinePass, hd]
  rw [if_pos ⟨hp, hpast⟩, State.discardSuspended, State.head_cmdFlags _ hd]
  rfl

theorem State.head_cutAndEnded (hd : s.head q = some d) : ((s.cmdFlags q (flagBit fgBudgetCut)).endCmd q stLate).head q =
    some { d with phase := .ended, status := worse stLate d.status, flags := d.flags ||| flagBit fgBudgetCut, stop := s.now } := by
  have hnow : (s.cmdFlags q (flagBit fgBudgetCut)).now = s.now := congrArg (fun t : TimeSt => stampOfNs (t.sec.toNat * 1000000000 + t.ns)) State.updHead_time
  rw [State.endCmd, State.head_updHead (State.head_cmdFlags _ hd), hnow]

end Sys2Proof.Machine
end

section
open Sys2Proof Sys2Proof.Machine

/-- Settles O29: each row by the lemma that says which update it makes, and each update by what it leaves. -/
theorem schedulerStartsSuspendsAndCuts : Obligations.SchedulerStartsSuspendsAndCuts := by
  unfold Obligations.SchedulerStartsSuspendsAndCuts
  refine ⟨fun c u inst q d s hfab => ?dispatch, fun n q s hr => ⟨?quantum, fun d hs ho hd => ?save, fun v d hs hv hno hd => ?restore⟩,
    fun q d s hd => ?cut⟩
  case dispatch =>
    intro ws hd
    refine ⟨fun hu hfree hq hfirst => ?_, ?_⟩
    · have hexec := exec_commandDispatch_unit hfab hu hfree hq hfirst
      refine ⟨fun hpast hdrop => ⟨_, hexec, ?_⟩, fun hin => ?_⟩
      · rw [State.dispatchUnit_drops hd hpast hdrop]
        exact State.dropLate_counts hd
      · obtain ⟨hmem, hregs, hhead, hothers⟩ := State.dispatchUnit_starts hd hin
        exact ⟨_, _, hexec, hmem, hregs, hhead, rfl, rfl, rfl, rfl, rfl, hothers⟩
    · rintro rfl hq hctx hfirst hlc hw hrun
      have hexec := exec_commandDispatch_core hfab hq hd hctx hfirst hlc
      refine ⟨fun n hidle => ?_, fun n r hidle hn hr hk hlow _ => ?_⟩
      · rw [State.dispatchCore_idle hd hw hrun hctx hidle] at hexec
        obtain ⟨hstatus, hrecord⟩ := State.giveCore_shows hd hw (State.allowedCores_lt (List.mem_of_find?_eq_some hidle))
        obtain ⟨e, he, hphase, hstart, hcore⟩ := State.head_giveCore (n := n) hd hw
        have hgiven := State.core_giveCore (n := n) hd hw
        exact ⟨_, e, hexec, State.updHead_queuesAlone.sameMem.trans (State.giveCore_regsAlone hd hw).rd, State.giveCore_sameRegs hd hw, he, hphase, hstart, hcore,
          by rw [hgiven], by rw [hgiven], by rw [hgiven], by rw [hgiven], hstatus, hrecord, fun m hm => State.core_giveCore_ne hd hw hm,
          fun p hp => State.queue_giveCore_ne hd hw hp⟩
      · rw [hexec, State.dispatchCore_busy hd hw hrun hctx hidle hn hr hk hlow]
  case quantum =>
    change execQuantumExpiry n s = _
    simp [execQuantumExpiry, hr]
  case save =>
    have hfree := (s.ctxSaved n q).freeCore_sameRegs n
    rw [State.core_ctxSaved] at hfree
    obtain ⟨hrun, hsave, _⟩ := (s.ctxSaved n q).core_freeCore n
    obtain ⟨_, hstat, hstatus⟩ := ctxCnt_apart (s.core n).context (s.qCanton q) n
    refine ⟨_, exec_contextSaveDone hr hs ho, fun a => ?_, ?_, ⟨s.savedCtx n, ?_, rfl, rfl, rfl, rfl, rfl⟩, ?_, ?_, fun _ => ⟨?_, ?_⟩, ?_⟩
    · rw [State.rd_ctxState, State.freeCore_sameMem, State.ctxSaved_sameMem]
    · rw [State.head_ctxState, State.head_freeCore, State.head_ctxSaved hd]
    · rw [State.savedOf_ctxState, State.freeCore_savedOf, State.savedOf_ctxSaved]
    · rw [State.core_ctxState, hrun]
    · rw [State.core_ctxState, hsave]
    · exact State.fld_setFld_same _ _ _ 3 (by decide)
    · rw [State.ctxState, State.fld_setFld_ne _ _ _ _ _ _ hstat, ← State.switches_ctxSaved]
      exact congrArg F.SCH_CTX_CNT_SWITCHES.get (hfree _ (by simp [hstat, hstatus]))
    · refine SameRegs.setFld _ _ _ (State.ctxSaved_sameRegs.trans fun o ho => hfree o ?_) (by simp)
      simp only [List.mem_cons, not_or] at ho ⊢
      obtain ⟨hctx, _, _, hcore, hnil⟩ := ho
      exact ⟨hcore, hctx, hnil⟩
  case restore =>
    obtain ⟨b, m, hexec⟩ := exec_contextRestoreDone hr hs hv hno hd
    refine ⟨_, hexec, fun _ => rfl, fun _ _ => rfl, ?_⟩
    have hsame := s.core_setCore n { s.core n with
      ctx := v.ctx, image := v.image, seed := v.seed, qXfer := v.xfer, restoring := false, bound := b, boundIsMax := m }
    exact ⟨congrArg Core.ctx hsame, congrArg Core.image hsame, congrArg Core.seed hsame, congrArg Core.restoring hsame, State.savedOf_setSaved _,
      fun m hm => State.core_setCore_ne _ _ _ _ hm⟩
  case cut =>
    have hcut := State.expire_cuts hd
    refine ⟨fun hr hpast h6 h7 => ⟨_, exec_deadlineExpiry_cuts hd hr hpast h6 h7, hcut⟩,
      fun hr h1 h6 h7 hb => ⟨_, exec_stepBudgetExhausted_unit hd hr h1 h6 h7 hb, hcut⟩,
      fun n hr h1 hop hn him hb hend hmax => ⟨_, exec_stepBudgetExhausted_program hd hr h1 hop hn him hb hend hmax, hcut⟩,
      fun hp hpast => ⟨_, exec_suspendedDeadlinePass hd hp hpast, ?_, ?_, State.savedOf_setSaved _, State.head_cutAndEnded hd⟩⟩
    · exact State.updHead_queuesAlone.sameMem.trans State.updHead_queuesAlone.sameMem
    · exact SameRegs.setFld _ _ _ ((State.updHead_queuesAlone.sameRegs _).trans (State.updHead_queuesAlone.sameRegs _)) (by simp)

end
section
/-! Programs on a core: their start, their counted steps, their yield points and their end (R192 to R198, R451). -/

namespace Sys2Proof.Machine

variable {s t : State} {q : BitVec 16} {c : Cmd} {n : Nat}

theorem State.atUnit_iff {k unit : Nat} : s.atUnit k unit c = true ↔ s.head k = some c ∧ s.qUnit k = unit ∧ s.executing k = true := by
  simp [State.atUnit, and_assoc]

/-! ### RUN -/

/-- Core n with the entry e of the image im started for the command c (R196 to R198). -/
def State.coreStarted (s : State) (n : Nat) (c : Cmd) (im : Image) (e : Nat × Nat) : State :=
  s.setCore n { s.core n with
    image := some im, bound := min e.2 (c.budget.getD e.2), boundIsMax := decide (e.2 ≤ c.budget.getD e.2)
    ctx := { (({} : CoreCtx).putG 0 (BitVec.ofNat 64 (c.pl 8 8))).putG 1 (BitVec.ofNat 64 (c.pl 4 4)) with
      desc := descTable 0 im.descs, pc := im.first + e.1 } }

theorem exec_coreRun_starts {im : Image} {e : Nat × Nat} (hat : s.atUnit q.toNat 1 c = true) (hn : c.core = some n) (hop : c.opcode = 1)
    (hruns : s.coreRuns n = true) (hr : (s.core n).running = some q.toNat) (him : (s.core n).image = none) (hres : (s.core n).restoring = false)
    (hfind : (s.core n).images.find? (fun i => i.id == c.pl 0 2 && i.canton == s.qCanton q.toNat) = some im)
    (he : im.entries[c.pl 2 2]? = some e) : exec (.coreRun q) s = .next (s.coreStarted n c im e) := by
  change execCoreRun q s = _
  obtain ⟨hc, hu, hx⟩ := State.atUnit_iff.mp hat
  simp only [execCoreRun, hc, hn]
  rw [if_pos ⟨hu, hop, hx, hruns, hr, by rw [him]; rfl, by rw [hres]; rfl⟩]
  simp only [hfind, he]
  rfl

theorem CoreCtx.getG_putG (x : CoreCtx) (i : Nat) (v : Word) : (x.putG i v).getG i = v := Store.get_set_same _ _ _ _

theorem CoreCtx.getG_putG_ne (x : CoreCtx) {i j : Nat} (v : Word) (h : j ≠ i) : (x.putG i v).getG j = x.getG j := Store.get_set_ne _ _ _ _ _ h

theorem State.core_coreStarted (im : Image) (e : Nat × Nat) :
    ((s.coreStarted n c im e).core n).image = some im ∧ ((s.coreStarted n c im e).core n).ctx.pc = im.first + e.1 ∧
      ((s.coreStarted n c im e).core n).ctx.getG 0 = BitVec.ofNat 64 (c.pl 8 8) ∧
      ((s.coreStarted n c im e).core n).ctx.getG 1 = BitVec.ofNat 64 (c.pl 4 4) ∧
      ((s.coreStarted n c im e).core n).bound = min e.2 (c.budget.getD e.2) := by
  rw [State.coreStarted, State.core_setCore]
  exact ⟨rfl, rfl, (CoreCtx.getG_putG_ne _ _ (by decide)).trans (CoreCtx.getG_putG _ _ _), CoreCtx.getG_putG _ _ _, rfl⟩

/-! ### Bundles -/

/-- A counted step changes the count of its command and of its core alone (R43, R226). -/
theorem State.countStep_counts {k : Nat} (hc : s.head k = some c) : SameRegs [R.CORE_STEPS n] s (s.countStep n k) ∧ SameMem s (s.countStep n k) ∧
    (s.countStep n k).head k = some { c with steps := c.steps + 1 } ∧ (s.countStep n k).cores = s.cores ∧
    (s.countStep n k).fld (R.CORE_STEPS n) F.CORE_STEPS_STEPS =
      (s.fld (R.CORE_STEPS n) F.CORE_STEPS_STEPS + 1) % 2 ^ F.CORE_STEPS_STEPS.w := by
  refine ⟨(State.updHead_queuesAlone.sameRegs _).wrapAdd _ _ _ (by simp), State.updHead_rd, State.head_updHead hc, State.updHead_cores, ?_⟩
  rw [State.countStep, State.fld_wrapAdd_same _ _ _ _ (by decide), State.updHead_fld]

section
variable {n : Fin 16} {k : Nat} (hr : (s.core n).running = some k) (hi : s.issues n k = true)
include hr hi

theorem exec_bundleIssue_held (hh : (s.core n).holds (Store.get (fun _ => 0) (s.core n).imem (s.core n).ctx.pc).toNat = true) :
    exec (.bundleIssue n false) s = .next (s.countStep n k) := by
  change execBundleIssue n false s = _
  simp only [execBundleIssue, hr, hi, hh, Bool.not_true, Bool.false_eq_true, if_false, if_true]

theorem exec_bundleIssue_issued {u : State} (hh : (s.core n).holds (Store.get (fun _ => 0) (s.core n).imem (s.core n).ctx.pc).toNat = false)
    (hx : (s.core n).xferHolds (Store.get (fun _ => 0) (s.core n).imem (s.core n).ctx.pc).toNat = false)
    (hu : (s.countStep n k).issueSlots n (Store.get (fun _ => 0) (s.core n).imem (s.core n).ctx.pc).toNat = some u) :
    exec (.bundleIssue n false) s = .next u := by
  change execBundleIssue n false s = _
  simp only [execBundleIssue, hr, hi, hh, hx, hu, Bool.not_true, Bool.false_eq_true, if_false, Option.getD_some]

end

/-! ### Yield points and the end -/

/-- No operation, load or FP64 result of a core is outstanding (R193). -/
def Core.drained (k : Core) : Prop := k.qMatA = [] ∧ k.qMatB = [] ∧ k.qVec = [] ∧ k.qXfer = [] ∧ k.loads = [] ∧ k.fps = []

theorem exec_yieldPoint_goesOn {n : Fin 16} {k : Nat} (hr : (s.core n).running = some k) (hc : s.head k = some c) (hp : c.phase = .running)
    (hswap : s.swapDue n = false) (hswitch : s.switchDue n k = false) (hy : (s.core n).yieldOffered = true) (hd : (s.core n).drained) :
    exec (.yieldPoint n) s = .next ((s.yieldClear n).setCore n { s.core n with matA := {}, matB := {}, yieldOffered := false }) := by
  change execYieldPoint n s = _
  obtain ⟨ha, hb, hv, hx, hl, hf⟩ := hd
  simp only [execYieldPoint, hr, hc, hp, hswap, hswitch, hy, ha, hb, hv, hx, hl, hf, State.yieldClear, State.core_setCore]
  rfl

theorem exec_programEnd {n : Fin 16} (he : (s.core n).endPending = true) (hd : (s.core n).drained) :
    exec (.programEnd n) s = .next (s.endOnCore n stDone) := by
  change execProgramEnd n s = _
  obtain ⟨ha, hb, hv, hx, hl, hf⟩ := hd
  simp [execProgramEnd, he, ha, hb, hv, hx, hl, hf]

/-- A timeout at a yield withdraws the remote reads of the core, and leaves those of the host window (R451). -/
theorem exec_yieldRemoteTimeout {n : Fin 16} (hs : (s.core n).saving = true) : ∃ t, exec (.yieldRemoteTimeout n) s = .next t ∧ SameRegs [] s t ∧
    SameMem s t ∧ t.host.reads = s.host.reads.filter (fun o => !(s.forCore n o && !inHostWindow o.addr)) := by
  change ∃ t, execYieldRemoteTimeout n s = _ ∧ _
  simp only [execYieldRemoteTimeout, hs, if_true]
  exact ⟨_, rfl, fun _ _ => rfl, fun _ => rfl, rfl⟩

/-! ### The engines -/

section
variable {n : Fin 16} {op : EngOp} {rest : List EngOp} (hruns : s.coreRuns n = true)
include hruns

theorem exec_engineOperationComplete_xfer (hq : (s.core n).qXfer = op :: rest) :
    exec (.engineOperationComplete n .xfer) s = .next (s.xferRun n op rest) := by
  change execEngineOperationComplete n .xfer s = _
  simp [execEngineOperationComplete, hruns, Core.engQ, hq]

variable (hh : s.coreHandover n = false)
include hh

theorem exec_engineOperationComplete_matA (hq : (s.core n).qMatA = op :: rest) :
    exec (.engineOperationComplete n .matA) s = .next ((s.setCore n { s.core n with qMatA := rest }).matOp n .a op) := by
  change execEngineOperationComplete n .matA s = _
  simp [execEngineOperationComplete, hruns, hh, Core.engQ, Core.setEngQ, hq]

theorem exec_engineOperationComplete_matB (hq : (s.core n).qMatB = op :: rest) :
    exec (.engineOperationComplete n .matB) s = .next ((s.setCore n { s.core n with qMatB := rest }).matOp n .b op) := by
  change execEngineOperationComplete n .matB s = _
  simp [execEngineOperationComplete, hruns, hh, Core.engQ, Core.setEngQ, hq]

theorem exec_engineOperationComplete_vec (hq : (s.core n).qVec = op :: rest) :
    exec (.engineOperationComplete n .vec) s = .next ((s.setCore n { s.core n with qVec := rest }).vecOp n op) := by
  change execEngineOperationComplete n .vec s = _
  simp [execEngineOperationComplete, hruns, hh, Core.engQ, Core.setEngQ, hq]

end

end Sys2Proof.Machine
end
section
/-! COPY and FILL commands of a core between ranges of HBM (R198, R263). -/

namespace Sys2Proof.Machine

variable {s t u : State} {g : Agent} {n a k q : Nat} {c : Cmd} {l : List Byte}

/-! ### Bytes read and written where every byte is served -/

/-- t differs from s in memory, in what is poisoned and in the scratchpads' state alone. -/
def MemoryAlone (s t : State) : Prop := { t with mem := s.mem, poison := s.poison, spd := s.spd } = s

theorem MemoryAlone.refl (s : State) : MemoryAlone s s := rfl

theorem MemoryAlone.trans (h1 : MemoryAlone s t) (h2 : MemoryAlone t u) : MemoryAlone s u :=
  (congrArg (fun x : State => { x with mem := s.mem, poison := s.poison, spd := s.spd }) h2 :).trans h1

section
variable (h : MemoryAlone s t)
include h

theorem MemoryAlone.place (a : Nat) : t.place a = s.place a := (congrArg (fun x : State => x.place a) h :)
theorem MemoryAlone.hit (g : Agent) (w : Bool) (a : Nat) : t.hit g w a = s.hit g w a := (congrArg (fun x : State => x.hit g w a) h :)
theorem MemoryAlone.coreAgent (n : Nat) : t.coreAgent n = s.coreAgent n := (congrArg (fun x : State => x.coreAgent n) h :)
theorem MemoryAlone.head (q : Nat) : t.head q = s.head q := (congrArg (fun x : State => x.head q) h :)
theorem MemoryAlone.core (n : Nat) : t.core n = s.core n := (congrArg (fun x : State => x.core n) h :)
theorem MemoryAlone.now : t.now = s.now := (congrArg State.now h :)

end

/-- An agent's access to k bytes at a reaches each of them at its own address (R35, R36). -/
def State.serves (s : State) (g : Agent) (w : Bool) (a k : Nat) : Prop := ∀ i, i < k → s.hit g w (a + i) = .ok (a + i)

theorem State.putByte_memoryAlone (k : Nat) (b : Byte) : MemoryAlone s (s.putByte k b) := by
  unfold State.putByte
  extract_lets s1
  split <;> rfl

theorem State.writeBytes_clean (g : Agent) (l : List Byte) : ∀ (s : State) (a : Nat), s.serves g true a l.length →
    MemoryAlone s (s.writeBytes g a l).state ∧ (s.writeBytes g a l).flags = 0 ∧ (s.writeBytes g a l).wait = false := by
  induction l with
  | nil => exact fun s a _ => ⟨.refl s, rfl, rfl⟩
  | cons b l ih =>
    intro s a hok
    have hx : s.writeByte g a b = ⟨s.putByte a b, 0, false⟩ := by
      unfold State.writeByte
      rw [show s.hit g true a = .ok a from hok 0 (by simp)]
    obtain ⟨hmem, hflags, hwait⟩ := ih (s.putByte a b) (a + 1) fun i hi => by
      rw [State.putByte_hit, show a + 1 + i = a + (i + 1) by omega]
      exact hok (i + 1) (by simpa using hi)
    simp only [State.writeBytes, hx, hflags, hwait]
    exact ⟨State.putByte_memoryAlone a b |>.trans hmem, rfl, rfl⟩

/-- The transfer engine stores bytes in HBM, each at its own address. -/
theorem State.xferWrite_served (hp : s.place a = .hbm a) (hok : s.serves (s.coreAgent n) true a l.length) :
    MemoryAlone s (s.xferWrite n a l).1 ∧ (s.xferWrite n a l).2 = false ∧
      ∀ b, (s.xferWrite n a l).1.rd b = if a ≤ b ∧ b < a + l.length then l.getD (b - a) 0 else s.rd b := by
  obtain ⟨hmem, hflags, hwait⟩ := State.writeBytes_clean _ l s a hok
  obtain ⟨_, hrd⟩ := State.writeBytes_served _ l s a hok
  have hw : s.writeMem (s.coreAgent n) a l = ⟨(s.writeBytes (s.coreAgent n) a l).state.unpoison a l.length, 0, false⟩ := by
    simp only [State.writeMem]
    rw [if_pos ⟨hflags, hwait⟩, hflags, hwait]
  have hx : s.xferWrite n a l = ((s.writeBytes (s.coreAgent n) a l).state.unpoison a l.length, false) := by
    simp only [State.xferWrite, hp, hw, if_true]
  rw [hx]
  exact ⟨hmem.trans rfl, rfl, hrd⟩

theorem State.readMem_served (k : Nat) : ∀ a, s.serves g false a k →
    (s.readMem g a k).bytes = s.rdBytes a k ∧ (s.readMem g a k).flags = 0 ∧ (s.readMem g a k).wait = false := by
  induction k with
  | zero => exact fun a _ => ⟨rfl, rfl, rfl⟩
  | succ k ih =>
    intro a hok
    have hx : s.readByte g a = { bytes := [s.rd a], bad := s.badByte a } := by
      unfold State.readByte
      rw [show s.hit g false a = .ok a from hok 0 (by omega)]
    obtain ⟨hbytes, hflags, hwait⟩ := ih (a + 1) fun i hi => by
      rw [show a + 1 + i = a + (i + 1) by omega]
      exact hok (i + 1) (by omega)
    simp only [State.readMem, MemRead.append, hx, hbytes, hflags, hwait]
    exact ⟨rfl, rfl, rfl⟩

theorem State.rdBytes_length (k : Nat) : ∀ a, (s.rdBytes a k).length = k := by
  induction k with
  | zero => exact fun _ => rfl
  | succ k ih => exact fun a => congrArg (· + 1) (ih (a + 1))

theorem State.rdBytes_getD {i : Nat} (hi : i < k) : (s.rdBytes a k).getD i 0 = s.rd (a + i) := by
  induction k generalizing a i with
  | zero => omega
  | succ k ih =>
    cases i with
    | zero => rfl
    | succ i =>
      rw [show a + (i + 1) = a + 1 + i by omega, ← ih (a := a + 1) (by omega)]
      rfl

/-! ### Beats -/

/-- A byte lies in one of the beats. -/
def inBeats (l : List (Nat × List Byte)) (b : Nat) : Prop := ∃ p ∈ l, p.1 ≤ b ∧ b < p.1 + p.2.length

/-- Every beat goes to bytes of HBM that its core may write, and holds at each what the content v has there. -/
def State.beatsServed (s : State) (n : Nat) (v : Nat → Byte) (l : List (Nat × List Byte)) : Prop :=
  ∀ p ∈ l, s.place p.1 = .hbm p.1 ∧ s.serves (s.coreAgent n) true p.1 p.2.length ∧ ∀ i, i < p.2.length → p.2.getD i 0 = v (p.1 + i)

/-- Beats of one content leave it in the bytes they cover, in whatever order they are written, and no other byte changes. -/
theorem State.copyPut_served (n : Nat) (v : Nat → Byte) (l : List (Nat × List Byte)) : ∀ s : State, s.beatsServed n v l →
    MemoryAlone s (s.copyPut n l).1 ∧ (s.copyPut n l).2 = false ∧ (∀ b, inBeats l b → (s.copyPut n l).1.rd b = v b) ∧
      ∀ b, ¬ inBeats l b → (s.copyPut n l).1.rd b = s.rd b := by
  induction l with
  | nil => exact fun s _ => ⟨.refl s, rfl, fun b ⟨p, hp, _⟩ => absurd hp List.not_mem_nil, fun _ _ => rfl⟩
  | cons p l ih =>
    intro s hok
    obtain ⟨hplace, hserves, hv⟩ := hok p List.mem_cons_self
    obtain ⟨hmem, hwait, hrd⟩ := State.xferWrite_served (n := n) hplace hserves
    obtain ⟨hmem', hwait', hin, hout⟩ := ih (s.xferWrite n p.1 p.2).1 fun r hr => by
      obtain ⟨hrplace, hrserves, hrv⟩ := hok r (List.mem_cons_of_mem p hr)
      refine ⟨(hmem.place _).trans hrplace, fun i hi => ?_, hrv⟩
      rw [hmem.hit, hmem.coreAgent]
      exact hrserves i hi
    have hcons (b : Nat) : inBeats (p :: l) b ↔ (p.1 ≤ b ∧ b < p.1 + p.2.length) ∨ inBeats l b := by simp [inBeats]
    simp only [State.copyPut, hwait, hwait', Bool.or_false]
    refine ⟨hmem.trans hmem', trivial, fun b hb => ?_, fun b hb => ?_⟩
    · by_cases hl : inBeats l b
      · exact hin b hl
      · have hpb := ((hcons b).mp hb).resolve_right hl
        rw [hout b hl, hrd b, if_pos hpb, hv (b - p.1) (by omega), show p.1 + (b - p.1) = b by omega]
    · rw [hcons, not_or] at hb
      rw [hout b hb.2, hrd b, if_neg hb.1]

/-- The near beats of a COPY whose source is good and may be read are its bytes as they are (R263). -/
theorem State.copyGather_served (hp : s.poison = []) (he : s.spd.ecc = []) (n : Nat) (l : List (Nat × Nat × Nat))
    (hl : ∀ x ∈ l, s.place x.1 = .hbm x.1 ∧ s.serves (s.coreAgent n) false x.1 x.2.2) :
    s.copyGather n l = ({ near := l.map (fun x => (x.2.1, s.rdBytes x.1 x.2.2)) }, s) := by
  induction l with
  | nil => rfl
  | cons x l ih =>
    obtain ⟨a, d, k⟩ := x
    obtain ⟨hplace, hserves⟩ := hl (a, d, k) List.mem_cons_self
    obtain ⟨hbytes, hflags, hwait⟩ := State.readMem_served k a hserves
    simp only [State.copyGather, hplace, State.readMem_clean s _ hp he, hbytes, hflags, hwait, if_true, State.noteRead_clean s _ _ _ hp he,
      ih fun y hy => hl y (List.mem_cons_of_mem _ hy)]
    rfl

/-! ### The beats of a range -/

/-- l holds the beats of 256 bytes of a range of len bytes at d, beat j with the bytes f j, in some order (R263). -/
structure BeatsOf (d len : Nat) (f : Nat → List Byte) (l : List (Nat × List Byte)) : Prop where
  length : ∀ j, (f j).length = min 256 (len - 256 * j)
  mem : ∀ p, p ∈ l ↔ ∃ j, j < (len + 255) / 256 ∧ (d + 256 * j, f j) = p

section
variable {d len : Nat} {f : Nat → List Byte} {l : List (Nat × List Byte)} (h : BeatsOf d len f l)
include h

/-- The beats cover the range and nothing else. -/
theorem BeatsOf.covers (b : Nat) : inBeats l b ↔ d ≤ b ∧ b < d + len := by
  constructor
  · rintro ⟨p, hp, hlo, hhi⟩
    obtain ⟨j, hj, rfl⟩ := (h.mem p).mp hp
    rw [h.length] at hhi
    dsimp only at hlo hhi
    omega
  · intro hb
    refine ⟨_, (h.mem _).mpr ⟨(b - d) / 256, by omega, rfl⟩, ?_, ?_⟩
    · dsimp only
      omega
    · rw [h.length]
      dsimp only
      omega

theorem BeatsOf.served {v : Nat → Byte}
    (hok : ∀ i, i < len → s.place (d + i) = .hbm (d + i) ∧ s.hit (s.coreAgent n) true (d + i) = .ok (d + i))
    (hv : ∀ j i, 256 * j + i < len → i < 256 → (f j).getD i 0 = v (d + (256 * j + i))) : s.beatsServed n v l := by
  intro p hp
  obtain ⟨j, hj, rfl⟩ := (h.mem p).mp hp
  refine ⟨(hok (256 * j) (by omega)).1, fun i hi => ?_, fun i hi => ?_⟩ <;> rw [h.length] at hi <;> dsimp only <;> rw [Nat.add_assoc]
  · exact (hok (256 * j + i) (by omega)).2
  · exact hv j i (by omega) (by omega)

end

theorem getD_flatten_replicate {p : List Byte} (k : Nat) : ∀ i, i < k * p.length → ((List.replicate k p).flatten).getD i 0 = p.getD (i % p.length) 0 := by
  induction k with
  | zero => intro i hi; omega
  | succ k ih =>
    intro i hi
    rw [Nat.succ_mul] at hi
    rw [List.replicate_succ, List.flatten_cons]
    by_cases h : i < p.length
    · rw [List.getD_append _ _ _ _ h, Nat.mod_eq_of_lt h]
    · rw [List.getD_append_right _ _ _ _ (by omega), ih _ (by omega), ← Nat.mod_eq_sub_mod (by omega)]

theorem leBytes_length (x n : Nat) : (leBytes x n).length = n := by
  induction n generalizing x with
  | zero => rfl
  | succ n ih => exact congrArg (· + 1) (ih _)

/-- The bytes of beat j of a FILL. -/
def fillBeat (len : Nat) (pat : List Byte) (j : Nat) : List Byte := (List.replicate (min 256 (len - 256 * j) / 8) pat).flatten

/-- The beats of a FILL. -/
def fillBeats (d len : Nat) (pat : List Byte) : List (Nat × List Byte) :=
  (List.range ((len + 255) / 256)).map (fun j => (d + 256 * j, fillBeat len pat j))

theorem fillBeats_beatsOf {len : Nat} {pat : List Byte} (d : Nat) (h8 : len % 8 = 0) (hp : pat.length = 8) :
    BeatsOf d len (fillBeat len pat) (fillBeats d len pat) where
  length j := by
    rw [fillBeat, List.length_flatten, List.map_replicate, List.sum_replicate, hp, smul_eq_mul]
    omega
  mem p := by simp only [fillBeats, List.mem_map, List.mem_range]

theorem fillBeat_getD {len i j : Nat} {pat : List Byte} (h8 : len % 8 = 0) (hp : pat.length = 8) (hlen : 256 * j + i < len) (hi : i < 256) :
    (fillBeat len pat j).getD i 0 = pat.getD (i % 8) 0 := by
  rw [fillBeat, getD_flatten_replicate _ _ (by rw [hp]; omega), hp]

/-- The number of the beat that a COPY from a to d reads as its i-th: from the last down where DST lies above SRC in it (R263). -/
def copyNum (a d len i : Nat) : Nat := if a < d ∧ d < a + len then (len + 255) / 256 - 1 - i else i

theorem copyNum_lt {a d len i : Nat} (hi : i < (len + 255) / 256) : copyNum a d len i < (len + 255) / 256 := by
  unfold copyNum
  split <;> omega

theorem copyNum_copyNum {a d len i : Nat} (hi : i < (len + 255) / 256) : copyNum a d len (copyNum a d len i) = i := by
  unfold copyNum
  split <;> omega

/-- The beats that a COPY reads: source, destination and length. -/
def copyOrder (a d len : Nat) : List (Nat × Nat × Nat) :=
  (List.range ((len + 255) / 256)).map (fun i =>
    (a + 256 * copyNum a d len i, d + 256 * copyNum a d len i, min 256 (len - 256 * copyNum a d len i)))

theorem mem_copyOrder {a d len : Nat} {x : Nat × Nat × Nat} :
    x ∈ copyOrder a d len ↔ ∃ j, j < (len + 255) / 256 ∧ (a + 256 * j, d + 256 * j, min 256 (len - 256 * j)) = x := by
  simp only [copyOrder, List.mem_map, List.mem_range]
  constructor
  · rintro ⟨i, hi, rfl⟩
    exact ⟨_, copyNum_lt hi, rfl⟩
  · rintro ⟨j, hj, rfl⟩
    exact ⟨_, copyNum_lt hj, by rw [copyNum_copyNum hj]⟩

/-- The bytes of beat j of a COPY from a. -/
def State.copyBeat (s : State) (a len j : Nat) : List Byte := s.rdBytes (a + 256 * j) (min 256 (len - 256 * j))

/-- What a COPY writes: destination and bytes of each beat. -/
def State.copyNear (s : State) (a d len : Nat) : List (Nat × List Byte) := (copyOrder a d len).map (fun x => (x.2.1, s.rdBytes x.1 x.2.2))

theorem State.copyNear_beatsOf (a d len : Nat) : BeatsOf d len (s.copyBeat a len) (s.copyNear a d len) where
  length j := State.rdBytes_length _ _
  mem p := by
    simp only [State.copyNear, List.mem_map, mem_copyOrder]
    constructor
    · rintro ⟨_, ⟨j, hj, rfl⟩, rfl⟩
      exact ⟨j, hj, rfl⟩
    · rintro ⟨j, hj, rfl⟩
      exact ⟨_, ⟨j, hj, rfl⟩, rfl⟩

/-! ### The commands -/

theorem Ended.of_head {st : BitVec 8} {d : Cmd} (h : Ended q d st s t) (hst : d.status = c.status) (hseq : d.seq = c.seq) (hnow : s.now = u.now) :
    Ended q c st u t := by
  obtain ⟨e, he, hphase, hstatus, hstop, heq⟩ := h
  exact ⟨e, he, hphase, hst ▸ hstatus, hstop.trans hnow, heq.trans hseq⟩

/-- After its beats are written, a COPY or FILL ends DONE or worse, and memory stands (R198, R228). -/
theorem State.copyDone_ends (hm : MemoryAlone s t) (hc : s.head q = some c) (hr : (s.core n).running = some q) (m : Nat) :
    Ended q c stDone s ((t.copyBeats q n m).endOnCore n stDone) ∧ SameMem t ((t.copyBeats q n m).endOnCore n stDone) := by
  have hhead : (t.copyBeats q n m).head q = some { c with aux := c.aux + BitVec.ofNat 32 m } := State.head_updHead ((hm.head q).trans hc)
  have hcore : ((t.copyBeats q n m).core n).running = some q := by
    have : (t.copyBeats q n m).core n = s.core n := (State.updHead_core n).trans (hm.core n)
    rw [this, hr]
  have hnow : (t.copyBeats q n m).now = s.now :=
    (congrArg (fun x : TimeSt => stampOfNs (x.sec.toNat * 1000000000 + x.ns)) State.updHead_time :).trans hm.now
  obtain ⟨hend, _, _, hmem⟩ := State.endOnCore_ends (st := stDone) hcore hhead
  exact ⟨hend.of_head rfl rfl hnow, SameMem.trans (t := t.copyBeats q n m) State.updHead_rd hmem⟩

theorem State.onCopy_runs {opc : Nat} {f : Cmd → Nat → State} (hat : s.atUnit q 1 c = true) (hn : c.core = some n) (hop : c.opcode = opc)
    (hruns : s.coreRuns n = true) (hr : (s.core n).running = some q) : s.onCopy q opc f = f c n := by
  obtain ⟨hc, hu, hx⟩ := State.atUnit_iff.mp hat
  simp only [State.onCopy, hc, hn]
  exact if_pos ⟨hu, hop, hx, hruns, hr⟩

theorem Cmd.cut_running (hp : c.phase = .running) : c.cut = false := by
  rw [Cmd.cut, hp]
  rfl

section
variable {q : BitVec 16} (hat : s.atUnit q.toNat 1 c = true) (hn : c.core = some n) (hp : c.phase = .running) (hruns : s.coreRuns n = true)
  (hr : (s.core n).running = some q.toNat)
include hat hn hp hruns hr

/-- A FILL of whole words leaves its pattern in every byte of its range (R198). -/
theorem exec_coreFill_fills (hop : c.opcode = 3) (h8 : c.pl 8 8 % 8 = 0)
    (hok : ∀ i, i < c.pl 8 8 → s.place (c.pl 0 8 + i) = .hbm (c.pl 0 8 + i) ∧ s.hit (s.coreAgent n) true (c.pl 0 8 + i) = .ok (c.pl 0 8 + i)) :
    ∃ t, exec (.coreFill q 0) s = .next t ∧ Ended q.toNat c stDone s t ∧
      ∀ i, i < c.pl 8 8 → t.rd (c.pl 0 8 + i) = (leBytes (c.pl 16 8) 8).getD (i % 8) 0 := by
  obtain ⟨hc, _, _⟩ := State.atUnit_iff.mp hat
  have hpat : (leBytes (c.pl 16 8) 8).length = 8 := leBytes_length _ _
  have hbeats := fillBeats_beatsOf (c.pl 0 8) h8 hpat
  obtain ⟨hmem, hwait, hin, _⟩ := State.copyPut_served n (fun b => (leBytes (c.pl 16 8) 8).getD ((b - c.pl 0 8) % 8) 0) _ s
    (hbeats.served hok fun j i hlen hi => by
      rw [fillBeat_getD h8 hpat hlen hi]
      congr 1
      omega)
  have hexec : exec (.coreFill q 0) s =
      .next (((s.copyPut n (fillBeats (c.pl 0 8) (c.pl 8 8) (leBytes (c.pl 16 8) 8))).1.copyBeats q.toNat n ((c.pl 8 8 + 255) / 256)).endOnCore n stDone) := by
    change execCoreFill q 0 s = _
    rw [execCoreFill, State.onCopy_runs hat hn hop hruns hr]
    simp only [Cmd.cut_running hp, Bool.false_eq_true, if_false]
    exact congrArg Host.Outcome.next (if_neg fun hw => Bool.false_ne_true (hwait.symm.trans hw))
  obtain ⟨hend, hsame⟩ := State.copyDone_ends hmem hc hr ((c.pl 8 8 + 255) / 256)
  refine ⟨_, hexec, hend, fun i hi => ?_⟩
  rw [hsame, hin _ ((hbeats.covers _).mpr ⟨by omega, by omega⟩), Nat.add_sub_cancel_left]

/-- A COPY within HBM moves its bytes as they were, also where the ranges overlap, and no other byte changes (R263). -/
theorem exec_coreCopy_copies (hop : c.opcode = 2) (hout : s.copyReads q.toNat = false) (hpo : s.poison = []) (he : s.spd.ecc = [])
    (hdst : ∀ i, i < c.pl 16 8 → s.place (c.pl 0 8 + i) = .hbm (c.pl 0 8 + i) ∧ s.hit (s.coreAgent n) true (c.pl 0 8 + i) = .ok (c.pl 0 8 + i))
    (hsrc : ∀ i, i < c.pl 16 8 → s.place (c.pl 8 8 + i) = .hbm (c.pl 8 8 + i) ∧ s.hit (s.coreAgent n) false (c.pl 8 8 + i) = .ok (c.pl 8 8 + i)) :
    ∃ t, exec (.coreCopy q 0) s = .next t ∧ Ended q.toNat c stDone s t ∧ (∀ i, i < c.pl 16 8 → t.rd (c.pl 0 8 + i) = s.rd (c.pl 8 8 + i)) ∧
      ∀ x, (x < c.pl 0 8 ∨ c.pl 0 8 + c.pl 16 8 ≤ x) → t.rd x = s.rd x := by
  obtain ⟨hc, _, _⟩ := State.atUnit_iff.mp hat
  have hgather := State.copyGather_served hpo he n (copyOrder (c.pl 8 8) (c.pl 0 8) (c.pl 16 8)) fun x hx => by
    obtain ⟨j, hj, rfl⟩ := mem_copyOrder.mp hx
    refine ⟨(hsrc (256 * j) (by omega)).1, fun i hi => ?_⟩
    dsimp only at hi ⊢
    rw [Nat.add_assoc]
    exact (hsrc (256 * j + i) (by omega)).2
  have hbeats := State.copyNear_beatsOf (s := s) (c.pl 8 8) (c.pl 0 8) (c.pl 16 8)
  obtain ⟨hmem, hwait, hin, hno⟩ := State.copyPut_served n (fun b => s.rd (c.pl 8 8 + (b - c.pl 0 8))) _ s
    (hbeats.served hdst fun j i hlen hi => by
      rw [State.copyBeat, State.rdBytes_getD (by omega)]
      congr 1
      omega)
  have hexec : exec (.coreCopy q 0) s = .next (((s.copyPut n (s.copyNear (c.pl 8 8) (c.pl 0 8) (c.pl 16 8))).1.copyBeats q.toNat n
      (s.copyNear (c.pl 8 8) (c.pl 0 8) (c.pl 16 8)).length).endOnCore n stDone) := by
    change execCoreCopy q 0 s = _
    rw [← State.copyNear] at hgather
    simp only [copyOrder, copyNum] at hgather
    rw [execCoreCopy, State.onCopy_runs hat hn hop hruns hr]
    simp only [hout, Cmd.cut_running hp, Bool.false_eq_true, if_false, hgather, hwait, Bool.or_self, true_or, if_true]
  obtain ⟨hend, hsame⟩ := State.copyDone_ends hmem hc hr (s.copyNear (c.pl 8 8) (c.pl 0 8) (c.pl 16 8)).length
  refine ⟨_, hexec, hend, fun i hi => ?_, fun x hx => ?_⟩
  · rw [hsame, hin _ ((hbeats.covers _).mpr ⟨by omega, by omega⟩), Nat.add_sub_cancel_left]
  · exact (hsame x).trans (hno x fun hx' => by have := (hbeats.covers x).mp hx'; omega)

end

end Sys2Proof.Machine
end

section
open Sys2Proof Sys2Proof.Machine

/-- Settles O6: each row by the lemma that says what it does when its program, command or operation is there. -/
theorem programsRunAndStop : Obligations.ProgramsRunAndStop := by
  unfold Obligations.ProgramsRunAndStop
  refine ⟨?run, ?bundle, ?yield, ?finish, ?timeout, ?copies, ?engines⟩
  case run =>
    intro q c n im e s hat hn hop hruns hr him hres hfind he
    obtain ⟨himage, hpc, h0, h1, hbound⟩ := State.core_coreStarted (s := s) (n := n) (c := c) im e
    exact ⟨_, exec_coreRun_starts hat hn hop hruns hr him hres hfind he, rfl, himage, hpc, h0, h1, hbound, fun m hm => State.core_setCore_ne _ _ _ _ hm⟩
  case bundle =>
    intro n q c s hr hc hi b
    exact ⟨fun hh => ⟨_, exec_bundleIssue_held hr hi hh, State.countStep_counts hc⟩, fun hh hx u hu => exec_bundleIssue_issued hr hi hh hx hu⟩
  case yield =>
    intro n q c s hr hc hp hswap hswitch hy ha hb hv hx hl hf
    refine ⟨_, exec_yieldPoint_goesOn hr hc hp hswap hswitch hy ⟨ha, hb, hv, hx, hl, hf⟩, rfl, ?_⟩
    rw [State.core_setCore]
    exact ⟨rfl, rfl, rfl, rfl⟩
  case finish =>
    intro n q c s hr hc he ha hb hv hx hl hf
    exact ⟨_, exec_programEnd he ⟨ha, hb, hv, hx, hl, hf⟩, State.endOnCore_ends hr hc⟩
  case timeout =>
    intro n s hs
    obtain ⟨t, hexec, hregs, hmem, hreads⟩ := exec_yieldRemoteTimeout hs
    exact ⟨t, hexec, hregs, hmem, fun o => by rw [hreads]; simp⟩
  case copies =>
    intro q n c s hat hn hp hruns hr
    exact ⟨exec_coreFill_fills hat hn hp hruns hr, exec_coreCopy_copies hat hn hp hruns hr⟩
  case engines =>
    intro n op rest s hruns hh
    exact ⟨exec_engineOperationComplete_matA hruns hh, exec_engineOperationComplete_matB hruns hh, exec_engineOperationComplete_vec hruns hh,
      exec_engineOperationComplete_xfer hruns⟩

end
section
/-! What leaves device time alone: causes, events, the recorder, the plumb lines' reports and the buckets (R100, R114). -/

namespace Sys2Proof.Machine

variable {s : State} {α : Type}

theorem State.time_foldl {f : State → α → State} (hf : ∀ (t : State) (x : α), (f t x).time = t.time) (l : List α) :
    (l.foldl f s).time = s.time :=
  List.foldlRecOn l f (motive := fun t => t.time = s.time) rfl fun t h x _ => (hf t x).trans h

@[simp] theorem State.irqEdge_time (i : Nat) (b : Bool) : (s.irqEdge i b).time = s.time :=
  (congrArg State.time (State.irqEdge_sends i b).1 :)

@[simp] theorem State.withCause_time (i : Nat) (f : State → State) : (s.withCause i f).time = (f s).time := State.irqEdge_time i _

@[simp] theorem State.event_time (kind source : Nat) (d0 d1 : Word) : (s.event kind source d0 d1).time = s.time := by
  unfold State.event
  rw [State.withCause_time, State.setFld_time, State.wrapAdd_time, State.setReg_time, State.setReg_time, State.setReg_time, State.setReg_time]

theorem State.time_plumb (p : PlumbSt) : ({ s with plumb := p } : State).time = s.time := rfl

/-! ### The actuators' lines -/

theorem State.actCheck_time (n : Nat) : (s.actCheck n).time = s.time := by
  induction n with
  | zero => rfl
  | succ a ih =>
    simp only [State.actCheck]
    split
    · split
      · exact ih
      · exact ih
    · exact ih

@[simp] theorem State.plRefresh_time : s.plRefresh.time = s.time := by
  simp only [State.plRefresh, State.withCause_time, State.actStop, State.actCheck_time, State.setBit_time, State.setReg_time]

theorem State.actStepped_time (n : Nat) : (s.actStepped n).time = s.time := by
  induction n with
  | zero => rfl
  | succ a ih =>
    simp only [State.actStepped]
    split
    · exact ih
    · exact ih

@[simp] theorem State.stepReaches_time (d : Int) : (s.stepReaches d).time = s.time := by
  unfold State.stepReaches
  rw [State.actStepped_time]

/-! ### The plumb lines' reports -/

@[simp] theorem State.plMsg_time (f : Nat) (restored : Bool) (cause k : Nat) : (s.plMsg f restored cause k).time = s.time := by
  unfold State.plMsg
  split
  · rfl
  · rfl

@[simp] theorem State.plLatch_time (f : Nat) : (s.plLatch f).time = s.time := by
  simp only [State.plLatch]
  split
  · rfl
  · rfl

@[simp] theorem State.plFirst_time (f cause : Nat) : (s.plFirst f cause).time = s.time := by
  unfold State.plFirst
  split
  · rfl
  · rw [State.time_plumb, State.setReg_time, State.setFld_time, State.setFld_time]

@[simp] theorem State.disagree_time (f cause : Nat) : (s.disagree f cause).time = s.time := by
  unfold State.disagree
  extract_lets x w st
  split
  next => rfl
  next =>
    split
    · rfl
    · extract_lets h s1 s2 s3 latch s5 s4 s6
      have h3 : s3.time = s.time := by simp [s3, s2, s1]
      have h5 : s5.time = s.time := by simp [s5, h3]
      have h4 : s4.time = s.time := by
        unfold s4
        split
        · exact h3
        · split
          · rw [State.plLatch_time, h5]
          · exact h5
      have h6 : s6.time = s.time := by simp [s6, h4]
      rw [State.plRefresh_time]
      split
      · rw [State.plMsg_time, h6]
      · exact h6

@[simp] theorem State.missDeadline_time (f : Nat) : (s.missDeadline f).time = s.time := by
  simp only [State.missDeadline]
  split
  · rfl
  · split
    · exact State.disagree_time _ _
    · exact State.disagree_time _ _

@[simp] theorem State.frameReport_time (l : List Word) (broken : Bool) : (s.frameReport l broken).time = s.time := by
  simp only [State.frameReport]
  split
  next => rfl
  next =>
    split
    · rfl
    · split
      · exact State.disagree_time _ _
      · split
        · exact State.missDeadline_time _
        · rfl

@[simp] theorem State.pennantReport_time (l : List Word) (broken : Bool) : (s.pennantReport l broken).time = s.time := by
  simp only [State.pennantReport]
  split
  · rfl
  · split
    · rfl
    · rfl

@[simp] theorem State.assemble_time (i : Nat) (w : Option Word) : (s.assemble i w).time = s.time := by
  simp only [State.assemble]
  split
  next => rfl
  next =>
    split
    · rfl
    · rfl
  next =>
    split
    · rfl
    · split
      · exact State.frameReport_time _ _
      · exact State.pennantReport_time _ _

@[simp] theorem State.drainInbox_time (i : Nat) : (s.drainInbox i).time = s.time := by
  simp only [State.drainInbox]
  split
  next => rfl
  next => rw [State.assemble_time, State.time_foldl fun t _ => State.assemble_time (s := t) i none]; rfl

@[simp] theorem State.plumbTick_time : s.plumbTick.time = s.time := by
  simp only [State.plumbTick]
  split
  · rfl
  · exact State.time_foldl (fun t x => State.drainInbox_time (s := t) x) _

/-! ### The recorder and the buckets -/

theorem State.refill_time (c n : Nat) : (s.refill c n).time = s.time := by
  induction n with
  | zero => rfl
  | succ k ih =>
    simp only [State.refill]
    split
    · exact ih
    · exact ih

@[simp] theorem State.ringBytes_time (base len p : Nat) (l : List Byte) : (s.ringBytes base len p l).time = s.time := by
  induction l generalizing s p with
  | nil => rfl
  | cons b r ih => rw [State.ringBytes, ih, State.wr_time]

@[simp] theorem State.recWrite_time (l : List Byte) : (s.recWrite l).time = s.time := by
  simp only [State.recWrite]
  split
  · rfl
  · split
    · rfl
    · exact State.ringBytes_time _ _ _ _

@[simp] theorem State.recFlush_time : s.recFlush.time = s.time := by
  simp only [State.recFlush]
  split
  next => rfl
  next =>
    split
    · rfl
    · split
      · exact State.recWrite_time _
      · rfl

end Sys2Proof.Machine
end
section
/-! A tick of device time (R100, R108, R112). -/

namespace Sys2Proof.Machine

variable {s t : State}

/-- The time of day a state shows, and its count of ticks. -/
def State.clock (s : State) : BitVec 48 × Nat × Nat × Nat := (s.time.sec, s.time.ns, s.time.frac, s.time.ticks)

/-- The clock that shows the fine time x after n ticks. -/
def clockAt (x n : Nat) : BitVec 48 × Nat × Nat × Nat := (BitVec.ofNat 48 (x / fracOne / 1000000000), x / fracOne % 1000000000, x % fracOne, n)

/-- The fine time x after the step that is pending (R112). -/
def State.stepped (s : State) (x : Nat) : Nat :=
  match s.time.stepPend with
  | none => x
  | some d => (((x / fracOne / 1000000000 % 2 ^ 48 * 1000000000 + x / fracOne % 1000000000 : Nat) : Int) * (fracOne : Nat) + (x % fracOne : Nat) + d * (fracOne : Nat)).toNat

theorem State.clock_of_time (h : t.time = s.time) : t.clock = s.clock := by
  unfold State.clock
  rw [h]

theorem State.clock_setFld (off : Nat) (f : Fld) (x : Nat) : (s.setFld off f x).clock = s.clock := rfl

theorem State.clock_setRatePend (p : Option (BitVec 32)) : ({ s with time := { s.time with ratePend := p } } : State).clock = s.clock := rfl

theorem State.clock_setReg (off : Nat) (w : Word) : (s.setReg off w).clock = s.clock := rfl

theorem State.clock_setDue (n : Nat) (d : Option CmpDue) : (s.setDue n d).clock = s.clock := rfl

theorem State.clock_setTime (x : Nat) : (s.setTime x).clock = clockAt x s.time.ticks := rfl

theorem State.fineTime_setTime (x : Nat) :
    (s.setTime x).fineTime = (x / fracOne / 1000000000 % 2 ^ 48 * 1000000000 + x / fracOne % 1000000000) * fracOne + x % fracOne := rfl

/-! ### The compares a tick or a step passes -/

/-- t differs from s in the due compares alone. -/
def DueAlone (s t : State) : Prop := { t with time := { t.time with due := s.time.due } } = s

theorem DueAlone.setDue (h : DueAlone s t) (n : Nat) (d : Option CmpDue) : DueAlone s (t.setDue n d) := h

theorem DueAlone.refl (s : State) : DueAlone s s := rfl

theorem State.markDue_dueAlone (prev : Word) (n : Nat) : DueAlone s (s.markDue prev n) := by
  induction n with
  | zero => exact .refl s
  | succ n ih =>
    unfold State.markDue
    extract_lets s1 nx late
    split
    · exact ih.setDue _ _
    · exact ih

theorem DueAlone.clock (h : DueAlone s t) : t.clock = s.clock := (congrArg State.clock h :)
theorem DueAlone.stepPend (h : DueAlone s t) : t.time.stepPend = s.time.stepPend := (congrArg (fun x : State => x.time.stepPend) h :)
theorem DueAlone.fineTime (h : DueAlone s t) : t.fineTime = s.fineTime := (congrArg State.fineTime h :)
theorem DueAlone.ticks (h : DueAlone s t) : t.time.ticks = s.time.ticks := (congrArg (fun x : State => x.time.ticks) h :)

theorem State.stepCompares_clock (d : Int) (n : Nat) : (s.stepCompares d n).clock = s.clock := by
  induction n with
  | zero => rfl
  | succ n ih =>
    have hreg (o : Nat) (w : Word) : ((s.stepCompares d n).setReg o w).clock = s.clock := (State.clock_setReg o w).trans ih
    have hdue (c : Option CmpDue) : ((s.stepCompares d n).setDue n c).clock = s.clock := (State.clock_setDue n c).trans ih
    simp only [State.stepCompares]
    split
    next => exact ih
    next =>
      split
      next => exact hreg _ _
      next =>
        split
        · exact ih
        · split
          · split
            · exact hreg _ _
            · exact ih
          · split
            · exact hdue _
            · exact ih
      next =>
        split
        · exact hdue _
        · exact ih

theorem State.applyStep_clock : s.applyStep.clock = (match s.time.stepPend with
    | none => s.clock
    | some d => clockAt ((s.fineTime : Int) + d * (fracOne : Nat)).toNat s.time.ticks) := by
  unfold State.applyStep
  cases s.time.stepPend with
  | none => rfl
  | some d => exact State.stepCompares_clock d 64

/-! ### What a tick does after that -/

theorem State.enterHold_clock (cause : Nat) : (s.enterHold cause).clock = s.clock := by
  simp only [State.enterHold]
  split
  next => rfl
  next =>
    rw [State.clock_of_time (State.event_time ..)]
    split
    next => rw [State.clock_setFld, State.clock_setRatePend, State.clock_of_time (State.withCause_time ..), State.clock_setFld, State.clock_setFld]
    next => rw [State.clock_of_time (State.withCause_time ..), State.clock_setFld, State.clock_setFld]

theorem State.rehold_clock : s.rehold.clock = s.clock := by
  simp only [State.rehold]
  split
  next =>
    split
    · exact State.enterHold_clock _
    · split
      · exact State.enterHold_clock _
      · rfl
  next => rfl

theorem State.endHold_clock : s.endHold.clock = s.clock := by
  unfold State.endHold
  split
  next => rfl
  next => rfl

theorem State.applyRate_clock : s.applyRate.clock = s.clock := by
  unfold State.applyRate
  split
  next => rfl
  next => rfl

theorem State.applySwitch_clock : s.applySwitch.clock = s.clock := by
  simp only [State.applySwitch]
  split
  next => exact State.endHold_clock
  next => rfl

theorem State.altLapse_clock : s.altLapse.clock = s.clock := by
  unfold State.altLapse
  split
  next =>
    split
    · rfl
    · rfl
  next => rfl

/-- What a tick notes before it counts leaves the rate, the fine time, the pending step and the count of ticks. -/
theorem State.setPrev_keeps (p : Nat) (l : List (Nat × Nat)) :
    let t : State := { s with time := { s.time with prev := p, fired := l } }
    t.rate = s.rate ∧ t.fineTime = s.fineTime ∧ t.time.stepPend = s.time.stepPend ∧ t.time.ticks = s.time.ticks := ⟨rfl, rfl, rfl, rfl⟩

theorem State.stepPend_setTime (x : Nat) : (s.setTime x).time.stepPend = s.time.stepPend := rfl

theorem State.ticks_setTime (x : Nat) : (s.setTime x).time.ticks = s.time.ticks := rfl

theorem State.tickTime_clock (hr : s.time.running = true) :
    s.tickTime.clock = clockAt (s.stepped (s.fineTime + tickIncr s.rate)) s.time.ticks := by
  unfold State.tickTime
  rw [if_pos hr]
  extract_lets prev time s1 s2 s3
  obtain ⟨hrate, hfine, hpend, hticks⟩ := State.setPrev_keeps (s := s) s.nowNs []
  have hd : DueAlone s2 (s2.markDue prev 64) := State.markDue_dueAlone prev 64
  rw [State.altLapse_clock, State.applySwitch_clock, State.applyRate_clock, State.rehold_clock, State.applyStep_clock, hd.clock, hd.stepPend,
    hd.fineTime, hd.ticks, State.fineTime_setTime, State.clock_setTime, State.stepPend_setTime, State.ticks_setTime, hrate, hfine, hpend, hticks]
  unfold State.stepped
  cases s.time.stepPend with
  | none => rfl
  | some d => rw [Int.natCast_add, Int.natCast_mul]

theorem State.tickStep_running (hr : s.time.running = true) : s.tickStep.clock = s.tickTime.clock := by
  unfold State.tickStep
  rw [if_pos hr]
  split
  next => exact State.clock_of_time (State.stepReaches_time _)
  next => rfl

theorem State.tickStep_stopped (hr : s.time.running = false) : s.tickStep = s := by
  unfold State.tickStep
  rw [hr]
  rfl

theorem State.tickStep_ticks : s.tickStep.time.ticks = s.time.ticks := by
  cases hr : s.time.running with
  | false => rw [State.tickStep_stopped hr]
  | true =>
    have h := (State.tickStep_running hr).trans (State.tickTime_clock hr)
    exact (congrArg (fun c => c.2.2.2) h :)

theorem State.nowNs_of_time (h : t.time.sec = s.time.sec) (h' : t.time.ns = s.time.ns) : t.nowNs = s.nowNs := by
  unfold State.nowNs
  rw [h, h']

theorem exec_timeTick (s : State) : ∃ t, exec .timeTick s = .next t ∧
    t.time = { s.tickStep.time with ticks := s.tickStep.time.ticks + 1 } := by
  refine ⟨_, rfl, ?_⟩
  rw [State.plumbTick_time, State.recFlush_time, State.time_foldl fun t c => State.refill_time (s := t) c 7]

/-- A tick counts itself, and moves the clock if the PLL has locked. -/
theorem exec_timeTick_clock (s : State) : ∃ t, exec .timeTick s = .next t ∧ t.time.ticks = s.time.ticks + 1 ∧
    (s.time.running = false → t.nowNs = s.nowNs ∧ t.time.frac = s.time.frac) ∧
    (s.time.running = true → t.clock = clockAt (s.stepped (s.fineTime + tickIncr s.rate)) (s.time.ticks + 1)) := by
  obtain ⟨t, ht, htime⟩ := exec_timeTick s
  refine ⟨t, ht, by rw [htime, State.tickStep_ticks], fun hr => ?_, fun hr => ?_⟩
  · rw [State.tickStep_stopped hr] at htime
    exact ⟨State.nowNs_of_time (by rw [htime]) (by rw [htime]), by rw [htime]⟩
  · have h := (State.tickStep_running hr).trans (State.tickTime_clock hr)
    unfold State.clock clockAt at h
    simp only [Prod.mk.injEq] at h
    obtain ⟨hsec, hns, hfrac, hticks⟩ := h
    unfold State.clock clockAt
    rw [htime, ← hsec, ← hns, ← hfrac, ← hticks]

end Sys2Proof.Machine
end
section
/-! Holdover, and what a loss of synchronisation or of the reference leaves (R113, R116). -/

namespace Sys2Proof.Machine

variable {s t : State} {o : Nat}

theorem SameRegs.withCause {l : List Nat} {i : Nat} {f : State → State} (h : SameRegs l s (f s)) : SameRegs l s (s.withCause i f) :=
  fun o ho => (State.withCause_reg s i f o).trans (h o ho)

theorem SameRegs.mono {l m : List Nat} (h : SameRegs l s t) (hm : ∀ o ∈ l, o ∈ m) : SameRegs m s t := fun o ho => h o fun hl => ho (hm o hl)

/-- An event writes its own entry of the ring and the ring's registers. -/
theorem State.event_sameRegs (kind source : Nat) (d0 d1 : Word) : SameRegs s.eventRegs s (s.event kind source d0 d1) := by
  unfold State.event
  extract_lets p i w1 s1 s2
  have h1 : SameRegs s.eventRegs s s1 := ((((SameRegs.refl _ s).setReg _ _ (by simp [State.eventRegs, i, p])).setReg _ _
    (by simp [State.eventRegs, i, p])).setReg _ _ (by simp [State.eventRegs, i, p])).setReg _ _ (by simp [State.eventRegs, i, p])
  have h2 : SameRegs s.eventRegs s s2 := h1.wrapAdd _ _ _ (by simp [State.eventRegs])
  exact h2.trans (SameRegs.withCause (SameRegs.setFld_self s2 _ _ (by simp [State.eventRegs])))

theorem State.timeStat_notMem_eventRegs : R.TIME_STAT ∉ s.eventRegs := by
  simp only [State.eventRegs, List.mem_cons, List.not_mem_nil, or_false, R.TIME_STAT, R.FLT_EVT, R.FLT_EVT_PROD, R.FLT_STAT]
  omega

theorem State.eventRegs_congr (h : t.reg R.FLT_EVT_PROD = s.reg R.FLT_EVT_PROD) : t.eventRegs = s.eventRegs := by
  unfold State.eventRegs State.fld
  rw [h]

/-- TIME_STAT w is as holdover with a cause leaves TIME_STAT v (R113). -/
structure HeldStat (cause : Nat) (v w : Word) : Prop where
  holdover : F.TIME_STAT_HOLDOVER.get w = 1
  cause : F.TIME_STAT_HOLD_CAUSE.get w = cause % 4
  refLoss : F.TIME_STAT_REF_LOSS.get w = F.TIME_STAT_REF_LOSS.get v

theorem HeldStat.of_set (cause : Nat) (v : Word) : HeldStat cause v (F.TIME_STAT_HOLD_CAUSE.set (F.TIME_STAT_HOLDOVER.set v 1) cause) where
  holdover := by rw [Fld.get_set_other _ _ _ _ (by decide) (by decide), Fld.get_set_same _ _ _ (by decide)]; rfl
  cause := Fld.get_set_same _ _ _ (by decide)
  refLoss := by rw [Fld.get_set_other _ _ _ _ (by decide) (by decide), Fld.get_set_other _ _ _ _ (by decide) (by decide)]

theorem HeldStat.setRateIgnored {cause : Nat} {v w : Word} (h : HeldStat cause v w) : HeldStat cause v (F.TIME_STAT_RATE_IGNORED.set w 1) where
  holdover := (Fld.get_set_other _ _ _ _ (by decide) (by decide)).trans h.holdover
  cause := (Fld.get_set_other _ _ _ _ (by decide) (by decide)).trans h.cause
  refLoss := (Fld.get_set_other _ _ _ _ (by decide) (by decide)).trans h.refLoss

theorem State.reg_setRatePend (p : Option (BitVec 32)) : ({ s with time := { s.time with ratePend := p } } : State).reg o = s.reg o := rfl

/-- Holdover is entered by its bits in TIME_STAT, with a pending rate marked as ignored, and an event (R113). -/
theorem State.enterHold_marks (cause : Nat) (hh : s.bit R.TIME_STAT F.TIME_STAT_HOLDOVER = false) :
    ∃ u, s.enterHold cause = u.event 14 0 (BitVec.ofNat 64 cause) 0 ∧ SameRegs [R.TIME_STAT] s u ∧ SameMem s u ∧
      HeldStat cause (s.reg R.TIME_STAT) (u.reg R.TIME_STAT) := by
  unfold State.enterHold
  rw [hh]
  extract_lets s1 time s2
  have hregs : SameRegs [R.TIME_STAT] s s1 := SameRegs.withCause ((SameRegs.setFld_self s _ _ (by simp)).setFld _ _ _ (by simp))
  have hmem : SameMem s s1 := SameMem.withCause fun _ => rfl
  have hstat : HeldStat cause (s.reg R.TIME_STAT) (s1.reg R.TIME_STAT) := by
    rw [State.withCause_reg, State.reg_setFld_same, State.reg_setFld_same]
    exact .of_set _ _
  refine ⟨s2, rfl, ?_⟩
  unfold s2
  split
  next =>
    refine ⟨fun o ho => ?_, hmem, ?_⟩
    · rw [State.reg_setFld_ne _ _ _ _ _ (by simpa using ho), State.reg_setRatePend]
      exact hregs o ho
    · rw [State.reg_setFld_same, State.reg_setRatePend]
      exact hstat.setRateIgnored
  next => exact ⟨hregs, hmem, hstat⟩

theorem State.bit_of_get {f : Fld} {o : Nat} (h : f.get (t.reg o) = f.get (s.reg o)) : t.bit o f = s.bit o f := by
  unfold State.bit State.fld
  rw [h]

/-- Entering holdover writes TIME_STAT and an event, and HOLDOVER then reads 1. -/
theorem State.enterHold_holds (cause : Nat) : SameRegs (R.TIME_STAT :: s.eventRegs) s (s.enterHold cause) ∧ SameMem s (s.enterHold cause) ∧
    (s.enterHold cause).bit R.TIME_STAT F.TIME_STAT_HOLDOVER = true ∧
    (s.enterHold cause).bit R.TIME_STAT F.TIME_STAT_REF_LOSS = s.bit R.TIME_STAT F.TIME_STAT_REF_LOSS ∧
    (s.bit R.TIME_STAT F.TIME_STAT_HOLDOVER = false → (s.enterHold cause).fld R.TIME_STAT F.TIME_STAT_HOLD_CAUSE = cause % 4) := by
  cases hh : s.bit R.TIME_STAT F.TIME_STAT_HOLDOVER with
  | true =>
    have hs : s.enterHold cause = s := by
      unfold State.enterHold
      rw [hh]
      rfl
    rw [hs]
    exact ⟨.refl _ s, fun _ => rfl, hh, rfl, nofun⟩
  | false =>
    obtain ⟨u, hu, hregs, hmem, hstat⟩ := State.enterHold_marks cause hh
    have hev : u.eventRegs = s.eventRegs := State.eventRegs_congr (hregs _ (by decide))
    have hev' : SameRegs (R.TIME_STAT :: s.eventRegs) u (u.event 14 0 (BitVec.ofNat 64 cause) 0) :=
      (State.event_sameRegs 14 0 _ 0).mono fun o ho => List.mem_cons_of_mem _ (hev ▸ ho)
    have hreg : (u.event 14 0 (BitVec.ofNat 64 cause) 0).reg R.TIME_STAT = u.reg R.TIME_STAT :=
      State.event_sameRegs 14 0 _ 0 _ State.timeStat_notMem_eventRegs
    rw [← hreg] at hstat
    rw [hu]
    refine ⟨(hregs.mono fun o ho => by simp_all).trans hev', hmem.trans (State.event_sameMem _ _ _ _), ?_, State.bit_of_get hstat.refLoss,
      fun _ => hstat.cause⟩
    unfold State.bit State.fld
    rw [hstat.holdover]
    rfl

/-- Reference loss marks itself in TIME_STAT before it enters holdover (R116). -/
theorem exec_refLoss (s : State) : ∃ u, exec .refLoss s = .next (u.enterHold 3) ∧ SameRegs [R.TIME_STAT] s u ∧ SameMem s u ∧
    u.bit R.TIME_STAT F.TIME_STAT_REF_LOSS = true ∧ u.bit R.TIME_STAT F.TIME_STAT_HOLDOVER = s.bit R.TIME_STAT F.TIME_STAT_HOLDOVER := by
  refine ⟨_, rfl, SameRegs.withCause (SameRegs.setFld_self s _ _ (by simp)), SameMem.withCause fun _ => rfl, ?_, ?_⟩
  · unfold State.bit State.fld
    rw [State.withCause_reg, State.reg_setFld_same, Fld.get_set_same _ _ _ (by decide)]
    rfl
  · refine State.bit_of_get ?_
    rw [State.withCause_reg, State.reg_setFld_same, Fld.get_set_other _ _ _ _ (by decide) (by decide)]

end Sys2Proof.Machine
end
section
/-! PPS_OUT, CONV_START pulses and the window of the step rate (R121, R59, R44). -/

namespace Sys2Proof.Machine

variable {s t : State} {o : Nat}

/-- PPS_OUT rises where the last tick passed a PPS point, with OUT_EN and VALID set (R121). -/
theorem exec_ppsOutRise_rises (s : State) : ∃ t, exec .ppsOutRise s = .next t ∧ SameRegs [] s t ∧ SameMem s t ∧
    (if s.bit R.TIME_PPS_CTL F.TIME_PPS_CTL_OUT_EN = true ∧ s.bit R.TIME_STAT F.TIME_STAT_VALID = true ∧ s.ppsCount s.time.prev < s.ppsCount s.nowNs then
      t.time.ppsHigh = true ∧ t.time.ppsFallAt = s.nowNs + max 1 (s.fld R.TIME_PPS_CTL F.TIME_PPS_CTL_WIDTH_MS) * 1000000
    else t = s) := by
  refine ⟨_, rfl, ?_⟩
  simp only [Bool.and_eq_true, decide_eq_true_eq, and_assoc]
  split
  next => exact ⟨.refl _ s, fun _ => rfl, rfl, rfl⟩
  next => exact ⟨.refl _ s, fun _ => rfl, rfl⟩

theorem exec_ppsOutFall_falls (s : State) : ∃ t, exec .ppsOutFall s = .next t ∧ SameRegs [] s t ∧ SameMem s t ∧
    t.time.ppsHigh = (s.time.ppsHigh && decide (s.nowNs < s.time.ppsFallAt)) := by
  refine ⟨_, rfl, ?_⟩
  split
  next h =>
    simp only [Bool.and_eq_true, decide_eq_true_eq] at h
    refine ⟨.refl _ s, fun _ => rfl, ?_⟩
    rw [decide_eq_false (Nat.not_lt.mpr h.2), Bool.and_false]
  next h =>
    refine ⟨.refl _ s, fun _ => rfl, ?_⟩
    cases hp : s.time.ppsHigh with
    | false => rfl
    | true =>
      rw [hp, Bool.true_and, decide_eq_true_eq, Nat.not_le] at h
      rw [decide_eq_true h]
      rfl

/-- A CONV_START pulse ends when its time has come, and not before (R59). -/
theorem exec_convStartPulseEnd_ends (q : Fin 16) (s : State) : ∃ t, exec (.convStartPulseEnd q) s = .next t ∧ SameRegs [] s t ∧ SameMem s t ∧
    ∀ w, Store.get (fun _ => none) s.io.conv q = some w →
      Store.get (fun _ => none) t.io.conv q = (if w ≤ s.time.ticks then none else some w) := by
  refine ⟨_, rfl, ?_⟩
  split
  next w hw =>
    split
    next hd =>
      refine ⟨.refl _ s, fun _ => rfl, fun w' hw' => ?_⟩
      rw [hw, Option.some.injEq] at hw'
      rw [← hw', if_pos hd]
      exact Store.get_set_same (fun _ => none) s.io.conv q.val none
    next hd =>
      refine ⟨.refl _ s, fun _ => rfl, fun w' hw' => ?_⟩
      rw [hw, Option.some.injEq] at hw'
      rw [← hw', if_neg hd]
      exact hw
  next hn => exact ⟨.refl _ s, fun _ => rfl, fun w hw => absurd (hw.symm.trans hn) nofun⟩

/-! ### The step rate -/

/-- What a window of rate n leaves of GLB_STEP_RATE in RATE, SEQ and MIN_RATE (R44). -/
structure RateStat (n : Nat) (v w : Word) : Prop where
  rate : F.GLB_STEP_RATE_RATE.get w = n
  seq : F.GLB_STEP_RATE_SEQ.get w = (F.GLB_STEP_RATE_SEQ.get v + 1) % 2 ^ 12
  minRate : F.GLB_STEP_RATE_MIN_RATE.get w = min n (F.GLB_STEP_RATE_MIN_RATE.get v)

/-- The marks lie apart from RATE, SEQ and MIN_RATE. -/
theorem RateStat.setFld {n : Nat} {v w : Word} (h : RateStat n v w) (f : Fld) (x : Nat) (hf : f.lo = 28 ∧ f.w = 1 ∨ f.lo = 29 ∧ f.w = 1) :
    RateStat n v (f.set w x) where
  rate := (Fld.get_set_other _ _ _ _ (by decide) (by simp only [F.GLB_STEP_RATE_RATE]; omega)).trans h.rate
  seq := (Fld.get_set_other _ _ _ _ (by decide) (by simp only [F.GLB_STEP_RATE_SEQ]; omega)).trans h.seq
  minRate := (Fld.get_set_other _ _ _ _ (by decide) (by simp only [F.GLB_STEP_RATE_MIN_RATE]; omega)).trans h.minRate

/-- GLB_STEP_RATE after the window's rate and its count. -/
def rateCounted (n : Nat) (v : Word) : Word :=
  let w := F.GLB_STEP_RATE_RATE.set v n
  F.GLB_STEP_RATE_MIN_RATE.set (F.GLB_STEP_RATE_SEQ.set w ((F.GLB_STEP_RATE_SEQ.get w + 1) % 2 ^ 12)) (min n (F.GLB_STEP_RATE_MIN_RATE.get v))

theorem RateStat.of_rateCounted {n : Nat} (hn : n < 2 ^ 16) (v : Word) : RateStat n v (rateCounted n v) where
  rate := by
    simp (disch := decide) only [rateCounted, Fld.get_set_other, Fld.get_set_same]
    exact Nat.mod_eq_of_lt hn
  seq := by
    simp (disch := decide) only [rateCounted, Fld.get_set_other, Fld.get_set_same]
    exact Nat.mod_mod _ _
  minRate := by
    simp (disch := decide) only [rateCounted, Fld.get_set_same]
    exact Nat.mod_eq_of_lt (lt_of_le_of_lt (min_le_left _ _) hn)

theorem State.reg_wrapAdd_same (off : Nat) (f : Fld) (n : Nat) :
    (s.wrapAdd off f n).reg off = f.set (s.reg off) ((f.get (s.reg off) + n) % 2 ^ f.w) := State.reg_setFld_same ..

theorem State.reg_setMgt (m : MgtSt) : ({ s with mgt := m } : State).reg o = s.reg o := rfl

theorem exec_stepRateWindow_sets (rate : BitVec 16) (s : State) : ∃ t, exec (.stepRateWindow rate) s = .next t ∧
    SameRegs [R.GLB_STEP_RATE] s t ∧ SameMem s t ∧ RateStat rate.toNat (s.reg R.GLB_STEP_RATE) (t.reg R.GLB_STEP_RATE) ∧
    (rate.toNat < 1050 → t.bit R.GLB_STEP_RATE F.GLB_STEP_RATE_BELOW_FLOOR = true) ∧
    (rate.toNat < s.fld R.GLB_STEP_ALARM F.GLB_STEP_ALARM_THRESHOLD → t.bit R.GLB_STEP_RATE F.GLB_STEP_RATE_ALARM = true) := by
  change ∃ t, execStepRateWindow rate s = .next t ∧ _
  unfold execStepRateWindow
  extract_lets n s1 s2 m seen s3
  have hs2 : SameRegs [R.GLB_STEP_RATE] s s2 := ((SameRegs.setFld_self s _ _ (by simp)).wrapAdd _ _ _ (by simp)).setFld _ _ _ (by simp)
  have hseen : SameRegs [R.GLB_STEP_RATE] s seen := fun o ho => (State.reg_setMgt m).trans (hs2 o ho)
  have hstat : RateStat n (s.reg R.GLB_STEP_RATE) (seen.reg R.GLB_STEP_RATE) := by
    have hv : seen.reg R.GLB_STEP_RATE = rateCounted n (s.reg R.GLB_STEP_RATE) := by
      rw [State.reg_setMgt, State.reg_setFld_same, State.reg_wrapAdd_same, State.reg_setFld_same]
      rfl
    rw [hv]
    exact .of_rateCounted rate.isLt _
  have h3 : SameRegs [R.GLB_STEP_RATE] s s3 ∧ SameMem s s3 ∧ RateStat n (s.reg R.GLB_STEP_RATE) (s3.reg R.GLB_STEP_RATE) ∧
      (n < 1050 → s3.bit R.GLB_STEP_RATE F.GLB_STEP_RATE_BELOW_FLOOR = true) := by
    unfold s3
    split
    next hn =>
      refine ⟨hseen.setFld _ _ _ (by simp), fun _ => rfl, ?_, fun _ => State.bit_setFld_same _ _ _ _ (by decide)⟩
      rw [State.reg_setFld_same]
      exact hstat.setFld _ _ (by decide)
    next hn => exact ⟨hseen, fun _ => rfl, hstat, fun h => absurd h hn⟩
  obtain ⟨hregs3, hmem3, hstat3, hfloor3⟩ := h3
  refine ⟨_, rfl, ?_⟩
  split
  next ha =>
    refine ⟨hregs3.trans (SameRegs.withCause (SameRegs.setFld_self _ _ _ (by simp))), hmem3.trans (SameMem.withCause fun _ => rfl), ?_,
      fun hn => (State.bit_of_get ?_).trans (hfloor3 hn), fun _ => ?_⟩
    · rw [State.withCause_reg, State.reg_setFld_same]
      exact hstat3.setFld _ _ (by decide)
    · rw [State.withCause_reg, State.reg_setFld_same, Fld.get_set_other _ _ _ _ (by decide) (by decide)]
    · unfold State.bit State.fld
      rw [State.withCause_reg, State.reg_setFld_same, Fld.get_set_same _ _ _ (by decide)]
      rfl
  next ha => exact ⟨hregs3, hmem3, hstat3, hfloor3, fun h => absurd h ha⟩

end Sys2Proof.Machine
end
section
/-! A compare that fires, and its target (R118). -/

namespace Sys2Proof.Machine

variable {s t u : State} {n i o : Nat} {d : CmpDue} {stamp : Word}

/-! ### What every target leaves alone -/

/-- t differs from s in none of memory, device time and the registers of the compares. -/
structure KeepsCmp (s t : State) : Prop where
  mem : SameMem s t
  time : t.time = s.time
  cmp : ∀ n < 64, t.reg (R.TIME_CMP_CFG n) = s.reg (R.TIME_CMP_CFG n)

theorem KeepsCmp.refl (s : State) : KeepsCmp s s := ⟨fun _ => rfl, rfl, fun _ _ => rfl⟩

theorem KeepsCmp.trans (h1 : KeepsCmp s t) (h2 : KeepsCmp t u) : KeepsCmp s u :=
  ⟨h1.mem.trans h2.mem, h2.time.trans h1.time, fun n hn => (h2.cmp n hn).trans (h1.cmp n hn)⟩

theorem KeepsCmp.setReg (w : Word) (ho : o < 0x201000 ∨ 0x201800 ≤ o) : KeepsCmp s (s.setReg o w) :=
  ⟨fun _ => rfl, rfl, fun n hn => State.reg_setReg_ne _ _ _ _ (by unfold R.TIME_CMP_CFG; omega)⟩

theorem KeepsCmp.withCause {f : State → State} (h : KeepsCmp s (f s)) : KeepsCmp s (s.withCause i f) :=
  ⟨h.mem.withCause, (State.withCause_time i f).trans h.time, fun n hn => (State.withCause_reg ..).trans (h.cmp n hn)⟩

theorem KeepsCmp.foldl {α : Type} {f : State → α → State} (hf : ∀ (t : State) (x : α), KeepsCmp t (f t x)) (l : List α) : KeepsCmp s (l.foldl f s) :=
  List.foldlRecOn l f (motive := KeepsCmp s) (.refl s) fun t h x _ => h.trans (hf t x)

theorem State.missedStart_keepsCmp (g : Nat) : KeepsCmp s (s.missedStart g) :=
  (KeepsCmp.setReg _ (.inr (by unfold R.CTL_GROUP_STAT; omega))).trans (.withCause (.setReg _ (.inr (by decide))))

theorem State.sportStart_keepsCmp (g p : Nat) (stamp : Word) : KeepsCmp s (s.sportStart g p stamp) := by
  unfold State.sportStart
  split
  · exact State.missedStart_keepsCmp g
  · exact ⟨fun _ => rfl, rfl, fun _ _ => rfl⟩

theorem State.groupFire_keepsCmp (g : Nat) (stamp : Word) : KeepsCmp s (s.groupFire g stamp) := by
  unfold State.groupFire
  split
  · exact .refl s
  · split
    · exact State.missedStart_keepsCmp g
    · exact KeepsCmp.trans (t := s.setGrp g { s.grp g with phase := .fired, t0 := stamp, overran := false }) ⟨fun _ => rfl, rfl, fun _ _ => rfl⟩
        (.foldl (fun t p => State.sportStart_keepsCmp (s := t) g p stamp) _)

theorem State.convPulse_keepsCmp (q : Nat) : KeepsCmp s (s.convPulse q) := by
  unfold State.convPulse
  split
  · exact ⟨fun _ => rfl, rfl, fun _ _ => rfl⟩
  · exact .refl s

theorem KeepsCmp.setCamPort (h : KeepsCmp s t) (p : Nat) (x : CamPort) : KeepsCmp s (t.setCamPort p x) := ⟨h.mem, h.time, h.cmp⟩

theorem State.camArm_keepsCmp (p : Nat) (stamp : Word) : KeepsCmp s (s.camArm p stamp) := by
  unfold State.camArm
  extract_lets s1 vcs
  refine KeepsCmp.setCamPort ?_ p _
  unfold s1
  split
  · exact .setReg _ (.inr (by unfold R.IMG_PORT_ERR; omega))
  · exact .refl s

theorem State.fireTarget_keepsCmp (kind idx : Nat) (stamp : Word) : KeepsCmp s (s.fireTarget kind idx stamp) := by
  unfold State.fireTarget
  split
  next => exact State.convPulse_keepsCmp idx
  next => exact State.groupFire_keepsCmp idx stamp
  next =>
    split
    · exact State.camArm_keepsCmp idx stamp
    · exact .refl s
  next => exact .withCause (.setReg _ (.inl (by decide)))
  next => exact .refl s

/-! ### What each target does -/

theorem State.convPulse_starts (ha : s.bit (R.SIO_CONV_CFG i) F.SIO_CONV_CFG_ACTIVE = true) :
    Store.get (fun _ => none) (s.convPulse i).io.conv i = some (s.time.ticks + s.fld (R.SIO_CONV_CFG i) F.SIO_CONV_CFG_WIDTH) := by
  unfold State.convPulse
  rw [if_pos ha]
  exact Store.get_set_same (fun _ => none) s.io.conv i (some (s.time.ticks + s.fld (R.SIO_CONV_CFG i) F.SIO_CONV_CFG_WIDTH))

theorem State.missedStart_grp (g j : Nat) : (s.missedStart g).grp j = s.grp j :=
  (congrArg (fun x : State => x.grp j) (State.irqEdge_sends 6 _).1 :)

theorem State.sportStart_grp (g p j : Nat) (stamp : Word) : (s.sportStart g p stamp).grp j = s.grp j := by
  unfold State.sportStart
  split
  · exact State.missedStart_grp g j
  · rfl

theorem State.groupFire_fires (ha : s.groupActive i = true) (hd : s.bit (R.CTL_GROUP_CTL i) F.CTL_GROUP_CTL_DISABLE = false)
    (hp : (s.grp i).phase = .idle) : ((s.groupFire i stamp).grp i).phase = .fired ∧ ((s.groupFire i stamp).grp i).t0 = stamp := by
  have hg : (s.groupFire i stamp).grp i = { s.grp i with phase := .fired, t0 := stamp, overran := false } := by
    unfold State.groupFire
    rw [if_neg (by simp [ha, hd]), if_neg (not_not_intro hp)]
    exact List.foldlRecOn _ _ (motive := fun t : State => t.grp i = _) (State.grp_setGrp ..) fun t h p _ => (State.sportStart_grp ..).trans h
  rw [hg]
  exact ⟨rfl, rfl⟩

theorem State.camArm_arms (p : Nat) (stamp : Word) : ∃ l, ((s.camArm p stamp).camPort p).armed = some (stamp, l) :=
  ⟨_, congrArg CamPort.armed (State.camPort_setCamPort _ p _)⟩

theorem State.fireTarget_conv : s.fireTarget 1 i stamp = s.convPulse i := rfl

theorem State.fireTarget_group : s.fireTarget 2 i stamp = s.groupFire i stamp := rfl

theorem State.fireTarget_port (ha : s.bit (R.IMG_PORT_CFG i) F.IMG_PORT_CFG_ACTIVE = true)
    (hg : s.bit (R.IMG_PORT_CFG i) F.IMG_PORT_CFG_GATED = true) : s.fireTarget 3 i stamp = s.camArm i stamp :=
  if_pos (Bool.and_eq_true_iff.mpr ⟨ha, hg⟩)

theorem State.fireTarget_cause : s.fireTarget 4 i stamp =
    s.withCause (32 + i) (fun t => t.setReg R.GLB_IRQ_STAT (t.reg R.GLB_IRQ_STAT ||| BitVec.ofNat 64 (2 ^ (32 + i)))) := rfl

theorem State.fireTarget_tcmp (hi : i < 32) : ((s.fireTarget 4 i stamp).reg R.GLB_IRQ_STAT).getLsbD (32 + i) = true := by
  rw [State.fireTarget_cause, State.withCause_reg, State.reg_setReg_same, BitVec.getLsbD_or, BitVec.getLsbD_ofNat, Nat.testBit_two_pow_self,
    decide_eq_true (by omega), Bool.and_true, Bool.or_true]

/-! ### The compare itself -/

/-- t is s after compare n counted its fire: its registers and device time apart, all is as it was. -/
structure CmpFired (n : Nat) (s t : State) : Prop where
  frame : { t with regs := s.regs, time := s.time } = s
  regs : SameRegs [R.TIME_CMP_CFG n, R.TIME_CMP_NEXT n] s t
  ticks : t.time.ticks = s.time.ticks
  due : t.cmpDue n = none
  fires : t.fld (R.TIME_CMP_CFG n) F.TIME_CMP_CFG_FIRES = (s.fld (R.TIME_CMP_CFG n) F.TIME_CMP_CFG_FIRES + 1) % 2 ^ 16

section
variable (h : CmpFired n s t)
include h

theorem CmpFired.setNext (w : Word) : CmpFired n s (t.setReg (R.TIME_CMP_NEXT n) w) where
  frame := h.frame
  regs := h.regs.setReg _ _ (by simp)
  ticks := h.ticks
  due := h.due
  fires := (State.fld_setReg_ne _ _ _ _ _ (by unfold R.TIME_CMP_CFG R.TIME_CMP_NEXT; omega)).trans h.fires

theorem CmpFired.setCfg (f : Fld) (x : Nat) (hf : F.TIME_CMP_CFG_FIRES.lo + F.TIME_CMP_CFG_FIRES.w ≤ f.lo) : CmpFired n s (t.setFld (R.TIME_CMP_CFG n) f x) where
  frame := h.frame
  regs := h.regs.setFld _ _ _ (by simp)
  ticks := h.ticks
  due := h.due
  fires := (State.fld_setFld_other _ _ _ _ _ (by decide) (.inl hf)).trans h.fires

theorem CmpFired.setArmed (b : Bool) : CmpFired n s (t.setArmed n b) := ⟨h.frame, h.regs, h.ticks, h.due, h.fires⟩

theorem CmpFired.setFired (l : List (Nat × Nat)) : CmpFired n s { t with time := { t.time with fired := l } } :=
  ⟨h.frame, h.regs, h.ticks, h.due, h.fires⟩

theorem CmpFired.fld {f : Fld} (ho : 0x201800 ≤ o) (hn : n < 64) : t.fld o f = s.fld o f := by
  unfold State.fld
  rw [h.regs o (by simp only [List.mem_cons, List.not_mem_nil, or_false, R.TIME_CMP_CFG, R.TIME_CMP_NEXT]; omega)]

theorem CmpFired.bit {f : Fld} (ho : 0x201800 ≤ o) (hn : n < 64) : t.bit o f = s.bit o f := by
  unfold State.bit
  rw [h.fld ho hn]

theorem CmpFired.mem : SameMem s t := fun a => (congrArg (fun x : State => x.rd a) h.frame :)
theorem CmpFired.grp : t.grp i = s.grp i := (congrArg (fun x : State => x.grp i) h.frame :)

end

theorem State.countFire_cmpFired (n : Nat) : CmpFired n s ((s.wrapAdd (R.TIME_CMP_CFG n) F.TIME_CMP_CFG_FIRES 1).setDue n none) where
  frame := rfl
  regs := (SameRegs.refl _ s).wrapAdd _ _ _ (by simp)
  ticks := rfl
  due := Store.get_set_same (fun _ => none) s.time.due n none
  fires := State.fld_wrapAdd_same _ _ _ _ (by decide)

theorem State.cmpFired_fired (n : Nat) (d : CmpDue) : CmpFired n s (s.cmpFired n d) := by
  have h := State.countFire_cmpFired (s := s) n
  unfold State.cmpFired
  extract_lets s1 nx passed s2
  split
  next => exact h.setNext _
  next => exact (h.setCfg _ _ (by decide)).setNext _
  next =>
    split
    · exact ((h.setNext 0).setArmed false).setCfg _ _ (by decide)
    · exact (h.setNext 0).setArmed false

theorem State.setArmed_fired (b : Bool) : (s.setArmed n b).time.fired = s.time.fired := rfl

theorem State.setDue_fired (x : Option CmpDue) : (s.setDue n x).time.fired = s.time.fired := rfl

theorem State.cmpFired_timeFired (n : Nat) (d : CmpDue) : (s.cmpFired n d).time.fired = s.time.fired := by
  unfold State.cmpFired
  extract_lets s1 nx passed s2
  have h1 : s1.time.fired = s.time.fired := by rw [State.setDue_fired, State.wrapAdd_time]
  have h2 : s2.time.fired = s.time.fired := by rw [State.setArmed_fired, State.setReg_time, h1]
  split
  next => rw [State.setReg_time, h1]
  next => rw [State.setReg_time, State.satAdd_time, h1]
  next =>
    split
    · rw [State.setFld_time, h2]
    · exact h2

/-- A target fires once in a tick (R118). -/
theorem State.fireOnce_fired {k : Nat} (h : (k, i) ∈ s.time.fired) : s.fireOnce k i stamp = s :=
  if_pos (List.contains_iff_mem.mpr h)

theorem State.fireOnce_fresh {k : Nat} (h : (k, i) ∉ s.time.fired) :
    s.fireOnce k i stamp = ({ s with time := { s.time with fired := s.time.fired ++ [(k, i)] } } : State).fireTarget k i stamp :=
  if_neg (mt List.contains_iff_mem.mp h)

/-- What a fire leaves of its compare, whatever its target does. -/
theorem CmpFired.fireOnce (h : CmpFired n s t) (hn : n < 64) (k i : Nat) (stamp : Word) : SameMem s (t.fireOnce k i stamp) ∧
    (t.fireOnce k i stamp).cmpDue n = none ∧
    (t.fireOnce k i stamp).fld (R.TIME_CMP_CFG n) F.TIME_CMP_CFG_FIRES = (s.fld (R.TIME_CMP_CFG n) F.TIME_CMP_CFG_FIRES + 1) % 2 ^ 16 := by
  by_cases hf : (k, i) ∈ t.time.fired
  · rw [State.fireOnce_fired hf]
    exact ⟨h.mem, h.due, h.fires⟩
  · have hv := h.setFired (t.time.fired ++ [(k, i)])
    rw [State.fireOnce_fresh hf]
    have hk := State.fireTarget_keepsCmp (s := { t with time := { t.time with fired := t.time.fired ++ [(k, i)] } }) k i stamp
    refine ⟨hv.mem.trans hk.mem, ?_, ?_⟩
    · unfold State.cmpDue
      rw [hk.time]
      exact hv.due
    · unfold State.fld
      rw [hk.cmp n hn]
      exact hv.fires

/-- What the first fire of a target in a tick does, by its kind. -/
theorem CmpFired.fireTarget (h : CmpFired n s t) (hn : n < 64) (k i : Nat) (stamp : Word) :
    (k = 1 → s.bit (R.SIO_CONV_CFG i) F.SIO_CONV_CFG_ACTIVE = true →
      Store.get (fun _ => none) (t.fireTarget k i stamp).io.conv i = some (s.time.ticks + s.fld (R.SIO_CONV_CFG i) F.SIO_CONV_CFG_WIDTH)) ∧
    (k = 2 → s.groupActive i = true → s.bit (R.CTL_GROUP_CTL i) F.CTL_GROUP_CTL_DISABLE = false → (s.grp i).phase = .idle →
      ((t.fireTarget k i stamp).grp i).phase = .fired ∧ ((t.fireTarget k i stamp).grp i).t0 = stamp) ∧
    (k = 3 → s.bit (R.IMG_PORT_CFG i) F.IMG_PORT_CFG_ACTIVE = true → s.bit (R.IMG_PORT_CFG i) F.IMG_PORT_CFG_GATED = true →
      ∃ l, ((t.fireTarget k i stamp).camPort i).armed = some (stamp, l)) ∧
    (k = 4 → i < 32 → ((t.fireTarget k i stamp).reg R.GLB_IRQ_STAT).getLsbD (32 + i) = true) := by
  have hconv : 0x201800 ≤ R.SIO_CONV_CFG i := by unfold R.SIO_CONV_CFG; omega
  have hcfg : 0x201800 ≤ R.CTL_GROUP_CFG i := by unfold R.CTL_GROUP_CFG; omega
  have hctl : 0x201800 ≤ R.CTL_GROUP_CTL i := by unfold R.CTL_GROUP_CTL; omega
  have himg : 0x201800 ≤ R.IMG_PORT_CFG i := by unfold R.IMG_PORT_CFG; omega
  refine ⟨fun hk ha => ?_, fun hk ha hd hp => ?_, fun hk ha hg => ?_, fun hk hi => ?_⟩
  · rw [hk, State.fireTarget_conv, State.convPulse_starts ((h.bit hconv hn).trans ha), h.ticks, h.fld hconv hn]
  · rw [hk, State.fireTarget_group]
    exact State.groupFire_fires ((h.bit hcfg hn).trans ha) ((h.bit hctl hn).trans hd) (by rw [h.grp]; exact hp)
  · rw [hk, State.fireTarget_port ((h.bit himg hn).trans ha) ((h.bit himg hn).trans hg)]
    exact State.camArm_arms i stamp
  · rw [hk]
    exact State.fireTarget_tcmp hi

theorem exec_timeCompareFire_none (n : Fin 64) (s : State) (h : s.cmpDue n = none) : exec (.timeCompareFire n) s = .next s := by
  change execTimeCompareFire n s = _
  unfold execTimeCompareFire
  rw [h]

theorem exec_timeCompareFire_some (n : Fin 64) (s : State) (h : s.cmpDue n = some d) : exec (.timeCompareFire n) s =
    .next ((s.cmpFired n d).fireOnce (s.fld (R.TIME_CMP_CFG n) F.TIME_CMP_CFG_KIND) (s.fld (R.TIME_CMP_CFG n) F.TIME_CMP_CFG_INDEX) d.stamp) := by
  change execTimeCompareFire n s = _
  unfold execTimeCompareFire
  rw [h]

end Sys2Proof.Machine
end
section
/-! An edge that is captured (R122, R123). -/

namespace Sys2Proof.Machine

variable {s : State} {k o : Nat} {w : Word} {rising : Bool}

/-! ### What the recorder leaves of device time and of the registers below its own -/

/-- t differs from s neither in device time nor in a register below the detectors'. -/
structure KeepsLow (s t : State) : Prop where
  time : t.time = s.time
  reg : ∀ o < 0x1180000, t.reg o = s.reg o

theorem State.ringBytes_reg (base len p : Nat) (l : List Byte) (o : Nat) : (s.ringBytes base len p l).reg o = s.reg o := by
  induction l generalizing s p with
  | nil => rfl
  | cons b r ih => rw [State.ringBytes, ih, State.wr_reg]

theorem State.recWrite_keepsLow (l : List Byte) : KeepsLow s (s.recWrite l) := by
  refine ⟨State.recWrite_time l, fun o ho => ?_⟩
  simp only [State.recWrite]
  split
  · rfl
  · split
    · rw [State.reg_setFld_ne _ _ _ _ _ (by unfold R.DET_REC_CTL; omega), State.reg_setFld_ne _ _ _ _ _ (by unfold R.DET_REC_STAT; omega)]
    · rw [State.setTokens_reg, State.reg_setReg_ne _ _ _ _ (by unfold R.DET_REC_PROD; omega), State.ringBytes_reg]

theorem State.recDrop_keepsLow : KeepsLow s s.recDrop :=
  ⟨rfl, fun _ ho => State.reg_satAdd_ne _ _ _ _ _ (by unfold R.DET_REC_STAT; omega)⟩

theorem State.record_keepsLow (cls kind source flags : Nat) (stamp aux : Word) (payload : List Byte) :
    KeepsLow s (s.record cls kind source flags stamp aux payload) := by
  unfold State.record
  split
  next =>
    extract_lets l recorder s1
    split
    · exact State.recDrop_keepsLow
    · split
      · obtain ⟨htime, hreg⟩ := State.recWrite_keepsLow (s := s1) l
        exact ⟨htime, hreg⟩
      · exact ⟨rfl, fun _ _ => rfl⟩
  next => exact ⟨rfl, fun _ _ => rfl⟩

theorem State.record_off (cls kind source flags : Nat) (stamp aux : Word) (payload : List Byte)
    (he : s.bit R.DET_REC_CTL F.DET_REC_CTL_ENABLE = false) : s.record cls kind source flags stamp aux payload = s := by
  unfold State.record
  rw [he]
  rfl

/-! ### The FIFO of a channel -/

theorem State.evtPush_room (h : (s.evtFifo k).length < 32) : s.evtPush k rising w = s.setEvtFifo k (s.evtFifo k ++ [(rising, w)]) :=
  if_neg (Nat.not_le.mpr h)

theorem State.evtPush_full (h : ¬ (s.evtFifo k).length < 32) : s.evtPush k rising w = s.satAdd (R.TIME_EVT_CTL k) F.TIME_EVT_CTL_OVERRUN 1 :=
  if_pos (Nat.not_lt.mp h)

theorem State.setEvtFifo_rd (l : List (Bool × Word)) (a : Nat) : (s.setEvtFifo k l).rd a = s.rd a := rfl

theorem State.evtPush_sameRegs : SameRegs [R.TIME_EVT_CTL k] s (s.evtPush k rising w) := by
  by_cases h : (s.evtFifo k).length < 32
  · rw [State.evtPush_room h]
    exact State.setEvtFifo_sameRegs _
  · rw [State.evtPush_full h]
    exact (SameRegs.refl _ s).satAdd _ _ _ (by simp)

theorem State.evtPush_sameMem : SameMem s (s.evtPush k rising w) := by
  by_cases h : (s.evtFifo k).length < 32
  · rw [State.evtPush_room h]
    exact fun a => State.setEvtFifo_rd _ a
  · rw [State.evtPush_full h]
    exact fun _ => rfl

/-- An edge goes to the FIFO with its stamp, or counts in OVERRUN when 32 wait (R123). -/
theorem State.evtPush_keeps : if (s.evtFifo k).length < 32 then (s.evtPush k rising w).evtFifo k = s.evtFifo k ++ [(rising, w)]
    else (s.evtPush k rising w).evtFifo k = s.evtFifo k ∧
      (s.evtPush k rising w).fld (R.TIME_EVT_CTL k) F.TIME_EVT_CTL_OVERRUN = min 0xFFFF (s.fld (R.TIME_EVT_CTL k) F.TIME_EVT_CTL_OVERRUN + 1) := by
  split
  next h => rw [State.evtPush_room h, State.evtFifo_setEvtFifo]
  next h =>
    rw [State.evtPush_full h]
    exact ⟨rfl, State.fld_satAdd_same _ _ _ _ (by decide)⟩

/-! ### The capture -/

/-- A state after it noted when channel k last captured. -/
theorem State.setEvtLast_keeps (x : List (Nat × Option Word)) (l : List Nat) :
    let t : State := { s with time := { s.time with evtLast := x } }
    (∀ j, t.evtFifo j = s.evtFifo j) ∧ (∀ o f, t.fld o f = s.fld o f) ∧ SameRegs l s t ∧ SameMem s t :=
  ⟨fun _ => rfl, fun _ _ => rfl, .refl _ s, fun _ => rfl⟩

theorem State.capture_pushes (hk : k < 17) : if (s.evtFifo k).length < 32 then (s.capture k rising w).evtFifo k = s.evtFifo k ++ [(rising, w)]
    else (s.capture k rising w).evtFifo k = s.evtFifo k ∧
      (s.capture k rising w).fld (R.TIME_EVT_CTL k) F.TIME_EVT_CTL_OVERRUN = min 0xFFFF (s.fld (R.TIME_EVT_CTL k) F.TIME_EVT_CTL_OVERRUN + 1) := by
  unfold State.capture
  extract_lets s1
  obtain ⟨htime, hreg⟩ := State.record_keepsLow (s := s) 4 7 k (if rising then 1 else 0) w 0 []
  obtain ⟨hfifo, hfld, -, -⟩ := State.setEvtLast_keeps (s := s1) (Store.set (fun _ => none) s1.time.evtLast k (some w)) []
  have hp := State.evtPush_keeps (s := s.record 4 7 k (if rising then 1 else 0) w 0 []) (k := k) (rising := rising) (w := w)
  have hf : (s.record 4 7 k (if rising then 1 else 0) w 0 []).evtFifo k = s.evtFifo k := by
    unfold State.evtFifo
    rw [htime]
  have ho : (s.record 4 7 k (if rising then 1 else 0) w 0 []).fld (R.TIME_EVT_CTL k) F.TIME_EVT_CTL_OVERRUN =
      s.fld (R.TIME_EVT_CTL k) F.TIME_EVT_CTL_OVERRUN := by
    unfold State.fld
    rw [hreg _ (by unfold R.TIME_EVT_CTL; omega)]
  rw [hf, ho] at hp
  rw [hfifo, hfld]
  exact hp

theorem State.capture_unrecorded (he : s.bit R.DET_REC_CTL F.DET_REC_CTL_ENABLE = false) :
    SameRegs [R.TIME_EVT_CTL k] s (s.capture k rising w) ∧ SameMem s (s.capture k rising w) := by
  unfold State.capture
  rw [State.record_off _ _ _ _ _ _ _ he]
  extract_lets s1
  obtain ⟨-, -, hregs, hmem⟩ := State.setEvtLast_keeps (s := s1) (Store.set (fun _ => none) s1.time.evtLast k (some w)) [R.TIME_EVT_CTL k]
  exact ⟨State.evtPush_sameRegs.trans hregs, State.evtPush_sameMem.trans hmem⟩

/-- A live edge that EDGE selects and FILTER admits is captured. -/
theorem exec_eventCapture_live (k : Fin 17) (sampled : Word) (hl : s.replays 4 = false) (he : s.edgeSelected k rising = true)
    (hc : s.edgeTooClose k (s.captureStamp k sampled) = false) :
    exec (.eventCapture k rising sampled) s = .next (s.capture k rising (s.captureStamp k sampled)) := by
  change execEventCapture k rising sampled s = _
  unfold execEventCapture State.liveInput
  dsimp only
  rw [he, hc, hl]
  rfl

end Sys2Proof.Machine
end
section
open Sys2Proof Sys2Proof.Machine

/-- Settles O3: what a tick does beside its count leaves the clock, and a step moves it from the fine time it has just reached; holdover marks
TIME_STAT before its event, and the event's registers lie apart; a compare counts its fire before its target, and no target touches a compare. -/
theorem timeEventsMoveTime : Obligations.TimeEventsMoveTime := by
  unfold Obligations.TimeEventsMoveTime
  refine ⟨fun s => ?_, fun s => ?_, fun s => ?_, fun s => ?_, exec_ppsOutRise_rises, exec_ppsOutFall_falls, fun n s => ?_, exec_convStartPulseEnd_ends,
    fun k rising w s hl he hc => ?_, fun rate s => ?_⟩
  · obtain ⟨t, ht, hticks, hstop, hrun⟩ := exec_timeTick_clock s
    refine ⟨t, ht, hticks, hstop, fun hr => ⟨_, rfl, ?_⟩⟩
    have h := hrun hr
    unfold State.clock clockAt at h
    simp only [Prod.mk.injEq] at h
    obtain ⟨hsec, hns, hfrac, -⟩ := h
    exact ⟨hfrac, hns, hsec⟩
  · obtain ⟨hregs, hmem, hhold, -, hcause⟩ := s.enterHold_holds 1
    cases hl : s.syncLost with
    | true => exact ⟨_, congrArg Host.Outcome.next (if_pos hl), hregs, hmem, nofun, fun _ => ⟨hhold, hcause⟩⟩
    | false => exact ⟨s, congrArg Host.Outcome.next (if_neg (by simp [hl])), .refl _ s, fun _ => rfl, fun _ => rfl, nofun⟩
  · obtain ⟨u, hu, hregs, hmem, hloss, hheld⟩ := exec_refLoss s
    obtain ⟨hregs', hmem', hhold, hloss', hcause⟩ := u.enterHold_holds 3
    have hev : u.eventRegs = s.eventRegs := State.eventRegs_congr (hregs _ (by decide))
    rw [hev] at hregs'
    exact ⟨_, hu, (hregs.mono fun o ho => by simp_all).trans hregs', hmem.trans hmem', hloss'.trans hloss, hhold, fun hh => hcause (hheld.trans hh)⟩
  · exact ⟨_, rfl, RegsOnly.setFld s _ _ (by simp), State.bit_setFld_same _ _ _ _ (by decide), State.bit_setFld_other _ _ _ _ _ (by decide) (by decide)⟩
  · refine ⟨exec_timeCompareFire_none n s, fun d hd => ?_⟩
    have hf := State.cmpFired_fired (s := s) n d
    obtain ⟨hmem, hdue, hfires⟩ := hf.fireOnce n.isLt (s.fld (R.TIME_CMP_CFG n) F.TIME_CMP_CFG_KIND) (s.fld (R.TIME_CMP_CFG n) F.TIME_CMP_CFG_INDEX) d.stamp
    refine ⟨_, exec_timeCompareFire_some n s hd, hmem, hdue, hfires, fun hfresh => ?_⟩
    rw [State.fireOnce_fresh (by rwa [State.cmpFired_timeFired])]
    exact (hf.setFired _).fireTarget n.isLt _ _ _
  · exact ⟨_, exec_eventCapture_live k w hl he hc, State.capture_unrecorded, State.capture_pushes k.isLt⟩
  · obtain ⟨t, ht, hregs, hmem, ⟨hrate, hseq, hmin⟩, hfloor, halarm⟩ := exec_stepRateWindow_sets rate s
    exact ⟨t, ht, hregs, hmem, hrate, hseq, hmin, hfloor, halarm⟩

end
section
/-! The loader's registers: what a report, a refusal and a release of the stream leave alone, and the refresh of the plumb lines (R78, R90, R96). -/

namespace Sys2Proof.Machine

variable {s t u : State} {o : Nat}

/-- t differs from s in registers alone, and in the vectors that left. -/
def Shows (s t : State) : Prop :=
  { t with regs := s.regs, out := s.out, host := { t.host with pba := s.host.pba, waiting := s.host.waiting } } = s

theorem Shows.trans (h1 : Shows s t) (h2 : Shows t u) : Shows s u :=
  (congrArg (fun x : State =>
    { x with regs := s.regs, out := s.out, host := { x.host with pba := s.host.pba, waiting := s.host.waiting } }) h2 :).trans h1

theorem RegsAlone.shows (h : RegsAlone s t) : Shows s t :=
  (congrArg (fun x : State => { x with out := s.out, host := { x.host with pba := s.host.pba, waiting := s.host.waiting } }) h :)

theorem SendsOnly.shows (h : SendsOnly s t) : Shows s t := (congrArg (fun x : State => { x with regs := s.regs }) h.1 :)

section
variable (h : Shows s t)
include h

theorem Shows.sameMem : SameMem s t := fun a => (congrArg (fun x : State => x.rd a) h :)
theorem Shows.staged : t.staged = s.staged := (congrArg State.staged h :)
theorem Shows.fab : t.fab = s.fab := (congrArg State.fab h :)
theorem Shows.grp (g : Nat) : t.grp g = s.grp g := (congrArg (fun x : State => x.grp g) h :)

end

theorem Shows.withCause {i : Nat} {f : State → State} (h : Shows s (f s)) : Shows s (s.withCause i f) :=
  h.trans (State.irqEdge_sends i _).shows

theorem State.actCheck_regsAlone (n : Nat) : RegsAlone s (s.actCheck n) := by
  induction n with
  | zero => rfl
  | succ a ih =>
    unfold State.actCheck
    extract_lets s1 s2
    have h2 : RegsAlone s s2 := ih.trans (.setFld _ _ _)
    split
    · split
      · exact h2
      · exact h2.trans (.setFld _ _ _)
    · exact ih

theorem State.plRefresh_shows : Shows s s.plRefresh := by
  unfold State.plRefresh
  refine .withCause ?_
  extract_lets s1 s2 s3
  have h3 : RegsAlone s s3 := ((RegsAlone.setReg _ _).trans (.setReg _ _)).trans (.setReg _ _)
  exact ((h3.trans (.setFld _ _ _)).trans (State.actCheck_regsAlone 48)).shows

/-! ### Reports -/

theorem State.fabReport_shows (check sect : Nat) : Shows s (s.fabReport check sect) :=
  (((RegsAlone.setFld _ _ _).trans (.setFld _ _ _)).trans (.setFld _ _ _)).shows.trans (.withCause (RegsAlone.setFld _ _ _).shows)

theorem State.fabReport_sameRegs (check sect : Nat) : SameRegs [R.FAB_STATUS] s (s.fabReport check sect) :=
  fun _ ho => State.reg_fabReport_ne check sect (by simpa using ho)

theorem State.tag_fabReport (check sect : Nat) : (s.fabReport check sect).fld R.FAB_STATUS F.FAB_STATUS_TAG = s.fld R.FAB_STATUS F.FAB_STATUS_TAG := by
  unfold State.fld
  simp (disch := decide) only [State.reg_fabReport_status, Fld.get_set_other]

theorem State.fld_fabReport_section (check sect : Nat) : (s.fabReport check sect).fld R.FAB_STATUS F.FAB_STATUS_SECTION = sect % 65536 := by
  unfold State.fld
  simp (disch := decide) only [State.reg_fabReport_status, Fld.get_set_other, Fld.get_set_same]
  rfl

/-- What FAB_STATUS shows of the end of an operation (R96). -/
theorem State.fabReport_reports (check sect : Nat) :
    (s.fabReport check sect).fld R.FAB_STATUS F.FAB_STATUS_CHECK = check % 256 ∧
    (s.fabReport check sect).fld R.FAB_STATUS F.FAB_STATUS_SECTION = sect % 65536 ∧
    (s.fabReport check sect).fld R.FAB_STATUS F.FAB_STATUS_LAST_STATUS = (checkStatus check).toNat ∧
    (s.fabReport check sect).bit R.FAB_STATUS F.FAB_STATUS_DONE_EVT = true :=
  ⟨State.fld_fabReport_check _ _, State.fld_fabReport_section _ _, State.fld_fabReport_status _ _, State.bit_fabReport_done _ _⟩

/-- A refusal reports COMMAND_STATE, and the operation in progress goes on (R90). -/
theorem State.fabRefuse_refuses : SameRegs [R.FAB_STATUS] s s.fabRefuse ∧ SameMem s s.fabRefuse ∧ s.fabRefuse.staged = s.staged ∧
    s.fabRefuse.fab = s.fab ∧ s.fabRefuse.fabState = s.fabState ∧
    s.fabRefuse.fld R.FAB_STATUS F.FAB_STATUS_CHECK = ckCommandState ∧
    s.fabRefuse.fld R.FAB_STATUS F.FAB_STATUS_LAST_STATUS = stRejected.toNat ∧
    s.fabRefuse.bit R.FAB_STATUS F.FAB_STATUS_DONE_EVT = true ∧
    s.fabRefuse.fld R.FAB_STATUS F.FAB_STATUS_TAG = s.fld R.FAB_STATUS F.FAB_STATUS_TAG :=
  have hshows : Shows s s.fabRefuse := State.fabReport_shows _ _
  ⟨State.fabReport_sameRegs _ _, hshows.sameMem, hshows.staged, hshows.fab, State.fabState_fabReport _ _, State.fld_fabReport_check _ _,
    State.fld_fabReport_status _ _, State.bit_fabReport_done _ _, State.tag_fabReport _ _⟩

/-! ### The state and the tag in FAB_STATUS -/

theorem State.fabState_setFab {x : Nat} (hx : x < 16) : (s.setFab x).fabState = x :=
  (State.fld_setFld_same s _ _ _ (by decide)).trans (Nat.mod_eq_of_lt hx)

theorem State.fabState_setTag (tag : Nat) : (s.setTag tag).fabState = s.fabState :=
  State.fld_setFld_other s _ _ _ _ (by decide) (by decide)

theorem State.fabState_setBoot (x : Nat) : (s.setBoot x).fabState = s.fabState := State.fld_setFld_ne _ _ _ _ _ _ (by decide)

theorem State.fabState_attempt : s.attempt.fabState = s.fabState := State.fld_setFld_ne _ _ _ _ _ _ (by decide)

theorem State.tag_setTag (tag : BitVec 16) : (s.setTag tag.toNat).fld R.FAB_STATUS F.FAB_STATUS_TAG = tag.toNat :=
  (State.fld_setFld_same s _ _ _ (by decide)).trans (Nat.mod_eq_of_lt tag.isLt)

theorem State.tag_setFab (x : Nat) : (s.setFab x).fld R.FAB_STATUS F.FAB_STATUS_TAG = s.fld R.FAB_STATUS F.FAB_STATUS_TAG :=
  State.fld_setFld_other s _ _ _ _ (by decide) (by decide)

/-! ### The staged digest, and the release of the stream -/

theorem State.setDigest_sameRegs (off : Nat → Nat) (l : List Byte) : SameRegs ((List.range 8).map off) s (s.setDigest off l) :=
  fun _ ho => State.reg_setDigest_ne l fun i hi he => ho (List.mem_map.mpr ⟨i, List.mem_range.mpr hi, he.symm⟩)

theorem stagedDigest_injective : Function.Injective R.FAB_STAGED_DIGEST := by
  intro i j h
  unfold R.FAB_STAGED_DIGEST at h
  omega

theorem stagedDigest_ne_status (i : Nat) : R.FAB_STAGED_DIGEST i ≠ R.FAB_STATUS := by
  unfold R.FAB_STAGED_DIGEST R.FAB_STATUS
  omega

theorem State.stagedDigest_setFld (f : Fld) (x : Nat) : (s.setFld R.FAB_STATUS f x).digest R.FAB_STAGED_DIGEST = s.digest R.FAB_STAGED_DIGEST :=
  State.digest_congr fun i _ => State.reg_setFld_ne _ _ _ _ _ (stagedDigest_ne_status i)

theorem State.stagedDigest_fabReport (check sect : Nat) : (s.fabReport check sect).digest R.FAB_STAGED_DIGEST = s.digest R.FAB_STAGED_DIGEST :=
  State.digest_congr fun i _ => State.reg_fabReport_ne _ _ (stagedDigest_ne_status i)

/-- The loader without a stream, before FAB_STATUS and the staged digest show it. -/
def State.released (s : State) : State := { s with staged := none, fab := { s.fab with canton := none, phase := none } }

theorem State.unstage_regsAlone : RegsAlone s.released s.unstage :=
  RegsAlone.trans (t := s.released.setFab 0) rfl (State.setDigest_regsAlone _ _)

theorem State.unstage_sameMem : SameMem s s.unstage := fun a => (State.unstage_regsAlone.rd a).trans rfl

theorem State.unstage_sameRegs : SameRegs (R.FAB_STATUS :: (List.range 8).map R.FAB_STAGED_DIGEST) s s.unstage := by
  intro o ho
  simp only [List.mem_cons, List.mem_map, List.mem_range, not_or, not_exists, not_and] at ho
  exact State.reg_unstage_ne ho.1 fun i hi he => ho.2 i hi he.symm

theorem State.stagedDigest_unstage : s.unstage.digest R.FAB_STAGED_DIGEST = List.replicate 64 0 :=
  State.digest_setDigest stagedDigest_injective (by simp)

end Sys2Proof.Machine
end
section
/-! A write of FAB_CMD that is taken: STAGE, COMMIT and DISCARD (R78, R83, R90, R94). -/

namespace Sys2Proof.Machine

variable {s t : State} {c g tag : Nat}

/-- The three operations of FAB_CMD are the writes of OP 1, 2 and 3. -/
theorem exec_fabCmd {r : Req} {k : BitVec 16} (ht : s.takesWrite r R.FAB_CMD = true) :
    exec (.fabStage r k) s = .next (s.stageCmd k.toNat) ∧ exec (.fabCommit r k) s = .next (s.commitCmd k.toNat) ∧
    exec (.fabDiscard r k) s = .next (s.discardCmd k.toNat) :=
  ⟨congrArg Host.Outcome.next (s.guardW_takes r _ _ ht), congrArg Host.Outcome.next (s.guardW_takes r _ _ ht),
    congrArg Host.Outcome.next (s.guardW_takes r _ _ ht)⟩

/-! ### STAGE -/

/-- The range that STAGE takes (R78). -/
def State.stageRange (s : State) : FabOwn :=
  ⟨s.fld R.FAB_STAGE_BASE F.FAB_STAGE_BASE_ADDR * 4096, s.fld R.FAB_STAGE_LEN F.FAB_STAGE_LEN_LEN⟩

/-- Whether a full load may be staged: at WAIT_STREAM, or after a rejection with a source that is not xSPI alone (R612, R614). -/
def State.awaitsLoad (s : State) : Prop := s.bootStage = 3 ∨ (s.bootStage = 11 ∧ s.fld R.SEC_BOOT_STAT F.SEC_BOOT_STAT_BOOT_SRC ≠ 0)

/-- A full load is staged, and its verification begins (R612). -/
def State.loading (s : State) (tag : Nat) : State := (({ s with staged := some s.stageRange }.setTag tag).setBoot 5).attempt

theorem State.loading_sameRegs : SameRegs [R.FAB_STATUS, R.SEC_BOOT_STAT] s (s.loading tag) :=
  ((SameRegs.setFld_self (s := { s with staged := some s.stageRange }) _ _ (by simp)).setFld _ _ _ (by simp)).satAdd _ _ _ (by simp)

theorem State.fabState_loading : (s.loading tag).fabState = s.fabState := by
  rw [State.loading, State.fabState_attempt, State.fabState_setBoot, State.fabState_setTag]
  rfl

theorem State.bootStage_loading : (s.loading tag).bootStage = 5 :=
  (State.fld_setFld_other _ _ _ _ _ (by decide) (by decide)).trans (State.bootStage_setBoot (by decide))

theorem State.attempts_loading :
    (s.loading tag).fld R.SEC_BOOT_STAT F.SEC_BOOT_STAT_ATTEMPTS = min 255 (s.fld R.SEC_BOOT_STAT F.SEC_BOOT_STAT_ATTEMPTS + 1) := by
  rw [State.loading, State.attempts_attempt, State.setBoot, State.fld_setFld_other _ _ _ _ _ (by decide) (by decide), State.setTag,
    State.fld_setFld_ne _ _ _ _ _ _ (by decide)]
  rfl

theorem State.stageCmd_waits (hk : s.keyBusy = true) :
    s.stageCmd tag = { s with sec := { s.sec with waiting := s.sec.waiting ++ [.stage tag] } } := if_pos hk

section
variable (hk : s.keyBusy = false)
include hk

theorem State.stageCmd_restream (h0 : s.fabState = 0) (h7 : s.bootStage = 7) :
    s.stageCmd tag = ({ s with staged := some s.stageRange }.setTag tag).setFab 1 := by
  simp [State.stageCmd, hk, h0, h7, State.stageRange]

theorem State.stageCmd_fullLoad (h4 : s.fabState = 4) (hw : s.awaitsLoad) :
    s.stageCmd tag = s.loading tag := by
  have hb : (s.bootStage == 3 || (s.bootStage == 11 && s.fld R.SEC_BOOT_STAT F.SEC_BOOT_STAT_BOOT_SRC != 0)) = true := by
    simpa [State.awaitsLoad] using hw
  simp [State.stageCmd, hk, h4, hb, State.loading, State.stageRange]

theorem State.stageCmd_refused (hre : ¬ (s.fabState = 0 ∧ s.bootStage = 7)) (hfull : ¬ (s.fabState = 4 ∧ s.awaitsLoad)) :
    s.stageCmd tag = s.fabRefuse := by
  by_cases h4 : s.fabState = 4
  · have hb : (s.bootStage == 3 || (s.bootStage == 11 && s.fld R.SEC_BOOT_STAT F.SEC_BOOT_STAT_BOOT_SRC != 0)) = false := by
      rw [Bool.eq_false_iff]
      simpa [State.awaitsLoad, h4] using hfull
    simp [State.stageCmd, hk, h4, hb]
  · have hb : (s.fabState == 0 && s.bootStage == 7) = false := by
      rw [Bool.eq_false_iff]
      simpa using hre
    simp [State.stageCmd, hk, h4, hb]

end

/-! ### Rate groups into outage -/

/-- t differs from s in the control engine's state alone. -/
def CtlAlone (s t : State) : Prop := { t with ctl := s.ctl } = s

/-- Rate groups l put into or out of outage. -/
def State.outages (s : State) (on : Bool) (l : List Nat) : State := l.foldl (fun (t : State) g => t.setGrp g { t.grp g with outage := on }) s

theorem State.groupOutage_eq (on : Bool) : s.groupOutage c on = (s.outages on (s.groupsOf c)).plRefresh := rfl

theorem State.outages_ctlAlone (on : Bool) (l : List Nat) : CtlAlone s (s.outages on l) :=
  List.foldlRecOn l _ (motive := CtlAlone s) rfl fun _ h _ _ => h

theorem State.outage_outages (on : Bool) (l : List Nat) :
    ∀ s : State, ((s.outages on l).grp g).outage = if g ∈ l then on else (s.grp g).outage := by
  induction l with
  | nil => exact fun s => rfl
  | cons x l ih =>
    intro s
    rw [State.outages, List.foldl_cons, ← State.outages, ih]
    by_cases hx : g = x
    · subst hx
      simp
    · simp [hx, State.grp_setGrp_ne]

theorem State.outage_groupOutage (on : Bool) : ((s.groupOutage c on).grp g).outage = if g ∈ s.groupsOf c then on else (s.grp g).outage := by
  rw [State.groupOutage_eq, State.plRefresh_shows.grp, State.outage_outages]

/-- An outage of a canton's groups leaves memory and the loader alone. -/
theorem State.groupOutage_frame (on : Bool) : SameMem s (s.groupOutage c on) ∧ (s.groupOutage c on).staged = s.staged ∧
    (s.groupOutage c on).fab = s.fab ∧ (s.groupOutage c on).reg R.FAB_STATUS = s.reg R.FAB_STATUS := by
  have hact (a : Nat) : R.FAB_STATUS ≠ R.SIO_ACT_STAT a := by
    unfold R.FAB_STATUS R.SIO_ACT_STAT
    omega
  have hctl := s.outages_ctlAlone on (s.groupsOf c)
  have hmem : SameMem s (s.outages on (s.groupsOf c)) := fun a => (congrArg (fun x : State => x.rd a) hctl :)
  rw [State.groupOutage_eq, State.plRefresh_shows.staged, State.plRefresh_shows.fab, State.reg_plRefresh_ne hact (by decide)]
  exact ⟨hmem.trans State.plRefresh_shows.sameMem, (congrArg State.staged hctl :), (congrArg State.fab hctl :),
    (congrArg (fun x : State => x.reg R.FAB_STATUS) hctl :)⟩

/-! ### COMMIT -/

/-- The drain of a COMMIT has begun (R83). -/
def State.draining (s : State) (tag : Nat) : State :=
  { (s.setFab 3).setTag tag with fab := { s.fab with phase := some .drain, since := s.nowNs, fail := none } }

theorem State.draining_sameRegs : SameRegs [R.FAB_STATUS] s (s.draining tag) :=
  (SameRegs.setFld_self s _ _ (by simp)).setFld _ _ _ (by simp)

theorem State.commitCmd_refused (h2 : s.fabState ≠ 2) : s.commitCmd tag = s.fabRefuse := if_pos h2

section
variable (h2 : s.fabState = 2)
include h2

theorem State.commitCmd_quiet (hl : carries s.stagedSects tyControlGraph = false) : s.commitCmd tag = s.draining tag := by
  rw [State.commitCmd, if_neg (not_not_intro h2)]
  simp only [hl]
  split <;> rfl

theorem State.commitCmd_outage (hl : carries s.stagedSects tyControlGraph = true) (hc : s.fab.canton = some c) :
    s.commitCmd tag = (s.draining tag).groupOutage c true := by
  rw [State.commitCmd, if_neg (not_not_intro h2)]
  extract_lets s1 _ s2
  split
  next c' h' =>
    obtain rfl : c' = c := Option.some.inj (h'.symm.trans hc)
    exact if_pos hl
  next h' => cases h'.symm.trans hc

theorem State.commitCmd_cases : s.commitCmd tag = s.draining tag ∨ ∃ c, s.commitCmd tag = (s.draining tag).groupOutage c true := by
  rw [State.commitCmd, if_neg (not_not_intro h2)]
  extract_lets s1 _ s2
  split
  · split
    · exact .inr ⟨_, rfl⟩
    · exact .inl rfl
  · exact .inl rfl

/-- Every COMMIT of a staged stream begins the drain. -/
theorem State.commitCmd_drains (k : BitVec 16) : SameMem s (s.commitCmd k.toNat) ∧ (s.commitCmd k.toNat).staged = s.staged ∧
    (s.commitCmd k.toNat).fabState = 3 ∧ (s.commitCmd k.toNat).fld R.FAB_STATUS F.FAB_STATUS_TAG = k.toNat ∧
    (s.commitCmd k.toNat).fab = { s.fab with phase := some .drain, since := s.nowNs, fail := none } := by
  have hstate : (s.draining k.toNat).fabState = 3 := (State.fabState_setTag (s := s.setFab 3) _).trans (State.fabState_setFab (by decide))
  have htag : (s.draining k.toNat).fld R.FAB_STATUS F.FAB_STATUS_TAG = k.toNat := State.tag_setTag (s := s.setFab 3) k
  rcases State.commitCmd_cases (tag := k.toNat) h2 with h | ⟨c, h⟩
  · rw [h]
    exact ⟨fun _ => rfl, rfl, hstate, htag, rfl⟩
  · obtain ⟨hmem, hstaged, hfab, hreg⟩ := (s.draining k.toNat).groupOutage_frame (c := c) true
    rw [h, hstaged, hfab]
    exact ⟨hmem, rfl, (congrArg F.FAB_STATUS_STATE.get hreg).trans hstate, (congrArg F.FAB_STATUS_TAG.get hreg).trans htag, rfl⟩

end

theorem State.groupsOf_draining : (s.draining tag).groupsOf c = s.groupsOf c := by
  have hne (g : Nat) : R.CTL_GROUP_CFG g ∉ [R.FAB_STATUS] := by
    rw [List.mem_singleton]
    unfold R.CTL_GROUP_CFG R.FAB_STATUS
    omega
  have hreg (g : Nat) : (s.draining tag).reg (R.CTL_GROUP_CFG g) = s.reg (R.CTL_GROUP_CFG g) := State.draining_sameRegs _ (hne g)
  simp only [State.groupsOf, State.groupActive, State.bit, State.fld, hreg]

/-- Of the active rate groups, those of the canton that is restreamed are in outage (R85). -/
theorem State.outage_draining (hg : g < 8) (ha : s.groupActive g = true) : (((s.draining tag).groupOutage c true).grp g).outage =
    if s.fld (R.CTL_GROUP_CFG g) F.CTL_GROUP_CFG_CANTON = c then true else (s.grp g).outage := by
  have hmem : g ∈ s.groupsOf c ↔ s.fld (R.CTL_GROUP_CFG g) F.CTL_GROUP_CFG_CANTON = c := by simp [State.groupsOf, hg, ha]
  rw [State.outage_groupOutage, State.groupsOf_draining]
  simp only [hmem]
  rfl

/-! ### DISCARD -/

theorem State.discardCmd_refused (h : s.fabState = 3 ∨ s.fabState = 4) : s.discardCmd tag = s.fabRefuse := if_pos h

theorem State.discardCmd_releases (h3 : s.fabState ≠ 3) (h4 : s.fabState ≠ 4) : s.discardCmd tag = (s.unstage.setTag tag).fabReport 0 0 :=
  if_neg (by simp [h3, h4])

/-- A DISCARD that is not refused leaves the loader idle, with no digest shown. -/
theorem State.discardCmd_discards (h3 : s.fabState ≠ 3) (h4 : s.fabState ≠ 4) (k : BitVec 16) : let t := s.discardCmd k.toNat
    SameMem s t ∧ SameRegs (R.FAB_STATUS :: (List.range 8).map R.FAB_STAGED_DIGEST) s t ∧ t.staged = none ∧ t.fabState = 0 ∧
    (t.fld R.FAB_STATUS F.FAB_STATUS_CHECK = 0 % 256 ∧ t.fld R.FAB_STATUS F.FAB_STATUS_SECTION = 0 % 65536 ∧
      t.fld R.FAB_STATUS F.FAB_STATUS_LAST_STATUS = (checkStatus 0).toNat ∧ t.bit R.FAB_STATUS F.FAB_STATUS_DONE_EVT = true) ∧
    t.fld R.FAB_STATUS F.FAB_STATUS_TAG = k.toNat ∧ t.digest R.FAB_STAGED_DIGEST = List.replicate 64 0 := by
  intro t
  have ht : t = (s.unstage.setTag k.toNat).fabReport 0 0 := State.discardCmd_releases h3 h4
  have hshows := (s.unstage.setTag k.toNat).fabReport_shows 0 0
  rw [ht]
  refine ⟨State.unstage_sameMem.trans ((State.setReg_sameMem _ _).trans hshows.sameMem), ?_,
    hshows.staged.trans ((State.setFld_staged ..).trans State.staged_unstage), ?_, State.fabReport_reports 0 0,
    (State.tag_fabReport 0 0).trans (State.tag_setTag k), ?_⟩
  · exact (State.unstage_sameRegs.setFld _ _ _ (by simp)).trans ((State.fabReport_sameRegs 0 0).mono (by simp))
  · exact (State.fabState_fabReport 0 0).trans ((State.fabState_setTag _).trans State.fabState_unstage)
  · exact (State.stagedDigest_fabReport 0 0).trans ((State.stagedDigest_setFld _ _).trans State.stagedDigest_unstage)

end Sys2Proof.Machine
end
section
/-! The end of STAGE (R73, R78, R98, R613, R614). -/

namespace Sys2Proof.Machine

variable {s t : State}

/-- A stream that passed its checks is staged for its canton. -/
def State.stagedFor (s : State) (l : List Sect) : State :=
  ({ s with fab := { s.fab with canton := streamCanton l } }.setDigest R.FAB_STAGED_DIGEST (finalDigest l)).setFab 2

theorem State.stagedFor_regsAlone (l : List Sect) : RegsAlone { s with fab := { s.fab with canton := streamCanton l } } (s.stagedFor l) :=
  (State.setDigest_regsAlone _ _).trans (.setFld _ _ _)

theorem State.stagedFor_sameRegs (l : List Sect) :
    SameRegs (R.FAB_STATUS :: (List.range 8).map R.FAB_STAGED_DIGEST) s (s.stagedFor l) := by
  refine SameRegs.setFld _ _ _ (fun o ho => ?_) (by simp)
  exact State.setDigest_sameRegs (s := { s with fab := { s.fab with canton := streamCanton l } }) _ _ o fun h => ho (List.mem_cons_of_mem _ h)

theorem State.stagedDigest_stagedFor (l : List Sect) : (s.stagedFor l).digest R.FAB_STAGED_DIGEST = finalDigest l :=
  (State.stagedDigest_setFld _ _).trans (State.digest_setDigest stagedDigest_injective (finalDigest_length l))

section
variable (h1 : s.fabState = 1)
include h1

theorem exec_fabStageDone_passed (he : s.streamErr false = none) :
    exec .fabStageDone s = .next ((s.stagedFor s.stagedSects).fabReport 0 0) := by
  show execFabStageDone s = _
  rw [execFabStageDone, if_pos h1, he]
  rfl

theorem exec_fabStageDone_failed {k : LoadErr} (he : s.streamErr false = some k) :
    exec .fabStageDone s = .next (s.unstage.fabReport k.1 k.2) := by
  show execFabStageDone s = _
  rw [execFabStageDone, if_pos h1, he]

end

section
variable (h4 : s.fabState = 4) (h5 : s.bootStage = 5)
include h4 h5

theorem exec_fabStageDone_applies (he : s.streamErr true = none) :
    exec .fabStageDone s = .next ((s.setDigest R.FAB_STAGED_DIGEST (finalDigest s.stagedSects)).setBoot 6) := by
  show execFabStageDone s = _
  rw [execFabStageDone, if_neg (by simp [h4]), if_pos ⟨h4, h5⟩, he]

theorem exec_fabStageDone_rejected {k : LoadErr} (he : s.streamErr true = some k) : exec .fabStageDone s = .next (s.bootReject k) := by
  show execFabStageDone s = _
  rw [execFabStageDone, if_neg (by simp [h4]), if_pos ⟨h4, h5⟩, he]

end

theorem exec_fabStageDone_idle (h1 : s.fabState ≠ 1) (h45 : ¬ (s.fabState = 4 ∧ s.bootStage = 5)) : exec .fabStageDone s = .next s := by
  show execFabStageDone s = _
  rw [execFabStageDone, if_neg h1, if_neg h45]

/-! ### Where the boot goes after a rejection (R614) -/

theorem State.bootMoved_final (h0 : s.fld R.SEC_BOOT_STAT F.SEC_BOOT_STAT_BOOT_SRC = 0) :
    s.bootMoved = ({ s with staged := none }.setBoot 11).setFab 0 := by
  rw [State.bootMoved, if_neg (by simp [h0]), if_pos h0]

/-- The host may stage another stream when it is the source, or has become so. -/
theorem State.bootMoved_host (src : Nat) (hsrc : s.fld R.SEC_BOOT_STAT F.SEC_BOOT_STAT_BOOT_SRC = src) (h0 : src ≠ 0)
    (hback : src = 2 → s.bit R.SEC_BOOT_STAT F.SEC_BOOT_STAT_FALLBACK = true) : s.bootMoved = { s with staged := none }.setBoot 11 := by
  rw [State.bootMoved, if_neg (by rw [hsrc]; exact fun h => h.2 (hback h.1)), if_neg (by rwa [hsrc])]

theorem State.bootStage_bootReject (k : LoadErr) : (s.bootReject k).bootStage = s.bootMoved.bootStage :=
  congrArg F.SEC_BOOT_STAT_STAGE.get (State.bootStat_bootReject k)

theorem State.fabState_bootReject (k : LoadErr) : (s.bootReject k).fabState = s.bootMoved.fabState := State.fabState_fabReport _ _

/-- The stage and the loader's state after a rejection, by source. -/
theorem State.bootReject_goes (h4 : s.fabState = 4) (k : LoadErr) : let src := s.fld R.SEC_BOOT_STAT F.SEC_BOOT_STAT_BOOT_SRC
    let t := s.bootReject k
    (src = 0 → t.bootStage = 11 ∧ t.fabState = 0) ∧ (src = 1 → t.bootStage = 11 ∧ t.fabState = 4) ∧
    (src = 2 → s.bit R.SEC_BOOT_STAT F.SEC_BOOT_STAT_FALLBACK = false → t.bootStage = 3 ∧ t.fabState = 4) ∧
    (src = 2 → s.bit R.SEC_BOOT_STAT F.SEC_BOOT_STAT_FALLBACK = true → t.bootStage = 11 ∧ t.fabState = 4) := by
  intro src t
  have hmoved (n : Nat) : ({ s with staged := none }.setBoot n).fabState = 4 := (State.fabState_setBoot n).trans h4
  have hstage : ({ s with staged := none }.setBoot 11).bootStage = 11 := State.bootStage_setBoot (by decide)
  rw [State.bootStage_bootReject, State.fabState_bootReject]
  refine ⟨fun h0 => ?_, fun h1 => ?_, fun h2 hf => ⟨(State.bootMoved_fallback h2 hf).1, ?_⟩, fun h2 hf => ?_⟩
  · rw [State.bootMoved_final h0]
    exact ⟨(State.fld_setFld_ne _ _ _ _ _ _ (by decide)).trans hstage, State.fabState_setFab (by decide)⟩
  · rw [State.bootMoved_host 1 h1 (by decide) (by simp)]
    exact ⟨hstage, hmoved 11⟩
  · rw [State.bootMoved, if_pos ⟨h2, by simp [hf]⟩]
    exact (State.fld_setFld_ne _ _ _ _ _ _ (by decide)).trans (hmoved 3)
  · rw [State.bootMoved_host 2 h2 (by decide) fun _ => hf]
    exact ⟨hstage, hmoved 11⟩

end Sys2Proof.Machine
end
section
open Sys2Proof Sys2Proof.Machine

/-- Settles O46: each write of FAB_CMD, and the end of the checks, by the operation it runs. -/
theorem fabCommandsStageCheckAndRelease : Obligations.FabCommandsStageCheckAndRelease := by
  unfold Obligations.FabCommandsStageCheckAndRelease
  refine ⟨fun r tag s ht => ?_, fun s => ⟨fun h1 => ⟨fun he => ?passed, fun k he => ?failed⟩,
    fun h4 h5 => ⟨fun he => ?applies, fun k he => ?rejected⟩, exec_fabStageDone_idle⟩⟩
  · obtain ⟨hstage, hcommit, hdiscard⟩ := exec_fabCmd (k := tag) ht
    rw [hstage, hcommit, hdiscard]
    refine ⟨fun hk => congrArg Host.Outcome.next (State.stageCmd_waits hk),
      fun hk => ⟨fun h0 h7 => ?restream, fun h4 hw => ?fullLoad, fun hno => ?refusedStage⟩, fun h2 => ?refusedCommit, fun h2 => ?commit,
      fun h => ?refusedDiscard, fun h3 h4 => ?discard⟩
    case restream =>
      rw [State.stageCmd_restream hk h0 h7]
      exact ⟨_, rfl, rfl, (SameRegs.setFld_self (s := { s with staged := some s.stageRange }) _ _ (by simp)).setFld _ _ _ (by simp), rfl,
        State.fabState_setFab (by decide), (State.tag_setFab _).trans (State.tag_setTag tag)⟩
    case fullLoad =>
      rw [State.stageCmd_fullLoad hk h4 hw]
      exact ⟨_, rfl, rfl, State.loading_sameRegs, rfl, State.fabState_loading.trans h4, State.bootStage_loading, State.attempts_loading⟩
    case refusedStage =>
      have hfull : ¬ (s.fabState = 4 ∧ s.awaitsLoad) := by
        unfold State.awaitsLoad
        omega
      rw [State.stageCmd_refused hk (by omega) hfull]
      exact ⟨_, rfl, State.fabRefuse_refuses⟩
    case refusedCommit =>
      rw [State.commitCmd_refused h2]
      exact ⟨_, rfl, State.fabRefuse_refuses⟩
    case commit =>
      obtain ⟨hmem, hstaged, hstate, htag, hfab⟩ := State.commitCmd_drains h2 tag
      refine ⟨_, rfl, hmem, hstaged, hstate, htag, hfab, fun hl => ?_, fun c g hl hc hg ha => ?_⟩
      · rw [State.commitCmd_quiet h2 hl]
        exact ⟨State.draining_sameRegs, fun _ => rfl⟩
      · rw [State.commitCmd_outage h2 hl hc, State.outage_draining hg ha]
    case refusedDiscard =>
      rw [State.discardCmd_refused h]
      exact ⟨_, rfl, State.fabRefuse_refuses⟩
    case discard => exact ⟨_, rfl, State.discardCmd_discards h3 h4 tag⟩
  case passed =>
    have hshows := (s.stagedFor s.stagedSects).fabReport_shows 0 0
    have halone := s.stagedFor_regsAlone s.stagedSects
    refine ⟨_, exec_fabStageDone_passed h1 he, SameMem.trans (fun a => halone.rd a) hshows.sameMem, ?_, hshows.staged.trans halone.staged,
      (State.fabState_fabReport 0 0).trans (State.fabState_setFab (by decide)), State.fabReport_reports 0 0,
      (State.stagedDigest_fabReport 0 0).trans (State.stagedDigest_stagedFor _), hshows.fab.trans halone.shows.fab⟩
    exact (State.stagedFor_sameRegs _).trans ((State.fabReport_sameRegs 0 0).mono (by simp))
  case failed =>
    have hshows := s.unstage.fabReport_shows k.1 k.2
    exact ⟨_, exec_fabStageDone_failed h1 he, State.unstage_sameMem.trans hshows.sameMem,
      State.unstage_sameRegs.trans ((State.fabReport_sameRegs _ _).mono (by simp)), hshows.staged.trans State.staged_unstage,
      (State.fabState_fabReport _ _).trans State.fabState_unstage, State.fabReport_reports _ _⟩
  case applies =>
    have halone := s.setDigest_regsAlone R.FAB_STAGED_DIGEST (finalDigest s.stagedSects)
    refine ⟨_, exec_fabStageDone_applies h4 h5 he, fun a => halone.rd a, ?_, halone.staged, State.bootStage_setBoot (by decide)⟩
    exact SameRegs.setFld _ _ _ ((State.setDigest_sameRegs _ _).mono fun _ => List.mem_cons_of_mem _) (by simp)
  case rejected =>
    obtain ⟨hmem, hregs, hstaged⟩ := s.bootReject_frame k
    refine ⟨_, exec_fabStageDone_rejected h4 h5 he, hmem, hregs.mono (by simp), hstaged, State.fabReport_reports _ _, State.bootReject_goes h4 k⟩

end
section
/-! COMMIT's phases: the limit of the drain, the ends of the phases, and the resume (R80 to R99, R455). -/

namespace Sys2Proof.Machine

variable {s t : State} {c q : Nat} {p : ComPhase} {d : Cmd}

/-! ### The limit of the drain -/

section
variable {unit : Nat} {now : Word} (hd : d.phase = .running ∨ d.phase = .stopping)
include hd

/-- Control-engine commands and frames on the wire are exempt (R455). -/
theorem abandonCmd_exempt (hu : unit = 6 ∨ (unit = 7 ∧ d.done ≠ 0)) : abandonCmd unit now d = d := by
  rcases hd with h | h <;> simp only [abandonCmd, h, if_pos hu]

/-- A frame that is not on the wire is dropped. -/
theorem abandonCmd_port (hu : unit = 7) (h0 : d.done = 0) :
    abandonCmd unit now d = { d with phase := .ended, status := worse stAborted d.status, stop := now } := by
  rcases hd with h | h <;> simp [abandonCmd, h, hu, h0]

/-- The other chip units are told to stop. -/
theorem abandonCmd_unit (h1 : unit ≠ 1) (h6 : unit ≠ 6) (h7 : unit ≠ 7) :
    abandonCmd unit now d = { d with phase := .stopping, status := worse stAborted d.status } := by
  rcases hd with h | h <;> simp [abandonCmd, h, h1, h6, h7]

end

theorem State.drainCmd_idle (he : s.executing q = false) : s.drainCmd q = s := if_neg (by simp [he])

/-- An Ethernet port has no BUSY bit: only the command changes. -/
theorem State.drainCmd_executing (he : s.executing q = true) : s.drainCmd q = s.updHead q (abandonCmd (s.qUnit q) s.now) := by
  rw [State.drainCmd, if_pos he]
  extract_lets s1
  split <;> rfl

theorem State.qUnit_of_chipQueues (h : q ∈ s.chipQueues c) : s.qUnit q ≠ 1 := by
  have hf := (List.mem_filter.mp h).2
  simp only [Bool.and_eq_true, bne_iff_ne] at hf
  exact hf.2

theorem exec_commitUnitDrainTimeout_idle (hp : s.fab.phase ≠ some .drain) : exec .commitUnitDrainTimeout s = .next s := by
  show execCommitUnitDrainTimeout s = _
  unfold execCommitUnitDrainTimeout
  split
  · rw [if_neg hp]
  · rfl

/-- With one chip queue and no input source in the canton, the limit comes down on that queue's command. -/
theorem exec_commitUnitDrainTimeout_one (hc : s.fab.canton = some c) (hp : s.fab.phase = some .drain) (hq : s.chipQueues c = [q])
    (himg : ∀ k, k < 128 → s.bit (R.IMG_SRC_CFG k) F.IMG_SRC_CFG_ACTIVE = true → s.fld (R.IMG_SRC_CFG k) F.IMG_SRC_CFG_CANTON ≠ c) :
    exec .commitUnitDrainTimeout s = .next (s.drainCmd q) := by
  have hsrc : (List.range 128).filter (fun k => s.bit (R.IMG_SRC_CFG k) F.IMG_SRC_CFG_ACTIVE &&
      s.fld (R.IMG_SRC_CFG k) F.IMG_SRC_CFG_CANTON == c) = [] := by
    simpa [List.filter_eq_nil_iff] using himg
  show execCommitUnitDrainTimeout s = _
  simp only [execCommitUnitDrainTimeout, hc, if_pos hp, hq, hsrc, List.foldl_cons, List.foldl_nil]

/-! ### The phases -/

theorem State.commitAt_none (hc : s.fab.canton = some c) (h : s.fab.phase ≠ some p ∨ s.furlIn c = true) : s.commitAt p = none := by
  have hno : ¬ (s.fab.phase = some p ∧ s.furlIn c = false) := fun ⟨hp, hf⟩ => h.elim (· hp) (by simp [hf])
  simp only [State.commitAt, hc, if_neg hno]

theorem State.commitAt_some (hc : s.fab.canton = some c) (hp : s.fab.phase = some p) (hf : s.furlIn c = false) : s.commitAt p = some c := by
  simp only [State.commitAt, hc, if_pos (And.intro hp hf)]

/-- Outside its phase, or with a furl in the canton, the end of a phase changes nothing (R91). -/
theorem exec_commitPhase_idle (s : State) : (s.commitAt .drain = none → exec .commitDrainDone s = .next s) ∧
    (s.commitAt .save = none → exec .commitSaveDone s = .next s) ∧ (s.commitAt .verify = none → exec .commitVerifyDone s = .next s) ∧
    (s.commitAt .rebind = none → exec .commitRebindDone s = .next s) ∧ (s.commitAt .resume = none → exec .commitResumeDone s = .next s) := by
  refine ⟨fun h => ?_, fun h => ?_, fun h => ?_, fun h => ?_, fun h => ?_⟩
  · show execCommitDrainDone s = _
    rw [execCommitDrainDone, h]
  · show execCommitSaveDone s = _
    rw [execCommitSaveDone, h]
  · show execCommitVerifyDone s = _
    rw [execCommitVerifyDone, h]
  · show execCommitRebindDone s = _
    rw [execCommitRebindDone, h]
  · show execCommitResumeDone s = _
    rw [execCommitResumeDone, h]

/-- The canton has drained: no chip unit runs a command of it, and each of its cores runs none or saves it. -/
def State.drained (s : State) (c : Nat) : Prop :=
  (s.chipQueues c).any (fun q => s.executing q) = false ∧ ∀ n ∈ s.cantonCores c, (s.core n).running = none ∨ (s.core n).saving = true

/-- Every context of the canton has been saved. -/
def State.allSaved (s : State) (c : Nat) : Prop := ∀ n ∈ s.cantonCores c, (s.core n).running = none

theorem exec_commitDrainDone_at [Decidable (s.drained c)] (hat : s.commitAt .drain = some c) :
    exec .commitDrainDone s = .next (if s.drained c then s.setPhase .save else s) := by
  have hiff : ((s.chipQueues c).any (fun q => s.executing q) ||
      (s.cantonCores c).any (fun n => (s.core n).running.isSome && !(s.core n).saving)) = true ↔ ¬ s.drained c := by
    rw [← Bool.not_eq_false, not_iff_not, Bool.or_eq_false_iff, State.drained, List.any_eq_false (p := fun n => _ && _)]
    refine and_congr_right fun _ => forall₂_congr fun n _ => ?_
    cases (s.core n).running <;> simp
  show execCommitDrainDone s = _
  simp only [execCommitDrainDone, hat, hiff, ite_not]

theorem exec_commitSaveDone_at [Decidable (s.allSaved c)] (hat : s.commitAt .save = some c) :
    exec .commitSaveDone s = .next (if s.allSaved c then s.setPhase .verify else s) := by
  have hiff : (s.cantonCores c).any (fun n => (s.core n).running.isSome) = true ↔ ¬ s.allSaved c := by
    simp [State.allSaved, Option.isSome_iff_ne_none]
  show execCommitSaveDone s = _
  simp only [execCommitSaveDone, hat, hiff, ite_not]

theorem exec_commitVerifyDone_fails {k : LoadErr} (hat : s.commitAt .verify = some c) (he : s.liveErr = some k) :
    exec .commitVerifyDone s = .next { s with fab := { s.fab with phase := some .rebind, fail := some k } } := by
  show execCommitVerifyDone s = _
  simp only [execCommitVerifyDone, hat, he]

theorem exec_commitVerifyDone_passes (hat : s.commitAt .verify = some c) (he : s.liveErr = none) :
    exec .commitVerifyDone s = .next ((s.rebind c s.stagedSects).setPhase .rebind) := by
  show execCommitVerifyDone s = _
  simp only [execCommitVerifyDone, hat, he]

theorem exec_commitRebindDone_at (hat : s.commitAt .rebind = some c) : exec .commitRebindDone s = .next (s.setPhase .resume) := by
  show execCommitRebindDone s = _
  simp only [execCommitRebindDone, hat]

/-- A rebind ends with the configuration that the restream leaves, and with the refresh of the plumb lines. -/
theorem State.cfg_rebind (l : List Sect) : (s.rebind c l).fab.cfg = s.fab.cfg.after (some c) l := by
  unfold State.rebind
  rw [State.plRefresh_shows.fab]

/-! ### The resume -/

/-- What the resume leaves of the configuration's registers: those of a stream that was applied, or as they were (R80, R99). -/
def State.settled (s : State) (c : Nat) : State := if s.fab.fail.isNone then s.committed c else s

/-- FAB_LAST_OUTAGE shows the time from the COMMIT (R97). -/
def State.outageShown (s : State) (c : Nat) : State :=
  (s.settled c).setFld R.FAB_LAST_OUTAGE F.FAB_LAST_OUTAGE_NS (min (2 ^ 40 - 1) (s.nowNs - s.fab.since))

/-- The loader without a failed check to report. -/
def State.failCleared (s : State) : State := { s with fab := { s.fab with fail := none } }

@[simp] theorem State.failCleared_reg (o : Nat) : s.failCleared.reg o = s.reg o := rfl
@[simp] theorem State.failCleared_rd (a : Nat) : s.failCleared.rd a = s.rd a := rfl
@[simp] theorem State.failCleared_staged : s.failCleared.staged = s.staged := rfl
@[simp] theorem State.failCleared_fabState : s.failCleared.fabState = s.fabState := rfl
theorem State.failCleared_fab : s.failCleared.fab = { s.fab with fail := none } := rfl

/-- The stream is released, and with it what kept it from being applied. -/
def State.resumed (s : State) (c : Nat) : State := (s.outageShown c).unstage.failCleared

theorem exec_commitResumeDone_at (hat : s.commitAt .resume = some c) :
    exec .commitResumeDone s = .next ((s.resumed c).fabReport (s.fab.fail.getD (0, 0)).1 (s.fab.fail.getD (0, 0)).2) := by
  show execCommitResumeDone s = _
  rw [execCommitResumeDone, hat]
  rfl

theorem State.committed_regsAlone : RegsAlone s (s.committed c) := RegsAlone.trans (.setFld _ _ _) (State.setDigest_regsAlone _ _)

theorem State.settled_regsAlone : RegsAlone s (s.settled c) := by
  unfold State.settled
  split
  · exact State.committed_regsAlone
  · exact .refl s

theorem State.outageShown_regsAlone : RegsAlone s (s.outageShown c) := State.settled_regsAlone.trans (.setFld _ _ _)

theorem State.resumed_sameMem : SameMem s (s.resumed c) :=
  fun a => (State.failCleared_rd a).trans ((State.unstage_sameMem a).trans (State.outageShown_regsAlone.rd a))

theorem State.staged_resumed : (s.resumed c).staged = none := State.failCleared_staged.trans State.staged_unstage

theorem State.fabState_resumed : (s.resumed c).fabState = 0 := State.failCleared_fabState.trans State.fabState_unstage

theorem State.fab_unstage : s.unstage.fab = { s.fab with canton := none, phase := none } := State.unstage_regsAlone.shows.fab

theorem State.fab_resumed : (s.resumed c).fab = { cfg := s.fab.cfg, canton := none, phase := none, since := s.fab.since, fail := none } := by
  rw [State.resumed, State.failCleared_fab, State.fab_unstage, State.outageShown_regsAlone.shows.fab]

end Sys2Proof.Machine
end
section
/-! The registers that a resume shows (R80, R96, R97, R99). -/

namespace Sys2Proof.Machine

variable {s : State} {c : Nat}

theorem canton_apart (hc : c < 8) : R.FAB_CANTON c ≠ R.FAB_STATUS ∧ R.FAB_CANTON c ≠ R.FAB_LAST_OUTAGE ∧
    (∀ i, i < 8 → R.FAB_CANTON c ≠ R.FAB_STAGED_DIGEST i) ∧ ∀ i, i < 8 → R.FAB_CANTON c ≠ R.FAB_CONFIG_DIGEST i := by
  unfold R.FAB_CANTON R.FAB_STATUS R.FAB_LAST_OUTAGE R.FAB_STAGED_DIGEST R.FAB_CONFIG_DIGEST
  refine ⟨by omega, by omega, fun i _ => by omega, fun i _ => by omega⟩

/-- The registers that a COMMIT of canton c may change as it resumes. -/
def resumeRegs (c : Nat) : List Nat :=
  [R.FAB_STATUS, R.FAB_LAST_OUTAGE, R.FAB_CANTON c] ++ (List.range 8).map R.FAB_CONFIG_DIGEST ++ (List.range 8).map R.FAB_STAGED_DIGEST

theorem State.settled_sameRegs : SameRegs (resumeRegs c) s (s.settled c) := by
  unfold State.settled
  split
  · exact ((SameRegs.refl _ s).wrapAdd _ _ _ (by simp [resumeRegs])).trans
      ((State.setDigest_sameRegs _ _).mono fun _ ho => List.mem_append_left _ (List.mem_append_right _ ho))
  · exact .refl _ s

theorem State.resumed_sameRegs : SameRegs (resumeRegs c) s (s.resumed c) := by
  have hshown : SameRegs (resumeRegs c) s (s.outageShown c) := State.settled_sameRegs.setFld _ _ _ (by simp [resumeRegs])
  have hmono : ∀ o ∈ R.FAB_STATUS :: (List.range 8).map R.FAB_STAGED_DIGEST, o ∈ resumeRegs c := by
    intro o ho
    rcases List.mem_cons.mp ho with rfl | ho
    · simp [resumeRegs]
    · exact List.mem_append_right _ ho
  intro o ho
  rw [State.resumed, State.failCleared_reg]
  exact hshown.trans (State.unstage_sameRegs.mono hmono) o ho

/-- The release and the report reach none of the other registers of the resume. -/
theorem State.reg_resume_ne {o : Nat} (check sect : Nat) (hstat : o ≠ R.FAB_STATUS) (hdig : ∀ i, i < 8 → o ≠ R.FAB_STAGED_DIGEST i) :
    ((s.resumed c).fabReport check sect).reg o = (s.outageShown c).reg o :=
  (State.reg_fabReport_ne _ _ hstat).trans ((State.failCleared_reg o).trans (State.reg_unstage_ne hstat hdig))

theorem State.reg_resume_settled {o : Nat} (check sect : Nat) (hstat : o ≠ R.FAB_STATUS) (hdig : ∀ i, i < 8 → o ≠ R.FAB_STAGED_DIGEST i)
    (hout : o ≠ R.FAB_LAST_OUTAGE) : ((s.resumed c).fabReport check sect).reg o = (s.settled c).reg o :=
  (State.reg_resume_ne _ _ hstat hdig).trans (State.reg_setFld_ne _ _ _ _ _ hout)

theorem State.lastOutage_resume (check sect : Nat) : ((s.resumed c).fabReport check sect).fld R.FAB_LAST_OUTAGE F.FAB_LAST_OUTAGE_NS =
    min (2 ^ 40 - 1) (s.nowNs - s.fab.since) := by
  have hlt : min (2 ^ 40 - 1) (s.nowNs - s.fab.since) < 2 ^ 40 := by omega
  rw [State.fld, State.reg_resume_ne _ _ (by decide) (by decide), ← State.fld]
  exact (State.fld_setFld_same _ _ _ _ (by decide)).trans (Nat.mod_eq_of_lt hlt)

theorem State.configDigest_resume (check sect : Nat) :
    ((s.resumed c).fabReport check sect).digest R.FAB_CONFIG_DIGEST = (s.settled c).digest R.FAB_CONFIG_DIGEST :=
  State.digest_congr fun i hi =>
    State.reg_resume_settled _ _ (configDigest_apart i hi).1 (configDigest_apart i hi).2 (by unfold R.FAB_CONFIG_DIGEST R.FAB_LAST_OUTAGE; omega)

/-- A stream that was applied enters the digest of the chain (R80). -/
theorem State.digest_committed :
    (s.committed c).digest R.FAB_CONFIG_DIGEST = sha3_512 (s.digest R.FAB_CONFIG_DIGEST ++ finalDigest s.stagedSects) :=
  State.digest_setDigest configDigest_injective (sha3_512_length _)

/-- It counts as one more restream of its canton (R99). -/
theorem State.restreams_committed (hc : c < 8) : (s.committed c).fld (R.FAB_CANTON c) F.FAB_CANTON_RESTREAMS =
    (s.fld (R.FAB_CANTON c) F.FAB_CANTON_RESTREAMS + 1) % 256 := by
  obtain ⟨-, -, -, hdig⟩ := canton_apart hc
  rw [State.fld, State.committed, State.reg_setDigest_ne _ hdig, ← State.fld, State.fld_wrapAdd_same _ _ _ _ (by decide)]
  rfl

/-- What the registers of the configuration show after a resume. -/
theorem State.resume_configures (hc : c < 8) (check sect : Nat) : let t := (s.resumed c).fabReport check sect
    (s.fab.fail = none → t.digest R.FAB_CONFIG_DIGEST = sha3_512 (s.digest R.FAB_CONFIG_DIGEST ++ finalDigest s.stagedSects) ∧
      t.fld (R.FAB_CANTON c) F.FAB_CANTON_RESTREAMS = (s.fld (R.FAB_CANTON c) F.FAB_CANTON_RESTREAMS + 1) % 256) ∧
    (s.fab.fail ≠ none → t.digest R.FAB_CONFIG_DIGEST = s.digest R.FAB_CONFIG_DIGEST ∧ t.reg (R.FAB_CANTON c) = s.reg (R.FAB_CANTON c)) := by
  intro t
  obtain ⟨hstat, hout, hstaged, -⟩ := canton_apart hc
  have hdigest : t.digest R.FAB_CONFIG_DIGEST = _ := State.configDigest_resume check sect
  have hcanton : t.reg (R.FAB_CANTON c) = _ := State.reg_resume_settled check sect hstat hstaged hout
  rw [State.fld, hcanton, hdigest, ← State.fld]
  constructor
  · intro hfail
    rw [State.settled, if_pos (by simp [hfail])]
    exact ⟨State.digest_committed, State.restreams_committed hc⟩
  · intro hfail
    rw [State.settled, if_neg (by simpa using hfail)]
    exact ⟨rfl, rfl⟩

end Sys2Proof.Machine
end
section
open Sys2Proof Sys2Proof.Machine

/-- Settles O47: the limit of the drain by what it does to the one command, the end of each phase by its condition, and the resume by its registers. -/
theorem commitRunsItsPhases : Obligations.CommitRunsItsPhases := by
  unfold Obligations.CommitRunsItsPhases
  refine ⟨fun c s hc => ⟨exec_commitUnitDrainTimeout_idle, fun q d hp hq hd himg => ?limit⟩, fun c s hc => ?idle,
    fun c s hc hf => ⟨fun hp => ?drain, fun hp => ?save, fun hp => ?verify, fun hp => ?rebind⟩, fun c s hc hf hp => ?resume⟩
  case limit =>
    rw [exec_commitUnitDrainTimeout_one hc hp hq himg]
    refine ⟨fun he => congrArg Host.Outcome.next (State.drainCmd_idle he), fun he hph => ?_⟩
    have hunit : s.qUnit q ≠ 1 := State.qUnit_of_chipQueues (c := c) (by simp [hq])
    rw [State.drainCmd_executing he]
    exact ⟨_, _, rfl, fun o _ => State.updHead_reg o, State.updHead_rd, State.head_updHead hd, abandonCmd_exempt hph, abandonCmd_port hph,
      abandonCmd_unit hph hunit⟩
  case idle =>
    obtain ⟨hdrain, hsave, hverify, hrebind, hresume⟩ := exec_commitPhase_idle s
    exact ⟨fun h => hdrain (State.commitAt_none hc h), fun h => hsave (State.commitAt_none hc h), fun h => hverify (State.commitAt_none hc h),
      fun h => hrebind (State.commitAt_none hc h), fun h => hresume (State.commitAt_none hc h)⟩
  case drain =>
    classical
    rw [exec_commitDrainDone_at (State.commitAt_some hc hp hf)]
    exact ⟨fun h => congrArg Host.Outcome.next (if_pos h), fun h => congrArg Host.Outcome.next (if_neg h)⟩
  case save =>
    classical
    rw [exec_commitSaveDone_at (State.commitAt_some hc hp hf)]
    exact ⟨fun h => congrArg Host.Outcome.next (if_pos h), fun h => congrArg Host.Outcome.next (if_neg h)⟩
  case verify =>
    have hat := State.commitAt_some hc hp hf
    exact ⟨fun k he => exec_commitVerifyDone_fails hat he, fun he => ⟨_, exec_commitVerifyDone_passes hat he, rfl, State.cfg_rebind _⟩⟩
  case rebind => exact exec_commitRebindDone_at (State.commitAt_some hc hp hf)
  case resume =>
    intro k digest
    have hshows := (s.resumed c).fabReport_shows k.1 k.2
    obtain ⟨hcheck, hsect, hstatus, hdone⟩ := (s.resumed c).fabReport_reports k.1 k.2
    exact ⟨_, exec_commitResumeDone_at (State.commitAt_some hc hp hf), State.resumed_sameMem.trans hshows.sameMem,
      hshows.staged.trans State.staged_resumed, (State.fabState_fabReport _ _).trans State.fabState_resumed, hshows.fab.trans State.fab_resumed,
      State.resumed_sameRegs.trans ((State.fabReport_sameRegs _ _).mono (by simp [resumeRegs])), State.lastOutage_resume _ _,
      hcheck, hsect, hstatus, hdone, State.resume_configures c.isLt _ _⟩

end

section
/-! A step is a command or idles, so what every command keeps every step keeps. -/

namespace Sys2Proof.Machine

theorem Keeps.step {s t : State} (h : step s = .next t) : Keeps { s with pending := s.pending.tail } t := by
  unfold Machine.step at h
  split at h
  next hp =>
    cases h
    exact .same rfl rfl rfl rfl (by rw [hp]; rfl) rfl rfl rfl
  next c q hp =>
    rw [hp]
    obtain ⟨u, hu, hk⟩ := Moves.exec (Keeps.refl { s with pending := q }) (c := c)
    obtain rfl : u = t := Host.Outcome.next.inj (hu.symm.trans h)
    exact hk

end Sys2Proof.Machine
end

section
open Sys2Proof Sys2Proof.Machine

/-- Settles O50: order does not speak of the queue of commands, and a step keeps all else that Keeps speaks of (Keeps.step, by Moves.exec). -/
theorem stepKeepsTheStateInOrder : Obligations.StepKeepsTheStateInOrder := by
  unfold Obligations.StepKeepsTheStateInOrder
  exact fun s t hw h => (Keeps.step h).wf hw

end

section
/-! The resets: what they clear and keep, the start of a warm reset, and the end of either (R108, R569, R573, R608 to R610, R624). -/

namespace Sys2Proof.Machine

variable {s t u : State} {o : Nat} {l : List Nat}

/-! ### What both resets clear -/

/-- What a reset keeps beside registers, and what it empties, as one value. -/
def State.lasting (s : State) : List Instr × List Output × Nat × Option (List Byte) × BitVec 18 × List (Nat × Queue) × List (Nat × Core) × Option FabOwn :=
  (s.pending, s.out, s.freeCtr, s.sec.seed, s.rep.failed, s.queues, s.cores, s.staged)

/-- The state t after a reset of s: fuses and what has left the device or waits stand, and the device holds no work. -/
def KeptByReset (s t : State) : Prop :=
  t.pending = s.pending ∧ t.out = s.out ∧ t.freeCtr = s.freeCtr ∧ t.sec.seed = s.sec.seed ∧ t.rep.failed = s.rep.failed ∧
    t.queues = [] ∧ t.cores = [] ∧ t.staged = none ∧ ∀ off, isFuseReg off = true → t.reg off = s.reg off

theorem RegsAlone.lasting (h : RegsAlone s t) : t.lasting = s.lasting := (congrArg State.lasting h :)
theorem RegsAlone.sec (h : RegsAlone s t) : t.sec = s.sec := (congrArg State.sec h :)
theorem RegsAlone.hbm (h : RegsAlone s t) : t.hbm = s.hbm := (congrArg State.hbm h :)

/-- The registers of s that a reset keeps, before it shows SEC_RESULT. -/
theorem State.reg_cleared (ho : o ≠ R.SEC_RESULT) : s.cleared.reg o = if isFuseReg o then s.reg o else resetVal o := by
  unfold State.cleared
  rw [State.reg_setFld_ne _ _ _ _ _ ho, State.reg_setFld_ne _ _ _ _ _ ho]
  exact Store.get_filter_key resetVal isFuseReg s.regs o

theorem State.reg_cleared_fuse (ho : isFuseReg o = true) : s.cleared.reg o = s.reg o := by
  have hne : o ≠ R.SEC_RESULT := by
    rintro rfl
    exact absurd ho (by decide)
  rw [State.reg_cleared hne, if_pos ho]

theorem State.reg_cleared_reset (hf : isFuseReg o = false) (ho : o ≠ R.SEC_RESULT) : s.cleared.reg o = resetVal o := by
  rw [State.reg_cleared ho, hf]
  rfl

theorem State.rd_cleared (a : Nat) : s.cleared.rd a = 0 := rfl
theorem State.time_cleared : s.cleared.time = {} := rfl
theorem State.hbm_cleared : s.cleared.hbm = {} := rfl

theorem State.cleared_kept : KeptByReset s s.cleared := ⟨rfl, rfl, rfl, rfl, rfl, rfl, rfl, rfl, fun _ => State.reg_cleared_fuse⟩

/-- Work on registers outside the fuse windows does not undo a reset. -/
theorem KeptByReset.update (h : KeptByReset s t) (hu : u.lasting = t.lasting) (hr : SameRegs l t u) (hl : l.any isFuseReg = false) :
    KeptByReset s u := by
  simp only [State.lasting, Prod.mk.injEq] at hu
  obtain ⟨hpending, hout, hfree, hseed, hfailed, hqueues, hcores, hstaged⟩ := hu
  obtain ⟨kpending, kout, kfree, kseed, kfailed, kqueues, kcores, kstaged, kfuse⟩ := h
  refine ⟨hpending.trans kpending, hout.trans kout, hfree.trans kfree, hseed.trans kseed, hfailed.trans kfailed, hqueues.trans kqueues,
    hcores.trans kcores, hstaged.trans kstaged, fun off hf => (hr off fun hm => ?_).trans (kfuse off hf)⟩
  rw [List.any_eq_false] at hl
  exact hl off hm hf

/-! ### The end of a reset -/

/-- The boot stands at its first stage with the straps st, and FAB_STATUS in FULL_LOAD. -/
def LeftReset (t : State) (st : Straps) : Prop :=
  t.sec.inReset = false ∧ t.sec.straps = st ∧ t.bootStage = 1 ∧ t.fabState = 4 ∧
    t.fld R.SEC_BOOT_STAT F.SEC_BOOT_STAT_BOOT_SRC = st.bootSrc.toNat ∧ t.bit R.SEC_BOOT_STAT F.SEC_BOOT_STAT_ROLE = st.manager

section
variable {st : Straps}

theorem State.leaveReset_sameRegs : SameRegs [R.SEC_BOOT_STAT, R.FAB_STATUS] s (s.leaveReset st) :=
  ((((SameRegs.setFld_self _ _ _ (by simp)).setFld _ _ _ (by simp)).setBit _ _ _ (by simp)).setFld _ _ _ (by simp) :
    SameRegs [R.SEC_BOOT_STAT, R.FAB_STATUS]
      { s with sec := { s.sec with straps := st, inReset := false, resetAt := s.nowNs } } _)

theorem State.leaveReset_lasting : (s.leaveReset st).lasting = s.lasting := rfl
theorem State.leaveReset_rd (a : Nat) : (s.leaveReset st).rd a = s.rd a := rfl
theorem State.leaveReset_time : (s.leaveReset st).time = s.time := rfl
theorem State.leaveReset_hbm : (s.leaveReset st).hbm = s.hbm := rfl

/-- The register that the end of a reset shows the boot in. -/
theorem State.bootStat_leaveReset : (s.leaveReset st).reg R.SEC_BOOT_STAT =
    F.SEC_BOOT_STAT_ROLE.set (F.SEC_BOOT_STAT_BOOT_SRC.set (F.SEC_BOOT_STAT_STAGE.set (s.reg R.SEC_BOOT_STAT) 1) st.bootSrc.toNat)
      (if st.manager then 1 else 0) := by
  unfold State.leaveReset
  rw [State.reg_setFld_ne _ _ _ _ _ (by decide), State.setBit, State.reg_setFld_same, State.reg_setFld_same, State.reg_setFld_same]
  rfl

theorem State.leaveReset_left : LeftReset (s.leaveReset st) st := by
  refine ⟨rfl, rfl, ?stage, State.fld_setFld_same _ _ _ 4 (by decide), ?source, ?role⟩
  case stage =>
    rw [State.bootStage, State.fld, State.bootStat_leaveReset, Fld.get_set_other _ _ _ _ (by decide) (by decide),
      Fld.get_set_other _ _ _ _ (by decide) (by decide), Fld.get_set_same _ _ _ (by decide)]
    rfl
  case source =>
    rw [State.fld, State.bootStat_leaveReset, Fld.get_set_other _ _ _ _ (by decide) (by decide), Fld.get_set_same _ _ _ (by decide)]
    exact Nat.mod_eq_of_lt st.bootSrc.isLt
  case role =>
    rw [State.bit, State.fld, State.bootStat_leaveReset, Fld.get_set_same _ _ _ (by decide)]
    cases st.manager <;> rfl

theorem State.resetCause_leaveReset : (s.leaveReset st).fld R.SEC_BOOT_STAT F.SEC_BOOT_STAT_RESET_CAUSE =
    s.fld R.SEC_BOOT_STAT F.SEC_BOOT_STAT_RESET_CAUSE := by
  rw [State.fld, State.bootStat_leaveReset, Fld.get_set_other _ _ _ _ (by decide) (by decide),
    Fld.get_set_other _ _ _ _ (by decide) (by decide), Fld.get_set_other _ _ _ _ (by decide) (by decide)]
  rfl

end

/-! ### A field that a reset keeps -/

theorem State.fld_keepFld_same {f : Fld} (hf : f.lo + f.w ≤ 64) : (t.keepFld s o f).fld o f = s.fld o f := by
  rw [State.keepFld, State.fld_setFld_same _ _ _ _ hf]
  exact Nat.mod_eq_of_lt (Fld.get_lt _ _)

theorem State.fld_keepFld_other {f g : Fld} (hg : g.lo + g.w ≤ 64) (h : g.lo + g.w ≤ f.lo ∨ f.lo + f.w ≤ g.lo) :
    (t.keepFld s o f).fld o g = t.fld o g :=
  State.fld_setFld_other _ _ _ _ _ hg h

theorem SameRegs.keepFld (h : SameRegs l s t) {f : Fld} (hm : o ∈ l) : SameRegs l s (t.keepFld u o f) := h.setFld _ _ _ hm

/-! ### The start of a warm reset -/

/-- The device with all cleared that a warm reset does not keep; TIME_STAT is not yet put back. -/
def State.warmBase (s : State) : State :=
  { s.cleared with
    mem := s.mem
    poison := s.poison
    time := { sec := s.time.sec, ns := s.time.ns, frac := s.time.frac, ticks := s.time.ticks, prev := s.time.prev, running := s.time.running,
              lastSync := s.time.lastSync }
    hbm := { rows := s.hbm.rows } }

/-- The same with the rate and the fields of TIME_STAT that a warm reset keeps, before the new sync session opens. -/
def State.warmTimed (s : State) : State :=
  ((((s.warmBase.setReg R.TIME_RATE (s.reg R.TIME_RATE)).keepFld s R.TIME_STAT F.TIME_STAT_SESSION).keepFld s R.TIME_STAT F.TIME_STAT_VALID).keepFld
    s R.TIME_STAT F.TIME_STAT_PLL_LOCK).keepFld s R.TIME_STAT F.TIME_STAT_REF_LOSS

/-- The same with the new session open and the two power flags that a warm reset keeps. -/
def State.warmPowered (s : State) : State :=
  (s.warmTimed.newSession.keepFld s R.PWR_STAT F.PWR_STAT_BROWNOUT).keepFld s R.PWR_STAT F.PWR_STAT_TRIP

/-- The start of a warm reset but for what it notes in SecSt. -/
def State.warmShown (s : State) (cause : Nat) : State := s.warmPowered.setFld R.SEC_BOOT_STAT F.SEC_BOOT_STAT_RESET_CAUSE cause

/-- The straps st stay sampled, and the reset is noted as a warm one. -/
def State.noteWarm (s : State) (st : Straps) : State := { s with sec := { s.sec with straps := st, warm := true } }

theorem State.enterWarm_eq (cause : Nat) : s.enterWarm cause = (s.warmShown cause).noteWarm s.sec.straps := rfl

theorem RegsAlone.noteWarm (h : RegsAlone s t) (st : Straps) : RegsAlone (s.noteWarm st) (t.noteWarm st) :=
  congrArg (fun x : State => x.noteWarm st) h

theorem State.warmTimed_sameRegs : SameRegs [R.TIME_RATE, R.TIME_STAT] s.cleared s.warmTimed :=
  (((((SameRegs.refl _ _).setReg _ _ (by simp)).keepFld (by simp)).keepFld (by simp)).keepFld (by simp)).keepFld (by simp)

theorem State.warmTimed_rate : s.warmTimed.reg R.TIME_RATE = s.reg R.TIME_RATE := by
  unfold State.warmTimed State.keepFld
  rw [State.reg_setFld_ne _ _ _ _ _ (by decide), State.reg_setFld_ne _ _ _ _ _ (by decide), State.reg_setFld_ne _ _ _ _ _ (by decide),
    State.reg_setFld_ne _ _ _ _ _ (by decide), State.reg_setReg_same]

theorem State.warmTimed_session : s.warmTimed.fld R.TIME_STAT F.TIME_STAT_SESSION = s.fld R.TIME_STAT F.TIME_STAT_SESSION := by
  unfold State.warmTimed
  rw [State.fld_keepFld_other (by decide) (by decide), State.fld_keepFld_other (by decide) (by decide),
    State.fld_keepFld_other (by decide) (by decide), State.fld_keepFld_same (by decide)]

theorem State.warmTimed_valid : s.warmTimed.fld R.TIME_STAT F.TIME_STAT_VALID = s.fld R.TIME_STAT F.TIME_STAT_VALID := by
  unfold State.warmTimed
  rw [State.fld_keepFld_other (by decide) (by decide), State.fld_keepFld_other (by decide) (by decide), State.fld_keepFld_same (by decide)]

/-- HOLDOVER is no field that a warm reset keeps. -/
theorem State.warmTimed_holdover : s.warmTimed.bit R.TIME_STAT F.TIME_STAT_HOLDOVER = false := by
  have hbase : (s.warmBase.setReg R.TIME_RATE (s.reg R.TIME_RATE)).reg R.TIME_STAT = resetVal R.TIME_STAT := by
    rw [State.reg_setReg_ne _ _ _ _ (by decide)]
    exact State.reg_cleared_reset (by decide) (by decide)
  unfold State.bit State.warmTimed
  rw [State.fld_keepFld_other (by decide) (by decide), State.fld_keepFld_other (by decide) (by decide),
    State.fld_keepFld_other (by decide) (by decide), State.fld_keepFld_other (by decide) (by decide), State.fld, hbase]
  decide

/-- Outside holdover a new session changes registers alone. -/
theorem State.newSession_regsAlone (h : s.bit R.TIME_STAT F.TIME_STAT_HOLDOVER = false) : RegsAlone s s.newSession := by
  have h' : ((s.setFld R.TIME_STAT F.TIME_STAT_SESSION (s.fld R.TIME_STAT F.TIME_STAT_SESSION % 65535 + 1)).setFld
      R.TIME_STAT F.TIME_STAT_STEP_USED 0).bit R.TIME_STAT F.TIME_STAT_HOLDOVER = false := by
    rw [State.bit_setFld_other _ _ _ _ _ (by decide) (by decide), State.bit_setFld_other _ _ _ _ _ (by decide) (by decide), h]
  unfold State.newSession State.endHold
  rw [if_neg (by simp [h'])]
  rfl

theorem State.warmShown_regsAlone (cause : Nat) : RegsAlone s.warmBase (s.warmShown cause) :=
  RegsAlone.trans (t := s.warmTimed) rfl ((State.newSession_regsAlone State.warmTimed_holdover).trans rfl)

theorem State.warmPowered_sameRegs : SameRegs [R.TIME_RATE, R.TIME_STAT, R.PWR_STAT] s.cleared s.warmPowered :=
  (((State.warmTimed_sameRegs.mono (by simp)).trans ((State.newSession_sameRegs _).mono (by simp))).keepFld (by simp)).keepFld (by simp)

theorem State.warmPowered_timeStat : s.warmPowered.reg R.TIME_STAT = s.warmTimed.newSession.reg R.TIME_STAT := by
  rw [State.warmPowered, State.keepFld, State.keepFld, State.reg_setFld_ne _ _ _ _ _ (by decide), State.reg_setFld_ne _ _ _ _ _ (by decide)]

theorem State.warmPowered_rate : s.warmPowered.reg R.TIME_RATE = s.reg R.TIME_RATE := by
  rw [State.warmPowered, State.keepFld, State.keepFld, State.reg_setFld_ne _ _ _ _ _ (by decide), State.reg_setFld_ne _ _ _ _ _ (by decide),
    State.newSession_sameRegs _ _ (by decide), State.warmTimed_rate]

theorem State.warmPowered_valid : s.warmPowered.fld R.TIME_STAT F.TIME_STAT_VALID = s.fld R.TIME_STAT F.TIME_STAT_VALID := by
  rw [State.fld, State.warmPowered_timeStat, ← State.fld, State.newSession_fld _ (by decide) (by decide) (by decide),
    State.fld_setFld_other _ _ _ _ _ (by decide) (by decide), State.fld_setFld_other _ _ _ _ _ (by decide) (by decide), State.warmTimed_valid]

theorem State.warmPowered_session :
    s.warmPowered.fld R.TIME_STAT F.TIME_STAT_SESSION = s.fld R.TIME_STAT F.TIME_STAT_SESSION % 65535 + 1 := by
  rw [State.fld, State.warmPowered_timeStat, ← State.fld, State.newSession_session, State.warmTimed_session]

theorem State.warmPowered_trip : s.warmPowered.fld R.PWR_STAT F.PWR_STAT_TRIP = s.fld R.PWR_STAT F.PWR_STAT_TRIP :=
  State.fld_keepFld_same (by decide)

theorem State.warmPowered_brownout : s.warmPowered.fld R.PWR_STAT F.PWR_STAT_BROWNOUT = s.fld R.PWR_STAT F.PWR_STAT_BROWNOUT :=
  (State.fld_keepFld_other (by decide) (by decide)).trans (State.fld_keepFld_same (by decide))

/-! ### What stands in a warm reset -/

/-- The state t after a warm reset of s for a cause: memory, device time with its rate and validity, TRIP and the remapped rows stand, a new sync session is open, and every other register is at its reset value. -/
def KeptByWarmReset (s t : State) (cause : Nat) : Prop :=
  KeptByReset s t ∧ SameMem s t ∧ t.time.sec = s.time.sec ∧ t.time.ns = s.time.ns ∧ t.time.frac = s.time.frac ∧
    t.reg R.TIME_RATE = s.reg R.TIME_RATE ∧ t.bit R.PWR_STAT F.PWR_STAT_TRIP = s.bit R.PWR_STAT F.PWR_STAT_TRIP ∧
    t.bit R.TIME_STAT F.TIME_STAT_VALID = s.bit R.TIME_STAT F.TIME_STAT_VALID ∧
    t.fld R.TIME_STAT F.TIME_STAT_SESSION = s.fld R.TIME_STAT F.TIME_STAT_SESSION % 65535 + 1 ∧
    t.fld R.SEC_BOOT_STAT F.SEC_BOOT_STAT_RESET_CAUSE = cause ∧ t.hbm.rows = s.hbm.rows ∧
    ∀ off, isFuseReg off = false → off ∉ [R.TIME_RATE, R.TIME_STAT, R.PWR_STAT, R.SEC_BOOT_STAT, R.SEC_RESULT, R.FAB_STATUS] → t.reg off = resetVal off

theorem State.enterWarm_reg_ne (cause : Nat) (ho : o ≠ R.SEC_BOOT_STAT) : (s.enterWarm cause).reg o = s.warmPowered.reg o :=
  State.reg_setFld_ne _ _ _ _ _ ho

theorem State.enterWarm_sameRegs (cause : Nat) :
    SameRegs [R.TIME_RATE, R.TIME_STAT, R.PWR_STAT, R.SEC_BOOT_STAT] s.cleared (s.enterWarm cause) :=
  ((State.warmPowered_sameRegs.mono (by simp)).setFld _ _ _ (by simp) :
    SameRegs [R.TIME_RATE, R.TIME_STAT, R.PWR_STAT, R.SEC_BOOT_STAT] s.cleared (s.warmShown cause))

theorem State.enterWarm_regsAlone (cause : Nat) : RegsAlone (s.warmBase.noteWarm s.sec.straps) (s.enterWarm cause) :=
  (State.warmShown_regsAlone cause).noteWarm s.sec.straps

theorem State.enterWarm_lasting (cause : Nat) : (s.enterWarm cause).lasting = s.cleared.lasting :=
  (State.enterWarm_regsAlone cause).lasting

theorem State.enterWarm_keeps {cause : Nat} (hc : cause < 16) : KeptByWarmReset s (s.enterWarm cause) cause := by
  have hbase := State.enterWarm_regsAlone (s := s) cause
  have hkept : KeptByReset s (s.enterWarm cause) :=
    State.cleared_kept.update (State.enterWarm_lasting cause) (State.enterWarm_sameRegs cause) (by decide)
  have hcause : (s.enterWarm cause).fld R.SEC_BOOT_STAT F.SEC_BOOT_STAT_RESET_CAUSE = cause :=
    (State.fld_setFld_same s.warmPowered _ _ cause (by decide)).trans (Nat.mod_eq_of_lt hc)
  have hfld (o : Nat) (f : Fld) (ho : o ≠ R.SEC_BOOT_STAT) : (s.enterWarm cause).fld o f = s.warmPowered.fld o f :=
    congrArg f.get (State.enterWarm_reg_ne cause ho)
  refine ⟨hkept, hbase.rd, (congrArg TimeSt.sec hbase.time :), (congrArg TimeSt.ns hbase.time :), (congrArg TimeSt.frac hbase.time :),
    (State.enterWarm_reg_ne cause (by decide)).trans State.warmPowered_rate, ?_, ?_, ?_, hcause, (congrArg HbmSt.rows hbase.hbm :),
    fun off hf ho => ?_⟩
  · rw [State.bit, hfld _ _ (by decide), State.warmPowered_trip, ← State.bit]
  · rw [State.bit, hfld _ _ (by decide), State.warmPowered_valid, ← State.bit]
  · rw [hfld _ _ (by decide), State.warmPowered_session]
  · have hresult : off ≠ R.SEC_RESULT := fun he => ho (by simp [he])
    rw [(State.enterWarm_sameRegs cause).mono (by simp) off ho, State.reg_cleared_reset hf hresult]

theorem State.brownout_enterWarm (cause : Nat) : (s.enterWarm cause).bit R.PWR_STAT F.PWR_STAT_BROWNOUT = s.bit R.PWR_STAT F.PWR_STAT_BROWNOUT := by
  rw [State.bit, State.fld, State.enterWarm_reg_ne cause (by decide), ← State.fld, State.warmPowered_brownout, ← State.bit]

theorem State.inReset_enterWarm (cause : Nat) : (s.enterWarm cause).sec.inReset = true :=
  congrArg SecSt.inReset (State.enterWarm_regsAlone cause).sec

/-- A warm reset starts the boot from before its first stage. -/
theorem State.bootStage_enterWarm (cause : Nat) : (s.enterWarm cause).bootStage = 0 := by
  have hstage : (s.enterWarm cause).bootStage = s.warmPowered.bootStage := State.fld_setFld_other _ _ _ _ _ (by decide) (by decide)
  rw [hstage, State.bootStage, State.fld, State.warmPowered_sameRegs _ (by decide), State.reg_cleared_reset (by decide) (by decide)]
  decide

/-- BROWNOUT may be shown beside what a warm reset keeps, and the reset may end. -/
theorem KeptByWarmReset.setBrownout {cause : Nat} (h : KeptByWarmReset s t cause) (x : Nat) :
    KeptByWarmReset s (t.setFld R.PWR_STAT F.PWR_STAT_BROWNOUT x) cause := by
  obtain ⟨hkept, hmem, hsec, hns, hfrac, hrate, htrip, hvalid, hsession, hcause, hrows, hregs⟩ := h
  refine ⟨hkept.update rfl (SameRegs.setFld_self (l := [R.PWR_STAT]) _ _ _ (by simp)) (by decide), hmem, hsec, hns, hfrac,
    (State.reg_setFld_ne _ _ _ _ _ (by decide)).trans hrate, (State.bit_setFld_other _ _ _ _ _ (by decide) (by decide)).trans htrip,
    (State.bit_setFld_ne _ _ _ _ _ _ (by decide)).trans hvalid, (State.fld_setFld_ne _ _ _ _ _ _ (by decide)).trans hsession,
    (State.fld_setFld_ne _ _ _ _ _ _ (by decide)).trans hcause, hrows, fun off hf ho => ?_⟩
  have hpower : off ≠ R.PWR_STAT := fun he => ho (by simp [he])
  exact (State.reg_setFld_ne _ _ _ _ _ hpower).trans (hregs off hf ho)

theorem KeptByWarmReset.leaveReset {cause : Nat} (h : KeptByWarmReset s t cause) (st : Straps) :
    KeptByWarmReset s (t.leaveReset st) cause := by
  obtain ⟨hkept, hmem, hsec, hns, hfrac, hrate, htrip, hvalid, hsession, hcause, hrows, hregs⟩ := h
  have hsame : SameRegs [R.SEC_BOOT_STAT, R.FAB_STATUS] t (t.leaveReset st) := State.leaveReset_sameRegs
  have hfld (o : Nat) (f : Fld) (ho : o ∉ [R.SEC_BOOT_STAT, R.FAB_STATUS]) : (t.leaveReset st).fld o f = t.fld o f := congrArg f.get (hsame o ho)
  refine ⟨hkept.update State.leaveReset_lasting hsame (by decide), hmem, hsec, hns, hfrac, (hsame _ (by decide)).trans hrate, ?_, ?_,
    (hfld _ _ (by decide)).trans hsession, State.resetCause_leaveReset.trans hcause, hrows, fun off hf ho => ?_⟩
  · rw [State.bit, hfld _ _ (by decide), ← State.bit, htrip]
  · rw [State.bit, hfld _ _ (by decide), ← State.bit, hvalid]
  · rw [hsame.mono (by simp) off ho, hregs off hf ho]

theorem State.brownout_inReset : s.brownout.sec.inReset = true := by
  rw [State.brownout, State.setFld_sec, State.inReset_enterWarm]

theorem State.bootStage_brownout : s.brownout.bootStage = 0 := by
  rw [State.brownout, State.bootStage, State.fld_setFld_ne _ _ _ _ _ _ (by decide), ← State.bootStage, State.bootStage_enterWarm]

theorem State.brownout_keeps : KeptByWarmReset s s.brownout 2 := (State.enterWarm_keeps (by decide)).setBrownout 1

theorem State.warmFor_keeps (c : WarmCause) : KeptByWarmReset s (s.warmFor c) (warmCode c) := by
  cases c with
  | resetN => exact State.enterWarm_keeps (by decide)
  | brownout => exact State.brownout_keeps
  | warmCmd => exact State.enterWarm_keeps (by decide)

/-! ### The pins of a warm reset, by the reset in force -/

section
variable {cause : WarmCause} {st : Straps}

theorem exec_warmReset_powerOn (hr : s.sec.inReset = true) (hw : s.sec.warm = false) : exec (.warmReset cause st) s = .next s :=
  congrArg Host.Outcome.next (if_pos (by simp [hr, hw]))

theorem exec_warmReset_held (hr : s.sec.inReset = true) (hw : s.sec.warm = true) :
    exec (.warmReset cause st) s = .next (s.leaveReset (if cause = .resetN then st else s.sec.straps)) := by
  show execWarmReset cause st s = _
  rw [execWarmReset, if_neg (by simp [hw]), if_pos hr]

theorem exec_warmReset_whole (hr : s.sec.inReset = false) :
    exec (.warmReset cause st) s = .next ((s.warmFor cause).leaveReset (if cause = .resetN then st else s.sec.straps)) := by
  show execWarmReset cause st s = _
  rw [execWarmReset, if_neg (by simp [hr]), if_neg (by simp [hr])]

end

end Sys2Proof.Machine
end

section
open Sys2Proof Sys2Proof.Machine

/-- Settles O43: each reset by what clearing, its start and its end leave. -/
theorem resetsClearAndKeep : Obligations.ResetsClearAndKeep := by
  unfold Obligations.ResetsClearAndKeep
  refine ⟨fun st s => ?power, fun s => ⟨fun hr => ?held, fun hr => ?brownout⟩, fun r c s => ⟨fun hgo => ?command, fun hno => ?refused⟩,
    fun cause st s => ⟨fun hr hw => ?goesOn, fun hr hw => ?ends, fun hr => ?whole⟩⟩
  case power =>
    have hsame : SameRegs [R.SEC_BOOT_STAT, R.FAB_STATUS] s.cleared (s.cleared.leaveReset st) := State.leaveReset_sameRegs
    refine ⟨_, rfl, State.cleared_kept.update State.leaveReset_lasting hsame (by decide), State.leaveReset_left,
      fun a => (State.leaveReset_rd a).trans (State.rd_cleared a), ?_, ?_, fun off hf ho => ?_⟩
    · rw [State.nowNs, State.leaveReset_time, State.time_cleared]
      rfl
    · rw [State.leaveReset_hbm, State.hbm_cleared]
    have hresult : off ≠ R.SEC_RESULT := fun he => ho (by simp [he])
    rw [hsame.mono (by simp) off ho, State.reg_cleared_reset hf hresult]
  case held => exact congrArg Host.Outcome.next (if_pos hr)
  case brownout =>
    exact ⟨s.brownout, congrArg Host.Outcome.next (if_neg (by simp [hr])), State.brownout_keeps, State.bit_setFld_same _ _ _ 1 (by decide),
      State.brownout_inReset, State.bootStage_brownout⟩
  case command =>
    obtain ⟨rfl, hears, rfl⟩ := hgo
    exact ⟨s.enterWarm 3, congrArg Host.Outcome.next (if_pos ⟨rfl, hears, rfl⟩), State.enterWarm_keeps (by decide), State.brownout_enterWarm 3,
      State.inReset_enterWarm 3⟩
  case refused =>
    exact congrArg Host.Outcome.next (if_neg fun ⟨hr, hears, hc⟩ => hno ⟨hr, hr ▸ hears, BitVec.eq_of_toNat_eq hc⟩)
  case goesOn => exact exec_warmReset_powerOn hr hw
  case ends => exact ⟨_, exec_warmReset_held hr hw, State.leaveReset_sameRegs, fun _ => rfl, rfl, State.leaveReset_left⟩
  case whole => exact ⟨_, exec_warmReset_whole hr, (State.warmFor_keeps cause).leaveReset _, State.leaveReset_left⟩

end

section
/-! Short stamps as numbers: their seconds and nanoseconds, and when one is malformed (R103 to R106). -/

namespace Sys2Proof.Machine

variable {s : State}

theorem stampOfNs_toNat (x : Nat) : (stampOfNs x).toNat = x / 1000000000 % 2 ^ 34 * 2 ^ 30 + x % 1000000000 := by
  rw [stampOfNs, BitVec.toNat_ofNat]
  exact Nat.mod_eq_of_lt (by omega)

theorem stampSec_stampOfNs (x : Nat) : stampSec (stampOfNs x) = x / 1000000000 % 2 ^ 34 := by
  rw [stampSec, stampOfNs_toNat]
  omega

theorem stampNsec_stampOfNs (x : Nat) : stampNsec (stampOfNs x) = x % 1000000000 := by
  rw [stampNsec, stampOfNs_toNat]
  omega

theorem stampNsec_eq_and (w : Word) : stampNsec w = (w &&& 0x3FFFFFFF).toNat := by
  rw [BitVec.toNat_and]
  exact (Nat.and_two_pow_sub_one_eq_mod w.toNat 30).symm

theorem stampSec_eq_shift (w : Word) : stampSec w = (w >>> 30).toNat := by
  rw [BitVec.toNat_ushiftRight, Nat.shiftRight_eq_div_pow]
  rfl

theorem stampBad_iff (w : Word) : stampBad w = true ↔ 1000000000 ≤ (w &&& 0x3FFFFFFF).toNat := by
  rw [stampBad, decide_eq_true_eq, stampNsec_eq_and]

/-- A stamp read from eight bytes of a descriptor is malformed by the low 30 bits of their number. -/
theorem stampBad_ofNat {n : Nat} (h : 1000000000 ≤ n % 2 ^ 30) : stampBad (BitVec.ofNat 64 n) = true := by
  rw [stampBad, decide_eq_true_eq, stampNsec, BitVec.toNat_ofNat]
  omega

/-- The seconds and nanoseconds of device time are those of its count of nanoseconds. -/
theorem State.nowNs_div (h : s.time.ns < 1000000000) : s.nowNs / 1000000000 = s.time.sec.toNat := by
  rw [State.nowNs]
  omega

theorem State.nowNs_mod (h : s.time.ns < 1000000000) : s.nowNs % 1000000000 = s.time.ns := by
  rw [State.nowNs]
  omega

/-- The difference of two well-formed stamps of times less than 2³³ s apart counts their seconds without wrapping. -/
theorem stampDiff_stampOfNs {x y : Nat} (h : ((x : Int) - (y : Int)).natAbs < 2 ^ 33 * 1000000000 - 1000000000) :
    stampDiff (stampOfNs x) (stampOfNs y) = (x : Int) - (y : Int) := by
  simp only [stampDiff, stampSec_stampOfNs, stampNsec_stampOfNs]
  omega

end Sys2Proof.Machine
end

section
open Sys2Proof Sys2Proof.Machine

/-- Settles O55: the two fields of the stamp of device time, each as a number. -/
theorem shortStampsHoldSecondsAndNanoseconds : Obligations.ShortStampsHoldSecondsAndNanoseconds := by
  unfold Obligations.ShortStampsHoldSecondsAndNanoseconds
  intro s hns
  have hnsec : (s.now.extractLsb' 0 30).toNat = s.time.ns := by
    rw [BitVec.extractLsb'_toNat, Nat.shiftRight_zero, ← State.nowNs_mod hns]
    exact stampNsec_stampOfNs s.nowNs
  refine ⟨BitVec.eq_of_toNat_eq ?_, BitVec.eq_of_toNat_eq ?_, hnsec⟩
  · have hsec := stampSec_stampOfNs s.nowNs
    rw [State.nowNs_div hns, stampSec] at hsec
    rw [BitVec.extractLsb'_toNat, Nat.shiftRight_eq_div_pow, BitVec.toNat_setWidth, State.now, hsec, Nat.mod_mod]
  · rw [hnsec, BitVec.toNat_ofNat]
    exact (Nat.mod_eq_of_lt (by omega)).symm

/-- Settles O56: R105's function on the fields of the stamps, and the sign of the exact difference. -/
theorem stampDifferenceIsExact : Obligations.StampDifferenceIsExact := by
  unfold Obligations.StampDifferenceIsExact
  refine ⟨fun a b => ?_, fun x y h => ?_, fun x => BitVec.toNat_ofNat x 32⟩
  · rw [stampDiff, stampSec_eq_shift, stampSec_eq_shift, stampNsec_eq_and, stampNsec_eq_and]
    rfl
  · have hd := stampDiff_stampOfNs h
    exact ⟨hd, by omega⟩

end

section
/-! The latches of R102 and the requesters that share them (R648). -/

namespace Sys2Proof.Machine

variable {s : State} {r r' : Req} {h : Half}

/-- Two requesters share a latch when both are software of the host, both the management processor, both the same core, or neither of these (R648). -/
theorem latchKey_eq_iff : latchKey r' = latchKey r ↔
    (isHost r = true ∧ isHost r' = true) ∨ (r = .mgt ∧ r' = .mgt) ∨ (∃ n, r = .core n ∧ r' = .core n) ∨
      ((r = .other ∨ ∃ p, r = .chord p) ∧ (r' = .other ∨ ∃ p, r' = .chord p)) := by
  cases r <;> cases r' <;> simp [latchKey, isHost] <;> omega

theorem State.timeLatch_congr (hk : latchKey r' = latchKey r) : s.timeLatch r' = s.timeLatch r := by
  unfold State.timeLatch
  rw [hk]

/-- TIME_LATCH shows what the requester has latched, and no bit of it clears on a read. -/
theorem State.busRead_timeLatch (ht : s.takesRead r R.TIME_LATCH = true) :
    s.busRead r R.TIME_LATCH h = s.answer r R.TIME_LATCH h (s.timeLatch r) := by
  have hat : regAt R.TIME_LATCH = some D.TIME_LATCH := by decide
  rw [State.busRead_plain (by decide) (by decide) (by decide) (by decide) (by decide), State.plainRead_served ht, State.clearRC, hat]
  exact if_pos (by simp [D.TIME_LATCH])

end Sys2Proof.Machine
end

section
open Sys2Proof Sys2Proof.Machine

/-- Settles O54: what a served read of TIME_NOW latches, by the key of its requester's latch, and what TIME_LATCH then shows. -/
theorem timeNowLatchesTheSeconds : Obligations.TimeNowLatchesTheSeconds := by
  unfold Obligations.TimeNowLatchesTheSeconds
  refine ⟨fun r h s ht => ⟨_, congrArg Host.Outcome.next (State.readTimeNow_served ht), rfl, fun r' hsame => ?_, fun r' hother => ?_⟩,
    fun r h s ht => congrArg Host.Outcome.next (State.busRead_timeLatch ht)⟩
  · exact (State.timeLatch_congr (latchKey_eq_iff.mpr hsame)).trans (State.timeLatch_set_same _)
  · exact State.timeLatch_set_ne _ fun hk => hother (latchKey_eq_iff.mp hk)

end

section
/-! A descriptor whose absolute deadline is a malformed stamp ends REJECTED at its acceptance (R104, R436, R440). -/

namespace Sys2Proof.Machine

variable {s : State} {q : Nat} {d : List Byte}

/-- What the presence of queue q's unit is judged by stands: the registers of the blocks below the queues', its QUE_CFG, FLT_MAP, and the images
that the cores hold. -/
structure UnitsAlike (q : Nat) (s t : State) : Prop where
  low : ∀ o, o < 0xC00000 → t.reg o = s.reg o
  cfg : t.reg (R.QUE_CFG q) = s.reg (R.QUE_CFG q)
  map : t.reg R.FLT_MAP = s.reg R.FLT_MAP
  cores : t.cores = s.cores

section
variable {t : State} (h : UnitsAlike q s t)
include h

theorem UnitsAlike.bit_low {o : Nat} (f : Fld) (ho : o < 0xC00000) : t.bit o f = s.bit o f := congrArg (fun w => f.get w == 1) (h.low o ho)

theorem UnitsAlike.fld_cfg (f : Fld) : t.fld (R.QUE_CFG q) f = s.fld (R.QUE_CFG q) f := congrArg f.get h.cfg

theorem UnitsAlike.noCore {c : Nat} (hc : c < 8) : t.noCore c d = s.noCore c d := by
  have hcores : t.cantonCores c = s.cantonCores c := by
    simp only [State.cantonCores, State.coreActive, State.fld, h.map, h.low (R.FAB_CANTON c) (by unfold R.FAB_CANTON; omega)]
  have himage (i : Nat) : t.findImage c i = s.findImage c i := by
    simp only [State.findImage, State.core, h.cores]
  simp only [State.noCore, hcores, himage]

/-- Whether a canton owns a control slot. -/
theorem UnitsAlike.slots (c : Nat) :
    (List.range 512).any (fun i => t.bit (R.CTL_SLOT_CFG i) F.CTL_SLOT_CFG_ACTIVE && t.fld (R.CTL_SLOT_CFG i) F.CTL_SLOT_CFG_CANTON == c) =
      (List.range 512).any (fun i => s.bit (R.CTL_SLOT_CFG i) F.CTL_SLOT_CFG_ACTIVE && s.fld (R.CTL_SLOT_CFG i) F.CTL_SLOT_CFG_CANTON == c) := by
  rw [Bool.eq_iff_iff, List.any_eq_true, List.any_eq_true]
  refine exists_congr fun i => and_congr_right fun hi => ?_
  have hslot : R.CTL_SLOT_CFG i < 0xC00000 := by
    have := List.mem_range.mp hi
    unfold R.CTL_SLOT_CFG
    omega
  rw [h.bit_low _ hslot, State.fld, h.low _ hslot, ← State.fld]

theorem UnitsAlike.unitAbsent : t.unitAbsent q d = s.unitAbsent q d := by
  have hcanton : s.qCanton q < 8 := Fld.get_lt _ _
  have hpool : R.KV_POOL_CFG (s.qCanton q) < 0xC00000 := by unfold R.KV_POOL_CFG; omega
  have hinst : s.fld (R.QUE_CFG q) F.QUE_CFG_INSTANCE < 4 := Fld.get_lt _ _
  have hport : R.ETH_CFG (s.fld (R.QUE_CFG q) F.QUE_CFG_INSTANCE) < 0xC00000 := by unfold R.ETH_CFG; omega
  unfold State.unitAbsent State.hasSolver
  rw [show t.qUnit q = s.qUnit q from h.fld_cfg _, show t.qCanton q = s.qCanton q from h.fld_cfg _, h.fld_cfg, h.noCore hcanton,
    h.bit_low _ (by decide), h.bit_low _ hpool, h.bit_low _ (by decide), h.slots, h.bit_low _ hport]

end

/-- A fetch has written only CMD_CONS when its descriptor is judged. -/
theorem UnitsAlike.wrapAdd (x : Nat) : UnitsAlike q s (s.wrapAdd (R.QUE_RING q) F.QUE_RING_CMD_CONS x) where
  low o ho := s.reg_wrapAdd_ne _ _ _ _ (by unfold R.QUE_RING; omega)
  cfg := s.reg_wrapAdd_ne _ _ _ _ (by unfold R.QUE_CFG R.QUE_RING; omega)
  map := s.reg_wrapAdd_ne _ _ _ _ (by unfold R.FLT_MAP R.QUE_RING; omega)
  cores := rfl

theorem State.budgetBad_deadline (hkind : sliceN d 1 1 % 4 = 0) (hbad : 1000000000 ≤ sliceN d 8 8 % 2 ^ 30) : s.budgetBad d = true := by
  unfold State.budgetBad
  rw [hkind]
  simp [stampBad_ofNat hbad]

/-- Queue q took a descriptor as an accepted command that is at its end, REJECTED. -/
def RejectsDesc (q : Nat) (s t : State) : Prop :=
  ∃ x, (t.queue q).cmds = (s.queue q).cmds ++ [x] ∧ x.accepted = true ∧ x.phase = .ended ∧ x.status = stRejected

theorem State.acceptCmd_rejects (seq : BitVec 32) (hunit : s.unitAbsent q d = false) (hbad : s.descBad q d = true) :
    RejectsDesc q s (s.acceptCmd q d seq) := by
  unfold State.acceptCmd
  extract_lets s1 sch s2 o c s3
  rw [if_neg (by simp [hunit]), if_pos hbad]
  exact ⟨_, State.pushCmd_cmds (s := s2) q _, rfl, rfl, rfl⟩

theorem State.descBad_deadline (hkind : sliceN d 1 1 % 4 = 0) (hbad : 1000000000 ≤ sliceN d 8 8 % 2 ^ 30) : s.descBad q d = true := by
  simp [State.descBad, State.budgetBad_deadline hkind hbad]

/-- The expected descriptor with a malformed deadline, of a queue that is no solver's, is accepted and rejected. -/
theorem State.takeDescriptor_rejects (hfed : s.qSolverFed q = false) (hunit : s.unitAbsent q d = false)
    (hseq : sliceN d 4 4 = (s.fld (R.QUE_SEQ q) F.QUE_SEQ_LAST_ACCEPTED_SEQ + 1) % 2 ^ 32) (hkind : sliceN d 1 1 % 4 = 0)
    (hbad : 1000000000 ≤ sliceN d 8 8 % 2 ^ 30) : RejectsDesc q s (s.takeDescriptor q d false) := by
  have hexpected : BitVec.ofNat 32 (sliceN d 4 4) = BitVec.ofNat 32 (s.fld (R.QUE_SEQ q) F.QUE_SEQ_LAST_ACCEPTED_SEQ) + 1 := by
    apply BitVec.eq_of_toNat_eq
    rw [hseq]
    simp
  unfold State.takeDescriptor
  extract_lets s1 expected seq
  rw [if_neg (by decide), if_neg (by simp [hfed]), if_pos hexpected]
  exact State.acceptCmd_rejects seq ((UnitsAlike.wrapAdd 1).unitAbsent.trans hunit) (State.descBad_deadline hkind hbad)

theorem exec_descriptorFetch_near {k : BitVec 16} (hf : s.mayFetch k.toNat = true) (hw : inHostWindow (s.descAddr k.toNat) = false) :
    exec (.descriptorFetch k) s =
      .next (s.takeDescriptor k.toNat (s.rdBytes (s.descAddr k.toNat) 64) (s.poisoned (s.descAddr k.toNat) 64)) := by
  show execDescriptorFetch k s = _
  rw [execDescriptorFetch, if_pos hf, if_neg (by simp [hw])]

end Sys2Proof.Machine
end

section
open Sys2Proof Sys2Proof.Machine

/-- Settles O53: the fields of a stamp, the guard of TIME_CMP_ARM, and the acceptance of a descriptor, wherever it was fetched from. -/
theorem malformedStampsAreRefused : Obligations.MalformedStampsAreRefused := by
  unfold Obligations.MalformedStampsAreRefused
  refine ⟨stampBad_iff, fun n r v s ht hv => ?arm, fun q s hf => ?near, fun k d o s ho hwhat hlen hd hq hfed hunit hseq hkind hbad => ?far⟩
  case arm =>
    have hns : 1000000000 ≤ stampNsec v := (stampNsec_eq_and v).ge.trans' hv
    exact congrArg Host.Outcome.next ((State.writeCmpArm_full ht).trans (if_neg fun ⟨_, _, hlt⟩ => absurd hlt hns.not_gt))
  case near =>
    intro k a d hw hpoison hfed hunit hseq hkind hbad
    obtain ⟨x, hx⟩ := State.takeDescriptor_rejects hfed hunit hseq hkind hbad
    exact ⟨_, x, (exec_descriptorFetch_near hf hw).trans (by rw [hpoison]), hx⟩
  case far =>
    have hbytes : (d ++ List.replicate o.len 0).take o.len = d := List.take_left' (by rw [hlen, hd])
    obtain ⟨x, hx⟩ := State.takeDescriptor_rejects (s := s.dropRead o) hfed hunit hseq hkind hbad
    refine ⟨_, x, exec_hostReadCompletion_some d true ho, ?_⟩
    rw [State.giveRead_desc d _ hwhat hq, hbytes]
    exact hx

end

section
/-! The sources of the input pipeline: their buffers, and how a sample of one ends (R134, R137, R141). -/

namespace Sys2Proof.Machine

variable {s t u : State} {k j i p : Nat}

/-! ### What the operations on a source leave alone -/

/-- t differs from s in registers and in the sources of the input pipeline alone. -/
def SourcesAlone (s t : State) : Prop := { t with regs := s.regs, img := { t.img with srcs := s.img.srcs } } = s

theorem SourcesAlone.refl (s : State) : SourcesAlone s s := rfl

theorem SourcesAlone.trans (h1 : SourcesAlone s t) (h2 : SourcesAlone t u) : SourcesAlone s u :=
  (congrArg (fun x : State => { x with regs := s.regs, img := { x.img with srcs := s.img.srcs } }) h2 :).trans h1

section
variable (h : SourcesAlone s t)
include h

theorem SourcesAlone.sameMem : SameMem s t := fun a => (congrArg (fun x : State => x.rd a) h :)
theorem SourcesAlone.ports : t.img.ports = s.img.ports := (congrArg (fun x : State => x.img.ports) h :)
theorem SourcesAlone.queue : t.img.queue = s.img.queue := (congrArg (fun x : State => x.img.queue) h :)
theorem SourcesAlone.decs : t.img.decs = s.img.decs := (congrArg (fun x : State => x.img.decs) h :)

theorem SourcesAlone.setFld (off : Nat) (f : Fld) (x : Nat) : SourcesAlone s (t.setFld off f x) := h
theorem SourcesAlone.setImgSrc (k : Nat) (x : ImgSrc) : SourcesAlone s (t.setImgSrc k x) := h
theorem SourcesAlone.setBuf (k i st : Nat) : SourcesAlone s (t.setBuf k i st) := h

end

theorem State.camPort_of_ports (h : t.img.ports = s.img.ports) (p : Nat) : t.camPort p = s.camPort p := by
  unfold State.camPort
  rw [h]

theorem State.decRun_of_decs (h : t.img.decs = s.img.decs) (d : Nat) : t.decRun d = s.decRun d := by
  unfold State.decRun
  rw [h]

/-! ### Buffers (R134) -/

theorem State.imgSrc_setBuf (st : Nat) :
    (s.setBuf k i st).imgSrc k = { s.imgSrc k with bufs := Store.set (fun _ => 0) (s.imgSrc k).bufs i st } :=
  s.imgSrc_setImgSrc k _

theorem State.imgSrc_setBuf_ne (st : Nat) (hj : j ≠ k) : (s.setBuf k i st).imgSrc j = s.imgSrc j := s.imgSrc_setImgSrc_ne k j _ hj

theorem State.bufState_of_bufs (h : (t.imgSrc k).bufs = (s.imgSrc k).bufs) (i : Nat) : t.bufState k i = s.bufState k i := by
  unfold State.bufState
  rw [h]

theorem State.bufState_setBuf (st : Nat) : (s.setBuf k i st).bufState k i = st := by
  unfold State.bufState
  rw [State.imgSrc_setBuf]
  exact Store.get_set_same _ _ _ _

theorem State.setBuf_sameRegs (st : Nat) : SameRegs [R.IMG_SRC_STAT k] s (s.setBuf k i st) :=
  SameRegs.setFld _ _ _ (SameRegs.setFld _ _ _ (fun _ _ => rfl) (by simp)) (by simp)

/-- The counts of FREE and READY buffers stand beside the other fields of IMG_SRC_STAT. -/
theorem State.setBuf_fld_high (st : Nat) {f : Fld} (hf : f.lo + f.w ≤ 64) (hlo : 16 ≤ f.lo) :
    (s.setBuf k i st).fld (R.IMG_SRC_STAT k) f = s.fld (R.IMG_SRC_STAT k) f := by
  have hfree : F.IMG_SRC_STAT_FREE_BUFS.lo + F.IMG_SRC_STAT_FREE_BUFS.w ≤ f.lo := Nat.le_trans (by decide) hlo
  have hready : F.IMG_SRC_STAT_READY_BUFS.lo + F.IMG_SRC_STAT_READY_BUFS.w ≤ f.lo := Nat.le_trans (by decide) hlo
  unfold State.setBuf
  extract_lets x s1 n count
  rw [State.fld_setFld_other _ _ _ _ _ hf (.inr hready), State.fld_setFld_other _ _ _ _ _ hf (.inr hfree)]
  rfl

theorem State.freeBuf_congr (hn : t.reg (R.IMG_SRC_CFG k) = s.reg (R.IMG_SRC_CFG k)) (hb : (t.imgSrc k).bufs = (s.imgSrc k).bufs) :
    t.freeBuf k = s.freeBuf k := by
  unfold State.freeBuf State.fld
  rw [hn]
  simp only [State.bufState_of_bufs hb]

/-! ### A sample ends (R137, R141) -/

/-- A sample of source k has ended as d, which waits for its record behind the others; of the source only the states of its buffers changed
beside, and neither another source nor a port or a decoder. -/
structure SampleEnds (k : Nat) (d : ImgDone) (s t : State) : Prop where
  own : t.imgSrc k = { s.imgSrc k with bufs := (t.imgSrc k).bufs, done := (s.imgSrc k).done ++ [d] }
  other : ∀ j, j ≠ k → t.imgSrc j = s.imgSrc j
  ports : t.img.ports = s.img.ports
  decs : t.img.decs = s.img.decs

section
variable {d : ImgDone} (h : SampleEnds k d s t)
include h

theorem SampleEnds.cur : (t.imgSrc k).cur = (s.imgSrc k).cur := by rw [h.own]
theorem SampleEnds.slot (i : Nat) : (t.imgSrc k).slot i = (s.imgSrc k).slot i := by
  unfold ImgSrc.slot
  rw [h.own]
theorem SampleEnds.closed : (t.imgSrc k).closed = (s.imgSrc k).closed := by rw [h.own]
theorem SampleEnds.done : (t.imgSrc k).done = (s.imgSrc k).done ++ [d] := by rw [h.own]

end

/-- The registers that the end of a sample of source k counts in. -/
def abortRegs (k : Nat) : List Nat := [R.IMG_SRC_STAT k, R.IMG_SRC_DROP k, R.IMG_GLB_STAT]

/-- What the abort of a sample changes before its record waits: the buffer it frees, and counters. -/
theorem State.imgAbort_eq (buf : Option Nat) (seq : Nat) (stamp : Word) (st : BitVec 8) (flags : Nat) : ∃ u : State,
    s.imgAbort k buf seq stamp st flags = u.setImgSrc k { u.imgSrc k with done := (u.imgSrc k).done ++ [⟨seq, stamp, st, none, 0, 0, flags⟩] } ∧
    SourcesAlone s u ∧ SameRegs (abortRegs k) s u ∧ u.imgSrc k = { s.imgSrc k with bufs := (u.imgSrc k).bufs } ∧
    ∀ j, j ≠ k → u.imgSrc j = s.imgSrc j := by
  unfold State.imgAbort
  extract_lets s1 s2 x
  refine ⟨s2, rfl, ?_⟩
  have h1 : SourcesAlone s s1 ∧ SameRegs (abortRegs k) s s1 ∧ s1.imgSrc k = { s.imgSrc k with bufs := (s1.imgSrc k).bufs } ∧
      ∀ j, j ≠ k → s1.imgSrc j = s.imgSrc j := by
    unfold s1
    cases buf with
    | none => exact ⟨rfl, .refl _ s, rfl, fun _ _ => rfl⟩
    | some b =>
      dsimp only
      refine ⟨rfl, (State.setBuf_sameRegs 0).mono (by simp [abortRegs]), ?_, fun j hj => State.imgSrc_setBuf_ne 0 hj⟩
      rw [State.imgSrc_setBuf]
  obtain ⟨halone, hregs, hown, hother⟩ := h1
  unfold s2
  split
  · exact ⟨halone, hregs.satAdd _ _ _ (by simp [abortRegs]), hown, hother⟩
  · split
    · exact ⟨halone, (hregs.satAdd _ _ _ (by simp [abortRegs])).satAdd _ _ _ (by simp [abortRegs]), hown, hother⟩
    · exact ⟨halone, hregs, hown, hother⟩

section
variable {buf : Option Nat} {seq flags : Nat} {stamp : Word} {st : BitVec 8}

theorem State.imgAbort_sourcesAlone : SourcesAlone s (s.imgAbort k buf seq stamp st flags) := by
  obtain ⟨u, hu, halone, -⟩ := State.imgAbort_eq (s := s) (k := k) buf seq stamp st flags
  rw [hu]
  exact halone.setImgSrc _ _

theorem State.imgAbort_sameRegs : SameRegs (abortRegs k) s (s.imgAbort k buf seq stamp st flags) := by
  obtain ⟨u, hu, -, hregs, -⟩ := State.imgAbort_eq (s := s) (k := k) buf seq stamp st flags
  rw [hu]
  exact hregs

theorem State.imgAbort_ends : SampleEnds k ⟨seq, stamp, st, none, 0, 0, flags⟩ s (s.imgAbort k buf seq stamp st flags) := by
  obtain ⟨u, hu, halone, -, hown, hother⟩ := State.imgAbort_eq (s := s) (k := k) buf seq stamp st flags
  rw [hu]
  refine ⟨?_, fun j hj => (State.imgSrc_setImgSrc_ne _ _ _ _ hj).trans (hother j hj), halone.ports, halone.decs⟩
  rw [State.imgSrc_setImgSrc, hown]

end

theorem State.writeMem_memoryAlone (g : Agent) (a : Nat) (l : List Byte) : MemoryAlone s (s.writeMem g a l).state := by
  have hbyte (t : State) (a : Nat) (b : Byte) : MemoryAlone t (t.writeByte g a b).state := by
    unfold State.writeByte
    split
    · exact State.putByte_memoryAlone _ _
    · rfl
    · rfl
  have hbytes : MemoryAlone s (s.writeBytes g a l).state := by
    induction l generalizing s a with
    | nil => rfl
    | cons b l ih => exact (hbyte s a b).trans (ih _)
  unfold State.writeMem
  extract_lets x
  split
  · exact hbytes
  · exact hbytes

theorem MemoryAlone.img (h : MemoryAlone s t) : t.img = s.img := (congrArg State.img h :)

theorem State.imgSrc_of_img (h : t.img = s.img) (k : Nat) : t.imgSrc k = s.imgSrc k := by
  unfold State.imgSrc
  rw [h]

/-- A sample that ends with its image keeps its number and stamp, and its buffer where the image has pixels (R141, R157). -/
theorem State.imgEnd_ends (buf seq : Nat) (stamp : Word) (flags w h : Nat) (px : Nat → Nat → List Val × List Nat) : ∃ d,
    SampleEnds k d s (s.imgEnd k buf seq stamp flags w h px) ∧ d.seq = seq ∧ d.stamp = stamp ∧
    (w ≠ 0 → h ≠ 0 → d.buf = some buf ∧ d.w = w ∧ d.h = h) := by
  unfold State.imgEnd
  split
  next h0 => exact ⟨_, State.imgAbort_ends, rfl, rfl, fun hw hh => (h0.elim hw hh).elim⟩
  next =>
    extract_lets img x unm fl s1 y
    have himg : s1.img = s.img := by
      have hx : x.state.img = s.img := (State.writeMem_memoryAlone _ _ _).img
      unfold s1
      split
      · exact hx
      · exact hx
    refine ⟨⟨seq, stamp, if imgFlagging fl then stFlagged else stDone, some buf, w, h, fl⟩, ⟨?_, fun j hj => ?_, (congrArg ImgSt.ports himg :), (congrArg ImgSt.decs himg :)⟩, rfl, rfl, fun _ _ => ⟨rfl, rfl, rfl⟩⟩
    · rw [State.imgSrc_setImgSrc, show y = s.imgSrc k from State.imgSrc_of_img himg k]
    · rw [State.imgSrc_setImgSrc_ne _ _ _ _ hj, State.imgSrc_of_img himg]

end Sys2Proof.Machine
end

section
/-! The recorder leaves alone what the input pipeline works on (R496, R497). -/

namespace Sys2Proof.Machine

variable {s t : State} {p vc k o : Nat}

/-- t differs from s in registers, memory, and the states of the scheduler and the recorder alone. -/
def RecorderAlone (s t : State) : Prop := { t with regs := s.regs, mem := s.mem, sched := s.sched, recorder := s.recorder } = s

theorem State.ringBytes_recorderAlone (base len p : Nat) (l : List Byte) : RecorderAlone s (s.ringBytes base len p l) := by
  induction l generalizing s p with
  | nil => rfl
  | cons b l ih =>
    exact (congrArg (fun x : State => { x with regs := s.regs, mem := s.mem, sched := s.sched, recorder := s.recorder })
      (ih (s := s.wr (base + p % len) b) (p := p + 1)) :).trans rfl

theorem State.recWrite_recorderAlone (l : List Byte) : RecorderAlone s (s.recWrite l) := by
  unfold State.recWrite
  extract_lets p len c
  split
  · rfl
  · split
    · rfl
    · exact State.ringBytes_recorderAlone _ len p l

theorem State.record_recorderAlone (cls kind source flags : Nat) (stamp aux : Word) (payload : List Byte) :
    RecorderAlone s (s.record cls kind source flags stamp aux payload) := by
  unfold State.record
  split
  · extract_lets l s1
    split
    · rfl
    · split
      · exact (congrArg (fun x : State => { x with recorder := s.recorder })
          (State.recWrite_recorderAlone (s := { s with recorder := { s.recorder with seq := s.recorder.seq + 1 } }) l) :).trans rfl
      · rfl
  · rfl

/-- t is s after an input was recorded: the input pipeline's tables, its registers, device time and the loader are as they were. -/
structure Recorded (s t : State) : Prop where
  img : t.img = s.img
  fab : t.fab = s.fab
  low : KeepsLow s t

theorem State.record_recorded (cls kind source flags : Nat) (stamp aux : Word) (payload : List Byte) :
    Recorded s (s.record cls kind source flags stamp aux payload) where
  img := (congrArg State.img (State.record_recorderAlone cls kind source flags stamp aux payload) :)
  fab := (congrArg State.fab (State.record_recorderAlone cls kind source flags stamp aux payload) :)
  low := State.record_keepsLow cls kind source flags stamp aux payload

section
variable (h : Recorded s t)
include h

theorem Recorded.imgSrc (k : Nat) : t.imgSrc k = s.imgSrc k := State.imgSrc_of_img h.img k
theorem Recorded.camPort (p : Nat) : t.camPort p = s.camPort p := State.camPort_of_ports (congrArg ImgSt.ports h.img) p
theorem Recorded.nowNs : t.nowNs = s.nowNs := congrArg (fun x : TimeSt => x.sec.toNat * 1000000000 + x.ns) h.low.time
theorem Recorded.fld (f : Fld) (ho : o < 0x1180000) : t.fld o f = s.fld o f := congrArg f.get (h.low.reg o ho)
theorem Recorded.bit (f : Fld) (ho : o < 0x1180000) : t.bit o f = s.bit o f := congrArg (· == 1) (h.fld f ho)

theorem Recorded.srcActive (hk : k < 128) : t.srcActive k = s.srcActive k := h.bit _ (by unfold R.IMG_SRC_CFG; omega)
theorem Recorded.srcCanton (hk : k < 128) : t.srcCanton k = s.srcCanton k := h.fld _ (by unfold R.IMG_SRC_CFG; omega)

theorem Recorded.committing (c : Nat) : t.committing c = s.committing c := by
  unfold State.committing
  rw [h.fab]

theorem Recorded.freeBuf (hk : k < 128) : t.freeBuf k = s.freeBuf k :=
  State.freeBuf_congr (h.low.reg _ (by unfold R.IMG_SRC_CFG; omega)) (congrArg ImgSrc.bufs (h.imgSrc k))

end

theorem camSrc_lt (p : Fin 16) (vc : Fin 4) : camSrc p vc < 128 := by
  unfold camSrc
  omega

theorem camSrc_injective {v w : Nat} (h : camSrc p v = camSrc p w) : v = w := by
  unfold camSrc at h
  omega

theorem Recorded.camOn (h : Recorded s t) (p : Fin 16) (vc : Fin 4) : t.camOn p vc = s.camOn p vc := by
  have ho : R.IMG_PORT_CFG p < 0x1180000 := by unfold R.IMG_PORT_CFG; omega
  unfold State.camOn
  rw [h.bit _ ho, h.fld _ ho, h.srcActive (camSrc_lt p vc)]

theorem Recorded.camDisabled (h : Recorded s t) (p : Fin 16) : t.camDisabled p = s.camDisabled p :=
  h.bit _ (by unfold R.IMG_PORT_CTL; omega)

theorem State.liveInput_live {cls : Nat} (hl : s.replays cls = false) (f : State → State) : s.liveInput cls f = f s := by
  unfold State.liveInput
  rw [hl]
  rfl

end Sys2Proof.Machine
end

section
/-! The frames of the camera ports: their start, their lines and their end (R142 to R146). -/

namespace Sys2Proof.Machine

variable {s t : State} {k j p vc b : Nat} {f : CamFrame} {stamp : Word}

/-! ### The open frame of a source -/

@[simp] theorem State.imgSrc_setCam (f : Option CamFrame) : (s.setCam k f).imgSrc k = { s.imgSrc k with cur := f } := s.imgSrc_setImgSrc k _

theorem State.imgSrc_setCam_ne (f : Option CamFrame) (hj : j ≠ k) : (s.setCam k f).imgSrc j = s.imgSrc j := s.imgSrc_setImgSrc_ne k j _ hj

theorem State.camClose_none (hc : (s.imgSrc k).cur = none) (truncated ecc : Bool) : s.camClose k truncated ecc = s := by
  unfold State.camClose
  rw [hc]

/-- An open frame closes as a sample: with its image, or as INTEGRITY where a line buffer had an uncorrectable error (R141, R144). -/
theorem State.camClose_ends (hc : (s.imgSrc k).cur = some f) (truncated ecc : Bool) : ∃ d,
    SampleEnds k d (s.setCam k none) (s.camClose k truncated ecc) ∧ d.seq = f.seq ∧ d.stamp = f.stamp ∧
    (ecc = false → f.width.getD 0 ≠ 0 → f.lines ≠ [] → d.buf = some f.buf ∧ d.w = f.width.getD 0 ∧ d.h = f.lines.length) ∧
    (ecc = true → d.buf = none ∧ d.status = stIntegrity) := by
  unfold State.camClose
  rw [hc]
  dsimp only
  cases ecc with
  | true =>
    rw [if_pos rfl]
    exact ⟨_, State.imgAbort_ends, rfl, rfl, fun h => absurd h (by decide), fun _ => ⟨rfl, rfl⟩⟩
  | false =>
    rw [if_neg (by decide)]
    obtain ⟨d, hends, hseq, hstamp, himage⟩ := (s.setCam k none).imgEnd_ends (k := k) f.buf f.seq f.stamp
      (f.flags + if truncated then 2 else 0) (f.width.getD 0) f.lines.length (s.camPixel k f)
    exact ⟨d, hends, hseq, hstamp, fun _ hw hl => himage hw (by simpa using hl), fun h => absurd h (by decide)⟩

/-! ### Frame Start -/

/-- A Frame Start that an enabled port accepts for a source without an open frame (R144 to R146). -/
theorem State.camFrameStart_ungated (hon : s.camOn p vc = true) (hen : s.camDisabled p = false) (hc : (s.imgSrc (camSrc p vc)).cur = none)
    (hg : s.bit (R.IMG_PORT_CFG p) F.IMG_PORT_CFG_GATED = false) : s.camFrameStart p vc stamp = s.camStart (camSrc p vc) stamp := by
  unfold State.camFrameStart
  simp [hon, State.camClose_none hc, hen, hg]

theorem State.camFrameStart_unarmed (hon : s.camOn p vc = true) (hen : s.camDisabled p = false) (hc : (s.imgSrc (camSrc p vc)).cur = none)
    (hg : s.bit (R.IMG_PORT_CFG p) F.IMG_PORT_CFG_GATED = true) (ha : (s.camPort p).armed = none) :
    s.camFrameStart p vc stamp = s.satAdd (R.IMG_PORT_ERR p) F.IMG_PORT_ERR_TRIG_SLIP 1 := by
  unfold State.camFrameStart
  simp [hon, State.camClose_none hc, hen, hg, ha]

/-- A sample that starts takes a FREE buffer and the next number (R134, R136). -/
theorem State.camStart_opens (hcom : s.committing (s.srcCanton k) = false) (hb : s.freeBuf k = some b) : (s.camStart k stamp).bufState k b = 1 ∧
    ((s.camStart k stamp).imgSrc k).cur = some { buf := b, seq := (s.imgSrc k).nextSeq, stamp := stamp, lastNs := s.nowNs } := by
  unfold State.camStart
  extract_lets x s1
  have hfree : s1.freeBuf k = some b := by
    refine (State.freeBuf_congr ?_ ?_).trans hb
    · exact State.reg_setFld_ne _ _ _ _ _ (by unfold R.IMG_SRC_CFG R.IMG_SRC_STAT; omega)
    · show ((s.setImgSrc k _).imgSrc k).bufs = _
      rw [State.imgSrc_setImgSrc]
  rw [hcom, hfree, if_neg (by decide)]
  dsimp only
  refine ⟨?_, by rw [State.imgSrc_setCam]⟩
  exact (State.bufState_of_bufs (by rw [State.imgSrc_setCam]) b).trans (State.bufState_setBuf 1)

/-! ### Lines -/

/-- A good RAW8 line goes to the open frame of its source (R142 to R144). -/
theorem State.camLine_raw8 (ha : s.bit (R.IMG_PORT_CFG p) F.IMG_PORT_CFG_ACTIVE = true) (hc : (s.imgSrc (camSrc p vc)).cur = some f)
    (payload : List Byte) : s.camLine p vc 0x2A .good true false payload =
      s.setCam (camSrc p vc) (some (f.addLine (s.fld (R.IMG_SRC_LIMIT (camSrc p vc)) F.IMG_SRC_LIMIT_MAX_WIDTH)
        (s.fld (R.IMG_SRC_LIMIT (camSrc p vc)) F.IMG_SRC_LIMIT_MAX_HEIGHT) (s.fld (R.IMG_SRC_LIMIT (camSrc p vc)) F.IMG_SRC_LIMIT_MAX_PIXELS)
        payload.length true (some (payload.map (fun b => [b.toNat]))) s.nowNs)) := by
  unfold State.camLine
  simp [ha, hc, dtQuiet, dtImage, unpackLine]

/-- A line that fits stands behind the others, cut to WIDTH (R144). -/
theorem CamFrame.addLine_fits {maxW maxH maxPx n : Nat} (hh : f.lines.length < maxH)
    (hpx : f.width.getD (min n maxW) * (f.lines.length + 1) ≤ maxPx) (raw : Bool) (px : List (List Nat)) (now : Nat) :
    let g := f.addLine maxW maxH maxPx n raw (some px) now
    g.lines = f.lines ++ [some (px.take (f.width.getD (min n maxW)))] ∧ g.buf = f.buf ∧ g.seq = f.seq ∧ g.stamp = f.stamp := by
  unfold CamFrame.addLine
  extract_lets f0 w f1 f2 g
  have hw : w = f.width.getD (min n maxW) := by
    unfold w
    cases f.width with
    | none => rfl
    | some _ => rfl
  have h1 : f1.lines = f.lines ∧ f1.buf = f.buf ∧ f1.seq = f.seq ∧ f1.stamp = f.stamp := by
    unfold f1
    split
    · exact ⟨rfl, rfl, rfl, rfl⟩
    · exact ⟨rfl, rfl, rfl, rfl⟩
  have h2 : f2.lines = f1.lines ∧ f2.buf = f1.buf ∧ f2.seq = f1.seq ∧ f2.stamp = f1.stamp := by
    unfold f2
    dsimp only
    split_ifs
    · exact ⟨rfl, rfl, rfl, rfl⟩
    · exact ⟨rfl, rfl, rfl, rfl⟩
    · exact ⟨rfl, rfl, rfl, rfl⟩
  obtain ⟨hl1, hb1, hs1, ht1⟩ := h1
  obtain ⟨hl2, hb2, hs2, ht2⟩ := h2
  have hg : g = { f2 with lines := f2.lines ++ [some (px.take w)] } := if_neg (by rw [hw]; omega)
  rw [hg, hw]
  exact ⟨congrArg (· ++ _) (hl2.trans hl1), hb2.trans hb1, hs2.trans hs1, ht2.trans ht1⟩

end Sys2Proof.Machine
end

section
/-! The commands of the camera ports and of the sample buffers (R134, R142 to R146). -/

namespace Sys2Proof.Machine

variable {s t : State} {k j b o : Nat} {p : Fin 16} {vc : Fin 4} {r : Req} {f : CamFrame}

/-! ### CSI-2 packets -/

theorem exec_csi2FrameStart_live (hl : s.replays 0 = false) : ∃ u, Recorded s u ∧
    exec (.csi2FrameStart p vc) s = .next (u.camFrameStart p vc s.now) :=
  ⟨_, State.record_recorded _ _ _ _ _ _ _, congrArg Host.Outcome.next (State.liveInput_live hl _)⟩

theorem exec_csi2LinePacket_raw8 (hl : s.replays 0 = false) (payload : List Byte) : ∃ u, Recorded s u ∧
    exec (.csi2LinePacket p vc 0x2A .good true false payload) s = .next (u.camLine p vc 0x2A .good true false payload) :=
  ⟨_, State.record_recorded _ _ _ _ _ _ _, congrArg Host.Outcome.next (State.liveInput_live hl _)⟩

/-- On a port that is not disabled a Frame End closes the open frame (R144, R146). -/
theorem exec_csi2FrameEnd_live (ecc : Bool) (hl : s.replays 0 = false) (hd : (s.camPort p).disabledAt = none) : ∃ u, Recorded s u ∧
    exec (.csi2FrameEnd p vc ecc) s = .next (u.camClose (camSrc p vc) false ecc) := by
  have hr := State.record_recorded (s := s) 0 3 p 0 s.now (BitVec.ofNat 64 (vc * 256 + 1)) []
  refine ⟨_, hr, congrArg Host.Outcome.next ((State.liveInput_live hl _).trans ?_)⟩
  unfold State.camFrameEnd
  rw [hr.camPort, hd]

theorem exec_csi2FrameEndTimeout_open (hc : (s.imgSrc (camSrc p vc)).cur = some f) : exec (.csi2FrameEndTimeout p vc) s =
    .next (if f.lastNs + 100000000 ≤ s.nowNs then s.camClose (camSrc p vc) true false else s) := by
  show execCsi2FrameEndTimeout p vc s = _
  rw [execCsi2FrameEndTimeout, hc]

theorem SampleEnds.cur_none {d : ImgDone} (h : SampleEnds k d (s.setCam k none) t) : (t.imgSrc k).cur = none :=
  h.cur.trans (by rw [State.imgSrc_setCam])

theorem SampleEnds.done_setCam {d : ImgDone} (h : SampleEnds k d (s.setCam k none) t) : (t.imgSrc k).done = (s.imgSrc k).done ++ [d] :=
  h.done.trans (by rw [State.imgSrc_setCam])

theorem State.cur_camClose (truncated ecc : Bool) : ((s.camClose k truncated ecc).imgSrc k).cur = none := by
  cases hc : (s.imgSrc k).cur with
  | none => rw [State.camClose_none hc, hc]
  | some f =>
    obtain ⟨d, hends, -⟩ := State.camClose_ends hc truncated ecc
    exact hends.cur_none

/-! ### Sample records and releases (R134, R137) -/

/-- The state after the record of d, the oldest ended sample of source k, went into the source's ring; the samples l wait behind it. -/
def State.recordPut (s : State) (k : Nat) (d : ImgDone) (l : List ImgDone) : State :=
  let x := s.imgSrc k
  let i := s.fld (R.IMG_SRC_STAT k) F.IMG_SRC_STAT_REC_PROD % 2 ^ x.recLog2
  ((s.setImgSrc k { x with done := l }).writeMem (imgAgent (s.srcCanton k)) (x.recBase + 32 * i) (imgRecord k d s.now)).state.wrapAdd
    (R.IMG_SRC_STAT k) F.IMG_SRC_STAT_REC_PROD 1

theorem State.done_recordPut (d : ImgDone) (l : List ImgDone) : ((s.recordPut k d l).imgSrc k).done = l := by
  have himg : (s.recordPut k d l).img = (s.setImgSrc k { s.imgSrc k with done := l }).img := (State.writeMem_memoryAlone _ _ _).img
  rw [State.imgSrc_of_img himg, State.imgSrc_setImgSrc]

theorem State.recProd_recordPut (d : ImgDone) (l : List ImgDone) : (s.recordPut k d l).fld (R.IMG_SRC_STAT k) F.IMG_SRC_STAT_REC_PROD =
    (s.fld (R.IMG_SRC_STAT k) F.IMG_SRC_STAT_REC_PROD + 1) % 2 ^ 16 := by
  unfold State.recordPut
  extract_lets x i
  rw [State.fld_wrapAdd_same _ _ _ _ (by decide)]
  exact congrArg (fun n => (n + 1) % 2 ^ 16) (congrArg (fun x : State => x.fld _ _) (State.writeMem_memoryAlone _ _ _) :)

theorem exec_sampleRecordWrite_some {k : Fin 128} {d : ImgDone} {l : List ImgDone} (hd : (s.imgSrc k).done = d :: l) :
    exec (.sampleRecordWrite k) s = .next (d.buf.elim (s.recordPut k d l) fun b => (s.recordPut k d l).setBuf k b 2) := by
  show execSampleRecordWrite k s = _
  unfold execSampleRecordWrite
  dsimp only
  rw [hd]
  dsimp only
  cases d.buf with
  | none => rfl
  | some b => rfl

/-- The oldest ended sample has its record: it is counted, and its buffer is READY. -/
theorem exec_sampleRecordWrite_records {k : Fin 128} {d : ImgDone} {l : List ImgDone} (hd : (s.imgSrc k).done = d :: l) :
    ∃ t, exec (.sampleRecordWrite k) s = .next t ∧ (t.imgSrc k).done = l ∧
      t.fld (R.IMG_SRC_STAT k) F.IMG_SRC_STAT_REC_PROD = (s.fld (R.IMG_SRC_STAT k) F.IMG_SRC_STAT_REC_PROD + 1) % 2 ^ 16 ∧
      (∀ b, d.buf = some b → t.bufState k b = 2) := by
  refine ⟨_, exec_sampleRecordWrite_some hd, ?_⟩
  cases d.buf with
  | none => exact ⟨State.done_recordPut d l, State.recProd_recordPut d l, fun b hb => nomatch hb⟩
  | some b =>
    refine ⟨?_, (State.setBuf_fld_high 2 (by decide) (by decide)).trans (State.recProd_recordPut d l), fun c hc => ?_⟩
    · exact (congrArg ImgSrc.done (State.imgSrc_setBuf 2)).trans (State.done_recordPut d l)
    · cases hc
      exact State.bufState_setBuf 2

theorem releaseBuffer_get (v : Word) : F.IMG_SRC_RELEASE_BUFFER.get v = v.toNat % 64 := by
  simp [Fld.get, F.IMG_SRC_RELEASE_BUFFER]

theorem exec_imgSrcRelease_served {k : Fin 128} {v : Word} (ht : s.takesWrite r (R.IMG_SRC_RELEASE k) = true) :
    exec (.imgSrcRelease k r .full v) s =
      .next (if s.bufState k (v.toNat % 64) = 2 then s.setBuf k (v.toNat % 64) 0 else s) := by
  show Host.Outcome.next (s.writeRelease k r .full v) = _
  rw [State.writeRelease, State.guardW_takes _ _ _ _ ht]
  simp [releaseBuffer_get]

/-! ### Ports that are disabled (R146) -/

theorem State.camAbort_none (hc : (s.imgSrc k).cur = none) : s.camAbort k = s := by
  unfold State.camAbort
  rw [hc]

theorem State.camAbort_some (hc : (s.imgSrc k).cur = some f) :
    s.camAbort k = (s.setCam k none).imgAbort k (some f.buf) f.seq f.stamp stAborted f.flags := by
  unfold State.camAbort
  rw [hc]

/-- An abort ends the open frame of its source and opens none of another. -/
theorem State.cur_camAbort (h : j ≠ k → (s.imgSrc j).cur = none) : ((s.camAbort k).imgSrc j).cur = none := by
  cases hc : (s.imgSrc k).cur with
  | none =>
    rw [State.camAbort_none hc]
    by_cases hj : j = k
    · rw [hj, hc]
    · exact h hj
  | some f =>
    rw [State.camAbort_some hc]
    by_cases hj : j = k
    · rw [hj]
      exact State.imgAbort_ends.cur_none
    · rw [State.imgAbort_ends.other j hj, State.imgSrc_setCam_ne _ hj]
      exact h hj

theorem State.camAbort_sourcesAlone : SourcesAlone s (s.camAbort k) := by
  cases hc : (s.imgSrc k).cur with
  | none => rw [State.camAbort_none hc]; exact .refl s
  | some f =>
    rw [State.camAbort_some hc]
    exact SourcesAlone.trans (SourcesAlone.setImgSrc (.refl s) _ _) State.imgAbort_sourcesAlone

theorem State.camAbort_sameRegs : SameRegs (abortRegs k) s (s.camAbort k) := by
  cases hc : (s.imgSrc k).cur with
  | none => rw [State.camAbort_none hc]; exact .refl _ s
  | some f =>
    rw [State.camAbort_some hc]
    exact SameRegs.trans (t := s.setCam k none) (fun _ _ => rfl) State.imgAbort_sameRegs

/-- The open frames of a port's virtual channels end, one after another (R146). -/
def State.camAborts (s : State) (p : Nat) (l : List Nat) : State := l.foldl (fun (t : State) v => t.camAbort (camSrc p v)) s

theorem State.cur_camAborts {p v : Nat} {l : List Nat} (h : v ∉ l → (s.imgSrc (camSrc p v)).cur = none) :
    ((s.camAborts p l).imgSrc (camSrc p v)).cur = none := by
  induction l generalizing s with
  | nil => exact h (by simp)
  | cons w l ih =>
    refine ih (s := s.camAbort (camSrc p w)) fun hl => State.cur_camAbort fun hvw => h ?_
    have hne : v ≠ w := fun e => hvw (by rw [e])
    simp [hne, hl]

theorem State.cur_camAborts_all (p : Nat) (v : Fin 4) : ((s.camAborts p (List.range 4)).imgSrc (camSrc p v)).cur = none :=
  State.cur_camAborts fun h => absurd (List.mem_range.mpr v.isLt) h

theorem State.camAborts_sourcesAlone (p : Nat) (l : List Nat) : SourcesAlone s (s.camAborts p l) :=
  List.foldlRecOn l _ (motive := SourcesAlone s) (.refl s) fun _ h _ _ => h.trans State.camAbort_sourcesAlone

/-- The registers of the ports stand below those of the sources, and apart from the pipeline's counters. -/
theorem State.reg_camAborts (p : Nat) (l : List Nat) (hglb : R.IMG_GLB_STAT < o) (hsrc : o < R.IMG_SRC_CFG 0) : (s.camAborts p l).reg o = s.reg o :=
  State.reg_foldl_ne fun _ v _ => State.camAbort_sameRegs o (by
    simp only [abortRegs, List.mem_cons, List.not_mem_nil, or_false, R.IMG_SRC_STAT, R.IMG_SRC_DROP]
    simp only [R.IMG_SRC_CFG] at hsrc
    omega)

/-- The state of a port that has just been disabled. -/
def State.portOff (s : State) (p : Nat) (abandon : Bool) : State :=
  let s1 := (s.setFld (R.IMG_PORT_CTL p) F.IMG_PORT_CTL_DISABLE 1).setBit (R.IMG_PORT_CTL p) F.IMG_PORT_CTL_DISABLE_MODE abandon
  s1.setCamPort p { s1.camPort p with disabledAt := some s.nowNs }

theorem State.camDisable_eq (p : Nat) (abandon : Bool) :
    s.camDisable p abandon = if abandon then (s.portOff p abandon).camAborts p (List.range 4) else s.portOff p abandon := rfl

theorem State.reg_portOff (p : Nat) (abandon : Bool) : (s.portOff p abandon).reg (R.IMG_PORT_CTL p) =
    F.IMG_PORT_CTL_DISABLE_MODE.set (F.IMG_PORT_CTL_DISABLE.set (s.reg (R.IMG_PORT_CTL p)) 1) (if abandon then 1 else 0) := by
  show ((s.setFld (R.IMG_PORT_CTL p) F.IMG_PORT_CTL_DISABLE 1).setFld (R.IMG_PORT_CTL p) F.IMG_PORT_CTL_DISABLE_MODE
    (if abandon then 1 else 0)).reg (R.IMG_PORT_CTL p) = _
  rw [State.reg_setFld_same, State.reg_setFld_same]

/-- DISABLE and DISABLE_MODE of a port that shows what portOff left it. -/
theorem State.bits_portOff {abandon : Bool} (h : t.reg (R.IMG_PORT_CTL p) = (s.portOff p abandon).reg (R.IMG_PORT_CTL p)) :
    t.bit (R.IMG_PORT_CTL p) F.IMG_PORT_CTL_DISABLE = true ∧ t.bit (R.IMG_PORT_CTL p) F.IMG_PORT_CTL_DISABLE_MODE = abandon := by
  unfold State.bit State.fld
  rw [h, State.reg_portOff, Fld.get_set_same _ _ _ (by decide), Fld.get_set_other _ _ _ _ (by decide) (by decide),
    Fld.get_set_same _ _ _ (by decide)]
  cases abandon with
  | false => exact ⟨rfl, rfl⟩
  | true => exact ⟨rfl, rfl⟩

theorem exec_imgPortDisable_served (abandon : Bool) (ht : s.takesWrite r (R.IMG_PORT_CTL p) = true) :
    ∃ t, exec (.imgPortDisable p r abandon) s = .next t ∧ t.bit (R.IMG_PORT_CTL p) F.IMG_PORT_CTL_DISABLE = true ∧
      t.bit (R.IMG_PORT_CTL p) F.IMG_PORT_CTL_DISABLE_MODE = abandon ∧ (t.camPort p).disabledAt = some s.nowNs ∧
      (abandon = true → ∀ vc : Fin 4, (t.imgSrc (camSrc p vc)).cur = none) ∧ SameMem s t := by
  refine ⟨_, congrArg Host.Outcome.next ((State.guardW_takes _ _ _ _ ht).trans (State.camDisable_eq p abandon)), ?_⟩
  have hport : ((s.portOff p abandon).camPort p).disabledAt = some s.nowNs := congrArg CamPort.disabledAt (State.camPort_setCamPort _ _ _)
  cases abandon with
  | false =>
    obtain ⟨hdis, hmode⟩ := State.bits_portOff (s := s) (p := p) (abandon := false) rfl
    exact ⟨hdis, hmode, hport, fun h => absurd h (by decide), fun _ => rfl⟩
  | true =>
    rw [if_pos rfl]
    have halone := State.camAborts_sourcesAlone (s := s.portOff p true) p (List.range 4)
    have hctl := State.reg_camAborts (s := s.portOff p true) (o := R.IMG_PORT_CTL p) p (List.range 4)
      (by unfold R.IMG_GLB_STAT R.IMG_PORT_CTL; omega) (by unfold R.IMG_PORT_CTL R.IMG_SRC_CFG; omega)
    obtain ⟨hdis, hmode⟩ := State.bits_portOff hctl
    exact ⟨hdis, hmode, (congrArg CamPort.disabledAt (State.camPort_of_ports halone.ports p)).trans hport,
      fun _ vc => State.cur_camAborts_all p vc, halone.sameMem⟩

theorem exec_imgPortEnable_served (ht : s.takesWrite r (R.IMG_PORT_CTL p) = true) :
    ∃ t, exec (.imgPortEnable p r) s = .next t ∧ SameRegs [R.IMG_PORT_CTL p] s t ∧ SameMem s t ∧
      t.reg (R.IMG_PORT_CTL p) = F.IMG_PORT_CTL_DISABLE.set (s.reg (R.IMG_PORT_CTL p)) 0 ∧ (t.camPort p).disabledAt = none :=
  ⟨_, congrArg Host.Outcome.next (State.guardW_takes _ _ _ _ ht), SameRegs.setFld_self s F.IMG_PORT_CTL_DISABLE 0 (by simp), fun _ => rfl,
    State.reg_setFld_same _ _ _ _, congrArg CamPort.disabledAt (State.camPort_setCamPort _ _ _)⟩

theorem exec_portDisableDrainTimeout_disabled {t0 : Nat} (hd : (s.camPort p).disabledAt = some t0) : exec (.portDisableDrainTimeout p) s =
    .next (if t0 + 100000000 ≤ s.nowNs then s.camAborts p (List.range 4) else s) := by
  show execPortDisableDrainTimeout p s = _
  rw [execPortDisableDrainTimeout, hd]
  rfl

end Sys2Proof.Machine
end

section
open Sys2Proof Sys2Proof.Machine

/-- Settles O4, clause by clause; a live packet meets the pipeline as the recorder leaves it, which is as it was. -/
theorem cameraFramesBecomeSamples : Obligations.CameraFramesBecomeSamples := by
  unfold Obligations.CameraFramesBecomeSamples
  refine ⟨fun p vc s hl hon hen hc => ?start, fun p vc payload f s hl ha hc hh hpx => ?line, fun p vc ecc f s hl hd hc hw hlines => ?stop,
    fun p vc f s hc => ⟨fun hdue => ?late, fun hnot => ?early⟩, fun k d l s hd => exec_sampleRecordWrite_records hd,
    fun k r v s ht => ⟨fun hb => ?ready, fun hb => ?unready⟩, fun p r abandon s ht => exec_imgPortDisable_served abandon ht,
    fun p r s ht => exec_imgPortEnable_served ht, fun p t0 s hd => ⟨fun hdue => ?drained, fun hnot => ?draining⟩⟩
  case start =>
    obtain ⟨u, hu, hexec⟩ := exec_csi2FrameStart_live (p := p) (vc := vc) hl
    have hk := camSrc_lt p vc
    have hon' := (hu.camOn p vc).trans hon
    have hen' := (hu.camDisabled p).trans hen
    have hc' : (u.imgSrc (camSrc p vc)).cur = none := (congrArg ImgSrc.cur (hu.imgSrc _)).trans hc
    have hgated := hu.bit F.IMG_PORT_CFG_GATED (o := R.IMG_PORT_CFG p) (by unfold R.IMG_PORT_CFG; omega)
    refine ⟨fun b hg hcom hb => ?_, fun hg ha => ?_⟩
    · rw [State.camFrameStart_ungated hon' hen' hc' (hgated.trans hg)] at hexec
      obtain ⟨hbuf, hcur⟩ := State.camStart_opens (s := u) (k := camSrc p vc) (stamp := s.now)
        (by rw [hu.srcCanton hk, hu.committing, hcom]) ((hu.freeBuf hk).trans hb)
      exact ⟨_, hexec, hbuf, hcur.trans (by rw [hu.imgSrc, hu.nowNs])⟩
    · rw [State.camFrameStart_unarmed hon' hen' hc' (hgated.trans hg) ((congrArg CamPort.armed (hu.camPort p)).trans ha)] at hexec
      refine ⟨_, hexec, hc', (State.fld_satAdd_same _ _ _ _ (by decide)).trans ?_⟩
      rw [hu.fld _ (by unfold R.IMG_PORT_ERR; omega)]
      rfl
  case line =>
    obtain ⟨u, hu, hexec⟩ := exec_csi2LinePacket_raw8 (p := p) (vc := vc) hl payload
    have hlimit (f : Fld) := hu.fld f (o := R.IMG_SRC_LIMIT (camSrc p vc)) (by have := camSrc_lt p vc; unfold R.IMG_SRC_LIMIT; omega)
    rw [State.camLine_raw8 ((hu.bit _ (by unfold R.IMG_PORT_CFG; omega)).trans ha) ((congrArg ImgSrc.cur (hu.imgSrc _)).trans hc),
      hlimit, hlimit, hlimit] at hexec
    exact ⟨_, _, hexec, by rw [State.imgSrc_setCam], CamFrame.addLine_fits hh hpx true _ _⟩
  case stop =>
    obtain ⟨u, hu, hexec⟩ := exec_csi2FrameEnd_live (p := p) (vc := vc) ecc hl hd
    obtain ⟨d, hends, hseq, hstamp, himage, hlost⟩ := State.camClose_ends ((congrArg ImgSrc.cur (hu.imgSrc _)).trans hc) false ecc
    exact ⟨_, d, hexec, hends.cur_none, hends.done_setCam.trans (by rw [hu.imgSrc]), hseq, hstamp, fun he => himage he hw hlines, hlost⟩
  case late => exact ⟨_, (exec_csi2FrameEndTimeout_open hc).trans (by rw [if_pos hdue]), State.cur_camClose _ _⟩
  case early => exact (exec_csi2FrameEndTimeout_open hc).trans (by rw [if_neg (Nat.not_le.mpr hnot)])
  case ready =>
    exact ⟨_, (exec_imgSrcRelease_served ht).trans (by rw [if_pos hb]), State.bufState_setBuf 0, State.setBuf_sameRegs 0, fun _ => rfl⟩
  case unready => exact (exec_imgSrcRelease_served ht).trans (by rw [if_neg hb])
  case drained =>
    exact ⟨_, (exec_portDisableDrainTimeout_disabled hd).trans (by rw [if_pos hdue]), fun vc => State.cur_camAborts_all p vc⟩
  case draining => exact (exec_portDisableDrainTimeout_disabled hd).trans (by rw [if_neg (Nat.not_le.mpr hnot)])

end

section
/-! Carrier datagrams and the reassembly slots that they fill (R147 to R149). -/

namespace Sys2Proof.Machine

variable {s t : State} {k i o : Nat} {e : Fin 4} {stamp : Word} {bytes l : List Byte} {p : IpPkt} {r : Reasm}

/-! ### Reassembly slots -/

@[simp] theorem State.imgSrc_setSlotR (x : Option Reasm) :
    (s.setSlotR k i x).imgSrc k = { s.imgSrc k with slots := Store.set (fun _ => none) (s.imgSrc k).slots i x } := s.imgSrc_setImgSrc k _

theorem State.slot_setSlotR (x : Option Reasm) : ((s.setSlotR k i x).imgSrc k).slot i = x := by
  rw [State.imgSrc_setSlotR]
  exact Store.get_set_same _ _ _ _

/-- A frame that ends gives up its slot and closes its number; the samples that wait are as they were. -/
theorem State.imgSrc_endSlot (seq : Nat) : ((s.endSlot k i seq).imgSrc k).slot i = none ∧ seq ∈ ((s.endSlot k i seq).imgSrc k).closed ∧
    ((s.endSlot k i seq).imgSrc k).done = (s.imgSrc k).done := by
  have hsrc : (s.endSlot k i seq).imgSrc k = { (s.setSlotR k i none).imgSrc k with
      closed := seq :: ((s.setSlotR k i none).imgSrc k).closed.filter (fun q => q != seq) } := State.imgSrc_setImgSrc _ k _
  rw [hsrc]
  exact ⟨State.slot_setSlotR none, List.mem_cons_self, by rw [State.imgSrc_setSlotR]⟩

/-! ### Fragments -/

theorem State.putFrag_memoryAlone (a : Nat) (r : Reasm) (l : List Byte) : MemoryAlone s (s.putFrag a r o l).1 := by
  induction l generalizing s o with
  | nil => exact .refl s
  | cons b l ih =>
    unfold State.putFrag
    split
    · exact ih
    · exact (State.putByte_memoryAlone _ b).trans ih

/-- Every byte of a frame's first fragment counts where it lies within the frame (R149). -/
theorem State.putFrag_count (a : Nat) (hspans : r.spans = []) (hfit : o + l.length ≤ r.total) : (s.putFrag a r o l).2 = l.length := by
  induction l generalizing s o with
  | nil => rfl
  | cons b l ih =>
    rw [List.length_cons] at hfit ⊢
    have hnew : ¬ (r.has o = true ∨ r.total ≤ o) := by
      simp only [Reasm.has, hspans, List.any_nil, Bool.false_eq_true, false_or]
      omega
    unfold State.putFrag
    rw [if_neg hnew]
    exact congrArg (· + 1) (ih (by omega))

theorem State.imgSrc_setDecQueue (q : List (Nat × Nat)) (k : Nat) : (s.setDecQueue q).imgSrc k = s.imgSrc k := rfl

/-- A slot holds the span of the frame's first fragment, and is complete where that is the whole frame (R149). -/
theorem State.slot_takeFrag_first (e : Nat) (hspans : r.spans = []) (hgot : r.got = 0) (hfit : o + l.length ≤ r.total) :
    ((s.takeFrag e k i r o l).imgSrc k).slot i =
      some { r with spans := [(o, l.length)], got := l.length, complete := decide (r.total ≤ l.length) } := by
  unfold State.takeFrag
  extract_lets dup x s0 s1 full s2
  have hcount : r.got + x.2 = l.length := by rw [hgot, Nat.zero_add]; exact State.putFrag_count _ hspans hfit
  have hslot : (s2.imgSrc k).slot i = some { r with spans := [(o, l.length)], got := l.length, complete := decide (r.total ≤ l.length) } := by
    unfold s2 full
    rw [State.slot_setSlotR, hspans, hcount]
    rfl
  split
  · rw [State.imgSrc_setDecQueue, hslot]
  · exact hslot

/-- Source k is active on port e and takes a new frame: it is not closed, both slots are free, the canton is in no outage, and the frame is no
larger than MAX_KIB (R148, R149). -/
structure TakesFrame (e k seq total : Nat) (s : State) : Prop where
  active : s.srcActive k = true
  port : (s.imgSrc k).ethPort = e
  unclosed : seq ∉ (s.imgSrc k).closed
  free0 : (s.imgSrc k).slot 0 = none
  free1 : (s.imgSrc k).slot 1 = none
  serving : s.committing (s.srcCanton k) = false
  fits : total ≤ s.fld (R.IMG_SRC_JPEG k) F.IMG_SRC_JPEG_MAX_KIB * 1024

theorem TakesFrame.recorded {e seq total : Nat} (h : TakesFrame e k seq total s) (hu : Recorded s t) (hk : k < 128) : TakesFrame e k seq total t := by
  obtain ⟨hact, hport, hclosed, h0, h1, hcom, hmax⟩ := h
  rw [← hu.imgSrc k] at hport hclosed h0 h1
  rw [← hu.srcActive hk] at hact
  rw [← hu.srcCanton hk, ← hu.committing] at hcom
  rw [← hu.fld _ (by unfold R.IMG_SRC_JPEG; omega)] at hmax
  exact ⟨hact, hport, hclosed, h0, h1, hcom, hmax⟩

/-- The first fragment of such a frame goes into slot 0. -/
theorem State.carrierFrag_opens {e seq total : Nat} (h : TakesFrame e k seq total s) (stampV : Option Word) (rx : Word) (l : List Byte) :
    ∃ r : Reasm, r.seq = seq ∧ r.total = total ∧ r.spans = [] ∧ r.got = 0 ∧
      s.carrierFrag e k seq total o stampV rx l = s.takeFrag e k 0 r o l := by
  obtain ⟨-, -, hclosed, h0, h1, hcom, hmax⟩ := h
  unfold State.carrierFrag State.slotFor
  simp only [List.contains_iff_mem, hclosed, if_false, List.range_succ, List.range_zero, List.nil_append, List.cons_append, List.find?_cons,
    List.find?_nil, h0, h1, hcom, Nat.not_lt.mpr hmax, Bool.false_eq_true]
  exact ⟨_, rfl, rfl, rfl, rfl, rfl⟩

/-! ### Datagrams -/

/-- The checks of R148 on the datagram and its header, without that of its stream. -/
def IpPkt.carrierGood (p : IpPkt) : Prop :=
  p.frag = false ∧ p.udpBad = false ∧ 32 ≤ p.payload.length ∧ sliceN p.payload 0 2 = 0x4B43 ∧ sliceN p.payload 2 1 = 1 ∧
    sliceN p.payload 3 1 < 2 ∧ sliceN p.payload 6 2 = 0 ∧ sliceN p.payload 20 4 = 0 ∧
    sliceN p.payload 12 4 + (p.payload.drop 32).length ≤ sliceN p.payload 16 4 ∧ sliceN p.payload 16 4 ≠ 0

theorem State.carrier_badMagic (e : Nat) (rx : Word) (hmagic : sliceN p.payload 0 2 ≠ 0x4B43) :
    s.carrier e rx p = s.satAdd (R.IMG_ETH_STAT e) F.IMG_ETH_STAT_BAD_HEADER 1 := by
  unfold State.carrier
  exact if_pos (.inr (.inr (.inr (.inl hmagic))))

/-- A datagram with a good header, of an active source's stream on this port, is a fragment of a frame of that source (R147, R148). -/
theorem State.carrier_good (rx : Word) (hgood : p.carrierGood) (hstream : sliceN p.payload 4 2 < 64)
    (hact : s.srcActive (64 + sliceN p.payload 4 2) = true) (hport : (s.imgSrc (64 + sliceN p.payload 4 2)).ethPort = e) :
    ∃ stampV, s.carrier e rx p = s.carrierFrag e (64 + sliceN p.payload 4 2) (sliceN p.payload 8 4) (sliceN p.payload 16 4) (sliceN p.payload 12 4)
      stampV rx (p.payload.drop 32) := by
  obtain ⟨hfrag, hudp, hlen, hmagic, hversion, hflags, hzero, hzero', hspan, htotal⟩ := hgood
  unfold State.carrier
  extract_lets d o total l st
  rw [if_neg, if_neg]
  · exact ⟨_, rfl⟩
  · rintro (h | h | h)
    · exact absurd hstream (Nat.not_lt.mpr h)
    · exact absurd (hact.symm.trans (by simpa using h)) (by decide)
    · exact h hport
  · rintro (h | h | h | h | h | h | h | h | h | h)
    · exact absurd (hfrag.symm.trans h) (by decide)
    · exact absurd (hudp.symm.trans h) (by decide)
    · exact absurd hlen (Nat.not_le.mpr h)
    · exact h hmagic
    · exact h hversion
    · exact absurd hflags (Nat.not_lt.mpr h)
    · exact h hzero
    · exact h hzero'
    · exact absurd hspan (Nat.not_le.mpr h)
    · exact htotal h

theorem exec_carrierDatagram_none (hof : s.carrierOf e bytes = none) : exec (.carrierDatagram e stamp bytes) s = .next s := by
  show execCarrierDatagram e stamp bytes s = _
  rw [execCarrierDatagram, hof]

/-- A live datagram meets the carrier as the recorder leaves the pipeline. -/
theorem exec_carrierDatagram_live (hof : s.carrierOf e bytes = some p) (hl : s.replays 1 = false) : ∃ u, Recorded s u ∧
    exec (.carrierDatagram e stamp bytes) s = .next (u.carrier e stamp p) := by
  refine ⟨_, State.record_recorded 1 4 e 0 stamp 0 bytes, ?_⟩
  show execCarrierDatagram e stamp bytes s = _
  rw [execCarrierDatagram, hof]
  exact congrArg Host.Outcome.next (State.liveInput_live hl _)

theorem exec_carrierDatagram_badMagic (hof : s.carrierOf e bytes = some p) (hl : s.replays 1 = false) (hmagic : sliceN p.payload 0 2 ≠ 0x4B43) :
    ∃ t, exec (.carrierDatagram e stamp bytes) s = .next t ∧
      t.fld (R.IMG_ETH_STAT e) F.IMG_ETH_STAT_BAD_HEADER = min 0xFFFF (s.fld (R.IMG_ETH_STAT e) F.IMG_ETH_STAT_BAD_HEADER + 1) := by
  obtain ⟨u, hu, hexec⟩ := exec_carrierDatagram_live (stamp := stamp) hof hl
  refine ⟨_, hexec, ?_⟩
  rw [State.carrier_badMagic _ _ hmagic, State.fld_satAdd_same _ _ _ _ (by decide), hu.fld _ (by unfold R.IMG_ETH_STAT; omega)]
  rfl

/-- The first fragment of a new frame of source k opens slot 0 with the frame's number and length and the span received. -/
theorem exec_carrierDatagram_opens (hof : s.carrierOf e bytes = some p) (hl : s.replays 1 = false) (hgood : p.carrierGood)
    (hstream : sliceN p.payload 4 2 < 64) (hk : k = 64 + sliceN p.payload 4 2)
    (htakes : TakesFrame e k (sliceN p.payload 8 4) (sliceN p.payload 16 4) s) :
    ∃ t r, exec (.carrierDatagram e stamp bytes) s = .next t ∧ (t.imgSrc k).slot 0 = some r ∧ r.seq = sliceN p.payload 8 4 ∧
      r.total = sliceN p.payload 16 4 ∧ r.spans = [(sliceN p.payload 12 4, (p.payload.drop 32).length)] ∧ r.got = (p.payload.drop 32).length ∧
      r.complete = decide (sliceN p.payload 16 4 ≤ (p.payload.drop 32).length) := by
  obtain ⟨u, hu, hexec⟩ := exec_carrierDatagram_live (stamp := stamp) hof hl
  have htakes' := htakes.recorded hu (by omega)
  subst hk
  obtain ⟨stampV, hfrag⟩ := State.carrier_good stamp hgood hstream htakes'.active htakes'.port
  obtain ⟨r, hseq, htotal, hspans, hgot, htake⟩ := State.carrierFrag_opens (o := sliceN p.payload 12 4) htakes' stampV stamp (p.payload.drop 32)
  rw [hfrag, htake] at hexec
  obtain ⟨-, -, -, -, -, -, -, -, hspan, -⟩ := hgood
  exact ⟨_, _, hexec, State.slot_takeFrag_first e hspans hgot (htotal ▸ hspan), hseq, htotal, rfl, rfl, by rw [htotal]⟩

/-! ### Frames that stay incomplete -/

theorem State.dropReasm_ends : (((s.dropReasm k i r).imgSrc k).slot i = none ∧ r.seq ∈ ((s.dropReasm k i r).imgSrc k).closed ∧
    ∃ d, ((s.dropReasm k i r).imgSrc k).done = (s.imgSrc k).done ++ [d] ∧ d.seq = r.seq ∧ d.status = stRejected) := by
  obtain ⟨hslot, hclosed, hdone⟩ := State.imgSrc_endSlot (s := s) (k := k) (i := i) r.seq
  have hends : SampleEnds k ⟨r.seq, r.stamp, stRejected, none, 0, 0, r.flags + 256⟩ (s.endSlot k i r.seq) (s.dropReasm k i r) :=
    State.imgAbort_ends
  exact ⟨(hends.slot i).trans hslot, hends.closed ▸ hclosed, _, hends.done.trans (by rw [hdone]), rfl, rfl⟩

theorem exec_reassemblyTimeout_incomplete {k : Fin 128} {i : Fin 2} (hr : (s.imgSrc k).slot i = some r) (hc : r.complete = false) :
    exec (.reassemblyTimeout k i) s = .next (if r.firstNs + s.fld (R.IMG_SRC_JPEG k) F.IMG_SRC_JPEG_REASM_MS * 1000000 ≤ s.nowNs
      then s.dropReasm k i r else s) := by
  show execReassemblyTimeout k i s = _
  rw [execReassemblyTimeout, hr]
  simp only [hc, Bool.not_false, true_and]

end Sys2Proof.Machine
end

section
/-! The JPEG decoders: the frame that one takes, and how a decode ends (R152 to R157). -/

namespace Sys2Proof.Machine

variable {s t u : State} {k i j b : Nat} {x : DecRun} {r : Reasm}

/-! ### Taking and freeing a decoder (R155, R166) -/

/-- t differs from s in registers and in the decoders alone. -/
def DecodersAlone (s t : State) : Prop := { t with regs := s.regs, img := { t.img with decs := s.img.decs } } = s

theorem DecodersAlone.imgSrc (h : DecodersAlone s t) (k : Nat) : t.imgSrc k = s.imgSrc k := (congrArg (fun x : State => x.imgSrc k) h :)
theorem DecodersAlone.queue (h : DecodersAlone s t) : t.img.queue = s.img.queue := (congrArg (fun x : State => x.img.queue) h :)
theorem DecodersAlone.sameMem (h : DecodersAlone s t) : SameMem s t := fun a => (congrArg (fun x : State => x.rd a) h :)

theorem State.setDec_decodersAlone (d : Nat) (y : Option DecRun) : DecodersAlone s (s.setDec d y) := by
  cases y with
  | none => rfl
  | some _ => rfl

theorem DecodersAlone.setFld (h : DecodersAlone s t) (off : Nat) (f : Fld) (n : Nat) : DecodersAlone s (t.setFld off f n) := h

theorem State.decRun_setFld (off : Nat) (f : Fld) (n d : Nat) : (s.setFld off f n).decRun d = s.decRun d := rfl

theorem State.decRun_setDec (d : Nat) (y : Option DecRun) : (s.setDec d y).decRun d = y := by
  have hdecs : (s.setDec d y).img.decs = Store.set (fun _ => none) s.img.decs d y := by cases y <;> rfl
  unfold State.decRun
  rw [hdecs]
  exact Store.get_set_same _ _ _ _

/-! ### The start of a decode (R154, R155) -/

/-- The state in which decoder d has taken the frame of slot i of source k, with buffer b. -/
def State.takeDec (s : State) (d k i b steps : Nat) : State :=
  ((s.setBuf k b 1).setDec d (some ⟨k, i, b⟩)).setFld (R.IMG_DEC_STAT d) F.IMG_DEC_STAT_STEPS steps

theorem State.takeDec_takes (d steps : Nat) : (s.takeDec d k i b steps).decRun d = some ⟨k, i, b⟩ ∧ (s.takeDec d k i b steps).bufState k b = 1 ∧
    (s.takeDec d k i b steps).img.queue = s.img.queue ∧ SameMem s (s.takeDec d k i b steps) := by
  have hsrc : SourcesAlone s (s.setBuf k b 1) := (SourcesAlone.refl s).setBuf k b 1
  have hdec : DecodersAlone (s.setBuf k b 1) (s.takeDec d k i b steps) := (State.setDec_decodersAlone d _).setFld _ _ _
  refine ⟨?_, ?_, hdec.queue.trans hsrc.queue, fun a => (hdec.sameMem a).trans (hsrc.sameMem a)⟩
  · unfold State.takeDec
    rw [State.decRun_setFld, State.decRun_setDec]
  · exact (State.bufState_of_bufs (congrArg ImgSrc.bufs (hdec.imgSrc k)) b).trans (State.bufState_setBuf 1)

/-- The state in which the frame r of source k has left the decoders' queue, of which rest stays, and is the source's last. -/
def State.dequeued (s : State) (k : Nat) (r : Reasm) (rest : List (Nat × Nat)) : State :=
  (s.setDecQueue rest).setFld (R.IMG_SRC_STAT k) F.IMG_SRC_STAT_LAST_SEQ r.seq

theorem State.freeBuf_dequeued (rest : List (Nat × Nat)) : (s.dequeued k r rest).freeBuf k = s.freeBuf k := by
  have hcfg : R.IMG_SRC_CFG k ≠ R.IMG_SRC_STAT k ∧ R.IMG_SRC_CFG k ≠ R.IMG_GLB_STAT := by
    unfold R.IMG_SRC_CFG R.IMG_SRC_STAT R.IMG_GLB_STAT
    omega
  exact State.freeBuf_congr ((State.reg_setFld_ne _ _ _ _ _ hcfg.1).trans (State.reg_setFld_ne _ _ _ _ _ hcfg.2)) rfl

/-- The lowest free decoder takes the oldest complete frame, whose header passes, and a FREE buffer. -/
theorem exec_decoderStart_starts {d : Fin 8} {rest : List (Nat × Nat)}
    (hfree : (List.range 8).find? (fun j => (s.decRun j).isNone) = some d.val) (hq : s.img.queue = (k, i) :: rest)
    (hr : (s.imgSrc k).slot i = some r)
    (hpoison : s.poisoned (s.slotAddr k i) (if (jpegHead (s.bitstream k i r)).bad then r.total else (jpegHead (s.bitstream k i r)).scan) = false)
    (hcheck : (jpegHead (s.bitstream k i r)).check r.total (s.fld (R.IMG_SRC_LIMIT k) F.IMG_SRC_LIMIT_MAX_WIDTH)
      (s.fld (R.IMG_SRC_LIMIT k) F.IMG_SRC_LIMIT_MAX_HEIGHT) (s.fld (R.IMG_SRC_LIMIT k) F.IMG_SRC_LIMIT_MAX_PIXELS) = none)
    (hb : s.freeBuf k = some b) :
    exec (.decoderStart d) s = .next ((s.dequeued k r rest).takeDec d k i b (jpegHead (s.bitstream k i r)).headSteps) := by
  show execDecoderStart d s = _
  unfold execDecoderStart
  rw [if_neg (not_not.mpr hfree), hq]
  dsimp only
  rw [hr]
  dsimp only
  rw [hpoison, if_neg (by decide), hcheck]
  dsimp only
  rw [show ((s.setDecQueue rest).setFld (R.IMG_SRC_STAT k) F.IMG_SRC_STAT_LAST_SEQ r.seq).freeBuf k = some b from
    (State.freeBuf_dequeued rest).trans hb]
  rfl

/-! ### The end of a decode (R156, R157) -/

/-- The steps that the decode x of the frame r takes (R156). -/
def State.decodeSteps (s : State) (x : DecRun) (r : Reasm) : Nat :=
  let bs := s.bitstream x.src x.slot r
  (jpegHead bs).steps ((jpegHead bs).decode bs)

theorem State.decRun_endSlot (d seq : Nat) : (s.endSlot k i seq).decRun d = s.decRun d := rfl

/-- A decode that ends gives up its decoder and its slot. -/
theorem State.endDecode_frees (d seq steps : Nat) : (s.endDecode d x seq steps).decRun d = none ∧
    ((s.endDecode d x seq steps).imgSrc x.src).slot x.slot = none ∧ ((s.endDecode d x seq steps).imgSrc x.src).done = (s.imgSrc x.src).done := by
  have hdec : DecodersAlone s ((s.setDec d none).setFld (R.IMG_DEC_STAT d) F.IMG_DEC_STAT_STEPS steps) :=
    (State.setDec_decodersAlone d none).setFld _ _ _
  obtain ⟨hslot, -, hdone⟩ := State.imgSrc_endSlot (s := (s.setDec d none).setFld (R.IMG_DEC_STAT d) F.IMG_DEC_STAT_STEPS steps) (k := x.src)
    (i := x.slot) seq
  refine ⟨?_, hslot, hdone.trans (by rw [hdec.imgSrc])⟩
  unfold State.endDecode
  rw [State.decRun_endSlot, State.decRun_setFld, State.decRun_setDec]

/-- The sample of a decode that ended waits for its record, and its decoder and slot are free. -/
theorem SampleEnds.frees {d seq steps : Nat} {y : ImgDone} (h : SampleEnds x.src y (s.endDecode d x seq steps) t) :
    t.decRun d = none ∧ (t.imgSrc x.src).slot x.slot = none ∧ (t.imgSrc x.src).done = (s.imgSrc x.src).done ++ [y] := by
  obtain ⟨hrun, hslot, hdone⟩ := State.endDecode_frees (s := s) (x := x) d seq steps
  exact ⟨(State.decRun_of_decs h.decs d).trans hrun, (h.slot _).trans hslot, by rw [h.done, hdone]⟩

section
variable {d : Fin 8} (hx : s.decRun d = some x) (hr : (s.imgSrc x.src).slot x.slot = some r)
include hx hr

/-- A decode within its budget ends with a sample of its frame's number, whether its memories had errors or not. -/
theorem exec_decodeComplete_ends {ecc : Bool}
    (hend : ecc = true ∨ s.decodeSteps x r ≤ s.fld (R.IMG_SRC_JPEG x.src) F.IMG_SRC_JPEG_DECODE_BUDGET) :
    ∃ t y steps, exec (.decodeComplete d ecc) s = .next t ∧ SampleEnds x.src y (s.endDecode d x r.seq steps) t ∧ y.seq = r.seq ∧
      (ecc = true → y.status = stIntegrity ∧ y.buf = none) := by
  simp only [State.decodeSteps] at hend
  show ∃ t y steps, execDecodeComplete d ecc s = _ ∧ _
  unfold execDecodeComplete
  simp only [hx, hr]
  by_cases hbad : ecc = true ∨ s.poisoned (s.slotAddr x.src x.slot) r.total = true
  · simp only [hbad, if_true]
    exact ⟨_, _, _, rfl, State.imgAbort_ends, rfl, fun _ => ⟨rfl, rfl⟩⟩
  · obtain ⟨hecc, -⟩ := not_or.mp hbad
    simp only [hbad, if_false, Nat.not_lt.mpr (hend.resolve_left hecc)]
    obtain ⟨y, hends, hseq, -⟩ := State.imgEnd_ends (s := s.endDecode d x r.seq _) (k := x.src) x.buf r.seq r.stamp _ _ _ _
    exact ⟨_, y, _, rfl, hends, hseq, fun h => absurd h hecc⟩

/-- A decode that needs more steps than its budget ends LATE, without its buffer (R156). -/
theorem exec_decodeBudgetExpiry_late (hover : s.fld (R.IMG_SRC_JPEG x.src) F.IMG_SRC_JPEG_DECODE_BUDGET < s.decodeSteps x r) :
    ∃ t y steps, exec (.decodeBudgetExpiry d) s = .next t ∧ SampleEnds x.src y (s.endDecode d x r.seq steps) t ∧ y.seq = r.seq ∧
      y.status = stLate ∧ y.buf = none := by
  simp only [State.decodeSteps] at hover
  show ∃ t y steps, execDecodeBudgetExpiry d s = _ ∧ _
  unfold execDecodeBudgetExpiry
  simp only [hx, hr, hover, if_true]
  exact ⟨_, _, _, rfl, State.imgAbort_ends, rfl, rfl, rfl⟩

theorem exec_decodeBudgetExpiry_within (hwithin : s.decodeSteps x r ≤ s.fld (R.IMG_SRC_JPEG x.src) F.IMG_SRC_JPEG_DECODE_BUDGET) :
    exec (.decodeBudgetExpiry d) s = .next s := by
  simp only [State.decodeSteps] at hwithin
  show execDecodeBudgetExpiry d s = _
  unfold execDecodeBudgetExpiry
  simp only [hx, hr, Nat.not_lt.mpr hwithin, if_false]

end

end Sys2Proof.Machine
end

section
/-! What the report of a read leaves of a chip-level unit's command: the errors that a read meets may furl cores and retire rows, but they leave
the oldest command of a queue its place and the tokenizer its counters (R162, R267, R466, R544, R547). -/

namespace Sys2Proof.Machine

/-- From s to t queue q has kept the number of its oldest command, and TOK_STAT reads as before. -/
def KeepsTok (q : Nat) (s t : State) : Prop := (t.head q).map Cmd.seq = (s.head q).map Cmd.seq ∧ t.reg R.TOK_STAT = s.reg R.TOK_STAT

theorem KeepsTok.refl (q : Nat) (s : State) : KeepsTok q s s := ⟨rfl, rfl⟩

theorem KeepsTok.head {q : Nat} {c : Cmd} {s t : State} (h : KeepsTok q s t) (hc : s.head q = some c) : ∃ d, t.head q = some d ∧ d.seq = c.seq := by
  simpa only [hc, Option.map_some, Option.map_eq_some_iff] using h.1

theorem KeepsTok.commands {q : Nat} {s t : State} (h : KeepsTok q s t) :
    t.fld R.TOK_STAT F.TOK_STAT_COMMANDS = s.fld R.TOK_STAT F.TOK_STAT_COMMANDS := congrArg F.TOK_STAT_COMMANDS.get h.2

variable {q : Nat} {s₀ : State}

theorem KeepsTok.either {t u : State} {p : Prop} [Decidable p] (ht : KeepsTok q s₀ t) (hu : KeepsTok q s₀ u) :
    KeepsTok q s₀ (if p then t else u) := by
  split
  · exact ht
  · exact hu

/-- An update of neither the registers nor the queues. -/
theorem KeepsTok.rest {t : State} (hk : KeepsTok q s₀ t) {mem : List (Nat × Byte)} {poison : List Nat} {time : TimeSt} {sched : SchedSt}
    {cores : List (Nat × Core)} {host : HostSt} {windows : List (Nat × List Window)} {spd : SpdSt} {ctl : CtlSt} {io : IoSt} {plumb : PlumbSt}
    {rep : RepSt} {recorder : RecSt} {staged : Option FabOwn} {hbm : HbmSt} {fab : FabSt} {kv : KvSt} {sol : SolSt} {chd : ChdSt} {det : DetSt}
    {img : ImgSt} {tok : TokSt} {pwr : PwrSt} {mgt : MgtSt} {sec : SecSt} {out : List Output} {freeCtr : Nat} {pending : List Instr} :
    KeepsTok q s₀ ⟨t.regs, mem, poison, time, t.queues, sched, cores, host, windows, spd, ctl, io, plumb, rep, recorder, staged, hbm, fab, kv, sol,
      chd, det, img, tok, pwr, mgt, sec, out, freeCtr, pending⟩ := hk

section
variable {s : State} (hk : KeepsTok q s₀ s)
include hk

/-! ### Registers, events and commands -/

theorem KeepsTok.setReg {off : Nat} {v : Word} (ho : R.TOK_STAT ≠ off := by decide) : KeepsTok q s₀ (s.setReg off v) :=
  ⟨hk.1, (s.reg_setReg_ne off _ v ho).trans hk.2⟩

theorem KeepsTok.setFld {off x : Nat} {f : Fld} (ho : R.TOK_STAT ≠ off := by decide) : KeepsTok q s₀ (s.setFld off f x) := hk.setReg ho

theorem KeepsTok.satAdd {off n : Nat} {f : Fld} (ho : R.TOK_STAT ≠ off := by decide) : KeepsTok q s₀ (s.satAdd off f n) := hk.setFld ho

theorem KeepsTok.wrapAdd {off n : Nat} {f : Fld} (ho : R.TOK_STAT ≠ off := by decide) : KeepsTok q s₀ (s.wrapAdd off f n) := hk.setFld ho

theorem KeepsTok.foldl {α : Type} {f : State → α → State} (hf : ∀ t x, KeepsTok q s₀ t → KeepsTok q s₀ (f t x)) {l : List α} :
    KeepsTok q s₀ (l.foldl f s) :=
  List.foldlRecOn l f (motive := KeepsTok q s₀) hk fun t h x _ => hf t x h

theorem KeepsTok.sends {t : State} (h : SendsOnly s t) : KeepsTok q s₀ t :=
  ⟨(congrArg (fun x : State => (x.head q).map Cmd.seq) h.1 :).trans hk.1, (h.reg _).trans hk.2⟩

theorem KeepsTok.withCause {i : Nat} {f : State → State} (hf : KeepsTok q s₀ s → KeepsTok q s₀ (f s)) : KeepsTok q s₀ (s.withCause i f) :=
  (hf hk).sends (State.irqEdge_sends _ _)

theorem KeepsTok.event {kind source : Nat} {d0 d1 : Word} : KeepsTok q s₀ (s.event kind source d0 d1) := by
  have hevt (i j : Nat) : R.TOK_STAT ≠ R.FLT_EVT i j := by unfold R.TOK_STAT R.FLT_EVT; omega
  unfold State.event
  extract_lets p i w1 s1 s2
  have hs1 : KeepsTok q s₀ s1 := (((hk.setReg (hevt i 0)).setReg (hevt i 1)).setReg (hevt i 2)).setReg (hevt i 3)
  have hs2 : KeepsTok q s₀ s2 := hs1.wrapAdd
  exact hs2.withCause fun h => h.setFld

theorem KeepsTok.updHead {p : Nat} {f : Cmd → Cmd} (hf : ∀ c, (f c).seq = c.seq := by exact fun _ => rfl) : KeepsTok q s₀ (s.updHead p f) := by
  refine ⟨Eq.trans ?_ hk.1, (State.updHead_reg _).trans hk.2⟩
  by_cases hp : q = p
  · subst hp
    cases hc : s.head q with
    | none =>
      have hnil : (s.queue q).cmds = [] := List.head?_eq_none_iff.mp hc
      simp only [State.updHead, hnil, hc]
    | some c => rw [State.head_updHead hc, Option.map_some, Option.map_some, hf]
  · rw [State.head, State.queue_updHead_ne hp, ← State.head]

theorem KeepsTok.ctxState {x st : Nat} : KeepsTok q s₀ (s.ctxState x st) :=
  hk.setFld (by unfold R.TOK_STAT R.SCH_CTX_STAT; omega)

theorem KeepsTok.freeCore {n : Nat} : KeepsTok q s₀ (s.freeCore n) := by
  refine ⟨(congrArg (Option.map Cmd.seq) (State.head_freeCore n q)).trans hk.1, (State.freeCore_sameRegs n _ ?_).trans hk.2⟩
  simp only [List.mem_cons, List.not_mem_nil, or_false, R.TOK_STAT, R.CORE_STATUS, R.SCH_CTX_STAT]
  omega

theorem KeepsTok.endOnCore {n : Nat} {st : BitVec 8} : KeepsTok q s₀ (s.endOnCore n st) := by
  unfold State.endOnCore
  split
  · exact hk
  · exact hk.updHead.freeCore

theorem KeepsTok.endCmd {p : Nat} {st : BitVec 8} : KeepsTok q s₀ (s.endCmd p st) := hk.updHead

theorem KeepsTok.setSaved {p : Nat} {x : Option Saved} : KeepsTok q s₀ (s.setSaved p x) := hk.rest

theorem KeepsTok.discardSuspended {p : Nat} {st : BitVec 8} : KeepsTok q s₀ (s.discardSuspended p st) := by
  unfold State.discardSuspended
  split
  · exact hk.endCmd.setSaved.ctxState
  · exact hk

theorem KeepsTok.contextSaveDone {n : Fin 16} : ∃ t, execContextSaveDone n s = .next t ∧ KeepsTok q s₀ t := by
  refine ⟨_, rfl, ?_⟩
  extract_lets k
  split
  · exact hk
  next p _ =>
    have hcnt : R.TOK_STAT ≠ R.SCH_CTX_CNT k.context := by unfold R.TOK_STAT R.SCH_CTX_CNT; omega
    have hload : R.TOK_STAT ≠ R.SCH_CANTON_LOAD (s.qCanton p) := by unfold R.TOK_STAT R.SCH_CANTON_LOAD; omega
    exact .either (((hk.setSaved.updHead.wrapAdd hcnt).setFld hcnt).satAdd hload).freeCore.ctxState hk

/-! ### Fuses and furls -/

theorem KeepsTok.fuseFull : KeepsTok q s₀ s.fuseFull := .either hk hk.setFld.event

theorem KeepsTok.burn {r : Nat} : KeepsTok q s₀ (s.burn r) := .either hk.fuseFull hk.rest

theorem KeepsTok.setRetired {p : Nat} : KeepsTok q s₀ (s.setRetired p) := hk.setFld

theorem KeepsTok.loseCore {n : Nat} : KeepsTok q s₀ (s.loseCore n) := by
  have hcore : R.TOK_STAT ≠ R.CORE_STATUS n := by unfold R.TOK_STAT R.CORE_STATUS; omega
  unfold State.loseCore
  extract_lets +onlyGivenNames -merge s1 s2 s3
  have hs3 : KeepsTok q s₀ s3 := (hk.setFld.setFld.setFld.setFld hcore).setFld hcore
  refine hs3.foldl fun t p ht => ?_
  split
  · exact .either ht.discardSuspended ht
  · exact ht

theorem KeepsTok.nextFurl : KeepsTok q s₀ s.nextFurl := by
  unfold State.nextFurl
  refine .either hk ?_
  split
  · exact hk
  next n cause rest _ =>
    extract_lets +onlyGivenNames -merge _ s0 out ev go noTest
    have hs0 : KeepsTok q s₀ s0 := hk.rest
    have hev (t : State) (p : Nat) (ht : KeepsTok q s₀ t) : KeepsTok q s₀ (ev t p) := ht.event
    have hgo (t : State) (p : Nat) (ht : KeepsTok q s₀ t) : KeepsTok q s₀ (go t p) := (hev t p ht).rest
    have hno : KeepsTok q s₀ (noTest s0) := hs0.rest.setFld
    split
    · refine .either (hgo _ _ hno) ?_
      split
      · exact hgo _ _ hs0
      · exact .either (hgo _ _ hno) (hev _ _ hs0).loseCore
    · split
      · exact hgo _ _ hs0
      · exact (hev _ _ hs0).loseCore

theorem KeepsTok.furl {n cause : Nat} : KeepsTok q s₀ (s.furl n cause) := by
  have hcore : R.TOK_STAT ≠ R.CORE_STATUS n := by unfold R.TOK_STAT R.CORE_STATUS; omega
  unfold State.furl
  refine .either hk ?_
  extract_lets +onlyGivenNames -merge p s0 s1 s2 s3 _ s4
  have hs0 : KeepsTok q s₀ s0 := by
    obtain ⟨t, ht, hsave⟩ := hk.contextSaveDone (n := Fin.ofNat 16 n)
    simp only [s0, ht]
    exact .either hsave hk
  have hs2 : KeepsTok q s₀ s2 := (hs0.endOnCore.setFld hcore).setRetired.satAdd
  have hs4 : KeepsTok q s₀ s4 := .rest (.either hs2 hs2.burn)
  refine .nextFurl (.rest ?_)
  split
  · exact .either (.either hs4.rest hs4.rest.setFld) hs4
  · exact hs4

theorem KeepsTok.nextRepair : KeepsTok q s₀ s.nextRepair := by
  unfold State.nextRepair
  split
  · exact hk
  · exact .either hk hk.setFld.setFld.setFld

theorem KeepsTok.repairColumn {b col : Nat} : KeepsTok q s₀ (s.repairColumn b col) :=
  .either (.either hk.event.furl hk.event) (.either hk.fuseFull hk.burn.rest.nextRepair)

theorem KeepsTok.columnHit {b col : Nat} : KeepsTok q s₀ (s.columnHit b col) := .either hk.rest.repairColumn hk.rest

/-! ### The errors of a read -/

theorem KeepsTok.eccCorr {core : Option Nat} {w e : Nat} : KeepsTok q s₀ (s.eccCorr core w e) := by
  have hbank : R.TOK_STAT ≠ R.SPD_BANK_STAT (bankOfKey w) := by unfold R.TOK_STAT R.SPD_BANK_STAT; omega
  unfold State.eccCorr
  extract_lets +onlyGivenNames -merge b s1 s2 _ s3
  have hs2 : KeepsTok q s₀ s2 := by
    unfold s2
    split
    · exact (hk.satAdd hbank).satAdd (by unfold R.TOK_STAT R.CORE_CNT; omega)
    · exact hk.satAdd hbank
  exact .columnHit (.either hs2 hs2.rest)

theorem KeepsTok.eccUncorr {w e : Nat} : KeepsTok q s₀ (s.eccUncorr w e) := by
  have hbank : R.TOK_STAT ≠ R.SPD_BANK_STAT (bankOfKey w) := by unfold R.TOK_STAT R.SPD_BANK_STAT; omega
  unfold State.eccUncorr
  extract_lets +onlyGivenNames -merge b s1 s2
  have hs2 : KeepsTok q s₀ s2 := ((hk.satAdd hbank).withCause fun h => h.setFld).setFld
  exact hs2.event.columnHit

theorem KeepsTok.eccRead {core : Option Nat} {w : Nat} : KeepsTok q s₀ (s.eccRead core w) := .either hk (.either hk.eccCorr hk.eccUncorr)

theorem KeepsTok.retireRow {row : Nat} : KeepsTok q s₀ (s.retireRow row) := .either hk (.either hk.setFld.event hk.rest)

theorem KeepsTok.hbmUncorr {us : List Nat} : KeepsTok q s₀ (s.hbmUncorr us) := by
  have hecc (k : Nat) : R.TOK_STAT ≠ R.HBM_STACK_ECC k := by unfold R.TOK_STAT R.HBM_STACK_ECC; omega
  unfold State.hbmUncorr
  split
  · exact hk
  next u l =>
    refine KeepsTok.foldl (KeepsTok.event (KeepsTok.setFld (KeepsTok.withCause ?_ fun h => h.setFld))) fun _ _ ht => ht.retireRow
    exact hk.foldl fun _ _ ht => ht.satAdd (hecc _)

theorem KeepsTok.noteRead {g : Agent} {a n : Nat} : KeepsTok q s₀ (s.noteRead g a n) := by
  unfold State.noteRead
  refine .either hk ?_
  split
  · exact hk.hbmUncorr
  · exact hk.foldl fun _ _ ht => ht.eccRead
  · exact hk

end

end Sys2Proof.Machine
end

section
/-! The tokenizer's commands (R162). -/

namespace Sys2Proof.Machine

variable {s t : State} {g : Agent} {n : Nat} {c : Cmd} {st : BitVec 8}

/-! ### Accesses of a chip-level unit -/

/-- Codes from 256 on own no bank, since OWNER holds 8 bits (R259): no access of their agents meets a handover. -/
theorem State.ownsBank_large (hg : 256 ≤ g.code) (b : Nat) : s.ownsBank g b = false := by
  have hlt : s.fld (R.SPD_BANK_OWNER b) F.SPD_BANK_OWNER_OWNER < 256 := Fld.get_lt _ _
  unfold State.ownsBank
  rw [beq_eq_false_iff_ne.mpr (by omega), Bool.false_and]

theorem State.hit_ne_wait (hg : 256 ≤ g.code) (w : Bool) (a : Nat) : s.hit g w a ≠ .wait := by
  unfold State.hit
  split
  · split_ifs <;> nofun
  · simp only [State.ownsBank_large hg, Bool.false_eq_true, if_false]
    split_ifs <;> nofun
  · nofun
  · nofun

theorem State.readMem_wait (hg : 256 ≤ g.code) (k : Nat) : ∀ a, (s.readMem g a k).wait = false := by
  have hbyte (a : Nat) : (s.readByte g a).wait = false := by
    unfold State.readByte
    split
    · rfl
    next h => exact absurd h (State.hit_ne_wait hg _ _)
    · rfl
  induction k with
  | zero => exact fun _ => rfl
  | succ k ih => exact fun a => by simp only [State.readMem, MemRead.append, hbyte, ih, Bool.or_self]

theorem State.writeMem_wait (hg : 256 ≤ g.code) (a : Nat) (l : List Byte) : (s.writeMem g a l).wait = false := by
  have hbyte (t : State) (a : Nat) (b : Byte) : (t.writeByte g a b).wait = false := by
    unfold State.writeByte
    split
    · rfl
    next h => exact absurd h (State.hit_ne_wait hg _ _)
    · rfl
  have hbytes : (s.writeBytes g a l).wait = false := by
    induction l generalizing s a with
    | nil => rfl
    | cons b l ih => simp only [State.writeBytes, hbyte, ih, Bool.or_self]
  unfold State.writeMem
  extract_lets x
  split
  · exact hbytes
  · exact hbytes

/-! ### The end of a unit's command -/

theorem State.head_setBusy (u inst : Nat) (b : Bool) : (s.setBusy u inst b).head n = s.head n :=
  (congrArg (fun x : State => x.head n) (State.setBusy_regsAlone u inst b) :)

theorem State.head_endUnit (hc : s.head n = some c) :
    (s.endUnit n st).head n = some { c with phase := .ended, status := worse st c.status, stop := s.now } := by
  unfold State.endUnit
  rw [State.head_setBusy]
  exact State.head_updHead hc

theorem State.head_rejectUnit (hc : s.head n = some c) :
    (s.rejectUnit n).head n = some { c with phase := .ended, status := worse stRejected c.status, start := c.acc, stop := c.acc } := by
  unfold State.rejectUnit
  rw [State.head_setBusy]
  exact State.head_updHead hc

theorem State.qInst_lt : s.qInst n < 4 := Fld.get_lt F.QUE_CFG_INSTANCE _

section
variable {q : Nat} {s₀ : State} (hk : KeepsTok q s₀ s)
include hk

theorem KeepsTok.memoryAlone (h : MemoryAlone s t) : KeepsTok q s₀ t :=
  ⟨(congrArg (Option.map Cmd.seq) (h.head q)).trans hk.1, (congrArg (fun x : State => x.reg R.TOK_STAT) h :).trans hk.2⟩

theorem KeepsTok.cmdFlags {fl : BitVec 24} : KeepsTok q s₀ (s.cmdFlags n fl) := hk.updHead

theorem KeepsTok.setBusy {u inst : Nat} {b : Bool} (hi : inst < 4) : KeepsTok q s₀ (s.setBusy u inst b) := by
  refine ⟨(congrArg (fun x : State => (x.head q).map Cmd.seq) (State.setBusy_regsAlone u inst b) :).trans hk.1,
    (State.setBusy_sameRegs u inst b _ ?_).trans hk.2⟩
  simp only [List.mem_cons, List.not_mem_nil, or_false, R.TOK_STAT, R.EDGE_STAT, R.KV_STAT, R.SOL_STAT, R.CTL_STAT]
  omega

theorem KeepsTok.endUnit : KeepsTok q s₀ (s.endUnit n st) := hk.endCmd.setBusy State.qInst_lt

theorem KeepsTok.rejectUnit : KeepsTok q s₀ (s.rejectUnit n) := hk.updHead.setBusy State.qInst_lt

end

/-! ### TOKENIZE -/

theorem State.onUnit_atUnit {q unit : Nat} (hat : s.atUnit q unit c = true) (f : Cmd → Nat → State) : s.onUnit q unit f = f c (s.qInst q) := by
  obtain ⟨hhead, hunit, hexecuting⟩ := State.atUnit_iff.mp hat
  unfold State.onUnit
  rw [hhead]
  exact if_pos ⟨hunit, hexecuting⟩

section
variable {q : BitVec 16} (hat : s.atUnit q.toNat 2 c = true) (done : Nat)
include hat

theorem exec_tokenize_rejects (hbad : c.opcode ≠ 1 ∨ c.pl 24 8 = 0) :
    exec (.tokenize q done []) s = .next ((s.rejectUnit q.toNat).wrapAdd R.TOK_STAT F.TOK_STAT_COMMANDS 1) := by
  refine congrArg Host.Outcome.next ((State.onUnit_atUnit hat _).trans ?_)
  exact if_pos (hbad.imp_right .inl)

/-- With a clean dictionary a command reads its text, writes its tokens and ends. -/
theorem exec_tokenize_ends (hop : c.opcode = 1) (hcap : c.pl 24 8 ≠ 0) (hzero : zeroBytes c.desc 56 8 = true) :
    ∃ g a len out bytes fl st, exec (.tokenize q done []) s = .next
      (((((s.noteRead g a len).writeMem g out bytes).state.cmdFlags q.toNat fl).endUnit q.toNat st).wrapAdd R.TOK_STAT F.TOK_STAT_COMMANDS 1) := by
  have hg : 256 ≤ (unitAgent 0x100 (s.qCanton q.toNat)).code := Nat.le_refl _
  have hexec : exec (.tokenize q done []) s = .next _ := congrArg Host.Outcome.next (State.onUnit_atUnit hat _)
  extract_lets n g len out cap again s1 x marked lim run w full fl at hexec
  have hread : x.1.wait = false := State.readMem_wait hg len (c.pl 0 8)
  have hwrite : w.wait = false := State.writeMem_wait hg _ _
  rw [if_neg (by simp [hop, cap, hcap, hzero]), hread, if_neg Bool.false_ne_true, hwrite, if_neg Bool.false_ne_true] at hexec
  exact ⟨g, _, _, _, _, _, _, hexec⟩

end

end Sys2Proof.Machine
end

section
open Sys2Proof Sys2Proof.Machine

/-- Settles O5, clause by clause; a live datagram meets the carrier as the recorder leaves the pipeline, and what a read of the tokenizer reports
leaves its command in place. No access of the tokenizer waits, so the memory's being at hand is not used. -/
theorem jpegFramesReachDecoders : Obligations.JpegFramesReachDecoders := by
  unfold Obligations.JpegFramesReachDecoders
  refine ⟨fun e stamp bytes s hof => exec_carrierDatagram_none hof,
    fun e stamp bytes p s hof hl => ⟨exec_carrierDatagram_badMagic hof hl, ?opens⟩,
    fun k i r s hr hc => ⟨fun hdue => ?dropped, fun hnot => ?waits⟩,
    fun d k i b rest r s hfree hq hr hpoison hcheck hb => ?starts,
    fun d ecc x r s hx hr => ⟨fun hend => ?ends, fun hover => ?late, fun hwithin => ?decodes⟩,
    fun q done c s hat => ⟨fun hop hcap hzero _ _ => ?tokenized, fun hbad => ?rejected⟩⟩
  case opens =>
    intro _ _ _ _ _ _ hfrag hudp hlen hmagic hversion hflags hzero hzero' hspan htotal hstream hact hport hclosed h0 h1 hcom hmax
    exact exec_carrierDatagram_opens hof hl ⟨hfrag, hudp, hlen, hmagic, hversion, hflags, hzero, hzero', hspan, htotal⟩ hstream rfl
      ⟨hact, hport, hclosed, h0, h1, hcom, hmax⟩
  case dropped => exact ⟨_, (exec_reassemblyTimeout_incomplete hr hc).trans (by rw [if_pos hdue]), State.dropReasm_ends⟩
  case waits => exact (exec_reassemblyTimeout_incomplete hr hc).trans (by rw [if_neg (Nat.not_le.mpr hnot)])
  case starts =>
    obtain ⟨hdec, hbuf, hqueue, hmem⟩ := State.takeDec_takes (s := s.dequeued k r rest) (k := k) (i := i) (b := b) d
      (jpegHead (s.bitstream k i r)).headSteps
    exact ⟨_, exec_decoderStart_starts hfree hq hr hpoison hcheck hb, hdec, hbuf, hqueue, hmem⟩
  case ends =>
    obtain ⟨t, y, steps, hexec, hends, hseq, hecc⟩ := exec_decodeComplete_ends hx hr (hend.imp_right And.left)
    obtain ⟨hrun, hslot, hdone⟩ := hends.frees
    exact ⟨t, y, hexec, hrun, hslot, hdone, hseq, hecc⟩
  case late =>
    obtain ⟨t, y, steps, hexec, hends, hy⟩ := exec_decodeBudgetExpiry_late hx hr hover
    obtain ⟨hrun, hslot, hdone⟩ := hends.frees
    exact ⟨t, y, hexec, hrun, hslot, hdone, hy⟩
  case decodes => exact exec_decodeBudgetExpiry_within hx hr hwithin
  case tokenized =>
    obtain ⟨hhead, -⟩ := State.atUnit_iff.mp hat
    obtain ⟨g, a, len, out, bytes, fl, st, hexec⟩ := exec_tokenize_ends hat done hop hcap hzero
    have hkeeps := (((KeepsTok.refl q.toNat s).noteRead (g := g) (a := a) (n := len)).memoryAlone (State.writeMem_memoryAlone g out bytes)).cmdFlags
      (n := q.toNat) (fl := fl)
    obtain ⟨d, hd, hseq⟩ := hkeeps.head hhead
    exact ⟨_, _, hexec, State.head_endUnit hd, rfl, hseq, (State.fld_wrapAdd_same _ _ _ _ (by decide)).trans (by rw [hkeeps.endUnit.commands])⟩
  case rejected =>
    obtain ⟨hhead, -⟩ := State.atUnit_iff.mp hat
    exact ⟨_, _, exec_tokenize_rejects hat done hbad, State.head_rejectUnit hhead, rfl, rfl,
      (State.fld_wrapAdd_same _ _ _ _ (by decide)).trans (by rw [(KeepsTok.refl q.toNat s).rejectUnit.commands])⟩

end
section
/-! What recording flags and errors on a core leaves behind and leaves alone (R33, R182, R201, R222, R226). -/

namespace Sys2Proof.Machine

variable {s t : State} {n : Nat}

/-- A form of an operation that has its effect on a core that executes. -/
theorem next_of_coreRuns (hr : s.coreRuns n = true) (t : State) : (Host.Outcome.next (if !s.coreRuns n then s else t) : Out) = .next t := by
  rw [hr]
  rfl

/-! ### Flags of the running command -/

theorem State.coreFlags_queuesAlone (n : Nat) (fl : BitVec 24) : QueuesAlone s (s.coreFlags n fl) := by
  unfold State.coreFlags
  split
  · exact State.updHead_queuesAlone
  · rfl

theorem State.coreFmt_queuesAlone (n : Nat) (fl : FmtFlags) : QueuesAlone s (s.coreFmt n fl) := by
  unfold State.coreFmt
  split
  · rfl
  · exact State.coreFlags_queuesAlone n _

/-! ### Errors of a core -/

variable (bitNo source column addr : Nat)

theorem State.withCause_frame {i : Nat} {f : State → State} (h : RegsAlone s (f s)) :
    SameMem s (s.withCause i f) ∧ (s.withCause i f).cores = s.cores :=
  ⟨SameMem.withCause h.rd, (congrArg State.cores (State.irqEdge_sends _ _).1 :).trans (congrArg State.cores h :)⟩

theorem State.coreErr_frame : SameMem s (s.coreErr n bitNo source column) ∧ (s.coreErr n bitNo source column).cores = s.cores := by
  refine State.withCause_frame ?_
  dsimp only
  split
  · exact (RegsAlone.setReg _ _).trans (.setReg _ _)
  · exact .setReg _ _

theorem State.reg_coreErr_ne {o : Nat} (h : o ≠ R.CORE_ERR n) (h' : o ≠ R.CORE_ERR_INFO n) :
    (s.coreErr n bitNo source column).reg o = s.reg o := by
  simp only [State.coreErr, State.withCause_reg]
  split <;> simp only [State.reg_setReg_ne _ _ _ _ h, State.reg_setReg_ne _ _ _ _ h']

theorem State.reg_coreErr : (s.coreErr n bitNo source column).reg (R.CORE_ERR n) = s.reg (R.CORE_ERR n) ||| BitVec.ofNat 64 (2 ^ bitNo) := by
  have hinfo : R.CORE_ERR n ≠ R.CORE_ERR_INFO n := by unfold R.CORE_ERR R.CORE_ERR_INFO; omega
  simp only [State.coreErr, State.withCause_reg]
  split <;> simp only [State.reg_setReg_ne _ _ _ _ hinfo, State.reg_setReg_same]

theorem State.coreErr_sets {b : Nat} (hb : b < 64) : ((s.coreErr n b source column).reg (R.CORE_ERR n)).getLsbD b = true := by
  rw [State.reg_coreErr, BitVec.getLsbD_or, BitVec.getLsbD_ofNat, Nat.testBit_two_pow_self]
  simp [hb]

/-- Capturing the address of an access error changes CORE_ERR_ADDR alone. -/
theorem State.coreErrAddr_alone : RegsAlone s (s.coreErrAddr n addr) ∧ SameRegs [R.CORE_ERR_ADDR n] s (s.coreErrAddr n addr) := by
  unfold State.coreErrAddr
  split
  · exact ⟨.refl s, .refl _ s⟩
  · exact ⟨.setReg _ _, (SameRegs.refl _ s).setReg _ _ (by simp)⟩

theorem State.coreErrAddr_captures (h5 : (s.reg (R.CORE_ERR n)).getLsbD ceAccessDenied = false)
    (h6 : (s.reg (R.CORE_ERR n)).getLsbD ceAddrUnmapped = false) : ((s.coreErrAddr n addr).reg (R.CORE_ERR_ADDR n)).toNat = addr % 2 ^ 48 := by
  have hlt : addr % 2 ^ 48 < 2 ^ 48 := Nat.mod_lt _ (by decide)
  rw [State.coreErrAddr, h5, h6, if_neg (by decide), State.reg_setReg_same, BitVec.toNat_ofNat, Nat.mod_eq_of_lt (by omega)]

/-- An access that is denied is recorded in CORE_ERR, and its address if it is the first access error (R226). -/
theorem State.coreDenied_records : SameMem s (s.coreDenied n source addr) ∧ (s.coreDenied n source addr).cores = s.cores ∧
    ((s.coreDenied n source addr).reg (R.CORE_ERR n)).getLsbD ceAccessDenied = true ∧
    ((s.reg (R.CORE_ERR n)).getLsbD ceAccessDenied = false → (s.reg (R.CORE_ERR n)).getLsbD ceAddrUnmapped = false →
      ((s.coreDenied n source addr).reg (R.CORE_ERR_ADDR n)).toNat = addr % 2 ^ 48) := by
  have hq := State.coreFlags_queuesAlone (s := (s.coreErrAddr n addr).coreErr n ceAccessDenied source 0) n (flagBit fgAccessDenied)
  obtain ⟨hmem, hcores⟩ := State.coreErr_frame (s := s.coreErrAddr n addr) (n := n) ceAccessDenied source 0
  obtain ⟨halone, -⟩ := State.coreErrAddr_alone (s := s) (n := n) addr
  have haddr : R.CORE_ERR_ADDR n ≠ R.CORE_ERR n ∧ R.CORE_ERR_ADDR n ≠ R.CORE_ERR_INFO n := by
    unfold R.CORE_ERR R.CORE_ERR_INFO R.CORE_ERR_ADDR; omega
  refine ⟨(SameMem.trans halone.rd hmem).trans hq.sameMem, (hq.cores.trans hcores).trans (congrArg State.cores halone :), ?_, fun h5 h6 => ?_⟩
  · unfold State.coreDenied
    rw [hq.reg]
    exact State.coreErr_sets _ _ (by decide)
  · unfold State.coreDenied
    rw [hq.reg, State.reg_coreErr_ne _ _ _ haddr.1 haddr.2]
    exact State.coreErrAddr_captures _ h5 h6

theorem State.coreFmtIllegal_records : SameMem s (s.coreFmtIllegal n source) ∧ (s.coreFmtIllegal n source).cores = s.cores ∧
    ((s.coreFmtIllegal n source).reg (R.CORE_ERR n)).getLsbD ceFmtIllegal = true := by
  have hq := State.coreFmt_queuesAlone (s := s.coreErr n ceFmtIllegal source 0) n flagFmtIllegal
  obtain ⟨hmem, hcores⟩ := State.coreErr_frame (s := s) (n := n) ceFmtIllegal source 0
  refine ⟨hmem.trans hq.sameMem, hq.cores.trans hcores, ?_⟩
  unfold State.coreFmtIllegal
  rw [hq.reg]
  exact State.coreErr_sets _ _ (by decide)

end Sys2Proof.Machine
end

section
/-! Operations of the engines that stop at the check of their operands (R182, R201, R226). -/

namespace Sys2Proof.Machine

variable {s : State} {n : Nat} {c : Check}

/-- An engine operation whose destination's check says c has stopped: it wrote nothing and its error is recorded. -/
def EngineStopped (n : Nat) (c : Check) (s t : State) : Prop :=
  SameMem s t ∧ t.cores = s.cores ∧ (c = .illegal → (t.reg (R.CORE_ERR n)).getLsbD ceFmtIllegal = true) ∧
    ∀ x, c = .denied x → (s.reg (R.CORE_ERR n)).getLsbD ceFmtIllegal = false → (t.reg (R.CORE_ERR n)).getLsbD ceFmtIllegal = false →
      (t.reg (R.CORE_ERR n)).getLsbD ceAccessDenied = true ∧
      ((s.reg (R.CORE_ERR n)).getLsbD ceAccessDenied = false → (s.reg (R.CORE_ERR n)).getLsbD ceAddrUnmapped = false →
        (t.reg (R.CORE_ERR_ADDR n)).toNat = x % 2 ^ 48)

/-- A check that stops an operation, joined with any other, stops it: a denied address may give way to an illegal operand. -/
theorem Check.and_stops (hgo : c ≠ .go) (hwait : c ≠ .wait) (e : Check) : c.and e = c ∨ c.and e = .illegal := by
  cases c with
  | go => exact absurd rfl hgo
  | wait => exact absurd rfl hwait
  | illegal => exact .inl rfl
  | denied x =>
    cases e with
    | illegal => exact .inr rfl
    | go | wait | denied _ => exact .inl rfl

theorem State.engineStop_stopped (hgo : c ≠ .go) (hwait : c ≠ .wait) (source : Nat) (e : Check) :
    EngineStopped n c s (s.engineStop n source (c.and e)) := by
  obtain ⟨hmem, hcores, hill⟩ := State.coreFmtIllegal_records (s := s) (n := n) source
  have hillegal : EngineStopped n c s (s.engineStop n source .illegal) :=
    ⟨hmem, hcores, fun _ => hill, fun _ _ _ hno => absurd (hill.symm.trans hno) (by decide)⟩
  rcases Check.and_stops hgo hwait e with he | he
  · rw [he]
    cases c with
    | go => exact absurd rfl hgo
    | wait => exact absurd rfl hwait
    | illegal => exact hillegal
    | denied x =>
      obtain ⟨hmem', hcores', hset, hcap⟩ := State.coreDenied_records (s := s) (n := n) source x
      refine ⟨hmem', hcores', nofun, fun y hy _ _ => ?_⟩
      cases hy
      exact ⟨hset, hcap⟩
  · rw [he]
    exact hillegal

theorem Check.and_ne_go {e : Check} (hgo : c ≠ .go) (hwait : c ≠ .wait) : c.and e ≠ .go ∧ c.and e ≠ .wait := by
  rcases Check.and_stops hgo hwait e with h | h <;> rw [h]
  · exact ⟨hgo, hwait⟩
  · exact ⟨nofun, nofun⟩

section
variable {dst src1 : List Word} {rnd : Rnd} {stream : BitVec 32}
  (hgo : s.checkOperand n (descOf dst) vecWrites (descOf dst).rows ≠ .go) (hwait : s.checkOperand n (descOf dst) vecWrites (descOf dst).rows ≠ .wait)
include hgo hwait

theorem State.vecElem_stops (src2 : Option (List Word)) (useDst slow abs1 neg2 row2 : Bool) (op : Val → Val → Val → Val) :
    EngineStopped n (s.checkOperand n (descOf dst) vecWrites (descOf dst).rows) s
      (s.vecElem n dst src1 src2 useDst slow abs1 neg2 row2 rnd stream op) := by
  unfold State.vecElem
  extract_lets d a k chk2
  obtain ⟨hg, hw⟩ := Check.and_ne_go (e := (s.vecCheck n a k).and chk2) hgo hwait
  split
  · contradiction
  · contradiction
  · exact State.engineStop_stopped hgo hwait _ _

theorem State.vecReduce_stops (acc : Bool) (red : List Val → Val × FmtFlags) (comb : Val → Val → Val) :
    EngineStopped n (s.checkOperand n (descOf dst) vecWrites (descOf dst).rows) s (s.vecReduce n dst src1 acc rnd stream red comb) := by
  unfold State.vecReduce
  extract_lets d a k
  obtain ⟨hg, hw⟩ := Check.and_ne_go (e := s.checkOperand n a vecReads k) hgo hwait
  split
  · contradiction
  · contradiction
  · exact State.engineStop_stopped hgo hwait _ _

end

end Sys2Proof.Machine
end

section
/-! What each form of the vector engine does on a core that executes (R210 to R214). -/

namespace Sys2Proof.Machine

variable {n : Fin 16} {dst src1 src2 : BitVec 8} {imm : BitVec 6} {rnd : Rnd} {s : State} (hr : s.coreRuns n = true)
include hr

theorem exec_vecAdd : exec (.vecAdd n dst src1 src2 imm rnd) s =
    .next (s.vecTwo n (s.desc n dst.toNat) (s.desc n src1.toNat) (some (s.desc n src2.toNat)) false imm rnd (s.srStream n) (fun x y _ => x.add y)) :=
  next_of_coreRuns hr _

theorem exec_vecMul : exec (.vecMul n dst src1 src2 imm rnd) s =
    .next (s.vecTwo n (s.desc n dst.toNat) (s.desc n src1.toNat) (some (s.desc n src2.toNat)) false imm rnd (s.srStream n) (fun x y _ => x.mul y)) :=
  next_of_coreRuns hr _

theorem exec_vecFma : exec (.vecFma n dst src1 src2 imm rnd) s =
    .next (s.vecTwo n (s.desc n dst.toNat) (s.desc n src1.toNat) (some (s.desc n src2.toNat)) true imm rnd (s.srStream n) (fun x y z => (x.mul y).add z)) :=
  next_of_coreRuns hr _

theorem exec_vecMin : exec (.vecMin n dst src1 src2 imm rnd) s =
    .next (s.vecTwo n (s.desc n dst.toNat) (s.desc n src1.toNat) (some (s.desc n src2.toNat)) false imm rnd (s.srStream n) (fun x y _ => x.min y)) :=
  next_of_coreRuns hr _

theorem exec_vecMax : exec (.vecMax n dst src1 src2 imm rnd) s =
    .next (s.vecTwo n (s.desc n dst.toNat) (s.desc n src1.toNat) (s.maxSrc2 n src2) false imm rnd (s.srStream n) (fun x y _ => x.max y)) :=
  next_of_coreRuns hr _

theorem exec_vecCvt : exec (.vecCvt n dst src1 src2 imm rnd) s =
    .next (s.vecElem n (s.desc n dst.toNat) (s.desc n src1.toNat) none false false (imm.getLsbD 2) false false rnd (s.srStream n) (fun x _ _ => x)) :=
  next_of_coreRuns hr _

theorem exec_vecExp : exec (.vecExp n dst src1 src2 imm rnd) s =
    .next (s.vecFun n (s.desc n dst.toNat) (s.desc n src1.toNat) imm rnd (s.srStream n) fnExp) :=
  next_of_coreRuns hr _

theorem exec_vecLog : exec (.vecLog n dst src1 src2 imm rnd) s =
    .next (s.vecFun n (s.desc n dst.toNat) (s.desc n src1.toNat) imm rnd (s.srStream n) fnLog) :=
  next_of_coreRuns hr _

theorem exec_vecRecip : exec (.vecRecip n dst src1 src2 imm rnd) s =
    .next (s.vecFun n (s.desc n dst.toNat) (s.desc n src1.toNat) imm rnd (s.srStream n) fnRecip) :=
  next_of_coreRuns hr _

theorem exec_vecRsqrt : exec (.vecRsqrt n dst src1 src2 imm rnd) s =
    .next (s.vecFun n (s.desc n dst.toNat) (s.desc n src1.toNat) imm rnd (s.srStream n) fnRsqrt) :=
  next_of_coreRuns hr _

theorem exec_vecTanh : exec (.vecTanh n dst src1 src2 imm rnd) s =
    .next (s.vecFun n (s.desc n dst.toNat) (s.desc n src1.toNat) imm rnd (s.srStream n) fnTanh) :=
  next_of_coreRuns hr _

theorem exec_vecSigmoid : exec (.vecSigmoid n dst src1 src2 imm rnd) s =
    .next (s.vecFun n (s.desc n dst.toNat) (s.desc n src1.toNat) imm rnd (s.srStream n) fnSigmoid) :=
  next_of_coreRuns hr _

theorem exec_vecGelu : exec (.vecGelu n dst src1 src2 imm rnd) s =
    .next (s.vecFun n (s.desc n dst.toNat) (s.desc n src1.toNat) imm rnd (s.srStream n) fnGelu) :=
  next_of_coreRuns hr _

theorem exec_vecRsum : exec (.vecRsum n dst src1 src2 imm rnd) s =
    .next (s.vecReduce n (s.desc n dst.toNat) (s.desc n src1.toNat) (imm.getLsbD 0) rnd (s.srStream n) vecSum (fun x y => x.add y)) :=
  next_of_coreRuns hr _

theorem exec_vecRmax : exec (.vecRmax n dst src1 src2 imm rnd) s =
    .next (s.vecReduce n (s.desc n dst.toNat) (s.desc n src1.toNat) (imm.getLsbD 0) rnd (s.srStream n) (fun l => (vecMaxOf l, 0)) (fun x y => x.max y)) :=
  next_of_coreRuns hr _

theorem exec_vecSmstat : exec (.vecSmstat n dst src1 src2 imm rnd) s =
    .next (s.vecSmstat n (s.desc n dst.toNat) (s.desc n src1.toNat) (s.auxDesc n (s.desc n dst.toNat))) :=
  next_of_coreRuns hr _

theorem exec_vecSmlse : exec (.vecSmlse n dst src1 src2 imm rnd) s =
    .next (s.vecSmlse n (s.desc n dst.toNat) (s.desc n src1.toNat) rnd (s.srStream n)) :=
  next_of_coreRuns hr _

theorem exec_vecNstat : exec (.vecNstat n dst src1 src2 imm rnd) s =
    .next (s.vecNstat n (s.desc n dst.toNat) (s.desc n src1.toNat) rnd (s.srStream n)) :=
  next_of_coreRuns hr _

theorem exec_vecBquant : exec (.vecBquant n dst src1 src2 imm rnd) s =
    .next (s.vecBquant n (s.desc n dst.toNat) (s.desc n src1.toNat) (s.auxDesc n (s.desc n dst.toNat)) rnd (s.srStream n)) :=
  next_of_coreRuns hr _

end Sys2Proof.Machine
end

section
open Sys2Proof Sys2Proof.Machine

/-- Settles O12: every one of these operations is an element-wise operation or a reduction, which the destination's check stops. -/
theorem enginesStopOnIllegalOperands : Obligations.EnginesStopOnIllegalOperands := by
  unfold Obligations.EnginesStopOnIllegalOperands
  intro n dst src1 src2 imm rnd s hr d stopped hgo hwait
  exact ⟨⟨_, exec_vecAdd hr, State.vecElem_stops hgo hwait ..⟩, ⟨_, exec_vecMul hr, State.vecElem_stops hgo hwait ..⟩,
    ⟨_, exec_vecFma hr, State.vecElem_stops hgo hwait ..⟩, ⟨_, exec_vecMax hr, State.vecElem_stops hgo hwait ..⟩,
    ⟨_, exec_vecMin hr, State.vecElem_stops hgo hwait ..⟩, ⟨_, exec_vecCvt hr, State.vecElem_stops hgo hwait ..⟩,
    ⟨_, exec_vecExp hr, State.vecElem_stops hgo hwait ..⟩, ⟨_, exec_vecLog hr, State.vecElem_stops hgo hwait ..⟩,
    ⟨_, exec_vecRecip hr, State.vecElem_stops hgo hwait ..⟩, ⟨_, exec_vecRsqrt hr, State.vecElem_stops hgo hwait ..⟩,
    ⟨_, exec_vecTanh hr, State.vecElem_stops hgo hwait ..⟩, ⟨_, exec_vecSigmoid hr, State.vecElem_stops hgo hwait ..⟩,
    ⟨_, exec_vecGelu hr, State.vecElem_stops hgo hwait ..⟩, ⟨_, exec_vecRsum hr, State.vecReduce_stops hgo hwait ..⟩,
    ⟨_, exec_vecRmax hr, State.vecReduce_stops hgo hwait ..⟩⟩

end
section
/-! Reads of the vector engine that report nothing, and its results on their way to the destination (R184 to R187, R212). -/

namespace Sys2Proof.Machine

variable {s : State} {n : Nat} {d a : Desc} {k : Nat} {f : Fmt} {rnd : Rnd}

/-- A quiet read gives the elements of the source, sets at most format flags, and leaves the state. -/
theorem State.vecRead_quiet (h : s.quietRead n d (d.rowsFor k)) : ∃ fl, s.vecRead n d k = (⟨s.vecVals n d k, fl, false⟩, s) := by
  obtain ⟨hbad, hstate⟩ := h
  refine ⟨(decodeAll (d.format.getD .fp32) ((s.readOperand n d (d.rowsFor k)).1.codes.take k)).2, ?_⟩
  simp only [State.vecRead, State.vecVals, hbad, hstate]

/-- Only the flags of a NaN result depend on the destination; its code is the rounded one (R186, R212). -/
theorem vecOut_code (draw : Nat) (v : Val) : (vecOut f rnd draw v).1 = (f.encode rnd draw v).1 := by
  unfold vecOut
  extract_lets r
  split <;> rfl

/-- The results of an operation reach the destination, each rounded with its own draw. -/
theorem State.vecWrite_codes (hf : d.format = some f) (fl : FmtFlags) (vs : List Val) :
    ∃ fl', s.vecWrite n d rnd (s.srStream n) fl vs = (s.writeOperand n d d.rows (s.vecCodes n f rnd vs)).coreFmt n fl' := by
  have hcodes : s.vecCodes n f rnd vs = ((vs.zip (List.range vs.length)).map (fun p =>
      vecOut f rnd (srDraw (s.core n).seed ((s.srStream n).setWidth 64) (BitVec.ofNat 64 p.2)) p.1)).map Prod.fst := by
    rw [List.map_map]
    exact List.map_congr_left fun p _ => (vecOut_code _ _).symm
  rw [hcodes]
  simp only [State.vecWrite, hf, Option.getD_some]
  exact ⟨_, rfl⟩

theorem State.vecWrite_wrote (hf : d.format = some f) (fl : FmtFlags) (vs : List Val) (e : Fmt) (slow : Bool) :
    VecWrote n d (s.vecCodes n f rnd vs) s ((s.vecWrite n d rnd (s.srStream n) fl vs).vecBusy n e slow k) := by
  obtain ⟨fl', hw⟩ := State.vecWrite_codes (s := s) (n := n) (rnd := rnd) hf fl vs
  rw [hw]
  exact ⟨fl', _, rfl⟩

end Sys2Proof.Machine
end

section
/-! Element-wise operations and elementary functions of the vector engine (R210 to R212). -/

namespace Sys2Proof.Machine

variable {s : State} {n : Nat} {dst src1 : List Word} {src2 : Option (List Word)} {f : Fmt} {rnd : Rnd} {useDst slow abs1 neg2 row2 : Bool}
  {op : Val → Val → Val → Val}

/-- Element i of the first source, as its magnitude with ABS1. -/
def State.vecFirst (s : State) (n : Nat) (a : Desc) (k : Nat) (abs1 : Bool) (i : Nat) : Val :=
  let x := (s.vecVals n a k).getD i valZero
  if abs1 then x.abs else x

/-- The elements that a second source gives: one per row of the destination with ROW2, else one per element. -/
def secondElems (d : Desc) (row2 : Bool) : Nat := if row2 then d.rows else d.elems

/-- The second operand of element i: of the row with ROW2, negated with NEG2; +0 where there is no second source. -/
def State.vecSecond (s : State) (n : Nat) (d : Desc) (src2 : Option (List Word)) (neg2 row2 : Bool) (i : Nat) : Val :=
  match src2 with
  | none => valZero
  | some w =>
    let y := (s.vecVals n (descOf w) (secondElems d row2)).getD (if row2 then i / d.d0 else i) valZero
    if neg2 then y.neg else y

/-- The present element i of the destination, where the operation takes it. -/
def State.vecPresent (s : State) (n : Nat) (d : Desc) (useDst : Bool) (i : Nat) : Val :=
  if useDst then (s.vecVals n d d.elems).getD i valZero else valZero

/-- A second source whose checks pass and whose reading reports nothing. -/
structure SecondReads (s : State) (n : Nat) (d b : Desc) (row2 : Bool) : Prop where
  check : s.vecCheck n b (secondElems d row2) = .go
  column : row2 = true → b.d0 = 1
  quiet : s.quietRead n b (b.rowsFor (secondElems d row2))

theorem State.vecElem_wrote (hf : (descOf dst).format = some f) (hd : s.checkOperand n (descOf dst) vecWrites (descOf dst).rows = .go)
    (ha : s.vecCheck n (descOf src1) (descOf dst).elems = .go) (hqa : s.quietRead n (descOf src1) ((descOf src1).rowsFor (descOf dst).elems))
    (hb : ∀ w ∈ src2, SecondReads s n (descOf dst) (descOf w) row2)
    (hqd : useDst = true → s.quietRead n (descOf dst) ((descOf dst).rowsFor (descOf dst).elems)) :
    VecWrote n (descOf dst) (s.vecCodes n f rnd ((List.range (descOf dst).elems).map fun i =>
        op (s.vecFirst n (descOf src1) (descOf dst).elems abs1 i) (s.vecSecond n (descOf dst) src2 neg2 row2 i) (s.vecPresent n (descOf dst) useDst i)))
      s (s.vecElem n dst src1 src2 useDst slow abs1 neg2 row2 rnd (s.srStream n) op) := by
  obtain ⟨fx, hx⟩ := State.vecRead_quiet hqa
  have hz : ∃ fz vz, (if useDst then s.vecRead n (descOf dst) (descOf dst).elems else ({}, s)) = (⟨vz, fz, false⟩, s) ∧
      ∀ i, vz.getD i valZero = s.vecPresent n (descOf dst) useDst i := by
    cases useDst with
    | false => exact ⟨_, _, rfl, fun i => rfl⟩
    | true =>
      obtain ⟨fz, hz⟩ := State.vecRead_quiet (hqd rfl)
      exact ⟨fz, _, hz, fun i => rfl⟩
  obtain ⟨fz, vz, hz, hpresent⟩ := hz
  cases src2 with
  | none =>
    simp only [State.vecElem, hd, ha, Check.and, hx, hz, Bool.or_self, Bool.false_eq_true, if_false, Option.isSome_none, Bool.and_false, hpresent,
      List.getD_nil]
    exact State.vecWrite_wrote hf _ _ _ _
  | some w =>
    obtain ⟨hcheck, hcol, hquiet⟩ := hb w rfl
    obtain ⟨fy, hy⟩ := State.vecRead_quiet hquiet
    have hchk : (if row2 then (if (descOf w).d0 = 1 then s.vecCheck n (descOf w) (descOf dst).rows else .illegal)
        else s.vecCheck n (descOf w) (descOf dst).elems) = .go := by
      cases row2 with
      | false => exact hcheck
      | true => exact (if_pos (hcol rfl)).trans hcheck
    simp only [secondElems] at hy
    simp only [State.vecElem, hd, ha, hchk, Check.and, hx, hy, hz, Bool.or_self, Bool.false_eq_true, if_false, Option.isSome_some, Bool.and_true,
      hpresent]
    exact State.vecWrite_wrote hf _ _ _ _

end Sys2Proof.Machine
end

section
open Sys2Proof Sys2Proof.Machine

/-- Settles O10: each form is an element-wise operation of one source, or of two with the modifiers of its IMM field. -/
theorem vectorElementwiseOperations : Obligations.VectorElementwiseOperations := by
  unfold Obligations.VectorElementwiseOperations
  intro n dst src1 src2 imm rnd f s hr d a b k k2 hf hd ha hqa u
  have hone {slow : Bool} {fn : Val → Val} : VecWrote n d (s.vecCodes n f rnd ((List.range k).map fun i => fn (u i))) s
      (s.vecElem n (s.desc n dst.toNat) (s.desc n src1.toNat) none false slow (imm.getLsbD 2) false false rnd (s.srStream n) fun x _ _ => fn x) :=
    State.vecElem_wrote (op := fun x _ _ => fn x) hf hd ha hqa nofun nofun
  refine ⟨fun hb hcol hqb hqd => ?two, fun hnone => ?zero, ⟨_, exec_vecCvt hr, hone (fn := id)⟩, ⟨_, exec_vecExp hr, hone⟩,
    ⟨_, exec_vecLog hr, hone⟩, ⟨_, exec_vecRecip hr, hone⟩, ⟨_, exec_vecRsqrt hr, hone⟩, ⟨_, exec_vecTanh hr, hone⟩,
    ⟨_, exec_vecSigmoid hr, hone⟩, ⟨_, exec_vecGelu hr, hone⟩⟩
  case two =>
    intro v w out
    have hsecond : ∀ x ∈ some (s.desc n src2.toNat), SecondReads s n d (descOf x) (imm.getLsbD 1) := by
      rintro _ ⟨⟩
      exact ⟨hb, hcol, hqb⟩
    have htwo {useDst : Bool} {op : Val → Val → Val → Val} := State.vecElem_wrote (rnd := rnd) (useDst := useDst) (slow := false)
      (abs1 := imm.getLsbD 2) (neg2 := imm.getLsbD 0) (op := op) hf hd ha hqa hsecond fun _ => hqd
    refine ⟨⟨_, exec_vecAdd hr, htwo⟩, ⟨_, exec_vecMul hr, htwo⟩, ⟨_, exec_vecMin hr, htwo⟩, fun hsome => ⟨_, exec_vecMax hr, ?_⟩,
      ⟨_, exec_vecFma hr, htwo⟩⟩
    rw [State.maxSrc2, if_neg hsome]
    exact htwo
  case zero =>
    refine ⟨_, exec_vecMax hr, ?_⟩
    rw [State.maxSrc2, if_pos hnone]
    exact State.vecElem_wrote (op := fun x y _ => x.max y) hf hd ha hqa nofun nofun

end
section
/-! Reductions, statistics and block quantisation of the vector engine (R189, R213, R214). -/

namespace Sys2Proof.Machine

variable {s : State} {n : Nat} {dst src1 w : List Word} {f : Fmt} {rnd : Rnd}

/-- Row i of values in rows of k. -/
def rowOf (l : List Val) (k i : Nat) : List Val := (l.drop (i * k)).take k

theorem valRows_eq (k m : Nat) : ∀ l, valRows k l m = (List.range m).map (rowOf l k) := by
  induction m with
  | zero => exact fun _ => rfl
  | succ m ih =>
    intro l
    rw [valRows, ih, List.range_succ_eq_map, List.map_cons, List.map_map]
    have hhead : rowOf l k 0 = l.take k := by rw [rowOf, Nat.zero_mul, List.drop_zero]
    have htail (i : Nat) : rowOf (l.drop k) k i = rowOf l k (i + 1) := by rw [rowOf, rowOf, List.drop_drop, Nat.succ_mul, Nat.add_comm]
    rw [hhead]
    exact congrArg _ (List.map_congr_left fun i _ => htail i)

theorem zip_map_range {α : Type} (g : Nat → α) (k : Nat) : ((List.range k).map g).zip (List.range k) = (List.range k).map fun i => (g i, i) := by
  have h := List.zip_map' (f := g) (g := id) (l := List.range k)
  rwa [List.map_id] at h

/-! ### RSUM and RMAX -/

theorem State.vecReduce_wrote {acc : Bool} {red : List Val → Val × FmtFlags} {comb : Val → Val → Val} (hf : (descOf dst).format = some f)
    (hd : s.checkOperand n (descOf dst) vecWrites (descOf dst).rows = .go) (ha : s.checkOperand n (descOf src1) vecReads (descOf dst).elems = .go)
    (hqa : s.quietRead n (descOf src1) ((descOf src1).rowsFor ((descOf dst).elems * (descOf src1).d0)))
    (hqd : s.quietRead n (descOf dst) ((descOf dst).rowsFor (descOf dst).elems)) :
    VecWrote n (descOf dst) (s.vecCodes n f rnd ((List.range (descOf dst).elems).map fun i =>
        let x := (red (rowOf (s.vecVals n (descOf src1) ((descOf dst).elems * (descOf src1).d0)) (descOf src1).d0 i)).1
        if acc then comb ((s.vecVals n (descOf dst) (descOf dst).elems).getD i valZero) x else x))
      s (s.vecReduce n dst src1 acc rnd (s.srStream n) red comb) := by
  obtain ⟨fx, hx⟩ := State.vecRead_quiet hqa
  obtain ⟨fz, hz⟩ := State.vecRead_quiet hqd
  simp only [State.vecReduce, hd, ha, Check.and, hx, hz, valRows_eq, List.map_map, zip_map_range, Function.comp_def]
  cases acc <;> exact State.vecWrite_wrote hf _ _ _ _

/-! ### SMLSE, NSTAT and SMSTAT -/

/-- Pair i of values in pairs (log 29). -/
def pairOf (l : List Val) (i : Nat) : Val × Val := (l.getD (2 * i) valZero, l.getD (2 * i + 1) valZero)

theorem State.vecSmlse_wrote (hf : (descOf dst).format = some f) (hpairs : (descOf src1).f32Pairs = true)
    (hd : s.checkOperand n (descOf dst) vecWrites (descOf dst).rows = .go) (ha : s.checkOperand n (descOf src1) vecReads (descOf dst).elems = .go)
    (hqa : s.quietRead n (descOf src1) ((descOf src1).rowsFor (2 * (descOf dst).elems))) :
    VecWrote n (descOf dst) (s.vecCodes n f rnd ((List.range (descOf dst).elems).map fun i =>
        let p := pairOf (s.vecVals n (descOf src1) (2 * (descOf dst).elems)) i
        if p.2.isZero then .inf true else p.1.add (fnLog p.2)))
      s (s.vecSmlse n dst src1 rnd (s.srStream n)) := by
  obtain ⟨fx, hx⟩ := State.vecRead_quiet hqa
  simp only [State.vecSmlse, hpairs, hd, ha, Check.and, hx, Bool.not_true, Bool.false_eq_true, if_false]
  exact State.vecWrite_wrote hf _ _ _ _

theorem State.vecNstat_wrote (hf : (descOf dst).format = some f) (hpair : (descOf dst).d0 = 2)
    (hd : s.checkOperand n (descOf dst) vecWrites (descOf dst).rows = .go) (ha : s.checkOperand n (descOf src1) vecReads (descOf dst).rows = .go)
    (hqa : s.quietRead n (descOf src1) ((descOf src1).rowsFor ((descOf dst).rows * (descOf src1).d0))) :
    VecWrote n (descOf dst) (s.vecCodes n f rnd ((List.range (descOf dst).rows).flatMap fun i =>
        let l := rowOf (s.vecVals n (descOf src1) ((descOf dst).rows * (descOf src1).d0)) (descOf src1).d0 i
        [(vecSum l).1.div (.ofInt (descOf src1).d0), (vecSum (l.map fun v => roundF32 (v.mul v))).1]))
      s (s.vecNstat n dst src1 rnd (s.srStream n)) := by
  obtain ⟨fx, hx⟩ := State.vecRead_quiet hqa
  simp only [State.vecNstat, ne_eq, hpair, not_true, hd, ha, Check.and, hx, Bool.false_eq_true, if_false, valRows_eq, List.map_map, Function.comp_def,
    List.flatMap_def]
  exact State.vecWrite_wrote hf _ _ _ _

/-- What SMSTAT leaves of row i: the new statistics and the factor (R214). -/
def State.smNew (s : State) (n : Nat) (d a : Desc) (i : Nat) : Val × Val × Val :=
  let st := pairOf (s.vecVals n d (2 * d.rows)) i
  (smRow st.1 st.2 (rowOf (s.vecVals n a (d.rows * a.d0)) a.d0 i)).1

/-- SMSTAT writes the statistics to the destination and the factors to the tensor that AUX names. -/
theorem State.vecSmstat_wrote (hpair : (descOf dst).d0 = 2) (hf : (descOf dst).format = some .fp32)
    (hd : s.checkOperand n (descOf dst) vecWrites (descOf dst).rows = .go) (ha : s.checkOperand n (descOf src1) vecReads (descOf dst).rows = .go)
    (hqa : s.quietRead n (descOf src1) ((descOf src1).rowsFor ((descOf dst).rows * (descOf src1).d0)))
    (hqd : s.quietRead n (descOf dst) ((descOf dst).rowsFor (2 * (descOf dst).rows)))
    (hwf : (descOf w).format = some .fp32) (hwk : (descOf w).elems = (descOf dst).rows)
    (hw : s.checkOperand n (descOf w) (fun _ => true) (descOf w).rows = .go) :
    VecWrote n (descOf w) ((List.range (descOf dst).rows).map fun i => toF32 (s.smNew n (descOf dst) (descOf src1) i).2.2)
      (s.writeOperand n (descOf dst) (descOf dst).rows ((List.range (descOf dst).rows).flatMap fun i =>
        [toF32 (s.smNew n (descOf dst) (descOf src1) i).1, toF32 (s.smNew n (descOf dst) (descOf src1) i).2.1]))
      (s.vecSmstat n dst src1 (some w)) := by
  obtain ⟨fx, hx⟩ := State.vecRead_quiet hqa
  obtain ⟨fz, hz⟩ := State.vecRead_quiet hqd
  have hpairs : (descOf dst).f32Pairs = true := by simp [Desc.f32Pairs, hpair, hf]
  have hchk : (if (descOf w).format == some .fp32 && (descOf w).elems == (descOf dst).rows then
      s.checkOperand n (descOf w) (fun _ => true) (descOf w).rows else .illegal) = .go := by simp [hwf, hwk, hw]
  simp only [State.vecSmstat, hpairs, hd, ha, hchk, Check.and, hx, hz, Bool.not_true, Bool.or_self, Bool.false_eq_true, if_false, valRows_eq,
    zip_map_range, List.map_map, Function.comp_def, List.flatMap_def]
  exact ⟨_, _, rfl⟩

/-! ### BQUANT -/

/-- A tensor that takes the scales of the blocks of d: E8M0, dense, one scale for each block of a row, and its check passes (R189). -/
structure ScalesFor (s : State) (n : Nat) (d sc : Desc) : Prop where
  format : sc.format = some .e8m0
  layout : sc.layout = 0
  d0 : sc.d0 = (d.d0 + 31) / 32
  d1 : sc.d1 = d.d1
  d2 : sc.d2 = d.d2
  d3 : sc.d3 = d.d3
  check : s.checkOperand n sc (fun _ => true) d.rows = .go

/-- The blocks that BQUANT makes of the rows of a source: scale, codes and flags (R189). -/
def State.quantBlocks (s : State) (n : Nat) (d a : Desc) (f : Fmt) (rnd : Rnd) : List (Nat × List Nat × FmtFlags) :=
  (List.range d.rows).flatMap fun i =>
    quantRow f rnd (s.core n).seed ((s.ctx n).srStream.setWidth 64) (i * d.d0) (rowOf (s.vecVals n a d.elems) d.d0 i) ((d.d0 + 31) / 32)

theorem State.vecBquant_wrote (hf : (descOf dst).format = some f) (hd : s.checkOperand n (descOf dst) isBlock (descOf dst).rows = .go)
    (ha : s.checkOperand n (descOf src1) (fun f => f == .fp32 || f == .bf16 || f == .fp16) ((descOf src1).rowsFor (descOf dst).elems) = .go)
    (hqa : s.quietRead n (descOf src1) ((descOf src1).rowsFor (descOf dst).elems)) (hsc : ScalesFor s n (descOf dst) (descOf w)) :
    ∃ fl c, s.vecBquant n dst src1 (some w) rnd (s.srStream n) =
      (((s.writeOperand n (descOf dst) (descOf dst).rows ((s.quantBlocks n (descOf dst) (descOf src1) f rnd).flatMap fun b => b.2.1)).writeOperand n
        (descOf w) (descOf dst).rows ((s.quantBlocks n (descOf dst) (descOf src1) f rnd).map fun b => b.1)).coreFmt n fl).satAdd
          (R.CORE_PERF_VX n) F.CORE_PERF_VX_VEC_BUSY c := by
  obtain ⟨fx, hx⟩ := State.vecRead_quiet hqa
  obtain ⟨h1, h2, h3, h4, h5, h6, h7⟩ := hsc
  simp only [State.vecBquant, h1, h2, h3, h4, h5, h6, h7, hf, hd, ha, hx, beq_self_eq_true, Bool.and_self, if_true, Check.and, Option.getD_some,
    List.flatMap_def, State.quantBlocks]
  exact ⟨_, _, rfl⟩

end Sys2Proof.Machine
end

section
open Sys2Proof Sys2Proof.Machine

/-- Settles O11: each form by what it writes where its checks pass and its reads report nothing. -/
theorem vectorReductionsAndStatistics : Obligations.VectorReductionsAndStatistics := by
  unfold Obligations.VectorReductionsAndStatistics
  refine ⟨?reduce, ?smlse, ?statistics, ?bquant⟩
  case reduce =>
    intro n dst src1 src2 imm rnd f s hr d a k row old hf hd ha hqa hqd
    exact ⟨⟨_, exec_vecRsum hr, State.vecReduce_wrote hf hd ha hqa hqd⟩, ⟨_, exec_vecRmax hr, State.vecReduce_wrote hf hd ha hqa hqd⟩⟩
  case smlse =>
    intro n dst src1 src2 imm rnd f s hr d a k pair hf hpairs hd ha hqa
    exact ⟨_, exec_vecSmlse hr, State.vecSmlse_wrote hf hpairs hd ha hqa⟩
  case statistics =>
    intro n dst src1 src2 imm rnd f s hr d a k row hf hpair hd ha hqa
    refine ⟨⟨_, exec_vecNstat hr, State.vecNstat_wrote hf hpair hd ha hqa⟩, fun w haux hf32 hwf hwk hw hqd => ⟨_, exec_vecSmstat hr, ?_⟩⟩
    rw [haux]
    exact State.vecSmstat_wrote hpair hf32 hd ha hqa hqd hwf hwk hw
  case bquant =>
    intro n dst src1 src2 imm rnd f w s hr d a sc nb row hf hd ha hqa haux h1 h2 h3 h4 h5 h6 h7
    refine ⟨_, exec_vecBquant hr, ?_⟩
    rw [haux]
    exact State.vecBquant_wrote hf hd ha hqa ⟨h1, h2, h3, h4, h5, h6, h7⟩

end
section
/-! The matrix engines of a core, their accumulators and their side tensors: what setting one leaves of the others (R202, R203, R233, R235). -/

namespace Sys2Proof.Machine

variable {s : State} {n : Nat} {e : MatEng} {m : MatSt}

theorem Core.mat_setMat (k : Core) (e : MatEng) (m : MatSt) : (k.setMat e m).mat e = m := by cases e <;> rfl

theorem Core.mat_setMat_ne (k : Core) {e e' : MatEng} (m : MatSt) (h : e' ≠ e) : (k.setMat e m).mat e' = k.mat e' := by
  match e, e' with
  | .a, .b => rfl
  | .b, .a => rfl
  | .a, .a => exact absurd rfl h
  | .b, .b => exact absurd rfl h

theorem MatSt.set_setSet (m : MatSt) (b : Bool) (x : AccSet) : (m.setSet b x).set b = x := by cases b <;> rfl

/-- t has the engine e of core n as m says; its other engine, the other cores and memory are those of s. -/
structure MatLeft (n : Nat) (e : MatEng) (m : MatSt) (s t : State) : Prop where
  engine : (t.core n).mat e = m
  other : ∀ e', e' ≠ e → (t.core n).mat e' = (s.core n).mat e'
  cores : ∀ k, k ≠ n → t.core k = s.core k
  mem : SameMem s t

theorem State.setMat_left : MatLeft n e m s (s.setMat n e m) where
  engine := by rw [State.setMat, State.core_setCore, Core.mat_setMat]
  other e' h := by rw [State.setMat, State.core_setCore, Core.mat_setMat_ne _ _ h]
  cores k h := State.core_setCore_ne _ _ _ _ h
  mem _ := rfl

/-- Format flags and busy steps leave the engines and memory alone. -/
theorem MatLeft.counted {t : State} (h : MatLeft n e m s t) (fl : FmtFlags) (k : Nat) : MatLeft n e m s ((t.coreFmt n fl).matBusy n e k) := by
  have hq := State.coreFmt_queuesAlone (s := t) n fl
  have hcore (j : Nat) : ((t.coreFmt n fl).matBusy n e k).core j = t.core j := hq.core j
  exact ⟨by rw [hcore]; exact h.engine, fun e' he => by rw [hcore]; exact h.other e' he, fun j hj => by rw [hcore]; exact h.cores j hj,
    SameMem.trans h.mem hq.rd⟩

/-! ### Side tensors -/

theorem State.auxDesc_none {x : List Word} (h : (descOf x).aux = 0xFFFF) : s.auxDesc n x = none := if_pos h

section
variable (side : Option (List Word))

theorem State.takeSide_mul (h : ((s.core n).mat e).bindMul = none) : s.takeSide n e 0 side = (side, s) := by simp only [State.takeSide, h]
theorem State.takeSide_load (h : ((s.core n).mat e).bindLoad = none) : s.takeSide n e 1 side = (side, s) := by simp only [State.takeSide, h]
theorem State.takeSide_drain (h : ((s.core n).mat e).bindDrain = none) : s.takeSide n e 2 side = (side, s) := by simp only [State.takeSide, h]

end

/-! ### Accumulators -/

theorem AccSet.get_put (a : AccSet) (r c : Nat) (v : BitVec 32) {r' c' : Nat} (hc : c < 128) (hc' : c' < 128) :
    (a.put r c v).get r' c' = if r' = r ∧ c' = c then v else a.get r' c' := by
  unfold AccSet.get AccSet.put
  split
  next h => rw [h.1, h.2, Store.get_set_same]
  next h => rw [Store.get_set_ne _ _ _ _ _ (by omega)]

/-- Writing a row from a column on changes its own accumulators. -/
theorem AccSet.get_putRow (r : Nat) {r' c' : Nat} (hc' : c' < 128) (l : List (BitVec 32)) : ∀ (a : AccSet) (c : Nat), c + l.length ≤ 128 →
    (a.putRow r c l).get r' c' = if r' = r ∧ c ≤ c' ∧ c' < c + l.length then l.getD (c' - c) 0 else a.get r' c' := by
  induction l with
  | nil => exact fun a c _ => (if_neg (by simp)).symm
  | cons v l ih =>
    intro a c hc
    rw [List.length_cons] at hc ⊢
    rw [AccSet.putRow, ih _ _ (by omega), AccSet.get_put _ _ _ _ (by omega) hc']
    by_cases hhead : r' = r ∧ c' = c
    · obtain ⟨rfl, rfl⟩ := hhead
      rw [if_neg (by omega), if_pos ⟨rfl, rfl⟩, if_pos (by omega), Nat.sub_self]
      rfl
    · rw [if_neg hhead]
      by_cases hin : r' = r ∧ c + 1 ≤ c' ∧ c' < c + 1 + l.length
      · rw [if_pos hin, if_pos (by omega), show c' - c = c' - (c + 1) + 1 by omega]
        rfl
      · rw [if_neg hin, if_neg (by omega)]

/-- CLEAR zeroes the rows it names (R203). -/
theorem AccSet.get_cleared (a : AccSet) (row count : Nat) {r c : Nat} (hc : c < 128) :
    ({ a with acc := a.acc.filter (fun p => !(decide (row * 128 ≤ p.1 ∧ p.1 < (row + count) * 128))) } : AccSet).get r c =
      if row ≤ r ∧ r < row + count then 0 else a.get r c := by
  unfold AccSet.get
  rw [Store.get_filter_key _ fun j => !(decide (row * 128 ≤ j ∧ j < (row + count) * 128))]
  by_cases h : row ≤ r ∧ r < row + count
  · rw [if_pos h, decide_eq_true (by omega)]
    rfl
  · rw [if_neg h, decide_eq_false (by omega)]
    rfl

end Sys2Proof.Machine
end

section
/-! The rows of a MATMUL (R205, R206). -/

namespace Sys2Proof.Machine

variable {isInt init : Bool} {cols : List (List Val)}

/-- The accumulators that a row of a MATMUL starts from: zeros with INIT, else the row's present ones. -/
def oldRow (init : Bool) (a : AccSet) (r : Nat) : List (BitVec 32) := (List.range 128).map fun c => if init then 0 else a.get r c

theorem matRow_length (hcols : cols.length = 128) (acts : List Val) (a : AccSet) (r : Nat) :
    (matRow isInt cols acts (oldRow init a r)).1.length = 128 := by
  simp [matRow, oldRow, hcols]

theorem oldRow_putRow_ne (a : AccSet) {row r : Nat} {l : List (BitVec 32)} (hl : l.length = 128) (hr : r ≠ row) :
    oldRow init (a.putRow row 0 l) r = oldRow init a r :=
  List.map_congr_left fun c hc => by
    have h : (a.putRow row 0 l).get r c = a.get r c := by rw [AccSet.get_putRow _ (List.mem_range.mp hc) _ _ _ (by omega), if_neg (by omega)]
    rw [h]

theorem matRows_cons (row : Nat) (acts : List Val) (l : List (List Val)) (a : AccSet × FmtFlags) :
    matRows isInt init cols row (acts :: l) a = matRows isInt init cols (row + 1) l
      (a.1.putRow row 0 (matRow isInt cols acts (oldRow init a.1 row)).1, a.2 ||| (matRow isInt cols acts (oldRow init a.1 row)).2) := rfl

theorem Tile.columns_length (t : Tile) : t.columns.length = 128 := by simp [Tile.columns]

/-- The rows that a MATMUL does not stream stand. -/
theorem matRows_outside (hcols : cols.length = 128) {r c : Nat} (hc : c < 128) (l : List (List Val)) : ∀ (row : Nat) (a : AccSet × FmtFlags),
    (r < row ∨ row + l.length ≤ r) → (matRows isInt init cols row l a).1.get r c = a.1.get r c := by
  induction l with
  | nil => exact fun _ _ _ => rfl
  | cons acts l ih =>
    intro row a hr
    rw [List.length_cons] at hr
    have hlen := matRow_length (isInt := isInt) (init := init) hcols acts a.1 row
    rw [matRows_cons, ih _ _ (by omega), AccSet.get_putRow _ hc _ _ _ (by omega), if_neg (by omega)]

/-- Row i that a MATMUL streams is accumulated onto what stood before. -/
theorem matRows_row (hcols : cols.length = 128) {c : Nat} (hc : c < 128) (l : List (List Val)) : ∀ (row i : Nat) (a : AccSet × FmtFlags), i < l.length →
    (matRows isInt init cols row l a).1.get (row + i) c = (matRow isInt cols (l.getD i []) (oldRow init a.1 (row + i))).1.getD c 0 := by
  induction l with
  | nil => exact fun _ _ _ hi => absurd hi (Nat.not_lt_zero _)
  | cons acts l ih =>
    intro row i a hi
    have hlen := matRow_length (isInt := isInt) (init := init) hcols acts a.1 row
    cases i with
    | zero =>
      rw [matRows_cons, matRows_outside hcols hc _ _ _ (by omega), Nat.add_zero, AccSet.get_putRow _ hc _ _ _ (by omega), if_pos (by omega), Nat.sub_zero]
      rfl
    | succ i =>
      rw [List.length_cons] at hi
      rw [matRows_cons, show row + (i + 1) = row + 1 + i by omega, ih _ _ _ (by omega), List.getD_cons_succ, oldRow_putRow_ne _ hlen (by omega)]

end Sys2Proof.Machine
end
section
/-! The operations of the matrix engines on a core that executes (R203, R205 to R209, R235, R239). -/

namespace Sys2Proof.Machine

variable {s : State} {n : Nat} {e : MatEng} {x : List Word} {f : Fmt} {p : PairClass} {set init : Bool} {row count : Nat} {m : MatSt}

/-! ### WLOAD -/

/-- A WLOAD whose checks pass and whose reads report nothing leaves the tile it read as the shadow tile. -/
theorem State.matWload_loads (hf : (descOf x).format = some f) (hcb : (descOf x).cb = none) (hw : weightFmt f = true)
    (hdepth : tileDepthOk f (descOf x).d0 = true)
    (hchk : (s.checkOperand n (descOf x) weightFmt 128).and (s.checkSide n f (descOf x).d0 128 none) = .go)
    (hq : s.quietRead n (descOf x) 128) :
    ∃ el fl k, s.matWload n e x none = ((s.setMat n e { (s.core n).mat e with
      shadow := { valid := true, fmt := f, depth := (descOf x).d0, elems := el } }).coreFmt n fl).matBusy n e k := by
  obtain ⟨hbad, hstate⟩ := hq
  simp only [State.matWload, hf, hcb, hw, hdepth, hchk, hbad, hstate, State.readSide, Option.isSome_none, Bool.not_true, Bool.or_self,
    Bool.false_eq_true, if_false]
  exact ⟨_, _, _, rfl⟩

/-! ### MATMUL -/

theorem map_zip_range {α β : Type} (g : α → β) (l : List α) (k : Nat) : (l.zip (List.range k)).map (fun q => g q.1) = (l.take k).map g := by
  apply List.ext_getElem
  · simp [Nat.min_comm]
  · intro i h1 h2
    simp

theorem rowsOf_length (k : Nat) (count : Nat) : ∀ l, (rowsOf k l count).length = count := by
  induction count with
  | zero => exact fun _ => rfl
  | succ count ih => exact fun l => congrArg (· + 1) (ih _)

/-- The activations of row i of a MATMUL: its codes, of a blocked layout with zero codes up to the depth of the tile (R280). -/
def actRow (f : Fmt) (codes : List Nat) (d0 k count i : Nat) : List Val :=
  ((((rowsOf d0 codes count).getD i []) ++ List.replicate (k - d0) 0).take k).map fun q => (f.decode q).1

/-- A MATMUL that streams rows against a valid tile of its depth and accumulator type: its checks pass and its reads report nothing. -/
structure Streams (s : State) (n : Nat) (d : Desc) (set init : Bool) (row count : Nat) (f : Fmt) (p : PairClass) (m : MatSt) : Prop where
  format : d.format = some f
  act : actFmt f = true
  rows : row + count ≤ 1024
  valid : m.active.valid = true
  pair : pairClass f m.active.fmt = some p
  depth : p.depth = m.active.depth
  typed : init = true ∨ (m.set set).cls = some p
  check : (s.checkOperand n (actDesc d m.active.depth) actFmt count).and (s.checkSide n f m.active.depth count none) = .go
  quiet : s.quietRead n (actDesc d m.active.depth) count

/-- The activations that a MATMUL streams. -/
def State.matActs (s : State) (n : Nat) (d : Desc) (f : Fmt) (k count : Nat) : List (List Val) :=
  (List.range count).map (actRow f (s.readOperand n (actDesc d k) count).1.codes (actDesc d k).d0 k count)

theorem State.matActs_length (d : Desc) (k : Nat) : (s.matActs n d f k count).length = count := by
  rw [State.matActs, List.length_map, List.length_range]

theorem State.matActs_getD (d : Desc) (k : Nat) {i : Nat} (hi : i < count) : (s.matActs n d f k count).getD i [] =
    actRow f (s.readOperand n (actDesc d k) count).1.codes (actDesc d k).d0 k count i := by
  rw [List.getD_eq_getElem _ _ (by rwa [State.matActs_length])]
  simp only [State.matActs, List.getElem_map, List.getElem_range]

theorem State.matStream_streams {d : Desc} (h : Streams s n d set init row count f p m) (src : Nat) :
    ∃ fl0 cls fl k, s.matStream n e d none set row count init m .none src = ((s.setMat n e (m.setSet set
      { (matRows p.isInt init m.active.columns row (s.matActs n d f m.active.depth count) (m.set set, fl0)).1 with cls := cls })).coreFmt n fl).matBusy
        n e k := by
  obtain ⟨hformat, hact, hrows, hvalid, hpair, hdepth, htyped, hchk, hbad, hstate⟩ := h
  have hok : ∀ c, (m.set set).cls = some c → (init || c.isInt == p.isInt) = true := by
    rintro c hc
    rcases htyped with hinit | hcls
    · rw [hinit, Bool.true_or]
    · rw [Option.some.inj (hc.symm.trans hcls), beq_self_eq_true, Bool.or_true]
  have hacts : ((((rowsOf (actDesc d m.active.depth).d0 (s.readOperand n (actDesc d m.active.depth) count).1.codes count).map
      (fun r => r ++ List.replicate (m.active.depth - (actDesc d m.active.depth).d0) 0)).zip (List.range count)).map (fun p =>
        (p.1.zip (List.range m.active.depth)).map (fun q => (f.decode q.1).1))) = s.matActs n d f m.active.depth count := by
    simp only [map_zip_range (fun q => (f.decode q).1)]
    rw [map_zip_range (fun r : List Nat => (r.take m.active.depth).map fun q => (f.decode q).1), List.take_of_length_le (by simp [rowsOf_length]),
      List.map_map]
    apply List.ext_getElem
    · simp [rowsOf_length, State.matActs]
    · intro i h1 h2
      rw [List.length_map, rowsOf_length] at h1
      have hi : i < (rowsOf (actDesc d m.active.depth).d0 (s.readOperand n (actDesc d m.active.depth) count).1.codes count).length := by
        rwa [rowsOf_length]
      simp only [State.matActs, actRow, List.getElem_map, List.getElem_range, List.getD_eq_getElem _ _ hi, Function.comp_apply]
  cases hcls : (m.set set).cls with
  | none =>
    simp only [State.matStream, hformat, hpair, hact, hrows, hvalid, hdepth, hchk, hbad, hstate, hcls, State.readSide, applySide, hacts,
      decide_true, Bool.and_self, Bool.not_true, Bool.or_self, beq_self_eq_true, Bool.false_eq_true, if_false, Option.getD_some]
    exact ⟨_, _, _, _, rfl⟩
  | some c =>
    simp only [State.matStream, hformat, hpair, hact, hrows, hvalid, hdepth, hchk, hbad, hstate, hcls, hok c hcls, State.readSide, applySide, hacts,
      decide_true, Bool.and_self, Bool.not_true, Bool.or_self, beq_self_eq_true, Bool.false_eq_true, if_false, Option.getD_some]
    exact ⟨_, _, _, _, rfl⟩

/-! ### DRAIN -/

/-- A DRAIN of an INT32 set by plain conversion writes its rows, each accumulator rounded with its own draw (R187). -/
theorem State.matDrain_drains {c : PairClass} (hcls : (((s.core n).mat e).set set).cls = some c) (hint : c.isInt = true)
    (hf : (descOf x).format = some f) (hdrain : drainFmt f = true) (hrows : row + count ≤ 1024)
    (hchk : s.checkOperand n { descOf x with d0 := min 128 (descOf x).d0 } (fun _ => true) count = .go) (rnd : Rnd) (stream : BitVec 32) :
    ∃ fl, s.matDrain n e x none set row count rnd stream =
      (s.writeOperand n { descOf x with d0 := min 128 (descOf x).d0 } count ((List.range (count * min 128 (descOf x).d0)).map fun i =>
        (f.encode rnd (srDraw (s.core n).seed (stream.setWidth 64)
          (BitVec.ofNat 64 (i / min 128 (descOf x).d0 * (descOf x).d0 + i % min 128 (descOf x).d0)))
          (.ofInt ((((s.core n).mat e).set set).get (row + i / min 128 (descOf x).d0) (i % min 128 (descOf x).d0)).toInt)).1)).coreFmt n fl := by
  have hf' : ({ descOf x with d0 := min 128 (descOf x).d0 } : Desc).format = some f := hf
  simp only [State.matDrain, hf', hcls, hint, hdrain, hchk, Check.and, decide_eq_false (Nat.not_lt.mpr hrows), Option.isSome_none, Bool.not_true,
    Bool.or_self, Bool.false_eq_true, if_false, if_true, List.map_map, Function.comp_def]
  exact ⟨_, rfl⟩

theorem State.writeRuns_memoryAlone (g : Agent) (bits : Nat) (l : List Run) : ∀ (s : State) (codes : List Nat),
    MemoryAlone s (s.writeRuns g bits l codes).state := by
  induction l with
  | nil => exact fun s _ => .refl s
  | cons r l ih => exact fun s codes => (State.writeMem_memoryAlone g _ _).trans (ih _ _)

theorem State.writeOperand_cores (d : Desc) (rows : Nat) (codes : List Nat) : (s.writeOperand n d rows codes).cores = s.cores := by
  unfold State.writeOperand
  split
  · rfl
  next f _ =>
    have hmem := State.writeRuns_memoryAlone (s.coreAgent n) f.bits (d.runsFor f.bits rows) s codes
    exact (State.coreFlags_queuesAlone n _).cores.trans (congrArg State.cores hmem :)

/-! ### SCALE_BIND -/

/-- An engine with a side tensor bound to the next operation of a role (R235). -/
def MatSt.bound (m : MatSt) (w : List Word) : Nat → MatSt
  | 0 => { m with bindMul := some w }
  | 1 => { m with bindLoad := some w }
  | _ => { m with bindDrain := some w }

theorem State.bindSide_eq (w : List Word) : ∀ role, s.bindSide n e role w = s.setMat n e (((s.core n).mat e).bound w role)
  | 0 => rfl
  | 1 => rfl
  | _ + 2 => rfl

theorem MatSt.bound_drain (m : MatSt) (w : List Word) {role : Nat} (h : 2 ≤ role) : (m.bound w role).bindDrain = some w := by
  match role, h with
  | _ + 2, _ => rfl

/-- The engine that SCALE_BIND names. -/
theorem sl_engine (aux : BitVec 18) : (if sl aux.toNat 17 1 = 1 then MatEng.b else .a) = if aux.getLsbD 17 then .b else .a := by
  have hbit : sl aux.toNat 17 1 = 1 ↔ aux.getLsbD 17 = true := by
    rw [BitVec.getLsbD, Nat.testBit_eq_decide_div_mod_eq, decide_eq_true_eq]
    rfl
  simp only [hbit]

/-! ### The commands -/

section
variable {n : Fin 16} {x : BitVec 8} (hr : s.coreRuns n = true)
include hr

theorem exec_matWload_plain (hbind : ((s.core n).mat e).bindLoad = none) (haux : (descOf (s.desc n x.toNat)).aux = 0xFFFF) :
    exec (.matWload n e x) s = .next (s.matWload n e (s.desc n x.toNat) none) := by
  refine (next_of_coreRuns hr _ : exec (.matWload n e x) s = _).trans ?_
  simp only [State.auxDesc_none haux, State.takeSide_load _ hbind]

theorem exec_matMatmul_plain {row : BitVec 10} {count : BitVec 11} (hinj : (s.core n).inject = none) (hbind : ((s.core n).mat e).bindMul = none)
    (haux : (descOf (s.desc n x.toNat)).aux = 0xFFFF) : exec (.matMatmul n e x set row count init false .none) s =
      .next (s.matStream n e (descOf (s.desc n x.toNat)) none set row.toNat count.toNat init ((s.core n).mat e) .none (matSource e)) := by
  refine (next_of_coreRuns hr _ : exec (.matMatmul n e x set row count init false .none) s = _).trans ?_
  simp only [State.auxDesc_none haux, State.takeSide_mul _ hbind, State.matMatmul, hinj]
  rfl

theorem exec_matDrain_plain {row : BitVec 10} {count : BitVec 11} {rnd : Rnd} (hbind : ((s.core n).mat e).bindDrain = none) :
    exec (.matDrain n e x 0xFF set row count rnd) s =
      .next (s.matDrain n e (s.desc n x.toNat) none set row.toNat count.toNat rnd (s.core n).ctx.srStream) := by
  refine (next_of_coreRuns hr _ : exec (.matDrain n e x 0xFF set row count rnd) s = _).trans ?_
  rw [show s.requantDesc n (0xFF : BitVec 8).toNat = none from rfl, State.takeSide_drain _ hbind]

theorem exec_xferScaleBind_binds {dst src : BitVec 8} {aux : BitVec 18} : exec (.xferScaleBind n dst src aux) s =
    .next (s.setMat n (if aux.getLsbD 17 then .b else .a)
      (((s.core n).mat (if aux.getLsbD 17 then .b else .a)).bound (s.desc n src.toNat) (aux.toNat / 2 ^ 15 % 4))) := by
  refine (next_of_coreRuns hr _ : exec (.xferScaleBind n dst src aux) s = _).trans ?_
  rw [State.scaleBind, State.bindSide_eq, sl_engine]
  rfl

end

end Sys2Proof.Machine
end

section
open Sys2Proof Sys2Proof.Machine

/-- Settles O7: each operation by the engine or the destination that it leaves; what an engine's state leaves alone is MatLeft. -/
theorem matrixOperationsCompute : Obligations.MatrixOperationsCompute := by
  unfold Obligations.MatrixOperationsCompute
  refine ⟨?wload, ?matmul, ?drain, ?clear, ?bind⟩
  case wload =>
    intro n e x f s hr d hbind haux hf hcb hw hdepth hchk hbad hstate
    obtain ⟨el, fl, k, hload⟩ := State.matWload_loads (e := e) hf hcb hw hdepth hchk ⟨hbad, hstate⟩
    have hleft := (State.setMat_left (s := s) (n := n) (e := e) (m := { (s.core n).mat e with
      shadow := { valid := true, fmt := f, depth := d.d0, elems := el } })).counted fl k
    refine ⟨_, (exec_matWload_plain hr hbind haux).trans (congrArg _ hload), ?_, ?_, hleft.other, hleft.mem⟩
    · rw [hleft.engine]
      exact ⟨rfl, rfl, rfl⟩
    · rw [hleft.engine]
  case matmul =>
    intro n e x set row count init f p s hr hinj d m k ad hbind haux hf hact hrows hvalid hpair hdepth htyped hchk hbad hstate
    have hstreams : Streams s n d set init row.toNat count.toNat f p m := ⟨hf, hact, hrows, hvalid, hpair, hdepth, htyped, hchk, hbad, hstate⟩
    obtain ⟨fl0, cls, fl, j, hmul⟩ := State.matStream_streams (e := e) hstreams (matSource e)
    have hlen : (s.matActs n d f m.active.depth count.toNat).length = count.toNat := State.matActs_length _ _
    have hleft := (State.setMat_left (s := s) (n := n) (e := e) (m := m.setSet set
      { (matRows p.isInt init m.active.columns row.toNat (s.matActs n d f m.active.depth count.toNat) (m.set set, fl0)).1 with cls := cls })).counted fl j
    refine ⟨_, (exec_matMatmul_plain hr hinj hbind haux).trans (congrArg _ hmul), hleft.mem, hleft.other, fun r c hout hc => ?_,
      fun i hi => ?_⟩
    · rw [hleft.engine, MatSt.set_setSet]
      exact matRows_outside m.active.columns_length hc _ _ _ (by rwa [hlen])
    · intro codes acts old c hc
      rw [hleft.engine, MatSt.set_setSet]
      refine (matRows_row m.active.columns_length hc _ _ i (m.set set, fl0) (by rwa [hlen])).trans ?_
      rw [State.matActs_getD _ _ hi]
      rfl
  case drain =>
    intro n e x set row count rnd f p s hr hbind hcls hint d0 d hf hdrain hrows hchk
    obtain ⟨fl, hdrains⟩ := State.matDrain_drains hcls hint hf hdrain hrows hchk rnd (s.core n).ctx.srStream
    exact ⟨_, fl, (exec_matDrain_plain hr hbind).trans (congrArg _ hdrains), (State.coreFmt_queuesAlone n fl).cores.trans
      (State.writeOperand_cores _ _ _), rfl⟩
  case clear =>
    intro n e set row count s hr
    have hleft := State.setMat_left (s := s) (n := n) (e := e) (m := ((s.core n).mat e).setSet set { ((s.core n).mat e).set set with
      acc := (((s.core n).mat e).set set).acc.filter (fun p => !(decide (row.toNat * 128 ≤ p.1 ∧ p.1 < (row.toNat + count.toNat) * 128))) })
    refine ⟨_, next_of_coreRuns hr _, rfl, hleft.cores, hleft.other, fun r c hc => ?_⟩
    exact (congrArg (fun m : MatSt => (m.set set).get r c) hleft.engine).trans
      ((congrArg (fun a : AccSet => a.get r c) (MatSt.set_setSet _ _ _)).trans (AccSet.get_cleared _ _ _ hc))
  case bind =>
    intro n dst src aux s hr
    refine ⟨_, (exec_xferScaleBind_binds (dst := dst) hr), rfl, ?_⟩
    intro e
    have hleft := State.setMat_left (s := s) (n := n) (e := e) (m := ((s.core n).mat e).bound (s.desc n src.toNat) (aux.toNat / 2 ^ 15 % 4))
    refine ⟨hleft.other, fun h => ?_, fun h => ?_, fun h => ?_⟩ <;> rw [hleft.engine]
    · rw [h]
      rfl
    · rw [h]
      rfl
    · exact MatSt.bound_drain _ _ h

end
section
/-! Reads and writes of memory in which every byte is served and good, wherever its bank has it (R247, R262, R267, R466). -/

namespace Sys2Proof.Machine

variable {s t : State} {g : Agent} {a k n : Nat} {l : List Byte}

/-! ### Where a served byte lies -/

/-- A served byte lies in HBM or in a scratchpad. -/
theorem State.hit_near {w : Bool} (h : s.hit g w a = .ok k) : s.place a = .hbm k ∨ ∃ b off, s.place a = .spd b off := by
  unfold State.hit at h
  split at h
  next x hp =>
    have hk : x = k := by split_ifs at h <;> cases h <;> rfl
    exact .inl (hk ▸ hp)
  next b off hp => exact .inr ⟨b, off, hp⟩
  · cases h
  · cases h

theorem State.hbmBytes_lt (s : State) : s.hbmBytes < 0x10000000000 := by
  have hw : s.fld R.GLB_CAPS F.GLB_CAPS_HBM_STACKS < 2 ^ 4 := Fld.get_lt _ _
  unfold State.hbmBytes
  omega

theorem State.localPlace_low (ha : a < 0x10000000000) : s.localPlace a = if a < s.hbmBytes then .hbm a else .unmapped := by
  rw [State.localPlace, if_pos (by omega)]

theorem State.localPlace_hbm {x : Nat} (h : s.localPlace a = .hbm x) : a = x ∧ a < s.hbmBytes := by
  unfold State.localPlace at h
  split at h
  · split at h
    next ha => exact ⟨Place.hbm.inj h, ha⟩
    next => cases h
  · exfalso
    dsimp only at h
    split_ifs at h

theorem State.windowPlace_hbm {x : Nat} (h : s.windowPlace a = .hbm x) : a = x ∧ a < s.hbmBytes := by
  have hlt := s.hbmBytes_lt
  unfold State.windowPlace at h
  split_ifs at h
  · exact State.localPlace_hbm h
  · obtain ⟨-, hx⟩ := State.localPlace_hbm h
    omega

/-- The next address lies in the same remote window. -/
theorem window_succ {x : Nat} (ha : 0x400000000000 ≤ a) (ho : (a - 0x400000000000) % 0x20000000000 = x) (hx : x < 0x10000000000) :
    (a + 1 - 0x400000000000) / 0x20000000000 = (a - 0x400000000000) / 0x20000000000 ∧ (a + 1 - 0x400000000000) % 0x20000000000 = x + 1 := by
  omega

/-- The end of HBM is no boundary with a scratchpad: the byte after one of HBM is the next one of HBM, or none. -/
theorem State.place_hbm_succ {x : Nat} (h : s.place a = .hbm x) :
    s.place (a + 1) = if x + 1 < s.hbmBytes then .hbm (x + 1) else .unmapped := by
  have hlt := s.hbmBytes_lt
  unfold State.place at h ⊢
  split at h
  next ha =>
    obtain ⟨rfl, hx⟩ := State.localPlace_hbm h
    rw [if_pos (by omega), State.localPlace_low (by omega)]
  next h1 =>
    split at h
    · cases h
    next h2 =>
      split at h
      · next h3 =>
        dsimp only at h ⊢
        split at h
        · cases h
        next hc =>
          split at h
          · next hp =>
            obtain ⟨ho, hx⟩ := State.windowPlace_hbm h
            obtain ⟨hdiv, hmod⟩ := window_succ (by omega) ho (by omega)
            have hwin : s.windowPlace (x + 1) = if x + 1 < s.hbmBytes then .hbm (x + 1) else .unmapped := by
              rw [State.windowPlace, if_pos (by omega), State.localPlace_low (by omega)]
            rw [if_neg (by omega), if_neg (by omega), if_pos (by omega)]
            exact (if_neg hc).trans ((if_pos (hp.trans (congrArg some hdiv.symm))).trans ((congrArg s.windowPlace hmod).trans hwin))
          · cases h
      · cases h

/-! ### Reads -/

/-- Every one of n bytes at a is served to the agent and good (R267, R466). -/
def State.readsGood (s : State) (g : Agent) (a n : Nat) : Prop :=
  ∀ i, i < n → ∃ x, s.hit g false (a + i) = .ok x ∧ s.poisoned x 1 = false ∧ s.wordErr x = 0

theorem State.readsGood.tail (h : s.readsGood g a (n + 1)) : s.readsGood g (a + 1) n := fun i hi => by
  rw [show a + 1 + i = a + (i + 1) by omega]
  exact h (i + 1) (by omega)

theorem State.readByte_ok {x : Nat} (h : s.hit g false a = .ok x) : s.readByte g a = { bytes := [s.rd x], bad := s.badByte x } := by
  unfold State.readByte
  rw [h]

theorem State.readMem_good (n : Nat) : ∀ a, s.readsGood g a n →
    (s.readMem g a n).flags = 0 ∧ (s.readMem g a n).wait = false ∧ (s.readMem g a n).bad = false := by
  induction n with
  | zero => exact fun a _ => ⟨rfl, rfl, rfl⟩
  | succ n ih =>
    intro a h
    obtain ⟨x, hx, hp, he⟩ := h 0 (by omega)
    obtain ⟨hflags, hwait, hbad⟩ := ih (a + 1) h.tail
    have hgood : s.badByte x = false := by simp [State.badByte, hp, he]
    rw [Nat.add_zero] at hx
    simp only [State.readMem, MemRead.append, State.readByte_ok hx, hflags, hwait, hbad, hgood]
    exact ⟨rfl, rfl, rfl⟩

/-- A read of served bytes gives each as memory has it. -/
theorem State.readMem_getD (n : Nat) : ∀ a i x, s.readsGood g a n → i < n → s.hit g false (a + i) = .ok x →
    (s.readMem g a n).bytes.getD i 0 = s.rd x := by
  induction n with
  | zero => exact fun a i x _ hi => absurd hi (Nat.not_lt_zero i)
  | succ n ih =>
    intro a i x h hi hx
    obtain ⟨y, hy, -, -⟩ := h 0 (by omega)
    rw [Nat.add_zero] at hy
    simp only [State.readMem, MemRead.append, State.readByte_ok hy, List.singleton_append]
    cases i with
    | zero => rw [List.getD_cons_zero, Hit.ok.inj (hy.symm.trans hx)]
    | succ i => rw [List.getD_cons_succ, ih (a + 1) i x h.tail (by omega) (by rwa [show a + 1 + i = a + (i + 1) by omega])]

/-! ### What good reads report -/

theorem State.place_readsGood {x : Nat} (hp : s.place a = .hbm x) (h : s.readsGood g a n) : ∀ i, i < n → s.place (a + i) = .hbm (x + i) := by
  intro i
  induction i with
  | zero => exact fun _ => hp
  | succ i ih =>
    intro hi
    have hnext := State.place_hbm_succ (ih (by omega))
    obtain ⟨y, hy, -, -⟩ := h (i + 1) hi
    rw [← Nat.add_assoc] at hy ⊢
    by_cases hlt : x + i + 1 < s.hbmBytes
    · rw [hnext, if_pos hlt, Nat.add_assoc]
    · rw [if_neg hlt] at hnext
      rcases State.hit_near hy with hn | ⟨b, off, hn⟩ <;> exact absurd (hnext.symm.trans hn) nofun

/-- A read of good bytes reports nothing. -/
theorem State.noteRead_good (hn : 0 < n) (h : s.readsGood g a n) : s.noteRead g a n = s := by
  unfold State.noteRead
  split
  · rfl
  split
  next x hp =>
    have hnone : s.poisonIn x n = [] := by
      refine List.filter_eq_nil_iff.mpr fun u hu hin => ?_
      obtain ⟨hlo, hhi⟩ := of_decide_eq_true hin
      obtain ⟨y, hy, hgood, -⟩ := h (u - x) (by omega)
      rcases State.hit_near hy with hplace | ⟨b, off, hplace⟩ <;> rw [State.place_readsGood hp h _ (by omega)] at hplace
      · cases hplace
        exact List.any_eq_false.mp hgood u hu (decide_eq_true (by omega))
      · cases hplace
    rw [hnone]
    rfl
  next b off hp =>
    refine List.foldlRecOn _ _ (motive := fun t => t = s) rfl fun t ht w hw => ?_
    subst ht
    obtain ⟨-, hkey⟩ := List.mem_filter.mp hw
    obtain ⟨i, hi, hk⟩ := List.mem_filterMap.mp (List.contains_iff_mem.mp hkey)
    obtain ⟨x, hx, -, he⟩ := h i (List.mem_range.mp hi)
    rw [hx] at hk
    cases hk
    exact if_pos he
  next => rfl

/-! ### Writes -/

/-- A write whose bytes are served at k and on stores exactly its bytes there, and changes nothing but memory (R262). -/
theorem State.writeBytes_lands (g : Agent) (l : List Byte) : ∀ (s : State) (a k : Nat), (∀ i, i < l.length → s.hit g true (a + i) = .ok (k + i)) →
    (s.writeBytes g a l).flags = 0 ∧ (s.writeBytes g a l).wait = false ∧
      ∀ b, (s.writeBytes g a l).state.rd b = if k ≤ b ∧ b < k + l.length then l.getD (b - k) 0 else s.rd b := by
  induction l with
  | nil => exact fun s a k _ => ⟨rfl, rfl, fun b => (if_neg (by simp)).symm⟩
  | cons c l ih =>
    intro s a k hok
    have hx : s.writeByte g a c = ⟨s.putByte k c, 0, false⟩ := by
      unfold State.writeByte
      rw [show s.hit g true a = .ok k from hok 0 (by simp)]
    obtain ⟨hflags, hwait, hrd⟩ := ih (s.putByte k c) (a + 1) (k + 1) fun i hi => by
      rw [State.putByte_hit, show a + 1 + i = a + (i + 1) by omega, show k + 1 + i = k + (i + 1) by omega]
      exact hok (i + 1) (by simpa using hi)
    simp only [State.writeBytes, hx, hflags, hwait]
    refine ⟨rfl, rfl, fun b => ?_⟩
    rw [hrd b, State.putByte_rd, List.length_cons]
    by_cases hb : b = k
    · subst hb
      rw [if_neg (by omega), if_pos rfl, if_pos (by omega), Nat.sub_self]
      rfl
    · rw [if_neg hb]
      by_cases hin : k + 1 ≤ b ∧ b < k + 1 + l.length
      · rw [if_pos hin, if_pos (by omega), show b - k = (b - (k + 1)) + 1 by omega]
        rfl
      · rw [if_neg hin, if_neg (by omega)]

theorem State.writeMem_lands (hok : ∀ i, i < l.length → s.hit g true (a + i) = .ok (k + i)) :
    (s.writeMem g a l).flags = 0 ∧ (s.writeMem g a l).wait = false ∧
      ∀ b, (s.writeMem g a l).state.rd b = if k ≤ b ∧ b < k + l.length then l.getD (b - k) 0 else s.rd b := by
  obtain ⟨hflags, hwait, hrd⟩ := State.writeBytes_lands g l s a k hok
  simp only [State.writeMem, hflags, hwait, and_self, if_true]
  exact ⟨trivial, trivial, hrd⟩

theorem MemoryAlone.reg (h : MemoryAlone s t) (o : Nat) : t.reg o = s.reg o := (congrArg (fun x : State => x.reg o) h :)

/-! ### Numbers and their bytes -/

theorem leBytes_getD (x i : Nat) {n : Nat} (hi : i < n) : ((leBytes x n).getD i 0).toNat = x / 256 ^ i % 256 := by
  induction n generalizing x i with
  | zero => omega
  | succ n ih =>
    cases i with
    | zero => simp [leBytes]
    | succ i => rw [leBytes, List.getD_cons_succ, ih _ _ (by omega), Nat.div_div_eq_div_mul, Nat.pow_succ']

theorem leNat_digit (l : List Byte) (i : Nat) : leNat l / 256 ^ i % 256 = (l.getD i 0).toNat := by
  induction l generalizing i with
  | nil => simp [leNat]
  | cons b l ih =>
    have hb := b.isLt
    cases i with
    | zero =>
      simp only [leNat, Nat.pow_zero, Nat.div_one, List.getD_cons_zero]
      omega
    | succ i =>
      have hrest : (b.toNat + 256 * leNat l) / 256 = leNat l := by omega
      rw [leNat, Nat.pow_succ', ← Nat.div_div_eq_div_mul, hrest, ih, List.getD_cons_succ]

end Sys2Proof.Machine
end
section
/-! Branches, loops, descriptor words and the FP64 pipeline of the scalar core (R216 to R218). -/

namespace Sys2Proof.Machine

variable {s t : State} {n : Nat}

/-! ### The context of a core -/

/-- Setting a core changes that core alone. -/
theorem State.setCore_coreOnly (x : Core) : CoreOnly n s (s.setCore n x) := ⟨rfl, fun _ h => State.core_setCore_ne _ _ _ _ h⟩

theorem State.updCtx_puts (f : CoreCtx → CoreCtx) : PutsCtx n (f (s.ctx n)) s (s.updCtx n f) :=
  ⟨State.setCore_coreOnly _, State.core_setCore _ _ _⟩

theorem PutsCtx.ctx {c : CoreCtx} (h : PutsCtx n c s t) : t.ctx n = c := congrArg Core.ctx h.2

theorem CoreCtx.getF_putF (c : CoreCtx) (i : Nat) (v : Word) : (c.putF i v).getF i = v := Store.get_set_same _ _ _ _

theorem CoreCtx.getF_mod (c : CoreCtx) (i : Nat) : c.getF (i % 32) = c.getF i := by rw [CoreCtx.getF, CoreCtx.getF, Nat.mod_mod]

/-- A result written to an F or a G register reads back. -/
theorem State.putReg_reads (isF : Bool) (i : Nat) (v : Word) :
    if isF then ((s.putReg n isF i v).ctx n).getF i = v else ((s.putReg n isF i v).ctx n).getG i = v := by
  unfold State.putReg
  rw [(State.updCtx_puts _).ctx]
  cases isF
  · exact CoreCtx.getG_putG _ _ _
  · exact CoreCtx.getF_putF _ _ _

/-! ### Branches and loops (R216) -/

/-- What a branch leaves, taken where p holds (R216, R217). -/
def Branched (n : Nat) (off : BitVec 18) (p : Prop) (s t : State) : Prop :=
  (p → PutsCtx n { s.ctx n with pc := (((s.ctx n).pc : Int) + off.toInt).toNat } s t) ∧
  (¬ p → (∀ l ∈ (s.ctx n).loops.head?, l.last ≠ (s.ctx n).pc) → PutsCtx n { s.ctx n with pc := (s.ctx n).pc + 1 } s t) ∧
  (¬ p → ∀ l r, (s.ctx n).loops = l :: r → l.last = (s.ctx n).pc → 1 < l.left →
    PutsCtx n { s.ctx n with pc := l.first, loops := { l with left := l.left - 1 } :: r } s t)

theorem CoreCtx.goOn_outside (c : CoreCtx) (h : ∀ l ∈ c.loops.head?, l.last ≠ c.pc) : c.goOn c.pc = { c with pc := c.pc + 1 } := by
  unfold CoreCtx.goOn
  cases hl : c.loops with
  | nil => rw [fallThrough, ← hl]
  | cons l r =>
    rw [fallThrough, if_neg (h l (by rw [hl]; rfl)), ← hl]

theorem CoreCtx.goOn_again (c : CoreCtx) {l : Loop} {r : List Loop} (hl : c.loops = l :: r) (hlast : l.last = c.pc) (hleft : 1 < l.left) :
    c.goOn c.pc = { c with pc := l.first, loops := { l with left := l.left - 1 } :: r } := by
  rw [CoreCtx.goOn, hl, fallThrough, if_pos hlast, if_pos hleft]

theorem State.scalarBranch_branches {p : Prop} {taken : Bool} (off : BitVec 18) (h : taken = true ↔ p) :
    Branched n off p s (s.scalarBranch n taken off) := by
  have hputs : PutsCtx n ((s.ctx n).branch taken off) s (s.scalarBranch n taken off) := State.updCtx_puts _
  have hgo (hp : ¬ p) : (s.ctx n).branch taken off = (s.ctx n).goOn (s.ctx n).pc := if_neg fun ht => hp (h.mp ht)
  refine ⟨fun hp => ?_, fun hp hout => ?_, fun hp l r hl hlast hleft => ?_⟩
  · rwa [CoreCtx.branch, if_pos (h.mpr hp)] at hputs
  · rwa [hgo hp, CoreCtx.goOn_outside _ hout] at hputs
  · rwa [hgo hp, CoreCtx.goOn_again _ hl hlast hleft] at hputs

/-! ### Descriptor words (R217) -/

theorem CoreCtx.getD_putD (c : CoreCtx) (d w : Nat) (v : Word) : (c.putD d w v).getD d w = v := Store.get_set_same _ _ _ _

theorem CoreCtx.getD_putD_ne (c : CoreCtx) {d w d' w' : Nat} (v : Word) (hw : w < 4) (hw' : w' < 4) (h : d' ≠ d ∨ w' ≠ w) :
    (c.putD d w v).getD d' w' = c.getD d' w' := Store.get_set_ne _ _ _ _ _ (by omega)

/-- Word w of descriptor d of core n takes the value v, and nothing else changes. -/
def PutsD (n d w : Nat) (v : Word) (s t : State) : Prop :=
  CoreOnly n s t ∧ (t.ctx n).getD d w = v ∧ { t.core n with ctx := { t.ctx n with desc := (s.ctx n).desc } } = s.core n ∧
    ∀ d' w', w' < 4 → (d' ≠ d ∨ w' ≠ w) → (t.ctx n).getD d' w' = (s.ctx n).getD d' w'

theorem State.putD_puts {d w : Nat} {f : CoreCtx → Word} (hw : w < 4) :
    PutsD n d w (f (s.ctx n)) s (s.updCtx n fun c => c.putD d w (f c)) := by
  obtain ⟨honly, hcore⟩ := State.updCtx_puts (s := s) (n := n) fun c => c.putD d w (f c)
  have hctx := congrArg Core.ctx hcore
  change State.ctx _ n = _ at hctx
  refine ⟨honly, ?_, ?_, fun d' w' hw' hne => ?_⟩
  · rw [hctx]
    exact CoreCtx.getD_putD _ _ _ _
  · rw [hcore, hctx]
    rfl
  · rw [hctx]
    exact CoreCtx.getD_putD_ne _ _ hw hw' hne

/-! ### The FP64 pipeline (R218) -/

theorem State.fpIssue_issues (isF : Bool) (rd : Nat) (v : Word) (slow : Bool) : Issues n isF rd v slow s (s.fpIssue n isF rd v slow) :=
  ⟨State.setCore_coreOnly _, State.core_setCore _ _ _⟩

theorem CoreOnly.trans {u : State} (h1 : CoreOnly n s t) (h2 : CoreOnly n t u) : CoreOnly n s u :=
  ⟨(congrArg (fun x : State => { x with cores := s.cores }) h2.1 :).trans h1.1, fun m hm => (h2.2 m hm).trans (h1.2 m hm)⟩

/-- The oldest result of a kind stands behind results of the other kind alone. -/
theorem find_slow {slow : Bool} {l r : List PendFp} {p : PendFp} (hl : ∀ x ∈ l, x.slow ≠ slow) (hp : p.slow = slow) :
    (l ++ p :: r).find? (fun x => x.slow == slow) = some p ∧ (l ++ p :: r).erase p = l ++ r := by
  have hnot : p ∉ l := fun hm => hl p hm hp
  have hnone : l.find? (fun x => x.slow == slow) = none := List.find?_eq_none.mpr fun x hx => by simpa using hl x hx
  refine ⟨?_, ?_⟩
  · rw [List.find?_append, hnone, List.find?_cons_of_pos (by simpa using hp)]
    rfl
  · rw [List.erase_append_right _ hnot, List.erase_cons_head]

theorem State.putReg_coreOnly (isF : Bool) (i : Nat) (v : Word) : CoreOnly n s (s.putReg n isF i v) := State.setCore_coreOnly _

theorem exec_fp64ResultWrite_writes {n : Fin 16} {slow : Bool} {l r : List PendFp} {p : PendFp} (hf : (s.core n).fps = l ++ p :: r)
    (hl : ∀ x ∈ l, x.slow ≠ slow) (hp : p.slow = slow) : exec (.fp64ResultWrite n slow) s =
      .next ((s.setCore n { s.core n with fps := l ++ r }).putReg n p.isF p.rd p.val) := by
  obtain ⟨hfind, herase⟩ := find_slow (r := r) hl hp
  change execFp64ResultWrite n slow s = _
  simp only [execFp64ResultWrite, hf, hfind, herase]

end Sys2Proof.Machine
end

section
/-! Loads and stores of the scalar core (R215, R217, R249). -/

namespace Sys2Proof.Machine

variable {s t : State} {n : Nat}

/-! ### Loads -/

theorem State.scalarLoad_waits {isF : Bool} {rd ra : Nat} {imm : BitVec 18} (h : (s.scalarBank n (scalarAddr (s.ctx n) ra imm)).isSome = true) :
    s.scalarLoad n (s.ctx n) isF rd ra imm =
      s.setCore n { s.core n with loads := (s.core n).loads ++ [⟨isF, rd, scalarAddr (s.ctx n) ra imm⟩] } := by
  obtain ⟨b, hb⟩ := Option.isSome_iff_exists.mp h
  simp only [State.scalarLoad, hb]

/-- A load of an address out of reach writes 0 at once and is recorded (R249). -/
theorem State.scalarLoad_denied {isF : Bool} {rd ra : Nat} {imm : BitVec 18} (h : s.scalarBank n (scalarAddr (s.ctx n) ra imm) = none) :
    (if isF then ((s.scalarLoad n (s.ctx n) isF rd ra imm).ctx n).getF rd = 0 else ((s.scalarLoad n (s.ctx n) isF rd ra imm).ctx n).getG rd = 0) ∧
      ((s.scalarLoad n (s.ctx n) isF rd ra imm).reg (R.CORE_ERR n)).getLsbD 5 = true := by
  obtain ⟨-, -, hset, -⟩ := State.coreDenied_records (s := s) (n := n) scalarSource (scalarAddr (s.ctx n) ra imm)
  simp only [State.scalarLoad, h]
  exact ⟨State.putReg_reads _ _ _, hset⟩

/-- What a served load leaves: its destination, and flags of the running command. -/
def State.loaded (s : State) (n : Nat) (l : PendLoad) : State :=
  (s.coreFlags n 0).putReg n l.isF l.rd (BitVec.ofNat 64 (leNat (s.readMem (s.coreAgent n) l.addr 8).bytes))

theorem State.serveLoad_good {l : PendLoad} (h : s.readsGood (s.coreAgent n) l.addr 8) : s.serveLoad n l = some (s.loaded n l) := by
  obtain ⟨hflags, hwait, hbad⟩ := State.readMem_good 8 l.addr h
  simp only [State.serveLoad, hflags, hwait, hbad, State.noteRead_good (by decide) h]
  rfl

theorem State.loaded_frame (l : PendLoad) : SameMem s (s.loaded n l) ∧ ((s.loaded n l).core n).loads = (s.core n).loads := by
  have hq := State.coreFlags_queuesAlone (s := s) n 0
  refine ⟨hq.rd, ?_⟩
  rw [State.loaded, State.putReg, (State.updCtx_puts _).2]
  exact (congrArg Core.loads (hq.core n) :)

/-- The destination of a served load holds the 8 bytes, least significant first (R8, R217). -/
theorem State.loaded_reads {l : PendLoad} (h : s.readsGood (s.coreAgent n) l.addr 8) : ∃ v : Word,
    (if l.isF then ((s.loaded n l).ctx n).getF l.rd = v else ((s.loaded n l).ctx n).getG l.rd = v) ∧
      ∀ i x, i < 8 → s.hit (s.coreAgent n) false (l.addr + i) = .ok x → v.toNat / 256 ^ i % 256 = (s.rd x).toNat := by
  refine ⟨_, State.putReg_reads _ _ _, fun i x hi hx => ?_⟩
  have hlt := leNat_lt (s.readMem (s.coreAgent n) l.addr 8).bytes
  rw [State.readMem_length, show 256 ^ 8 = 2 ^ 64 from rfl] at hlt
  rw [BitVec.toNat_ofNat, Nat.mod_eq_of_lt hlt, leNat_digit, State.readMem_getD 8 l.addr i x h hi hx]

theorem State.loadBehind_first {k : Nat} {l : PendLoad}
    (h : ∀ j x, j < k → (s.core n).loads[j]? = some x → s.scalarBank n x.addr ≠ s.scalarBank n l.addr) : s.loadBehind n k l = false := by
  refine List.any_eq_false.mpr fun x hx => ?_
  obtain ⟨j, hj, hget⟩ := List.mem_take_iff_getElem.mp hx
  simpa using h j x (by omega) (List.getElem?_eq_some_iff.mpr ⟨by omega, hget⟩)

theorem exec_loadDataReturn_serves {n : Fin 16} {k : Nat} {l : PendLoad} (hl : (s.core n).loads[k]? = some l)
    (hfirst : ∀ j x, j < k → (s.core n).loads[j]? = some x → s.scalarBank n x.addr ≠ s.scalarBank n l.addr)
    (hgood : s.readsGood (s.coreAgent n) l.addr 8) : exec (.loadDataReturn n k) s = .next ((s.dropLoad n k).loaded n l) := by
  have hserve : (s.dropLoad n k).serveLoad n l = some ((s.dropLoad n k).loaded n l) := State.serveLoad_good hgood
  change execLoadDataReturn n k s = _
  simp only [execLoadDataReturn, hl, State.loadBehind_first hfirst, hserve]
  rfl

/-! ### Stores -/

/-- A store with no pending load stores its 8 bytes, least significant first, and changes no register and no other byte. -/
theorem State.scalarStore_stores {v : Word} {ra k : Nat} {imm : BitVec 18} (hload : (s.core n).loads = [])
    (hb : (s.scalarBank n (scalarAddr (s.ctx n) ra imm)).isSome = true)
    (hok : ∀ i, i < 8 → s.hit (s.coreAgent n) true (scalarAddr (s.ctx n) ra imm + i) = .ok (k + i)) :
    ∃ t, s.scalarStore n (s.ctx n) v ra imm = some t ∧ SameRegs [] s t ∧ (∀ i, i < 8 → (t.rd (k + i)).toNat = v.toNat / 256 ^ i % 256) ∧
      ∀ x, (x < k ∨ k + 8 ≤ x) → t.rd x = s.rd x := by
  obtain ⟨b, hb⟩ := Option.isSome_iff_exists.mp hb
  have hlen : (leBytes v.toNat 8).length = 8 := leBytes_length _ _
  obtain ⟨hflags, hwait, hrd⟩ := State.writeMem_lands (l := leBytes v.toNat 8) (by rwa [hlen])
  have hmem := State.writeMem_memoryAlone (s := s) (s.coreAgent n) (scalarAddr (s.ctx n) ra imm) (leBytes v.toNat 8)
  have hq := State.coreFlags_queuesAlone (s := (s.writeMem (s.coreAgent n) (scalarAddr (s.ctx n) ra imm) (leBytes v.toNat 8)).state) n 0
  refine ⟨_, ?_, fun o _ => (hq.reg o).trans (hmem.reg o), fun i hi => ?_, fun x hx => ?_⟩
  · simp only [State.scalarStore, hb, hload, State.serveBank, hflags, hwait]
    rfl
  · rw [hq.rd, hrd, hlen, if_pos (by omega), Nat.add_sub_cancel_left, leBytes_getD _ _ hi]
  · rw [hq.rd, hrd, hlen, if_neg (by omega)]

end Sys2Proof.Machine
end

section
open Sys2Proof Sys2Proof.Machine

/-- Settles O9: each form by the lemma that says what it leaves of its core, of memory or of the pipeline. -/
theorem scalarControlAndPipelines : Obligations.ScalarControlAndPipelines := by
  unfold Obligations.ScalarControlAndPipelines
  refine ⟨?branches, ?loops, ?descriptors, ?issues, ?results, ?loads, ?returns, ?stores⟩
  case branches =>
    intro n ra rb off s hr moved
    refine ⟨⟨_, next_of_coreRuns hr _, State.scalarBranch_branches off decide_eq_true_iff⟩,
      ⟨_, next_of_coreRuns hr _, State.scalarBranch_branches off decide_eq_true_iff⟩,
      ⟨_, next_of_coreRuns hr _, State.scalarBranch_branches off BitVec.slt_iff_toInt_lt⟩,
      ⟨_, next_of_coreRuns hr _, State.scalarBranch_branches off ?_⟩, ⟨_, next_of_coreRuns hr _, State.scalarBranch_branches off (iff_true_intro rfl)⟩⟩
    rw [Bool.not_eq_true', Bool.eq_false_iff, ne_eq, BitVec.slt_iff_toInt_lt, not_lt]
  case loops =>
    intro n ra imm s hr
    refine ⟨⟨_, next_of_coreRuns hr _, fun hne => ?_⟩, ⟨_, next_of_coreRuns hr _, State.updCtx_puts _⟩⟩
    have hputs := State.updCtx_puts (s := s) (n := n) fun c => c.loop imm.toNat (c.getG ra.toNat).toNat
    have hcount : ((s.ctx n).getG ra.toNat).toNat ≠ 0 := fun h => hne (BitVec.eq_of_toNat_eq h)
    rwa [CoreCtx.loop, if_neg hcount] at hputs
  case descriptors =>
    intro n g desc word s hr
    exact ⟨⟨_, next_of_coreRuns hr _, State.putD_puts word.isLt⟩, ⟨_, next_of_coreRuns hr _, State.putD_puts (by decide)⟩⟩
  case issues =>
    intro n fd fa fb fc gr s hr a b g
    have hissues (isF : Bool) (rd : Nat) (v : Word) (slow : Bool) := State.fpIssue_issues (s := s) (n := n) isF rd v slow
    exact ⟨⟨_, next_of_coreRuns hr _, hissues ..⟩, ⟨_, next_of_coreRuns hr _, hissues ..⟩, ⟨_, next_of_coreRuns hr _, hissues ..⟩,
      ⟨_, next_of_coreRuns hr _, hissues ..⟩, ⟨_, next_of_coreRuns hr _, hissues ..⟩, ⟨_, next_of_coreRuns hr _, hissues ..⟩,
      ⟨_, next_of_coreRuns hr _, hissues ..⟩, ⟨_, next_of_coreRuns hr _, hissues ..⟩, ⟨_, next_of_coreRuns hr _, hissues ..⟩,
      ⟨_, next_of_coreRuns hr _, hissues ..⟩, ⟨_, next_of_coreRuns hr _, hissues ..⟩, ⟨_, _, next_of_coreRuns hr _, hissues .., rfl⟩,
      ⟨_, next_of_coreRuns hr _, hissues ..⟩, ⟨_, next_of_coreRuns hr _, hissues ..⟩, ⟨_, next_of_coreRuns hr _, hissues ..⟩⟩
  case results =>
    intro n slow l r p s hf hl hp
    refine ⟨_, exec_fp64ResultWrite_writes hf hl hp, (State.setCore_coreOnly _).trans (State.putReg_coreOnly _ _ _), ?_, State.putReg_reads _ _ _⟩
    rw [State.putReg, (State.updCtx_puts _).2, State.core_setCore]
  case loads =>
    intro n rd ra imm s hr a
    refine ⟨fun hbank => ⟨⟨_, next_of_coreRuns hr _, ?_⟩, ⟨_, next_of_coreRuns hr _, ?_⟩⟩,
      fun hnone => ⟨⟨_, next_of_coreRuns hr _, State.scalarLoad_denied (isF := false) hnone⟩, ⟨_, next_of_coreRuns hr _, ?_⟩⟩⟩
    · rw [State.scalarLoad_waits hbank]
      exact ⟨State.setCore_coreOnly _, State.core_setCore _ _ _⟩
    · rw [State.scalarLoad_waits hbank]
      exact ⟨State.setCore_coreOnly _, State.core_setCore _ _ _⟩
    · obtain ⟨hzero, hset⟩ := State.scalarLoad_denied (isF := true) (rd := rd.toNat % 32) hnone
      exact ⟨(CoreCtx.getF_mod _ _).symm.trans hzero, hset⟩
  case returns =>
    intro n k p s hp hfirst hgood
    obtain ⟨hmem, hcore⟩ := State.loaded_frame (s := s.dropLoad n k) (n := n) p
    obtain ⟨v, hv, hbytes⟩ := State.loaded_reads (s := s.dropLoad n k) (n := n) (l := p) hgood
    exact ⟨_, exec_loadDataReturn_serves hp hfirst hgood, hmem, hcore.trans (congrArg Core.loads (State.core_setCore _ _ _)), v, hv, hbytes⟩
  case stores =>
    intro n rs ra imm k s hr hload a hbank hok stored
    have hstores (v : Word) : ∃ t, (Host.Outcome.next (if !s.coreRuns n then s else (s.scalarStore n (s.ctx n) v ra.toNat imm).getD s) : Out) = .next t ∧
        stored v t := by
      obtain ⟨t, ht, hstored⟩ := State.scalarStore_stores (v := v) hload hbank hok
      exact ⟨t, (next_of_coreRuns hr _).trans (by rw [ht]; rfl), hstored⟩
    exact ⟨hstores _, hstores _⟩

end
section
/-! Runs of whole bytes: what the transfer engine reads from one and writes to one (R176, R219, R267). -/

namespace Sys2Proof.Machine

variable {s t u : State} {n m a j k : Nat} {l : List Byte}

/-! ### Bytes as codes of 8 bits -/

theorem codesOf_length (w : Nat) (l : List Byte) (m : Nat) : (codesOf w l m).length = m := by simp [codesOf]

/-- Bytes are their own codes. -/
theorem codesOf_bytes (l : List Byte) : codesOf 8 l l.length = l.map BitVec.toNat := by
  apply List.ext_getElem
  · rw [codesOf_length, List.length_map]
  · intro i h1 h2
    rw [List.length_map] at h2
    have hpow : 2 ^ (8 * i) = 256 ^ i := by rw [Nat.pow_mul]
    have hdigit := leNat_digit l i
    rw [List.getD_eq_getElem _ _ h2] at hdigit
    simp only [codesOf, List.getElem_map, List.getElem_range, hpow]
    exact hdigit

theorem packCodes_bytes (l : List Byte) : packCodes 8 (l.map BitVec.toNat) = leNat l := by
  induction l with
  | nil => rfl
  | cons b l ih =>
    rw [List.map_cons, packCodes, ih, leNat, Nat.mod_eq_of_lt b.isLt]
    rfl

/-- Bytes read as codes and packed again are the same bytes. -/
theorem leBytes_packCodes (hl : l.length = m) : leBytes (packCodes 8 (codesOf 8 l m)) m = l := by
  subst hl
  rw [codesOf_bytes, packCodes_bytes, leBytes_leNat]

/-! ### A run of bytes -/

/-- The run of m bytes at a. -/
def byteRun (a m : Nat) : Run := ⟨a, m, m⟩

/-- Where the first byte is served, a write goes to memory and not to registers, the host or another device (R35). -/
theorem State.xferWrite_near {w : Bool} {g : Agent} (hk : s.hit g w a = .ok k) (l : List Byte)
    (hw : (s.writeMem (s.coreAgent n) a l).flags = 0 ∧ (s.writeMem (s.coreAgent n) a l).wait = false) :
    s.xferWrite n a l = ((s.writeMem (s.coreAgent n) a l).state, false) := by
  obtain ⟨hflags, hwait⟩ := hw
  rcases State.hit_near hk with hp | ⟨b, off, hp⟩ <;> simp only [State.xferWrite, hp, hflags, hwait, if_true]

/-- Bytes written to a run whose every byte the core may write land there, and nothing but memory changes. -/
theorem State.xferWrite_lands (hm : 0 < l.length) (hok : ∀ i, i < l.length → s.hit (s.coreAgent n) true (a + i) = .ok (k + i)) :
    ∃ u, s.xferWrite n a l = (u, false) ∧ MemoryAlone s u ∧ (∀ i, i < l.length → u.rd (k + i) = l.getD i 0) ∧
      ∀ b, (b < k ∨ k + l.length ≤ b) → u.rd b = s.rd b := by
  obtain ⟨hflags, hwait, hrd⟩ := State.writeMem_lands hok
  refine ⟨_, State.xferWrite_near (a := a) (hok 0 hm) l ⟨hflags, hwait⟩, State.writeMem_memoryAlone _ _ _, fun i hi => ?_, fun b hb => ?_⟩
  · rw [hrd, if_pos (by omega), Nat.add_sub_cancel_left]
  · rw [hrd, if_neg (by omega)]

/-- The codes of a whole run of bytes are written as its bytes. -/
theorem State.xferParts_byteRun (hm : 0 < m) (hl : l.length = m) : s.xferParts n 8 [byteRun a m] [(0, codesOf 8 l m)] = s.xferWrite n a l := by
  have hlen := codesOf_length 8 l m
  have htake : (codesOf 8 l m).take m = codesOf 8 l m := List.take_of_length_le (by omega)
  have hput : s.putCodes n 8 (byteRun a m) 0 (codesOf 8 l m) = s.xferWrite n a l := by
    simp only [State.putCodes, byteRun, hlen, Nat.zero_add, Nat.zero_mul, Nat.zero_mod, Nat.zero_div, true_or, and_self, if_true, Nat.add_zero,
      Nat.sub_zero, leBytes_packCodes hl]
  simp only [State.xferParts, State.xferPut, byteRun, hlen, Nat.zero_add, Nat.max_self, Nat.min_self, hm, if_true, Nat.sub_zero, List.drop_zero, htake,
    Bool.or_false]
  exact Prod.ext (congrArg Prod.fst hput :) (congrArg Prod.snd hput :)

/-- The first m bytes of a run whose bytes are served and good are read as they are, and nothing is reported. -/
theorem State.xferGather_byteRun {x0 : Nat} (hm : 0 < m) (hle : m ≤ x0) (h : s.readsGood (s.coreAgent n) a m) :
    s.xferGather n 8 m [byteRun a x0] 0 = ({ parts := [(0, codesOf 8 (s.readMem (s.coreAgent n) a m).bytes m)] }, s) := by
  obtain ⟨hflags, hwait, hbad⟩ := State.readMem_good m a h
  have hcut : (if m = x0 then (⟨a, x0, x0⟩ : Run) else ⟨a, m, runBytes 8 m⟩) = ⟨a, m, m⟩ := by
    have hbytes : runBytes 8 m = m := by
      rw [runBytes, if_neg (by decide)]
      omega
    split
    next he => rw [he]
    next => rw [hbytes]
  obtain ⟨k, hk, -, -⟩ := h 0 hm
  rw [Nat.add_zero] at hk
  rcases State.hit_near hk with hp | ⟨b, off, hp⟩ <;>
    simp only [State.xferGather, byteRun, Nat.le_zero_eq, Nat.ne_of_gt hm, if_false, Nat.sub_zero, Nat.min_eq_right hle, hcut, hp, hflags, hwait, hbad,
      if_true, Bool.false_eq_true, State.noteRead_good hm h, Bool.or_self, List.append_nil]

/-! ### Tensors of one run -/

/-- A tensor of one dense run of 8-bit elements. -/
structure OneRun (d : Desc) (f : Fmt) : Prop where
  format : d.format = some f
  bits : f.bits = 8
  layout : d.layout = 0
  d1 : d.d1 = 1
  d2 : d.d2 = 1
  d3 : d.d3 = 1
  pos : 0 < d.d0

theorem descOf_d0_pos (w : List Word) : 0 < (descOf w).d0 := Nat.lt_of_lt_of_le Nat.one_pos (Nat.le_max_left _ _)

section
variable {d : Desc} {f : Fmt} (h : OneRun d f)
include h

theorem OneRun.cb : d.cb = none := by simp [Desc.cb, h.layout]

theorem OneRun.elems : d.elems = d.d0 := by simp [Desc.elems, h.cb, h.d1, h.d2, h.d3]

theorem OneRun.rows : d.rows = 1 := by rw [Desc.rows, h.elems, Nat.div_self h.pos]

theorem OneRun.runsFor : d.runsFor 8 1 = [byteRun d.base d.d0] := by
  have hbytes : runBytes 8 d.d0 = d.d0 := by
    rw [runBytes, if_neg (by decide)]
    omega
  simp [Desc.runsFor, h.cb, Desc.denseRuns, h.d1, h.d2, byteRun, hbytes]

theorem OneRun.runs : d.runs 8 = [byteRun d.base d.d0] := by rw [Desc.runs, h.rows, h.runsFor]

theorem OneRun.shape (s : State) : s.xferShape d true = some f := by
  simp [State.xferShape, h.format, h.layout, layoutTakes]

end

end Sys2Proof.Machine
end
section
/-! Operations of the transfer engine whose reads are all near memory's (R219, R281 to R291, R650). -/

namespace Sys2Proof.Machine

variable {s t u : State} {n : Nat} {dst src : List Word} {f e : Fmt} {y : XRead} {op : EngOp} {aux : Nat}

/-- What a source read gives when it waits for no handover, meets no bad word and leaves the device nowhere. -/
structure XRead.near (y : XRead) : Prop where
  wait : y.wait = false
  bad : y.bad = none
  far : y.far = []

theorem XRead.near_parts (p : List (Nat × List Nat)) : XRead.near { parts := p } := ⟨rfl, rfl, rfl⟩

/-- COPY writes the elements read, in order (R650). -/
theorem State.xferCopy_copies (hd : s.xferShape (descOf dst) true = some f) (hx : s.xferShape (descOf src) true = some e) (hbits : f.bits = e.bits)
    (hle : (descOf dst).elems ≤ (descOf src).elems)
    (hg : s.xferGather n f.bits (descOf dst).elems
      ((descOf src).runsFor f.bits (((descOf dst).elems + (descOf src).d0 - 1) / (descOf src).d0)) 0 = (y, t)) (hy : y.near)
    (hw : t.xferParts n f.bits ((descOf dst).runs f.bits) y.parts = (u, false)) :
    s.xferCopy n dst src = .done (u.xferBeats n ((partsLen y.parts * f.bits + 7) / 8)) := by
  obtain ⟨hwait, hbad, hfar⟩ := hy
  have hok : ¬ (f.bits ≠ e.bits ∨ (descOf src).elems < (descOf dst).elems) := by
    rw [not_or, not_not, Nat.not_lt]
    exact ⟨hbits, hle⟩
  simp only [State.xferCopy, hd, hx, if_neg hok, hg, hw, hwait, hbad, hfar, Bool.or_self, Bool.false_eq_true, if_false, if_true]

/-- The parts that FILL writes to one run: its pattern again and again (R219). -/
theorem State.xferFill_fills {pattern : Word} (h : OneRun (descOf dst) f)
    (hw : s.xferParts n 8 [byteRun (descOf dst).base (descOf dst).d0] [(0, codesOf 8
      (((List.replicate ((descOf dst).d0 / 8 + 1) (leBytes pattern.toNat 8)).flatten).take (descOf dst).d0) (descOf dst).d0)] = (u, false)) :
    s.xferFill n dst pattern = .done (u.xferBeats n (descOf dst).d0) := by
  have hbytes : runsBytes [byteRun (descOf dst).base (descOf dst).d0] = (descOf dst).d0 := Nat.zero_add _
  simp only [State.xferFill, h.shape, h.bits, h.runs, List.foldl_cons, List.foldl_nil, List.nil_append, hbytes]
  simp only [byteRun] at hw ⊢
  simp only [hw, Bool.false_eq_true, if_false]

/-- Reading a whole near source goes on with its elements. -/
theorem State.xferWhole_near {w : Nat} {l : List Run} {k : State → List Nat → XRes} (hnew : op.issued = false)
    (hg : s.xferGather n w (runsElems l) l 0 = (y, t)) (hy : y.near) : s.xferWhole n w l op k = (k t (gathered y.parts), []) := by
  obtain ⟨hwait, hbad, hfar⟩ := hy
  simp only [State.xferWhole, hnew, hg, hwait, hbad, hfar, Bool.false_eq_true, if_false, if_true]

theorem State.xferStore_stores {w : Nat} {l : List Run} {codes : List Nat} (hw : s.xferParts n w l [(0, codes)] = (u, false)) :
    s.xferStore n w l codes = .done (u.xferBeats n ((codes.length * w + 7) / 8)) := by
  simp only [State.xferStore, hw, Bool.false_eq_true, if_false]

/-! ### IM2COL -/

/-- The elements that IM2COL writes, row by row (R282). -/
def im2colCodes (d x : Desc) (cb aux g : Nat) (codes : List Nat) (pad : Nat) : List Nat :=
  (List.range d.d1).flatMap fun m => (List.range d.d0).map fun k => im2colElem x cb aux g codes pad m k

theorem im2colCodes_length (d x : Desc) (cb aux g : Nat) (codes : List Nat) (pad : Nat) :
    (im2colCodes d x cb aux g codes pad).length = d.d1 * d.d0 := by simp [im2colCodes]

/-- The destination and the source of an IM2COL, with the extents that it ignores as 1 (R281). -/
def im2colDst (dst : List Word) : Desc := { descOf dst with d2 := 1, d3 := 1 }
def im2colSrc (src : List Word) : Desc := { descOf src with d3 := 1 }

/-- What IM2COL accepts: formats alike, a dense destination whose rows hold every tap, and operands that do not overlap (R281, R283). -/
structure Im2colShape (s : State) (d x : Desc) (aux : Nat) (f : Fmt) (cb : Nat) : Prop where
  format : d.format = some f
  source : s.xferShape x false = some f
  block : x.cb = some cb
  layout : d.layout = 0 ∨ d.layout = 3
  room : (sl aux 14 4 + 1) * (sl aux 10 4 + 1) * ((x.d0 + cb - 1) / cb * cb) ≤ d.d0
  apart : (runsSpan (d.runs f.bits)).2 ≤ (runsSpan (x.runs f.bits)).1 ∨ (runsSpan (x.runs f.bits)).2 ≤ (runsSpan (d.runs f.bits)).1

theorem State.xferIm2col_writes {cb : Nat} (h : Im2colShape s (im2colDst dst) (im2colSrc src) aux f cb) (hnew : op.issued = false)
    (hg : s.xferGather n f.bits (runsElems ((im2colSrc src).wholeRuns f.bits)) ((im2colSrc src).wholeRuns f.bits) 0 = (y, t)) (hy : y.near)
    (hw : t.xferParts n f.bits ((im2colDst dst).runs f.bits) [(0, im2colCodes (im2colDst dst) (im2colSrc src) cb aux
      ((s.core n).ctx.getG (sl aux 0 6)).toNat (gathered y.parts) (((s.core n).ctx.getG (sl aux 0 6)).toNat % 2 ^ 16 % 2 ^ f.bits))] = (u, false)) :
    s.xferIm2col n dst src aux op = (.done (u.xferBeats n (((im2colDst dst).d1 * (im2colDst dst).d0 * f.bits + 7) / 8)), []) := by
  obtain ⟨hformat, hsource, hblock, hlayout, hroom, hapart⟩ := h
  have hdense : ((im2colDst dst).layout == 0 || (im2colDst dst).layout == 3) = true := by simpa using hlayout
  have hover : ¬ ((runsSpan ((im2colSrc src).runs f.bits)).1 < (runsSpan ((im2colDst dst).runs f.bits)).2 ∧
      (runsSpan ((im2colDst dst).runs f.bits)).1 < (runsSpan ((im2colSrc src).runs f.bits)).2) := by omega
  have hstore := State.xferStore_stores hw
  rw [im2colCodes_length] at hstore
  rw [State.xferIm2col, ← im2colDst, ← im2colSrc]
  simp only [hformat, hsource, hblock, hdense, decide_eq_false (Nat.not_lt.mpr hroom), decide_eq_false hover, bne_self_eq_false, Bool.not_true,
    Bool.or_self, Bool.false_eq_true, if_false, State.xferWhole_near hnew hg hy]
  exact congrArg (·, []) hstore

/-! ### ZCOMP and ZDECOMP -/

/-- ZCOMP writes the zero-run stream of its source (R288 to R290). -/
theorem State.xferZcomp_writes (hx : s.xferShape (descOf src) false = some f) (hd : (descOf dst).isBytes = true)
    (hroom : 16 + (runsElems ((descOf src).wholeRuns f.bits) + 31) / 32 * (4 + 4 * f.bits) ≤ (descOf dst).d0) (hnew : op.issued = false)
    (hg : s.xferGather n f.bits (runsElems ((descOf src).wholeRuns f.bits)) ((descOf src).wholeRuns f.bits) 0 = (y, t)) (hy : y.near)
    (hw : t.xferWrite n (descOf dst).base (zStream (descOf src).fmt f.bits (aux % 2 ^ 16 % 2 ^ f.bits) (gathered y.parts)) = (u, false)) :
    s.xferZcomp n dst src aux op =
      (.done (u.xferBeats n (zStream (descOf src).fmt f.bits (aux % 2 ^ 16 % 2 ^ f.bits) (gathered y.parts)).length), []) := by
  simp only [State.xferZcomp, hx, hd, decide_eq_false (Nat.not_lt.mpr hroom), Bool.not_true, Bool.or_self, Bool.false_eq_true, if_false,
    State.xferWhole_near hnew hg hy, hw]

/-- A zero-run stream that fits its destination of k elements and expands to codes (R288, R291). -/
structure ZStreamOf (d : Desc) (f : Fmt) (aux : Nat) (bytes : List Byte) (codes : List Nat) : Prop where
  head : 16 ≤ bytes.length
  format : sliceN bytes 14 1 = d.fmt
  count : sliceN bytes 8 6 = runsElems (d.wholeRuns f.bits)
  whole : leNat (bytes.take 8) ≤ bytes.length
  expands : zExpand f.bits (aux % 2 ^ 16 % 2 ^ f.bits) ((bytes.take (leNat (bytes.take 8))).drop 16) (runsElems (d.wholeRuns f.bits))
    ((runsElems (d.wholeRuns f.bits) + 31) / 32) = (codes, false)

/-- ZDECOMP of a well-formed stream writes its elements (R291). -/
theorem State.xferZdecomp_writes {codes : List Nat} (hd : s.xferShape (descOf dst) false = some f) (hx : (descOf src).isBytes = true)
    (hnew : op.issued = false) (hg : s.xferGather n 8 (runsElems ((descOf src).runs 8)) ((descOf src).runs 8) 0 = (y, t)) (hy : y.near)
    (hz : ZStreamOf (descOf dst) f aux ((gathered y.parts).map fun c => BitVec.ofNat 8 c) codes)
    (hw : t.xferParts n f.bits ((descOf dst).wholeRuns f.bits) [(0, codes)] = (u, false)) :
    s.xferZdecomp n dst src aux op = (.done (u.xferBeats n ((codes.length * f.bits + 7) / 8)), []) := by
  obtain ⟨hhead, hformat, hcount, hwhole, hexp⟩ := hz
  simp only [State.xferZdecomp, hd, hx, Bool.not_true, Bool.false_eq_true, if_false, State.xferWhole_near hnew hg hy, Nat.not_lt.mpr hhead, hformat, hcount,
    Nat.not_lt.mpr hwhole, ne_eq, not_true, or_self, hexp, State.xferStore_stores hw]

/-! ### The commands -/

section
variable {n : Fin 16} {dst src : BitVec 8} {l : List (Nat × List Nat)} (hr : s.coreRuns n = true) (ho : s.opReads n = false)

/-- The operation that a command starts: its opcode, descriptor numbers and AUX in the slot, its descriptors and its pattern register (R219). -/
def State.startedOp (s : State) (n opc : Nat) (dst src : BitVec 8) (aux : Nat) : EngOp :=
  { slot := opc * 2 ^ 34 + dst.toNat * 2 ^ 26 + src.toNat * 2 ^ 18 + aux, descs := [s.desc n dst.toNat, s.desc n src.toNat]
    pattern := (s.core n).ctx.getG src.toNat, stream := s.srStream n, bundle := (s.core n).ctx.pc }

/-- The fields of a slot word: opcode, AUX (R219). -/
theorem slot_fields {opc d x aux : Nat} (hd : d < 256) (hx : x < 256) (hopc : opc < 64) (haux : aux < 262144) :
    sl (opc * 2 ^ 34 + d * 2 ^ 26 + x * 2 ^ 18 + aux) 34 6 = opc ∧ sl (opc * 2 ^ 34 + d * 2 ^ 26 + x * 2 ^ 18 + aux) 0 18 = aux := by
  simp only [sl]
  omega

theorem State.startedOp_slot (opc : Nat) {aux : Nat} (hopc : opc < 64) (haux : aux < 262144) :
    sl (s.startedOp n opc dst src aux).slot 34 6 = opc ∧ sl (s.startedOp n opc dst src aux).slot 0 18 = aux :=
  slot_fields dst.isLt src.isLt hopc haux

include ho in
/-- An operation that is done at once leaves the operations waiting as they are. -/
theorem State.xferRun_done (h : (s.setCore n (s.core n)).xferOp n op = (.done t, l)) : s.xferRun n op (s.core n).qXfer = t := by
  rw [State.xferRun, if_neg (by simp [ho])]
  simp only [h]

include hr ho

/-- A command whose operation is done at once leaves what the operation left. -/
theorem State.xferStart_done {opc aux : Nat} (h : (s.setCore n (s.core n)).xferOp n (s.startedOp n opc dst src aux) = (.done t, l)) :
    s.xferStart n opc dst src aux = t := by
  rw [State.xferStart, if_neg (by simp [hr, ho])]
  exact State.xferRun_done ho h

theorem exec_xferCopy_done (h : (s.setCore n (s.core n)).xferCopy n (s.desc n dst.toNat) (s.desc n src.toNat) = .done t) :
    exec (.xferCopy n dst src) s = .next t := by
  obtain ⟨hopc, -⟩ := State.startedOp_slot (s := s) (n := n) (dst := dst) (src := src) 1 (by decide) (Nat.zero_lt_succ _)
  refine congrArg Host.Outcome.next (State.xferStart_done (l := []) hr ho ?_)
  rw [State.xferOp, hopc]
  exact congrArg (·, []) h

theorem exec_xferFill_done (h : (s.setCore n (s.core n)).xferFill n (s.desc n dst.toNat) ((s.ctx n).getG src.toNat) = .done t) :
    exec (.xferFill n dst src) s = .next t := by
  obtain ⟨hopc, -⟩ := State.startedOp_slot (s := s) (n := n) (dst := dst) (src := src) 2 (by decide) (Nat.zero_lt_succ _)
  refine congrArg Host.Outcome.next (State.xferStart_done (l := []) hr ho ?_)
  rw [State.xferOp, hopc]
  exact congrArg (·, []) h

variable {aux : BitVec 18}

theorem exec_xferIm2col_done (h : (s.setCore n (s.core n)).xferIm2col n (s.desc n dst.toNat) (s.desc n src.toNat) aux.toNat
    (s.startedOp n 3 dst src aux.toNat) = (.done t, l)) : exec (.xferIm2col n dst src aux) s = .next t := by
  obtain ⟨hopc, haux⟩ := State.startedOp_slot (s := s) (n := n) (dst := dst) (src := src) 3 (by decide) aux.isLt
  refine congrArg Host.Outcome.next (State.xferStart_done (l := l) hr ho ?_)
  rw [State.xferOp, hopc, haux]
  exact h

theorem exec_xferZcomp_done (h : (s.setCore n (s.core n)).xferZcomp n (s.desc n dst.toNat) (s.desc n src.toNat) aux.toNat
    (s.startedOp n 4 dst src aux.toNat) = (.done t, l)) : exec (.xferZcomp n dst src aux) s = .next t := by
  obtain ⟨hopc, haux⟩ := State.startedOp_slot (s := s) (n := n) (dst := dst) (src := src) 4 (by decide) aux.isLt
  refine congrArg Host.Outcome.next (State.xferStart_done (l := l) hr ho ?_)
  rw [State.xferOp, hopc, haux]
  exact h

theorem exec_xferZdecomp_done (h : (s.setCore n (s.core n)).xferZdecomp n (s.desc n dst.toNat) (s.desc n src.toNat) aux.toNat
    (s.startedOp n 5 dst src aux.toNat) = (.done t, l)) : exec (.xferZdecomp n dst src aux) s = .next t := by
  obtain ⟨hopc, haux⟩ := State.startedOp_slot (s := s) (n := n) (dst := dst) (src := src) 5 (by decide) aux.isLt
  refine congrArg Host.Outcome.next (State.xferStart_done (l := l) hr ho ?_)
  rw [State.xferOp, hopc, haux]
  exact h

end

end Sys2Proof.Machine
end
section
/-! COPY and FILL between runs of 8-bit elements (R219). -/

namespace Sys2Proof.Machine

variable {s t : State} {n k j m : Nat} {dst src : List Word} {f e : Fmt} {l : List Byte}

/-- The bytes l written from k on, all other memory and every register but the beats counted left alone. -/
structure RunWritten (n k : Nat) (l : List Byte) (s t : State) : Prop where
  regs : SameRegs [R.CORE_PERF_VX n] s t
  written : ∀ i, i < l.length → t.rd (k + i) = l.getD i 0
  rest : ∀ a, (a < k ∨ k + l.length ≤ a) → t.rd a = s.rd a

theorem State.xferWrite_run {a : Nat} (hm : 0 < l.length) (hok : ∀ i, i < l.length → s.hit (s.coreAgent n) true (a + i) = .ok (k + i)) :
    ∃ u, s.xferWrite n a l = (u, false) ∧ ∀ beats, RunWritten n k l s (u.xferBeats n beats) := by
  obtain ⟨u, hw, halone, hrd, hrest⟩ := State.xferWrite_lands hm hok
  refine ⟨u, hw, fun beats => ⟨fun off hoff => ?_, hrd, hrest⟩⟩
  rw [State.xferBeats, State.reg_satAdd_ne _ _ _ _ _ (List.ne_of_not_mem_cons hoff), halone.reg]

/-- The first m bytes of the pattern x repeated (R219, log 53). -/
def fillBytes (x m : Nat) : List Byte := ((List.replicate (m / 8 + 1) (leBytes x 8)).flatten).take m

theorem fillBytes_length (x m : Nat) : (fillBytes x m).length = m := by
  have hlen : (leBytes x 8).length = 8 := leBytes_length x 8
  simp [fillBytes, hlen]
  omega

theorem fillBytes_getD (x : Nat) {i : Nat} (hi : i < m) : ((fillBytes x m).getD i 0).toNat = x / 256 ^ (i % 8) % 256 := by
  have hlen : (leBytes x 8).length = 8 := leBytes_length x 8
  have hrep := getD_flatten_replicate (p := leBytes x 8) (m / 8 + 1) i (by rw [hlen]; omega)
  rw [hlen] at hrep
  rw [← leBytes_getD x (i % 8) (Nat.mod_lt i (by decide : 0 < 8)), ← hrep, fillBytes, List.getD_eq_getElem?_getD, List.getElem?_take_of_lt hi,
    ← List.getD_eq_getElem?_getD]

section
variable (hd : OneRun (descOf dst) f) (hok : ∀ i, i < (descOf dst).d0 → s.hit (s.coreAgent n) true ((descOf dst).base + i) = .ok (k + i))
include hd hok

/-- Codes of whole bytes put into a tensor of one run that the core may write. -/
theorem State.xferParts_run (hl : l.length = (descOf dst).d0) : ∃ u,
    s.xferParts n 8 [byteRun (descOf dst).base (descOf dst).d0] [(0, codesOf 8 l (descOf dst).d0)] = (u, false) ∧
      ∀ beats, RunWritten n k l s (u.xferBeats n beats) := by
  rw [State.xferParts_byteRun hd.pos hl]
  exact State.xferWrite_run (hl ▸ hd.pos) fun i hi => hok i (hl ▸ hi)

theorem State.xferFill_run (pattern : Word) :
    ∃ t, s.xferFill n dst pattern = .done t ∧ RunWritten n k (fillBytes pattern.toNat (descOf dst).d0) s t := by
  obtain ⟨u, hw, hrun⟩ := State.xferParts_run hd hok (fillBytes_length pattern.toNat _)
  exact ⟨_, State.xferFill_fills hd hw, hrun _⟩

theorem State.xferCopy_run (hx : OneRun (descOf src) e) (hle : (descOf dst).d0 ≤ (descOf src).d0)
    (hgood : s.readsGood (s.coreAgent n) (descOf src).base (descOf dst).d0) :
    ∃ t, s.xferCopy n dst src = .done t ∧ RunWritten n k (s.readMem (s.coreAgent n) (descOf src).base (descOf dst).d0).bytes s t := by
  obtain ⟨u, hw, hrun⟩ := State.xferParts_run hd hok (s.readMem_length (s.coreAgent n) (descOf dst).d0 (descOf src).base)
  have hone : ((descOf dst).d0 + (descOf src).d0 - 1) / (descOf src).d0 = 1 := by
    have hpos := hd.pos
    rw [Nat.div_eq_iff (by omega)]
    omega
  have hgather := State.xferGather_byteRun hd.pos hle hgood
  rw [← hx.runsFor, ← hone] at hgather
  refine ⟨_, State.xferCopy_copies (t := s) (u := u) (hd.shape s) (hx.shape s) (hd.bits.trans hx.bits.symm) (by rwa [hd.elems, hx.elems]) ?_
    (XRead.near_parts [(0, codesOf 8 (s.readMem (s.coreAgent n) (descOf src).base (descOf dst).d0).bytes (descOf dst).d0)]) ?_, hrun _⟩
  · rwa [hd.bits, hd.elems]
  · rwa [hd.bits, hd.runs]

end

end Sys2Proof.Machine
end

section
open Sys2Proof Sys2Proof.Machine

/-- Settles O13: one run by what a write of its bytes leaves, the other forms by the equation of each operation on a near source. -/
theorem transferOperationsMoveTensors : Obligations.TransferOperationsMoveTensors := by
  unfold Obligations.TransferOperationsMoveTensors
  refine ⟨?bytes, ?copies, ?im2cols, ?streams, ?expansions⟩
  case bytes =>
    intro n dst src k f s hr ho d x hf hbits hlay h1 h2 h3 hok
    have hd : OneRun d f := ⟨hf, hbits, hlay, h1, h2, h3, descOf_d0_pos _⟩
    refine ⟨?_, fun j e he hebits helay he1 he2 he3 hle hgood => ?_⟩
    · obtain ⟨t, hfill, hregs, hwritten, hrest⟩ :=
        State.xferFill_run (s := s.setCore n (s.core n)) hd hok ((s.ctx n).getG src.toNat)
      rw [fillBytes_length] at hwritten hrest
      refine ⟨t, exec_xferFill_done hr ho hfill, hregs, fun i hi => ?_, hrest⟩
      rw [hwritten i hi, fillBytes_getD _ hi]
    · have hx : OneRun x e := ⟨he, hebits, helay, he1, he2, he3, descOf_d0_pos _⟩
      have hreads : s.readsGood (s.coreAgent n) x.base d.d0 := fun i hi => ⟨_, hgood i hi⟩
      obtain ⟨t, hcopy, hregs, hwritten, hrest⟩ := State.xferCopy_run (s := s.setCore n (s.core n)) hd hok hx hle hreads
      rw [State.readMem_length] at hwritten hrest
      exact ⟨t, exec_xferCopy_done hr ho hcopy, hregs,
        fun i hi => (hwritten i hi).trans (State.readMem_getD _ _ _ _ hreads hi (hgood i hi).1), hrest⟩
  case copies =>
    intro n dst src f e y u s hr ho hsame d x hd hx hbits hle hg hwait hbad hfar hw
    refine ⟨_, exec_xferCopy_done hr ho ?_, rfl⟩
    rw [hsame]
    exact State.xferCopy_copies hd hx hbits hle hg ⟨hwait, hbad, hfar⟩ hw
  case im2cols =>
    intro n dst src aux f cb y u s hr ho hsame d x cp kh kw g hformat hx hcb hlay hroom hapart hg hwait hbad hfar codes hw
    have hreg : sl aux.toNat 0 6 = aux.toNat % 64 := congrArg (· % 2 ^ 6) (Nat.div_one _)
    refine ⟨_, exec_xferIm2col_done (l := []) hr ho ?_, rfl⟩
    rw [hsame]
    refine State.xferIm2col_writes ⟨hformat, hx, hcb, hlay, hroom, hapart⟩ rfl hg ⟨hwait, hbad, hfar⟩ ?_
    rw [hreg]
    exact hw
  case streams =>
    intro n dst src aux f y u s hr ho hsame d x l hx hd hroom hg hwait hbad hfar out hw
    refine ⟨_, exec_xferZcomp_done (l := []) hr ho ?_, rfl⟩
    rw [hsame]
    exact State.xferZcomp_writes hx hd hroom rfl hg ⟨hwait, hbad, hfar⟩ hw
  case expansions =>
    intro n dst src aux f y codes u s hr ho hsame d x k hd hx hg hwait hbad hfar bytes hlen hfmt hcount hwhole hexp hw
    refine ⟨_, exec_xferZdecomp_done (l := []) hr ho ?_, rfl⟩
    rw [hsame]
    exact State.xferZdecomp_writes hd hx rfl hg ⟨hwait, hbad, hfar⟩ ⟨hlen, hfmt, hcount, hwhole, hexp⟩ hw

end
